-- ==== Sys2Proof/Word.lean ====
section
/-! DEFINITION. The words of the device: cells, payloads, and the records that commands carry as operands. -/
namespace Sys2Proof

/-- A 32-bit cell: TAG 31:26, CDR 25:24, PAYLOAD 23:0 (R153). -/
abbrev Cell := BitVec 32
/-- The 24 payload bits of a cell (R153); every window register holds one. -/
abbrev Payload := BitVec 24
/-- A 24-bit virtual (or, with translation off, physical) cell address (R12, R288). -/
abbrev VAddr := BitVec 24
/-- A channel number (R19). -/
abbrev Chan := Fin 4
/-- A cell register c0-c31 (R185). -/
abbrev Reg := Fin 32
/-- A byte. -/
abbrev Byte := BitVec 8

/-- A thread with the cell it has fetched at its PC (R194). -/
structure Fetched where
  thread : Fin 8
  cell : Cell
  deriving DecidableEq, Repr

/-- A CAN or Ethernet frame as the port's descriptor and data describe it (Table 19.1). `iface` 0 is bus A, 1 bus B,
2 Ethernet. -/
structure HostFrame where
  iface : Fin 3
  committed : Bool
  sqe : Bool
  ide : Bool
  fdf : Bool
  brs : Bool
  rtr : Bool
  ident : BitVec 29
  seqpos : BitVec 11
  data : List Byte
  deriving DecidableEq, Repr

end Sys2Proof
end

