-- ==== Sys2Proof/Syntax.lean ====
section
/-! DEFINITION. The commands of the device: one constructor per row of spec/opcode_table.json. Instruction rows carry the
channel `c`, the thread `t` and the register and immediate fields of their format (R191); event rows carry the channel and
what the device samples from outside in that step. `o` names a ledger or scales owner: 0-3 a channel, 4 the square. -/
namespace Sys2Proof

/-- One command: a step of the device, whole and indivisible. -/
inductive Instr where
  /-- NOP (R197): Does nothing for one cycle. `t` brings the cell fetched: a NOP word, or a cell no other command stands for, which raises
  the instruction tag fault or the illegal instruction fault (R174, R191, R192). -/
  | nop (c : Chan) (t : Fetched)
  /-- MOV (R197): Copies the whole cell of a into d. -/
  | mov (c : Chan) (t : Fin 8) (d : Reg) (a : Reg)
  /-- MOVI (R197): Writes a signed immediate as FIX into d. -/
  | movi (c : Chan) (t : Fin 8) (d : Reg) (imm : BitVec 11)
  /-- LDK (R198): Loads the constant cell lying imm11 cells before the instruction. -/
  | ldk (c : Chan) (t : Fin 8) (d : Reg) (imm : BitVec 11)
  /-- TAGOF (R197): Delivers the tag code of a as FIX. -/
  | tagof (c : Chan) (t : Fin 8) (d : Reg) (a : Reg)
  /-- TAGEQ (R197): Delivers T when a's tag equals imm6, else NIL. -/
  | tageq (c : Chan) (t : Fin 8) (d : Reg) (a : Reg) (imm : BitVec 6)
  /-- TAGSET (R198): Retags a's payload with imm6 where Table 7.2 allows it. -/
  | tagset (c : Chan) (t : Fin 8) (d : Reg) (a : Reg) (imm : BitVec 6)
  /-- CDROF (R197): Delivers a's CDR field as FIX 0-3. -/
  | cdrof (c : Chan) (t : Fin 8) (d : Reg) (a : Reg)
  /-- IADD (R197): Adds two FIX operands, faulting on overflow. -/
  | iadd (c : Chan) (t : Fin 8) (d : Reg) (a : Reg) (b : Reg)
  /-- ISUB (R197): Subtracts two FIX operands, faulting on overflow. -/
  | isub (c : Chan) (t : Fin 8) (d : Reg) (a : Reg) (b : Reg)
  /-- IADDI (R197): Adds a signed immediate to a FIX operand. -/
  | iaddi (c : Chan) (t : Fin 8) (d : Reg) (a : Reg) (imm : BitVec 6)
  /-- AND (R197): Bitwise AND of two BITS operands. -/
  | opAnd (c : Chan) (t : Fin 8) (d : Reg) (a : Reg) (b : Reg)
  /-- OR (R197): Bitwise OR of two BITS operands. -/
  | opOr (c : Chan) (t : Fin 8) (d : Reg) (a : Reg) (b : Reg)
  /-- XOR (R197): Bitwise XOR of two BITS operands. -/
  | opXor (c : Chan) (t : Fin 8) (d : Reg) (a : Reg) (b : Reg)
  /-- ANDI (R197): Bitwise AND with an immediate. -/
  | andi (c : Chan) (t : Fin 8) (d : Reg) (a : Reg) (imm : BitVec 6)
  /-- SHL (R197): Shifts the payload left by a register amount. -/
  | shl (c : Chan) (t : Fin 8) (d : Reg) (a : Reg) (b : Reg)
  /-- SHR (R197): Logical right shift by a register amount. -/
  | shr (c : Chan) (t : Fin 8) (d : Reg) (a : Reg) (b : Reg)
  /-- SAR (R197): Arithmetic right shift by a register amount. -/
  | sar (c : Chan) (t : Fin 8) (d : Reg) (a : Reg) (b : Reg)
  /-- SHLI (R197): Shifts the payload left by an immediate. -/
  | shli (c : Chan) (t : Fin 8) (d : Reg) (a : Reg) (imm : BitVec 6)
  /-- SHRI (R197): Logical right shift by an immediate. -/
  | shri (c : Chan) (t : Fin 8) (d : Reg) (a : Reg) (imm : BitVec 6)
  /-- SARI (R197): Arithmetic right shift by an immediate. -/
  | sari (c : Chan) (t : Fin 8) (d : Reg) (a : Reg) (imm : BitVec 6)
  /-- EQ (R197): Compares tag and payload of two cells for equality. -/
  | opEq (c : Chan) (t : Fin 8) (d : Reg) (a : Reg) (b : Reg) (v : Bool)
  /-- ILT (R197): Signed less-than of two FIX operands. -/
  | ilt (c : Chan) (t : Fin 8) (d : Reg) (a : Reg) (b : Reg) (v : Bool)
  /-- ULT (R197): Unsigned less-than of two BITS payloads. -/
  | ult (c : Chan) (t : Fin 8) (d : Reg) (a : Reg) (b : Reg) (v : Bool)
  /-- LD (R199): Loads the cell addressed by a pointer and a field offset. -/
  | ld (c : Chan) (t : Fin 8) (d : Reg) (a : Reg) (imm : BitVec 6)
  /-- LDX (R199): Loads the cell addressed by a pointer and a FIX index. -/
  | ldx (c : Chan) (t : Fin 8) (d : Reg) (a : Reg) (b : Reg)
  /-- ST (R200): Stores a cell at a pointer and field offset, keeping the target CDR. -/
  | st (c : Chan) (t : Fin 8) (d : Reg) (a : Reg) (imm : BitVec 6)
  /-- STX (R200): Stores a cell at a pointer and FIX index. -/
  | stx (c : Chan) (t : Fin 8) (d : Reg) (a : Reg) (b : Reg)
  /-- CAS (R201): Indivisible compare-and-swap of a cell at the turnstile. -/
  | cas (c : Chan) (t : Fin 8) (d : Reg) (a : Reg) (b : Reg)
  /-- LDB (R202): Loads one byte of a STR or RAWV object. -/
  | ldb (c : Chan) (t : Fin 8) (d : Reg) (a : Reg) (b : Reg)
  /-- STB (R202): Writes one byte of a STR or RAWV object by an indivisible read-modify-write. -/
  | stb (c : Chan) (t : Fin 8) (d : Reg) (a : Reg) (b : Reg)
  /-- LOCOF (R203): Makes a LOC to the cell LDX would address. -/
  | locof (c : Chan) (t : Fin 8) (d : Reg) (a : Reg) (b : Reg)
  /-- FENCE (R205): Waits until all earlier stores of the thread have their turnstile places. -/
  | fence (c : Chan) (t : Fin 8)
  /-- PUSH (R204): Decrements SP and stores a cell there. -/
  | push (c : Chan) (t : Fin 8) (d : Reg)
  /-- POP (R204): Loads the cell at SP and increments SP. -/
  | pop (c : Chan) (t : Fin 8) (d : Reg)
  /-- LDSP (R204): Loads the cell at SP plus an offset. -/
  | ldsp (c : Chan) (t : Fin 8) (d : Reg) (imm : BitVec 11)
  /-- STSP (R204): Stores a cell at SP plus an offset. -/
  | stsp (c : Chan) (t : Fin 8) (d : Reg) (imm : BitVec 11)
  /-- ADDSP (R204): Adds a signed immediate to SP. -/
  | addsp (c : Chan) (t : Fin 8) (imm : BitVec 11)
  /-- J (R206): Relative jump. -/
  | j (c : Chan) (t : Fin 8) (off : BitVec 16)
  /-- CALL (R206): Relative call writing the return RETA into c15. -/
  | call (c : Chan) (t : Fin 8) (off : BitVec 16)
  /-- BT (R206): Branches when d is not NIL. -/
  | bt (c : Chan) (t : Fin 8) (d : Reg) (off : BitVec 11)
  /-- BF (R206): Branches when d is NIL. -/
  | bf (c : Chan) (t : Fin 8) (d : Reg) (off : BitVec 11)
  /-- JMPR (R206): Jumps to the entry of a CODE object. -/
  | jmpr (c : Chan) (t : Fin 8) (a : Reg)
  /-- CALLR (R206): Calls a CODE or CLO object, writing the return RETA. -/
  | callr (c : Chan) (t : Fin 8) (d : Reg) (a : Reg)
  /-- RET (R206): Returns to the address in a RETA. -/
  | ret (c : Chan) (t : Fin 8) (a : Reg)
  /-- LOOP (R207): Sets up a hardware loop with LOOPS, LOOPE and LOOPC. -/
  | loop (c : Chan) (t : Fin 8) (d : Reg) (off : BitVec 11)
  /-- WAIT (R210): Waits until a signal selected by the mask is pending, then takes it. -/
  | wait (c : Chan) (t : Fin 8) (a : Reg)
  /-- SIG (R211): Sets the pending bit of a software signal. -/
  | sig (c : Chan) (t : Fin 8) (a : Reg)
  /-- SVC (R213): Completes and raises the supervisor call trap. -/
  | svc (c : Chan) (t : Fin 8) (imm : BitVec 11)
  /-- RETE (R274): Returns from the thread's current stack or shadow event level. -/
  | rete (c : Chan) (t : Fin 8)
  /-- UENTER (R213): Enters user mode at a CODE entry or RETA target. -/
  | uenter (c : Chan) (t : Fin 8) (a : Reg)
  /-- TSTART (R212): Starts a stopped thread with a given stack and code entry. -/
  | tstart (c : Chan) (t : Fin 8) (d : Reg) (a : Reg) (b : Reg)
  /-- THALT (R212): Stops the executing thread after its stores take their places. -/
  | thalt (c : Chan) (t : Fin 8)
  /-- MFS (R188): Reads a thread special or channel supervisor register. -/
  | mfs (c : Chan) (t : Fin 8) (d : Reg) (imm : BitVec 11)
  /-- MTS (R188): Writes a thread special or channel supervisor register after checks. -/
  | mts (c : Chan) (t : Fin 8) (d : Reg) (imm : BitVec 11)
  /-- MTS_VBASE (R261): MTS to VBASE checks the new vector table and loads the attribute store. -/
  | mtsVbase (c : Chan) (t : Fin 8) (d : Reg)
  /-- WDKICK (R123): Sets the watchdog count to 0. -/
  | wdkick (c : Chan) (t : Fin 8)
  /-- LGREAD (R92): Reads a word of the own or square ledger partition. -/
  | lgread (c : Chan) (t : Fin 8) (d : Reg) (a : Reg)
  /-- LGWRITE (R93): Queues a user-area ledger word when room allows. -/
  | lgwrite (c : Chan) (t : Fin 8) (d : Reg) (a : Reg) (b : Reg)
  /-- FLXFER (R150): Performs one boot flash bus transaction from a near-store command block. -/
  | flxfer (c : Chan) (t : Fin 8) (d : Reg) (a : Reg) (timedOut : Bool) (standbyFailed : Bool) (reply : List (BitVec 8))
  /-- ADD (R220): Generic addition with tag-dependent result type. -/
  | add (c : Chan) (t : Fin 8) (d : Reg) (a : Reg) (b : Reg)
  /-- SUB (R220): Generic subtraction. -/
  | sub (c : Chan) (t : Fin 8) (d : Reg) (a : Reg) (b : Reg)
  /-- MUL (R220): Generic multiplication. -/
  | mul (c : Chan) (t : Fin 8) (d : Reg) (a : Reg) (b : Reg)
  /-- FDIV (R221): Generic float division. -/
  | fdiv (c : Chan) (t : Fin 8) (d : Reg) (a : Reg) (b : Reg)
  /-- QUO (R222): Integer quotient truncated toward zero. -/
  | quo (c : Chan) (t : Fin 8) (d : Reg) (a : Reg) (b : Reg)
  /-- REM (R222): Integer remainder with the dividend's sign. -/
  | rem (c : Chan) (t : Fin 8) (d : Reg) (a : Reg) (b : Reg)
  /-- NEG (R220): Generic negation. -/
  | neg (c : Chan) (t : Fin 8) (d : Reg) (a : Reg)
  /-- ADDI (R220): Generic addition of a signed immediate. -/
  | addi (c : Chan) (t : Fin 8) (d : Reg) (a : Reg) (imm : BitVec 6)
  /-- NUMEQ (R223): Generic numeric equality. -/
  | numeq (c : Chan) (t : Fin 8) (d : Reg) (a : Reg) (b : Reg) (v : Bool)
  /-- NUMLT (R223): Generic numeric less-than. -/
  | numlt (c : Chan) (t : Fin 8) (d : Reg) (a : Reg) (b : Reg) (v : Bool)
  /-- TOSF (R224): Converts a numeric value to SFLT. -/
  | tosf (c : Chan) (t : Fin 8) (d : Reg) (a : Reg)
  /-- TOF32 (R224): Converts a numeric value to a new FLT32 box. -/
  | tof32 (c : Chan) (t : Fin 8) (d : Reg) (a : Reg)
  /-- TRUNC (R224): Truncates a numeric value toward zero to an integer. -/
  | trunc (c : Chan) (t : Fin 8) (d : Reg) (a : Reg)
  /-- FADD (R226): Short-float addition. -/
  | fadd (c : Chan) (t : Fin 8) (d : Reg) (a : Reg) (b : Reg)
  /-- FSUB (R226): Short-float subtraction. -/
  | fsub (c : Chan) (t : Fin 8) (d : Reg) (a : Reg) (b : Reg)
  /-- FMUL (R226): Short-float multiplication. -/
  | fmul (c : Chan) (t : Fin 8) (d : Reg) (a : Reg) (b : Reg)
  /-- FDV (R226): Short-float division. -/
  | fdv (c : Chan) (t : Fin 8) (d : Reg) (a : Reg) (b : Reg)
  /-- ALLOC (R228): Allocates and initialises one object from the thread's pitch. -/
  | alloc (c : Chan) (t : Fin 8) (d : Reg) (a : Reg) (imm : BitVec 6)
  /-- ALLOCL (R229): Allocates a large object over a run of FREE regions made LARGE. -/
  | allocl (c : Chan) (t : Fin 8) (d : Reg) (a : Reg) (imm : BitVec 6)
  /-- ALLOCL_BODY_FILL (R229): The sweeper writes one line of a reserved large object's body. -/
  | alloclBodyFill (c : Chan) (t : Fin 8)
  /-- ZLINE (R230): Writes sixteen FIX 0 cells of an object as one line. -/
  | zline (c : Chan) (t : Fin 8) (a : Reg) (b : Reg)
  /-- CAR (R231): Delivers the car of a list cell. -/
  | car (c : Chan) (t : Fin 8) (d : Reg) (a : Reg)
  /-- CDR (R231): Delivers the cdr of a list cell under its CDR code. -/
  | opCdr (c : Chan) (t : Fin 8) (d : Reg) (a : Reg)
  /-- CONS (R232): Allocates a two-cell pair. -/
  | opCons (c : Chan) (t : Fin 8) (d : Reg) (a : Reg) (b : Reg)
  /-- LIST (R232): Builds a compact or dotted list from registers. -/
  | opList (c : Chan) (t : Fin 8) (d : Reg) (a : Reg) (imm : BitVec 6)
  /-- RPLACD (R233): Replaces the cdr of a list cell, forwarding compact cells to a new pair. -/
  | rplacd (c : Chan) (t : Fin 8) (a : Reg) (b : Reg)
  /-- ENDP (R231): Delivers T for NIL and NIL for CONS. -/
  | endp (c : Chan) (t : Fin 8) (d : Reg) (a : Reg)
  /-- MAC (R235): Adds or subtracts a FIX product into ACC, trapping on overflow. -/
  | mac (c : Chan) (t : Fin 8) (a : Reg) (b : Reg) (v : Bool)
  /-- MACS (R235): Adds or subtracts a FIX product into ACC with saturation. -/
  | macs (c : Chan) (t : Fin 8) (a : Reg) (b : Reg) (v : Bool)
  /-- ACCZ (R236): Clears ACC. -/
  | accz (c : Chan) (t : Fin 8)
  /-- ACCGET (R236): Delivers ACC rounded and shifted as a canonical integer. -/
  | accget (c : Chan) (t : Fin 8) (d : Reg) (imm : BitVec 6)
  /-- SAVEL (R283): Saves the lower context half into a crate from CFREE and pushes it on CHAIN. -/
  | savel (c : Chan) (t : Fin 8) (imm : BitVec 11)
  /-- SAVEU (R283): Saves the upper context half into a crate and pushes it on CHAIN. -/
  | saveu (c : Chan) (t : Fin 8)
  /-- LOADL (R284): Restores the lower half from the chain head, returns the crate and transfers to RESUME. -/
  | loadl (c : Chan) (t : Fin 8)
  /-- LOADU (R284): Restores the upper half from the chain head and returns the crate. -/
  | loadu (c : Chan) (t : Fin 8)
  /-- TLBINV (R308): Removes selected look-aside entries from both cores. -/
  | tlbinv (c : Chan) (t : Fin 8) (a : Reg) (imm : BitVec 6)
  /-- TLBPROBE (R309): Walks a VPN and ASID and delivers the IPT index found. -/
  | tlbprobe (c : Chan) (t : Fin 8) (d : Reg) (a : Reg)
  /-- CACHEON (R313): Enables the selected caches once CINVALL has completed. -/
  | cacheon (c : Chan) (t : Fin 8) (imm : BitVec 6)
  /-- CACHEOFF (R313): Drains, invalidates and disables the selected caches. -/
  | cacheoff (c : Chan) (t : Fin 8) (imm : BitVec 6)
  /-- CINVALL (R333): Invalidates all caches and prefetch buffers and sets INVD. -/
  | cinvall (c : Chan) (t : Fin 8)
  /-- CRANGE (R326): Starts the range engine over a range of memory pages. -/
  | crange (c : Chan) (t : Fin 8) (d : Reg) (a : Reg) (b : Reg)
  /-- RANGE_ENGINE_DONE (R326): The range engine finishes its run, clears RBUSY and raises vector 88. -/
  | rangeEngineDone (c : Chan)
  /-- ROOTSCAN (R350): Serves the thread's root request by pushing or fixing its root set. -/
  | rootscan (c : Chan) (t : Fin 8)
  /-- CHECKPOINT (R411): Captures all threads into a crate set and places the epoch COMMIT marker. -/
  | checkpoint (c : Chan) (t : Fin 8) (d : Reg)
  /-- PMREAD (R493): Delivers a 48-bit performance counter as two RAW cells. -/
  | pmread (c : Chan) (t : Fin 8) (d : Reg) (a : Reg)
  /-- EVENT_ENTRY_STACK (R268): Enters an event by pushing a 48-cell event frame on the supervisor stack. -/
  | eventEntryStack (c : Chan) (t : Fin 8)
  /-- EVENT_ENTRY_SHADOW (R271): Enters an event by swapping c0-c15 with the shadow bank. -/
  | eventEntryShadow (c : Chan) (t : Fin 8)
  /-- HOLD_WINDOW_EXPIRY (R266): An open HOLD window expires and signals may be taken again. -/
  | holdWindowExpiry (c : Chan) (t : Fin 8)
  /-- STALEMATE (R277): The stalemate condition holds for 256 slow-clock periods and vector 39 becomes pending for thread 0. -/
  | stalemate (c : Chan)
  /-- HEAL (R347): A posted compare-and-swap rewrites the source cell with the forwarded payload. -/
  | heal (c : Chan)
  /-- LINE_FILL (R315): The line of a cache miss arrives and is installed. -/
  | lineFill (c : Chan) (k : Fin 2) (dcache : Bool)
  /-- PREFETCH_ARRIVAL (R322): A prefetched line arrives in the prefetch buffer. -/
  | prefetchArrival (c : Chan) (k : Fin 2) (dcache : Bool)
  /-- WRITE_BUFFER_DRAIN (R317): The oldest write buffer entry takes its turnstile place and updates caches. -/
  | writeBufferDrain (c : Chan) (k : Fin 2)
  /-- TURNSTILE_GRANT (R328): The turnstile grants one step per cycle to the next requesting agent in rotation. -/
  | turnstileGrant (c : Chan)
  /-- WAKE_TIMER_ARM (R120): Writing WTnCTL.ARM := 1 loads the deadline into the comparator. -/
  | wakeTimerArm (c : Chan) (n : Fin 8)
  /-- WAKE_TIMER_DISARM (R122): Writing WTnCTL.ARM := 0 disarms the wake timer. -/
  | wakeTimerDisarm (c : Chan) (n : Fin 8)
  /-- WAKE_TIMER_EXPIRY (R120): The timebase reaches the deadline; event 64+n becomes pending and the timer reloads or disarms. -/
  | wakeTimerExpiry (c : Chan) (n : Fin 8)
  /-- FAST_TIMER_ARM (R121): Writing FTnCTL.ARM := 1 loads FTnCNT from FTnRLD. -/
  | fastTimerArm (c : Chan) (n : Fin 8) (pre : BitVec 2) (periodic : Bool)
  /-- FAST_TIMER_DISARM (R122): Writing FTnCTL.ARM := 0 disarms the fast timer. -/
  | fastTimerDisarm (c : Chan) (n : Fin 8) (pre : BitVec 2) (periodic : Bool)
  /-- FAST_TIMER_EXPIRY (R121): FTnCNT reaches zero; event 72+n becomes pending and the timer reloads or disarms. -/
  | fastTimerExpiry (c : Chan) (n : Fin 8)
  /-- TBL_READ (R112): Reading TBL returns timebase bits 23:0 and captures bits 47:24 for the thread. -/
  | tblRead (c : Chan) (t : Fin 8)
  /-- PWRSTAT_READ (R128): Reading PWRSTAT returns the deepest state and clears it. -/
  | pwrstatRead (c : Chan)
  /-- IDLE_ENTRY (R114): A core gates its clock once all its threads wait; both gated is IDLE. -/
  | idleEntry (c : Chan) (k : Fin 2)
  /-- DOZE_ENTRY (R115): After DOZEDLY in IDLE the channel drains, powers down ways 1-3 and gates the cores. -/
  | dozeEntry (c : Chan)
  /-- SLEEP_ENTRY (R116): The channel powers down way 0, enters memory self-refresh and stops the PLL. -/
  | sleepEntry (c : Chan)
  /-- WAKE (R117): An event pending in IDLE, DOZE or SLEEP returns the channel to RUN. -/
  | wake (c : Chan)
  /-- PRE_WAKE (R118): The timebase reaches three periods before the nearest wake deadline and the wake starts. -/
  | preWake (c : Chan)
  /-- PWRCTL_OFF (R119): Writing PWRCTL with KEY 0x5A and OFF 1 puts the channel into OFF. -/
  | pwrctlOff (c : Chan) (key : BitVec 8)
  /-- SUPPLY_MONITOR_WARNING (R103): A rail or junction beyond a warning limit for 10 us sets WARN and event 45. -/
  | supplyMonitorWarning (c : Chan) (rail : Fin 6) (reading : BitVec 16)
  /-- SUPPLY_MONITOR_OFF (R103): A rail or junction beyond an off limit for 2 us puts the channel into OFF. -/
  | supplyMonitorOff (c : Chan) (rail : Fin 6) (reading : BitVec 16)
  /-- VTX_DRIVE_RESTORED (R484): VTX within limits for 10 ms clears VTXF and raises vector 148 with FIX 1. -/
  | vtxDriveRestored (c : Chan)
  /-- OFF_RETURN (R105): Rails and junction back in limits for 1 ms return the channel from OFF by a reset. -/
  | offReturn (c : Chan)
  /-- MONITOR_READING_UPDATE (R103): Monitor readings update every 32 slow-clock periods. -/
  | monitorReadingUpdate (c : Chan) (vdd : BitVec 16) (vddq : BitVec 16) (vaon : BitVec 16) (vio : BitVec 16) (vtx : BitVec 16) (tj : BitVec 16)
  /-- REFERENCE_CLOCK_FAULT (R110): A bad edge count or PLL lock loss halts the channel. -/
  | referenceClockFault (c : Chan) (count : BitVec 16)
  /-- SLOW_CLOCK_TRIM (R111): Every 1,024 periods the slow clock is measured and TRIM set. -/
  | slowClockTrim (c : Chan) (trim : BitVec 10) (tj : BitVec 16)
  /-- PIN_RESET (R126): CHn_RST_N low for 2 slow-clock periods resets the channel. -/
  | pinReset (c : Chan)
  /-- RELEASE_OF_RESET (R102): The latest of POR_N high, CHn_RST_N high and supply-good starts the channel. -/
  | releaseOfReset (c : Chan)
  /-- CHN_EN_SAMPLE (R64): CHn_EN is sampled at 32 periods and keeps the channel in reset when low. -/
  | chnEnSample (c : Chan) (level : Bool)
  /-- LEDGER_SNAPSHOT_READ (R79): Both strap snapshot copies are read after release of reset. -/
  | ledgerSnapshotRead (o : Fin 5)
  /-- STRAP_MEASUREMENT (R52): The scales complete the two-phase measurement of one resistor-coded pin. -/
  | strapMeasurement (c : Chan) (pin : Fin 8) (phase0 : BitVec 10) (c0 : BitVec 10) (c1 : BitVec 10) (c2 : BitVec 10) (c3 : BitVec 10)
  /-- SQUARE_STRAP_MEASUREMENT (R56): The square measures its four device pins after POR_N release. -/
  | squareStrapMeasurement (pin : Fin 4) (phase0 : BitVec 10) (c0 : BitVec 10) (c1 : BitVec 10) (c2 : BitVec 10) (c3 : BitVec 10)
  /-- MONITORING_ROUND (R65): Every 60 s the straps are re-measured and their status reported. -/
  | monitoringRound (o : Fin 5) (codes : List (BitVec 16))
  /-- DRIFTCTL (R66): Writing DEVEN enables the strap drift event source. -/
  | driftctl (c : Chan) (value : BitVec 24)
  /-- LEDGER_SCAN (R79): The writer finishes scanning record positions and sets the sequence counter. -/
  | ledgerScan (o : Fin 5)
  /-- STAGING_QUEUE_ARRIVAL (R88): An error record or user word arrives at the staging queue. -/
  | stagingQueueArrival (o : Fin 5) (cls : BitVec 6) (spec : Bool) (flag : Bool) (detail : BitVec 32)
  /-- LEDGER_WORD_WRITE (R86): The writer completes one word write with read-back every 2 slow-clock periods. -/
  | ledgerWordWrite (o : Fin 5) (firstOk : Bool) (secondOk : Bool)
  /-- BOOTGOOD (R96): Writing LGCTL.BOOTGOOD requests the boot record and snapshot writes. -/
  | bootgood (c : Chan)
  /-- PINCLR (R83): Writing LGCTL.PINCLR queues emptying of the pinned error log slots. -/
  | pinclr (c : Chan)
  /-- FLASH_DISCOVERY (R131): The channel resets the flash, reads JESD216 and selects the boot mode. -/
  | flashDiscovery (c : Chan) (found : Bool) (density : BitVec 16) (modes : BitVec 6)
  /-- FLASH_TRANSACTION_TIMEOUT (R132): A flash transaction not complete within 1 ms counts as flash not found. -/
  | flashTransactionTimeout (c : Chan)
  /-- SLOT_ATTEMPT (R140): The boot record of an attempt commits and loading of the slot begins. -/
  | slotAttempt (c : Chan) (hdr0 : List (BitVec 8)) (hdr1 : List (BitVec 8))
  /-- SLOT_LOAD (R138): A slot's sections are loaded and verified, passing or failing. -/
  | slotLoad (c : Chan) (image : List (BitVec 8))
  /-- BOOT_RETRY (R142): With both slots failed the boot is retried every 327,680 periods. -/
  | bootRetry (c : Chan)
  /-- IMAGE_APPLY (R143): The passing image's patch, vector table, host port setup and calibration are applied. -/
  | imageApply (c : Chan)
  /-- FIRST_INSTRUCTION (R146): After the boot record commits thread 0 starts at ENTRY and the watchdog starts. -/
  | firstInstruction (c : Chan)
  /-- FULL_TRAINING (R376): The controller completes full training of the populated subchannels. -/
  | fullTraining (c : Chan) (sub : Bool) (failStep : BitVec 4) (temp : BitVec 8) (rfmA : Bool) (rfmB : Bool)
  /-- TRAINING_RETRY (R379): Training is retried every 327,680 slow-clock periods after a failure. -/
  | trainingRetry (c : Chan)
  /-- RESTORE_AND_VERIFY (R377): A restored training is verified, giving a warm boot or full training. -/
  | restoreAndVerify (c : Chan) (pass : Bool) (line : BitVec 32) (rfmA : Bool) (rfmB : Bool)
  /-- COMMAND_ISSUE (R370): Each subchannel scheduler issues at most one command per controller clock. -/
  | commandIssue (c : Chan) (sub : Bool)
  /-- REQUEST_COMPLETE (R371): A request's last data beat passes and its entry is freed. -/
  | requestComplete (c : Chan) (sub : Bool) (strobeMissing : Bool) (again : Bool)
  /-- ROW_IDLE_CLOSE (R372): An open row idle for 256 controller clocks is closed. -/
  | rowIdleClose (c : Chan) (sub : Bool) (bank : Fin 32)
  /-- REFRESH (R382): An all-bank refresh is issued each refresh interval. -/
  | refresh (c : Chan) (sub : Bool)
  /-- RETRAINING_SLICE (R380): Every 10 ms one byte lane of each subchannel is retrained. -/
  | retrainingSlice (c : Chan) (okA : Bool) (okB : Bool)
  /-- TEMPERATURE_READ (R381): Every 1 ms component temperatures are read and may start a new pass. -/
  | temperatureRead (c : Chan) (tA : BitVec 8) (tB : BitVec 8)
  /-- COUNTING_WINDOW_BOUNDARY (R387): At each window boundary all disturbance counters become free. -/
  | countingWindowBoundary (c : Chan) (sub : Bool)
  /-- PATROL_SCRUB (R394): Every 100 us one line of each subchannel is read and checked. -/
  | patrolScrub (c : Chan)
  /-- WRITE_CRC_ALERT (R392): A component alert reissues open writes or poisons the line after the third failure. -/
  | writeCrcAlert (c : Chan) (sub : Bool)
  /-- PANIC (R374): The display line buffer falls below its watermark and display requests are promoted. -/
  | panic (c : Chan)
  /-- PANIC_LIMIT (R374): A panic episode ends at the 8 us limit and is counted as a cutoff. -/
  | panicLimit (c : Chan)
  /-- BOUNDARY_DIVERGENCE (R397): A core and checker output mismatch at the boundary halts the channel. -/
  | boundaryDivergence (c : Chan) (k : Fin 2)
  /-- REGISTER_SIGNATURE (R398): At each 65,536 cycles the core and checker form and compare signatures. -/
  | registerSignature (c : Chan) (k : Fin 2) (same : Bool)
  /-- CHECKER_FAULT (R399): A two-rail or delay-register parity failure halts the channel. -/
  | checkerFault (c : Chan) (k : Fin 2) (parity : Bool)
  /-- UNIT_COMPARE_MISMATCH (R511): The copies of a duplicated unit disagree and the channel halts. -/
  | unitCompareMismatch (c : Chan) (unit : BitVec 4) (crossCheck : Bool)
  /-- CYCLE_COUNTER_WRAP (R492): A core cycle counter wraps and the counts record wrap count increments. -/
  | cycleCounterWrap (c : Chan) (k : Fin 2)
  /-- SLOT_ENABLE (R335): Writing SPCTL EN=1 in IDLE loads the region map and clears the side area. -/
  | slotEnable (c : Chan) (s : Fin 8) (asid : BitVec 8)
  /-- SLOT_DISABLE (R335): Writing SPCTL EN=0 in IDLE drops pitches and freezes the map. -/
  | slotDisable (c : Chan) (s : Fin 8)
  /-- YOUNG_CYCLE_COMMAND (R348): SWCMD OP 1 starts a young cycle on an enabled slot. -/
  | youngCycleCommand (c : Chan) (s : Fin 8)
  /-- FULL_CYCLE_COMMAND (R348): SWCMD OP 2 starts a full cycle on an enabled slot. -/
  | fullCycleCommand (c : Chan) (s : Fin 8)
  /-- REGION_SET (R338): SWCMD OP 3 changes a region's kind and ROOT within the allowed changes. -/
  | regionSet (c : Chan) (s : Fin 8) (region : BitVec 8) (kind : BitVec 3) (root : Bool)
  /-- SWCMD_INVALID (R358): SWCMD with OP 4-15 is refused with RESULT 2. -/
  | swcmdInvalid (c : Chan) (op : BitVec 4)
  /-- AUTOMATIC_CYCLE_START (R348): A slot meeting LOWMARK or NURTRIG starts a cycle by itself. -/
  | automaticCycleStart (c : Chan)
  /-- PITCH_REFILL (R341): The sweeper hands a new pitch to a thread or refuses it. -/
  | pitchRefill (c : Chan) (s : Fin 8) (t : Fin 8)
  /-- LOG_DRAIN (R345): The sweeper drains one remembered-set log entry into the card bitmap. -/
  | logDrain (c : Chan)
  /-- MARK_QUEUE_SPILL (R351): A full mark queue writes its oldest 16 entries to the spill area. -/
  | markQueueSpill (c : Chan)
  /-- MARK_END (R351): Marking finishes when queue, spill and root regions are done. -/
  | markEnd (c : Chan)
  /-- SWEEPER_COPY (R353): The sweeper copies one cell of a marked extent and installs its forward. -/
  | sweeperCopy (c : Chan)
  /-- EVACUATE_END (R353): Evacuation completes and FIXUP raises its root requests. -/
  | evacuateEnd (c : Chan)
  /-- FIXUP_END (R354): FIXUP frees EVAC regions, clears marks and raises vector 80. -/
  | fixupEnd (c : Chan)
  /-- LINK_TRAINING (R449): A DLINK store with START=1 starts eDP link training. -/
  | linkTraining (c : Chan) (rate : BitVec 2) (lanes : BitVec 2)
  /-- LINK_TRAINING_DONE (R449): Link training ends, DLRES is written and vector 128 raised. -/
  | linkTrainingDone (c : Chan) (result : BitVec 3) (lanes : BitVec 2) (rate : BitVec 2)
  /-- AUX_TRANSACTION (R450): An AUXCTL store with START=1 starts one AUX transaction. -/
  | auxTransaction (c : Chan) (op : BitVec 2) (mot : Bool) (len : BitVec 4)
  /-- AUX_DONE (R450): The AUX transaction ends with AUXSTAT and vector 129. -/
  | auxDone (c : Chan) (result : BitVec 2) (reply : List (BitVec 8))
  /-- HPD (R451): HPD plug, unplug or IRQ_HPD is recognised and vector 131 raised. -/
  | hpd (c : Chan) (kind : BitVec 2)
  /-- VERTICAL_START (R452): At the vertical start the plane registers and palette are latched. -/
  | verticalStart (c : Chan)
  /-- UNDERRUN (R456): A pixel's cell is late and the plane is transparent for the scan line. -/
  | underrun (c : Chan) (planes : BitVec 4)
  /-- DCTL_DIRTY (R457): A store of DCTL.DIRTY marks a change for self refresh. -/
  | dctlDirty (c : Chan)
  /-- PSR_ENTRY (R457): After N unchanged display frames the engine enters panel self refresh. -/
  | psrEntry (c : Chan)
  /-- NTC_MEASUREMENT (R460): Every 10 ms the NTC is measured and the derating limit computed. -/
  | ntcMeasurement (c : Chan) (code : BitVec 10)
  /-- AMBIENT_LIGHT_POLL (R461): The I2C controller polls the ambient light sensor each period. -/
  | ambientLightPoll (c : Chan) (ok : Bool) (value : BitVec 16)
  /-- KEY_SCAN (R462): Every 32 periods the key matrix is scanned and debounced. -/
  | keyScan (c : Chan) (pressed : BitVec 64)
  /-- KEVT (R462): A load of KEVT pops the oldest key event. -/
  | kevt (c : Chan)
  /-- ENCODER_TRANSITION (R463): An accepted quadrature transition changes the encoder count. -/
  | encoderTransition (c : Chan) (e : Fin 4) (a : Bool) (b : Bool)
  /-- GPIO_EDGE (R464): A selected GPIO edge makes vector 192+k pending. -/
  | gpioEdge (c : Chan) (pin : Fin 8) (level : Bool)
  /-- WAKE_PIN_EDGE (R128): A CHn_WAKE_N falling edge raises event 223 when enabled. -/
  | wakePinEdge (c : Chan)
  /-- BUZZER_START (R465): A BZCTL store with START=1 sounds the buzzer. -/
  | buzzerStart (c : Chan) (k : Fin 2) (duty : BitVec 8)
  /-- BUZZER_STOP (R465): A BZCTL store with START=0 stops the buzzer at the end of a period. -/
  | buzzerStop (c : Chan) (k : Fin 2)
  /-- BUZZER_DURATION_EXPIRY (R465): The buzzer stops after BZDUR slow-clock periods. -/
  | buzzerDurationExpiry (c : Chan) (k : Fin 2)
  /-- I2C_TRANSACTION (R467): An I2CCMD store with START=1 runs one I2C transaction. -/
  | i2cTransaction (c : Chan) (addr : BitVec 7) (wlen : BitVec 4) (rlen : BitVec 4)
  /-- I2C_DONE (R467): The I2C transaction ends with I2CSTAT and vector 224. -/
  | i2cDone (c : Chan) (result : BitVec 3) (reply : List (BitVec 8))
  /-- WATCHDOG_EARLY_WARNING (R124): The watchdog count reaches WDWARN and event 40 becomes pending. -/
  | watchdogEarlyWarning (c : Chan)
  /-- WATCHDOG_EXPIRY (R124): The watchdog count reaches the period and the channel resets itself. -/
  | watchdogExpiry (c : Chan)
  /-- SCAN_START (R471): A TCTL store of SCAN=1 starts touch reports. -/
  | scanStart (c : Chan)
  /-- SCAN_STOP (R482): A TCTL store of SCAN=0 stops scanning after the current report. -/
  | scanStop (c : Chan)
  /-- BASELINE_RESET (R475): A TCTL store of BLRESET=1 resets baselines at the next report. -/
  | baselineReset (c : Chan)
  /-- REPORT (R480): A touch report completes, contacts are tracked and vector 145 raised. -/
  | report (c : Chan) (nodes : List (BitVec 16)) (electrodes : List (BitVec 16)) (noise : List (BitVec 16))
  /-- RAW_CAPTURE_ARM (R481): A store of RAWCTL.CAPTURE=1 arms a capture. -/
  | rawCaptureArm (c : Chan)
  /-- TRPT (R480): A load of TRPT copies the latest report into the contact table. -/
  | trpt (c : Chan)
  /-- APPROACH_RUN (R482): Every 1,048 periods the approach scan sums the receive electrodes. -/
  | approachRun (c : Chan) (sum : BitVec 24)
  /-- TXPUSH (R431): A load of TXPUSH(s) offers a staging slot to the outbound queue. -/
  | txpush (c : Chan) (s : Fin 8)
  /-- RXPOP (R439): A load of RXPOP removes the head frame of the inbound ring. -/
  | rxpop (c : Chan)
  /-- FRAME_TRANSMISSION (R435): An interface completes sending a frame and compares it against other channels' filters. -/
  | frameTransmission (i : Fin 3) (outcome : BitVec 2)
  /-- FRAME_RECEPTION (R438): A frame received without error is filtered into channel rings. -/
  | frameReception (f : HostFrame) (outcome : BitVec 2)
  /-- BUS_OFF_RECOVERY (R425): A bus-off CAN bus recovers after 128 occurrences of 11 recessive bits. -/
  | busOffRecovery (bus : Fin 2)
  /-- PHY_POLL (R428): Every 10 ms the square reads PHY registers and follows link changes. -/
  | phyPoll (link : Bool) (fast : Bool) (full : Bool)
  /-- LAST_GASP (R442): When a channel holding an identity fails, the square drops its queue and sends its last-gasp frames. -/
  | lastGasp (c : Chan)
  /-- SQUARE_FAILURE (R446): A square divergence, uncorrectable state error or supply off limit fails the square. -/
  | squareFailure (kind : BitVec 4) (rail : Bool) (reading : BitVec 16)
  /-- MIRROR_RECORD_APPLY (R406): The standby applies a complete in-sequence mirror record. -/
  | mirrorRecordApply (c : Chan) (crcOk : Bool)
  /-- MIRROR_ACKNOWLEDGEMENT (R406): The active receives an acknowledgement or negative acknowledgement and resends. -/
  | mirrorAcknowledgement (c : Chan) (seq : BitVec 24) (negative : Bool)
  /-- LINK_FAILURE (R407): 16 resends or 20 us without acknowledgement fail the mirror link. -/
  | linkFailure (c : Chan)
  /-- EPOCH_OVERDUE (R413): 50 ms without a commit records kind 4 and raises vector 43. -/
  | epochOverdue (c : Chan)
  /-- PAIR_BREAK (R409): Back-pressure for 2 ms without a commit breaks the pair. -/
  | pairBreak (c : Chan)
  /-- FAILOVER (R415): The active's health line reads failed for 4 us and the standby takes over. -/
  | failover (c : Chan)
  /-- STANDBY_LOSS (R420): The standby fails and the active continues without a standby. -/
  | standbyLoss (c : Chan)
  /-- JOIN_REQUEST (R421): A rejoining channel requests to join and the active copies memory to it. -/
  | joinRequest (c : Chan)
  /-- COPY_COMPLETE (R421): The rejoin copy completes and PRSTAT.READY reads 1. -/
  | copyComplete (c : Chan)
  /-- SAMPLING_COUNTDOWN_EXPIRY (R500): A core's sampling countdown reaches 0 and the next instruction is marked. -/
  | samplingCountdownExpiry (c : Chan) (k : Fin 2)
  /-- TALLY_RECORD_WRITE (R495): A queued tally or sample record is written to the tally buffer. -/
  | tallyRecordWrite (c : Chan)
  /-- TLACK (R497): A store of TLACK marks the N oldest records read. -/
  | tlack (c : Chan) (n : BitVec 10)
  /-- TLCLR (R497): A store of TLCLR=1 clears HEAD, COUNT, STOPPED and WRAPPED. -/
  | tlclr (c : Chan)
  /-- STAMPL_READ (R494): Reading STAMPL returns TIME and captures WRAP for the thread. -/
  | stamplRead (c : Chan) (t : Fin 8)
  /-- MCPEAK_READ (R375): Reading MCPEAK returns the highest occupancy and clears it. -/
  | mcpeakRead (c : Chan)
  /-- WINDOW_REGISTER_WRITE (R8): A write to a window register without a row of its own sets operating state. -/
  | windowRegisterWrite (c : Chan) (offset : BitVec 18) (value : BitVec 24)
  /-- BUS_INTEGRATION (R426): A classical-only CAN bus in the protocol exception state completes bus integration and takes part in the bus again. -/
  | busIntegration (bus : Fin 2)
  /-- STUCK_ALERT (R392): An alert line held low for more than 1 us is ignored and one class 0x04 record of kind 0 with address 0 is queued. -/
  | stuckAlert (c : Chan) (sub : Bool)
  /-- ALERT_RELEASE (R392): A stuck alert line rises and the controller watches CHn_MA_ALERT_N or CHn_MB_ALERT_N again. -/
  | alertRelease (c : Chan) (sub : Bool)
  /-- MIRROR_IDLE_RECORD (R405): The active sends an IDLE mirror record, taking the next sequence number, when the link has been silent for 1 us. -/
  | mirrorIdleRecord (c : Chan)
  /-- POR_RESET (R43): POR_N low holds the square and all channels in reset. -/
  | porReset
  /-- UNOWNED_RECORD (R438): For each second with drops a class 0x11 kind 3 record is written. -/
  | unownedRecord
  deriving DecidableEq, Repr

end Sys2Proof
end

