-- ==== Sys2Proof/Decode.lean ====
section
/-! DEFINITION. Commands spelled by a word: spec/opcode_table.json gives bits to no row, so no word spells one. -/
namespace Sys2Proof

/-- The command a word of the table spells: none, since no row has bits. -/
def decodeTableWord (_nbits _w : Nat) : Option Instr := none

end Sys2Proof
end

