-- ==== Sys2Proof/Machine/Cells.lean ====
section
/-! DEFINITION. Cells, tags and their sets (07), constants, finite maps, and the bit-field and signed helpers the meanings use. -/
namespace Sys2Proof.Machine

/-! ### Cells (R153) -/

/-- TAG, bits 31:26. -/
def cellTag (c : Cell) : BitVec 6 := c.extractLsb' 26 6
/-- CDR, bits 25:24. -/
def cellCdr (c : Cell) : BitVec 2 := c.extractLsb' 24 2
/-- PAYLOAD, bits 23:0. -/
def cellPay (c : Cell) : Payload := c.extractLsb' 0 24
/-- The cell of a tag, a CDR code and a payload. -/
def mkCell (tag : BitVec 6) (cdr : BitVec 2) (p : Payload) : Cell := (tag ++ cdr ++ p : BitVec 32)
/-- The cell with another CDR code. -/
def withCdr (c : Cell) (cdr : BitVec 2) : Cell := mkCell (cellTag c) cdr (cellPay c)
/-- The cell with another payload. -/
def withPay (c : Cell) (p : Payload) : Cell := mkCell (cellTag c) (cellCdr c) p

/-! ### Tag codes (Table 7.1) -/

abbrev tFIX : BitVec 6 := 0x00#6
abbrev tSFLT : BitVec 6 := 0x01#6
abbrev tCHAR : BitVec 6 := 0x02#6
abbrev tCONST : BitVec 6 := 0x03#6
abbrev tINSTR : BitVec 6 := 0x04#6
abbrev tRETA : BitVec 6 := 0x05#6
abbrev tHDR : BitVec 6 := 0x06#6
abbrev tFWD : BitVec 6 := 0x07#6
abbrev tCONS : BitVec 6 := 0x08#6
abbrev tVEC : BitVec 6 := 0x09#6
abbrev tSTR : BitVec 6 := 0x0A#6
abbrev tSYM : BitVec 6 := 0x0B#6
abbrev tCLO : BitVec 6 := 0x0C#6
abbrev tCODE : BitVec 6 := 0x0D#6
abbrev tBOX : BitVec 6 := 0x0E#6
abbrev tREC : BitVec 6 := 0x0F#6
abbrev tLOC : BitVec 6 := 0x10#6
abbrev tHAND : BitVec 6 := 0x11#6
abbrev tCRATE : BitVec 6 := 0x12#6
abbrev tFREE : BitVec 6 := 0x13#6
abbrev tRAW : BitVec 6 := 0x14#6
abbrev tPSN : BitVec 6 := 0x3E#6

/-- UP0-UP7. -/
def isUP (t : BitVec 6) : Bool := 0x20#6 ≤ t && t ≤ 0x27#6
/-- UI0-UI7. -/
def isUI (t : BitVec 6) : Bool := 0x28#6 ≤ t && t ≤ 0x2F#6
/-- The pointer group (R154), which is also what the sweeper traces (R156). -/
def isPtr (t : BitVec 6) : Bool := (0x08#6 ≤ t && t ≤ 0x12#6) || isUP t
/-- The header-addressing pointers HDRP (Table 8.6). -/
def isHdrp (t : BitVec 6) : Bool :=
  t = tVEC || t = tSTR || t = tSYM || t = tCLO || t = tCODE || t = tBOX || t = tREC || t = tCRATE || isUP t
/-- The immediate group (Table 7.1). -/
def isImm (t : BitVec 6) : Bool := t = tFIX || t = tSFLT || t = tCHAR || t = tCONST || t = tRAW || isUI t
/-- The sealed tags (Table 7.1). -/
def isSealed (t : BitVec 6) : Bool := t = tINSTR || t = tRETA || t = tHDR || t = tFREE
/-- The special tags (Table 7.1). -/
def isSpecial (t : BitVec 6) : Bool := t = tFWD || t = tPSN
/-- BITS (Table 8.6). -/
def isBits (t : BitVec 6) : Bool := t = tFIX || t = tRAW || isUI t
/-- The reserved tag codes (Table 7.1). -/
def isReservedTag (t : BitVec 6) : Bool :=
  (0x15#6 ≤ t && t ≤ 0x1F#6) || (0x30#6 ≤ t && t ≤ 0x3D#6) || t = 0x3F#6
/-- A reserved cell (R182): a reserved tag, or a CONST with a reserved payload (R166). -/
def isReserved (c : Cell) : Bool := isReservedTag (cellTag c) || (cellTag c = tCONST && 4#24 ≤ cellPay c)
/-- Pointer group or FWD: what the barriers and the sweeper follow (R337, R343). -/
def isPtrOrFwd (c : Cell) : Bool := isPtr (cellTag c) || cellTag c = tFWD

/-- The tag class of Table 7.1, with a reserved CONST in class 15 (R155, R248). -/
def tagClass (c : Cell) : Nat :=
  let t := cellTag c
  if isReserved c then 15
  else if t = tFIX then 0 else if t = tSFLT then 1 else if t = tCHAR then 2 else if t = tCONST then 3
  else if t = tRAW then 4 else if isUI t then 5 else if t = tCONS then 6 else if t = tVEC then 7
  else if t = tSTR then 8 else if t = tSYM then 9 else if t = tBOX then 10 else if isUP t then 12
  else if t = tPSN then 14 else if isSealed t then 13 else 11

/-! ### Common cells -/

/-- A FIX cell. -/
def fix (p : Payload) : Cell := mkCell tFIX 0#2 p
/-- A FIX cell of a natural number. -/
def fixN (n : Nat) : Cell := fix (BitVec.ofNat 24 n)
/-- A RAW cell. -/
def raw (p : Payload) : Cell := mkCell tRAW 0#2 p
/-- FIX 0. -/
abbrev fix0 : Cell := 0#32
/-- CONST NIL (R166). -/
abbrev cNIL : Cell := 0x0C000000#32
/-- CONST T. -/
abbrev cT : Cell := 0x0C000001#32
/-- CONST UNBOUND. -/
abbrev cUNBOUND : Cell := 0x0C000002#32
/-- A Boolean as T or NIL (R197). -/
def truth (b : Bool) : Cell := if b then cT else cNIL
/-- The poison cell of a source (R180). -/
def psn (source : BitVec 4) : Cell := mkCell tPSN 0#2 (source ++ 0#20 : BitVec 24)
/-- A header cell (R168). -/
def hdr (kind : BitVec 4) (size : Nat) : Cell := mkCell tHDR 0#2 (kind ++ BitVec.ofNat 20 size : BitVec 24)
/-- The KIND of a header. -/
def hdrKind (c : Cell) : BitVec 4 := c.extractLsb' 20 4
/-- The SIZE of a header. -/
def hdrSize (c : Cell) : Nat := (c.extractLsb' 0 20).toNat
/-- A LOC to a cell. -/
def loc (a : VAddr) : Cell := mkCell tLOC 0#2 a
/-- A RETA of an address (R175). -/
def reta (a : VAddr) : Cell := mkCell tRETA 0#2 a
/-- A FREE run of n cells (R169). -/
def freeRun (n : Nat) : Cell := mkCell tFREE 0#2 (BitVec.ofNat 24 n)
/-- The header of a crate (R177). -/
abbrev crateHdr : Cell := 0x1880001F#32

/-- Whether a pointer tag may address a header kind (Table 7.3). -/
def kindMatches (t : BitVec 6) (k : BitVec 4) : Bool :=
  if t = tVEC then k = 0 || k = 9 else if t = tSTR then k = 1 else if t = tSYM then k = 2 else if t = tCLO then k = 3
  else if t = tCODE then k = 4 else if t = tBOX then k = 5 || k = 6 else if t = tREC then k = 7
  else if t = tCRATE then k = 8 else if isUP t then k = 10 else false

/-! ### Signed numbers and bit fields -/

/-- The integer of a FIX payload (R162). -/
def fixInt (p : Payload) : Int := p.toInt
/-- Whether an integer lies in the FIX range (R162). -/
def inFix (i : Int) : Bool := -8388608 ≤ i && i ≤ 8388607
/-- The FIX cell of an integer. -/
def fixI (i : Int) : Cell := fix (BitVec.ofInt 24 i)
/-- Bits of a payload as a number. -/
def bits (p : BitVec w) (lo n : Nat) : Nat := (p.extractLsb' lo n).toNat
/-- A bit of a word. -/
def bit (p : BitVec w) (i : Nat) : Bool := p.getLsbD i
/-- A word with one bit set or cleared. -/
def setBit (p : BitVec w) (i : Nat) (b : Bool) : BitVec w :=
  if b then p ||| (1#w <<< i) else p &&& ~~~ (1#w <<< i)
/-- A word with a field replaced. -/
def setField (p : BitVec w) (lo n v : Nat) : BitVec w :=
  (p &&& ~~~ (BitVec.ofNat w (2 ^ n - 1) <<< lo)) ||| (BitVec.ofNat w (v % 2 ^ n) <<< lo)
/-- Saturating increment. -/
def satInc (p : BitVec w) : BitVec w := if p = BitVec.allOnes w then p else p + 1#w
/-- Saturating addition. -/
def satAdd (p : BitVec w) (n : Nat) : BitVec w := if p.toNat + n ≥ 2 ^ w then BitVec.allOnes w else p + BitVec.ofNat w n
/-- 0 or 1. -/
def bnat (b : Bool) : Nat := if b then 1 else 0
/-- Rounded-up division. -/
def ceilDiv (a b : Nat) : Nat := (a + b - 1) / b

end Sys2Proof.Machine
end

