-- ==== Sys2Proof/Machine/Maps.lean ====
section
/-! DEFINITION. Finite maps as lists of pairs with strictly rising keys, and small list helpers. -/
namespace Sys2Proof.Machine

/-- The value at a key. -/
def mapGet {α : Type} : List (Nat × α) → Nat → Option α
  | [], _ => none
  | (j, v) :: r, k => if j = k then some v else mapGet r k

/-- The map with a key set: the keys stay strictly rising. -/
def mapPut {α : Type} : List (Nat × α) → Nat → α → List (Nat × α)
  | [], k, v => [(k, v)]
  | (j, w) :: r, k, v => if k < j then (k, v) :: (j, w) :: r else if k = j then (k, v) :: r else (j, w) :: mapPut r k v

/-- The map with the keys from a up set to the values of a list. -/
def mapRun {α : Type} (m : List (Nat × α)) (a : Nat) (vs : List α) : List (Nat × α) :=
  m.filter (fun e => decide (e.1 < a)) ++ vs.zipIdx.map (fun e => (a + e.2, e.1)) ++ m.filter (fun e => decide (a + vs.length ≤ e.1))

/-- The map without a key. -/
def mapDel {α : Type} : List (Nat × α) → Nat → List (Nat × α)
  | [], _ => []
  | (j, w) :: r, k => if j = k then r else (j, w) :: mapDel r k

/-- The keys are strictly rising. -/
def mapWf {α : Type} : List (Nat × α) → Bool
  | [] => true
  | [_] => true
  | (j, _) :: (k, w) :: r => decide (j < k) && mapWf ((k, w) :: r)

/-- A map in which one value stands for an absent key: setting that value removes the entry. -/
def mapSet {α : Type} [DecidableEq α] (dflt : α) (m : List (Nat × α)) (k : Nat) (v : α) : List (Nat × α) :=
  if v = dflt then mapDel m k else mapPut m k v

/-- The value at a key of a map with a default. -/
def mapAt {α : Type} (dflt : α) (m : List (Nat × α)) (k : Nat) : α := (mapGet m k).getD dflt

/-- Change every value. -/
def mapVals {α β : Type} (f : α → β) : List (Nat × α) → List (Nat × β)
  | [] => []
  | (k, v) :: r => (k, f v) :: mapVals f r

/-- The numbers from n up, k of them. -/
def upFrom (n : Nat) : Nat → List Nat
  | 0 => []
  | k + 1 => n :: upFrom (n + 1) k

/-- A function applied n times to a state, with the step number. -/
def iterN {σ : Type} (f : Nat → σ → σ) (start : Nat) : Nat → σ → σ
  | 0, s => s
  | n + 1, s => iterN f (start + 1) n (f start s)

end Sys2Proof.Machine
end

