-- ==== Sys2Proof/Config.lean ====
section
/-! DEFINITION. What an implementation fixes and what the manual leaves open: constants without a body. Nothing in Lean can
evaluate one, so a statement holds whatever its value is. -/
namespace Sys2Proof.Config

/-- A value the manual does not state, drawn afresh: applied to `State.free`. (DESIGN CHOICE, safe: log 2.) -/
opaque freeNat : Nat → Nat
/-- Undefined contents of a memory cell nothing has written since its contents were lost: the 40 stored bits, by channel,
generation and physical cell address (R147; log 1). (DESIGN CHOICE, safe: log 1.) -/
opaque undefMem : Nat → Nat → Nat → BitVec 40
/-- Undefined contents of a near-store cell: bits 33:32 are 0 for a clean cell, 1 for a correctable one and otherwise
uncorrectable, bits 31:0 the cell (R147; the near-store code is not published, log 1). (DESIGN CHOICE, safe: log 1.) -/
opaque undefNear : Nat → Nat → Nat → BitVec 34
/-- Whether the part is a TK-DN424-K (Table 0.4; log 4). (DESIGN CHOICE, safe: log 4.) -/
opaque keyFused : Bool
/-- The fused SHA-256 digest of the customer's public key, byte by byte (R17, R18; log 4). (DESIGN CHOICE, safe: log 4.) -/
opaque fusedDigest : Nat → BitVec 8
/-- Whether the Ed25519 check of R139 multiplies its group equation by the cofactor, which RFC 8032 leaves to the verifier.
(DESIGN CHOICE, safe: log 4.) -/
opaque cofactor : Bool
/-- The 112 data bits of a control ROM microword, which belong to the ROM revision (R3, R240; log 8). (DESIGN CHOICE, unsafe: log 8.) -/
opaque romWord : Nat → BitVec 112
/-- The microaddress of the first microword of an opcode, of the stack-mode entry (opcode 256) and of the shadow-mode entry (257), which
belong to the ROM revision (R247, R251; log 8). (DESIGN CHOICE, unsafe: log 8.) -/
opaque microStart : Nat → Nat
/-- What the datapath of a microword decides, by draw and word: a datapath condition, an operand of the micro-counter (R240; log 8).
(DESIGN CHOICE, unsafe: log 8.) -/
opaque microFree : Nat → Nat → Nat
/-- The vector and ADDR of an EVT code, whose assignment belongs to the ROM revision (R244; log 8). (DESIGN CHOICE, unsafe: log 8.) -/
opaque microEvent : BitVec 5 → Nat × BitVec 24
/-- The control ROM revision (R256: 0x01 for the first shipped stepping; R257 reserves 0x80 and above for compatible parts). -/
def romRev : BitVec 8 := 0x01#8
/-- The stepping reported by DEVID (R189: 1 for the first shipped stepping). -/
def stepping : BitVec 6 := 1#6
/-- The words of a training result, whose encoding is not published (R378; log 10). (DESIGN CHOICE, safe: log 10.) -/
opaque trainingWord : Nat → Nat → BitVec 32
/-- The initial management threshold a subchannel's components report in mode register 58, by channel and subchannel (R388;
log 14). (DESIGN CHOICE, unsafe: log 14.) -/
opaque raaimt : Nat → Bool → Nat

end Sys2Proof.Config
end

