-- ==== Sys2Proof/Machine/State.lean ====
section
/-! DEFINITION. What the device holds: every register, queue, buffer, counter, mode and pin the spec gives it, as plain data,
and the state after reset. -/
namespace Sys2Proof.Machine

/-- A finite map by natural number: keys strictly rising, an absent key reads as its owner says. -/
abbrev NMap (α : Type) := List (Nat × α)
/-- The 16 cells of a line (R288). -/
abbrev Line := Vector Cell 16

/-! ### Threads (R185-R187, R269) -/

/-- A synchronous event an instruction has raised and its thread has not yet entered (R259, R260, R265). -/
structure SyncEvent where
  /-- vector, 0-33 -/
  vector : BitVec 10
  /-- the cell ADDR of the frame -/
  addr : Cell
  /-- the cell ICELL of the frame -/
  icell : Cell
  /-- the return address (R270) -/
  ret : VAddr
  /-- EVINFO.KIND: 0 fault, 1 trap, 3 machine check (Table 11.6) -/
  kind : BitVec 2
  deriving DecidableEq, Repr

/-- What a thread is doing (R210, R212). -/
inductive ThStatus where
  | stopped
  | running
  /-- waiting with the mask of its WAIT -/
  | waiting (mask : Payload)
  deriving DecidableEq, Repr

/-- A stride slot (R321). -/
structure Stride where
  pc : VAddr
  last : VAddr
  stride : BitVec 24
  conf : BitVec 2
  deriving DecidableEq, Repr

/-- The placement an ALLOCL keeps for its thread (R229). -/
structure Reservation where
  /-- managed slot -/
  slot : Fin 8
  /-- first region of the run -/
  first : Nat
  /-- number of regions -/
  count : Nat
  size : Nat
  /-- imm6 of the ALLOCL -/
  sel : BitVec 6
  /-- lines of the object and of the FREE run already written -/
  filled : Nat
  /-- the line `filled` could not be written; the fill has stopped there -/
  failed : Bool
  deriving DecidableEq, Repr

/-- One hardware thread: Table 8.1, the hidden state of R269, the shadow bank and the thread's own event state. -/
structure Thread where
  /-- c0-c31 -/
  regs : Vector Cell 32
  /-- shadow bank (R271) -/
  bank : Vector Cell 16
  acc : BitVec 56
  loopC : Payload
  loopS : VAddr
  loopE : VAddr
  pc : VAddr
  /-- PSTATE: bit 0 S, 1 TE, 2 SHB, 3 LZ, 4 ACCOV (R187) -/
  pstate : Payload
  spU : Cell
  spS : Cell
  chain : Cell
  asid : BitVec 8
  /-- FRAME (R269) -/
  frame : Option VAddr
  /-- SHLVL -/
  shlvl : Bool
  /-- SHRET -/
  shRet : VAddr
  /-- SHPST -/
  shPst : Payload
  /-- SHFRAME -/
  shFrame : Option VAddr
  /-- the shadow level opened the HOLD window (R266) -/
  shOpened : Bool
  status : ThStatus
  /-- an open HOLD window, in units of 16 core cycles (R266) -/
  hold : Option (BitVec 8)
  /-- the next instruction is in the mode-change shadow (R267) -/
  inShadow : Bool
  sync : Option SyncEvent
  /-- TBH captured by a load of TBL (R112) -/
  tbhCap : Option Payload
  /-- STAMPH captured by a load of STAMPL (R494) -/
  stampCap : Option Payload
  /-- most recently trained first, at most four -/
  stride : List Stride
  resv : Option Reservation
  /-- outstanding root request (R349) -/
  rootReq : Bool
  /-- its vector 84 is pending for the thread -/
  rootPend : Bool
  deriving DecidableEq, Repr

/-! ### Look-aside buffers, caches and write buffers (13, 14) -/

/-- A look-aside entry (R300). -/
structure TlbEntry where
  vpn : BitVec 14
  asid : BitVec 8
  g : Bool
  idx : BitVec 22
  r : Bool
  w : Bool
  x : Bool
  u : Bool
  typ : BitVec 2
  a : Bool
  d : Bool
  ref : Bool
  /-- bad parity (R301); no command sets it -/
  bad : Bool
  deriving DecidableEq, Repr

/-- A cached line: its cells, and the cells whose SECDED code reports an error (R324; no command sets one). -/
structure CLine where
  cells : Line
  bad : BitVec 16
  deriving DecidableEq, Repr

/-- A directory entry with its four lines; an absent line is not valid (R312). -/
structure Frame where
  faddr : BitVec 20
  ref : Bool
  age : BitVec 2
  /-- bad parity (R324); no command sets it -/
  bad : Bool
  lines : NMap CLine
  deriving DecidableEq, Repr

/-- A demand fill in flight (R315). `line` is the physical line number (address bits 31:4). -/
structure Fill where
  line : Nat
  cells : Line
  /-- a store step, CINVALL or the range engine made it install invalid -/
  dead : Bool
  deriving DecidableEq, Repr

/-- A line in a prefetch buffer (R322). -/
structure PfLine where
  line : Nat
  cells : Line
  /-- fetched by the stride detector (R316) -/
  stride : Bool
  /-- the entry has an error (R324); no command sets it -/
  bad : Bool
  deriving DecidableEq, Repr

/-- A prefetch in flight (R322). -/
structure PfReq where
  line : Nat
  /-- the cells as of its turnstile place -/
  cells : Line
  stride : Bool
  dead : Bool
  deriving DecidableEq, Repr

/-- One cache: frames by 4 × set + way, the prefetch buffer (oldest first) and requests, and the fill in flight. -/
structure Cache where
  frames : NMap Frame
  buf : List PfLine
  reqs : List PfReq
  fill : Option Fill
  deriving DecidableEq, Repr

/-- Where a write buffer entry goes (R317). -/
inductive WbKind where
  | memory
  | near
  | device
  deriving DecidableEq, Repr

/-- One write buffer entry (R317). -/
structure WbEntry where
  kind : WbKind
  /-- physical line number, address bits 31:4 -/
  line : Nat
  /-- by position 0-15: the cell, and whether it is marked to keep its CDR -/
  cells : NMap (Cell × Bool)
  /-- threads (one bit each) whose stores the entry holds -/
  threads : BitVec 8
  /-- a ZLINE of a CACHED page (R319) -/
  zline : Bool
  /-- remembered-set log entries placed immediately before this entry (R345), with their slots -/
  logs : List (Fin 8 × BitVec 24)
  deriving DecidableEq, Repr

/-- A control store, of a core or of its checker (R237, R238, R253): the words of patch RAM other than all 0, each 112 data bits under
4 parity bits; the valid patch points, ROM address and patch RAM address by point number; and the bits of a word that read otherwise
than they were made or written, by microaddress (no command changes one: log 19). -/
structure CStore where
  ram : NMap (BitVec 116)
  pts : NMap (BitVec 13 × BitVec 10)
  flips : NMap (BitVec 116)
  deriving DecidableEq, Repr
/-- What the microsequencer holds of a thread (R241): microprogram counter, 24-bit micro-counter, the circular micro-return stack and
the slot its next entry takes. -/
structure MicroSeq where
  upc : BitVec 14
  count : BitVec 24
  stack : Vector (BitVec 14) 4
  top : Fin 4
  deriving DecidableEq, Repr

/-- One core: look-aside buffers, caches, write buffer, its control store and its checker's, and whether two copies of an entry-store
word of the core or of its checker differ (R251; no command sets it: log 19). -/
structure Core where
  tlb : NMap TlbEntry
  utlb : NMap TlbEntry
  icache : Cache
  dcache : Cache
  wb : List WbEntry
  store : CStore
  checker : CStore
  entryDiff : Bool
  deriving DecidableEq, Repr

/-! ### The channel's processor state -/

/-- A pending signal: the overrun count (R263) and the ADDR detail of the raise that set it. -/
structure Pend where
  overrun : BitVec 8
  addr : Cell
  deriving DecidableEq, Repr

/-- A posted heal (R346): physical cell address, the loaded cell, the payload to install. -/
structure HealReq where
  addr : Nat
  /-- the source cell's virtual address, and the managed slot of its space -/
  va : VAddr
  slot : Fin 8
  old : Cell
  new : Payload
  core : Fin 2
  deriving DecidableEq, Repr

/-- An agent of the turnstile (R328). -/
inductive Agent where
  | core0
  | core1
  | sweeper
  | unitPort
  deriving DecidableEq, Repr

/-- Supervisor registers (Table 8.2), attribute store (R262), pending bits (R263), cache control (R313, R326), heals and the
turnstile's rotation. -/
structure Proc where
  vbase : Payload
  cfree : Cell
  ptbase : Payload
  hatbase : Payload
  hatsize : Payload
  regmap : Payload
  nearbase : Payload
  ucver : Payload
  /-- attribute words other than 0, by vector -/
  attr : NMap Payload
  /-- pending signals by vector -/
  pend : NMap Pend
  icen : Bool
  dcen : Bool
  invd : Bool
  /-- CRANGE in progress: first page and page count -/
  range : Option (Nat × Nat)
  heals : List HealReq
  granted : Agent
  deriving DecidableEq, Repr

/-! ### Sweeper (15) -/

/-- SWSTAT.PHASE (Table 15.9). -/
inductive Phase where
  | idle
  | roots
  | mark
  | select
  | evacuate
  | fixup
  | stopped
  deriving DecidableEq, Repr

/-- A managed-space slot (R335-R342). -/
structure Slot where
  en : Bool
  asid : BitVec 8
  logovf : Bool
  /-- SIDEBASE page -/
  side : BitVec 22
  cycles : BitVec 24
  /-- on-chip region map: entries other than 0 (FREE), by region -/
  map : NMap Payload
  /-- current pitches by thread: top and end -/
  pitch : NMap (Nat × Nat)
  /-- blocks of each NURSERY region already handed out, by region -/
  handed : NMap Nat
  deriving DecidableEq, Repr

/-- The copy in progress (R353): extent address, length, next cell, destination. -/
structure CopyJob where
  src : Nat
  len : Nat
  k : Nat
  dst : Nat
  deriving DecidableEq, Repr

/-- A unit of scanning or fixing work: a run of virtual cells to examine, or a walk of the extents of a block. -/
inductive Work where
  /-- the cells [start, start + n) -/
  | cells (start n : Nat)
  /-- the cells of one card, whose bit is then rewritten -/
  | card (start : Nat)
  /-- the extents of one block; only marked ones when `marked` -/
  | block (start : Nat) (marked : Bool)
  /-- the LARGE object starting at region `r` -/
  | large (r : Nat) (marked : Bool)
  deriving DecidableEq, Repr

/-- The sweeper (R348-R355). -/
structure Sweeper where
  slots : Vector Slot 8
  phase : Phase
  full : Bool
  slot : Fin 8
  cause : BitVec 3
  result : BitVec 2
  /-- mark queue, oldest first (R351) -/
  queue : List Cell
  /-- cells of the queue in the spill area -/
  spilled : Nat
  /-- live cells by region -/
  live : NMap Nat
  /-- mark cells the cycle has set, as physical addresses -/
  marks : List Nat
  /-- root regions and cards still to scan, or cells still to fix -/
  work : List Work
  /-- extents still to copy: virtual start and length -/
  todo : List (Nat × Nat)
  copy : Option CopyJob
  /-- to-space: next free cell and end of the current block, and blocks not yet begun -/
  toNext : Nat
  toEnd : Nat
  toBlocks : List Nat
  /-- regions claimed as to-space -/
  toSpace : List Nat
  /-- a log entry was lost during the cycle -/
  lost : Bool
  /-- FIXUP of a young cycle has put every OLD and LARGE extent to work, because a log entry was lost (R354) -/
  whole : Bool
  /-- ROOTS has still to begin: black ranges and root requests (R341, R349) -/
  starting : Bool
  /-- the work list of the phase has been made -/
  planned : Bool
  /-- the line of the sweeper's last memory request, whose page hint its next request decides (R373) -/
  lastLine : Option Nat
  /-- the one translation kept: virtual page, ASID, IPT index and FLAGS (R290) -/
  xlate : Option (BitVec 14 × BitVec 8 × Nat × Payload)
  /-- LOGSTAT.HEAD and OCC -/
  logHead : BitVec 10
  logOcc : BitVec 11
  deriving DecidableEq, Repr

/-! ### Memory controller (16, 17) -/

/-- The port a pool entry came from (Table 16.3). -/
inductive ReqSrc where
  | turnstile
  | display
  | maint
  deriving DecidableEq, Repr

/-- What a pool entry asks for (R366, R390, R394). -/
inductive ReqKind where
  | read
  | scrub
  | write
  | merge
  | rewrite
  deriving DecidableEq, Repr

/-- How far a pool entry is: waiting, a merge whose read has been made, last column command issued. -/
inductive ReqStage where
  | waiting
  | readDone
  | issued
  deriving DecidableEq, Repr

/-- One request of the pool. `line` is the physical line number; `oldest first` is list order. -/
structure PoolReq where
  line : Nat
  src : ReqSrc
  kind : ReqKind
  /-- page hint: 0 none, 1 OPEN, 2 CLOSE (R373) -/
  hint : BitVec 2
  /-- controller clocks since arrival, saturating at 512 (R370) -/
  age : Nat
  spec : Bool
  stage : ReqStage
  /-- issued: controller clocks until its last data beat has passed (R361, R366) -/
  left : Nat
  /-- cells to report when the last beat passes: position, and 0 corrected, 1 uncorrectable, 2 refused partial write -/
  errs : List (Fin 16 × BitVec 2)
  /-- a write: the stored bits it has replaced, which return where a halt finds it not issued (R42) -/
  prior : List (Nat × BitVec 40)
  deriving DecidableEq, Repr

/-- A write whose alert window is open (R392): its line, the alerts it has had, controller clocks until the window closes. -/
structure OpenWrite where
  line : Nat
  alerts : BitVec 2
  left : Nat
  deriving DecidableEq, Repr

/-- One bank (R361, R372, R373): open row, predictor, whether the predictor left the row open, clocks since its last request, activates
counted for refresh management, and the controller clocks until Table 16.1 permits a column command, a precharge and an activate. -/
structure Bank where
  row : Option (BitVec 16)
  pred : BitVec 2
  leftOpen : Bool
  idle : Nat
  raa : Nat
  toCol : Nat
  toPre : Nat
  toAct : Nat
  deriving DecidableEq, Repr

/-- The last command a scheduler has put on its subchannel's command bus, with the bank numbered as Table 16.2 gives it and the column
address of R362. An activate names the rows that a neighbour refresh refreshes ahead of it (R385). -/
inductive DevCmd where
  | none
  | activate (bank : Nat) (row : BitVec 16) (neighbours : List Nat)
  | precharge (bank : Nat)
  | read (bank column : Nat) (autoPrecharge : Bool)
  | write (bank column : Nat) (autoPrecharge : Bool)
  | refresh
  /-- the precharge of all banks that begins a retraining slice (R380) -/
  | prechargeAll
  deriving DecidableEq, Repr

/-- One subchannel's scheduler and maintenance. -/
structure SubCh where
  /-- banks that are not (closed, predictor 2) -/
  banks : NMap Bank
  /-- the bus direction is write -/
  dirWrite : Bool
  /-- bursts in a row in that direction -/
  run : Nat
  hot : Bool
  /-- readings at or below 85 °C in a row (R382) -/
  cool : Nat
  temp : BitVec 8
  /-- temperature at the start of the last completed pass, and of the pass under way -/
  passTemp : BitVec 8
  curTemp : BitVec 8
  /-- next byte lane of the pass -/
  lane : Fin 5
  /-- the pass was started by a temperature change -/
  fastPass : Bool
  slfail : BitVec 8
  rfm : Bool
  /-- postponed refreshes -/
  owed : BitVec 2
  /-- disturbance counters: by 128 × bank + index: row and count (R387) -/
  dist : NMap (BitVec 16 × Nat)
  /-- the counting window: slow-clock periods since its boundary, and its length (R387) -/
  winAge : Nat
  winLen : Nat
  /-- controller clocks until the data bus takes another burst, and until a refresh under way ends (R361) -/
  toBus : Nat
  toCmd : Nat
  cmd : DevCmd
  /-- next line of the patrol scrub -/
  scrub : Nat
  /-- writes whose alert windows are open -/
  open_ : List OpenWrite
  stuck : Bool
  deriving DecidableEq, Repr

/-- The memory controller of a channel. -/
structure MemCtl where
  pool : List PoolReq
  sub : Vector SubCh 2
  peak : BitVec 11
  aged : BitVec 24
  panic : Bool
  panicHeld : Bool
  episodes : BitVec 12
  cutoffs : BitVec 12
  ceCount : BitVec 24
  ueCount : BitVec 12
  linkCount : BitVec 12
  ceAddr : BitVec 32
  ueAddr : BitVec 32
  ueSpec : Bool
  passes : BitVec 24
  nbrs : BitVec 24
  /-- a full training has failed: subchannel and step (R379) -/
  trainFail : Option (Bool × BitVec 4)
  /-- a failed training waits for its retry, with the slow-clock periods it has waited (R379) -/
  retryWait : Bool
  waited : Nat
  /-- both populated subchannels are in self-refresh (R42, R116) -/
  selfRef : Bool
  /-- since self-refresh the temperature report has not been read, so that no request is served (R383) -/
  unread : Bool
  /-- maintenance requests that wait for a free entry of their partition (R366) -/
  queued : List PoolReq
  /-- a restored training has failed its verify -/
  restoreFailed : Bool
  trained : Bool
  /-- highest component temperature at the end of training (Table 17.2) -/
  trainTemp : BitVec 8
  deriving DecidableEq, Repr

/-! ### Ledger writers (04) -/

/-- An entry of a staging queue (R88). -/
inductive Staged where
  /-- an error record: class, SPEC, FLAG, LOST, TIME, DETAIL (Table 4.4) -/
  | error (cls : BitVec 6) (spec flag : Bool) (lost : BitVec 8) (time : BitVec 24) (detail : BitVec 32)
  /-- a user word: user-area offset, cell, held for an epoch (R94) -/
  | user (off : BitVec 11) (cell : Cell) (held : Bool)
  | pinclr
  deriving DecidableEq, Repr

/-- A retained item of Table 4.3, in its row order. -/
inductive Item where
  | snapshot
  | boot
  | pair
  | counts
  | training
  deriving DecidableEq, Repr

/-- What a writer job is. -/
inductive JobKind where
  | item (i : Item)
  | lockup (number : BitVec 24) (slot : Nat)
  | entry
  deriving DecidableEq, Repr

/-- The record being written: what it is, the words still to write with their offsets, its sequence number when it carries one. -/
structure LJob where
  kind : JobKind
  todo : List (Nat × BitVec 32)
  seq : Option (BitVec 24)
  deriving DecidableEq, Repr

/-- What a lockup record holds beyond its number and time (Table 4.6, words 3 to 10). -/
structure LockInfo where
  cause : BitVec 4
  thread : BitVec 4
  vector : BitVec 10
  pc : Cell
  pstate : Cell
  sp : Cell
  vbase : Cell
  access : BitVec 32
  ucver : Cell
  pending : BitVec 32
  deriving DecidableEq, Repr

/-- The counts record (Table 4.3): power-ups, cycle-counter wraps of the two cores, watchdog resets, lockups, failovers. -/
structure Counts where
  powerUps : BitVec 24
  wrap0 : BitVec 24
  wrap1 : BitVec 24
  wdResets : BitVec 24
  lockups : BitVec 24
  failovers : BitVec 24
  deriving DecidableEq, Repr

/-- A ledger partition with its writer: a channel's (8,192 words) or the square's (2,048 words). -/
structure Ledger where
  /-- words other than FIX 0 (R80) -/
  words : NMap (BitVec 32)
  /-- words that read with an error: true unreadable, false correctable (R71) -/
  flaws : NMap Bool
  /-- words whose last write failed its read-back twice, so that their record position is invalid (R86) -/
  worn : List Nat
  seq : BitVec 24
  /-- LGSEQ -/
  newest : BitVec 24
  staging : List Staged
  /-- user words that came with a COMMIT record and wait for a free entry of the staging queue (R88, R94) -/
  due : List (BitVec 11 × Cell)
  /-- the record of R89 at the head of the queue is still to be written, ahead of the retained items -/
  resetDue : Bool
  /-- requested items, at most one each -/
  items : List Item
  lockReq : Option LockInfo
  counts : Counts
  job : Option LJob
  /-- the job a lockup record has interrupted (R87) -/
  suspended : Option LJob
  /-- the power-up scan runs -/
  scan : Bool
  /-- the snapshot copies have been read since the reset -/
  snapRead : Bool
  /-- lost records by class, not yet carried (R88) -/
  lost : NMap (BitVec 8)
  lostTotal : BitVec 24
  corr : BitVec 24
  /-- a record was lost since the queue was last empty (R97) -/
  lossMarked : Bool
  /-- the queue has held a user word since it was last empty (R97) -/
  hadUser : Bool
  /-- the VAON low warning or the square's failure stops the writer (R90, R445) -/
  stopped : Bool
  /-- entries discarded on entering a requested OFF, for the first record after the reset (R89, R119) -/
  discarded : Nat
  /-- slow-clock periods since the last reset (square: since POR_N rose) -/
  periods : Nat
  deriving DecidableEq, Repr

/-! ### Channel condition, power, clocks and timers (02, 05) -/

/-- The condition of a channel (R40, R56, R64, R404). -/
inductive Cond where
  /-- POR_N or CHn_RST_N low, or the supplies not good, or a reset taken and not yet released -/
  | inReset
  /-- released: sampling the configuration (Table 3.3) -/
  | sampling
  /-- kept off by CHn_EN, the arrangement, or a pair that did not form -/
  | keptOff
  /-- held: no usable configuration, memory training failed, or no slot boots; CHn_FAULT_N low -/
  | held
  | booting
  | running
  /-- standby of a pair: its threads do not execute (R404) -/
  | standby
  | halted
  | lockedUp
  | off
  deriving DecidableEq, Repr

/-- Power states other than OFF (R113). -/
inductive Power where
  | run
  | idle
  | doze
  | sleep
  deriving DecidableEq, Repr

/-- What put a channel into OFF. -/
inductive OffCause where
  | request
  | brownout
  | thermal
  deriving DecidableEq, Repr

/-- The units whose balls the boot sequence or the program has taken since the release of reset (R40): flash and memory by the boot
sequence, the others by the first store to a page of the unit (Table 1.3). -/
structure Taken where
  flash : Bool
  memory : Bool
  /-- pages 0x30-0x3F -/
  display : Bool
  /-- pages 0x40-0x4F -/
  touch : Bool
  /-- pages 0x50-0x57 -/
  backlight : Bool
  /-- pages 0x58-0x5F -/
  panel : Bool
  /-- pages 0x60-0x67 -/
  i2c : Bool
  /-- page 0x01, whose PWREV.WAKEEN owns CHn_WAKE_N -/
  wake : Bool
  deriving DecidableEq, Repr

/-- Condition, pins and power state of a channel. -/
structure Life where
  cond : Cond
  power : Power
  /-- CHn_LOCK_N and CHn_FAULT_N: true released -/
  lockN : Bool
  faultN : Bool
  /-- CHn_RST_N -/
  rstN : Bool
  /-- channel supply-good (R102) -/
  good : Bool
  /-- supplies present (R40): bit 0 VDD_CHn, 1 VDDQ_CHn, 2 VAON_CHn, 3 VIO_CHn, 4 VTX_CHn -/
  rails : BitVec 5
  taken : Taken
  /-- CHn_EN as sampled (R64) -/
  en : Option Bool
  offCause : Option OffCause
  /-- RSTCAUSE -/
  rstCause : BitVec 6
  /-- cores whose clocks are gated (R114) -/
  gated : BitVec 2
  /-- a pre-wake is in progress (R118) -/
  preWake : Bool
  /-- PWRSTAT.DEEPEST -/
  deepest : BitVec 2
  /-- event 46 is due at the first instruction (R64, R149) -/
  alone46 : Bool
  deriving DecidableEq, Repr

/-- Wake timer: armed, and its comparator (R120). -/
structure WakeTimer where
  armed : Bool
  cmp : BitVec 48
  deriving DecidableEq, Repr

/-- Fast timer: armed, PERIODIC, PRE, the value last loaded into FTnCNT, armed while FTnRLD was 0 (R121, R122). -/
structure FastTimer where
  armed : Bool
  periodic : Bool
  pre : BitVec 2
  loaded : Payload
  zero : Bool
  deriving DecidableEq, Repr

/-- Timebase, timers, watchdog, slow-clock trim and monitors. -/
structure Clock where
  tb : BitVec 48
  wake : Vector WakeTimer 8
  fast : Vector FastTimer 8
  /-- the watchdog counts -/
  wdRun : Bool
  wdCount : Nat
  /-- its early warning has been given since the last WDKICK -/
  wdWarned : Bool
  trim : BitVec 10
  trimValid : Bool
  /-- junction at the last trim -/
  trimTj : BitVec 16
  /-- MON_VDD … MON_TJ -/
  mon : Vector (BitVec 16) 6
  warn : BitVec 6
  sticky : BitVec 6
  /-- timebase at the last class 0x0B record, by rail code -/
  lastRec : NMap Nat
  /-- slow-clock periods since the first instruction or the last monitoring round (R65) -/
  monWait : Nat
  /-- slow-clock periods the stalemate condition has held without a break (R277) -/
  staleFor : Nat
  deriving DecidableEq, Repr

/-! ### Straps (03) -/

/-- A resistor-coded pin: its history from the ledger, whether it is decided, LEVEL, SOURCE, STATUS, RLEVEL, RAW (Table 3.6). -/
structure Pin where
  hist : Option (BitVec 3)
  decided : Bool
  level : BitVec 3
  source : BitVec 3
  status : BitVec 2
  rlevel : BitVec 3
  raw : BitVec 10
  deriving DecidableEq, Repr

/-! ### Boot (06) -/

/-- A microcode patch (Table 6.5): words, valid points (ROM address to patch RAM address) and set identifier. -/
structure Patch where
  words : NMap (BitVec 112)
  points : NMap (BitVec 13 × BitVec 10)
  ident : BitVec 16
  deriving DecidableEq, Repr

/-- What a slot that passed gives (R138, R143). -/
structure Image where
  entry : VAddr
  stack : VAddr
  /-- page of the vector template -/
  vpage : Nat
  digest : List Byte
  patch : Option Patch
  /-- attribute words of the template other than 0, by vector -/
  attr : NMap Payload
  setup : Option (List Byte)
  cal : Option (List Byte)
  deriving DecidableEq, Repr

/-- How far a boot is. -/
inductive BootStage where
  | discover
  | attempt
  | load
  | passed
  | applied
  | failed
  deriving DecidableEq, Repr

/-- The boot sequencer and the boot record (R131-R142). -/
structure Boot where
  stage : BootStage
  /-- density in Mbit and mode of Table 6.1 -/
  flash : Option (BitVec 16 × Fin 6)
  /-- slots still to try in this round -/
  order : List (Fin 2)
  /-- the slot under way or running -/
  slot : Fin 2
  /-- the slot under way is second in the order -/
  second : Bool
  image : Option Image
  /-- class 0x0C details of this round not yet queued, and those of the round before -/
  round : List (BitVec 32)
  prev : Option (List (BitVec 32))
  /-- boot record: whether there is one, the slot that last set the mark, the slot attempted, ATT0, ATT1 -/
  known : Bool
  goodSlot : Option (Fin 2)
  lastTried : Fin 2
  att0 : BitVec 4
  att1 : BitVec 4
  /-- training record restored -/
  warm : Bool
  /-- LGCTL.BOOTGOOD -/
  good : Bool
  /-- slow-clock periods since the round failed (R142) -/
  waited : Nat
  /-- slots that have failed this round while their headers were read (R132), one bit each -/
  gone : BitVec 2
  deriving DecidableEq, Repr

/-! ### Pairing (18) -/

/-- A channel's role (R401, R420, R421). -/
inductive Role where
  | independent
  /-- active with standby -/
  | active
  /-- active without standby -/
  | alone
  /-- active, partner joining -/
  | joiningActive
  | standby
  /-- joining: receiving the copy -/
  | joining
  deriving DecidableEq, Repr

/-- A mirror record (Table 18.2). -/
inductive MirrorRec where
  /-- physical line number, cells by position -/
  | store (line : Nat) (cells : NMap Cell)
  | byte (addr : Nat) (index : Fin 3) (value : Byte)
  | copy (line : Nat) (cells : Line)
  /-- epoch and held user words -/
  | commit (epoch : BitVec 24) (words : List (BitVec 11 × Cell))
  /-- command block and data of an FLXFER, and whether the transfer fails on the standby's flash -/
  | flash (block : List Cell) (data : List Byte)
  | boot
  | idle
  deriving DecidableEq, Repr

/-- One end of the mirror link with the pair's epochs and undo log. -/
structure Pair where
  role : Role
  /-- the arrangement names a pair with this channel, so that the undo area is refused (R402) -/
  inPair : Bool
  /-- the channel belongs to a formed pair or joins one -/
  linkUp : Bool
  /-- PREPOCH on an active; the committed epoch on a standby -/
  epoch : BitVec 24
  /-- the committed state is the formation state (R414) -/
  formation : Bool
  /-- retransmit buffer, oldest first (R406) -/
  buf : List (BitVec 24 × MirrorRec)
  nextSeq : BitVec 24
  /-- records of the buffer the standby has applied and not yet acknowledged -/
  applied : Nat
  /-- times the oldest record has been resent in succession -/
  tries : Nat
  /-- PRLINK -/
  resends : Payload
  /-- undo log of a standby, newest entry first: physical cell address and previous cell (R408) -/
  undo : List (Nat × Cell)
  /-- PRUNDO on an active -/
  undoOcc : Nat
  /-- vector 41 has been raised this epoch -/
  nearFull : Bool
  /-- lines copied to a joining partner (R421) -/
  copied : Nat
  ready : Bool
  /-- the pair record as the ledger holds it: role 0-2 and epoch -/
  recRole : BitVec 2
  recEpoch : BitVec 24
  /-- timebase at the last pair record requested for an epoch -/
  recTime : Nat
  /-- timebase at the last commit, formation or overdue report (R413) -/
  lastCommit : Nat
  /-- timebase at which back-pressure began (R409) -/
  backSince : Option Nat
  deriving DecidableEq, Repr

/-! ### The square (19) -/

/-- A frame of an outbound queue (R430, R433). -/
structure TxFrame where
  frame : HostFrame
  /-- held for a commit -/
  held : Bool
  /-- the first epoch whose marker took its place after the enqueue point -/
  mark : Option (BitVec 24)
  deriving DecidableEq, Repr

/-- A frame of an inbound ring (Table 19.1). -/
structure RxFrame where
  frame : HostFrame
  filter : Nat
  replay : Bool
  time : Payload
  deriving DecidableEq, Repr

/-- A copy in a replay buffer: whether RXPOP has removed the frame, and the first epoch whose marker came after that (R440). -/
structure Copy where
  rx : RxFrame
  popped : Bool
  mark : Option (BitVec 24)
  deriving DecidableEq, Repr

/-- An acceptance filter (Table 19.2). `iface` 3 is either CAN bus. -/
structure Filter where
  iface : Fin 4
  value : BitVec 64
  mask : BitVec 64
  deriving DecidableEq, Repr

/-- What a committed snapshot keeps: TXSEQI, TXSEQC and STMAC at an epoch's marker (R434). -/
structure SeqSnap where
  seqI : BitVec 16
  seqC : BitVec 16
  stmac : BitVec 48
  deriving DecidableEq, Repr

/-- A channel's port in the square (R429-R442). -/
structure Port where
  /-- oldest first -/
  queue : List TxFrame
  ring : List RxFrame
  seqI : BitVec 16
  seqC : BitVec 16
  stmac : BitVec 48
  /-- the committed snapshot, and those of markers not yet committed -/
  snap : SeqSnap
  marks : List (BitVec 24 × SeqSnap)
  /-- an enqueue has returned code 1 since USED was last 56 -/
  wasFull : Bool
  rxLost : Payload
  filters : List Filter
  /-- the registered last-gasp frames by interface -/
  gasp : Vector (Option HostFrame) 3
  /-- the channel holds an identity, so that its failure sends them -/
  armed : Bool
  /-- last-gasp frames waiting for their turn -/
  gaspDue : List HostFrame
  /-- replay buffer, in arrival order -/
  replay : List Copy
  rpgap : Payload
  /-- frames of a handover still to deliver -/
  handover : List RxFrame
  deriving DecidableEq, Repr

/-- CAN bus states (SQSTAT). -/
inductive BusState where
  | active
  | passive
  | off
  | disabled
  deriving DecidableEq, Repr

/-- A CAN controller. -/
structure Can where
  state : BusState
  tec : Nat
  rec_ : Nat
  pexc : BitVec 8
  /-- waiting for bus integration after a protocol exception (R426) -/
  waiting : Bool
  /-- the channel served last -/
  last : Fin 4
  deriving DecidableEq, Repr

/-- The Ethernet MAC and its PHY (R427, R428). -/
structure Eth where
  link : Bool
  fast : Bool
  full : Bool
  rxErr : BitVec 12
  txAbort : BitVec 12
  last : Fin 4
  /-- what the square has written to the PHY since POR_N rose, oldest first: register and value -/
  mdio : List (BitVec 5 × BitVec 16)
  deriving DecidableEq, Repr

/-- The square. -/
structure Square where
  /-- POR_N -/
  porN : Bool
  failed : Bool
  straps : Vector Pin 4
  /-- the first boot-good mark since POR_N has requested the snapshot (R60) -/
  snapAsked : Bool
  led : Ledger
  ports : Vector Port 4
  can : Vector Can 2
  eth : Eth
  unowned : Payload
  /-- frames dropped unowned since the last class 0x11 record of kind 3 -/
  unownedNow : Nat
  /-- VIO_SQ and VDD_SQ are present (R43) -/
  powered : Bool
  /-- slow-clock periods since the decision of the device pins or the last monitoring round (R65) -/
  monWait : Nat
  deriving DecidableEq, Repr

/-! ### Touch front end (21) -/

/-- A contact of a report (Table 21.2). EVT: 1 DOWN, 2 MOVE, 3 UP. -/
structure Contact where
  id : Nat
  evt : BitVec 2
  glove : Bool
  x : Nat
  y : Nat
  area : Nat
  peak : Nat
  deriving DecidableEq, Repr

/-- The touch front end. Nodes and electrodes are keyed as in the raw pages: node (i, j) at 24i + j, transmit electrode i at
768 + i, receive electrode j at 800 + j (R481). -/
structure Touch where
  run : Bool
  vtxf : Bool
  water : Bool
  filmX : Bool
  filmY : Bool
  appr : Bool
  freq : BitVec 2
  /-- sequence number of the latest completed report -/
  seq : Payload
  over_ : Payload
  /-- entries of the latest completed report, by ID -/
  contacts : List Contact
  /-- what the contact table shows: its report and entries -/
  shownSeq : Payload
  shown : List Contact
  base : NMap (BitVec 16)
  /-- the next report sets the baselines -/
  fresh : Bool
  /-- what the report under way uses: TTHR1, TTHR2, TTRACK, TNOISE and GLOVE -/
  thr1 : Payload
  thr2 : Payload
  track : Payload
  noise : Payload
  glove : Bool
  /-- calibration: CALSTAT.CALOK, CAUSE, VTXCAL; baselines and gains other than 128 -/
  calOk : Bool
  calCause : BitVec 2
  vtxCal : BitVec 16
  calBase : NMap (BitVec 16)
  gain : NMap (BitVec 8)
  /-- approach scan: ABASE set since AEN, consecutive runs at ATH, ASUM, ABASE -/
  aReady : Bool
  aRuns : Nat
  aSum : Payload
  aBase : Payload
  deriving DecidableEq, Repr

/-! ### Display and panel I/O (20) -/

/-- The latched registers of a plane (R453). -/
structure Plane where
  ctl : Payload
  base : Payload
  stride : Payload
  pos : Payload
  size : Payload
  col : Payload
  deriving DecidableEq, Repr

/-- The next read of the display engine: active row, plane, and line of the plane's row (R453, R456). -/
structure ScanPos where
  row : Nat
  plane : Fin 4
  k : Nat
  deriving DecidableEq, Repr

/-- The display engine. -/
structure Disp where
  hpd : Bool
  psr : Bool
  /-- link training under way, with the request's RATE and LANES codes -/
  training : Option (BitVec 2 × BitVec 2)
  lanes : BitVec 2
  rate : BitVec 2
  dlres : BitVec 3
  /-- DPCLK, DHTIM1, DHTIM2, DVTIM1, DVTIM2 as the last link training took them -/
  timing : Vector Payload 5
  planes : Vector Plane 4
  flip : BitVec 4
  /-- the palette in use, entries other than 0 -/
  palette : NMap Payload
  /-- display frames since the last change -/
  unchanged : Nat
  /-- the reads of the frame under way still to make, and the timebase at its vertical start -/
  scan : Option ScanPos
  vstart : Nat
  /-- the line buffers: by 4,096 × row of the plane + cell of that row, the cells read (R456) -/
  lines : Vector (NMap Cell) 4
  /-- an AUX transaction under way: OP and LEN − 1 -/
  aux : Option (BitVec 2 × BitVec 4)
  auxResult : BitVec 2
  deriving DecidableEq, Repr

/-- An encoder: the accepted lines, the count and the error count (R463). -/
structure Enc where
  a : Bool
  b : Bool
  count : BitVec 16
  err : BitVec 8
  deriving DecidableEq, Repr

/-- Keys, encoders, GPIO, buzzers, NTC derating and I²C. -/
structure Panel where
  /-- debounced state, key 8 × row + column -/
  keys : BitVec 64
  /-- scans in a row that disagree, by key -/
  disagree : NMap Nat
  /-- key events, oldest first: press, key -/
  keyq : List (Bool × Fin 64)
  enc : Vector Enc 4
  gpin : BitVec 8
  buz : BitVec 2
  /-- the limit L, and NTCRAW -/
  limit : BitVec 12
  ntc : BitVec 10
  /-- an I²C transaction under way: RLEN -/
  i2c : Option (BitVec 4)
  i2cResult : BitVec 3
  deriving DecidableEq, Repr

/-- Performance counters and the sampling unit (22). -/
structure Perf where
  /-- counters other than 0, by counter number (R488) -/
  counts : NMap (BitVec 48)
  /-- records waiting for their unit-port step, oldest first: whether a sample, and the four cells (R498) -/
  queue : List (Bool × Vector Cell 4)
  /-- TLSTAT -/
  head : BitVec 9
  count : Nat
  stopped : Bool
  wrapped : Bool
  /-- TLLOST -/
  lost : Payload
  /-- cores whose next selected instruction is marked (R500) -/
  marked : BitVec 2
  deriving DecidableEq, Repr

/-- Dynamic memory (40 stored bits a cell, R389; an absent cell is undefined) and near store (bits 33:32 the state of the code,
bits 31:0 the cell; an absent cell is undefined), with the number of times their contents have been lost. (PRESUMED, safe: log 60.) -/
structure Phys where
  mem : NMap (BitVec 40)
  memGen : Nat
  near : NMap (BitVec 34)
  nearGen : Nat
  deriving DecidableEq, Repr

/-- One channel (Table 1.1). `win` holds the window registers that hold bits of their own, by page × 1,024 + offset. -/
structure Channel where
  life : Life
  clk : Clock
  straps : Vector Pin 8
  boot : Boot
  win : NMap Payload
  thr : Vector Thread 8
  /-- the microsequencer's registers, by thread -/
  seq : Vector MicroSeq 8
  core : Vector Core 2
  proc : Proc
  phys : Phys
  sw : Sweeper
  mc : MemCtl
  led : Ledger
  pair : Pair
  perf : Perf
  disp : Disp
  panel : Panel
  touch : Touch
  deriving DecidableEq, Repr

/-- The device, with the free counter (log 2) and the queue of waiting commands, first in first out. -/
structure State where
  chans : Vector Channel 4
  square : Square
  free : Nat
  pending : List Instr
  deriving DecidableEq, Repr

/-! ### Faults and refusals -/

/-- Reasons a step of the model stops. No command of this model raises one: every condition the spec names is an effect on the
state (an event, a lockup, a halt, OFF). -/
inductive Fault where
  /-- never raised; safe -/
  | none
  deriving DecidableEq, Repr

/-- Reasons a command has no meaning. -/
inductive Refusal where
  /-- raised by exec's arm for a command whose meaning is not written; safe -/
  | notModelled (mnemonic : String)
  deriving DecidableEq, Repr


/-! ### Reset values -/

/-- A thread after reset (R146, R186, R212). -/
def threadReset : Thread :=
  { regs := Vector.replicate 32 0#32, bank := Vector.replicate 16 0#32, acc := 0#56, loopC := 0#24, loopS := 0#24, loopE := 0#24,
    pc := 0#24, pstate := 0#24, spU := 0#32, spS := 0#32, chain := 0#32, asid := 0#8, frame := none, shlvl := false,
    shRet := 0#24, shPst := 0#24, shFrame := none, shOpened := false, status := .stopped, hold := none, inShadow := false,
    sync := none, tbhCap := none, stampCap := none, stride := [], resv := none, rootReq := false, rootPend := false }
/-- The threads after reset: thread 0 is in supervisor state and never stopped, the others wait to be started (Tables 8.1 and 8.3,
R212). PC and SP_S of thread 0 are set when its channel starts (R143). -/
def threadsReset : Vector Thread 8 := (Vector.replicate 8 threadReset).set 0 { threadReset with pstate := 1#24, status := .running }
/-- A cache with no valid line (R313). -/
def cacheReset : Cache := { frames := [], buf := [], reqs := [], fill := none }
/-- A control store with patch RAM and patch points cleared (R255). -/
def storeReset : CStore := { ram := [], pts := [], flips := [] }
/-- The microsequencer of a thread after reset: nothing gives a value. (DESIGN CHOICE, unsafe: log 8.) -/
def seqReset : MicroSeq := { upc := 0#14, count := 0#24, stack := Vector.replicate 4 0#14, top := 0 }
/-- A core after reset. -/
def coreReset : Core :=
  { tlb := [], utlb := [], icache := cacheReset, dcache := cacheReset, wb := [], store := storeReset, checker := storeReset,
    entryDiff := false }
/-- The processor state after reset (Table 8.2, R255, R262, R263, R313). -/
def procReset : Proc :=
  { vbase := 0#24, cfree := 0#32, ptbase := 0#24, hatbase := 0#24, hatsize := 0#24, regmap := 0#24, nearbase := 0xF400#24,
    ucver := (Config.romRev ++ 0#16 : BitVec 24), attr := [], pend := [], icen := false, dcen := false, invd := false, range := none,
    heals := [], granted := .unitPort }
/-- A managed-space slot after reset. -/
def slotReset : Slot :=
  { en := false, asid := 0#8, logovf := false, side := 0#22, cycles := 0#24, map := [], pitch := [], handed := [] }
/-- The sweeper after reset (Table 15.9). -/
def sweeperReset : Sweeper :=
  { slots := Vector.replicate 8 slotReset, phase := .idle, full := false, slot := 0, cause := 0#3, result := 0#2, queue := [],
    spilled := 0, live := [], marks := [], work := [], todo := [], copy := none, toNext := 0, toEnd := 0, toBlocks := [], toSpace := [],
    lost := false, whole := false, starting := false, planned := false, lastLine := none, xlate := none, logHead := 0#10, logOcc := 0#11 }
/-- A subchannel after reset (R366, R373, R387). -/
def subReset : SubCh :=
  { banks := [], dirWrite := false, run := 0, hot := false, cool := 0, temp := 0#8, passTemp := 0#8, curTemp := 0#8, lane := 0,
    fastPass := false, slfail := 0#8, rfm := false, owed := 0#2, dist := [], winAge := 0, winLen := 1048,
    toBus := 0, toCmd := 0, cmd := .none, scrub := 0, open_ := [], stuck := false }
/-- The memory controller after reset. -/
def mcReset : MemCtl :=
  { pool := [], sub := Vector.replicate 2 subReset, peak := 0#11, aged := 0#24, panic := false, panicHeld := false,
    episodes := 0#12, cutoffs := 0#12, ceCount := 0#24, ueCount := 0#12, linkCount := 0#12, ceAddr := 0#32, ueAddr := 0#32,
    ueSpec := false, passes := 0#24, nbrs := 0#24, trainFail := none, retryWait := false, waited := 0, selfRef := false,
    unread := false, queued := [], restoreFailed := false, trained := false, trainTemp := 0#8 }
/-- All counts at 0. -/
def zeroCounts : Counts := { powerUps := 0#24, wrap0 := 0#24, wrap1 := 0#24, wdResets := 0#24, lockups := 0#24, failovers := 0#24 }
/-- A partition as it leaves the factory, its owner in its first reset; R80 does not give the contents of its header, which reads FIX 0
here. (DESIGN CHOICE, unsafe: log 62.) -/
def ledgerReset : Ledger :=
  { words := [], flaws := [], worn := [], seq := 1#24, newest := 0#24, staging := [], due := [], resetDue := false, items := [], lockReq := none, counts := zeroCounts,
    job := none, suspended := none, scan := true, snapRead := false, lost := [], lostTotal := 0#24, corr := 0#24,
    lossMarked := false, hadUser := false, stopped := false, discarded := 0, periods := 0 }
/-- No unit has taken its balls. -/
def takenReset : Taken :=
  { flash := false, memory := false, display := false, touch := false, backlight := false, panel := false, i2c := false, wake := false }
/-- A channel in reset (R40; log 3). (DESIGN CHOICE, unsafe: log 3.) -/
def lifeReset (cause : BitVec 6) : Life :=
  { cond := .inReset, power := .run, lockN := true, faultN := false, rstN := true, good := false, rails := 0#5, taken := takenReset, en := none, offCause := none,
    rstCause := cause, gated := 0#2, preWake := false, deepest := 0#2, alone46 := false }
/-- Timers, timebase, watchdog and monitors after reset (R112, R125, Tables 5.8 to 5.10). -/
def clockReset : Clock :=
  { tb := 0#48, wake := Vector.replicate 8 { armed := false, cmp := 0#48 },
    fast := Vector.replicate 8 { armed := false, periodic := false, pre := 0#2, loaded := 0#24, zero := false },
    wdRun := false, wdCount := 0, wdWarned := false, trim := 512#10, trimValid := false, trimTj := 0#16,
    mon := Vector.replicate 6 0#16, warn := 0#6, sticky := 0#6, lastRec := [], monWait := 0, staleFor := 0 }
/-- A pin not yet measured. (DESIGN CHOICE, unsafe: log 5.) -/
def pinReset : Pin :=
  { hist := none, decided := false, level := 0#3, source := 0#3, status := 0#2, rlevel := 0#3, raw := 0#10 }
/-- The boot sequencer before a boot. -/
def bootReset : Boot :=
  { stage := .discover, flash := none, order := [], slot := 0, second := false, image := none, round := [], prev := none,
    known := false, goodSlot := none, lastTried := 0, att0 := 0#4, att1 := 0#4, warm := false, good := false, waited := 0, gone := 0#2 }
/-- Pairing after reset. -/
def pairReset : Pair :=
  { role := .independent, inPair := false, linkUp := false, epoch := 0#24, formation := true, buf := [], nextSeq := 0#24, applied := 0, tries := 0,
    resends := 0#24, undo := [], undoOcc := 0, nearFull := false, copied := 0, ready := false, recRole := 0#2, recEpoch := 0#24,
    recTime := 0, lastCommit := 0, backSince := none }
/-- Memory and near store whose contents were lost for the g-th time. -/
def physReset (g : Nat) : Phys := { mem := [], memGen := g, near := [], nearGen := g }
/-- The touch front end after reset (R483, Table 21.2). -/
def touchReset : Touch :=
  { run := false, vtxf := false, water := false, filmX := false, filmY := false, appr := false, freq := 0#2, seq := 0#24,
    over_ := 0#24, contacts := [], shownSeq := 0#24, shown := [], base := [], fresh := false, thr1 := 0#24, thr2 := 0#24,
    track := 0#24, noise := 0#24, glove := false, calOk := false, calCause := 1#2, vtxCal := 0#16, calBase := [], gain := [],
    aReady := false, aRuns := 0, aSum := 0#24, aBase := 0#24 }
/-- The display engine after reset (Table 20.2). -/
def dispReset : Disp :=
  { hpd := false, psr := false, training := none, lanes := 0#2, rate := 0#2, dlres := 1#3, timing := Vector.replicate 5 0#24,
    planes := Vector.replicate 4 { ctl := 0xFF00#24, base := 0#24, stride := 0#24, pos := 0#24, size := 0#24, col := 0#24 },
    flip := 0#4, palette := [], unchanged := 0, scan := none, vstart := 0, lines := Vector.replicate 4 [], aux := none, auxResult := 0#2 }
/-- The panel controls after reset (Tables 20.3 to 20.5). (DEDUCED, unsafe: log 55.) -/
def panelReset : Panel :=
  { keys := 0#64, disagree := [], keyq := [], enc := Vector.replicate 4 { a := false, b := false, count := 0#16, err := 0#8 },
    gpin := 0#8, buz := 0#2, limit := 0#12, ntc := 0#10, i2c := none, i2cResult := 0#3 }
/-- The sampling unit after reset (Table 22.5). -/
def perfReset : Perf :=
  { counts := [], queue := [], head := 0#9, count := 0, stopped := false, wrapped := false, lost := 0#24, marked := 0#2 }
/-- A port after POR_N (Table 19.3). -/
def portReset : Port :=
  { queue := [], ring := [], seqI := 0#16, seqC := 0#16, stmac := 0#48, snap := { seqI := 0#16, seqC := 0#16, stmac := 0#48 },
    marks := [], wasFull := false, rxLost := 0#24, filters := [], gasp := Vector.replicate 3 none, armed := false,
    gaspDue := [], replay := [], rpgap := 0#24, handover := [] }
/-- A CAN controller after POR_N. -/
def canReset : Can := { state := .active, tec := 0, rec_ := 0, pexc := 0#8, waiting := false, last := 3 }
/-- A channel right after a reset of a cause. -/
def channelReset (cause : BitVec 6) : Channel :=
  { life := lifeReset cause, clk := clockReset, straps := Vector.replicate 8 pinReset, boot := bootReset, win := [],
    thr := threadsReset, seq := Vector.replicate 8 seqReset, core := Vector.replicate 2 coreReset, proc := procReset, phys := physReset 0,
    sw := sweeperReset, mc := mcReset, led := ledgerReset, pair := pairReset, perf := perfReset, disp := dispReset,
    panel := panelReset, touch := touchReset }
/-- The square while POR_N is low (R43). -/
def squareReset : Square :=
  { porN := false, failed := false, straps := Vector.replicate 4 pinReset, snapAsked := false, led := ledgerReset,
    ports := Vector.replicate 4 portReset, can := Vector.replicate 2 canReset,
    eth := { link := false, fast := false, full := false, rxErr := 0#12, txAbort := 0#12, last := 3, mdio := [] }, unowned := 0#24, unownedNow := 0, powered := false, monWait := 0 }
/-- The device right after reset: POR_N low, every channel and the square in reset, no command waiting. -/
def State.reset : State :=
  { chans := Vector.replicate 4 (channelReset 1#6), square := squareReset, free := 0, pending := [] }

end Sys2Proof.Machine
end

