-- ==== Sys2Proof/Machine/Window.lean ====
section
/-! DEFINITION. The window registers that hold bits of their own (R28): one 24-bit payload by offset page × 1,024 + register
offset, with the At power-up column of each page's table. -/
namespace Sys2Proof.Machine

/-- The offset of a register: window page and cell offset in the page. -/
def wreg (page off : Nat) : Nat := page * 1024 + off

/-- Window registers whose At power-up value is not 0, by offset. -/
def winResets : List (Nat × Payload) :=
  [(0x0400, 0x000A02#24),   -- PWRCTL: DOZEDLY 10, MAXST 2
   (0x1400, 0x000007#24),   -- CCTL: PFST, PFND, PFNI
   (0x1800, 0x00000C#24),   -- SMPCTL
   (0x1801, 0x000100#24),   -- TLYCTL
   (0x1802, 256#24),        -- TLWMARK
   (0x2000, 0x000080#24),   -- SWCTL: EVACPCT 8
   (0x2001, 4#24),          -- SWRSV
   (0x4400, 0x000021#24),   -- MCCTL: PROB 2, THRESH 1
   (0xC002, 0x00000A#24),   -- DLINK
   (0xC00A, 2#24),          -- DPSR: N 2
   (0xC00B, 1024#24),       -- DWMARK
   (0xC010, 0x00FF00#24), (0xC018, 0x00FF00#24), (0xC020, 0x00FF00#24), (0xC028, 0x00FF00#24),  -- PCTL: GALPHA 255
   (0x10003, 240#24),       -- TRATE
   (0x10004, 0x000210#24),  -- TSCAN
   (0x10005, 0x014064#24),  -- TTHR1: GLOVETH 20, CONTTH 100
   (0x10006, 0x01E01E#24),  -- TTHR2: WATERTH 30, SELFTH 30
   (0x10007, 0x060200#24),  -- TTRACK: BLSHIFT 6, TRACKD 512
   (0x10008, 40#24),        -- TNOISE
   (0x1000B, 0x010190#24),  -- ACTL: ACONF 1, ATH 400
   (0x14001, 1000#24),      -- BLFREQ
   (0x14008, 4095#24),      -- DRFLOOR
   (0x14009, 0x000010#24),  -- ALSCTL: PERIOD 16
   (0x16000, 0x005770#24),  -- KCTL
   (0x16013, 0x0000FF#24),  -- GPPULL
   (0x16018, 0x000080#24), (0x1601B, 0x000080#24),  -- BZDUTY
   (0x16019, 2000#24), (0x1601C, 2000#24)]  -- BZFREQ
/-- The At power-up value of a window register that holds bits. -/
def winReset (o : Nat) : Payload := mapAt 0#24 winResets o

/-- What a window register holds. -/
def winGet (ch : Channel) (o : Nat) : Payload := (mapGet ch.win o).getD (winReset o)
/-- Write what a window register holds, keeping the map canonical. -/
def winPut (ch : Channel) (o : Nat) (v : Payload) : Channel :=
  { ch with win := if v = winReset o then mapDel ch.win o else mapPut ch.win o v }
/-- A bit of a window register. -/
def winBit (ch : Channel) (o i : Nat) : Bool := bit (winGet ch o) i

end Sys2Proof.Machine
end

