-- ==== Sys2Proof/Machine/Ops.lean ====
section
/-! DEFINITION. The named operations every meaning is written with: one channel with what its commands touch, threads, events,
ledger records, the free counter, and the check code of memory. -/
namespace Sys2Proof.Machine

/-- One channel with what its commands may touch besides: its number, the square and the free counter. -/
structure Mach where
  c : Chan
  ch : Channel
  sq : Square
  free : Nat
  deriving DecidableEq, Repr

/-- What a command answers. -/
abbrev Out := Host.Outcome State Fault Refusal

/-! ### Channels and threads -/

/-- The channel a command names. -/
def State.chan (s : State) (c : Chan) : Channel := s.chans[c]
/-- Replace a channel. -/
def State.setChan (s : State) (c : Chan) (ch : Channel) : State := { s with chans := s.chans.set c ch }
/-- The slice of a state that a command of channel `c` works on. -/
def State.mach (s : State) (c : Chan) : Mach := { c := c, ch := s.chan c, sq := s.square, free := s.free }
/-- Put a slice back. -/
def State.putMach (s : State) (m : Mach) : State :=
  { s with chans := s.chans.set m.c m.ch, square := m.sq, free := m.free }
/-- Work on the slice of channel `c`. -/
def State.onMach (s : State) (c : Chan) (f : Mach → Mach) : State := s.putMach { f (s.mach c) with c := c }

/-- A thread of the channel. -/
def Mach.thr (m : Mach) (t : Fin 8) : Thread := m.ch.thr[t]
/-- Replace a thread. -/
def Mach.setThr (m : Mach) (t : Fin 8) (th : Thread) : Mach := { m with ch.thr := m.ch.thr.set t th }
/-- The core of a thread: 0 for threads 0-3, 1 for threads 4-7. -/
def coreOf (t : Fin 8) : Fin 2 := if t.val < 4 then 0 else 1
/-- A core of the channel. -/
def Mach.core (m : Mach) (k : Fin 2) : Core := m.ch.core[k]
/-- Replace a core. -/
def Mach.setCore (m : Mach) (k : Fin 2) (co : Core) : Mach := { m with ch.core := m.ch.core.set k co }
/-- The other core. -/
def otherCore (k : Fin 2) : Fin 2 := if k = 0 then 1 else 0
/-- All threads. -/
def threads : List (Fin 8) := [0, 1, 2, 3, 4, 5, 6, 7]

/-- PSTATE.S. -/
def Thread.sup (t : Thread) : Bool := bit t.pstate 0
/-- PSTATE.TE. -/
def Thread.te (t : Thread) : Bool := bit t.pstate 1
/-- PSTATE.SHB. -/
def Thread.shb (t : Thread) : Bool := bit t.pstate 2
/-- PSTATE.LZ. -/
def Thread.lz (t : Thread) : Bool := bit t.pstate 3
/-- A cell register. -/
def Thread.reg (t : Thread) (r : Reg) : Cell := t.regs[r]
/-- Write a cell register. -/
def Thread.setReg (t : Thread) (r : Reg) (v : Cell) : Thread := { t with regs := t.regs.set r v }
/-- SP: SP_S while PSTATE.S is 1 and SP_U otherwise (R204). -/
def Thread.sp (t : Thread) : Cell := if t.sup then t.spS else t.spU
/-- Write SP. -/
def Thread.setSp (t : Thread) (v : Cell) : Thread := if t.sup then { t with spS := v } else { t with spU := v }

/-! ### The free counter (log 2) -/

/-- Draw a free value below `n`. (DESIGN CHOICE, safe: log 2.) -/
def Mach.draw (m : Mach) (n : Nat) : Nat × Mach := (Config.freeNat m.free % n, { m with free := m.free + 1 })

/-! ### Performance counters (R488-R490) -/

/-- A counter counts one occurrence. -/
def Mach.bump (m : Mach) (n : Nat) : Mach :=
  { m with ch.perf.counts := mapSet 0#48 m.ch.perf.counts n (mapAt 0#48 m.ch.perf.counts n + 1#48) }
/-- A counter counts n occurrences. -/
def Mach.bumpBy (m : Mach) (n k : Nat) : Mach :=
  { m with ch.perf.counts := mapSet 0#48 m.ch.perf.counts n (mapAt 0#48 m.ch.perf.counts n + BitVec.ofNat 48 k) }
/-- Channel counted event e of Table 22.2. -/
def Mach.bumpC (m : Mach) (e : Nat) : Mach := m.bump (192 + e)
/-- Core counted event of Table 22.1 on the core of a thread. -/
def Mach.bumpT (m : Mach) (t : Fin 8) (e : Nat) : Mach := m.bump (96 * (coreOf t).val + e)
/-- A core counted event that happened or not. -/
def Mach.bumpTIf (m : Mach) (b : Bool) (t : Fin 8) (e : Nat) : Mach := if b then m.bumpT t e else m
/-- A channel counted event that happened or not. -/
def Mach.bumpIf (m : Mach) (b : Bool) (e : Nat) : Mach := if b then m.bumpC e else m

/-! ### Signals (R263) -/

/-- Raise a signal: the pending bit is set with its ADDR detail, or the overrun count of one already pending increments. (DEDUCED, unsafe: log 20.) -/
def raiseP (p : Proc) (v : Nat) (addr : Cell) : Proc :=
  match mapGet p.pend v with
  | none => { p with pend := mapPut p.pend v { overrun := 0#8, addr := addr } }
  | some q => { p with pend := mapPut p.pend v { q with overrun := satInc q.overrun } }
/-- Raise a signal of the channel. -/
def Mach.raise (m : Mach) (v : Nat) (addr : Cell) : Mach := { m with ch.proc := raiseP m.ch.proc v addr }
/-- Raise a signal whose source is enabled by a bit of a window register. -/
def Mach.raiseIf (m : Mach) (en : Bool) (v : Nat) (addr : Cell) : Mach := if en then m.raise v addr else m

/-! ### Error records (R81, R88) -/

/-- A record arrives at a staging queue: it enters with the carried LOST count, or is lost and counted. -/
def Ledger.arrive (l : Ledger) (cls : BitVec 6) (spec flag : Bool) (detail : BitVec 32) : Ledger :=
  if l.staging.length < 16 then
    { l with
      staging := l.staging ++ [.error cls spec flag (mapAt 0#8 l.lost cls.toNat)
        (BitVec.ofNat 24 (l.periods / 32768)) detail]
      lost := mapDel l.lost cls.toNat }
  else
    { l with
      lost := mapPut l.lost cls.toNat (satInc (mapAt 0#8 l.lost cls.toNat))
      lostTotal := satInc l.lostTotal
      lossMarked := true }
/-- Whether an arriving record makes event 38 pending where it is enabled (R97). -/
def Ledger.arriveEvent (l : Ledger) (cls : BitVec 6) (detail : BitVec 32) : Bool :=
  (!(l.staging.length < 16) && !l.lossMarked)
    || (cls = 0x0F#6 && (detail.extractLsb' 28 4 = 1#4 || detail.extractLsb' 28 4 = 2#4))
/-- Queue an error record of the channel, with event 38 where R97 gives it. -/
def Mach.report (m : Mach) (cls : BitVec 6) (spec flag : Bool) (detail : BitVec 32) : Mach :=
  let ev := m.ch.led.arriveEvent cls detail
  let m := m.bumpIf (!(m.ch.led.staging.length < 16)) 50
  let m := { m with ch.led := m.ch.led.arrive cls spec flag detail }
  m.raiseIf (ev && winBit m.ch 0x1001 0) 38 fix0

/-! ### The check code of memory (R389) -/

/-- The columns h_j: the 8-bit values of weight 3 in ascending order. -/
def hCols : List (BitVec 8) :=
  [0x07#8, 0x0B#8, 0x0D#8, 0x0E#8, 0x13#8, 0x15#8, 0x16#8, 0x19#8, 0x1A#8, 0x1C#8, 0x23#8, 0x25#8, 0x26#8, 0x29#8, 0x2A#8,
   0x2C#8, 0x31#8, 0x32#8, 0x34#8, 0x38#8, 0x43#8, 0x45#8, 0x46#8, 0x49#8, 0x4A#8, 0x4C#8, 0x51#8, 0x52#8, 0x54#8, 0x58#8,
   0x61#8, 0x62#8]
/-- The vectors g_i: the 8-bit values of weight 2 or 4 in ascending order. -/
def gVecs : List (BitVec 8) :=
  [0x03#8, 0x05#8, 0x06#8, 0x09#8, 0x0A#8, 0x0C#8, 0x0F#8, 0x11#8, 0x12#8, 0x14#8, 0x17#8, 0x18#8, 0x1B#8, 0x1D#8, 0x1E#8,
   0x21#8, 0x22#8, 0x24#8, 0x27#8, 0x28#8, 0x2B#8, 0x2D#8, 0x2E#8, 0x30#8, 0x33#8, 0x35#8, 0x36#8, 0x39#8, 0x3A#8, 0x3C#8,
   0x41#8]
/-- The exclusive-or of the columns whose bit of `n`, from bit `i` up, is set. -/
def xorCols : List (BitVec 8) → Nat → Nat → BitVec 8
  | [], _, _ => 0#8
  | h :: r, i, n => (if n.testBit i then h else 0#8) ^^^ xorCols r (i + 1) n
/-- The check bits of cell `d` at physical cell address `a`. -/
def checkBits (a : Nat) (d : Cell) : BitVec 8 := xorCols hCols 0 d.toNat ^^^ xorCols gVecs 0 a
/-- The 40 stored bits of cell `d` at `a`: check bits above the cell. -/
def eccWrite (a : Nat) (d : Cell) : BitVec 40 := (checkBits a d ++ d : BitVec 40)
/-- How a stored cell reads. -/
inductive Ecc where
  | clean
  | correctable
  | uncorrectable
  deriving DecidableEq, Repr
/-- The index of a column equal to the syndrome, from index `i` up. -/
def findCol : List (BitVec 8) → Nat → BitVec 8 → Option Nat
  | [], _, _ => none
  | h :: r, i, s => if h = s then some i else findCol r (i + 1) s
/-- Whether a syndrome is a check bit column 2^k. -/
def isPow (s : BitVec 8) : Bool :=
  s = 1#8 || s = 2#8 || s = 4#8 || s = 8#8 || s = 16#8 || s = 32#8 || s = 64#8 || s = 128#8
/-- Class and corrected cell of 40 stored bits read at `a`; an uncorrectable cell is delivered as PSN with SOURCE 1 (R390). -/
def eccRead (a : Nat) (w : BitVec 40) : Ecc × Cell :=
  let d : Cell := w.extractLsb' 0 32
  let s := w.extractLsb' 32 8 ^^^ checkBits a d
  if s = 0#8 then (.clean, d)
  else match findCol hCols 0 s with
    | some j => (.correctable, d ^^^ (1#32 <<< j))
    | none => if isPow s then (.correctable, d) else (.uncorrectable, psn 1#4)

/-! ### Physical storage (R25-R29) -/

/-- Populated memory cells: 8 GiB, or 4 GiB for CHn_MEMORG level 1 (R26). -/
def Channel.memCells (ch : Channel) : Nat := if ch.straps[0].level = 1#3 then 0x40000000 else 0x80000000
/-- M, the populated memory pages (R291). -/
def Channel.memPages (ch : Channel) : Nat := ch.memCells / 1024
/-- What lies at a physical cell address (Table 1.2, Table 1.3). -/
inductive Place where
  | memory
  | near
  | window
  /-- refused under R27 -/
  | nothing
  deriving DecidableEq, Repr
/-- Whether a window page is allocated to a unit (Table 1.3). -/
def pageAllocated (p : Nat) : Bool := p < 0x68 || (0x80 ≤ p && p < 0xC0)
/-- Whether an address lies in the undo area of a channel that an arrangement pairs: the top 4 Mi cells of memory (R402). -/
def Channel.undoArea (ch : Channel) (a : Nat) : Bool := ch.pair.inPair && decide (ch.memCells - 0x400000 ≤ a) && decide (a < ch.memCells)
/-- The place of a physical cell address. -/
def Channel.place (ch : Channel) (a : Nat) : Place :=
  if ch.undoArea a then .nothing
  else if a < ch.memCells then .memory
  else if 0x80000000 ≤ a && a < 0x80010000 then .near
  else if 0xC0000000 ≤ a && a < 0xC0040000 && pageAllocated ((a - 0xC0000000) / 1024) then .window
  else .nothing
/-- The 40 stored bits at a memory address. -/
def Mach.memBits (m : Mach) (a : Nat) : BitVec 40 :=
  (mapGet m.ch.phys.mem a).getD (Config.undefMem m.c.val m.ch.phys.memGen a)
/-- The stored near-store cell at an offset, with the state of its code. -/
def Mach.nearBits (m : Mach) (o : Nat) : BitVec 34 :=
  (mapGet m.ch.phys.near o).getD (Config.undefNear m.c.val m.ch.phys.nearGen o)
/-- How a near-store cell reads: an uncorrectable one is PSN with SOURCE 3 (R325). -/
def nearRead (w : BitVec 34) : Ecc × Cell :=
  let k := w.extractLsb' 32 2
  if k = 0#2 then (.clean, w.extractLsb' 0 32)
  else if k = 1#2 then (.correctable, w.extractLsb' 0 32)
  else (.uncorrectable, psn 3#4)
/-- The cell a read of one memory or near-store address would deliver, with nothing recorded. -/
def Mach.peek (m : Mach) (a : Nat) : Cell :=
  match m.ch.place a with
  | .memory => (eccRead a (m.memBits a)).2
  | .near => (nearRead (m.nearBits (a - 0x80000000))).2
  | _ => fix0
/-- Store the 40 bits of a memory cell. -/
def Mach.putMem (m : Mach) (a : Nat) (w : BitVec 40) : Mach := { m with ch.phys.mem := mapPut m.ch.phys.mem a w }
/-- Store the cells of a list from an address up, each with its check code. -/
def Mach.putRun (m : Mach) (a : Nat) (vs : List Cell) : Mach :=
  { m with ch.phys.mem := mapRun m.ch.phys.mem a (vs.zipIdx.map (fun e => eccWrite (a + e.2) e.1)) }
/-- Store a clean near-store cell. -/
def Mach.putNear (m : Mach) (o : Nat) (c : Cell) : Mach :=
  { m with ch.phys.near := mapPut m.ch.phys.near o (0#2 ++ c : BitVec 34) }

end Sys2Proof.Machine
end

