-- ==== Sys2Proof/Machine/Microcode.lean ====
section
/-! DEFINITION. The control store and the microsequencer (10): words with their parity, the dispatch and tag-class tables, patch points,
and the sequence of microwords a routine runs through. -/
namespace Sys2Proof.Machine

/-! ### Words and parity (R237, R238) -/

/-- The parity bit of a group of 28 data bits: with it the 29 bits hold an odd number of ones (R238). -/
def groupParity (g : BitVec 28) : Bool := decide (((upFrom 0 28).filter (fun i => g.getLsbD i)).length % 2 = 0)
/-- The parity bits of 112 data bits: bit i covers data bits 28i + 27 to 28i (R238). -/
def parityOf (d : BitVec 112) : BitVec 4 :=
  BitVec.ofBool (groupParity (d.extractLsb' 84 28)) ++ BitVec.ofBool (groupParity (d.extractLsb' 56 28))
    ++ BitVec.ofBool (groupParity (d.extractLsb' 28 28)) ++ BitVec.ofBool (groupParity (d.extractLsb' 0 28))
/-- A word as it is stored: its data bits under their parity bits. -/
def withParity (d : BitVec 112) : BitVec 116 := (parityOf d ++ d : BitVec 116)
/-- Whether a stored word passes parity. -/
def parityOk (w : BitVec 116) : Bool := decide (w = withParity (w.setWidth 112))
/-- Whether a microaddress holds a microword: control ROM or patch RAM (R239). -/
def isMicroword (u : Nat) : Bool := u < 7920 || (8192 ≤ u && u < 9216)

/-! ### The dispatch table (R247, Table 8.5) -/

/-- The fields an assigned opcode leaves unused, by form: bits of the instruction word that must be 0 (R191, Table 8.4). -/
def maskA : BitVec 16 := 0x0001#16
def maskDA : BitVec 16 := 0x003F#16
def maskABv : BitVec 16 := 0xF800#16
def maskAB : BitVec 16 := 0xF801#16
def maskOnlyA : BitVec 16 := 0xF83F#16
def maskD : BitVec 16 := 0x07FF#16
def maskN : BitVec 16 := 0xFFFF#16
def maskDI : BitVec 16 := 0x07C0#16
def maskAI : BitVec 16 := 0xF800#16
def maskI : BitVec 16 := 0xFFC0#16
def maskL : BitVec 16 := 0xF800#16
/-- Supervisor-only and MASK of each assigned opcode of the base instructions (Tables 8.7 to 8.11). -/
def baseOp (op : Nat) : Option (Bool × BitVec 16) :=
  if op = 0x01 || op = 0x28 then some (false, maskN)
  else if op = 0x02 || op = 0x05 || op = 0x08 || op = 0x35 then some (false, maskDA)
  else if op = 0x1D || op = 0x1E || op = 0x1F then some (false, 0#16)
  else if op = 0x03 || op = 0x04 || op = 0x06 || op = 0x07 || op = 0x12 || op = 0x16 || op = 0x1A || op = 0x1B || op = 0x1C
    || op = 0x20 || op = 0x22 || op = 0x2B || op = 0x2C || op = 0x30 || op = 0x31 || op = 0x32 || op = 0x33 || op = 0x37
    || op = 0x40 || op = 0x41 then some (false, 0#16)
  else if (0x10 ≤ op && op ≤ 0x19) || op = 0x21 || (0x23 ≤ op && op ≤ 0x27) then some (false, maskA)
  else if op = 0x29 || op = 0x2A then some (false, maskD)
  else if op = 0x2D || op = 0x3A then some (false, maskL)
  else if op = 0x34 || op = 0x36 || op = 0x38 || op = 0x39 then some (false, maskOnlyA)
  else if op = 0x3B || op = 0x3E || op = 0x42 then some (true, maskN)
  else if op = 0x3C then some (true, maskOnlyA)
  else if op = 0x3D || op = 0x44 then some (true, maskA)
  else if op = 0x43 || op = 0x45 then some (true, maskDA)
  else none
/-- The same of every other assigned opcode (Tables 9.2 to 9.8, 12.2, 13.8, 14.6, 15.6, 18.4, 22.4). -/
def laterOp (op : Nat) : Option (Bool × BitVec 16) :=
  if (0x60 ≤ op && op ≤ 0x65) || (0x70 ≤ op && op ≤ 0x73) || op = 0x82 then some (false, maskA)
  else if op = 0x66 || (0x6A ≤ op && op ≤ 0x6C) || op = 0x80 || op = 0x81 || op = 0x85 then some (false, maskDA)
  else if op = 0x67 || op = 0x68 || op = 0x69 || op = 0x83 || op = 0x90 || op = 0x91 then some (false, 0#16)
  else if op = 0x84 || op = 0x92 then some (false, maskAB)
  else if op = 0xA0 || op = 0xA1 then some (false, maskABv)
  else if op = 0xA2 then some (false, maskN)
  else if op = 0xA3 then some (false, maskDI)
  else if op = 0xB0 then some (true, maskL)
  else if op = 0xB1 || op = 0xB2 || op = 0xB3 || op = 0xC2 || op = 0xC8 then some (true, maskN)
  else if op = 0xB8 then some (true, maskAI)
  else if op = 0xB9 || op = 0xD4 then some (true, maskDA)
  else if op = 0xC0 || op = 0xC1 then some (true, maskI)
  else if op = 0xC3 then some (true, maskA)
  else if op = 0xD0 then some (true, maskD)
  else none
/-- SUP and MASK of an opcode; none for opcode 0x00 and every unassigned one (R192, R247). -/
def opRow (op : Nat) : Option (Bool × BitVec 16) := if op < 0x60 then baseOp op else laterOp op
/-- The opcode of a cell taken as an instruction. -/
def cellOp (w : Cell) : Nat := bits w 16 8
/-- Whether a fetched cell is an instruction of the table: an INSTR cell of an assigned opcode whose unused fields are 0 (R191, R192). -/
def isInstr (w : Cell) : Bool :=
  decide (cellTag w = tINSTR) && (match opRow (cellOp w) with | some (_, mask) => decide (mask &&& w.setWidth 16 = 0#16) | none => false)
/-- The dispatch entry of an opcode (R247); START belongs to the ROM revision. -/
def dispatchEntry (op : Nat) : BitVec 32 :=
  match opRow op with
  | some (sup, mask) => (1#1 ++ BitVec.ofBool sup ++ mask ++ BitVec.ofNat 14 (Config.microStart op % 7920) : BitVec 32)
  | none => 0#32

/-! ### The tag-class table (R248) -/

/-- The numeric code of a class, which orders Table 10.4. -/
def numericRow (ca cb : Nat) : Nat :=
  match ca, cb with
  | 0, 0 => 0
  | 0, 1 => 1
  | 0, _ => 4
  | 1, 0 => 2
  | 1, 1 => 3
  | 1, _ => 6
  | _, 0 => 5
  | _, 1 => 7
  | _, _ => 8
/-- The code K of a row class and a column class (R248). -/
def kCode (ca cb : Nat) : Nat :=
  let ok (c : Nat) : Bool := c = 0 || c = 1 || c = 5 || c = 10 || c = 12
  if ca = 14 then 11
  else if ca = 15 then 12
  else if cb = 14 then 13
  else if cb = 15 then 14
  else if !ok ca || !ok cb then 10
  else if ca = 5 || ca = 12 || cb = 5 || cb = 12 then 9
  else numericRow ca cb
/-- The row word of a class: the entry for cb in bits 4cb + 3 to 4cb, bits 111:64 zero. -/
def classRow (ca : Nat) : BitVec 112 := BitVec.ofNat 112 ((upFrom 0 16).foldl (fun n cb => n + kCode ca cb * 16 ^ cb) 0)

/-! ### Reading a control store (R237, R253, R254) -/

/-- The data bits of a word of the control ROM as it is made (Table 10.1): ROM microwords belong to the ROM revision (R3). -/
def romData (u : Nat) : BitVec 112 :=
  if u < 7920 then Config.romWord u
  else if u < 7936 then classRow (u - 7920)
  else (dispatchEntry (u - 7936)).setWidth 112
/-- The stored word of a microaddress as a control store reads it. -/
def CStore.word (s : CStore) (u : Nat) : BitVec 116 :=
  (if u < 8192 then withParity (romData u) else mapAt 0#116 s.ram (u - 8192)) ^^^ mapAt 0#116 s.flips u
/-- The microaddress a fetch of u reads: that of the lowest valid patch point that names it; the tables are never patched (R254). -/
def CStore.redirect (s : CStore) (u : Nat) : Nat :=
  if u < 7920 then
    match s.pts.find? (fun p => p.2.1.toNat = u) with
    | some p => 8192 + p.2.2.toNat
    | none => u
  else u
/-- The data bits of a word both copies of which pass parity, the core's and its checker's (R249). -/
def Core.micro (c : Core) (u : Nat) : Option (BitVec 112) :=
  if parityOk (c.store.word u) && parityOk (c.checker.word u) then some ((c.store.word u).setWidth 112) else none
/-- Whether the control store of a core and its checker's read as they were made, with no patch point: every word fetched passes parity
and every routine is the ROM's own. -/
def Core.asMade (c : Core) : Bool := c.store.pts.isEmpty && c.store.flips.isEmpty && c.checker.flips.isEmpty
/-- The patch RAM and patch points of a patch section (R253): parity is computed, the rest of the RAM holds 0. -/
def patchStore (p : Option Patch) : CStore :=
  match p with
  | some p => { ram := (p.words.map (fun e => (e.1, withParity e.2))).filter (fun e => decide (e.2.setWidth 112 ≠ 0#112)), pts := p.points, flips := [] }
  | none => { ram := [], pts := [], flips := [] }
/-- Load a patch into a core and its checker; a bit that reads wrong in ROM goes on reading wrong. -/
def Core.loadPatch (c : Core) (p : Option Patch) : Core :=
  { c with
    store := { patchStore p with flips := c.store.flips.filter (fun e => decide (e.1 < 8192)) }
    checker := { patchStore p with flips := c.checker.flips.filter (fun e => decide (e.1 < 8192)) } }

/-! ### Sequencing (R240, R241, R244, R246) -/

/-- How a sequence of microwords ends. -/
inductive MicroStop where
  /-- at its END word, or where the model follows it no further (log 8) -/
  | ends
  /-- with the event of SEQ 7 that a patch word or an altered word names -/
  | event (evt : BitVec 5)
  /-- at a control-store machine check that reports this microaddress -/
  | bad (u : Nat)
  deriving DecidableEq, Repr
/-- What a sequence of microwords comes to: its end, whether a COMMIT word issued before it, and the sequencer's registers. -/
structure MicroRun where
  stop : MicroStop
  committed : Bool
  seq : MicroSeq
  deriving DecidableEq, Repr
/-- The micro-counter after a word (UCNT, Table 10.2); the ASEL operand's payload is a free value. -/
def MicroSeq.counted (q : MicroSeq) (w : BitVec 112) (free : Nat) : MicroSeq :=
  match bits w 8 3 with
  | 1 => { q with count := w.extractLsb' 11 24 }
  | 2 => { q with count := BitVec.ofNat 24 free }
  | 3 => { q with count := q.count - 1#24 }
  | _ => q
/-- CALL: the address is pushed, over the oldest entry where four are present. -/
def MicroSeq.push (q : MicroSeq) (a : BitVec 14) : MicroSeq := { q with stack := q.stack.set q.top a, top := q.top + 1 }
/-- RETURN: the address the circular slot below holds. -/
def MicroSeq.pop (q : MicroSeq) : BitVec 14 × MicroSeq := (q.stack[q.top - 1], { q with top := q.top - 1 })
/-- Whether the COND condition of a word holds; a datapath condition is a free value. Condition 63 looks at the count the word's own
UCNT leaves. (DESIGN CHOICE, unsafe: log 8.) -/
def MicroSeq.cond (q : MicroSeq) (w : BitVec 112) (free : Nat) : Bool :=
  match bits w 87 6 with
  | 0 => true
  | 1 => false
  | 63 => decide (q.count = 0#24)
  | _ => decide (free % 2 = 1)
/-- The next microaddress of a word at u that neither ends nor raises, with the sequencer after it (Table 10.3). `k` is the code K of a
TAGDISP. -/
def MicroSeq.next (q : MicroSeq) (u : Nat) (w : BitVec 112) (k free : Nat) : Nat × MicroSeq :=
  let nadr := bits w 93 14
  match bits w 107 3 with
  | 1 => (nadr, q)
  | 2 => (if q.cond w free then nadr else u + 1, q)
  | 4 => (nadr + k, q)
  | 5 => (nadr, q.push (BitVec.ofNat 14 (u + 1)))
  | 6 => (q.pop.1.toNat, q.pop.2)
  | _ => (u + 1, q)
/-- The sequence of microwords of thread-local state q, at most n of them (R241, R249, R254): `ca` and `cb` are the classes a TAGDISP finds,
`free` gives what the datapath decides. A word of the ROM as made names ROM words only. -/
def Core.sequence (c : Core) (ca cb : Nat) (free : Nat → Nat) : Nat → Bool → MicroSeq → MicroRun
  | 0, cm, q => { stop := .ends, committed := cm, seq := q }
  | n + 1, cm, q =>
    let u := c.store.redirect q.upc.toNat
    let q := { q with upc := BitVec.ofNat 14 u }
    match c.micro u with
    | none => { stop := .bad u, committed := cm, seq := q }
    | some w =>
      let made := decide (u < 7920) && mapAt 0#116 c.store.flips u = 0#116
      let cm := cm || bit w 35
      let q := q.counted w (free (2 * n + 1))
      if bits w 107 3 = 3 then { stop := .ends, committed := cm, seq := q }
      else if bits w 107 3 = 7 then { stop := if made then .ends else .event (w.extractLsb' 36 5), committed := cm, seq := q }
      else
        let row := if bits w 107 3 = 4 then c.micro (7920 + ca) else some 0#112
        match row with
        | none => { stop := .bad (7920 + ca), committed := cm, seq := q }
        | some row =>
          let x := q.next u w (bits row (4 * cb) 4) (free (2 * n))
          if isMicroword x.1 && (!made || x.1 < 7920) then
            c.sequence ca cb free n cm { x.2 with upc := BitVec.ofNat 14 x.1 }
          else { stop := if made then .ends else .bad u, committed := cm, seq := x.2 }
/-- The most microwords of one instruction that are followed. (DESIGN CHOICE, unsafe: log 8.) -/
def microLimit : Nat := 4096

end Sys2Proof.Machine
end

