-- ==== Sys2Proof/Machine/Pool.lean ====
section
/-! DEFINITION. The request pool of the memory controller: the address mapping, the requests, what a request reports when its last beat
passes (R363-R369, R390, R391), and the cells of a line. -/
namespace Sys2Proof.Machine

/-! ### Address mapping (R364, R365) -/

/-- The grain exponent G of an interleaving level (R364). -/
def mapGrain (lvl : BitVec 3) : Nat := 2 * lvl.toNat + 2
/-- Subchannel (true is B) and offset of a physical memory address (R364). -/
def Channel.split (ch : Channel) (a : Nat) : Bool × Nat :=
  let map := ch.straps[2].level
  if map = 0#3 then
    if ch.straps[0].level = 0#3 then (a.testBit 30, a % 0x40000000) else (false, a % 0x80000000)
  else
    let g := mapGrain map
    (a.testBit g, a % 0x80000000 / 2 ^ (g + 1) * 2 ^ g + a % 2 ^ g)
/-- The physical address of an offset of a subchannel: the inverse of `split`. -/
def Channel.join (ch : Channel) (sub : Bool) (o : Nat) : Nat :=
  let map := ch.straps[2].level
  if map = 0#3 then
    if ch.straps[0].level = 0#3 then bnat sub * 0x40000000 + o else o
  else
    let g := mapGrain map
    o / 2 ^ g * 2 ^ (g + 1) + bnat sub * 2 ^ g + o % 2 ^ g
/-- Whether components are 16 Gb (R61). -/
def Channel.big (ch : Channel) : Bool := ch.straps[0].level = 2#3
/-- Whether subchannel B is populated (R26). -/
def Channel.hasB (ch : Channel) : Bool := ch.straps[0].level = 0#3
/-- Row of a subchannel offset (Table 16.2). -/
def Channel.rowOf (ch : Channel) (o : Nat) : BitVec 16 := BitVec.ofNat 16 (o / (if ch.big then 0x8000 else 0x4000))
/-- Bank of a subchannel offset: the hashed bank group, then the bank within the group (Table 16.2). -/
def Channel.bankOf (ch : Channel) (o : Nat) : Nat :=
  let bg := (o / 1024 % 8) ^^^ ((ch.rowOf o).toNat % 8)
  if ch.big then bg * 4 + o / 0x2000 % 4 else bg * 2 + o / 0x2000 % 2
/-- The burst index of a subchannel offset within its row (Table 16.2), and the column address of its burst (R362). -/
def burstOf (o : Nat) : Nat := o / 16 % 64
/-- The column address of a line's burst: 16 × its burst index. -/
def Channel.columnOf (ch : Channel) (line : Nat) : Nat := 16 * burstOf (ch.split (line * 16)).2
/-- Cells of one subchannel. -/
def Channel.subCells (ch : Channel) : Nat := if ch.hasB then 0x40000000 else ch.memCells

/-! ### Reports of a completed request -/

/-- ADDR of vectors 35 and 36 (Table 17.4). -/
def mcAddr (src : BitVec 2) (sub : Bool) (a : Nat) : Cell :=
  fix (src ++ (BitVec.ofBool sub) ++ BitVec.ofNat 21 (a / 1024) : BitVec 24)
/-- A corrected cell (R390): counted, recorded, and reported by vector 35 unless speculative. -/
def Mach.reportCe (m : Mach) (a : Nat) (spec scrub : Bool) : Mach :=
  let sub := (m.ch.split a).1
  let m := { m.bumpC 32 with ch.mc.ceCount := satInc m.ch.mc.ceCount }
  let m := m.report 0x02#6 spec scrub (BitVec.ofNat 32 a)
  if spec then m
  else
    let m := { m with ch.mc.ceAddr := BitVec.ofNat 32 a }
    m.raiseIf (winBit m.ch 0x4400 6) 35 (mcAddr (if scrub then 1#2 else 0#2) sub a)
/-- An uncorrectable cell, or a refused partial write (R390, R393): counted, recorded, and reported by vector 36. -/
def Mach.reportUe (m : Mach) (a : Nat) (spec scrub refused : Bool) : Mach :=
  let sub := (m.ch.split a).1
  let m := { m.bumpC 33 with ch.mc := { m.ch.mc with ueCount := satInc m.ch.mc.ueCount, ueAddr := BitVec.ofNat 32 a, ueSpec := spec } }
  let m := m.report 0x03#6 spec refused (BitVec.ofNat 32 a)
  if spec then m
  else m.raiseIf (winBit m.ch 0x4400 7) 36 (mcAddr (if refused then 2#2 else if scrub then 1#2 else 0#2) sub a)
/-- A class 0x04 record (Table 4.5): subchannel, kind, and line address or failing step. -/
def Mach.reportLink (m : Mach) (sub : Bool) (kind : BitVec 3) (low : BitVec 28) (spec : Bool) : Mach :=
  let m := { m with ch.mc.linkCount := satInc m.ch.mc.linkCount }
  m.report 0x04#6 spec false (BitVec.ofBool sub ++ kind ++ low : BitVec 32)
/-- The reports of the cells of a completed request, in order of position. -/
def Mach.reportErrs (m : Mach) (line : Nat) (spec scrub : Bool) : List (Fin 16 × BitVec 2) → Mach
  | [] => m
  | (p, k) :: r =>
    let a := line * 16 + p.val
    let m := if k = 0#2 then m.reportCe a spec scrub else m.reportUe a spec scrub (k = 2#2)
    m.reportErrs line spec scrub r
/-- Write back corrected every cell of a line that still reads correctable (R390). -/
def Mach.rewriteCells (m : Mach) (line : Nat) : List (Fin 16) → Mach
  | [] => m
  | p :: r =>
    let a := line * 16 + p.val
    let e := eccRead a (m.memBits a)
    let m := if e.1 = Ecc.correctable then m.putMem a (eccWrite a e.2) else m
    m.rewriteCells line r
/-- The positions of a line. -/
def positions : List (Fin 16) := [0, 1, 2, 3, 4, 5, 6, 7, 8, 9, 10, 11, 12, 13, 14, 15]
/-- Whether all 16 cells of a line read uncorrectable, which makes the read a command error (R391). -/
def allUe (errs : List (Fin 16 × BitVec 2)) : Bool := decide (errs.length = 16) && errs.all (fun e => e.2 = 1#2)
/-- Whether a request reads its line and delivers it. -/
def ReqKind.reads : ReqKind → Bool
  | .read => true
  | .scrub => true
  | _ => false
/-- Whether a request owes its line a rewrite when it has read a correctable cell (R390). -/
def PoolReq.owesRewrite (r : PoolReq) : Bool := r.kind.reads && r.errs.any (fun e => e.2 = 0#2)
/-- The maintenance request that rewrites a line. -/
def rewriteReq (line : Nat) : PoolReq :=
  { line := line, src := .maint, kind := .rewrite, hint := 0#2, age := 0, spec := false, stage := .waiting, left := 0, errs := [], prior := [] }
/-- What the last beat of a request brings about (R390, R391), apart from the rewrite it may owe. -/
def Mach.finish (m : Mach) (r : PoolReq) (strobeMissing again : Bool) : Mach :=
  let a := r.line * 16
  let sub := (m.ch.split a).1
  let m := if r.age ≥ 512 then { m with ch.mc.aged := satInc m.ch.mc.aged } else m
  if r.kind = .rewrite then m.rewriteCells r.line positions
  else if r.kind.reads && (strobeMissing || allUe r.errs) then
    let m := m.reportLink sub 1#3 (BitVec.ofNat 28 r.line) r.spec
    if again || allUe r.errs then
      let m := { m.bumpBy 225 16 with ch.mc := { m.ch.mc with
        ueCount := satAdd m.ch.mc.ueCount 16, ueAddr := BitVec.ofNat 32 a, ueSpec := r.spec } }
      if r.spec then m else m.raiseIf (winBit m.ch 0x4400 7) 36 (mcAddr 3#2 sub a)
    else m.reportErrs r.line r.spec (r.kind = .scrub) r.errs
  else m.reportErrs r.line r.spec (r.kind = .scrub) r.errs

/-! ### Entering the pool (R366, R367) -/

/-- A bank of a subchannel (R372, R373). -/
def bankReset : Bank := { row := none, pred := 2#2, leftOpen := false, idle := 0, raa := 0, toCol := 0, toPre := 0, toAct := 0 }
/-- The bank at a number. -/
def SubCh.bank (x : SubCh) (b : Nat) : Bank := mapAt bankReset x.banks b
/-- Replace a bank. -/
def SubCh.setBank (x : SubCh) (b : Nat) (k : Bank) : SubCh := { x with banks := mapSet bankReset x.banks b k }
/-- The subchannel that holds a line, with B numbered 1. -/
def Channel.subOf (ch : Channel) (line : Nat) : Fin 2 := if (ch.split (line * 16)).1 then 1 else 0
/-- Row and bank of a line. -/
def Channel.spot (ch : Channel) (line : Nat) : BitVec 16 × Nat :=
  let o := (ch.split (line * 16)).2
  (ch.rowOf o, ch.bankOf o)
/-- Whether the page policy is the predictor's (CHn_POLICY levels 0 to 2). -/
def Channel.predicts (ch : Channel) : Bool := decide (ch.straps[3].level.toNat < 3)
/-- A request arrives for its bank: the predictor learns where it left the row open, and an open row that is asked for is not
idle (R372, R373). -/
def Mach.arriveBank (m : Mach) (line : Nat) : Mach :=
  let i := m.ch.subOf line
  let p := m.ch.spot line
  let x := m.ch.mc.sub[i]
  let k := x.bank p.2
  let hit := decide (k.row = some p.1)
  let k := if k.leftOpen && m.ch.predicts then
      { k with pred := if hit then satInc k.pred else if k.pred = 0#2 then 0#2 else k.pred - 1#2 }
    else k
  let k := if hit then { k with idle := 0 } else k
  { m with ch.mc.sub := m.ch.mc.sub.set i (x.setBank p.2 k) }
/-- Entries of a partition. -/
def ReqSrc.cap : ReqSrc → Nat
  | .turnstile => 896
  | .display => 96
  | .maint => 32
/-- The first request that satisfies a test, and the others. -/
def takeFirst {α : Type} (p : α → Bool) : List α → Option (α × List α)
  | [] => none
  | x :: r => if p x then some (x, r) else (takeFirst p r).map (fun y => (y.1, x :: y.2))
/-- Put back the stored bits that a write replaced. -/
def Mach.unwrite (m : Mach) : List (Nat × BitVec 40) → Mach
  | [] => m
  | (a, w) :: r => (m.putMem a w).unwrite r
/-- Whether a request is a write that has been issued to the devices. -/
def PoolReq.sent (r : PoolReq) : Bool := decide (r.stage = .issued) && !r.kind.reads
/-- Complete requests, oldest first. -/
def Mach.finishAll (m : Mach) : List PoolReq → Mach
  | [] => m
  | r :: rs => (m.finish r false false).finishAll rs
/-- Take back requests, newest first: what a write has replaced returns. -/
def Mach.takeBack (m : Mach) : List PoolReq → Mach
  | [] => m
  | r :: rs => (m.unwrite r.prior).takeBack rs
/-- The memory controller completes the writes it has issued and discards every other request (R42). -/
def Mach.quench (m : Mach) : Mach :=
  let pool := m.ch.mc.pool
  let m := (m.finishAll (pool.filter PoolReq.sent)).takeBack (pool.filter (fun r => !r.sent)).reverse
  { m with ch.mc.pool := [], ch.mc.queued := [] }
/-- Add a request to the pool and keep MCPEAK's high-water mark. -/
def MemCtl.push (mc : MemCtl) (r : PoolReq) : MemCtl :=
  let pool := mc.pool ++ [r]
  { mc with pool := pool, peak := if mc.peak.toNat < pool.length then BitVec.ofNat 11 pool.length else mc.peak }
/-! ### Lines of memory at a turnstile place -/

/-- The cells of a line that read with an error, with their report codes. -/
def Mach.lineErrs (m : Mach) (line : Nat) : List (Fin 16) → List (Fin 16 × BitVec 2)
  | [] => []
  | p :: r =>
    let e := (eccRead (line * 16 + p.val) (m.memBits (line * 16 + p.val))).1
    if e = Ecc.clean then m.lineErrs line r
    else (p, if e = Ecc.correctable then 0#2 else 1#2) :: m.lineErrs line r
/-- The cells a read of a line delivers. -/
def Mach.lineCells (m : Mach) (line : Nat) : Line :=
  Vector.ofFn (fun p : Fin 16 => (eccRead (line * 16 + p.val) (m.memBits (line * 16 + p.val))).2)
/-- Store the written cells of a line: a marked cell keeps the CDR stored, corrected, or 00 when it reads uncorrectable; an
untouched cell that reads correctable is written back corrected (R363). (DEDUCED, unsafe: log 24.) -/
def Mach.mergeCells (m : Mach) (line : Nat) (cells : NMap (Cell × Bool)) : List (Fin 16) → Mach
  | [] => m
  | p :: r =>
    let a := line * 16 + p.val
    let m := match mapGet cells p.val with
      | some (v, false) => m.putMem a (eccWrite a v)
      | some (v, true) =>
        let e := eccRead a (m.memBits a)
        m.putMem a (eccWrite a (withCdr v (if e.1 = Ecc.uncorrectable then 0#2 else cellCdr e.2)))
      | none =>
        let e := eccRead a (m.memBits a)
        if e.1 = Ecc.correctable then m.putMem a (eccWrite a e.2) else m
    m.mergeCells line cells r
/-- The untouched cells of a merge that read correctable, reported like a read (R363). (DEDUCED, unsafe: log 24.) -/
def Mach.mergeErrs (m : Mach) (line : Nat) (cells : NMap (Cell × Bool)) : List (Fin 16) → List (Fin 16 × BitVec 2)
  | [] => []
  | p :: r =>
    if (mapGet cells p.val).isNone && (eccRead (line * 16 + p.val) (m.memBits (line * 16 + p.val))).1 = Ecc.correctable
    then (p, 0#2) :: m.mergeErrs line cells r else m.mergeErrs line cells r
/-- Whether a write of these cells writes its line with one burst (R363). -/
def fullLine (cells : NMap (Cell × Bool)) : Bool := decide (cells.length = 16) && cells.all (fun e => !e.2.2)
end Sys2Proof.Machine
end

