-- ==== Sys2Proof/Machine/Sched.lean ====
section
/-! DEFINITION. The scheduler of the memory controller: device timing, row disturbance, the choice of R370, page policy, refresh, and how
a request enters the pool and leaves it (R361, R366-R373, R382, R385-R388). -/
namespace Sys2Proof.Machine

/-! ### Device timing (R361, Table 16.1), in controller clocks of 4 tCK -/

/-- The controller clock in MHz. -/
def Channel.cclk (ch : Channel) : Nat := 400 + 50 * ch.straps[1].level.toNat
/-- The CHn_MEMSPD level, 0 to 4. -/
def Channel.speed (ch : Channel) : Nat := min 4 ch.straps[1].level.toNat
/-- tRCD, which is also tRP and CL. -/
def Channel.tRcd (ch : Channel) : Nat := ceilDiv ([28, 32, 36, 40, 42].getD ch.speed 42) 4
/-- CWL. -/
def Channel.tCwl (ch : Channel) : Nat := ceilDiv ([26, 30, 34, 38, 40].getD ch.speed 40) 4
/-- A number of nanoseconds in controller clocks, rounded up. -/
def Channel.clocks (ch : Channel) (ns : Nat) : Nat := ceilDiv (ns * ch.cclk) 1000
/-- tRAS. -/
def Channel.tRas (ch : Channel) : Nat := ch.clocks 32
/-- tWR. -/
def Channel.tWr (ch : Channel) : Nat := ch.clocks 30
/-- tRFC. -/
def Channel.tRfc (ch : Channel) : Nat := ch.clocks (if ch.big then 295 else 195)
/-- Controller clocks of one line burst on the bus. -/
def burstClocks : Nat := 2

/-! ### When the controller works -/

/-- Whether the controller serves requests: memory is trained, the channel boots, runs or stands by, and it is not in SLEEP. -/
def Mach.serves (m : Mach) : Bool :=
  m.ch.mc.trained && (decide (m.ch.life.cond = .booting) || decide (m.ch.life.cond = .running) || decide (m.ch.life.cond = .standby))
    && decide (m.ch.life.power ≠ .sleep)
/-- Whether retraining, refresh and scrub go on: a running or standby channel in RUN, IDLE or DOZE. -/
def Mach.maintains (m : Mach) : Bool := m.serves && decide (m.ch.life.cond ≠ .booting)
/-- The index of a subchannel. -/
def subIx (sub : Bool) : Fin 2 := if sub then 1 else 0
/-- Whether a subchannel is populated (R26). -/
def Channel.populated (ch : Channel) (sub : Bool) : Bool := !sub || ch.hasB
/-- A subchannel. -/
def Mach.subc (m : Mach) (sub : Bool) : SubCh := m.ch.mc.sub[subIx sub]
/-- Replace a subchannel. -/
def Mach.setSub (m : Mach) (sub : Bool) (x : SubCh) : Mach := { m with ch.mc.sub := m.ch.mc.sub.set (subIx sub) x }

/-! ### Row disturbance (R385-R388) -/

/-- Counters of a bank. -/
def Channel.distSize (ch : Channel) : Nat := if ch.big then 64 else 128
/-- The threshold T. -/
def Channel.distT (ch : Channel) : Nat := 512 * 2 ^ bits (winGet ch 0x4400) 0 2
/-- Whether counting is in use, and whether random is. -/
def Channel.distMode (ch : Channel) : Bool × Bool :=
  let l := ch.straps[3].level.toNat % 3
  (decide (l = 0) || decide (l = 2), decide (l = 1) || decide (l = 2))
/-- The counters of a bank that are in use. -/
def SubCh.counters (x : SubCh) (b n : Nat) : List (Nat × BitVec 16 × Nat) :=
  (upFrom 0 n).filterMap (fun i => (mapGet x.dist (128 * b + i)).map (fun e => (i, e.1, e.2)))
/-- The counter with the smallest count, lowest on ties. -/
def least : List (Nat × BitVec 16 × Nat) → Option (Nat × BitVec 16 × Nat)
  | [] => none
  | e :: r => match least r with
    | none => some e
    | some f => if f.2.2 < e.2.2 then some f else some e
/-- The counting rule of R387 for an activate of a row: the subchannel, and whether a neighbour refresh follows. -/
def SubCh.countRow (x : SubCh) (b : Nat) (row : BitVec 16) (n thr : Nat) : SubCh × Bool :=
  let cs := x.counters b n
  let pick : Nat × Nat :=
    match cs.find? (fun e => e.2.1 = row) with
    | some e => (e.1, e.2.2)
    | none => match (upFrom 0 n).find? (fun i => (mapGet x.dist (128 * b + i)).isNone) with
      | some i => (i, 0)
      | none => match least cs with
        | some e => (e.1, e.2.2)
        | none => (0, 0)
  let k := pick.2 + 1
  if thr ≤ k then
    let others := cs.filter (fun e => e.1 ≠ pick.1)
    let low := if others.length + 1 < n then 0 else match least others with | some e => e.2.2 | none => 0
    ({ x with dist := mapPut x.dist (128 * b + pick.1) (row, low) }, true)
  else ({ x with dist := mapPut x.dist (128 * b + pick.1) (row, k) }, false)
/-- The rows that a neighbour refresh of a row refreshes: those at distance 1, and at distance 2 where MCCTL.RADIUS is 1, inside 0 to
65,535 (R385). -/
def neighbours (row : Nat) (wide : Bool) : List Nat :=
  ((if wide then [row - 2, row - 1, row + 1, row + 2] else [row - 1, row + 1]).filter
    (fun r => decide (r ≠ row) && decide (r < 65536))).eraseDups
/-- An activate of a row: disturbance protection in the modes of the policy level, and refresh management (R385-R388). A neighbour refresh
that it triggers goes ahead of it, a pair of an activate and a precharge for each row. (DESIGN CHOICE, unsafe: log 14.) -/
def Mach.activate (m : Mach) (sub : Bool) (b : Nat) (row : BitVec 16) : Mach :=
  let x := m.subc sub
  let x := x.setBank b { x.bank b with row := some row, idle := 0, leftOpen := false, raa := (x.bank b).raa + bnat x.rfm }
  let lim := Config.raaimt m.c.val sub
  let x := if x.rfm && lim ≤ (x.bank b).raa then
      { x with banks := (mapVals (fun k => { k with raa := k.raa - lim }) x.banks).filter (fun e => e.2 ≠ bankReset) }
    else x
  let r := if m.ch.distMode.1 then x.countRow b row m.ch.distSize m.ch.distT else (x, false)
  let m := m.setSub sub r.1
  let d := if m.ch.distMode.2 then m.draw (256 * 2 ^ bits (winGet m.ch 0x4400) 4 2) else (1, m)
  let m := d.2
  let ns := if r.2 || d.1 = 0 then neighbours row.toNat (winBit m.ch 0x4400 3) else []
  let before := ns.length * (m.ch.tRas + m.ch.tRcd)
  let x := m.subc sub
  let m := m.setSub sub { x.setBank b { x.bank b with toCol := before + m.ch.tRcd, toPre := before + m.ch.tRas } with
    cmd := .activate b row ns }
  if r.2 || d.1 = 0 then { m.bumpC (if sub then 25 else 17) with ch.mc.nbrs := satInc m.ch.mc.nbrs } else m
/-! ### Scheduling (R368, R370, R372) -/

/-- A pool entry with whether an earlier entry of the pool has its line. -/
def heldFlags : List PoolReq → List Nat → List (PoolReq × Bool)
  | [], _ => []
  | r :: rest, seen => (r, seen.contains r.line) :: heldFlags rest (r.line :: seen)
/-- Whether a request's next column command is a write. -/
def PoolReq.writesNext (r : PoolReq) : Bool := r.kind = .write || r.stage = .readDone
/-- The pool entries of a subchannel with their place in the pool, whether held by R368 or an open alert window, and whether aged
or holding an aged one. -/
structure McCand where
  i : Nat
  req : PoolReq
  held : Bool
  aged : Bool
  deriving DecidableEq, Repr
/-- The entries of a subchannel. -/
def Mach.entries (m : Mach) (sub : Bool) : List McCand :=
  let fl := heldFlags m.ch.mc.pool []
  let opens := (m.subc sub).open_.map OpenWrite.line
  let old := (m.ch.mc.pool.filter (fun r => 512 ≤ r.age)).map PoolReq.line
  (fl.zipIdx.filter (fun e => m.ch.subOf e.1.1.line = subIx sub)).map (fun e =>
    { i := e.2, req := e.1.1, held := e.1.2 || opens.contains e.1.1.line, aged := old.contains e.1.1.line })
/-- Whether a waiting request hits the open row of its bank. -/
def Mach.rowHit (m : Mach) (sub : Bool) (r : PoolReq) : Bool :=
  let p := m.ch.spot r.line
  decide (((m.subc sub).bank p.2).row = some p.1)
/-- Whether the timing of Table 16.1 permits a request's next command in this controller clock: the column command, the precharge of
another row, or the activate. -/
def Mach.timely (m : Mach) (sub : Bool) (r : PoolReq) : Bool :=
  let p := m.ch.spot r.line
  let x := m.subc sub
  let k := x.bank p.2
  match k.row with
  | none => decide (k.toAct = 0)
  | some row => if row = p.1 then decide (k.toCol = 0) && decide (x.toBus = 0) && decide (r.left = 0) else decide (k.toPre = 0)
/-- choose(subchannel) of R370: the candidates are the entries neither held nor issued whose next command Table 16.1 permits. (DESIGN CHOICE,
unsafe: log 14.) -/
def Mach.choose (m : Mach) (sub : Bool) : Option McCand :=
  let es := m.entries sub
  let cs := es.filter (fun e => !e.held && e.req.stage ≠ .issued && m.timely sub e.req)
  let x := m.subc sub
  if es.any (fun e => e.aged && e.req.stage ≠ .issued) then cs.find? (fun e => e.aged)
  else
    let byPanic := if m.ch.mc.panic then cs.find? (fun e => e.req.src = .display) else none
    match byPanic with
    | some e => some e
    | none =>
      let dir (d : Bool) (e : McCand) : Bool := e.req.writesNext = d && m.rowHit sub e.req
      let other := cs.filter (fun e => e.req.writesNext ≠ x.dirWrite)
      if 32 ≤ x.run && !other.isEmpty then
        (match other.find? (dir (!x.dirWrite)) with | some e => some e | none => other.head?)
      else match cs.find? (dir x.dirWrite) with
        | some e => some e
        | none => match cs.find? (dir (!x.dirWrite)) with
          | some e => some e
          | none => cs.head?
/-- The pool with an entry's stage changed, its last data beat so many controller clocks away. -/
def setStage (st : ReqStage) (left : Nat) : Nat → List PoolReq → List PoolReq
  | _, [] => []
  | 0, r :: rest => { r with stage := st, left := left } :: rest
  | n + 1, r :: rest => r :: setStage st left n rest
/-- Whether a rewrite has nothing left to write back (R390). -/
def Mach.nothingToRewrite (m : Mach) (line : Nat) : Bool :=
  positions.all (fun p => (eccRead (line * 16 + p.val) (m.memBits (line * 16 + p.val))).1 ≠ Ecc.correctable)
/-- The stage after a column command. -/
def Mach.stageAfter (m : Mach) (r : PoolReq) : ReqStage :=
  match r.kind, r.stage with
  | .merge, .waiting => .readDone
  | .rewrite, .waiting => if m.nothingToRewrite r.line then .issued else .readDone
  | _, _ => .issued
/-- A bank after its row is closed by auto-precharge: the precharge waits for what Table 16.1 asks, and the next activate for tRP. -/
def Bank.autoClose (k : Bank) (tRp : Nat) : Bank :=
  { k with row := none, leftOpen := false, idle := 0, toCol := 0, toPre := 0, toAct := max k.toAct (k.toPre + tRp) }
/-- A column command: its column address, direction, stage and page policy (R362, R370, R372, R373). -/
def Mach.column (m : Mach) (sub : Bool) (e : McCand) : Mach :=
  let p := m.ch.spot e.req.line
  let st := m.stageAfter e.req
  let w := e.req.writesNext
  let beats := (if w then m.ch.tCwl else m.ch.tRcd) + burstClocks
  let pool := setStage st beats e.i m.ch.mc.pool
  let x := m.subc sub
  let x := if w = x.dirWrite then { x with run := x.run + 1 } else { x with dirWrite := w, run := 1 }
  let more := pool.any (fun r => m.ch.subOf r.line = subIx sub && m.ch.spot r.line = p && r.stage ≠ .issued)
  let k := x.bank p.2
  let k := if w then { k with toPre := max k.toPre (beats + m.ch.tWr) } else k
  let k := if more then { k with leftOpen := false }
    else if m.ch.predicts then (if 2#2 ≤ k.pred then { k with leftOpen := true } else k.autoClose m.ch.tRcd)
    else if e.req.hint = 1#2 then { k with leftOpen := false }
    else k.autoClose m.ch.tRcd
  let col := m.ch.columnOf e.req.line
  ({ m with ch.mc.pool := pool }).setSub sub { x.setBank p.2 k with
    toBus := burstClocks, cmd := if w then .write p.2 col k.row.isNone else .read p.2 col k.row.isNone }
/-- A precharge of a bank. -/
def SubCh.precharge (x : SubCh) (b tRp : Nat) : SubCh :=
  { x.setBank b { (x.bank b).autoClose tRp with toAct := tRp } with cmd := .precharge b }
/-- The next command of a chosen request: column, activate or precharge. -/
def Mach.issueFor (m : Mach) (sub : Bool) (e : McCand) : Mach :=
  let p := m.ch.spot e.req.line
  let k := (m.subc sub).bank p.2
  if k.row = some p.1 then m.column sub e
  else match k.row with
    | none => m.activate sub p.2 p.1
    | some _ => m.setSub sub ((m.subc sub).precharge p.2 m.ch.tRcd)
/-- Age by one controller clock, saturating at the age cap; the last data beat comes nearer. -/
def PoolReq.older (r : PoolReq) : PoolReq := { r with age := min 512 (r.age + 1), left := r.left - 1 }
/-- One controller clock of a bank: its row's idle time and its timing. -/
def Bank.clock (k : Bank) : Bank :=
  { k with idle := if k.row.isSome then min 256 (k.idle + 1) else k.idle, toCol := k.toCol - 1, toPre := k.toPre - 1, toAct := k.toAct - 1 }
/-- One controller clock passes on a subchannel: ages, idle rows, timing, alert windows. -/
def Mach.mcClock (m : Mach) (sub : Bool) : Mach :=
  let pool := m.ch.mc.pool.map (fun r => if m.ch.subOf r.line = subIx sub then r.older else r)
  let x := m.subc sub
  let x := { x with
    banks := (mapVals Bank.clock x.banks).filter (fun e => e.2 ≠ bankReset)
    toBus := x.toBus - 1, toCmd := x.toCmd - 1, cmd := .none
    open_ := (x.open_.map (fun w => { w with left := w.left - 1 })).filter (fun w => w.left ≠ 0) }
  ({ m with ch.mc.pool := pool }).setSub sub x
/-- Close every row of a subchannel. -/
def SubCh.closeAll (x : SubCh) (tRp : Nat) : SubCh :=
  { x with banks := (mapVals (fun k => if k.row.isSome then k.autoClose tRp else k) x.banks).filter (fun e => e.2 ≠ bankReset) }
/-- Controller clocks until every bank of a subchannel can be activated. -/
def SubCh.quiet (x : SubCh) : Nat := x.banks.foldl (fun n e => max n e.2.toAct) 0
/-- An all-bank refresh: the rows close and the activate counts of refresh management fall (R372, R382, R388). -/
def Mach.doRefresh (m : Mach) (sub : Bool) : Mach :=
  let lim := Config.raaimt m.c.val sub
  let x := (m.subc sub).closeAll m.ch.tRcd
  (m.setSub sub { x with
    banks := (mapVals (fun k => { k with raa := k.raa - lim }) x.banks).filter (fun e => e.2 ≠ bankReset)
    toCmd := x.quiet + m.ch.tRfc, cmd := .refresh }).bumpC 29
/-- Whether an aged request of the subchannel is being served. -/
def Mach.agedWaits (m : Mach) (sub : Bool) : Bool := (m.entries sub).any (fun e => e.aged)
/-- COMMAND_ISSUE: one controller clock of a subchannel's scheduler (R370). A postponed refresh is repaid before any other command
once no aged request is served (R382). (DESIGN CHOICE, unsafe: log 14.) -/
def Mach.commandIssue (m : Mach) (sub : Bool) : Mach :=
  if !(m.serves && m.ch.populated sub) then m
  else
    let m := m.mcClock sub
    let x := m.subc sub
    if x.toCmd ≠ 0 then m
    else if x.owed ≠ 0#2 && !m.agedWaits sub then
      (m.doRefresh sub).setSub sub { (m.doRefresh sub).subc sub with owed := x.owed - 1#2 }
    else if m.ch.mc.unread then m
    else match m.choose sub with
      | some e => m.issueFor sub e
      | none => m
/-- Whether a partition of the pool holds a free entry (R366, R367). -/
def MemCtl.free (mc : MemCtl) (src : ReqSrc) : Bool := decide ((mc.pool.filter (fun q => q.src = src)).length < src.cap)
/-- Maintenance requests that wait enter the pool, oldest first, while their partition has room; n of them at most. -/
def Mach.admitQueued (m : Mach) : Nat → Mach
  | 0 => m
  | n + 1 =>
    match m.ch.mc.queued with
    | [] => m
    | r :: rest =>
      if m.ch.mc.free .maint then
        let m := m.arriveBank r.line
        ({ m with ch.mc := { m.ch.mc.push { r with errs := if r.kind.reads then m.lineErrs r.line positions else [] } with
          queued := rest } }).admitQueued n
      else m
/-- A request completes: its reports, and the rewrite it owes, which enters the pool once the maintenance partition has a free entry. -/
def Mach.complete (m : Mach) (r : PoolReq) (strobeMissing again : Bool) : Mach :=
  let m := m.finish r strobeMissing again
  let m := if r.owesRewrite then { m with ch.mc.queued := m.ch.mc.queued ++ [rewriteReq r.line] } else m
  m.admitQueued m.ch.mc.queued.length

/-- Take out of the pool the oldest request of a subchannel whose last data beat has passed. -/
def Mach.takeIssued (m : Mach) (sub : Bool) : Option (PoolReq × Mach) :=
  match takeFirst (fun r => r.stage = .issued && r.left = 0 && m.ch.subOf r.line = subIx sub) m.ch.mc.pool with
  | some (r, rest) => some (r, { m with ch.mc.pool := rest })
  | none => none
/-- Controller clocks of the alert window: its bound of 64 tCK (R392; log 14). (DESIGN CHOICE, unsafe: log 14.) -/
abbrev alertClocks : Nat := 16
/-- REQUEST_COMPLETE: the last data beat of the subchannel's oldest issued request passes, and its entry is freed (R371, R390,
R391). A write's alert window opens (R392). -/
def Mach.requestComplete (m : Mach) (sub strobeMissing again : Bool) : Mach :=
  if !m.serves then m
  else match m.takeIssued sub with
    | none => m
    | some (r, m) =>
      let m := m.complete r strobeMissing again
      if r.kind.reads then m
      else m.setSub sub { m.subc sub with open_ := (m.subc sub).open_ ++ [{ line := r.line, alerts := 0#2, left := alertClocks }] }
/-! ### Entering the pool (R367) -/

/-- One controller clock of both subchannels, with the requests whose last beat passes in it. -/
def Mach.memoryClock (m : Mach) : Mach :=
  let both (f : Mach → Bool → Mach) (m : Mach) : Mach := f (f m false) true
  both (fun m sub => m.requestComplete sub false false) (both Mach.commandIssue m)
/-- The controller works until a partition of its pool has a free entry, for n controller clocks at most. -/
def Mach.awaitEntry (m : Mach) (src : ReqSrc) : Nat → Mach
  | 0 => m
  | n + 1 => if m.ch.mc.free src then m else m.memoryClock.awaitEntry src n
/-- Controller clocks within which R371 has an entry of every partition freed: 512, and 90 ns for each of 1,023 earlier requests, at the
fastest clock, with the maintenance pauses. -/
def poolPatience : Nat := 131072
/-- A request enters the pool. A step that finds its partition full is not granted until an entry is free (R367): the controller works on
meanwhile, inside the waiting step. R371 has an entry freed in that time; of a controller that serves nothing the oldest request
completes. (DEDUCED, unsafe: log 6.) -/
def Mach.poolAdd (m : Mach) (r : PoolReq) : Mach :=
  let m := if m.ch.mc.free r.src then m else ({ m with ch.mc.unread := false }).awaitEntry r.src poolPatience
  let m := if m.ch.mc.free r.src then m
    else match takeFirst (fun q => q.src = r.src) m.ch.mc.pool with
      | some (q, rest) => { m with ch.mc.pool := rest }.finish q false false
      | none => m
  let m := m.arriveBank r.line
  { m with ch.mc := m.ch.mc.push r }
/-- A maintenance request: it enters the pool, or waits for a free entry of its partition. -/
def Mach.poolQueue (m : Mach) (r : PoolReq) : Mach :=
  let m := { m with ch.mc.queued := m.ch.mc.queued ++ [r] }
  m.admitQueued m.ch.mc.queued.length

end Sys2Proof.Machine
end

