-- ==== Sys2Proof/Machine/Lines.lean ====
section
/-! DEFINITION. Reads and writes of memory lines at their turnstile place (R315, R363, R367), and near-store cells (R325). -/
namespace Sys2Proof.Machine

/-! ### Lines of memory at a turnstile place -/

/-- A read of a line takes its place: its cells, and the request in the pool (R315, R367). (DEDUCED, unsafe: log 18.) -/
def Mach.lineRead (m : Mach) (line : Nat) (src : ReqSrc) (kind : ReqKind) (hint : BitVec 2) (spec : Bool) : Line × Mach :=
  (m.lineCells line,
   m.poolAdd { line := line, src := src, kind := kind, hint := hint, age := 0, spec := spec, stage := .waiting,
               left := 0, errs := m.lineErrs line positions, prior := [] })
/-- A write of a line's cells takes its place in memory (R363). (DEDUCED, unsafe: log 18.) -/
def Mach.lineWrite (m : Mach) (line : Nat) (cells : NMap (Cell × Bool)) (hint : BitVec 2) : Mach :=
  let full := fullLine cells
  let errs := if full then [] else m.mergeErrs line cells positions
  let prior := positions.map (fun p => (line * 16 + p.val, m.memBits (line * 16 + p.val)))
  let m := m.mergeCells line cells positions
  m.poolAdd { line := line, src := .turnstile, kind := if full then .write else .merge, hint := hint, age := 0, spec := false,
              stage := .waiting, left := 0, errs := errs, prior := prior }

/-! ### The agents of the turnstile (R328) -/

/-- The agent that a core is. -/
def coreAgent (k : Fin 2) : Agent := if k = 0 then .core0 else .core1
/-- The hint of the newest request to a line in the pool becomes known. -/
def rehint (line : Nat) (hint : BitVec 2) : List PoolReq → List PoolReq
  | [] => []
  | q :: r =>
    if q.line = line && q.src = .turnstile && !r.any (fun x => x.line = line && x.src = .turnstile) then { q with hint := hint } :: r
    else q :: rehint line hint r
/-- A memory step of an agent is granted: the rotation moves on to it. A request of the sweeper settles the hint of its request before:
OPEN where both lie in one page (R328, R373). -/
def Mach.turn (m : Mach) (ag : Agent) (line : Nat) : Mach :=
  let m := { m with ch.proc.granted := ag }
  match ag, m.ch.sw.lastLine with
  | .sweeper, some l =>
    { m with ch.mc.pool := rehint l (if l / 64 = line / 64 then 1#2 else 2#2) m.ch.mc.pool, ch.sw.lastLine := some line }
  | .sweeper, none => { m with ch.sw.lastLine := some line }
  | _, _ => m
/-- The hint that a request of an agent carries as it enters the pool: CLOSE for the sweeper until its next request is known. -/
def Agent.hint (ag : Agent) (hint : BitVec 2) : BitVec 2 := if ag = .sweeper then 2#2 else hint
/-- A read of a line by an agent of the turnstile takes its place. -/
def Mach.turnRead (m : Mach) (ag : Agent) (line : Nat) (hint : BitVec 2) (spec : Bool) : Line × Mach :=
  (m.turn ag line).lineRead line .turnstile .read (ag.hint hint) spec
/-- A write of a line's cells by an agent of the turnstile takes its place. -/
def Mach.turnWrite (m : Mach) (ag : Agent) (line : Nat) (cells : NMap (Cell × Bool)) : Mach :=
  (m.turn ag line).lineWrite line cells (ag.hint 0#2)

/-! ### Near store (R325) -/

/-- A near-store error: counted, recorded, and vector 37 where enabled. -/
def Mach.nearError (m : Mach) (o : Nat) (unc : Bool) : Mach :=
  let v := winGet m.ch 0x1404
  let v := if unc then (satInc (v.extractLsb' 12 12) ++ v.extractLsb' 0 12 : BitVec 24)
    else (v.extractLsb' 12 12 ++ satInc (v.extractLsb' 0 12) : BitVec 24)
  let m := { m with ch := winPut m.ch 0x1404 v }
  let m := m.report 0x05#6 false unc (BitVec.ofNat 32 o)
  m.raiseIf (winBit m.ch 0x1400 4) 37 (fix (setBit (BitVec.ofNat 24 o) 23 unc))
/-- A near-store read: the cell, with a correctable one rewritten in place and errors recorded. -/
def Mach.nearFetch (m : Mach) (o : Nat) : Cell × Mach :=
  let e := nearRead (m.nearBits o)
  match e.1 with
  | .clean => (e.2, m)
  | .correctable => (e.2, (m.putNear o e.2).nearError o false)
  | .uncorrectable => (e.2, m.nearError o true)
/-- A near-store write of one cell: a marked cell keeps the stored CDR, or takes 00 over an uncorrectable one. -/
def Mach.nearStore (m : Mach) (o : Nat) (v : Cell) (marked : Bool) : Mach :=
  if marked then
    let e := nearRead (m.nearBits o)
    let m := if e.1 = Ecc.clean then m else m.nearError o (e.1 = Ecc.uncorrectable)
    m.putNear o (withCdr v (if e.1 = Ecc.uncorrectable then 0#2 else cellCdr e.2))
  else m.putNear o v

end Sys2Proof.Machine
end

