-- ==== Sys2Proof/Machine/Digest.lean ====
section
/-! DEFINITION. CRC-32 (R74) and SHA-256 (FIPS 180-4, which R137 names) over bytes, and little-endian fields of byte strings. -/
namespace Sys2Proof.Machine

/-! ### CRC-32 -/

/-- One bit of the reflected IEEE polynomial. -/
def crcBit (c : BitVec 32) : BitVec 32 := if c.getLsbD 0 then (c >>> 1) ^^^ 0xEDB88320#32 else c >>> 1
/-- One byte. -/
def crcByte (c : BitVec 32) (b : Byte) : BitVec 32 :=
  crcBit (crcBit (crcBit (crcBit (crcBit (crcBit (crcBit (crcBit (c ^^^ b.setWidth 32))))))))
/-- The running CRC over bytes. -/
def crcBytes (c : BitVec 32) : List Byte → BitVec 32
  | [] => c
  | b :: r => crcBytes (crcByte c b) r
/-- The CRC-32 of bytes. -/
def crc32 (bs : List Byte) : BitVec 32 := crcBytes 0xFFFFFFFF#32 bs ^^^ 0xFFFFFFFF#32
/-- The four bytes of a word, least significant first. -/
def wordBytes (w : BitVec 32) : List Byte :=
  [w.extractLsb' 0 8, w.extractLsb' 8 8, w.extractLsb' 16 8, w.extractLsb' 24 8]
/-- The CRC-32 of words, each word least significant byte first (R74). -/
def crcWords (ws : List (BitVec 32)) : BitVec 32 := crc32 (ws.flatMap wordBytes)

/-! ### Fields of byte strings (R134) -/

/-- n bytes from an offset. -/
def slice (bs : List Byte) (off n : Nat) : List Byte := (bs.drop off).take n
/-- A field of bytes, least significant first. -/
def leNat : List Byte → Nat
  | [] => 0
  | b :: r => b.toNat + 256 * leNat r
/-- A field of n bytes at an offset. -/
def field (bs : List Byte) (off n : Nat) : Nat := leNat (slice bs off n)
/-- Replace n bytes from an offset by zeros. -/
def zeroed (bs : List Byte) (off n : Nat) : List Byte := bs.take off ++ List.replicate (min n (bs.length - off)) 0#8 ++ bs.drop (off + n)
/-- Bytes in words of four, least significant first; a short last word is not produced. -/
def leWords : List Byte → List (BitVec 32)
  | a :: b :: c :: d :: r => (d ++ c ++ b ++ a : BitVec 32) :: leWords r
  | _ => []

/-! ### SHA-256 -/

/-- The 64 round constants. -/
def shaK : List (BitVec 32) :=
  [0x428a2f98#32, 0x71374491#32, 0xb5c0fbcf#32, 0xe9b5dba5#32, 0x3956c25b#32, 0x59f111f1#32, 0x923f82a4#32, 0xab1c5ed5#32,
   0xd807aa98#32, 0x12835b01#32, 0x243185be#32, 0x550c7dc3#32, 0x72be5d74#32, 0x80deb1fe#32, 0x9bdc06a7#32, 0xc19bf174#32] ++
  [0xe49b69c1#32, 0xefbe4786#32, 0x0fc19dc6#32, 0x240ca1cc#32, 0x2de92c6f#32, 0x4a7484aa#32, 0x5cb0a9dc#32, 0x76f988da#32,
   0x983e5152#32, 0xa831c66d#32, 0xb00327c8#32, 0xbf597fc7#32, 0xc6e00bf3#32, 0xd5a79147#32, 0x06ca6351#32, 0x14292967#32] ++
  [0x27b70a85#32, 0x2e1b2138#32, 0x4d2c6dfc#32, 0x53380d13#32, 0x650a7354#32, 0x766a0abb#32, 0x81c2c92e#32, 0x92722c85#32,
   0xa2bfe8a1#32, 0xa81a664b#32, 0xc24b8b70#32, 0xc76c51a3#32, 0xd192e819#32, 0xd6990624#32, 0xf40e3585#32, 0x106aa070#32] ++
  [0x19a4c116#32, 0x1e376c08#32, 0x2748774c#32, 0x34b0bcb5#32, 0x391c0cb3#32, 0x4ed8aa4a#32, 0x5b9cca4f#32, 0x682e6ff3#32,
   0x748f82ee#32, 0x78a5636f#32, 0x84c87814#32, 0x8cc70208#32, 0x90befffa#32, 0xa4506ceb#32, 0xbef9a3f7#32, 0xc67178f2#32]
/-- The eight working words. -/
structure Sha where
  a : BitVec 32
  b : BitVec 32
  c : BitVec 32
  d : BitVec 32
  e : BitVec 32
  f : BitVec 32
  g : BitVec 32
  h : BitVec 32
  deriving DecidableEq, Repr
/-- The initial words. -/
def shaInit : Sha :=
  { a := 0x6a09e667#32, b := 0xbb67ae85#32, c := 0x3c6ef372#32, d := 0xa54ff53a#32,
    e := 0x510e527f#32, f := 0x9b05688c#32, g := 0x1f83d9ab#32, h := 0x5be0cd19#32 }
/-- Rotate right. -/
def ror (x : BitVec 32) (n : Nat) : BitVec 32 := (x >>> n) ||| (x <<< (32 - n))
/-- One round with constant plus schedule word. -/
def Sha.round (s : Sha) (kw : BitVec 32) : Sha :=
  let t1 := s.h + (ror s.e 6 ^^^ ror s.e 11 ^^^ ror s.e 25) + ((s.e &&& s.f) ^^^ (~~~ s.e &&& s.g)) + kw
  let t2 := (ror s.a 2 ^^^ ror s.a 13 ^^^ ror s.a 22) + ((s.a &&& s.b) ^^^ (s.a &&& s.c) ^^^ (s.b &&& s.c))
  { a := t1 + t2, b := s.a, c := s.b, d := s.c, e := s.d + t1, f := s.e, g := s.f, h := s.g }
/-- The next schedule word of the last 16, oldest first. -/
def shaNext (w : List (BitVec 32)) : BitVec 32 :=
  let x := w.getD 1 0#32
  let y := w.getD 14 0#32
  (ror y 17 ^^^ ror y 19 ^^^ (y >>> 10)) + w.getD 9 0#32 + (ror x 7 ^^^ ror x 18 ^^^ (x >>> 3)) + w.getD 0 0#32
/-- The rounds of a block, from the constants still to use and the window of 16 schedule words. -/
def Sha.rounds : List (BitVec 32) → List (BitVec 32) → Sha → Sha
  | [], _, s => s
  | k :: ks, w, s => Sha.rounds ks (w.drop 1 ++ [shaNext w]) (s.round (k + w.getD 0 0#32))
/-- One block of 16 words. -/
def Sha.block (s : Sha) (w : List (BitVec 32)) : Sha :=
  let r := Sha.rounds shaK w s
  { a := s.a + r.a, b := s.b + r.b, c := s.c + r.c, d := s.d + r.d, e := s.e + r.e, f := s.f + r.f, g := s.g + r.g, h := s.h + r.h }
/-- Bytes as big-endian words. -/
def beWords : List Byte → List (BitVec 32)
  | a :: b :: c :: d :: r => (a ++ b ++ c ++ d : BitVec 32) :: beWords r
  | _ => []
/-- The message with its padding and length. -/
def shaPad (bs : List Byte) : List Byte :=
  let l : BitVec 64 := BitVec.ofNat 64 (8 * bs.length)
  bs ++ [0x80#8] ++ List.replicate ((119 - bs.length % 64) % 64) 0#8 ++
    [l.extractLsb' 56 8, l.extractLsb' 48 8, l.extractLsb' 40 8, l.extractLsb' 32 8,
     l.extractLsb' 24 8, l.extractLsb' 16 8, l.extractLsb' 8 8, l.extractLsb' 0 8]
/-- All blocks, n of them. -/
def Sha.blocks : Nat → List (BitVec 32) → Sha → Sha
  | 0, _, s => s
  | n + 1, ws, s => Sha.blocks n (ws.drop 16) (s.block (ws.take 16))
/-- Big-endian bytes of a word. -/
def beBytes (w : BitVec 32) : List Byte := (wordBytes w).reverse
/-- The SHA-256 of bytes. -/
def sha256 (bs : List Byte) : List Byte :=
  let ws := beWords (shaPad bs)
  let s := Sha.blocks (ws.length / 16) ws shaInit
  [s.a, s.b, s.c, s.d, s.e, s.f, s.g, s.h].flatMap beBytes

end Sys2Proof.Machine
end

