-- ==== Sys2Proof/Machine/Ledger.lean ====
section
/-! DEFINITION. A ledger partition and its writer (04): records, copies, the scan, the staging queue and the word writes. `sq`
names the square's partition and `body` gives the body words of a retained item. The word layout of the copy items, which the
manual does not give, is the model's own. -/
namespace Sys2Proof.Machine

/-! ### Words and records (R71, R74-R76) -/

/-- The stored word at an offset. -/
def Ledger.word (l : Ledger) (o : Nat) : BitVec 32 := mapAt 0#32 l.words o
/-- Whether the word at an offset is unreadable. -/
def Ledger.unreadable (l : Ledger) (o : Nat) : Bool := mapGet l.flaws o = some true
/-- n words from an offset. -/
def Ledger.wordsAt (l : Ledger) (o n : Nat) : List (BitVec 32) := (upFrom o n).map l.word
/-- Store a word. -/
def Ledger.putWord (l : Ledger) (o : Nat) (w : BitVec 32) : Ledger :=
  { l with words := mapSet 0#32 l.words o w, flaws := mapDel l.flaws o, worn := l.worn.filter (fun i => i ≠ o) }
/-- Whether the record of n words at an offset is valid: a kind the position expects, its commit word, every word readable, and no
word whose last write failed twice (R75, R86). -/
def Ledger.validAt (l : Ledger) (o n : Nat) (kind : BitVec 6 → Bool) : Bool :=
  kind ((l.word o).extractLsb' 26 6) && (upFrom o n).all (fun i => !l.unreadable i && !l.worn.contains i)
    && decide (l.word (o + n - 1) = crcWords (l.wordsAt o (n - 1)))
/-- A record: word 0, body, commit word. -/
def record (w0 : BitVec 32) (body : List (BitVec 32)) : List (BitVec 32) := (w0 :: body) ++ [crcWords (w0 :: body)]
/-- Words with their offsets. -/
def placed (o : Nat) : List (BitVec 32) → List (Nat × BitVec 32)
  | [] => []
  | w :: r => (o, w) :: placed (o + 1) r
/-- Copy A's offset, the length and the kind of an item (Tables 4.1, 4.2, R75). -/
def itemPos (sq : Bool) : Item → Nat × Nat × BitVec 6
  | .snapshot => (0x20, 32, 0x21#6)
  | .boot => (0x60, 16, 0x22#6)
  | .pair => (0x80, 16, 0x23#6)
  | .counts => (if sq then 0x60 else 0xA0, 16, 0x24#6)
  | .training => (0x800, 1024, 0x25#6)
/-- The copy generation in word 0. -/
def copyGen (w : BitVec 32) : Nat := bits w 24 2
/-- The newer valid copy of an item: its offset (R76). -/
def Ledger.newestCopy (l : Ledger) (sq : Bool) (i : Item) : Option Nat :=
  let p := itemPos sq i
  let a := l.validAt p.1 p.2.1 (fun k => k = p.2.2)
  let b := l.validAt (p.1 + p.2.1) p.2.1 (fun k => k = p.2.2)
  let ga := copyGen (l.word p.1)
  let gb := copyGen (l.word (p.1 + p.2.1))
  if a && b then some (if ga = (gb + 1) % 3 then p.1 else p.1 + p.2.1)
  else if a then some p.1
  else if b then some (p.1 + p.2.1)
  else none
/-- The body words of the newer valid copy. -/
def Ledger.item (l : Ledger) (sq : Bool) (i : Item) : Option (List (BitVec 32)) :=
  (l.newestCopy sq i).map (fun o => l.wordsAt (o + 1) ((itemPos sq i).2.1 - 2))
/-- Where the next copy of an item goes and the generation it takes; with no valid copy it is copy A. (DESIGN CHOICE, unsafe: log 62.) -/
def Ledger.nextCopy (l : Ledger) (sq : Bool) (i : Item) : Nat × Nat :=
  let p := itemPos sq i
  match l.newestCopy sq i with
  | none => (p.1, 0)
  | some o => (if o = p.1 then p.1 + p.2.1 else p.1, (copyGen (l.word o) + 1) % 3)

/-! ### The error log and lockup slots (R77, R83, R84) -/

/-- Pinned slots and slots of an error log (R72, R73). -/
def pinnedSlots (sq : Bool) : Nat := if sq then 8 else 16
/-- Slots of an error log. -/
def errSlots (sq : Bool) : Nat := if sq then 128 else 256
/-- Whether an error slot holds a valid record. -/
def Ledger.errValid (l : Ledger) (n : Nat) : Bool := l.validAt (0x400 + 4 * n) 4 (fun k => 1#6 ≤ k && k ≤ 0x1F#6)
/-- The sequence number of an error slot. -/
def Ledger.errSeq (l : Ledger) (n : Nat) : BitVec 24 := (l.word (0x400 + 4 * n)).extractLsb' 0 24
/-- Serial-number order (R77): a is newer than b. -/
def newer (a b : BitVec 24) : Bool := 1#24 ≤ a - b && a - b ≤ 0x7FFFFF#24
/-- The newest of the error slots n, n + 1, … that hold a record. -/
def Ledger.newestErr (l : Ledger) (n : Nat) : Nat → Option Nat
  | 0 => none
  | k + 1 => match l.newestErr (n + 1) k with
    | none => if l.errValid n then some n else none
    | some m => if l.errValid n && newer (l.errSeq n) (l.errSeq m) then some n else some m
/-- The error slot of the next record (R83); a ring without a valid record starts at its first slot. (DESIGN CHOICE, unsafe: log 62.) -/
def Ledger.nextErr (l : Ledger) (sq : Bool) : Nat :=
  let p := pinnedSlots sq
  match (upFrom 0 p).find? (fun n => !l.errValid n) with
  | some n => n
  | none => match l.newestErr p (errSlots sq - p) with
    | none => p
    | some n => if n + 1 = errSlots sq then p else n + 1
/-- Pinned slots that hold a valid record. -/
def Ledger.pinned (l : Ledger) (sq : Bool) : Nat := ((upFrom 0 (pinnedSlots sq)).filter l.errValid).length
/-- Whether lockup slot n holds a valid record. -/
def Ledger.lockValid (l : Ledger) (n : Nat) : Bool := l.validAt (0x100 + 16 * n) 16 (fun k => k = 0x26#6)
/-- The lockup slot with the greatest lockup number among n, n + 1, …. -/
def Ledger.newestLock (l : Ledger) (n : Nat) : Nat → Option Nat
  | 0 => none
  | k + 1 => match l.newestLock (n + 1) k with
    | none => if l.lockValid n then some n else none
    | some m =>
      if l.lockValid n && (l.word (0x101 + 16 * m)).toNat < (l.word (0x101 + 16 * n)).toNat then some n else some m
/-- The slot of the next lockup record (R84), slot 0 where none is valid. (DESIGN CHOICE, unsafe: log 62.) -/
def Ledger.nextLock (l : Ledger) : Nat := match l.newestLock 0 8 with | none => 0 | some n => (n + 1) % 8

/-! ### Requests -/

/-- TIME: whole seconds since the last reset. -/
def Ledger.time (l : Ledger) : BitVec 24 := BitVec.ofNat 24 (l.periods / 32768)
/-- Request the write of an item; a request not yet started is replaced. -/
def Ledger.request (l : Ledger) (i : Item) : Ledger := if l.items.contains i then l else { l with items := l.items ++ [i] }
/-- Held user words. -/
def Ledger.held (l : Ledger) : Nat := (l.staging.filter (fun e => match e with | .user _ _ h => h | _ => false)).length
/-- Release every held user word (R94). -/
def Ledger.release (l : Ledger) : Ledger :=
  { l with staging := l.staging.map (fun e => match e with | .user o c _ => .user o c false | e => e) }
/-- Discard every held user word. -/
def Ledger.dropHeld (l : Ledger) : Ledger :=
  { l with staging := l.staging.filter (fun e => match e with | .user _ _ h => !h | _ => true) }
/-- An item is waiting to be written or is being written. -/
def Ledger.owes (l : Ledger) (i : Item) : Bool :=
  l.items.contains i || (l.job.map (fun j => j.kind)) = some (.item i) || (l.suspended.map (fun j => j.kind)) = some (.item i)

/-! ### The writer (R84-R88) -/

/-- The words of a lockup record after word 0 (Table 4.6). -/
def lockBody (i : LockInfo) (number time : BitVec 24) : List (BitVec 32) :=
  [number.setWidth 32, time.setWidth 32, (0#14 ++ i.vector ++ i.thread ++ i.cause : BitVec 32), i.pc, i.pstate, i.sp, i.vbase,
   i.access, i.ucver, i.pending, 0#32, 0#32, 0#32, 0#32]
/-- Word 0 of a record. -/
def word0 (kind : BitVec 6) (flags : BitVec 2) (seq : BitVec 24) : BitVec 32 := (kind ++ flags ++ seq : BitVec 32)
/-- A job takes the counter's value (R77). -/
def Ledger.startSeq (l : Ledger) (kind : JobKind) (w : BitVec 24 → List (Nat × BitVec 32)) : Ledger :=
  { l with job := some { kind := kind, todo := w l.seq, seq := some l.seq }, seq := l.seq + 1#24 }
/-- Start the lockup record. -/
def Ledger.startLock (l : Ledger) (i : LockInfo) : Ledger :=
  let n := l.nextLock
  let num := l.counts.lockups
  let l := { l with lockReq := none, suspended := l.job }
  l.startSeq (.lockup num n) (fun q => placed (0x100 + 16 * n) (record (word0 0x26#6 0#2 q) (lockBody i num l.time)))
/-- Start an item. -/
def Ledger.startItem (l : Ledger) (sq : Bool) (body : Item → List (BitVec 32)) (i : Item) : Ledger :=
  let c := l.nextCopy sq i
  let l := { l with items := l.items.filter (fun j => j ≠ i) }
  l.startSeq (.item i) (fun q =>
    placed c.1 (record (word0 (itemPos sq i).2.2 (BitVec.ofNat 2 c.2) q) (body i)))
/-- User words that came with a COMMIT record enter the queue as far as it has room, in acceptance order (R88, R94).
(DESIGN CHOICE, unsafe: log 63.) -/
def Ledger.takeDue (l : Ledger) : Ledger :=
  let n := 16 - l.staging.length
  { l with staging := l.staging ++ (l.due.take n).map (fun w => .user w.1 w.2 false), due := l.due.drop n,
           hadUser := l.hadUser || (decide (0 < n) && !l.due.isEmpty) }
/-- Take the staged entry that has been started out of the queue; events of an emptied queue follow (R97). -/
def Ledger.unstage (l : Ledger) (rest : List Staged) (user : Bool) : Ledger × Bool :=
  let l := ({ l with staging := rest, hadUser := l.hadUser || user }).takeDue
  if l.staging.isEmpty then ({ l with lossMarked := false, hadUser := false }, l.hadUser) else (l, false)
/-- The words an entry writes (R81, R83, R93). -/
def Ledger.startEntry (l : Ledger) (sq : Bool) : Staged → Ledger
  | .error cls spec flag lost time detail =>
    let o := 0x400 + 4 * l.nextErr sq
    l.startSeq .entry (fun q =>
      placed o (record (word0 cls (BitVec.ofBool spec ++ BitVec.ofBool flag) q) [(lost ++ time : BitVec 32), detail]))
  | .user o c _ => { l with job := some { kind := .entry, todo := [(0x1800 + o.toNat, c)], seq := none } }
  | .pinclr =>
    { l with job := some { kind := .entry, todo := (upFrom 0 (pinnedSlots sq)).map (fun n => (0x403 + 4 * n, 0#32)), seq := none } }
/-- Whether an entry is not held. -/
def Staged.unheld : Staged → Bool
  | .user _ _ h => !h
  | _ => true
/-- Whether an entry is a user word. -/
def Staged.isUser : Staged → Bool
  | .user _ _ _ => true
  | _ => false
/-- The retained items in the row order of Table 4.3. -/
def itemOrder : List Item := [.snapshot, .boot, .pair, .counts, .training]
/-- Whether a job is a lockup record. -/
def LJob.isLock (j : LJob) : Bool := match j.kind with | .lockup _ _ => true | _ => false
/-- Choose the record to write next, if none is under way (R87), the record of R89 before any retained item; whether event 92
follows. -/
def Ledger.start (l : Ledger) (sq : Bool) (body : Item → List (BitVec 32)) : Ledger × Bool :=
  match l.lockReq with
  | some i => if (l.job.map LJob.isLock).getD false then (l, false) else (l.startLock i, false)
  | none => match l.job with
    | some _ => (l, false)
    | none => match l.suspended with
      | some j => ({ l with job := some j, suspended := none }, false)
      | none => match itemOrder.find? (fun i => l.items.contains i && !l.resetDue) with
        | some i => (l.startItem sq body i, false)
        | none => match takeFirst' Staged.unheld l.staging with
          | none => (l, false)
          | some (e, rest) =>
            let r := ({ l with resetDue := false }).unstage rest e.isUser
            (r.1.startEntry sq e, r.2)
where
  /-- The first entry that satisfies a test, and the others. -/
  takeFirst' (p : Staged → Bool) : List Staged → Option (Staged × List Staged)
    | [] => none
    | x :: r => if p x then some (x, r) else (takeFirst' p r).map (fun y => (y.1, x :: y.2))
/-- A record of the writer's own arrives: the partition, and whether event 38 follows. -/
def Ledger.enter (l : Ledger) (cls : BitVec 6) (detail : BitVec 32) : Ledger × Bool :=
  (l.arrive cls false false detail, l.arriveEvent cls detail)
/-- A job has written its last word. -/
def Ledger.commitJob (l : Ledger) (j : LJob) : Ledger × Bool :=
  let l := { l with job := none, newest := j.seq.getD l.newest }
  match j.kind with
  | .lockup n s => l.enter 0x10#6 (n ++ 0#5 ++ BitVec.ofNat 3 s : BitVec 32)
  | _ => (l, false)
/-- One word of the job under way: written and read back, rewritten once on a mismatch, given up on a second, which leaves the record
position invalid (R86). `garbage` is what a worn word is left holding, which is not what was to be written. -/
def Ledger.writeWord (l : Ledger) (firstOk secondOk : Bool) (garbage : BitVec 32) : Ledger × Bool :=
  match l.job with
  | none => (l, false)
  | some j => match j.todo with
    | [] => l.commitJob j
    | (o, w) :: rest =>
      if firstOk || secondOk then
        let l := l.putWord o w
        let e := if firstOk then (l, false) else l.enter 0x0F#6 (BitVec.ofNat 32 o)
        let j := { j with todo := rest }
        let f := if rest.isEmpty then e.1.commitJob j else ({ e.1 with job := some j }, false)
        (f.1, e.2 || f.2)
      else
        let l := l.putWord o (if garbage = w then ~~~w else garbage)
        let l := { l with worn := o :: l.worn, job := none }
        let e := l.enter 0x0F#6 (BitVec.ofNat 32 o)
        let f := e.1.enter 0x0F#6 (0x1#4 ++ BitVec.ofNat 28 o : BitVec 32)
        (f.1, e.2 || f.2)
/-- Whether the writer writes: no scan, and not stopped (R79, R90). -/
def Ledger.writes (l : Ledger) : Bool := !l.scan && !l.stopped && (l.job.isSome || l.lockReq.isSome || !l.items.isEmpty
  || l.suspended.isSome || l.staging.any Staged.unheld)
/-- LEDGER_WORD_WRITE on a partition: the partition, whether event 38 and whether event 92 becomes pending. -/
def Ledger.wordWrite (l : Ledger) (sq : Bool) (body : Item → List (BitVec 32)) (firstOk secondOk : Bool) (garbage : BitVec 32) :
    Ledger × Bool × Bool :=
  if l.writes then
    let r := l.start sq body
    let w := r.1.writeWord firstOk secondOk garbage
    (w.1, w.2, r.2)
  else (l, false, false)

/-! ### Completing records before a reset (R85, R124) -/

/-- Write every remaining word of the job under way, each as intended. -/
def Ledger.runJob (l : Ledger) : Nat → Ledger
  | 0 => l
  | n + 1 => if l.job.isNone then l else (l.writeWord true true 0#32).1.runJob n
/-- Complete a lockup record that waits or is being written (R85). -/
def Ledger.settleLock (l : Ledger) : Ledger :=
  if l.stopped then l
  else match l.lockReq with
    | some i => (l.startLock i).runJob 17
    | none => if (l.job.map LJob.isLock).getD false then l.runJob 17 else l
/-- Write an error record at once, ahead of the queue. -/
def Ledger.writeNow (l : Ledger) (sq : Bool) (cls : BitVec 6) (flag : Bool) (detail : BitVec 32) : Ledger :=
  if l.stopped then l
  else ({ l with job := none }.startEntry sq (.error cls false flag (mapAt 0#8 l.lost cls.toNat) l.time detail)).runJob 5
/-- Write an item at once. -/
def Ledger.itemNow (l : Ledger) (sq : Bool) (body : Item → List (BitVec 32)) (i : Item) : Ledger :=
  if l.stopped then l else ({ l with job := none }.startItem sq body i).runJob 1025
/-- The ledger across a reset of its owner (R89): the record under way is abandoned, queue and requests are discarded, and the
first record afterwards carries their number, the request slots counted; LOST counts not yet carried are cleared. (DEDUCED, unsafe: log 40.) (DESIGN CHOICE for the last two: log 62.) -/
def Ledger.reset (l : Ledger) : Ledger :=
  let l := l.settleLock
  let n := l.discarded + l.staging.length + l.due.length + l.items.length
  { l with
    due := [], resetDue := true
    staging := [.error 0x0F#6 false false 0#8 0#24 (0x3#4 ++ 0#12 ++ BitVec.ofNat 16 n : BitVec 32)], items := [], lockReq := none,
    job := none, suspended := none, scan := true, snapRead := false, lost := [], lostTotal := 0#24, corr := 0#24,
    lossMarked := false, hadUser := false, stopped := false, discarded := 0, periods := 0 }
/-- Entering a requested OFF (R119): the word in progress has completed; the rest is discarded as a reset discards it. (DEDUCED, unsafe: log 40.) -/
def Ledger.close (l : Ledger) : Ledger :=
  let l := l.settleLock
  { l with discarded := l.staging.length + l.due.length + l.items.length, staging := [], due := [], items := [], job := none, suspended := none, stopped := true }

/-! ### The scan (R75, R79) -/

/-- The record positions of a partition in the order of its table: offset and length. -/
def positionsOf (sq : Bool) : List (Nat × Nat) :=
  if sq then [(0x20, 32), (0x40, 32), (0x60, 16), (0x70, 16)] ++ (upFrom 0 128).map (fun n => (0x400 + 4 * n, 4))
  else [(0x20, 32), (0x40, 32), (0x60, 16), (0x70, 16), (0x80, 16), (0x90, 16), (0xA0, 16), (0xB0, 16)]
    ++ (upFrom 0 8).map (fun n => (0x100 + 16 * n, 16)) ++ (upFrom 0 256).map (fun n => (0x400 + 4 * n, 4))
    ++ [(0x800, 1024), (0xC00, 1024)]
/-- Whether an offset lies in a record position. -/
def inPosition (sq : Bool) (o : Nat) : Bool := (positionsOf sq).any (fun p => p.1 ≤ o && o < p.1 + p.2)
/-- The flawed words of record positions: a correctable word counts, an unreadable one is recorded; whether event 38 follows. -/
def Ledger.scanFlaws (l : Ledger) (sq : Bool) : List (Nat × Bool) → Ledger × Bool
  | [] => (l, false)
  | (o, bad) :: r =>
    if !inPosition sq o then l.scanFlaws sq r
    else if bad then
      let x := (l.arrive 0x0F#6 false false (0x2#4 ++ BitVec.ofNat 28 o : BitVec 32)).scanFlaws sq r
      (x.1, true)
    else ({ l with corr := satInc l.corr }).scanFlaws sq r
/-- The newest record the sequence counter starts from (R79). -/
def Ledger.scanNewest (l : Ledger) (sq : Bool) : Option Nat :=
  let p := pinnedSlots sq
  match l.newestErr p (errSlots sq - p) with
  | some n => some n
  | none => l.newestErr 0 p
/-- The kinds that the record position at an offset expects (R75). -/
def positionKind (sq : Bool) (o : Nat) (k : BitVec 6) : Bool :=
  if 0x400 ≤ o && o < 0x800 then 1#6 ≤ k && k ≤ 0x1F#6
  else if 0x100 ≤ o && o < 0x180 then k = 0x26#6
  else if 0x800 ≤ o then k = 0x25#6
  else if o < 0x60 then k = 0x21#6
  else if o < 0x80 then k = (if sq then 0x24#6 else 0x22#6)
  else if o < 0xA0 then k = 0x23#6
  else k = 0x24#6
/-- The sequence number of the newest valid record of any kind among some positions, in serial-number order (R77, R95). (DESIGN CHOICE, unsafe: log 62.) -/
def Ledger.newestSeq (l : Ledger) (sq : Bool) : List (Nat × Nat) → Option (BitVec 24)
  | [] => none
  | (o, n) :: r =>
    let s := (l.word o).extractLsb' 0 24
    match l.newestSeq sq r, l.validAt o n (positionKind sq o) with
    | x, false => x
    | none, true => some s
    | some x, true => some (if newer x s then x else s)
/-- The scan ends: the sequence counter follows the newest error log record, LGSEQ shows the newest record of any kind (R79, R95). -/
def Ledger.scanEnd (l : Ledger) (sq : Bool) : Ledger × Bool :=
  let n := l.scanNewest sq
  let l := { l with scan := false, seq := (match n with | some n => l.errSeq n + 1#24 | none => 1#24),
                    newest := (l.newestSeq sq (positionsOf sq)).getD 0#24 }
  l.scanFlaws sq l.flaws
/-- Counts from a counts record body. -/
def countsOf (b : List (BitVec 32)) : Counts :=
  let g (i : Nat) : BitVec 24 := (b.getD i 0#32).extractLsb' 0 24
  { powerUps := g 0, wrap0 := g 1, wrap1 := g 2, wdResets := g 3, lockups := g 4, failovers := g 5 }
/-- The body words of a counts record. (DESIGN CHOICE, unsafe: log 12.) -/
def Counts.body (c : Counts) : List (BitVec 32) :=
  [c.powerUps.setWidth 32, c.wrap0.setWidth 32, c.wrap1.setWidth 32, c.wdResets.setWidth 32, c.lockups.setWidth 32,
   c.failovers.setWidth 32]
/-- Both snapshot copies are read: each correctable word counts (R71, R79). -/
def Ledger.readSnapshot (l : Ledger) : Ledger :=
  { l with snapRead := true,
           corr := satAdd l.corr (l.flaws.filter (fun e => 0x20 ≤ e.1 && e.1 < 0x60 && !e.2)).length }
/-- Words padded with zeros to n. -/
def padTo (n : Nat) (ws : List (BitVec 32)) : List (BitVec 32) := ws ++ List.replicate (n - ws.length) 0#32

end Sys2Proof.Machine
end

