-- ==== Sys2Proof/Machine/Straps.lean ====
section
/-! DEFINITION. Configuration by straps (03): measurement, classification, the decision of each level, the start conditions, and
the monitoring rounds. -/
namespace Sys2Proof.Machine

/-! ### Measuring (R52, R53) -/

/-- A measurement: a level with whether it is nominal, or an unreadable pin with its cause (0 external voltage, 1 unstable, 2 out of
band). -/
inductive Meas where
  | level (l : BitVec 3) (nominal : Bool) (raw : BitVec 10)
  | bad (cause : BitVec 3) (raw : BitVec 10)
  deriving DecidableEq, Repr
/-- Bands and nominal zones of the levels, in codes (Table 3.2). -/
def bands : List (BitVec 3 × Nat × Nat × Nat × Nat) :=
  [(0#3, 0, 13, 0, 6), (1#3, 82, 99, 84, 98), (2#3, 177, 215, 181, 211), (3#3, 285, 347, 291, 341), (4#3, 408, 498, 418, 489),
   (5#3, 544, 664, 556, 652), (6#3, 692, 844, 707, 829), (7#3, 1000, 1023, 1023, 1023)]
/-- Classify a reading (R53). -/
def classify (raw : BitVec 10) : Meas :=
  match bands.find? (fun b => b.2.1 ≤ raw.toNat && raw.toNat ≤ b.2.2.1) with
  | some b => .level b.1 (b.2.2.2.1 ≤ raw.toNat && raw.toNat ≤ b.2.2.2.2) raw
  | none => .bad 2#3 raw
/-- A whole measurement: the phase 0 conversion and the four of phase 1 (R52). A mean halfway between two codes is rounded up, which
R52 leaves open. (DESIGN CHOICE, unsafe: log 64.) -/
def measure (p0 c0 c1 c2 c3 : BitVec 10) : Meas :=
  let l := [c0.toNat, c1.toNat, c2.toNat, c3.toNat]
  let lo := min (min c0.toNat c1.toNat) (min c2.toNat c3.toNat)
  let hi := max (max c0.toNat c1.toNat) (max c2.toNat c3.toNat)
  let mean := BitVec.ofNat 10 ((l.sum + 2) / 4)
  if 100#10 < p0 then .bad 0#3 0#10
  else if 8 < hi - lo then .bad 1#3 mean
  else classify mean
/-- A monitoring reading: bits 15:14 are 0 for a reading in bits 9:0, 1 for a phase 0 failure, otherwise unstable. (DEDUCED, unsafe: log 42.) -/
def monMeas (w : BitVec 16) : Meas :=
  let k := w.extractLsb' 14 2
  if k = 0#2 then classify (w.extractLsb' 0 10) else if k = 1#2 then .bad 0#3 0#10 else .bad 1#3 (w.extractLsb' 0 10)

/-! ### Deciding (R58, Tables 3.4 and 3.5) -/

/-- The highest valid level of pin 0-7 of a channel, or 8-11 of the device. -/
def topLevel (pin : Nat) : BitVec 3 :=
  match pin with
  | 0 => 2#3
  | 1 => 4#3
  | 2 => 4#3
  | 3 => 5#3
  | 4 => 5#3
  | 5 => 5#3
  | 6 => 6#3
  | 7 => 6#3
  | 8 => 5#3
  | _ => 6#3
/-- The no-history level; 7 stands for both CAN buses disabled, and CHn_MEMORG has none (held). (DEDUCED, unsafe: log 42.) -/
def noHistory (pin : Nat) : BitVec 3 :=
  match pin with
  | 3 => 2#3
  | 4 => 5#3
  | 5 => 5#3
  | 7 => 1#3
  | 8 => 4#3
  | 9 => 7#3
  | 10 => 7#3
  | _ => 0#3
/-- STATUS of a measurement against a level in use (R65). -/
def statusOf (m : Meas) (level : BitVec 3) : BitVec 2 :=
  match m with
  | .bad _ _ => 2#2
  | .level l n _ => if l ≠ level then 3#2 else if n then 0#2 else 1#2
/-- RLEVEL and RAW of a measurement. -/
def readingOf : Meas → BitVec 3 × BitVec 10
  | .bad _ r => (0#3, r)
  | .level l _ r => (l, r)
/-- The pin with a level and source decided from a measurement. -/
def Pin.take (p : Pin) (m : Meas) (level source : BitVec 3) : Pin :=
  { p with decided := true, level := level, source := source, status := statusOf m level, rlevel := (readingOf m).1,
           raw := (readingOf m).2 }
/-- Fall back to the ledger, or to the no-history level. -/
def Pin.fallBack (p : Pin) (pin : Nat) (m : Meas) (source cause : BitVec 3) (ok : BitVec 3 → Bool) : Pin × BitVec 3 :=
  match p.hist with
  | some h => if h ≤ topLevel pin && ok h then (p.take m h source, cause) else (p.take m (noHistory pin) 5#3, cause)
  | none => (p.take m (noHistory pin) 5#3, cause)
/-- decide(pin) of R58: the pin decided, and the record's cause. -/
def Pin.decide (p : Pin) (pin : Nat) (m : Meas) : Pin × BitVec 3 :=
  match m with
  | .bad cause _ => p.fallBack pin m 2#3 cause (fun _ => true)
  | .level l n _ =>
    if topLevel pin < l then p.fallBack pin m 4#3 3#3 (fun _ => true)
    else match p.hist with
      | none => (p.take m l 0#3, 5#3)
      | some h =>
        if l = h then (p.take m l 0#3, 5#3)
        else if n then (p.take m l 1#3, 5#3)
        else p.fallBack pin m 3#3 4#3 (fun _ => true)
/-- DETAIL of a class 0x01 record (Table 4.5). -/
def strapDetail (pin : Nat) (cause : BitVec 3) (p : Pin) : BitVec 32 :=
  (BitVec.ofNat 4 pin ++ cause ++ p.level ++ p.source ++ p.status ++ 0#7 ++ p.raw : BitVec 32)
/-- Put a decided pin of the channel, with the record of R59. -/
def Mach.putPin (m : Mach) (i : Fin 8) (p : Pin) (cause : BitVec 3) : Mach :=
  let m := { m with ch.straps := m.ch.straps.set i p }
  if p.source = 0#3 then m else m.report 0x01#6 false false (strapDetail i.val cause p)
/-- Every channel pin is decided. -/
def Channel.allDecided (ch : Channel) : Bool := ch.straps.toList.all (fun p => p.decided)
/-- The measurement that a decided pin shows: its reading, or an unreadable one. -/
def Pin.meas (p : Pin) : Meas := if p.status = 2#2 then .bad 3#3 p.raw else classify p.raw
/-- The combination check (R63): an interleaving CHn_MAP with a single subchannel is decided again as invalid. -/
def Mach.combination (m : Mach) : Mach :=
  let p := m.ch.straps[2]
  if m.ch.allDecided && m.ch.straps[0].level ≠ 0#3 && p.level ≠ 0#3 then
    let r := p.fallBack 2 p.meas 4#3 3#3 (fun h => h = 0#3)
    m.putPin 2 r.1 r.2
  else m

/-! ### Arrangements and the start of a boot (R64) -/

/-- Whether an arrangement includes a channel (Table 3.5). -/
def arrIncludes (mode : BitVec 3) (c : Chan) : Bool :=
  if mode = 3#3 || mode = 5#3 then decide (c.val < 2) else if mode = 4#3 then decide (c.val = 0) else decide (mode < 3#3)
/-- The other channel of a pair. -/
def arrPartner (mode : BitVec 3) (c : Chan) : Option Chan :=
  let p : Chan := if c = 0 then 1 else if c = 1 then 0 else if c = 2 then 3 else 2
  if mode = 1#3 then some p else if (mode = 2#3 || mode = 5#3) && c.val < 2 then some p else none
/-- CHMODE's level in use. -/
def State.chmode (s : State) : BitVec 3 := s.square.straps[0].level
/-- The partner of a channel under the arrangement in use. -/
def State.partner (s : State) (c : Chan) : Option Chan := if s.square.straps[0].decided then arrPartner s.chmode c else none
/-- A channel holds at a start condition with CHn_FAULT_N low and a class 0x0D record. -/
def Mach.hold (m : Mach) (why : BitVec 32) : Mach :=
  let m := { m with ch.life := { m.ch.life with cond := .held, faultN := false } }
  m.report 0x0D#6 false false why
/-- The boot sequence begins: of a channel of a pair arrangement or not, and without a partner or not. -/
def Mach.startBoot (m : Mach) (paired alone : Bool) : Mach :=
  { m with
    ch.life := { m.ch.life with cond := .booting, alone46 := alone }
    ch.boot := { m.ch.boot with stage := .discover }
    ch.pair := { m.ch.pair with inPair := paired, role := if alone then .alone else .independent } }
/-- Whether a channel cannot become the partner of another: not enabled, held, failed or off. (DEDUCED, unsafe: log 43.) -/
def Channel.absent (ch : Channel) : Bool :=
  ch.life.en = some false || ch.life.cond = .keptOff || ch.life.cond = .held || ch.life.cond = .off || ch.life.cond = .halted
    || ch.life.cond = .lockedUp || ch.mc.trainFail.isSome
/-- Step 7 of Table 3.3 for a channel whose levels and CHMODE are decided. The arrangement is tested before the held conditions, an
order the rules leave open (DESIGN CHOICE, unsafe: log 64). Where the memory sizes of a pair differ, the even channel runs alone and the
odd one holds, whichever comes first (R64). -/
def State.decideStart (s : State) (c : Chan) : State :=
  let ch := s.chan c
  if ch.life.cond = .sampling && ch.allDecided && s.square.straps[0].decided && ch.life.en = some true then
    if !arrIncludes s.chmode c then s.setChan c { ch with life := { ch.life with cond := .keptOff } }
    else if ch.straps[0].source = 5#3 then s.onMach c (fun m => m.hold 0#32)
    else match s.partner c with
      | none => s.onMach c (fun m => m.startBoot false false)
      | some p =>
        let q := s.chan p
        if q.absent then s.onMach c (fun m => m.startBoot true true)
        else if !(q.allDecided && q.life.en = some true) then s
        else if ch.memCells = q.memCells then s.onMach c (fun m => m.startBoot true false)
        else if c.val % 2 = 0 then s.onMach c (fun m => m.startBoot true true)
        else s.onMach c (fun m => m.hold 1#32)
  else s
/-- Try the start of a channel and of its partner, which may have waited for it. -/
def State.decideBoth (s : State) (c : Chan) : State :=
  let s := s.decideStart c
  match s.partner c with
  | some p => (s.decideStart p).decideStart c
  | none => s
/-- Try the start of every channel. -/
def State.decideAll (s : State) : State := (((s.decideStart 0).decideStart 1).decideStart 2).decideStart 3 |>.decideStart 0 |>.decideStart 2

/-! ### The commands -/

/-- CHN_EN_SAMPLE: step 2 of Table 3.3; a low level keeps the channel in reset. -/
def execChnEnSample (c : Chan) (level : Bool) (s : State) : Out :=
  .next (
    let ch := s.chan c
    if ch.life.cond = .sampling && ch.life.en.isNone then
      (s.setChan c { ch with life := { ch.life with en := some level, cond := if level then .sampling else .keptOff } }).decideBoth c
    else s)
/-- STRAP_MEASUREMENT: the scales complete one pin of a channel that samples its configuration; the pins are measured in their
order, once the channel is enabled and its snapshot read. -/
def execStrapMeasurement (c : Chan) (pin : Fin 8) (phase0 c0 c1 c2 c3 : BitVec 10) (s : State) : Out :=
  .next (
    let ch := s.chan c
    if ch.life.cond = .sampling && ch.life.en = some true && ch.led.snapRead && !ch.straps[pin].decided
        && (upFrom 0 pin.val).all (fun i => (ch.straps.toList.getD i pinReset).decided) then
      let r := ch.straps[pin].decide pin.val (measure phase0 c0 c1 c2 c3)
      (s.onMach c (fun m => (m.putPin pin r.1 r.2).combination)).decideBoth c
    else s)
/-- The speed and duplex that an SQ_ETH level forces: 100 Mbit/s, full duplex (Table 3.5). -/
def Square.phyForced (sq : Square) : Option (Bool × Bool) :=
  match sq.straps[3].level.toNat with
  | 1 => some (true, true)
  | 2 => some (true, false)
  | 3 => some (false, true)
  | 4 => some (false, false)
  | _ => none
/-- The management address of the PHY (R428). -/
def Square.phyAddr (sq : Square) : BitVec 5 := if sq.straps[3].level = 6#3 then 1#5 else 0#5
/-- What the square writes to the PHY: register 0 with the forced speed (bit 13) and duplex (bit 8), auto-negotiation (bit 12) off; or
register 4 with both speeds in both duplexes and no pause, then register 0 with auto-negotiation on and restarted (bit 9) (R428; the
bits are those of IEEE 802.3 clause 22). (PRESUMED, unsafe: log 68.) -/
def Square.phyWrites (sq : Square) : List (BitVec 5 × BitVec 16) :=
  match sq.phyForced with
  | some (fast, full) => [(0#5, (0#2 ++ BitVec.ofBool fast ++ 0#4 ++ BitVec.ofBool full ++ 0#8 : BitVec 16))]
  | none => if sq.straps[3].level = 5#3 || sq.straps[3].level = 6#3 then [(4#5, 0x01E1#16), (0#5, 0x1200#16)] else []
/-- SQUARE_STRAP_MEASUREMENT: the square's scales complete one device pin after the release of POR_N. -/
def execSquareStrapMeasurement (pin : Fin 4) (phase0 c0 c1 c2 c3 : BitVec 10) (s : State) : Out :=
  .next (
    let sq := s.square
    if sq.porN && !sq.failed && sq.led.snapRead && !sq.straps[pin].decided
        && (upFrom 0 pin.val).all (fun i => (sq.straps.toList.getD i pinReset).decided) then
      let r := sq.straps[pin].decide (8 + pin.val) (measure phase0 c0 c1 c2 c3)
      let led := if r.1.source = 0#3 then sq.led else sq.led.arrive 0x01#6 false true (strapDetail (8 + pin.val) r.2 r.1)
      let sq := { sq with straps := sq.straps.set pin r.1, led := led }
      { s with square := { sq with eth.mdio := if pin = 3 then sq.phyWrites else sq.eth.mdio } }.decideAll
    else s)
/-- The cause of a monitoring record. -/
def monCause (m : Meas) (status : BitVec 2) : BitVec 3 :=
  match m with
  | .bad c _ => c
  | .level _ _ _ => if status = 3#2 then 4#3 else 5#3
/-- A pin after a monitoring measurement: only STATUS, RLEVEL and RAW change. -/
def Pin.monitor (p : Pin) (m : Meas) : Pin :=
  { p with status := statusOf m p.level, rlevel := (readingOf m).1, raw := (readingOf m).2 }
/-- Whether event 44 is enabled (R66). -/
def Channel.driftOn (ch : Channel) : Bool := winBit ch 0x0018 0
/-- A round of a channel's pins from pin i on. The first round compares with the status of the reset's own sampling, which R66 leaves
open. (DESIGN CHOICE, unsafe: log 64.) -/
def Mach.monitorPins (m : Mach) : Nat → List (BitVec 16) → Mach
  | _, [] => m
  | i, w :: r =>
    if h : i < 8 then
      let p := m.ch.straps[i]
      let q := p.monitor (monMeas w)
      let m := { m with ch.straps := m.ch.straps.set i q }
      let m := if p.status = q.status then m
        else (m.report 0x01#6 false false (strapDetail i (monCause (monMeas w) q.status) q)).raiseIf m.ch.driftOn 44 fix0
      m.monitorPins (i + 1) r
    else m
/-- A round of the square's pins from pin i on: the square, and how many statuses changed. (DESIGN CHOICE, unsafe: log 64.) -/
def Square.monitorPins (sq : Square) : Nat → List (BitVec 16) → Square × Nat
  | _, [] => (sq, 0)
  | i, w :: r =>
    if h : i < 4 then
      let p := sq.straps[i]
      let q := p.monitor (monMeas w)
      let sq := { sq with straps := sq.straps.set i q }
      let sq := if p.status = q.status then sq
        else { sq with led := sq.led.arrive 0x01#6 false true (strapDetail (8 + i) (monCause (monMeas w) q.status) q) }
      let x := sq.monitorPins (i + 1) r
      (x.1, x.2 + bnat (p.status ≠ q.status))
    else (sq, 0)
/-- Event 44 in a running channel whose source is enabled. -/
def Mach.drift (m : Mach) : Mach := m.raiseIf (decide (m.ch.life.cond = .running) && m.ch.driftOn) 44 fix0
/-- Event 44 raised once for each of n pins that changed (R66). -/
def Mach.drifts (m : Mach) : Nat → Mach
  | 0 => m
  | n + 1 => m.drift.drifts n
/-- The slow-clock periods from one monitoring round to the next, and from the first instruction or the square's decision to the first
round (R65). -/
def monPeriod : Nat := 1966080
/-- Do something to every channel. -/
def State.onAll (s : State) (f : Mach → Mach) : State := (((s.onMach 0 f).onMach 1 f).onMach 2 f).onMach 3 f
/-- The channel an owner number names; 4 names the square. -/
def ownerChan (o : Fin 5) : Option Chan := if h : o.val < 4 then some ⟨o.val, h⟩ else none
/-- MONITORING_ROUND: once its period has passed, a running channel re-measures its eight pins, or the square its four (R65, R66). -/
def execMonitoringRound (o : Fin 5) (codes : List (BitVec 16)) (s : State) : Out :=
  .next (match ownerChan o with
    | some c => s.onMach c (fun m =>
      if m.ch.life.cond = .running && monPeriod ≤ m.ch.clk.monWait then
        let m := { m with ch.clk.monWait := 0 }
        let m := m.monitorPins 0 (codes.take 8)
        { m with ch := winPut m.ch 0x0019 (winGet m.ch 0x0019 + 1#24) }
      else m)
    | none =>
      if s.square.failed || !s.square.straps.toList.all (fun p => p.decided) || s.square.monWait < monPeriod then s
      else
        let r := ({ s.square with monWait := 0 }).monitorPins 0 (codes.take 4)
        { s with square := r.1 }.onAll (fun m => m.drifts r.2))
/-- A store of DRIFTCTL: DEVEN; enabling the source while a pin is not NOMINAL or not from its PIN makes event 44 pending. A store of 1
over 1 enables nothing, which R66 leaves open. (DESIGN CHOICE, unsafe: log 64.) -/
def Mach.putDriftctl (m : Mach) (v : Payload) : Mach :=
  let was := m.ch.driftOn
  let odd (p : Pin) : Bool := p.status ≠ 0#2 || p.source ≠ 0#3
  let m := { m with ch := winPut m.ch 0x0018 (v &&& 1#24) }
  m.raiseIf (bit v 0 && !was && (m.ch.straps.toList.any odd || m.sq.straps.toList.any odd)) 44 fix0
/-- Whether the channel's program runs, so that a store or load of a window can be made. -/
def Mach.programs (m : Mach) : Bool := decide (m.ch.life.cond = .running) && decide (m.ch.life.power = .run)
/-- Whether the fast-domain units of a running channel have their clock: in every power state but SLEEP (R113). -/
def Mach.fastOn (m : Mach) : Bool := decide (m.ch.life.cond = .running) && decide (m.ch.life.power ≠ .sleep)
/-- The unit of a window page takes its balls at the first store to that page (R40, Table 1.3). -/
def Taken.page (t : Taken) (p : Nat) : Taken :=
  if p = 1 then { t with wake := true }
  else if 0x30 ≤ p && p < 0x40 then { t with display := true }
  else if 0x40 ≤ p && p < 0x50 then { t with touch := true }
  else if 0x50 ≤ p && p < 0x58 then { t with backlight := true }
  else if 0x58 ≤ p && p < 0x60 then { t with panel := true }
  else if 0x60 ≤ p && p < 0x68 then { t with i2c := true }
  else t
/-- A store reaches a window page: its unit takes its balls. -/
def Mach.takePage (m : Mach) (p : Nat) : Mach := { m with ch.life.taken := m.ch.life.taken.page p }
/-- A command that is a program's store to a register of a window page. -/
def State.programStore (s : State) (c : Chan) (p : Nat) (f : Mach → Mach) : State :=
  s.onMach c (fun m => if m.programs then f (m.takePage p) else m)
/-- A command that is a program's access to a window register. -/
def State.program (s : State) (c : Chan) (f : Mach → Mach) : State := s.onMach c (fun m => if m.programs then f m else m)
/-- DRIFTCTL. -/
def execDriftctl (c : Chan) (value : BitVec 24) (s : State) : Out := .next (s.program c (fun m => m.putDriftctl value))

end Sys2Proof.Machine
end

