-- ==== Sys2Proof/Machine/Power.lean ====
section
/-! DEFINITION. Resets, OFF and halts of a channel, release of reset, timers, timebase, watchdog, slow clock and supply monitors (02,
05). -/
namespace Sys2Proof.Machine

/-! ### Halts, OFF and resets (R40, R42, R119, R125) -/

/-- What a halt and a lockup share (R42): the memory controller completes the writes it has issued, the requests it has not issued are
discarded, memory is in self-refresh, and the balls take the halted state, buzzers silent among them (R41, R127). -/
def Mach.stopAll (m : Mach) (cond : Cond) : Mach :=
  let m := m.quench
  { m with ch.life := { m.ch.life with cond := cond, faultN := false }, ch.panel.buz := 0#2, ch.mc.selfRef := m.ch.mc.trained }
/-- The channel halts: CHn_FAULT_N low, CHn_LOCK_N released (R400). -/
def Mach.halt (m : Mach) : Mach := m.stopAll .halted
/-- Whether a channel executes or stands by, so that its checkers and clocks are watched. -/
def Cond.live : Cond → Bool
  | .sampling => true
  | .booting => true
  | .running => true
  | .standby => true
  | _ => false
/-- A channel after a reset of a cause (R125): all operating state cleared, memory and near store undefined, the ledger partition
kept (R89), the monitoring counters kept across PIN and WDT resets (R491). -/
def Channel.doReset (ch : Channel) (cause : BitVec 6) : Channel :=
  { channelReset cause with
    life := { lifeReset cause with rstN := ch.life.rstN, good := ch.life.good, rails := ch.life.rails }
    phys := physReset (ch.phys.memGen + 1)
    perf := if cause = 2#6 || cause = 4#6 then { perfReset with counts := ch.perf.counts } else perfReset
    led := ch.led.reset }
/-- A reset of the channel. Its port in the square is left as it is: frames in its inbound ring and RXLOST outlast it, which R33 and R442
leave open. (DESIGN CHOICE, unsafe: log 65.) -/
def Mach.reset (m : Mach) (cause : BitVec 6) : Mach := { m with ch := m.ch.doReset cause }
/-- The channel enters OFF: everything but the ledger partition, the monitors and the configuration (R6) is lost. A requested OFF discards
the writer's pending work as a reset does (R89, R119); after a monitor's OFF the writer still writes what is queued. -/
def Mach.enterOff (m : Mach) (why : OffCause) : Mach :=
  let r := channelReset m.ch.life.rstCause
  { m with ch := { r with
    life := { r.life with cond := .off, offCause := some why, rstN := m.ch.life.rstN, rails := m.ch.life.rails }
    straps := m.ch.straps
    clk := { r.clk with mon := m.ch.clk.mon, warn := m.ch.clk.warn, sticky := m.ch.clk.sticky }
    phys := physReset (m.ch.phys.memGen + 1)
    led := if why = .request then m.ch.led.close else m.ch.led } }
/-- Store PWRCTL with OFF = 1 (R119): any KEY but 0x5A is ignored. -/
def Mach.pwrOff (m : Mach) (key : BitVec 8) : Mach := if key = 0x5A#8 then m.enterOff .request else m
/-- PWRCTL_OFF. -/
def execPwrctlOff (c : Chan) (key : BitVec 8) (s : State) : Out := .next (s.program c (fun m => m.pwrOff key))
/-- POR_RESET: POR_N low holds the square and every channel in reset (R43). -/
def execPorReset (s : State) : Out :=
  .next (
    let s := s.onAll (fun m => m.reset 1#6)
    { s with square := { squareReset with led := s.square.led.reset } })
/-- PIN_RESET: CHn_RST_N low. It ends a requested OFF with cause OFFREQ; POR takes precedence (R119, Table 5.6). -/
def Mach.pinReset (m : Mach) : Mach :=
  if !m.ch.life.rstN then m
  else if !m.sq.porN then { m with ch.life.rstN := false }
  else
    let m := m.reset (if m.ch.life.offCause = some .request then 8#6 else 2#6)
    { m with ch.life.rstN := false }
/-- PIN_RESET. -/
def execPinReset (c : Chan) (s : State) : Out := .next (s.onMach c Mach.pinReset)
/-- RELEASE_OF_RESET: POR_N and CHn_RST_N are high and the supplies good, so that a channel in reset begins to sample (R102,
R126). -/
def Mach.release (m : Mach) : Mach :=
  let m := { m with sq.porN := true, sq.powered := true }
  if m.ch.life.cond = .inReset then
    { m with ch.life := { m.ch.life with cond := .sampling, rstN := true, good := true, rails := m.ch.life.rails ||| 0x0F#5 } }
  else { m with ch.life.rstN := true }
/-- RELEASE_OF_RESET. -/
def execReleaseOfReset (c : Chan) (s : State) : Out := .next (s.onMach c Mach.release)

/-! ### Supply, thermal and clock monitors (R103-R105, R110, R111) -/

/-- Low and high limits of the rails in mV (Table 5.2): warning, then off. -/
def railLimits (rail : Fin 6) : (Nat × Nat) × (Nat × Nat) :=
  match rail with
  | 0 => ((745, 865), (700, 920))
  | 1 => ((1045, 1155), (1000, 1210))
  | 2 => ((1680, 1920), (1600, 1980))
  | 3 => ((3050, 3550), (2900, 3700))
  | 4 => ((4750, 10500), (4500, 11000))
  | 5 => ((0, 118), (0, 135))
/-- Whether a reading lies beyond limits, and the kind: 0 under, 1 over, 2 thermal. -/
def beyond (rail : Fin 6) (lim : Nat × Nat) (r : BitVec 16) : Option (BitVec 4) :=
  if rail = 5 then (if (lim.2 : Int) < r.toInt then some 2#4 else none)
  else if r.toNat < lim.1 then some 0#4 else if lim.2 < r.toNat then some 1#4 else none
/-- A class 0x0B record of a monitor: at most one in 1,024 slow-clock periods (R104). (DEDUCED, unsafe: log 39.) -/
def Mach.monitorRecord (m : Mach) (rail : BitVec 4) (flag : Bool) (kind : BitVec 4) (reading : BitVec 16) : Mach :=
  let now := m.ch.clk.tb.toNat
  let due := match mapGet m.ch.clk.lastRec rail.toNat with | none => true | some t => t + 1024 ≤ now
  if due then
    let m := { m with ch.clk.lastRec := mapPut m.ch.clk.lastRec rail.toNat now }
    m.report 0x0B#6 false flag (rail ++ kind ++ 0#8 ++ reading : BitVec 32)
  else m
/-- Whether the monitor of a rail acts: VTX_CHn only where the touch front end has a geometry (R106). -/
def Mach.watches (m : Mach) (rail : Fin 6) : Bool :=
  (m.ch.life.cond.live || m.ch.life.cond = .keptOff || m.ch.life.cond = .held || m.ch.life.cond = .halted
    || m.ch.life.cond = .lockedUp) && (rail ≠ 4 || m.ch.straps[6].level ≠ 0#3)
/-- What a reading of a rail says of the supply itself: whether it is present (R40; DESIGN CHOICE, unsafe: log 66), and that the ledger
writer stops while VAON_CHn is below its warning threshold, in every condition of the channel (R90, R104). -/
def Mach.sense (m : Mach) (rail : Fin 6) (reading : BitVec 16) : Mach :=
  let here := if rail = 2 then decide (1200 ≤ reading.toNat) else decide (reading ≠ 0#16)
  let m := if rail = 5 then m else { m with ch.life.rails := setBit m.ch.life.rails rail.val here }
  if rail = 2 && decide (reading.toNat < 1680) then { m with ch.led.stopped := true } else m
/-- A level beyond a warning limit: WARN and STICKY, event 45, a record on entering the warning state (R103, R104). -/
def Mach.supplyWarning (m : Mach) (rail : Fin 6) (reading : BitVec 16) : Mach :=
  let m := m.sense rail reading
  match beyond rail (railLimits rail).1 reading with
  | none => m
  | some kind =>
    if !m.watches rail || bit m.ch.clk.warn rail.val then m
    else
      let m := { m with ch.clk.warn := setBit m.ch.clk.warn rail.val true, ch.clk.sticky := setBit m.ch.clk.sticky rail.val true }
      let m := m.monitorRecord (BitVec.ofNat 4 rail.val) false kind reading
      m.raiseIf (winBit m.ch 0x0403 0) 45 fix0
/-- SUPPLY_MONITOR_WARNING. -/
def execSupplyMonitorWarning (c : Chan) (rail : Fin 6) (reading : BitVec 16) (s : State) : Out :=
  .next (s.onMach c (fun m => m.supplyWarning rail reading))
/-- The rails that a set of readings shows. -/
def Mach.senseAll (m : Mach) (mon : Vector (BitVec 16) 6) : List (Fin 6) → Mach
  | [] => m
  | r :: rs => (m.sense r mon[r]).senseAll mon rs
/-- The warning bits that a set of readings justifies. -/
def beyondMask (mon : Vector (BitVec 16) 6) : BitVec 6 :=
  let b (r : Fin 6) : BitVec 6 := if (beyond r (railLimits r).1 mon[r]).isSome then 1#6 <<< r.val else 0#6
  b 0 ||| b 1 ||| b 2 ||| b 3 ||| b 4 ||| b 5
/-- MONITOR_READING_UPDATE: the readings; WARN falls with the level, the writer goes on once VAON_CHn is back, and a junction moved
by 10 °C or more since the trim clears SLOWCAL.VALID (R103, R111). -/
def Mach.readings (m : Mach) (mon : Vector (BitVec 16) 6) : Mach :=
  let mask := beyondMask mon
  let warn := if m.ch.life.cond = .off then mask else m.ch.clk.warn &&& mask
  let moved := decide (10 ≤ (mon[5].toInt - m.ch.clk.trimTj.toInt).natAbs)
  let m := { m with
    ch.clk := { m.ch.clk with mon := mon, warn := warn, trimValid := m.ch.clk.trimValid && !moved } }
  let m := { m with ch.led.stopped := m.ch.led.stopped && decide (m.ch.life.offCause = some OffCause.request) }
  m.senseAll mon [0, 1, 2, 3, 4]
/-- MONITOR_READING_UPDATE. -/
def execMonitorReadingUpdate (c : Chan) (vdd vddq vaon vio vtx tj : BitVec 16) (s : State) : Out :=
  .next (s.onMach c (fun m => m.readings #v[vdd, vddq, vaon, vio, vtx, tj]))
/-- OFF_RETURN: a channel that a monitor put into OFF resets once every rail is within its warning limits, VTX_CHn where its monitor acts
(R106), and the junction is at or below 110 °C (R105). -/
def Mach.offReturn (m : Mach) : Mach :=
  let rails : BitVec 6 := if m.ch.straps[6].level = 0#3 then 0x0F#6 else 0x1F#6
  let ok := decide (m.ch.clk.warn &&& rails = 0#6) && decide (m.ch.clk.mon[5].toInt ≤ 110)
  match m.ch.life.offCause with
  | some .brownout => if ok then m.reset 16#6 else m
  | some .thermal => if ok then m.reset 32#6 else m
  | _ => m
/-- OFF_RETURN. -/
def execOffReturn (c : Chan) (s : State) : Out := .next (s.onMach c Mach.offReturn)
/-- REFERENCE_CLOCK_FAULT: a count outside 650-880, or with a count inside a loss of lock where the PLL runs (RUN, IDLE, DOZE), halts a
channel that is released, a held one among them (R110). (DEDUCED, unsafe: log 39.) -/
def Mach.clockFault (m : Mach) (count : BitVec 16) : Mach :=
  if (m.ch.life.cond.live || m.ch.life.cond = .held)
      && (count < 650#16 || 880#16 < count || m.ch.life.power ≠ .sleep) then
    (m.monitorRecord 6#4 false (if 880#16 < count then 1#4 else 0#4) count).halt
  else m
/-- REFERENCE_CLOCK_FAULT. -/
def execReferenceClockFault (c : Chan) (count : BitVec 16) (s : State) : Out := .next (s.onMach c (fun m => m.clockFault count))
/-- SLOW_CLOCK_TRIM: while the PLL runs, TRIM is set and VALID reads 1 (R111). -/
def execSlowClockTrim (c : Chan) (trim : BitVec 10) (tj : BitVec 16) (s : State) : Out :=
  .next (s.onMach c (fun m =>
    if m.ch.life.cond.live && m.ch.life.power ≠ .sleep then
      { m with ch.clk := { m.ch.clk with trim := trim, trimValid := true, trimTj := tj } }
    else m))

/-! ### Timebase and timers (R112, R120-R122) -/

/-- Timebase bits 23:0. -/
def Clock.low (k : Clock) : Payload := k.tb.extractLsb' 0 24
/-- Timebase bits 47:24. -/
def Clock.high (k : Clock) : Payload := k.tb.extractLsb' 24 24
/-- A read of TBL: bits 23:0, with bits 47:24 captured for the reading thread. -/
def Mach.readTbl (m : Mach) (t : Fin 8) : Payload × Mach :=
  (m.ch.clk.low, m.setThr t { m.thr t with tbhCap := some m.ch.clk.high })
/-- TBL_READ. -/
def execTblRead (c : Chan) (t : Fin 8) (s : State) : Out := .next (s.program c (fun m => (m.readTbl t).2))
/-- A wake timer. -/
def Mach.wakeT (m : Mach) (n : Fin 8) : WakeTimer := m.ch.clk.wake[n]
/-- Replace a wake timer. -/
def Mach.setWakeT (m : Mach) (n : Fin 8) (w : WakeTimer) : Mach := { m with ch.clk.wake := m.ch.clk.wake.set n w }
/-- The offset of a wake timer's block. -/
def wtReg (n : Fin 8) : Nat := 0x0810 + 4 * n.val
/-- The offset of a fast timer's block. -/
def ftReg (n : Fin 8) : Nat := 0x0840 + 4 * n.val
/-- A wake timer whose deadline has been reached fires: its event, and ARM clears or the deadline grows by WTnPER. -/
def Mach.wakeFire (m : Mach) (n : Fin 8) : Mach :=
  let w := m.wakeT n
  if w.armed && w.cmp ≤ m.ch.clk.tb then
    let per := winGet m.ch (wtReg n + 3)
    let m := m.setWakeT n (if per = 0#24 then { w with armed := false } else { w with cmp := w.cmp + per.setWidth 48 })
    { m with ch.life.preWake := false }.raise (64 + n.val) fix0
  else m
/-- WTnCTL.ARM := 1: the deadline is loaded; one already passed fires at once. -/
def Mach.wakeArm (m : Mach) (n : Fin 8) : Mach :=
  (m.setWakeT n { armed := true, cmp := (winGet m.ch (wtReg n + 2) ++ winGet m.ch (wtReg n + 1) : BitVec 48) }).wakeFire n
/-- WTnCTL.ARM := 0. -/
def Mach.wakeDisarm (m : Mach) (n : Fin 8) : Mach := m.setWakeT n { m.wakeT n with armed := false }
/-- WAKE_TIMER_ARM. -/
def execWakeTimerArm (c : Chan) (n : Fin 8) (s : State) : Out := .next (s.program c (fun m => m.wakeArm n))
/-- WAKE_TIMER_DISARM. -/
def execWakeTimerDisarm (c : Chan) (n : Fin 8) (s : State) : Out := .next (s.program c (fun m => m.wakeDisarm n))
/-- WAKE_TIMER_EXPIRY: an armed timer whose deadline the timebase has reached fires. -/
def execWakeTimerExpiry (c : Chan) (n : Fin 8) (s : State) : Out :=
  .next (s.onMach c (fun m => if m.ch.life.cond = .running then m.wakeFire n else m))
/-- A fast timer. -/
def Mach.fastT (m : Mach) (n : Fin 8) : FastTimer := m.ch.clk.fast[n]
/-- Replace a fast timer. -/
def Mach.setFastT (m : Mach) (n : Fin 8) (f : FastTimer) : Mach := { m with ch.clk.fast := m.ch.clk.fast.set n f }
/-- FTnCTL with ARM = 1: FTnCNT is loaded from FTnRLD. -/
def Mach.fastArm (m : Mach) (n : Fin 8) (pre : BitVec 2) (periodic : Bool) : Mach :=
  let r := winGet m.ch (ftReg n + 1)
  m.setFastT n { armed := true, periodic := periodic, pre := pre, loaded := r, zero := decide (r = 0#24) }
/-- FTnCTL with ARM = 0: the count stops at a value that depends on core cycles, a free value. (DESIGN CHOICE, safe: log 11.) -/
def Mach.fastDisarm (m : Mach) (n : Fin 8) (pre : BitVec 2) (periodic : Bool) : Mach :=
  let f := m.fastT n
  let r := if f.armed then m.draw (f.loaded.toNat + 1) else (f.loaded.toNat, m)
  r.2.setFastT n { f with armed := false, periodic := periodic, pre := pre, loaded := BitVec.ofNat 24 r.1 }
/-- A read of FTnCNT: a free value up to the loaded one while the timer counts. (DESIGN CHOICE, safe: log 11.) -/
def Mach.readCnt (m : Mach) (n : Fin 8) : Payload × Mach :=
  let f := m.fastT n
  if f.armed then let r := m.draw (f.loaded.toNat + 1); (BitVec.ofNat 24 r.1, r.2) else (f.loaded, m)
/-- FAST_TIMER_ARM. -/
def execFastTimerArm (c : Chan) (n : Fin 8) (pre : BitVec 2) (periodic : Bool) (s : State) : Out :=
  .next (s.program c (fun m => m.fastArm n pre periodic))
/-- FAST_TIMER_DISARM. -/
def execFastTimerDisarm (c : Chan) (n : Fin 8) (pre : BitVec 2) (periodic : Bool) (s : State) : Out :=
  .next (s.program c (fun m => m.fastDisarm n pre periodic))
/-- A fast timer reaches zero: its event, then a reload where PERIODIC is 1 and it was not armed while FTnRLD was 0; otherwise ARM
clears. -/
def Mach.fastExpiry (m : Mach) (n : Fin 8) : Mach :=
  let f := m.fastT n
  if f.armed && m.ch.life.cond = .running && m.ch.life.power ≠ .sleep then
    let m := m.setFastT n (if f.periodic && !f.zero then { f with loaded := winGet m.ch (ftReg n + 1) }
      else { f with armed := false, loaded := 0#24 })
    m.raise (72 + n.val) fix0
  else m
/-- FAST_TIMER_EXPIRY. -/
def execFastTimerExpiry (c : Chan) (n : Fin 8) (s : State) : Out := .next (s.onMach c (fun m => m.fastExpiry n))
/-- PWRSTAT as a load reads it, DEEPEST then cleared (Table 5.8). -/
def Mach.readPwrstat (m : Mach) : Payload × Mach := (m.ch.life.deepest.setWidth 24, { m with ch.life.deepest := 0#2 })
/-- PWRSTAT_READ. -/
def execPwrstatRead (c : Chan) (s : State) : Out := .next (s.program c (fun m => m.readPwrstat.2))
/-- A power state is reached: DEEPEST keeps the deepest. -/
def Mach.setPower (m : Mach) (p : Power) (n : BitVec 2) : Mach :=
  { m with ch.life := { m.ch.life with power := p, deepest := if m.ch.life.deepest < n then n else m.ch.life.deepest } }

/-! ### Watchdog (R123, R124) -/

/-- The watchdog period in slow-clock periods (Table 5.5). -/
def Channel.wdPeriod (ch : Channel) : Nat := 3277 * 2 ^ ch.straps[5].level.toNat
/-- WDWARN. -/
def Channel.wdWarn (ch : Channel) : Nat := 3 * ch.wdPeriod / 4
/-- One bit per thread that is not waiting. (DEDUCED, unsafe: log 37.) -/
def Mach.notWaiting (m : Mach) : BitVec 32 :=
  let b (t : Fin 8) : BitVec 32 := match (m.thr t).status with | .waiting _ => 0#32 | _ => 1#32 <<< t.val
  b 0 ||| b 1 ||| b 2 ||| b 3 ||| b 4 ||| b 5 ||| b 6 ||| b 7
/-- WATCHDOG_EARLY_WARNING: the count has reached WDWARN: event 40 and a class 0x0A record. -/
def Mach.wdEarly (m : Mach) : Mach :=
  if m.ch.life.cond = .running && m.ch.clk.wdRun && !m.ch.clk.wdWarned && m.ch.wdWarn ≤ m.ch.clk.wdCount then
    let m := { m with ch.clk.wdWarned := true }
    (m.raise 40 fix0).report 0x0A#6 false false m.notWaiting
  else m
/-- WATCHDOG_EARLY_WARNING. -/
def execWatchdogEarlyWarning (c : Chan) (s : State) : Out := .next (s.onMach c Mach.wdEarly)
/-- The heartbeat condition of CHn_PANEL_OK (R466). -/
def Channel.panelOk (ch : Channel) : Bool :=
  winBit ch 0x16020 0 && decide (ch.life.cond = .running) && decide (ch.clk.wdCount < ch.wdWarn)

end Sys2Proof.Machine
end

