-- ==== Sys2Proof/Machine/Records.lean ====
section
/-! DEFINITION. What the retained items hold, the ledger's commands, the boot-good mark, the watchdog's reset (04, 06, R124), and
mirror records entering the stream (R405, R406). -/
namespace Sys2Proof.Machine

/-! ### Retained items (R78). Their word layout is the model's own (log 12). -/

/-- Body words of a strap snapshot. (DESIGN CHOICE, unsafe: log 12.) -/
def snapBody (pins : List Pin) : List (BitVec 32) := pins.map (fun p => (0#19 ++ p.level ++ p.raw : BitVec 32))
/-- The levels of a snapshot body, n of them. -/
def snapLevels (b : List (BitVec 32)) (n : Nat) : List (BitVec 3) := (b.take n).map (fun w => w.extractLsb' 10 3)
/-- Body words of a boot record. (DESIGN CHOICE, unsafe: log 12.) -/
def bootBody (b : Boot) : List (BitVec 32) :=
  [(match b.goodSlot with | none => 0#32 | some s => 2#32 + BitVec.ofNat 32 s.val), BitVec.ofNat 32 b.lastTried.val,
   b.att0.setWidth 32, b.att1.setWidth 32]
/-- The boot record as a body holds it. -/
def Boot.restore (b : Boot) (w : List (BitVec 32)) : Boot :=
  let g (i : Nat) : BitVec 32 := w.getD i 0#32
  { b with known := true, goodSlot := if bit (g 0) 1 then some (if bit (g 0) 0 then 1 else 0) else none,
           lastTried := if bit (g 1) 0 then 1 else 0, att0 := (g 2).setWidth 4, att1 := (g 3).setWidth 4 }
/-- The role a pair record holds: 0 unpaired, 1 active, 2 standby. -/
def Role.code : Role → BitVec 2
  | .independent => 0#2
  | .active => 1#2
  | .alone => 1#2
  | .joiningActive => 1#2
  | .standby => 2#2
  | .joining => 2#2
/-- Body words of a retained item of a channel. -/
def Mach.itemBody (m : Mach) : Item → List (BitVec 32)
  | .snapshot => padTo 30 (snapBody m.ch.straps.toList)
  | .boot => padTo 14 (bootBody m.ch.boot)
  | .pair => padTo 14 [m.ch.pair.role.code.setWidth 32, m.ch.pair.epoch.setWidth 32]
  | .counts => padTo 14 m.ch.led.counts.body
  | .training =>
      (m.ch.mc.trainTemp ++ 0#13 ++ m.ch.straps[0].level ++ 0#1 ++ m.ch.straps[1].level ++ 0#4 : BitVec 32)
      :: ((upFrom 2 1020).map (fun i => if 512 ≤ i && !decide (m.ch.straps[0].level = 0#3) then 0#32
            else Config.trainingWord m.c.val i) ++ [0#32])
/-- Body words of a retained item of the square. -/
def Square.itemBody (sq : Square) : Item → List (BitVec 32)
  | .snapshot => padTo 30 (snapBody sq.straps.toList)
  | _ => padTo 14 sq.led.counts.body
/-- Request an item of the channel. -/
def Mach.request (m : Mach) (i : Item) : Mach := { m with ch.led := m.ch.led.request i }
/-- Change the counts and request their record. -/
def Mach.count (m : Mach) (f : Counts → Counts) : Mach :=
  { m with ch.led := ({ m.ch.led with counts := f m.ch.led.counts }).request .counts }

/-! ### Ledger commands -/

/-- The square's scan ends: its counts return, and its power-up is counted (R78, R79). -/
def Square.scanEnd (sq : Square) : Square :=
  let r := sq.led.scanEnd true
  let k := ((r.1.item true .counts).map countsOf).getD zeroCounts
  { sq with led := ({ r.1 with counts := { k with powerUps := satInc k.powerUps } }).request .counts }
/-- LEDGER_SNAPSHOT_READ: both snapshot copies are read; each pin's history is the newer valid copy's level (R58, R79). -/
def execLedgerSnapshotRead (o : Fin 5) (s : State) : Out :=
  .next (match ownerChan o with
    | some c => s.onMach c (fun m =>
      if m.ch.life.cond = .sampling && !m.ch.led.snapRead then
        let lv := (m.ch.led.item false .snapshot).map (fun b => snapLevels b 8)
        { m with
          ch.straps := Vector.ofFn (fun i : Fin 8 => { m.ch.straps[i] with hist := lv.bind (fun l => l[i.val]?) })
          ch.led := m.ch.led.readSnapshot }
      else m)
    | none =>
      let sq := { s.square with porN := true }
      if sq.led.snapRead then { s with square := sq }
      else
        let lv := (sq.led.item true .snapshot).map (fun b => snapLevels b 4)
        { s with square := { sq with
          straps := Vector.ofFn (fun i : Fin 4 => { sq.straps[i] with hist := lv.bind (fun l => l[i.val]?) })
          led := sq.led.readSnapshot } })
/-- Whether a reset of a cause is one after which power comes up (R491). (DEDUCED, unsafe: log 40.) -/
def powerUpCause (c : BitVec 6) : Bool := c = 1#6 || c = 8#6 || c = 16#6 || c = 32#6
/-- The channel's scan ends: the counts, the boot record and the pair record return, and a power-up is counted (R78, R79). -/
def Mach.scanEnd (m : Mach) : Mach :=
  let r := m.ch.led.scanEnd false
  let m := { m with ch.led := { r.1 with counts := ((r.1.item false .counts).map countsOf).getD zeroCounts } }
  let m := m.raiseIf (r.2 && winBit m.ch 0x1001 0) 38 fix0
  let m := { m with
    ch.boot := match m.ch.led.item false .boot with | some b => m.ch.boot.restore b | none => m.ch.boot
    ch.pair := match m.ch.led.item false .pair with
      | some b => { m.ch.pair with recRole := (b.getD 0 0#32).setWidth 2, recEpoch := (b.getD 1 0#32).setWidth 24 }
      | none => m.ch.pair }
  if powerUpCause m.ch.life.rstCause then m.count (fun c => { c with powerUps := satInc c.powerUps }) else m
/-- LEDGER_SCAN: the scan of every record position ends. -/
def execLedgerScan (o : Fin 5) (s : State) : Out :=
  .next (match ownerChan o with
    | some c => s.onMach c (fun m => if m.ch.led.scan && m.ch.led.snapRead then m.scanEnd else m)
    | none =>
      if s.square.led.scan && s.square.led.snapRead then { s with square := s.square.scanEnd } else s)
/-- STAGING_QUEUE_ARRIVAL: an error record of a produced class arrives (R82, R88). -/
def execStagingQueueArrival (o : Fin 5) (cls : BitVec 6) (spec flag : Bool) (detail : BitVec 32) (s : State) : Out :=
  .next (
    if cls = 0#6 || 0x11#6 < cls then s
    else match ownerChan o with
      | some c => s.onMach c (fun m => if m.ch.life.cond = .inReset then m else m.report cls spec flag detail)
      | none => if s.square.failed then s
        else { s with square := { s.square with led := s.square.led.arrive cls spec flag detail } })
/-- Whether the channel's always-on domain has its writer: out of reset, and not in a requested OFF. -/
def Mach.hasWriter (m : Mach) : Bool := m.ch.life.cond ≠ .inReset && m.ch.life.offCause ≠ some .request
/-- LEDGER_WORD_WRITE: one word with its read-back (R86). -/
def execLedgerWordWrite (o : Fin 5) (firstOk secondOk : Bool) (s : State) : Out :=
  .next (match ownerChan o with
    | some c => s.onMach c (fun m =>
      if m.hasWriter then
        let g := if firstOk || secondOk then (0, m) else m.draw (2 ^ 32)
        let m := g.2
        let r := m.ch.led.wordWrite false m.itemBody firstOk secondOk (BitVec.ofNat 32 g.1)
        let m := { m.bumpIf (m.ch.led.writes && decide (m.ch.life.cond ≠ .off)) 49 with ch.led := r.1 }
        let m := m.raiseIf (r.2.1 && winBit m.ch 0x1001 0) 38 fix0
        m.raiseIf (r.2.2 && winBit m.ch 0x1001 1) 92 fix0
      else m)
    | none =>
      if s.square.failed && s.square.led.lockReq.isNone && s.square.led.stopped then s
      else
        let g := if firstOk || secondOk then 0#32 else BitVec.ofNat 32 (Config.freeNat s.free)
        let r := s.square.led.wordWrite true s.square.itemBody firstOk secondOk g
        { s with square := { s.square with led := r.1 }, free := if firstOk || secondOk then s.free else s.free + 1 })
/-- PINCLR := 1 (R83, R88). (DEDUCED, unsafe: log 41.) -/
def Mach.pinclr (m : Mach) : Mach :=
  if m.ch.led.staging.length < 16 then { m with ch.led := { m.ch.led with staging := m.ch.led.staging ++ [.pinclr] } } else m
/-- PINCLR. -/
def execPinclr (c : Chan) (s : State) : Out := .next (s.program c Mach.pinclr)

/-! ### The mirror stream (R405, R406) -/

/-- Whether the channel sends mirror records. -/
def Mach.mirrors (m : Mach) : Bool := m.ch.pair.role = .active || m.ch.pair.role = .joiningActive
/-- A record enters the stream and the retransmit buffer. -/
def Mach.sendMirror (m : Mach) (r : MirrorRec) : Mach :=
  if m.mirrors then
    { m.bumpC 45 with ch.pair := { m.ch.pair with buf := m.ch.pair.buf ++ [(m.ch.pair.nextSeq, r)], nextSeq := m.ch.pair.nextSeq + 1#24 } }
  else m

/-! ### The boot-good mark (R60, R96, R141, R149) -/

/-- The boot record with the mark set for the running slot. -/
def Boot.mark (b : Boot) : Boot :=
  { b with good := true, known := true, goodSlot := some b.slot, att0 := if b.slot = 0 then 0#4 else b.att0,
           att1 := if b.slot = 1 then 0#4 else b.att1 }
/-- DETAIL of a class 0x0C record. -/
def bootDetail (slot : Fin 2) (result : BitVec 3) (sect : Nat) : BitVec 32 :=
  (BitVec.ofNat 1 slot.val ++ result ++ 0#12 ++ BitVec.ofNat 16 sect : BitVec 32)
/-- BOOTGOOD := 1: the boot record, the channel snapshot, the square snapshot the first time since POR_N, a class 0x0C record, and a
BOOT record to the standby of a formed pair. -/
def Mach.bootgood (m : Mach) : Mach :=
  if m.ch.boot.good then m
  else
    let m := { m with ch.boot := m.ch.boot.mark }
    let m := (m.request .boot).request .snapshot
    let m := if m.sq.snapAsked then m
      else { m with sq := { m.sq with snapAsked := true, led := if m.sq.failed then m.sq.led else m.sq.led.request .snapshot } }
    let m := m.report 0x0C#6 false false (bootDetail m.ch.boot.slot 1#3 0)
    if m.ch.pair.role = .active then m.sendMirror .boot else m
/-- BOOTGOOD. -/
def execBootgood (c : Chan) (s : State) : Out := .next (s.program c Mach.bootgood)

/-! ### The watchdog's reset (R124) -/

/-- WATCHDOG_EXPIRY: the count has reached the period: the record and the watchdog-reset count are written, then the channel
resets with cause WDT. (DEDUCED, unsafe: log 41.) -/
def Mach.wdExpiry (m : Mach) : Mach :=
  if m.ch.life.cond = .running && m.ch.clk.wdRun && m.ch.wdPeriod ≤ m.ch.clk.wdCount then
    let l := m.ch.led.settleLock
    let l := l.writeNow false 0x0A#6 true m.notWaiting
    let l := { l with counts := { l.counts with wdResets := satInc l.counts.wdResets } }
    let m := { m with ch.led := l }
    let m := { m with ch.led := m.ch.led.itemNow false m.itemBody .counts }
    m.reset 4#6
  else m
/-- WATCHDOG_EXPIRY. -/
def execWatchdogExpiry (c : Chan) (s : State) : Out := .next (s.onMach c Mach.wdExpiry)

end Sys2Proof.Machine
end

