-- ==== Sys2Proof/Machine/Touch.lean ====
section
/-! DEFINITION. The touch front end (21): calibration, report scan, contacts, approach scan, drive faults, and its window page. -/
namespace Sys2Proof.Machine

/-- t and r of the CHn_TOUCH level (Table 3.4). -/
def Channel.geometry (ch : Channel) : Nat × Nat :=
  match ch.straps[6].level.toNat with
  | 1 => (16, 10)
  | 2 => (20, 12)
  | 3 => (24, 16)
  | 4 => (28, 18)
  | 5 => (32, 20)
  | 6 => (32, 24)
  | _ => (0, 0)
/-- Whether the front end is on (R470). -/
def Channel.touchOn (ch : Channel) : Bool := decide (ch.straps[6].level ≠ 0#3)
/-- The offset of a touch register. -/
def tReg (o : Nat) : Nat := 0x10000 + o
/-- Raise a touch vector where its enable bit of TCTL is set (R485). -/
def Mach.touchRaise (m : Mach) (v : Nat) (addr : Cell) : Mach := m.raiseIf (winBit m.ch (tReg 0) (v - 136)) v addr
/-- Set or clear TCTL.SCAN. -/
def Mach.setScan (m : Mach) (b : Bool) : Mach := { m with ch := winPut m.ch (tReg 0) (setBit (winGet m.ch (tReg 0)) 1 b) }
/-- TCTL.SCAN. -/
def Channel.scanning (ch : Channel) : Bool := winBit ch (tReg 0) 1

/-! ### Calibration (R145, R483) -/

/-- The keys of the nodes of a geometry, in order i, then j. -/
def nodeKeys (t r : Nat) : List Nat := (upFrom 0 t).flatMap (fun i => (upFrom 0 r).map (fun j => 24 * i + j))
/-- The keys of the electrodes: transmit, then receive. -/
def electrodeKeys (t r : Nat) : List Nat := (upFrom 768 t) ++ (upFrom 800 r)
/-- Baselines and gains of a section, three bytes for each key. -/
def calEntries (ks : List Nat) (bs : List Byte) : List (Nat × BitVec 16 × BitVec 8) :=
  match ks, bs with
  | k :: ks, a :: b :: g :: bs => (k, (b ++ a : BitVec 16), g) :: calEntries ks bs
  | _, _ => []
/-- Put values by key. -/
def putAll {α : Type} (m : NMap α) : List (Nat × α) → NMap α
  | [] => m
  | (k, v) :: r => putAll (mapPut m k v) r
/-- CALSTAT.CAUSE of a section under a geometry (R483). -/
def calCheck (t r : Nat) (bs : List Byte) : BitVec 2 :=
  if field bs 0 1 ≠ 1 || bs.length < 20 then 3#2
  else if field bs 2 1 ≠ t || field bs 3 1 ≠ r then 2#2
  else if bs.length ≠ 20 + 3 * t * r + 3 * (t + r) then 3#2
  else if (calEntries (nodeKeys t r ++ electrodeKeys t r) (bs.drop 20)).any (fun e => e.2.2 = 0#8) then 3#2
  else 0#2
/-- Two 12-bit thresholds as a register. -/
def thrPair (hi lo : Nat) : Payload := (BitVec.ofNat 12 hi ++ BitVec.ofNat 12 lo : BitVec 24)
/-- Place the touch calibration of an image (R145). -/
def Mach.applyCal (m : Mach) (cal : Option (List Byte)) : Mach :=
  let g := m.ch.geometry
  match cal with
  | none => { m with ch.touch := { m.ch.touch with calOk := false, calCause := 1#2 } }
  | some bs =>
    let c := calCheck g.1 g.2 bs
    if c ≠ 0#2 then { m with ch.touch := { m.ch.touch with calOk := false, calCause := c } }
    else
      let e := calEntries (nodeKeys g.1 g.2 ++ electrodeKeys g.1 g.2) (bs.drop 20)
      let m := { m with ch.touch := { m.ch.touch with
        calOk := true, calCause := 0#2, vtxCal := BitVec.ofNat 16 (field bs 4 2)
        calBase := putAll [] (e.map (fun (x : Nat × BitVec 16 × BitVec 8) => (x.1, x.2.1)))
        gain := putAll [] (e.map (fun (x : Nat × BitVec 16 × BitVec 8) => (x.1, x.2.2))) } }
      let ch := winPut m.ch (tReg 5) (thrPair (field bs 10 2) (field bs 8 2))
      let ch := winPut ch (tReg 6) (thrPair (field bs 14 2) (field bs 12 2))
      let ch := winPut ch (tReg 8) (BitVec.ofNat 24 (field bs 18 2 % 4096))
      let ch := winPut ch (tReg 11) (setField (winGet ch (tReg 11)) 0 16 (field bs 16 2))
      { m with ch := ch }

/-! ### Scanning -/

/-- The thresholds, tracking and mode in the registers take effect (R478, R486). -/
def Mach.latchTouch (m : Mach) : Mach :=
  { m with ch.touch := { m.ch.touch with
    thr1 := winGet m.ch (tReg 5), thr2 := winGet m.ch (tReg 6), track := winGet m.ch (tReg 7), noise := winGet m.ch (tReg 8)
    glove := winBit m.ch (tReg 0) 4 } }
/-- A store of SCAN := 1: ignored while VTXF is 1 (R471, R473, R475, R484). (DEDUCED, unsafe: log 55.) -/
def Mach.scanStart (m : Mach) : Mach :=
  if !m.ch.touchOn || m.ch.touch.vtxf then m
  else
    let m := (m.setScan true).latchTouch
    { m with ch.touch := { m.ch.touch with run := true, fresh := true, freq := (winGet m.ch (tReg 4)).extractLsb' 8 2 } }
/-- A store of SCAN := 0: the report under way completes before RUN clears (R482). -/
def Mach.scanStop (m : Mach) : Mach := if m.ch.touchOn then m.setScan false else m
/-- A store of BLRESET := 1. -/
def Mach.baselineReset (m : Mach) : Mach := if m.ch.touchOn then { m with ch.touch.fresh := true } else m
/-- SCAN_START. -/
def execScanStart (c : Chan) (s : State) : Out := .next (s.programStore c 0x40 Mach.scanStart)
/-- SCAN_STOP. -/
def execScanStop (c : Chan) (s : State) : Out := .next (s.programStore c 0x40 Mach.scanStop)
/-- BASELINE_RESET. -/
def execBaselineReset (c : Chan) (s : State) : Out := .next (s.programStore c 0x40 Mach.baselineReset)
/-- RAWCTL.CAPTURE := 1. -/
def Mach.rawArm (m : Mach) : Mach := if m.ch.touchOn then { m with ch := winPut m.ch (tReg 15) 1#24 } else m
/-- RAW_CAPTURE_ARM. -/
def execRawCaptureArm (c : Chan) (s : State) : Out := .next (s.programStore c 0x40 Mach.rawArm)

/-! ### One report (R471-R481) -/

/-- What one report computes with: geometry, raw counts, baselines and signed deltas by key. -/
structure Img where
  t : Nat
  r : Nat
  raw : NMap (BitVec 16)
  base : NMap (BitVec 16)
  delta : NMap Int
  deriving DecidableEq, Repr
/-- A delta; 0 outside the geometry. -/
def Img.d (g : Img) (k : Nat) : Int := (mapGet g.delta k).getD 0
/-- dm of a node, with signed indices so that neighbours outside count as 0. -/
def Img.dm (g : Img) (i j : Int) : Int :=
  if 0 ≤ i && i < g.t && 0 ≤ j && j < g.r then g.d (24 * i.toNat + j.toNat) else 0
/-- The offsets of the 8 neighbours. -/
def around : List (Int × Int) := [(-1, -1), (-1, 0), (-1, 1), (0, -1), (0, 1), (1, -1), (1, 0), (1, 1)]
/-- Whether a node is a peak (R476). -/
def Img.peak (g : Img) (thr : Int) (i j : Int) : Bool :=
  decide (thr ≤ g.dm i j) && around.all (fun o =>
    let inside := 0 ≤ i + o.1 && i + o.1 < g.t && 0 ≤ j + o.2 && j + o.2 < g.r
    !inside || (if o.1 < 0 || (o.1 = 0 && o.2 < 0) then decide (g.dm (i + o.1) (j + o.2) < g.dm i j)
      else decide (g.dm (i + o.1) (j + o.2) ≤ g.dm i j)))
/-- The nodes of a geometry. -/
def Img.nodes (g : Img) : List (Nat × Nat) := (upFrom 0 g.t).flatMap (fun i => (upFrom 0 g.r).map (fun j => (i, j)))
/-- Grow a region by the neighbours that satisfy a test, n times. -/
def Img.grow (g : Img) (p : Nat × Nat → Bool) : Nat → List (Nat × Nat) → List (Nat × Nat)
  | 0, l => l
  | n + 1, l =>
    let more := g.nodes.filter (fun q => p q && !l.contains q && around.any (fun o =>
      l.any (fun e => decide ((e.1 : Int) + o.1 = q.1) && decide ((e.2 : Int) + o.2 = q.2))))
    if more.isEmpty then l else g.grow p n (l ++ more)
/-- The region of a peak: grown through nodes of at least half the threshold (R477). -/
def Img.region (g : Img) (thr : Int) (q : Nat × Nat) : List (Nat × Nat) :=
  g.grow (fun e => decide (thr ≤ 2 * g.dm e.1 e.2)) (g.t * g.r) [q]
/-- Electrodes of an axis with ds at SELFTH or above, more than half of them. -/
def Img.film (g : Img) (first n : Nat) (selfth : Int) : Bool :=
  decide (n < 2 * ((upFrom first n).filter (fun k => decide (selfth ≤ g.d k))).length)
/-- Whether a peak is accepted. -/
def Img.accepts (g : Img) (thr selfth : Int) (fx fy : Bool) (q : Nat × Nat) : Bool :=
  (fx || decide (selfth ≤ g.d (768 + q.1))) && (fy || decide (selfth ≤ g.d (800 + q.2)))
    && (!(fx || fy) || decide (2 * thr ≤ g.dm q.1 q.2))
/-- Round 256 × c + 256 × diff ÷ s to nearest, ties upward, limited to 0 … top; a free value where s is 0. (DESIGN CHOICE, unsafe: log 13.) -/
def position (c : Nat) (diff s : Int) (top free : Nat) : Nat :=
  if s = 0 then free % (top + 1)
  else
    let v := (2 * (256 * c * s + 256 * diff) + s) / (2 * s)
    if v < 0 then 0 else if (top : Int) < v then top else v.toNat
/-- max(dm, 0). -/
def Img.pos (g : Img) (i j : Int) : Int := max (g.dm i j) 0
/-- The contact of an accepted peak, not yet tracked (R477); a PEAK beyond 16 bits is a free value. (DESIGN CHOICE, unsafe: log 13.) -/
def Img.contact (g : Img) (thr : Int) (glove : Bool) (free : Nat) (q : Nat × Nat) : Contact :=
  let i : Int := q.1
  let j : Int := q.2
  let row (a : Int) : Int := g.pos a (j - 1) + g.pos a j + g.pos a (j + 1)
  let col (b : Int) : Int := g.pos (i - 1) b + g.pos i b + g.pos (i + 1) b
  let s := row (i - 1) + row i + row (i + 1)
  { id := 0, evt := 0#2, glove := glove, x := position q.1 (row (i + 1) - row (i - 1)) s (256 * (g.t - 1)) free,
    y := position q.2 (col (j + 1) - col (j - 1)) s (256 * (g.r - 1)) free,
    area := min 255 (g.region thr q).length, peak := if g.dm i j < 65536 then (g.dm i j).toNat else free % 65536 }
/-- Insert by descending PEAK, later ones after equal ones. -/
def insertPeak (g : Img) (q : Nat × Nat) : List (Nat × Nat) → List (Nat × Nat)
  | [] => [q]
  | p :: r => if g.dm p.1 p.2 < g.dm q.1 q.2 then q :: p :: r else p :: insertPeak g q r
/-- Peaks by descending PEAK, lower i and then lower j first on ties. -/
def sortPeaks (g : Img) (l : List (Nat × Nat)) : List (Nat × Nat) := l.foldl (fun a q => insertPeak g q a) []
/-- max(|ΔX|, |ΔY|). -/
def apart (a b : Contact) : Nat := max (max (a.x - b.x) (b.x - a.x)) (max (a.y - b.y) (b.y - a.y))
/-- A candidate match: distance, old ID, index of the new contact. -/
abbrev Cand := Nat × Nat × Nat
/-- Insert a candidate by ascending distance, then old ID. -/
def insertCand (c : Cand) : List Cand → List Cand
  | [] => [c]
  | d :: r => if c.1 < d.1 || (c.1 = d.1 && c.2.1 < d.2.1) then c :: d :: r else d :: insertCand c r
/-- Take candidates in order while neither side is matched: new index to old ID. -/
def matchCands : List Cand → List (Nat × Nat) → List (Nat × Nat)
  | [], acc => acc
  | (_, o, n) :: r, acc => matchCands r (if acc.any (fun e => e.1 = n || e.2 = o) then acc else acc ++ [(n, o)])
/-- Give the new contacts their IDs and events, from index n on; one without a free ID waits. (DESIGN CHOICE, unsafe: log 13.) -/
def assignIds (pairs : List (Nat × Nat)) : Nat → List Contact → List Nat → List Contact
  | _, [], _ => []
  | n, c :: r, used => match pairs.find? (fun e => e.1 = n) with
    | some e => { c with id := e.2, evt := 2#2 } :: assignIds pairs (n + 1) r used
    | none => match (upFrom 0 10).find? (fun i => !used.contains i) with
      | some i => { c with id := i, evt := 1#2 } :: assignIds pairs (n + 1) r (i :: used)
      | none => assignIds pairs (n + 1) r used
/-- The contact table of a report (R479): tracked contacts and those lifted, by ID. -/
def trackContacts (trackd : Nat) (old new : List Contact) : List Contact :=
  let old := old.filter (fun c => c.evt ≠ 3#2)
  let cands := ((new.zipIdx).flatMap (fun n => old.filterMap (fun o =>
    if apart o n.1 ≤ trackd then some (apart o n.1, o.id, n.2) else none))).foldl (fun a c => insertCand c a) []
  let pairs := matchCands cands []
  let live := assignIds pairs 0 new (old.map (fun o => o.id))
  let gone := (old.filter (fun o => !pairs.any (fun e => e.2 = o.id))).map (fun o => { o with evt := 3#2 })
  let all := live ++ gone
  (upFrom 0 10).filterMap (fun i => all.find? (fun c => c.id = i))
/-- Raw counts by key from the report's lists. -/
def rawMap : List Nat → List (BitVec 16) → NMap (BitVec 16)
  | [], _ => []
  | k :: ks, l => mapPut (rawMap ks (l.drop 1)) k (l.headD 0#16)
/-- Baselines of a first report (R475). -/
def freshBase (tc : Touch) (contth : Nat) (raw : NMap (BitVec 16)) : NMap (BitVec 16) :=
  raw.map (fun e => match mapGet tc.calBase e.1 with
    | some b => if e.1 < 768 && contth < b.toNat - e.2.toNat then (e.1, b) else e
    | none => e)
/-- The deltas (R474), with K as a ratio. -/
def deltas (tc : Touch) (kn kd : Nat) (raw base : NMap (BitVec 16)) : NMap Int :=
  raw.map (fun e =>
    let b : Int := ((mapGet base e.1).getD 0#16).toNat
    let g : Int := (mapAt 128#8 tc.gain e.1).toNat
    let r : Int := e.2.toNat
    (e.1, if e.1 < 768 then ((b - r) * g * kn).tdiv (128 * kd) else ((r - b) * g).tdiv 128))
/-- Whether a key lies in the 3 × 3 window of a node. -/
def inWindow (k : Nat) (q : Nat × Nat) : Bool :=
  let near (a b : Nat) : Bool := a ≤ b + 1 && b ≤ a + 1
  if k < 768 then near (k / 24) q.1 && near (k % 24) q.2 else if k < 800 then near (k - 768) q.1 else near (k - 800) q.2
/-- Baselines after a later report (R475). -/
def tracked (g : Img) (shift : Nat) (thr : Int) (accepted water : List (Nat × Nat)) : NMap (BitVec 16) :=
  g.base.map (fun e =>
    let keep := accepted.any (inWindow e.1) || decide (thr ≤ 2 * (g.d e.1).natAbs)
      || (decide (e.1 < 768) && water.contains (e.1 / 24, e.1 % 24))
    if keep then e
    else
      let raw : Int := ((mapGet g.raw e.1).getD 0#16).toNat
      (e.1, BitVec.ofInt 16 (e.2.toNat + (raw - e.2.toNat) / 2 ^ shift)))
/-- Place a page of a raw capture. -/
def winFill (ch : Channel) (o : Nat) : List (Nat × Payload) → Channel
  | [] => ch
  | (k, v) :: r => winFill (winPut ch (o + k) v) o r
/-- The cell of a captured delta; a free value where the delta has more than 24 bits. -/
def deltaCell (free : Nat) (e : Nat × Int) : Nat × Payload :=
  (e.1, if -8388608 ≤ e.2 && e.2 < 8388608 then BitVec.ofInt 24 e.2 else BitVec.ofNat 24 (free / 2 ^ (24 * e.1)))
/-- A raw capture of a report (R481). (DESIGN CHOICE, unsafe: log 13.) -/
def Mach.capture (m : Mach) (g : Img) : Mach :=
  if winBit m.ch (tReg 15) 0 then
    let d := m.draw (2 ^ 24576)
    let m := d.2
    let ch := winFill m.ch 0x10400 (g.raw.map (fun e => (e.1, e.2.setWidth 24)))
    let ch := winFill ch 0x10800 (g.delta.map (deltaCell d.1))
    let ch := winFill ch 0x10C00 (g.base.map (fun e => (e.1, e.2.setWidth 24)))
    let m := { m with ch := winPut ch (tReg 15) 0#24 }
    m.touchRaise 146 (fix m.ch.touch.seq)
  else m
/-- Raise vector 150 once for each peak beyond the tenth. -/
def Mach.overflow (m : Mach) : Nat → Mach
  | 0 => m
  | n + 1 => ({ m with ch.touch.over_ := satInc m.ch.touch.over_ }.touchRaise 150 fix0).overflow n
/-- K of R474 as a ratio: VTXCAL over MON_VTX, a free ratio where MON_VTX reads 0. (DESIGN CHOICE, unsafe: log 13.) -/
def Mach.vtxRatio (m : Mach) : (Nat × Nat) × Mach :=
  let v := m.ch.clk.mon[4].toNat
  if m.ch.touch.vtxCal = 0#16 then ((1, 1), m)
  else if v = 0 then let r := m.draw 65536; ((r.1, 1), r.2)
  else ((m.ch.touch.vtxCal.toNat, v), m)
/-- REPORT: a report completes while RUN is 1. -/
def Mach.touchReport (m : Mach) (nodes electrodes noise : List (BitVec 16)) : Mach :=
  if !(m.ch.touchOn && m.ch.touch.run && m.fastOn) then m
  else
    let t := m.ch.geometry.1
    let r := m.ch.geometry.2
    let tc := m.ch.touch
    let raw := putAll (rawMap (nodeKeys t r) nodes) (rawMap (electrodeKeys t r) electrodes)
    let contth := bits tc.thr1 0 12
    let thr : Int := if tc.glove then bits tc.thr1 12 12 else contth
    let selfth : Int := bits tc.thr2 0 12
    let waterth : Int := bits tc.thr2 12 12
    let base := if tc.fresh then freshBase tc contth raw else tc.base
    let kr := m.vtxRatio
    let m := kr.2
    let g : Img := { t := t, r := r, raw := raw, base := base, delta := deltas tc kr.1.1 kr.1.2 raw base }
    let fx := g.film 768 t selfth
    let fy := g.film 800 r selfth
    let peaks := g.nodes.filter (fun q => g.peak thr q.1 q.2)
    let good := sortPeaks g (peaks.filter (g.accepts thr selfth fx fy))
    let wetPeaks := peaks.filter (fun q => !g.accepts thr selfth fx fy q)
    let wetNodes := g.nodes.filter (fun q => decide (g.dm q.1 q.2 ≤ -waterth))
    let water := !wetPeaks.isEmpty || !wetNodes.isEmpty
    let fr := m.draw 65536
    let m := fr.2
    let taken := good.take 10
    let new := (g.nodes.filter taken.contains).map (g.contact thr tc.glove fr.1)
    let contacts := trackContacts (bits tc.track 0 16) tc.contacts new
    let hop := winBit m.ch (tReg 0) 3 && decide (3 ≤ ((noise.take r).filter (fun n => bits tc.noise 0 12 < n.toNat)).length)
    let freq := if hop then tc.freq + 1#2 else tc.freq
    let base' := if tc.fresh then g.base
      else tracked g (max 1 (bits tc.track 16 4)) thr good (wetPeaks.flatMap (g.region thr) ++ wetNodes)
    let moved := decide (water ≠ tc.water) || decide (fx ≠ tc.filmX) || decide (fy ≠ tc.filmY)
    let m := { m with ch.touch := { tc with
      seq := tc.seq + 1#24, contacts := contacts, water := water, filmX := fx, filmY := fy, freq := freq, base := base'
      fresh := false, run := m.ch.scanning } }
    let m := m.overflow (good.length - 10)
    let m := if moved then m.touchRaise 147 (fix (0#21 ++ BitVec.ofBool water ++ BitVec.ofBool fx ++ BitVec.ofBool fy : BitVec 24)) else m
    let m := if hop then m.touchRaise 149 (fix (freq.setWidth 24)) else m
    let m := if !contacts.isEmpty || winBit m.ch (tReg 0) 5
      then m.touchRaise 145 (fixN (contacts.filter (fun c => c.evt ≠ 3#2)).length) else m
    ((m.bumpC 54).capture g).latchTouch
/-- REPORT. -/
def execReport (c : Chan) (nodes electrodes noise : List (BitVec 16)) (s : State) : Out :=
  .next (s.onMach c (fun m => m.touchReport nodes electrodes noise))
/-- A load of TRPT: the latest report into the contact table (R480). -/
def Mach.readTrpt (m : Mach) : Payload × Mach :=
  if m.ch.touchOn then
    (m.ch.touch.seq, { m with ch.touch := { m.ch.touch with shownSeq := m.ch.touch.seq, shown := m.ch.touch.contacts } })
  else (0#24, m)
/-- TRPT. -/
def execTrpt (c : Chan) (s : State) : Out := .next (s.program c (fun m => m.readTrpt.2))

/-! ### Approach scan and drive faults (R482, R484) -/

/-- APPROACH_RUN: one run with its summed count. -/
def Mach.approach (m : Mach) (sum : BitVec 24) : Mach :=
  let tc := m.ch.touch
  let actl := winGet m.ch (tReg 11)
  if !(m.ch.touchOn && bit actl 23 && !m.ch.scanning && !tc.run && m.ch.life.cond = .running) then m
  else
    let ath := bits actl 0 16
    let aconf := max 1 (bits actl 16 2)
    let base := if tc.aReady then tc.aBase else sum
    let d : Int := (sum.toNat : Int) - base.toNat
    let runs := if (ath : Int) ≤ d then tc.aRuns + 1 else 0
    let low := decide (2 * d < ath)
    let fire := decide (aconf ≤ runs) && !tc.appr
    let m := { m.bumpC 55 with ch.touch := { tc with
      aReady := true, aRuns := runs, aSum := sum, appr := if low then false else tc.appr || fire
      aBase := if low then BitVec.ofInt 24 (base.toNat + d / 16) else base } }
    if fire && !low then m.touchRaise 144 (fixI (min d 8388607)) else m
/-- APPROACH_RUN. -/
def execApproachRun (c : Chan) (sum : BitVec 24) (s : State) : Out := .next (s.onMach c (fun m => m.approach sum))
/-- The drive fault: transmitters and shield at Hi-Z, the report discarded, SCAN cleared, VTXF set, vector 148 (R484). -/
def Mach.vtxFault (m : Mach) : Mach :=
  if m.ch.touch.vtxf then m
  else
    let m := m.setScan false
    let m := { m with ch.touch := { m.ch.touch with run := false, vtxf := true } }
    m.touchRaise 148 fix0
/-- VTX_DRIVE_RESTORED: VTX_CHn has stayed within its warning limits. -/
def Mach.vtxRestored (m : Mach) : Mach :=
  if m.ch.touch.vtxf && !bit m.ch.clk.warn 4 then { m with ch.touch.vtxf := false }.touchRaise 148 (fixN 1) else m
/-- VTX_DRIVE_RESTORED. -/
def execVtxDriveRestored (c : Chan) (s : State) : Out := .next (s.onMach c Mach.vtxRestored)
/-- SUPPLY_MONITOR_OFF: a level beyond an off limit: a record with FLAG 1, then OFF with cause BROWNOUT or THERMAL; for VTX_CHn the
drive fault, the channel keeping on (R103, R104, R106). -/
def Mach.supplyOff (m : Mach) (rail : Fin 6) (reading : BitVec 16) : Mach :=
  let m := m.sense rail reading
  match beyond rail (railLimits rail).2 reading with
  | none => m
  | some kind =>
    if !m.watches rail then m
    else
      let m := m.monitorRecord (BitVec.ofNat 4 rail.val) true kind reading
      if rail = 4 then m.vtxFault else m.enterOff (if rail = 5 then .thermal else .brownout)
/-- SUPPLY_MONITOR_OFF. -/
def execSupplyMonitorOff (c : Chan) (rail : Fin 6) (reading : BitVec 16) (s : State) : Out :=
  .next (s.onMach c (fun m => m.supplyOff rail reading))

/-! ### The window page (Table 21.2) -/

/-- A cell of the contact table. -/
def contactCell (cs : List Contact) (o : Nat) : Payload :=
  match cs[(o - 0x40) / 4]? with
  | none => 0#24
  | some k =>
    if o % 4 = 0 then (1#1 ++ k.evt ++ BitVec.ofBool k.glove ++ 0#16 ++ BitVec.ofNat 4 k.id : BitVec 24)
    else if o % 4 = 1 then BitVec.ofNat 24 k.x
    else if o % 4 = 2 then BitVec.ofNat 24 k.y
    else (BitVec.ofNat 8 k.area ++ BitVec.ofNat 16 k.peak : BitVec 24)
/-- TSTAT. -/
def Touch.stat (tc : Touch) : Payload :=
  (BitVec.ofBool tc.run ++ BitVec.ofBool tc.vtxf ++ BitVec.ofBool tc.water ++ BitVec.ofBool tc.filmX ++ BitVec.ofBool tc.filmY
    ++ BitVec.ofBool tc.appr ++ tc.freq ++ BitVec.ofNat 4 (tc.contacts.filter (fun c => c.evt ≠ 3#2)).length ++ 0#12 : BitVec 24)
/-- A load of a touch register. -/
def Mach.touchLoad (m : Mach) (o : Nat) : Payload × Mach :=
  let tc := m.ch.touch
  if !m.ch.touchOn then (0#24, m)
  else if o = 0x10001 then (tc.stat, m)
  else if o = 0x10002 then ((BitVec.ofNat 16 m.ch.geometry.1 ++ BitVec.ofNat 8 m.ch.geometry.2 : BitVec 24), m)
  else if o = 0x10009 then m.readTrpt
  else if o = 0x1000A then (tc.over_, m)
  else if o = 0x1000C then (tc.aBase, m)
  else if o = 0x1000D then (tc.aSum, m)
  else if o = 0x1000E then ((BitVec.ofBool tc.calOk ++ 0#5 ++ tc.calCause ++ tc.vtxCal : BitVec 24), m)
  else if 0x10040 ≤ o && o < 0x10068 then (contactCell tc.shown (o - 0x10000), m)
  else (winGet m.ch o, m)
/-- A value limited to a range. -/
def clampN (lo hi n : Nat) : Nat := max lo (min hi n)
/-- A store of a touch register. -/
def Mach.touchStore (m : Mach) (o : Nat) (v : Payload) : Mach :=
  if !m.ch.touchOn then m
  else if o = 0x10000 then
    let was := m.ch.scanning
    let m := { m with ch := winPut m.ch o ((v &&& 0x007F38#24) ||| (winGet m.ch o &&& 2#24)) }
    let m := if bit v 2 then m.baselineReset else m
    if bit v 1 && !was then m.scanStart else if !bit v 1 && was then m.scanStop else m
  else if o = 0x10003 then { m with ch := winPut m.ch o (BitVec.ofNat 24 (clampN 1 240 (bits v 0 8))) }
  else if o = 0x10004 then { m with ch := winPut m.ch o (BitVec.ofNat 24 (bits v 8 2 * 256 + clampN 4 64 (bits v 0 8))) }
  else if o = 0x10005 || o = 0x10006 then { m with ch := winPut m.ch o v }
  else if o = 0x10007 then { m with ch := winPut m.ch o (v &&& 0x0FFFFF#24) }
  else if o = 0x10008 then { m with ch := winPut m.ch o (v &&& 0x000FFF#24) }
  else if o = 0x1000B then
    let m := if bit v 23 && !winBit m.ch o 23 then { m with ch.touch := { m.ch.touch with aReady := false, aRuns := 0 } } else m
    { m with ch := winPut m.ch o (v &&& 0x83FFFF#24) }
  else if o = 0x1000F then (if bit v 0 then m.rawArm else { m with ch := winPut m.ch o 0#24 })
  else m

end Sys2Proof.Machine
end

