-- ==== Sys2Proof/Machine/Setup.lean ====
section
/-! DEFINITION. Frame descriptors (R430, R431) and the host port setup section (R144, R443). -/
namespace Sys2Proof.Machine

/-! ### Straps of the interfaces (R62, R426) -/

/-- Whether CAN bus A (0) or B (1) is disabled by its straps. -/
def Square.canOff (sq : Square) : Bool := sq.straps[1].level = 7#3 || sq.straps[2].level = 7#3
/-- Whether a CAN bus is classical only. -/
def Square.classical (sq : Square) (bus : Fin 2) : Bool :=
  let l := sq.straps[2].level
  if bus = 0 then l = 0#3 || l = 4#3 || l = 5#3 else l = 0#3 || l = 6#3
/-- Whether an interface is disabled by its strap. -/
def Square.ifOff (sq : Square) (i : Fin 3) : Bool := if i = 2 then sq.straps[3].level = 0#3 else sq.canOff

/-! ### Descriptors (Table 19.1, R431) -/

/-- A CAN data length: 0-8, or for FD 12, 16, 20, 24, 32, 48 or 64. -/
def canLenOk (fdf : Bool) (n : Nat) : Bool :=
  n ≤ 8 || (fdf && (n = 12 || n = 16 || n = 20 || n = 24 || n = 32 || n = 48 || n = 64))
/-- An Ethernet data length: 14-1,514, or up to 1,518 with a VLAN tag. -/
def ethLenOk (data : List Byte) (n : Nat) : Bool :=
  14 ≤ n && (n ≤ 1514 || (n ≤ 1518 && slice data 12 2 = [0x81#8, 0x00#8]))
/-- Whether cells 0 to 2 of a descriptor and its data are valid. (DESIGN CHOICE, unsafe: log 70.) -/
def descOk (sq : Square) (c0 c1 c2 : Payload) (data : List Byte) : Bool :=
  let iface := bits c0 22 2
  let len := bits c0 0 11
  let fdf := bit c0 18
  let seqOk := !bit c0 20 || decide (bits c2 0 11 + 2 ≤ len)
  if iface = 3 || bits c2 11 13 ≠ 0 || !seqOk then false
  else if iface = 2 then ethLenOk data len
  else
    canLenOk fdf len && !(bit c0 16 && fdf) && !(bit c0 17 && !fdf)
      && !(fdf && sq.classical (if iface = 0 then 0 else 1))
      && (bit c0 19 || (bits c0 11 5 = 0 && bits c1 11 13 = 0))
/-- The interface an IF field names; bus A for the reserved value, which no valid descriptor holds. -/
def ifaceOf (n : Nat) : Fin 3 := if n = 2 then 2 else if n = 1 then 1 else 0
/-- The frame of a descriptor. -/
def frameOf (c0 c1 c2 : Payload) (data : List Byte) : HostFrame :=
  { iface := ifaceOf (bits c0 22 2), committed := bit c0 21, sqe := bit c0 20, ide := bit c0 19, fdf := bit c0 18,
    brs := bit c0 17, rtr := bit c0 16, ident := (c0.extractLsb' 11 5 ++ c1 : BitVec 29), seqpos := c2.extractLsb' 0 11,
    data := data.take (bits c0 0 11) }
/-- Data bytes from cells of three bytes each (R150). -/
def unpack3 : List Payload → List Byte
  | [] => []
  | p :: r => p.extractLsb' 0 8 :: p.extractLsb' 8 8 :: p.extractLsb' 16 8 :: unpack3 r
/-- Bytes packed three to a cell. -/
def pack3 : List Byte → List Payload
  | [] => []
  | [a] => [(0#16 ++ a : BitVec 24)]
  | [a, b] => [(0#8 ++ b ++ a : BitVec 24)]
  | a :: b :: c :: r => (c ++ b ++ a : BitVec 24) :: pack3 r

/-! ### The setup section -/

/-- A setup entry: type and body. -/
abbrev Entry2 := Nat × List Byte
/-- The entries of a section; none where they do not fill it exactly or a padding byte is not zero. -/
def setupEntries : Nat → List Byte → Option (List Entry2)
  | 0, bs => if bs.isEmpty then some [] else none
  | k + 1, bs =>
    if bs.isEmpty then some []
    else
      let n := field bs 2 2
      let m := (n + 3) / 4 * 4
      if bs.length < 4 + m || (slice bs (4 + n) (m - n)).any (fun b => b ≠ 0#8) then none
      else (setupEntries k (bs.drop (4 + m))).map (fun r => (field bs 0 2, slice bs 4 n) :: r)
/-- Whether bytes are all zero. -/
def allZero (bs : List Byte) : Bool := bs.all (fun b => b = 0#8)
/-- Cell 0 of a last-gasp CAN body. -/
def gaspC0 (b : List Byte) : Payload := BitVec.ofNat 24 (field b 0 3)
/-- Cell 1 of a last-gasp CAN body. -/
def gaspC1 (b : List Byte) : Payload := BitVec.ofNat 24 (field b 4 3)
/-- Whether an entry agrees with Table 19.2 (R443). -/
def entryOk (sq : Square) (e : Entry2) : Bool :=
  let b := e.2
  if e.1 = 1 then b.length = 8 && allZero (slice b 6 2)
  else if e.1 = 2 then b.length = 20 && field b 0 1 ≤ 3 && allZero (slice b 1 3)
  else if e.1 = 3 || e.1 = 4 then
    8 ≤ b.length && allZero (slice b 3 1) && allZero (slice b 7 1) && bits (gaspC0 b) 22 2 = e.1 - 3
      && !bit (gaspC0 b) 21 && !bit (gaspC0 b) 20 && b.length = 8 + bits (gaspC0 b) 0 11
      && descOk sq (gaspC0 b) (gaspC1 b) 0#24 (b.drop 8)
  else if e.1 = 5 then 14 ≤ b.length && b.length ≤ 256
  else false
/-- How many entries have a type. -/
def countType (es : List Entry2) (t : Nat) : Nat := (es.filter (fun e => e.1 = t)).length
/-- Whether a setup section is acceptable (R144). -/
def setupOk (sq : Square) (bs : List Byte) : Bool :=
  match setupEntries (bs.length + 1) bs with
  | none => false
  | some es => es.all (entryOk sq) && decide (countType es 2 ≤ 124) && decide (countType es 1 ≤ 1) && decide (countType es 3 ≤ 1)
      && decide (countType es 4 ≤ 1) && decide (countType es 5 ≤ 1)
/-- A 64-bit field from 8 bytes, byte 0 in bits 7:0. -/
def le64 (bs : List Byte) : BitVec 64 := BitVec.ofNat 64 (leNat bs)
/-- Six bytes as an address, byte 0 in the highest bits. -/
def macOf (bs : List Byte) : BitVec 48 := BitVec.ofNat 48 (leNat ((bs.take 6).reverse))
/-- The filter of a type 2 body. -/
def filterOf (b : List Byte) : Filter :=
  { iface := (match field b 0 1 with | 0 => 0 | 1 => 1 | 2 => 2 | _ => 3), value := le64 (slice b 4 8), mask := le64 (slice b 12 8) }
/-- The last-gasp frame of an entry. -/
def gaspOf (e : Entry2) : HostFrame :=
  if e.1 = 5 then
    { iface := 2, committed := false, sqe := false, ide := false, fdf := false, brs := false, rtr := false, ident := 0#29,
      seqpos := 0#11, data := e.2 }
  else frameOf (gaspC0 e.2) (gaspC1 e.2) 0#24 (e.2.drop 8)
/-- The first entry of a type. -/
def entryOf (es : List Entry2) (t : Nat) : Option Entry2 := es.find? (fun e => e.1 = t)
/-- A port with a channel's setup in place of every filter, identity and last-gasp frame it held (R144). -/
def Port.applySetup (p : Port) (bs : Option (List Byte)) : Port :=
  let es := (bs.bind (fun b => setupEntries (b.length + 1) b)).getD []
  { p with
    filters := (es.filter (fun e => e.1 = 2)).map (fun e => filterOf e.2)
    stmac := ((entryOf es 1).map (fun e => macOf e.2)).getD 0#48
    gasp := #v[(entryOf es 3).map gaspOf, (entryOf es 4).map gaspOf, (entryOf es 5).map gaspOf] }

end Sys2Proof.Machine
end

