-- ==== Sys2Proof/Machine/Sign.lean ====
section
/-! DEFINITION. SHA-512 (FIPS 180-4) and Ed25519 verification (RFC 8032, pure form), which R139 names. -/
namespace Sys2Proof.Machine

/-! ### SHA-512 -/

/-- The 80 round constants. -/
def longK : List (BitVec 64) :=
  [0x428a2f98d728ae22#64, 0x7137449123ef65cd#64, 0xb5c0fbcfec4d3b2f#64, 0xe9b5dba58189dbbc#64, 0x3956c25bf348b538#64,
   0x59f111f1b605d019#64, 0x923f82a4af194f9b#64, 0xab1c5ed5da6d8118#64, 0xd807aa98a3030242#64, 0x12835b0145706fbe#64,
   0x243185be4ee4b28c#64, 0x550c7dc3d5ffb4e2#64, 0x72be5d74f27b896f#64, 0x80deb1fe3b1696b1#64, 0x9bdc06a725c71235#64,
   0xc19bf174cf692694#64, 0xe49b69c19ef14ad2#64, 0xefbe4786384f25e3#64, 0x0fc19dc68b8cd5b5#64, 0x240ca1cc77ac9c65#64] ++
  [0x2de92c6f592b0275#64, 0x4a7484aa6ea6e483#64, 0x5cb0a9dcbd41fbd4#64, 0x76f988da831153b5#64, 0x983e5152ee66dfab#64,
   0xa831c66d2db43210#64, 0xb00327c898fb213f#64, 0xbf597fc7beef0ee4#64, 0xc6e00bf33da88fc2#64, 0xd5a79147930aa725#64,
   0x06ca6351e003826f#64, 0x142929670a0e6e70#64, 0x27b70a8546d22ffc#64, 0x2e1b21385c26c926#64, 0x4d2c6dfc5ac42aed#64,
   0x53380d139d95b3df#64, 0x650a73548baf63de#64, 0x766a0abb3c77b2a8#64, 0x81c2c92e47edaee6#64, 0x92722c851482353b#64] ++
  [0xa2bfe8a14cf10364#64, 0xa81a664bbc423001#64, 0xc24b8b70d0f89791#64, 0xc76c51a30654be30#64, 0xd192e819d6ef5218#64,
   0xd69906245565a910#64, 0xf40e35855771202a#64, 0x106aa07032bbd1b8#64, 0x19a4c116b8d2d0c8#64, 0x1e376c085141ab53#64,
   0x2748774cdf8eeb99#64, 0x34b0bcb5e19b48a8#64, 0x391c0cb3c5c95a63#64, 0x4ed8aa4ae3418acb#64, 0x5b9cca4f7763e373#64,
   0x682e6ff3d6b2b8a3#64, 0x748f82ee5defb2fc#64, 0x78a5636f43172f60#64, 0x84c87814a1f0ab72#64, 0x8cc702081a6439ec#64] ++
  [0x90befffa23631e28#64, 0xa4506cebde82bde9#64, 0xbef9a3f7b2c67915#64, 0xc67178f2e372532b#64, 0xca273eceea26619c#64,
   0xd186b8c721c0c207#64, 0xeada7dd6cde0eb1e#64, 0xf57d4f7fee6ed178#64, 0x06f067aa72176fba#64, 0x0a637dc5a2c898a6#64,
   0x113f9804bef90dae#64, 0x1b710b35131c471b#64, 0x28db77f523047d84#64, 0x32caab7b40c72493#64, 0x3c9ebe0a15c9bebc#64,
   0x431d67c49c100d4c#64, 0x4cc5d4becb3e42b6#64, 0x597f299cfc657e2a#64, 0x5fcb6fab3ad6faec#64, 0x6c44198c4a475817#64]
/-- The eight working words of SHA-512. -/
structure Long where
  a : BitVec 64
  b : BitVec 64
  c : BitVec 64
  d : BitVec 64
  e : BitVec 64
  f : BitVec 64
  g : BitVec 64
  h : BitVec 64
  deriving DecidableEq, Repr
/-- The initial words. -/
def longInit : Long :=
  { a := 0x6a09e667f3bcc908#64, b := 0xbb67ae8584caa73b#64, c := 0x3c6ef372fe94f82b#64, d := 0xa54ff53a5f1d36f1#64,
    e := 0x510e527fade682d1#64, f := 0x9b05688c2b3e6c1f#64, g := 0x1f83d9abfb41bd6b#64, h := 0x5be0cd19137e2179#64 }
/-- Exclusive-or of three rotations to the right. -/
def turn3 (x : BitVec 64) (i j k : Nat) : BitVec 64 := x.rotateRight i ^^^ x.rotateRight j ^^^ x.rotateRight k
/-- One round; `q` is the constant plus the schedule word. -/
def Long.round (s : Long) (q : BitVec 64) : Long :=
  let u := s.h + q + turn3 s.e 14 18 41 + ((s.e &&& s.f) ||| (~~~ s.e &&& s.g))
  let v := turn3 s.a 28 34 39 + ((s.a &&& s.b) ||| (s.a &&& s.c) ||| (s.b &&& s.c))
  { a := u + v, b := s.a, c := s.b, d := s.c, e := s.d + u, f := s.e, g := s.f, h := s.g }
/-- The next schedule word of the last 16, oldest first. -/
def longNext (w : List (BitVec 64)) : BitVec 64 :=
  let lo := w.getD 1 0#64
  let hi := w.getD 14 0#64
  w.getD 0 0#64 + (lo.rotateRight 1 ^^^ lo.rotateRight 8 ^^^ (lo >>> 7)) + w.getD 9 0#64
    + (hi.rotateRight 19 ^^^ hi.rotateRight 61 ^^^ (hi >>> 6))
/-- The rounds of a block, from the constants still to use and the window of 16 schedule words. -/
def Long.run : List (BitVec 64) → List (BitVec 64) → Long → Long
  | [], _, s => s
  | k :: ks, w, s => Long.run ks (w.tail ++ [longNext w]) (s.round (k + w.getD 0 0#64))
/-- A block's outcome added to what went before. -/
def Long.plus (s r : Long) : Long :=
  { a := s.a + r.a, b := s.b + r.b, c := s.c + r.c, d := s.d + r.d, e := s.e + r.e, f := s.f + r.f, g := s.g + r.g, h := s.h + r.h }
/-- Bytes as big-endian words of eight. -/
def longWords : Nat → List Byte → List (BitVec 64)
  | 0, _ => []
  | n + 1, bs => BitVec.ofNat 64 (leNat (bs.take 8).reverse) :: longWords n (bs.drop 8)
/-- The message, one bit, zeros, and its length in bits in 16 bytes, most significant first: whole blocks of 128 bytes. -/
def longPad (bs : List Byte) : List Byte :=
  bs ++ 0x80#8 :: List.replicate ((239 - bs.length % 128) % 128 + 8) 0#8
    ++ ((upFrom 0 8).map (fun i => BitVec.ofNat 8 (8 * bs.length / 2 ^ (8 * i)))).reverse
/-- All blocks, n of them. -/
def Long.all : Nat → List Byte → Long → Long
  | 0, _, s => s
  | n + 1, bs, s => Long.all n (bs.drop 128) (s.plus (Long.run longK (longWords 16 bs) s))
/-- The SHA-512 of bytes, as the number whose least significant byte is the first byte of the digest. -/
def sha512 (bs : List Byte) : Nat :=
  let p := longPad bs
  let s := Long.all (p.length / 128) p longInit
  leNat ([s.a, s.b, s.c, s.d, s.e, s.f, s.g, s.h].flatMap (fun w => (upFrom 0 8).map (fun i => w.extractLsb' (56 - 8 * i) 8)))

/-! ### Ed25519 -/

/-- The prime 2^255 − 19. -/
def edP : Nat := 2 ^ 255 - 19
/-- The order of the base point. -/
def edL : Nat := 2 ^ 252 + 27742317777372353535851937790883648493
/-- A difference in the field. -/
def edSub (a b : Nat) : Nat := (a + (edP - b % edP)) % edP
/-- A power in the field; the first number bounds the bits of the exponent. -/
def edPow : Nat → Nat → Nat → Nat
  | 0, _, _ => 1
  | n + 1, b, e => (if e % 2 = 1 then b else 1) * edPow n (b * b % edP) (e / 2) % edP
/-- The curve constant d = −121665 ÷ 121666. -/
def edD : Nat := 37095705934669439343138083508754565189542113879843219016388785533085940283555
/-- A square root of −1. -/
def edI : Nat := 19681161376707505956807079304988542015446066515923890162744021073123829784752
/-- A point in extended coordinates: x = X ÷ Z, y = Y ÷ Z, x × y = T ÷ Z. -/
structure EdPoint where
  x : Nat
  y : Nat
  z : Nat
  t : Nat
  deriving DecidableEq, Repr
/-- The sum of two points. -/
def EdPoint.add (p q : EdPoint) : EdPoint :=
  let a := edSub p.y p.x * edSub q.y q.x % edP
  let b := (p.y + p.x) * (q.y + q.x) % edP
  let c := p.t * 2 * edD % edP * q.t % edP
  let d := p.z * 2 * q.z % edP
  let e := edSub b a
  let f := edSub d c
  let g := d + c
  let h := b + a
  { x := e * f % edP, y := g * h % edP, z := f * g % edP, t := e * h % edP }
/-- A multiple of a point; the first number bounds the bits of the multiplier. -/
def EdPoint.times : Nat → Nat → EdPoint → EdPoint
  | 0, _, _ => { x := 0, y := 1, z := 1, t := 0 }
  | n + 1, k, p => if k % 2 = 1 then p.add (EdPoint.times n (k / 2) (p.add p)) else EdPoint.times n (k / 2) (p.add p)
/-- Whether two points are equal. -/
def EdPoint.same (p q : EdPoint) : Bool :=
  decide (p.x * q.z % edP = q.x * p.z % edP) && decide (p.y * q.z % edP = q.y * p.z % edP)
/-- The point with coordinates x and y. -/
def edAffine (x y : Nat) : EdPoint := { x := x, y := y, z := 1, t := x * y % edP }
/-- The base point. -/
def edBase : EdPoint :=
  edAffine 15112221349535400772501151409588531511454012693041857206046113283949847762202
    46316835694926478169428394003475163141307993866256225615783033603165251855960
/-- The point that 32 bytes encode (RFC 8032, 5.1.3). -/
def edDecode (bs : List Byte) : Option EdPoint :=
  let v := leNat (bs.take 32)
  let y := v % 2 ^ 255
  let sign := v / 2 ^ 255 % 2
  let u := edSub (y * y) 1
  let w := (edD * (y * y % edP) + 1) % edP
  let c := u * edPow 2 w 3 % edP * edPow 252 (u * edPow 3 w 7 % edP) ((edP - 5) / 8) % edP
  let ww := w * (c * c % edP) % edP
  let x := if ww = u then some c else if ww = edSub 0 u then some (c * edI % edP) else none
  if edP ≤ y || bs.length < 32 then none
  else match x with
    | none => none
    | some x => if x = 0 && sign = 1 then none else some (edAffine (if x % 2 = sign then x else edSub 0 x) y)
/-- Whether a signature of 64 bytes over a message verifies under a public key of 32 bytes (RFC 8032, 5.1.7). The group equation may be
checked with the cofactor 8 or without it, as the RFC leaves to the verifier. (DESIGN CHOICE, safe: log 4.) -/
def ed25519 (key sig msg : List Byte) : Bool :=
  let s := leNat (slice sig 32 32)
  match edDecode key, edDecode (sig.take 32) with
  | some a, some r =>
    let k := sha512 (sig.take 32 ++ key ++ msg) % edL
    let l := EdPoint.times 253 s edBase
    let q := r.add (EdPoint.times 253 k a)
    sig.length = 64 && decide (s < edL)
      && (if Config.cofactor then (EdPoint.times 4 8 l).same (EdPoint.times 4 8 q) else l.same q)
  | _, _ => false

end Sys2Proof.Machine
end

