-- ==== Sys2Proof/Machine/Boot.lean ====
section
/-! DEFINITION. The boot sequence (06): flash discovery, slot order, loading and verification, applying the image, forming a pair, and
the first instruction. -/
namespace Sys2Proof.Machine

/-! ### Images (R134-R138) -/

/-- A used section table entry (Table 6.3). -/
structure Sect where
  typ : Nat
  off : Nat
  len : Nat
  load : Nat
  crc : BitVec 32
  deriving DecidableEq, Repr
/-- Section i of a table. -/
def sectAt (img : List Byte) (i : Nat) : Sect :=
  let o := 0x100 + 32 * i
  { typ := field img o 1, off := field img (o + 4) 4, len := field img (o + 8) 4, load := field img (o + 12) 4,
    crc := BitVec.ofNat 32 (field img (o + 16) 4) }
/-- NSECT. -/
def nsect (img : List Byte) : Nat := field img 6 2
/-- The used sections. -/
def sections (img : List Byte) : List Sect := (upFrom 0 (nsect img)).map (sectAt img)
/-- IMGSIZE. -/
def imgSize (img : List Byte) : Nat := field img 8 4
/-- IMGVER. -/
def imgVer (img : List Byte) : Nat := field img 12 4
/-- How many sections have a type. -/
def typeCount (ss : List Sect) (t : Nat) : Nat := (ss.filter (fun x => x.typ = t)).length
/-- Whether a section is of cells loaded into memory. -/
def Sect.isCells (x : Sect) : Bool := x.typ = 1 || x.typ = 2 || x.typ = 3
/-- Ascending, not overlapping, each ending within a bound. -/
def ascending : List Sect → Nat → Nat → Bool
  | [], _, _ => true
  | x :: r, from_, top => from_ ≤ x.off && x.off + x.len ≤ top && ascending r (x.off + x.len) top
/-- Whether two load ranges overlap. -/
def loadsMeet (a b : Sect) : Bool := a.load < b.load + b.len / 4 && b.load < a.load + a.len / 4
/-- No two of the sections have load ranges that overlap. -/
def loadsApart : List Sect → Bool
  | [] => true
  | x :: r => r.all (fun y => !loadsMeet x y) && loadsApart r
/-- Whether a slot's header and table are sound (R136), in a slot of a size, with so many populated cells. -/
def sound (img : List Byte) (slotSize cells : Nat) : Bool :=
  let ss := sections img
  let cs := ss.filter Sect.isCells
  slice img 0 4 = [0x55#8, 0x48#8, 0x4C#8, 0x50#8] && field img 4 2 = 1
    && decide (0x500 ≤ img.length) && 2 ≤ nsect img && nsect img ≤ 32
    && BitVec.ofNat 32 (field img 0xFC 4) = crc32 (zeroed (img.take 0x500) 0xFC 4)
    && ss.all (fun x => 1 ≤ x.typ && x.typ ≤ 7 && x.off % 256 = 0 && 0x500 ≤ x.off)
    && decide (1 ≤ typeCount ss 1 && typeCount ss 1 ≤ 30) && decide (typeCount ss 2 ≤ 30) && decide (typeCount ss 3 = 1)
    && decide (typeCount ss 4 ≤ 1) && decide (typeCount ss 5 ≤ 1) && decide (typeCount ss 6 ≤ 1)
    && (ss.dropLast).all (fun x => x.typ ≠ 7)
    && ascending ss 0x500 (min (imgSize img) slotSize)
    && cs.all (fun x => x.len % 4 = 0 && x.load + x.len / 4 ≤ cells) && loadsApart cs
    && cs.all (fun x => x.typ ≠ 3 || (x.len = 8192 && x.load < 0x1000000 && x.load % 1024 = 0))
    && field img 0x10 4 < 0x1000000 && field img 0x14 4 < 0x1000000
    && allZero (slice img (0x100 + 32 * nsect img) (32 * (32 - nsect img)))
/-- A patch section that R138 accepts. -/
def patchOk (bs : List Byte) : Bool :=
  let w := field bs 4 2
  let p := field bs 6 2
  decide (272 ≤ bs.length) && 1 ≤ w && w ≤ 1024 && 1 ≤ p && p ≤ 64 && decide (bs.length = 272 + 16 * w)
    && field bs 0 1 = Config.romRev.toNat
/-- The patch points, valid ones only: ROM address and patch RAM address, by point number. -/
def patchPoints (bs : List Byte) : NMap (BitVec 13 × BitVec 10) :=
  (upFrom 0 (field bs 6 2)).filterMap (fun j =>
    let e : BitVec 32 := BitVec.ofNat 32 (field bs (16 + 4 * j) 4)
    if bit e 31 then some (j, e.extractLsb' 0 13, e.extractLsb' 16 10) else none)
/-- The patch of a section (Table 6.5). (DESIGN CHOICE, unsafe: log 8.) -/
def patchOf (bs : List Byte) : Patch :=
  { words := (upFrom 0 (field bs 4 2)).map (fun i => (i, BitVec.ofNat 112 (field bs (272 + 16 * i) 14))),
    points := patchPoints bs, ident := BitVec.ofNat 16 (field bs 2 2) }
/-- Whether an attribute cell is acceptable (R261). -/
def attrCellOk (w : Cell) : Bool :=
  cellTag w = tFIX && !bit w 20 && bits w 0 8 = 0 && !(8 ≤ bits w 16 4 && bits w 16 4 ≤ 14)
/-- The attribute cells of a vector template. -/
def attrCells (bs : List Byte) : List Cell := (leWords bs).zipIdx.filterMap (fun e => if e.2 % 2 = 1 then some e.1 else none)
/-- The attribute store of a template. -/
def attrStore (bs : List Byte) : NMap Payload :=
  (attrCells bs).zipIdx.filterMap (fun e => if cellPay e.1 = 0#24 then none else some (e.2, cellPay e.1))
/-- Write cells into memory from an address, with their check codes. -/
def Mach.loadCells (m : Mach) (a : Nat) (vs : List Cell) : Mach := m.putRun a vs
/-- Load and check the sections from index i on (R138); `load` is false for a channel that joins (R421). The failing section. -/
def Mach.loadSections (m : Mach) (img : List Byte) (load : Bool) : Nat → List Sect → Option Nat × Mach
  | _, [] => (none, m)
  | i, x :: r =>
    let bs := slice img x.off x.len
    let m := if load && x.isCells then m.loadCells x.load (leWords bs) else m
    let bad := decide (crc32 bs ≠ x.crc) || decide (bs.length ≠ x.len) || (x.typ = 4 && !patchOk bs)
      || (x.typ = 3 && !(attrCells bs).all attrCellOk) || (x.typ = 5 && !setupOk m.sq bs)
      || (x.isCells && m.ch.pair.inPair && decide (m.ch.memCells - 0x400000 < x.load + x.len / 4))
    if bad then (some i, m) else m.loadSections img load (i + 1) r
/-- The bytes of the section of a type. -/
def sectBytes (img : List Byte) (t : Nat) : Option (List Byte) :=
  ((sections img).find? (fun x => x.typ = t)).map (fun x => slice img x.off x.len)
/-- The DIGEST field. -/
def digestField (img : List Byte) : List Byte := slice img 0x20 32
/-- The SHA-256 that DIGEST must equal (R137). -/
def imageDigest (img : List Byte) : List Byte :=
  let e := match (sections img).find? (fun x => x.typ = 7) with | some x => x.off | none => imgSize img
  sha256 (zeroed (zeroed (img.take e) 0x20 32) 0xFC 4)
/-- The signature check of TK-DN424-K (R139). -/
def signed (img : List Byte) : Bool :=
  match sectBytes img 7 with
  | none => false
  | some bs => decide (sha256 (bs.take 32) = (upFrom 0 32).map Config.fusedDigest)
      && ed25519 (bs.take 32) (slice bs 32 64) (digestField img)
/-- What a slot that passed gives. -/
def imageOf (img : List Byte) : Image :=
  { entry := BitVec.ofNat 24 (field img 0x10 4), stack := BitVec.ofNat 24 (field img 0x14 4),
    vpage := ((sections img).find? (fun x => x.typ = 3)).elim 0 (fun x => x.load / 1024), digest := digestField img,
    patch := (sectBytes img 4).map patchOf, attr := (sectBytes img 3).elim [] attrStore, setup := sectBytes img 5,
    cal := sectBytes img 6 }

/-! ### Rounds and their records (R140, R142) -/

/-- A class 0x0C record of a round: queued at once in the first round, else kept until the round's outcome is known. -/
def Mach.bootRecord (m : Mach) (d : BitVec 32) : Mach :=
  let m := { m with ch.boot.round := m.ch.boot.round ++ [d] }
  if m.ch.boot.prev.isNone then m.report 0x0C#6 false false d else m
/-- Queue records kept. -/
def Mach.bootFlush (m : Mach) : List (BitVec 32) → Mach
  | [] => m
  | d :: r => (m.report 0x0C#6 false false d).bootFlush r
/-- Both slots have failed: the channel waits for the next round. -/
def Mach.roundFailed (m : Mach) : Mach :=
  let b := m.ch.boot
  let m := if b.prev.isSome && b.prev ≠ some b.round then m.bootFlush b.round else m
  { m with ch.boot := { b with stage := .failed, prev := some b.round, round := [], order := [], flash := none, waited := 0, gone := 0#2 } }
/-- The slot under way fails with a result. -/
def Mach.slotFailed (m : Mach) (result : BitVec 3) (sect : Nat) : Mach :=
  let m := m.bootRecord (bootDetail m.ch.boot.slot result sect)
  match m.ch.boot.order with
  | [] => m.roundFailed
  | _ => { m with ch.boot.stage := .attempt }
/-- The flash is not found: both slots fail with result 5. -/
def Mach.noFlash (m : Mach) : Mach :=
  ((m.bootRecord (bootDetail 0 5#3 0)).bootRecord (bootDetail 1 5#3 0)).roundFailed
/-- The first mode of Table 6.1 that the flash and the CHn_BOOT level permit. -/
def pickMode (level : Nat) (modes : BitVec 6) : Option (Fin 6) :=
  ([0, 1, 2, 3, 4, 5] : List (Fin 6)).find? (fun i => level ≤ i.val && bit modes i.val)
/-- FLASH_DISCOVERY (R131): a flash with the JESD216 signature, a density in Mbit and the modes of Table 6.1 it supports. -/
def Mach.discover (m : Mach) (found : Bool) (density : BitVec 16) (modes : BitVec 6) : Mach :=
  if m.ch.life.cond = .booting && m.ch.boot.stage = .discover then
    let m := { m with ch.life.taken.flash := true }
    match pickMode m.ch.straps[4].level.toNat modes with
    | some k =>
      if found && 64#16 ≤ density && density ≤ 2048#16 then
        { m with ch.boot := { m.ch.boot with stage := .attempt, flash := some (density, k) } }
      else m.noFlash
    | none => m.noFlash
  else m
/-- FLASH_DISCOVERY. -/
def execFlashDiscovery (c : Chan) (found : Bool) (density : BitVec 16) (modes : BitVec 6) (s : State) : Out :=
  .next (s.onMach c (fun m => m.discover found density modes))
/-- The flash is not found for a slot whose header is being read: the slot fails with result 5 for this round. Which of the slots still
to read that is, the command does not say: a free value picks it. (DESIGN CHOICE, safe: log 67.) -/
def Mach.headerTimeout (m : Mach) : Mach :=
  let r := if m.ch.boot.gone = 0#2 then m.draw 2 else (if m.ch.boot.gone = 1#2 then 1 else 0, m)
  let s : Fin 2 := if r.1 = 1 then 1 else 0
  let m := r.2.bootRecord (bootDetail s 5#3 0)
  let m := { m with ch.boot.gone := setBit m.ch.boot.gone s.val true }
  if m.ch.boot.gone = 3#2 then m.roundFailed else m
/-- FLASH_TRANSACTION_TIMEOUT (R132): flash not found for the slot being read, or for both while the JESD216 table is read. -/
def Mach.flashTimeout (m : Mach) : Mach :=
  if m.ch.life.cond = .booting then
    match m.ch.boot.stage with
    | .discover => m.noFlash
    | .attempt => if m.ch.boot.order.isEmpty then m.headerTimeout else m
    | .load => m.slotFailed 5#3 0
    | _ => m
  else m
/-- FLASH_TRANSACTION_TIMEOUT. -/
def execFlashTransactionTimeout (c : Chan) (s : State) : Out := .next (s.onMach c Mach.flashTimeout)
/-- Bytes of a slot: half the density (R133). -/
def Boot.slotSize (b : Boot) : Nat := match b.flash with | some f => f.1.toNat * 65536 | none => 0
/-- The attempt count of a slot. -/
def Boot.att (b : Boot) (s : Fin 2) : BitVec 4 := if s = 0 then b.att0 else b.att1
/-- The slot order (R140); a slot whose header could not be read is not sound. -/
def slotOrder (b : Boot) (h0 h1 : List Byte) (cells : Nat) : List (Fin 2) :=
  let hv (s : Fin 2) : Bool := !bit b.gone s.val && sound (if s = 0 then h0 else h1) b.slotSize cells
  let ver (s : Fin 2) : Nat := imgVer (if s = 0 then h0 else h1)
  let l : Fin 2 := b.goodSlot.getD 0
  let o : Fin 2 := if l = 0 then 1 else 0
  if !b.known then [0, 1]
  else if b.att o < 3#4 && hv o && (!hv l || decide (ver l < ver o) || 3#4 ≤ b.att l) then [o, l]
  else [l, o]
/-- SLOT_ATTEMPT: the next slot of the order is attempted: the boot record is requested and result 0 recorded (R140). -/
def Mach.attempt (m : Mach) (h0 h1 : List Byte) : Mach :=
  if m.ch.life.cond = .booting && m.ch.boot.stage = .attempt && !m.ch.led.scan then
    let b := m.ch.boot
    let order := if b.order.isEmpty then slotOrder b h0 h1 m.ch.memCells else b.order
    match order.filter (fun s => !bit b.gone s.val) with
    | [] => m
    | s :: rest =>
      let second := !b.order.isEmpty || decide (order.head? ≠ some s)
      let b := { b with
        stage := .load, order := rest, slot := s, second := second, known := true, lastTried := s
        att0 := if s = 0 then satInc b.att0 else b.att0, att1 := if s = 1 then satInc b.att1 else b.att1 }
      ({ m with ch.boot := b }.request .boot).bootRecord (bootDetail s 0#3 0)
  else m
/-- SLOT_ATTEMPT. -/
def execSlotAttempt (c : Chan) (hdr0 hdr1 : List Byte) (s : State) : Out := .next (s.onMach c (fun m => m.attempt hdr0 hdr1))
/-- A slot has passed every check. -/
def Mach.slotPassed (m : Mach) (img : List Byte) : Mach :=
  let b := m.ch.boot
  let m := if b.prev.isSome then m.bootFlush b.round else m
  let m := { m with ch.boot := { m.ch.boot with stage := .passed, image := some (imageOf img), round := [], prev := none } }
  if b.second then m.report 0x0C#6 false false (bootDetail b.slot 6#3 0) else m
/-- SLOT_LOAD: the attempted slot is loaded and verified once its boot record has committed and memory is trained (R136-R140). (DEDUCED, unsafe: log 44.) -/
def Mach.slotLoad (m : Mach) (join : Bool) (img : List Byte) : Mach :=
  if m.ch.life.cond = .booting && m.ch.boot.stage = .load && m.ch.mc.trained && !m.ch.led.owes .boot then
    if !sound img m.ch.boot.slotSize m.ch.memCells then m.slotFailed 2#3 0xFFFF
    else match m.loadSections img (!join) 0 (sections img) with
      | (some i, m) => m.slotFailed 2#3 i
      | (none, m) =>
        if imageDigest img ≠ digestField img then m.slotFailed 3#3 0
        else if Config.keyFused && !signed img then m.slotFailed 4#3 0
        else m.slotPassed img
  else m
/-- Whether a channel boots to join a partner that runs without a standby (R421). -/
def State.joins (s : State) (c : Chan) : Bool :=
  match s.partner c with
  | some p => decide ((s.chan p).life.cond = .running)
  | none => false
/-- SLOT_LOAD. -/
def execSlotLoad (c : Chan) (image : List Byte) (s : State) : Out := .next (s.onMach c (fun m => m.slotLoad (s.joins c) image))
/-- Slow-clock periods from a failed round to the next (R142). -/
def retryPeriod : Nat := 327680
/-- BOOT_RETRY: the next round begins, 327,680 slow-clock periods after the failed one (R142). -/
def execBootRetry (c : Chan) (s : State) : Out :=
  .next (s.onMach c (fun m =>
    if m.ch.life.cond = .booting && m.ch.boot.stage = .failed && retryPeriod ≤ m.ch.boot.waited then { m with ch.boot.stage := .discover } else m))

/-! ### Applying the image and forming a pair (R143, R149, R401) -/

/-- A port of the square. -/
def Mach.port (m : Mach) : Port := m.sq.ports[m.c]
/-- Replace the channel's port. -/
def Mach.setPort (m : Mach) (p : Port) : Mach := { m with sq.ports := m.sq.ports.set m.c p }
/-- Steps 1 to 4 of R143. -/
def Mach.applyImage (m : Mach) (i : Image) (setup : Bool) : Mach :=
  let m := { m with
    ch.core := m.ch.core.map (fun (k : Core) => k.loadPatch i.patch)
    ch.proc := { m.ch.proc with
      ucver := (Config.romRev ++ (i.patch.map Patch.ident).getD 0#16 : BitVec 24)
      vbase := BitVec.ofNat 24 i.vpage, attr := i.attr } }
  let m := if setup && !m.sq.failed then m.setPort (m.port.applySetup i.setup) else m
  (m.applyCal i.cal)
/-- The channel's role in a forming pair is taken: pair record and class 0x0E record of kind 0 or 1. -/
def Mach.takeRole (m : Mach) (r : Role) (epoch : BitVec 24) : Mach :=
  let m := { m with ch.pair := { m.ch.pair with role := r, epoch := epoch, formation := true, linkUp := true, recTime := m.ch.clk.tb.toNat, lastCommit := m.ch.clk.tb.toNat } }
  let m := m.request .pair
  m.report 0x0E#6 false false ((if r = .standby then 1#4 else 0#4) ++ 0#4 ++ epoch : BitVec 32)
/-- Whether channel c is the winner of R401 over its partner. -/
def winsRole (a b : Pair) (even : Bool) : Bool :=
  if a.recRole = 1#2 && b.recRole = 1#2 then
    (if newer a.recEpoch b.recEpoch then true else if newer b.recEpoch a.recEpoch then false else even)
  else if a.recRole = 1#2 then true
  else if b.recRole = 1#2 then false
  else even
/-- Whether a channel's slot has passed, with its boot record committed. -/
def Channel.readyToForm (ch : Channel) : Bool :=
  decide (ch.life.cond = .booting) && (decide (ch.boot.stage = .passed) || decide (ch.boot.stage = .applied)) && !ch.led.owes .boot
/-- The digests of the images two channels would run are equal. -/
def sameDigest (a b : Channel) : Bool := decide (a.boot.image.map (fun i => i.digest) = b.boot.image.map (fun i => i.digest))
/-- The channel runs without a partner (R149): event 46 at its first instruction. -/
def Mach.goAlone (m : Mach) : Mach := { m with ch.pair.role := .alone, ch.life.alone46 := true }
/-- The comparison of R149 and the formation of R401 for two channels whose slots have passed. -/
def State.form (s : State) (c p : Chan) : State :=
  let a := s.chan c
  let b := s.chan p
  let win := winsRole a.pair b.pair (c.val % 2 = 0)
  let w := if win then c else p
  let l := if win then p else c
  if sameDigest a b then
    let e := (s.chan w).pair.recEpoch
    (s.onMach w (fun m => m.takeRole .active e)).onMach l (fun m => m.takeRole .standby e)
  else (s.onMach w Mach.goAlone).onMach l (fun m => m.hold 1#32)
/-- Apply a passed image; a standby then takes its role without issuing (R143, R403). -/
def Mach.imageApply (m : Mach) : Mach :=
  match m.ch.boot.image with
  | none => m
  | some i =>
    let sb := decide (m.ch.pair.role = .standby)
    let m := m.applyImage i (!sb)
    let m := { m with ch.boot.stage := .applied }
    if sb then { m with ch.life := { m.ch.life with cond := .standby, faultN := true } } else m
/-- Whether an image can be applied: the slot has passed and its boot record has committed. -/
def Channel.canApply (ch : Channel) : Bool :=
  decide (ch.life.cond = .booting) && decide (ch.boot.stage = .passed) && !ch.led.owes .boot
/-- IMAGE_APPLY. -/
def State.imageApply (s : State) (c : Chan) : State :=
  if !(s.chan c).canApply then s
  else
    let go (s : State) : State := s.onMach c (fun m => if m.ch.canApply then m.imageApply else m)
    match s.partner c with
    | none => go s
    | some p =>
      let r := (s.chan c).pair.role
      if r ≠ .independent then go s
      else
        let q := s.chan p
        if q.life.cond = .running then
          if sameDigest (s.chan c) q then
            s.onMach c (fun m =>
              let m := m.applyImage (m.ch.boot.image.getD (imageOf [])) false
              { m with ch.boot.stage := .applied, ch.pair.role := .joining })
          else s.onMach c (fun m => m.hold 1#32)
        else if q.absent then go (s.onMach c Mach.goAlone)
        else if q.readyToForm then go (s.form c p)
        else s
/-- IMAGE_APPLY. -/
def execImageApply (c : Chan) (s : State) : Out := .next (s.imageApply c)

/-! ### The first instruction (R123, R146) -/

/-- Thread 0 at the first instruction. -/
def bootThread (entry stack : VAddr) : Thread := { threadReset with pc := entry, pstate := 1#24, spS := loc stack, status := .running }
/-- The channel begins to execute: thread 0 at ENTRY in supervisor mode, the watchdog starts, CHn_FAULT_N is released, the port's
counters start at 0 and its last-gasp frames are armed (R434, R442). -/
def Mach.firstInstruction (m : Mach) : Mach :=
  match m.ch.boot.image with
  | none => m
  | some i =>
    if m.ch.life.cond = .booting && m.ch.boot.stage = .applied && m.ch.pair.role ≠ .standby && m.ch.pair.role ≠ .joining then
      let m := { m with
        ch.life := { m.ch.life with cond := .running, power := .run, faultN := true, alone46 := false }
        ch.thr := (Vector.replicate 8 threadReset).set 0 (bootThread i.entry i.stack)
        ch.clk := { m.ch.clk with wdRun := true, wdCount := 0, wdWarned := false }
        ch.pair.recTime := m.ch.clk.tb.toNat }
      let m := m.setPort { m.port with seqI := 0#16, seqC := 0#16, armed := true,
                                       snap := { seqI := 0#16, seqC := 0#16, stmac := m.port.stmac } }
      m
    else m
/-- FIRST_INSTRUCTION; event 46 with ADDR FIX 3 for a channel left without a partner (R420). -/
def execFirstInstruction (c : Chan) (s : State) : Out :=
  .next (s.onMach c (fun m =>
    let alone := m.ch.life.alone46
    let n := m.firstInstruction
    if alone && !n.ch.life.alone46 then n.raise 46 (fixN 3) else n))

end Sys2Proof.Machine
end

