-- ==== Sys2Proof/Machine/Flags.lean ====
section
/-! DEFINITION. Results that set or test a condition: FIX overflow, canonical integers, the accumulator (R197, R217, R235, R236). -/
namespace Sys2Proof.Machine

/-- How an integer result is delivered (R217). -/
inductive IntRes where
  | fix (v : Cell)
  /-- bits 47:24 and 23:0 of a new INT48 box -/
  | box (hi lo : Payload)
  | overflow
  deriving DecidableEq, Repr
/-- The canonical form of an integer (R217). -/
def canonical (i : Int) : IntRes :=
  if inFix i then .fix (fixI i)
  else if -140737488355328 ≤ i && i ≤ 140737488355327 then
    let w : BitVec 48 := BitVec.ofInt 48 i
    .box (w.extractLsb' 24 24) (w.extractLsb' 0 24)
  else .overflow
/-- The accumulator's largest value, 2^55 - 1. -/
abbrev accMax : Int := 36028797018963967
/-- The accumulator's least value, -2^55. -/
abbrev accMin : Int := -36028797018963968
/-- Whether an exact sum lies in the accumulator's range (R235). -/
def inAcc (i : Int) : Bool := accMin ≤ i && i ≤ accMax
/-- The exact sum of a MAC or MACS. -/
def macSum (acc : BitVec 56) (a b : Payload) (sub : Bool) : Int :=
  if sub then acc.toInt - fixInt a * fixInt b else acc.toInt + fixInt a * fixInt b
/-- The accumulator after MACS saturates (R235). -/
def accSat (i : Int) : BitVec 56 := if i < 0 then BitVec.ofInt 56 accMin else BitVec.ofInt 56 accMax
/-- The integer ACCGET delivers: ⌊(ACC + h) / 2^s⌋ (R236). -/
def accGetInt (acc : BitVec 56) (s : Nat) : Int := (acc.toInt + (if s = 0 then 0 else 2 ^ (s - 1))) / 2 ^ s

end Sys2Proof.Machine
end

