-- ==== Sys2Proof/Machine/Display.lean ====
section
/-! DEFINITION. The display engine: link training, AUX, hot plug, planes, self refresh, and the composed pixel (20). -/
namespace Sys2Proof.Machine

/-- The offset of a register of page 0x30. -/
def dReg (o : Nat) : Nat := 0xC000 + o
/-- Whether the display engine is on (R447). -/
def Channel.dispOn (ch : Channel) : Bool := decide (ch.straps[7].level ≠ 0#3)
/-- Raise a display vector where its enable bit of DCTL is set. -/
def Mach.dispRaise (m : Mach) (v : Nat) (addr : Cell) : Mach := m.raiseIf (winBit m.ch (dReg 0) (v - 120)) v addr
/-- The ceilings of the CHn_DISP level as RATE and LANES codes (Table 3.4). -/
def dispCeiling (level : Nat) : BitVec 2 × BitVec 2 :=
  match level with
  | 1 => (1#2, 0#2)
  | 2 => (1#2, 1#2)
  | 3 => (2#2, 1#2)
  | 4 => (1#2, 2#2)
  | 5 => (2#2, 2#2)
  | _ => (2#2, 0#2)
/-- The lower of two codes. -/
def lowest (a b : BitVec 2) : BitVec 2 := if a < b then a else b

/-! ### Changes and self refresh (R457, R458) -/

/-- The engine leaves self refresh. -/
def Mach.psrExit (m : Mach) : Mach :=
  if m.ch.disp.psr then { m with ch.disp := { m.ch.disp with psr := false, unchanged := 0 } }.dispRaise 133 fix0 else m
/-- A change. -/
def Mach.dispChange (m : Mach) : Mach := { m.psrExit with ch.disp.unchanged := 0 }
/-- DCTL_DIRTY: a store of DCTL.DIRTY. -/
def execDctlDirty (c : Chan) (s : State) : Out := .next (s.programStore c 0x30 (fun m => if m.ch.dispOn then m.dispChange else m))
/-- Whether display frames are sent (R449). -/
def Channel.framing (ch : Channel) : Bool := ch.dispOn && ch.disp.dlres = 0#3 && winBit ch (dReg 0) 0 && !ch.disp.psr
/-- Scan-out stops: no read of the frame under way is made any more. -/
def Mach.scanOff (m : Mach) : Mach := { m with ch.disp.scan := none }
/-- PSR_ENTRY: after DPSR.N unchanged frames the engine enters self refresh and stops scan-out reads. -/
def Mach.psrEntry (m : Mach) : Mach :=
  let r := winGet m.ch (dReg 10)
  if m.ch.framing && bit r 23 && max 1 (bits r 0 8) ≤ m.ch.disp.unchanged && m.fastOn then
    { (m.bumpC 53).scanOff with ch.disp.psr := true }.dispRaise 133 (fixN 1)
  else m
/-- PSR_ENTRY. -/
def execPsrEntry (c : Chan) (s : State) : Out := .next (s.onMach c Mach.psrEntry)

/-! ### Link, AUX and hot plug (R448-R451) -/

/-- Whether a timing is within its limits (R452). -/
def timingOk (t : Vector Payload 5) : Bool :=
  let axis (a b : Payload) (top : Nat) : Bool :=
    1 ≤ bits a 0 12 && bits a 0 12 ≤ top && bits a 0 12 ≤ bits b 0 12 && bits b 0 12 + bits b 12 12 < bits a 12 12
  25000 ≤ bits t[0] 0 18 && bits t[0] 0 18 ≤ 165000 && axis t[1] t[2] 1920 && axis t[3] t[4] 1200
/-- The timing registers. -/
def Channel.timingRegs (ch : Channel) : Vector Payload 5 := Vector.ofFn (fun i : Fin 5 => winGet ch (dReg (4 + i.val)))
/-- kbit/s of a RATE code and the lanes of a LANES code. -/
def linkRate (rate lanes : BitVec 2) : Nat :=
  (if rate = 0#2 then 1620000 else if rate = 1#2 then 2700000 else 5400000) * 2 ^ (min 2 lanes.toNat)
/-- A store of DLINK with START = 1; the timing writes take effect. -/
def Mach.linkStart (m : Mach) (rate lanes : BitVec 2) : Mach :=
  if m.ch.dispOn then
    let m := { m.scanOff with ch := winPut m.scanOff.ch (dReg 2) (0#20 ++ rate ++ lanes : BitVec 24) }
    { m with ch.disp := { m.ch.disp with training := some (rate, lanes), dlres := 1#3, timing := m.ch.timingRegs } }
  else m
/-- LINK_TRAINING. -/
def execLinkTraining (c : Chan) (rate lanes : BitVec 2) (s : State) : Out := .next (s.programStore c 0x30 (fun m => m.linkStart rate lanes))
/-- LINK_TRAINING_DONE: the result with the lanes and rate the panel trained at; HPD low gives result 1, and a link too slow for the
timing result 4 (R449). -/
def Mach.linkDone (m : Mach) (result : BitVec 3) (lanes rate : BitVec 2) : Mach :=
  match m.ch.disp.training with
  | none => m
  | some (rr, rl) =>
    let cl := dispCeiling m.ch.straps[7].level.toNat
    let rate := lowest (lowest rate rr) cl.1
    let lanes := lowest (lowest lanes rl) cl.2
    let fits := decide (bits m.ch.disp.timing[0] 0 18 * 24 * 10 ≤ linkRate rate lanes * 8)
    let res : BitVec 3 := if !m.ch.disp.hpd then 1#3 else if result = 0#3 || result = 4#3 then (if fits then 0#3 else 4#3) else result
    let m := { m with ch.disp := { m.ch.disp with training := none, dlres := res, lanes := lanes, rate := rate } }
    m.dispRaise 128 (fix (res.setWidth 24))
/-- LINK_TRAINING_DONE. -/
def execLinkTrainingDone (c : Chan) (result : BitVec 3) (lanes rate : BitVec 2) (s : State) : Out :=
  .next (s.onMach c (fun m => if m.fastOn then m.linkDone result lanes rate else m))
/-- A store of AUXCTL.START := 1; ignored while BUSY is 1. -/
def Mach.auxStart (m : Mach) (op : BitVec 2) (mot : Bool) (len : BitVec 4) : Mach :=
  if m.ch.dispOn && m.ch.disp.aux.isNone then
    let m := { m with ch := winPut m.ch (dReg 0x31) (0#1 ++ op ++ BitVec.ofBool mot ++ 0#16 ++ len : BitVec 24) }
    { m with ch.disp.aux := some (op, len) }
  else m
/-- AUX_TRANSACTION. -/
def execAuxTransaction (c : Chan) (op : BitVec 2) (mot : Bool) (len : BitVec 4) (s : State) : Out :=
  .next (s.programStore c 0x30 (fun m => m.auxStart op mot len))
/-- Bytes into consecutive registers of three bytes each. -/
def putBytes3 (ch : Channel) (o : Nat) : List Payload → Channel
  | [] => ch
  | p :: r => putBytes3 (winPut ch o p) (o + 1) r
/-- AUX_DONE: the result, the data of an acknowledged read, vector 129. -/
def Mach.auxDone (m : Mach) (result : BitVec 2) (reply : List Byte) : Mach :=
  match m.ch.disp.aux with
  | none => m
  | some (op, len) =>
    let rd := bit op 0 && result = 0#2
    let m := if rd then { m with ch := putBytes3 m.ch (dReg 0x34) (pack3 (reply.take (len.toNat + 1))) } else m
    let m := { m with ch.disp := { m.ch.disp with aux := none, auxResult := result } }
    m.dispRaise 129 (fix (result.setWidth 24))
/-- AUX_DONE. -/
def execAuxDone (c : Chan) (result : BitVec 2) (reply : List Byte) (s : State) : Out :=
  .next (s.onMach c (fun m => if m.fastOn then m.auxDone result reply else m))
/-- HPD: kind 0 unplugged, 1 plugged, 2 IRQ_HPD; a shorter pulse (3) is ignored (R451). (DEDUCED, unsafe: log 54.) -/
def Mach.hpdEvent (m : Mach) (kind : BitVec 2) : Mach :=
  if !m.ch.dispOn || kind = 3#2 || m.ch.life.cond ≠ .running then m
  else
    let m := if kind = 0#2 then { m.scanOff with ch.disp := { m.ch.disp with hpd := false, dlres := 1#3 } }
      else if kind = 1#2 then { m with ch.disp.hpd := true } else m
    let m := if kind = 1#2 then m else m.psrExit
    m.dispRaise 131 (fix (kind.setWidth 24))
/-- HPD. -/
def execHpd (c : Chan) (kind : BitVec 2) (s : State) : Out := .next (s.onMach c (fun m => m.hpdEvent kind))

/-! ### Planes (R453-R456) -/

/-- The plane registers as written. -/
def Channel.planeRegs (ch : Channel) (p : Fin 4) : Plane :=
  let g (i : Nat) : Payload := winGet ch (dReg (0x10 + 8 * p.val + i))
  { ctl := g 0, base := g 1, stride := g 2, pos := g 3, size := g 4, col := g 5 }
/-- Pixels per cell of a plane's format. -/
def Plane.perCell (p : Plane) : Nat := if bits p.ctl 1 2 = 0 then 1 else 3
/-- The physical address of the cell that holds pixel (x, y) of a plane, both counted from the plane's corner. -/
def Plane.cellAddr (p : Plane) (x y : Nat) : Nat := bits p.base 0 23 * 256 + y * bits p.stride 0 16 + x / p.perCell
/-- Whether a plane covers a pixel of the active area. -/
def Plane.covers (p : Plane) (x y : Nat) : Bool :=
  bit p.ctl 0 && bits p.ctl 1 2 ≠ 3 && bits p.pos 0 12 ≤ x && x < bits p.pos 0 12 + bits p.size 0 12
    && bits p.pos 12 12 ≤ y && y < bits p.pos 12 12 + bits p.size 12 12
/-- The key of a cell of a plane's row in its line buffer. -/
def bufKey (row cell : Nat) : Nat := 4096 * row + cell
/-- Colour and pixel alpha of plane i at an active pixel it covers, from its line buffer; none is transparent: a cell that lies beyond
populated memory, was delivered as PSN, or has not arrived in time (R454, R456). -/
def Mach.planePixel (m : Mach) (i : Fin 4) (x y : Nat) : Option (Payload × Nat) :=
  let p := m.ch.disp.planes[i]
  let dx := x - bits p.pos 0 12
  match mapGet m.ch.disp.lines[i] (bufKey (y - bits p.pos 12 12) (dx / p.perCell)) with
  | none => none
  | some v =>
    if cellTag v = tPSN then none
    else
      let b := bits v (8 * (dx % 3)) 8
      if bits p.ctl 1 2 = 0 then some (cellPay v, 255)
      else if bits p.ctl 1 2 = 1 then some (mapAt 0#24 m.ch.disp.palette b, if b = 0 && bit p.ctl 3 then 0 else 255)
      else some (p.col, b)
/-- One colour component over another (R455). -/
def blend (galpha pa src out : Nat) : Nat :=
  let a := (galpha * pa + 127) / 255
  (src * a + out * (255 - a) + 127) / 255
/-- A plane over a colour. -/
def Mach.overPlane (m : Mach) (x y : Nat) (out : Payload) (i : Fin 4) : Payload :=
  let p := m.ch.disp.planes[i]
  if p.covers x y then
    match m.planePixel i x y with
    | none => out
    | some (src, pa) =>
      let f (lo : Nat) : BitVec 8 := BitVec.ofNat 8 (blend (bits p.ctl 8 8) pa (bits src lo 8) (bits out lo 8))
      (f 16 ++ f 8 ++ f 0 : BitVec 24)
  else out
/-- The output pixel at an active position: DBG, then planes 0 to 3 in order (R455). -/
def Mach.pixel (m : Mach) (x y : Nat) : Payload := ([0, 1, 2, 3] : List (Fin 4)).foldl (m.overPlane x y) (winGet m.ch (dReg 9))
/-- Cells of a row of a plane that lie in the active area. -/
def Channel.rowCells (ch : Channel) (p : Plane) : Nat :=
  ceilDiv (min (bits p.size 0 12) (bits ch.disp.timing[1] 0 12 - bits p.pos 0 12)) p.perCell
/-- Lines that a plane reads for an active row: none where it is off, reserved or does not reach the row (R453). -/
def Channel.rowLines (ch : Channel) (p : Plane) (y : Nat) : Nat :=
  if bit p.ctl 0 && bits p.ctl 1 2 ≠ 3 && bits p.pos 12 12 ≤ y && y < bits p.pos 12 12 + bits p.size 12 12 then ceilDiv (ch.rowCells p) 16
  else 0
/-- The active rows of a frame. -/
def Channel.activeRows (ch : Channel) : Nat := bits ch.disp.timing[3] 0 12
/-- The first read of the frame at or after a position, n steps ahead at most. -/
def Channel.seekScan (ch : Channel) : Nat → ScanPos → Option ScanPos
  | 0, _ => none
  | n + 1, q =>
    if ch.activeRows ≤ q.row then none
    else if q.k < ch.rowLines ch.disp.planes[q.plane] q.row then some q
    else ch.seekScan n (if q.plane = 3 then { row := q.row + 1, plane := 0, k := 0 } else { q with plane := q.plane + 1, k := 0 })
/-- The next read of the frame under way. -/
def Channel.nextScan (ch : Channel) : Option ScanPos := ch.disp.scan.bind (ch.seekScan (4 * ch.activeRows + 1))
/-- Active rows already scanned out, from the time since the vertical start, the pixel clock and HTOT. -/
def Channel.beamRow (ch : Channel) : Nat :=
  (ch.clk.tb.toNat - ch.disp.vstart) * (bits ch.disp.timing[0] 0 18 * 1000) / 32768 / bits ch.disp.timing[1] 12 12
    - (bits ch.disp.timing[3] 12 12 - ch.activeRows)
/-- Whether the plane's line buffer of 4,096 cells has room for a read (R456). (DESIGN CHOICE, unsafe: log 69.) -/
def Channel.bufferRoom (ch : Channel) (q : ScanPos) : Bool :=
  decide ((q.row - ch.beamRow) * ch.rowCells ch.disp.planes[q.plane] + 16 * q.k + 16 ≤ 4096)
/-- The hint of a display read: OPEN, but CLOSE for the last of a scan line and the last of a memory row (R373). (DESIGN CHOICE, unsafe:
log 69.) -/
def Channel.scanHint (ch : Channel) (q : ScanPos) (line : Nat) : BitVec 2 :=
  if q.k + 1 = ch.rowLines ch.disp.planes[q.plane] q.row || burstOf (ch.split (line * 16)).2 = 63 then 2#2 else 1#2
/-- The last n entries of a list. -/
def lastN {α : Type} (n : Nat) (l : List α) : List α := l.drop (l.length - n)
/-- One display read: the line enters the pool through the real-time port, its cells enter the line buffer, and those delivered as PSN are
counted in DPSN; a line beyond populated memory is not read (R369, R453, R454). -/
def Mach.scanRead (m : Mach) (q : ScanPos) : Mach :=
  let p := m.ch.disp.planes[q.plane]
  let y := q.row - bits p.pos 12 12
  let a := p.cellAddr 0 y + 16 * q.k
  let m := { m with ch.disp.scan := some { q with k := q.k + 1 } }
  if m.ch.place a ≠ .memory then m
  else
    let r := (m.bumpC 27).lineRead (a / 16) .display .read (m.ch.scanHint q (a / 16)) false
    let cells := (r.1.toList.take (m.ch.rowCells p - 16 * q.k)).zipIdx
    let m := r.2
    let buf := lastN 4096 (cells.foldl (fun b e => mapPut b (bufKey y (16 * q.k + e.2)) e.1) m.ch.disp.lines[q.plane])
    let psn := (cells.filter (fun e => cellTag e.1 = tPSN)).length
    { m with ch := { winPut m.ch (dReg 13) (satAdd (winGet m.ch (dReg 13)) psn) with
      disp := { m.ch.disp with lines := m.ch.disp.lines.set q.plane buf } } }
/-- The display engine presents its next read while its partition of the pool has a free entry and its buffer has room. -/
def Mach.scanOut (m : Mach) : Mach :=
  if m.ch.framing && m.fastOn then
    match m.ch.nextScan with
    | none => m
    | some q => if m.ch.mc.free .display && m.ch.bufferRoom q then m.scanRead q else m
  else m
/-- The reads of a frame that are still to be made when it ends, n at most. -/
def Mach.scanRest (m : Mach) : Nat → Mach
  | 0 => m.scanOff
  | n + 1 => match m.ch.nextScan with
    | none => m.scanOff
    | some q => (m.scanRead q).scanRest n
/-- VERTICAL_START: the reads of the frame that ends have all been made; planes and palette are latched, the frame that follows begins,
vector 132 (R453, R454, R457). (DESIGN CHOICE, unsafe: log 69.) -/
def Mach.verticalStart (m : Mach) : Mach :=
  if m.ch.framing && m.fastOn then
    let m := m.scanRest (4 * 128 * m.ch.activeRows)
    let d := m.ch.disp
    let m := { m.bumpC 51 with ch.disp := { d with
      planes := Vector.ofFn (fun p : Fin 4 => m.ch.planeRegs p), flip := 0#4
      palette := (upFrom 0 256).filterMap (fun i =>
        let v := winGet m.ch (0xC400 + i)
        if v = 0#24 then none else some (i, v))
      unchanged := d.unchanged + 1, scan := some { row := 0, plane := 0, k := 0 }, vstart := m.ch.clk.tb.toNat
      lines := Vector.replicate 4 [] } }
    m.dispRaise 132 fix0
  else m
/-- VERTICAL_START. -/
def execVerticalStart (c : Chan) (s : State) : Out := .next (s.onMach c Mach.verticalStart)
/-- UNDERRUN: a scan line whose cells have not arrived in time on the planes of a mask (R456). -/
def Mach.underrun (m : Mach) (planes : BitVec 4) : Mach :=
  let on : BitVec 4 := (List.range 4).foldl (fun a p => if bit (m.ch.disp.planes.toList.getD p (m.ch.planeRegs 0)).ctl 0 then setBit a p true else a) 0#4
  let hit := planes &&& on
  if m.ch.framing && hit ≠ 0#4 && m.fastOn then
    let m := m.bumpC 52
    { m with ch := winPut m.ch (dReg 12) (satInc (winGet m.ch (dReg 12))) }.dispRaise 130 (fix (hit.setWidth 24))
  else m
/-- UNDERRUN. -/
def execUnderrun (c : Chan) (planes : BitVec 4) (s : State) : Out := .next (s.onMach c (fun m => m.underrun planes))

/-! ### Windows (Table 20.2) -/

/-- A load of a register of page 0x30 or 0x31. -/
def Channel.dispLoad (ch : Channel) (o : Nat) : Payload :=
  if !ch.dispOn then 0#24
  else if o = 0xC001 then
    (BitVec.ofBool ch.disp.psr ++ 0#1 ++ BitVec.ofBool ch.disp.hpd ++ ch.disp.lanes ++ ch.disp.rate ++ 0#17 : BitVec 24)
  else if o = 0xC003 then ch.disp.dlres.setWidth 24
  else if o = 0xC00E then ch.disp.flip.setWidth 24
  else if o = 0xC032 then (BitVec.ofBool ch.disp.aux.isSome ++ 0#21 ++ ch.disp.auxResult : BitVec 24)
  else winGet ch o
/-- DSTAT.VLINE, the scan line under way, is a free value while frames are sent. (DESIGN CHOICE, safe: log 11.) -/
def Mach.dispRead (m : Mach) (o : Nat) : Payload × Mach :=
  if o = 0xC001 && m.ch.framing then
    let r := m.draw (max 1 (bits m.ch.disp.timing[3] 12 12))
    (m.ch.dispLoad o ||| BitVec.ofNat 24 (r.1 % 2048), r.2)
  else (m.ch.dispLoad o, m)
/-- Put a plane register and mark its plane for the latch. -/
def Mach.planeStore (m : Mach) (o : Nat) (v : Payload) : Mach :=
  let p := (o - 0xC010) / 8
  { m with ch := { winPut m.ch o v with disp := { m.ch.disp with flip := setBit m.ch.disp.flip p true } } }.dispChange
/-- The mask of a plane register by its place in the block. -/
def planeMask (i : Nat) : Payload :=
  match i with
  | 0 => 0x00FF0F#24
  | 1 => 0x7FFFFF#24
  | 2 => 0x00FFF0#24
  | _ => 0xFFFFFF#24
/-- A store of a register of page 0x30 or 0x31. -/
def Mach.dispStore (m : Mach) (o : Nat) (v : Payload) : Mach :=
  if !m.ch.dispOn then m
  else if o = 0xC000 then
    let en := bit v 0 && timingOk m.ch.timingRegs
    let m := if en then m else m.scanOff
    { m with ch := winPut m.ch o (setBit (v &&& 0x003F00#24) 0 en) }.dispChange
  else if o = 0xC002 then
    (if bit v 4 then m.linkStart (v.extractLsb' 2 2) (v.extractLsb' 0 2) else { m with ch := winPut m.ch o (v &&& 0xF#24) })
  else if o = 0xC004 then { m with ch := winPut m.ch o (v &&& 0x03FFFF#24) }.dispChange
  else if 0xC005 ≤ o && o ≤ 0xC008 then { m with ch := winPut m.ch o v }.dispChange
  else if o = 0xC009 then { m with ch := winPut m.ch o v }
  else if o = 0xC00A then
    let m := if bit v 23 then m else m.psrExit
    { m with ch := winPut m.ch o (v &&& 0x8000FF#24) }
  else if o = 0xC00B then { m with ch := winPut m.ch o (v &&& 0xFFF#24) }
  else if 0xC010 ≤ o && o < 0xC030 && (o - 0xC010) % 8 ≤ 5 then m.planeStore o (v &&& planeMask ((o - 0xC010) % 8))
  else if o = 0xC030 then { m with ch := winPut m.ch o (v &&& 0x0FFFFF#24) }
  else if o = 0xC031 then
    (if bit v 23 then m.auxStart (v.extractLsb' 21 2) (bit v 20) (v.extractLsb' 0 4)
     else { m with ch := winPut m.ch o (v &&& 0x70000F#24) })
  else if 0xC034 ≤ o && o ≤ 0xC039 then { m with ch := winPut m.ch o v }
  else if 0xC400 ≤ o && o < 0xC500 then { m with ch := winPut m.ch o v }.dispChange
  else m

end Sys2Proof.Machine
end

