-- ==== Sys2Proof/Machine/Panel.lean ====
section
/-! DEFINITION. Backlight, ambient light, keys, encoders, GPIO, buzzers and I²C (20). -/
namespace Sys2Proof.Machine

/-- Whether the always-on units of a running channel's panel work. -/
def Mach.panelOn (m : Mach) : Bool := decide (m.ch.life.cond = .running)

/-! ### Backlight (R459-R461) -/

/-- The derating limit of a code (R460). -/
def deratingLimit (code start full floor : Nat) : Nat :=
  if code < 4 then floor
  else if start ≤ full then 4095
  else if start ≤ code then 4095
  else if code ≤ full then floor
  else floor + (4095 - floor) * (code - full) / (start - full)
/-- The effective duty E. -/
def Channel.duty (ch : Channel) : Nat := min (bits (winGet ch 0x14002) 0 12) ch.panel.limit.toNat
/-- The PWM period in reference cycles and the high time (R459). -/
def Channel.pwm (ch : Channel) : Nat × Nat :=
  let f := max 200 (min 25000 (bits (winGet ch 0x14001) 0 15))
  let p := (50000000 + f) / (2 * f)
  (p, if winBit ch 0x14000 1 && ch.life.cond = .running then p * ch.duty / 4095 else 0)
/-- D of CHn_BL_DIM (R459); 0 V on a channel that does not run (R127). -/
def Channel.dim (ch : Channel) : Nat :=
  let d := bits (winGet ch 0x14003) 0 10
  if ch.life.cond ≠ .running then 0
  else if winBit ch 0x14000 2 then d * ch.panel.limit.toNat / 4095 else d
/-- NTC_MEASUREMENT: NTCRAW and the limit L; vector 232 for a short, vector 233 when L crosses 4,095. -/
def Mach.ntcMeasured (m : Mach) (code : BitVec 10) : Mach :=
  if !m.panelOn then m
  else
    let floor := bits (winGet m.ch 0x14008) 0 12
    let l := deratingLimit code.toNat (bits (winGet m.ch 0x14006) 0 10) (bits (winGet m.ch 0x14007) 0 10) floor
    let was := m.ch.panel.limit
    let m := { m with ch.panel := { m.ch.panel with limit := BitVec.ofNat 12 l, ntc := code } }
    let m := if code < 4#10 then m.raiseIf (winBit m.ch 0x14000 8) 232 (fix (code.setWidth 24)) else m
    if (was = 0xFFF#12) ≠ (l = 4095) then m.raiseIf (winBit m.ch 0x14000 9) 233 (fixN l) else m
/-- NTC_MEASUREMENT. -/
def execNtcMeasurement (c : Chan) (code : BitVec 10) (s : State) : Out := .next (s.onMach c (fun m => m.ntcMeasured code))
/-- AMBIENT_LIGHT_POLL: the poll's outcome and value; suspended in SLEEP. -/
def Mach.alsPoll (m : Mach) (ok : Bool) (value : BitVec 16) : Mach :=
  if m.panelOn && winBit m.ch 0x14009 23 && m.ch.life.power ≠ .sleep && m.ch.panel.i2c.isNone then
    if ok then
      let v : Payload := (1#1 ++ 0#7 ++ value : BitVec 24)
      { m with ch := winPut m.ch 0x1400A v }.raiseIf (winBit m.ch 0x14000 3) 216 (fix v)
    else { m with ch := winPut m.ch 0x1400A (setBit (winGet m.ch 0x1400A) 23 false) }
  else m
/-- AMBIENT_LIGHT_POLL. -/
def execAmbientLightPoll (c : Chan) (ok : Bool) (value : BitVec 16) (s : State) : Out :=
  .next (s.onMach c (fun m => m.alsPoll ok value))

/-! ### Keys (R462) -/

/-- A key event enters the queue, or is lost. -/
def Mach.keyEvent (m : Mach) (press : Bool) (k : Fin 64) : Mach :=
  let q := m.ch.panel.keyq
  if q.length < 16 then
    let m := { m with ch.panel.keyq := q ++ [(press, k)] }
    if q.isEmpty then m.raiseIf (winBit m.ch 0x16000 16) 168 fix0 else m
  else m.raiseIf (winBit m.ch 0x16000 17) 169 fix0
/-- One scan of the keys n, n + 1, …, k of them. (DEDUCED, unsafe: log 55.) -/
def Mach.scanKeys (m : Mach) (pressed : BitVec 64) : Nat → Nat → Mach
  | _, 0 => m
  | n, k + 1 =>
    let ctl := winGet m.ch 0x16000
    let m :=
      if bits ctl 4 3 < n / 8 || bits ctl 8 3 < n % 8 then m
      else if bit pressed n = bit m.ch.panel.keys n then { m with ch.panel.disagree := mapDel m.ch.panel.disagree n }
      else
        let cnt := mapAt 0 m.ch.panel.disagree n + 1
        if max 1 (bits ctl 12 4) ≤ cnt then
          let m := { m with ch.panel := { m.ch.panel with
            disagree := mapDel m.ch.panel.disagree n, keys := setBit m.ch.panel.keys n (bit pressed n) } }
          m.keyEvent (bit pressed n) (Fin.ofNat 64 n)
        else { m with ch.panel.disagree := mapPut m.ch.panel.disagree n cnt }
    m.scanKeys pressed (n + 1) k
/-- KEY_SCAN: one scan of the matrix while KCTL.EN is 1. -/
def execKeyScan (c : Chan) (pressed : BitVec 64) (s : State) : Out :=
  .next (s.onMach c (fun m => if m.panelOn && winBit m.ch 0x16000 0 then m.scanKeys pressed 0 64 else m))
/-- A load of KEVT: the oldest key event, popped; FIX 0 when the queue is empty. -/
def Mach.readKevt (m : Mach) : Payload × Mach :=
  match m.ch.panel.keyq with
  | [] => (0#24, m)
  | (p, k) :: r =>
    ((1#1 ++ BitVec.ofBool p ++ 0#16 ++ BitVec.ofNat 6 k.val : BitVec 24), { m with ch.panel.keyq := r })
/-- KEVT. -/
def execKevt (c : Chan) (s : State) : Out := .next (s.program c (fun m => m.readKevt.2))

/-! ### Encoders, GPIO, the wake pin and buzzers (R463-R465, R128) -/

/-- The step of one quadrature transition: +1 for A leading B. -/
def quadStep (a b a' b' : Bool) : Int :=
  if a ≠ a' then (if a' = b then -1 else 1) else if b ≠ b' then (if b' = a then 1 else -1) else 0
/-- ENCODER_TRANSITION: the lines of encoder e have been accepted at new levels. (DEDUCED, unsafe: log 55.) -/
def Mach.encoderMove (m : Mach) (e : Fin 4) (a b : Bool) : Mach :=
  let x := m.ch.panel.enc[e]
  let put (m : Mach) (x : Enc) : Mach := { m with ch.panel.enc := m.ch.panel.enc.set e x }
  if !(m.panelOn && winBit m.ch 0x1600C e.val) || (x.a = a && x.b = b) then m
  else if x.a ≠ a && x.b ≠ b then put m { x with a := a, b := b, err := satInc x.err }
  else
    let n := x.count + BitVec.ofInt 16 (quadStep x.a x.b a b)
    (put m { x with a := a, b := b, count := n }).raiseIf (winBit m.ch 0x1600C (4 + e.val)) (184 + e.val) (fix (n.setWidth 24))
/-- ENCODER_TRANSITION. -/
def execEncoderTransition (c : Chan) (e : Fin 4) (a b : Bool) (s : State) : Out := .next (s.onMach c (fun m => m.encoderMove e a b))
/-- GPIO_EDGE: a pin is sampled at a new level; an edge that GPEDGE selects raises vector 192 + pin. -/
def Mach.gpioEdge (m : Mach) (pin : Fin 8) (level : Bool) : Mach :=
  if !m.panelOn || bit m.ch.panel.gpin pin.val = level then m
  else
    let m := { m with ch.panel.gpin := setBit m.ch.panel.gpin pin.val level }
    m.raiseIf (winBit m.ch 0x16015 (2 * pin.val + if level then 0 else 1)) (192 + pin.val) (fixN (bnat level))
/-- GPIO_EDGE. -/
def execGpioEdge (c : Chan) (pin : Fin 8) (level : Bool) (s : State) : Out := .next (s.onMach c (fun m => m.gpioEdge pin level))
/-- WAKE_PIN_EDGE: a falling edge of CHn_WAKE_N raises event 223 where WAKEEN is set. -/
def execWakePinEdge (c : Chan) (s : State) : Out :=
  .next (s.onMach c (fun m => m.raiseIf (m.panelOn && winBit m.ch 0x0403 1) 223 fix0))
/-- The offset of a buzzer's block. -/
def bzReg (k : Fin 2) : Nat := 0x16018 + 3 * k.val
/-- A store of BZCTL(k) with START = 1. -/
def Mach.buzzerStart (m : Mach) (k : Fin 2) (duty : BitVec 8) : Mach :=
  { m with ch := { winPut m.ch (bzReg k) (duty.setWidth 24) with panel := { m.ch.panel with buz := setBit m.ch.panel.buz k.val true } } }
/-- A store of BZCTL(k).START := 0, or the end of BZDUR. -/
def Mach.buzzerStop (m : Mach) (k : Fin 2) : Mach := { m with ch.panel.buz := setBit m.ch.panel.buz k.val false }
/-- BUZZER_START. -/
def execBuzzerStart (c : Chan) (k : Fin 2) (duty : BitVec 8) (s : State) : Out := .next (s.programStore c 0x58 (fun m => m.buzzerStart k duty))
/-- BUZZER_STOP. -/
def execBuzzerStop (c : Chan) (k : Fin 2) (s : State) : Out := .next (s.programStore c 0x58 (fun m => m.buzzerStop k))
/-- BUZZER_DURATION_EXPIRY: BZDUR slow-clock periods have passed; BZDUR 0 sounds until stopped. -/
def execBuzzerDurationExpiry (c : Chan) (k : Fin 2) (s : State) : Out :=
  .next (s.onMach c (fun m => if m.panelOn && winGet m.ch (bzReg k + 2) ≠ 0#24 then m.buzzerStop k else m))

/-! ### I²C (R467) -/

/-- A store of I2CCMD with START = 1; ignored while BUSY is 1. -/
def Mach.i2cStart (m : Mach) (addr : BitVec 7) (wlen rlen : BitVec 4) : Mach :=
  if m.ch.panel.i2c.isNone then
    let m := { m with ch := winPut m.ch 0x18001 (0#1 ++ addr ++ 0#4 ++ wlen ++ 0#4 ++ rlen : BitVec 24) }
    { m with ch.panel.i2c := some rlen }
  else m
/-- I2C_TRANSACTION. -/
def execI2cTransaction (c : Chan) (addr : BitVec 7) (wlen rlen : BitVec 4) (s : State) : Out :=
  .next (s.programStore c 0x60 (fun m => m.i2cStart addr wlen rlen))
/-- I2C_DONE: the result, the bytes read, vector 224. -/
def Mach.i2cDone (m : Mach) (result : BitVec 3) (reply : List Byte) : Mach :=
  match m.ch.panel.i2c with
  | none => m
  | some rlen =>
    let m := if result = 0#3 then { m with ch := putBytes3 m.ch 0x18008 (pack3 (reply.take (min 8 rlen.toNat))) } else m
    let m := { m with ch.panel := { m.ch.panel with i2c := none, i2cResult := result } }
    m.raiseIf (winBit m.ch 0x18000 8) 224 (fix (result.setWidth 24))
/-- I2C_DONE. -/
def execI2cDone (c : Chan) (result : BitVec 3) (reply : List Byte) (s : State) : Out :=
  .next (s.onMach c (fun m => if m.fastOn then m.i2cDone result reply else m))

/-! ### Windows (Tables 20.3 to 20.5) -/

/-- A load of a register of pages 0x50, 0x58 and 0x60. -/
def Mach.panelLoad (m : Mach) (o : Nat) : Payload × Mach :=
  let ch := m.ch
  let x := ch.panel
  if o = 0x14004 then ((x.limit ++ BitVec.ofNat 12 ch.duty : BitVec 24), m)
  else if o = 0x14005 then (x.ntc.setWidth 24, m)
  else if o = 0x16001 then m.readKevt
  else if 0x16002 ≤ o && o ≤ 0x16004 then (((x.keys >>> (24 * (o - 0x16002))).setWidth 24), m)
  else if h : 0x16008 ≤ o ∧ o < 0x1600C then
    let e := x.enc[o - 0x16008]'(by omega)
    ((e.err ++ e.count : BitVec 24), m)
  else if o = 0x16014 then (x.gpin.setWidth 24, m)
  else if o = 0x16018 || o = 0x1601B then (setBit (winGet ch o) 23 (bit x.buz ((o - 0x16018) / 3)), m)
  else if o = 0x18002 then ((BitVec.ofBool x.i2c.isSome ++ 0#20 ++ x.i2cResult : BitVec 24), m)
  else (winGet ch o, m)
/-- The writable bits of the plain registers of these pages. -/
def panelMask (o : Nat) : Payload :=
  if o = 0x14000 then 0x00030F#24 else if o = 0x14001 then 0x007FFF#24 else if o = 0x14002 then 0x000FFF#24
  else if o = 0x14003 then 0x0003FF#24 else if o = 0x14006 || o = 0x14007 then 0x0003FF#24 else if o = 0x14008 then 0x000FFF#24
  else if o = 0x14009 then 0xFFFFFF#24 else if o = 0x16000 then 0x03F771#24 else if o = 0x1600C then 0x0000FF#24
  else if 0x16010 ≤ o && o ≤ 0x16013 then 0x0000FF#24 else if o = 0x16015 then 0x00FFFF#24
  else if o = 0x16019 || o = 0x1601C then 0x003FFF#24 else if o = 0x1601A || o = 0x1601D then 0xFFFFFF#24
  else if o = 0x16020 then 1#24 else if o = 0x18000 then 0x000101#24
  else if 0x18004 ≤ o && o ≤ 0x18006 then 0xFFFFFF#24 else 0#24
/-- A store of a register of pages 0x50, 0x58 and 0x60. I2CCMD takes no store while BUSY is 1, whatever its START. (DEDUCED, unsafe: log
55.) -/
def Mach.panelStore (m : Mach) (o : Nat) (v : Payload) : Mach :=
  if o = 0x16018 || o = 0x1601B then
    let k : Fin 2 := if o = 0x16018 then 0 else 1
    if bit v 23 then m.buzzerStart k (v.extractLsb' 0 8)
    else { m with ch := winPut m.ch o (v &&& 0xFF#24) }.buzzerStop k
  else if o = 0x18001 then
    (if bit v 23 then m.i2cStart (v.extractLsb' 16 7) (v.extractLsb' 8 4) (v.extractLsb' 0 4)
     else if m.ch.panel.i2c.isSome then m else { m with ch := winPut m.ch o (v &&& 0x7F0F0F#24) })
  else if panelMask o = 0#24 then m
  else { m with ch := winPut m.ch o (v &&& panelMask o) }

end Sys2Proof.Machine
end

