-- ==== Sys2Proof/Machine/MemCtl.lean ====
section
/-! DEFINITION. The memory controller's own commands: training, scheduling, page policy, refresh, retraining, temperature,
row-disturbance counting, patrol scrub, write CRC alerts, panic, and its windows (16, 17). -/
namespace Sys2Proof.Machine

/-! ### Training (R376-R379) -/

/-- Whether the training record is restorable (R78): both stored levels equal the decided ones. -/
def Channel.restorable (ch : Channel) : Bool :=
  match ch.led.item false .training with
  | some b =>
    let w := b.getD 0 0#32
    decide (w.extractLsb' 8 3 = ch.straps[0].level) && decide (w.extractLsb' 4 3 = ch.straps[1].level)
  | none => false
/-- Whether the controller trains: the boot sequence runs and memory is not trained. -/
def Mach.training (m : Mach) : Bool :=
  decide (m.ch.life.cond = .booting) && !m.ch.mc.trained && !m.ch.led.scan
/-- Memory is trained: refresh management as mode register 58 reports. -/
def Mach.trainDone (m : Mach) (rfmA rfmB : Bool) : Mach :=
  let x := m.ch.mc.sub
  { m with
    ch.life.taken.memory := true
    ch.mc := { m.ch.mc with
      trained := true, trainFail := none, retryWait := false
      sub := #v[{ x[0] with rfm := rfmA }, { x[1] with rfm := rfmB && m.ch.hasB }] } }
/-- FULL_TRAINING: failing step 0 is a pass, which overwrites memory and requests the record; 1 to 8 is a failure, recorded when
it differs from the attempt before (R376, R378, R379). -/
def Mach.fullTraining (m : Mach) (sub : Bool) (failStep : BitVec 4) (temp : BitVec 8) (rfmA rfmB : Bool) : Mach :=
  if !m.training || m.ch.mc.retryWait || (m.ch.restorable && !m.ch.mc.restoreFailed) then m
  else if failStep = 0#4 then
    let m := { m with ch.phys.mem := [], ch.phys.memGen := m.ch.phys.memGen + 1, ch.mc.trainTemp := temp }
    (m.trainDone rfmA rfmB).request .training
  else
    let f := some (sub, failStep)
    let m := if m.ch.mc.trainFail = f then m else m.reportLink sub 2#3 (failStep.setWidth 28) false
    { m with ch.mc := { m.ch.mc with trainFail := f, retryWait := true, waited := 0 }, ch.life.faultN := false, ch.life.taken.memory := false }
/-- FULL_TRAINING. -/
def execFullTraining (c : Chan) (sub : Bool) (failStep : BitVec 4) (temp : BitVec 8) (rfmA rfmB : Bool) (s : State) : Out :=
  .next (s.onMach c (fun m => m.fullTraining sub failStep temp rfmA rfmB))
/-- TRAINING_RETRY: 327,680 slow-clock periods after a failed training the initialisation is repeated (R379). -/
def execTrainingRetry (c : Chan) (s : State) : Out :=
  .next (s.onMach c (fun m => if retryPeriod ≤ m.ch.mc.waited then { m with ch.mc.retryWait := false } else m))
/-- RESTORE_AND_VERIFY: a restored training passes, and the boot is warm, or fails with a record (R377). -/
def Mach.restoreVerify (m : Mach) (pass : Bool) (line : BitVec 32) (rfmA rfmB : Bool) : Mach :=
  if !m.training || !m.ch.restorable || m.ch.mc.restoreFailed then m
  else if pass then
    { (m.trainDone rfmA rfmB) with ch.boot.warm := true }
  else
    let m := m.reportLink (m.ch.split line.toNat).1 2#3 (line.extractLsb' 4 28) false
    { m with ch.mc.restoreFailed := true, ch.life.taken.memory := true }
/-- RESTORE_AND_VERIFY. -/
def execRestoreAndVerify (c : Chan) (pass : Bool) (line : BitVec 32) (rfmA rfmB : Bool) (s : State) : Out :=
  .next (s.onMach c (fun m => m.restoreVerify pass line rfmA rfmB))

/-- COUNTING_WINDOW_BOUNDARY: once the window's slow-clock periods have passed, every counter of the subchannel becomes free, and the
next window is 1,048 periods long, or 524 while the subchannel is hot (R387). -/
def Mach.windowEnd (m : Mach) (sub : Bool) : Mach :=
  let x := m.subc sub
  if x.winAge < x.winLen then m
  else m.setSub sub { x with dist := [], winAge := 0, winLen := if x.hot then 524 else 1048 }
/-- COUNTING_WINDOW_BOUNDARY. -/
def execCountingWindowBoundary (c : Chan) (sub : Bool) (s : State) : Out := .next (s.onMach c (fun m => m.windowEnd sub))

/-! ### Scheduling -/

/-- COMMAND_ISSUE: the display engine presents its next read, and the scheduler has its controller clock. -/
def execCommandIssue (c : Chan) (sub : Bool) (s : State) : Out := .next (s.onMach c (fun m => m.scanOut.commandIssue sub))
/-- REQUEST_COMPLETE. -/
def execRequestComplete (c : Chan) (sub strobeMissing again : Bool) (s : State) : Out :=
  .next (s.onMach c (fun m => m.requestComplete sub strobeMissing again))
/-- ROW_IDLE_CLOSE: a row open without a request for 256 controller clocks is closed. -/
def Mach.rowIdleClose (m : Mach) (sub : Bool) (bank : Fin 32) : Mach :=
  let x := m.subc sub
  let k := x.bank bank.val
  if m.serves && k.row.isSome && 256 ≤ k.idle then
    m.setSub sub (x.precharge bank.val m.ch.tRcd)
  else m
/-- ROW_IDLE_CLOSE. -/
def execRowIdleClose (c : Chan) (sub : Bool) (bank : Fin 32) (s : State) : Out := .next (s.onMach c (fun m => m.rowIdleClose sub bank))
/-- REFRESH: made at once, or postponed while an aged request is served, at most two (R382). -/
def Mach.refresh (m : Mach) (sub : Bool) : Mach :=
  if !(m.serves && m.ch.populated sub) then m
  else
    let x := m.subc sub
    if m.agedWaits sub && x.owed < 2#2 then m.setSub sub { x with owed := x.owed + 1#2 } else m.doRefresh sub
/-- REFRESH. -/
def execRefresh (c : Chan) (sub : Bool) (s : State) : Out := .next (s.onMach c (fun m => m.refresh sub))

/-! ### Retraining and temperature (R380, R381) -/

/-- One lane's slice on a subchannel, from the precharge of all banks. -/
def Mach.slice (m : Mach) (sub ok : Bool) : Mach :=
  if !m.ch.populated sub then m
  else
    let x := m.subc sub
    let x := if x.lane = 0 && !x.fastPass then { x with curTemp := x.temp } else x
    let x := if ok then x else { x with slfail := satInc x.slfail }
    let x := if x.lane = 4 then { x with lane := 0, fastPass := false, passTemp := x.curTemp } else { x with lane := x.lane + 1 }
    let m := (m.setSub sub { x.closeAll m.ch.tRcd with cmd := .prechargeAll }).bumpC 30
    if ok then m else m.reportLink sub 3#3 0#28 false
/-- RETRAINING_SLICE on each populated subchannel. -/
def execRetrainingSlice (c : Chan) (okA okB : Bool) (s : State) : Out :=
  .next (s.onMach c (fun m => if m.maintains then (m.slice false okA).slice true okB else m))
/-- A temperature reading of a subchannel: hot above 85 °C until 32 readings at or below it; a change of 5 °C or more since the start
of the last completed pass starts a pass, unless the pass under way started at that temperature. (DESIGN CHOICE, unsafe: log 14.) -/
def Mach.heat (m : Mach) (sub : Bool) (t : BitVec 8) : Mach :=
  if !m.ch.populated sub then m
  else
    let x := m.subc sub
    let x := { x with temp := t }
    let x := if 85 < t.toInt then { x with hot := true, cool := 0 }
      else if x.hot then (if 31 ≤ x.cool then { x with hot := false, cool := 0 } else { x with cool := x.cool + 1 })
      else x
    let far (a : BitVec 8) : Bool := decide (5 ≤ (t.toInt - a.toInt).natAbs)
    m.setSub sub (if far x.passTemp && (!x.fastPass || far x.curTemp) then { x with lane := 0, fastPass := true, curTemp := t } else x)
/-- TEMPERATURE_READ. -/
def execTemperatureRead (c : Chan) (tA tB : BitVec 8) (s : State) : Out :=
  .next (s.onMach c (fun m => if m.serves then { (m.heat false tA).heat true tB with ch.mc.unread := false } else m))

/-! ### Patrol scrub (R394) -/

/-- One line of a subchannel is read and checked. -/
def Mach.scrubOne (m : Mach) (sub : Bool) : Mach :=
  if !m.ch.populated sub then m
  else
    let x := m.subc sub
    let line := m.ch.join sub (x.scrub * 16) / 16
    let last := decide (m.ch.subCells / 16 ≤ x.scrub + 1)
    let m := m.setSub sub { x with scrub := if last then 0 else x.scrub + 1 }
    let m := if last && !sub then { m with ch.mc.passes := m.ch.mc.passes + 1#24 } else m
    (m.poolQueue { line := line, src := .maint, kind := .scrub, hint := 0#2, age := 0, spec := false, stage := .waiting, left := 0,
                   errs := [], prior := [] }).bumpC 31
/-- PATROL_SCRUB. -/
def execPatrolScrub (c : Chan) (s : State) : Out :=
  .next (s.onMach c (fun m => if m.maintains then (m.scrubOne false).scrubOne true else m))

/-! ### Write CRC alerts (R392) -/

/-- Write a line with the check bits of every cell inverted. (DEDUCED, unsafe: log 58.) -/
def Mach.poisonLine (m : Mach) (line : Nat) : List (Fin 16) → Mach
  | [] => m
  | p :: r =>
    let a := line * 16 + p.val
    let d : Cell := (m.memBits a).extractLsb' 0 32
    (m.putMem a ((checkBits a d ^^^ 0xFF#8) ++ d : BitVec 40)).poisonLine line r
/-- The open writes after an alert: each is reissued, at most twice; at its third alert the line is poisoned and reported. -/
def Mach.reissue (m : Mach) (sub : Bool) : List OpenWrite → List OpenWrite × Mach
  | [] => ([], m)
  | w :: r =>
    if w.alerts = 2#2 then
      let m := m.poisonLine w.line positions
      let m := m.reportLink sub 0#3 (BitVec.ofNat 28 w.line) false
      let m := m.raiseIf (winBit m.ch 0x4400 7) 36 (mcAddr 3#2 sub (w.line * 16))
      m.reissue sub r
    else
      let x := (m.bumpC 34).reissue sub r
      ({ w with alerts := w.alerts + 1#2, left := alertClocks } :: x.1, x.2)
/-- WRITE_CRC_ALERT. -/
def Mach.crcAlert (m : Mach) (sub : Bool) : Mach :=
  if !m.serves || (m.subc sub).stuck then m
  else
    let x := m.reissue sub (m.subc sub).open_
    x.2.setSub sub { x.2.subc sub with open_ := x.1 }
/-- WRITE_CRC_ALERT. -/
def execWriteCrcAlert (c : Chan) (sub : Bool) (s : State) : Out := .next (s.onMach c (fun m => m.crcAlert sub))
/-- STUCK_ALERT. -/
def Mach.stuckAlert (m : Mach) (sub : Bool) : Mach :=
  if !m.serves || !m.ch.populated sub || (m.subc sub).stuck then m
  else (m.setSub sub { m.subc sub with stuck := true }).reportLink sub 0#3 0#28 false
/-- STUCK_ALERT. -/
def execStuckAlert (c : Chan) (sub : Bool) (s : State) : Out := .next (s.onMach c (fun m => m.stuckAlert sub))
/-- ALERT_RELEASE. -/
def execAlertRelease (c : Chan) (sub : Bool) (s : State) : Out :=
  .next (s.onMach c (fun m => m.setSub sub { m.subc sub with stuck := false }))

/-! ### Panic (R374) and MCPEAK (R375) -/

/-- PANIC: an episode begins unless the limit still forbids promotion. -/
def Mach.panicOn (m : Mach) : Mach :=
  if m.ch.framing && m.fastOn && !m.ch.mc.panic && !m.ch.mc.panicHeld then
    { m with ch.mc := { m.ch.mc with panic := true, episodes := satInc m.ch.mc.episodes } }
  else m
/-- PANIC. -/
def execPanic (c : Chan) (s : State) : Out := .next (s.onMach c Mach.panicOn)
/-- PANIC_LIMIT: the episode ends at its limit. -/
def Mach.panicLimit (m : Mach) : Mach :=
  if m.ch.mc.panic then
    { m with ch.mc := { m.ch.mc with panic := false, panicHeld := true, cutoffs := satInc m.ch.mc.cutoffs } }
  else m
/-- PANIC_LIMIT. -/
def execPanicLimit (c : Chan) (s : State) : Out := .next (s.onMach c Mach.panicLimit)
/-- A read of MCPEAK: the highest occupancy since the last read, which the read clears. -/
def Mach.readPeak (m : Mach) : Payload × Mach :=
  (m.ch.mc.peak.setWidth 24, { m with ch.mc.peak := 0#11 })
/-- MCPEAK_READ. -/
def execMcpeakRead (c : Chan) (s : State) : Out := .next (s.program c (fun m => m.readPeak.2))

/-! ### Windows (Tables 16.4 and 17.5) -/

/-- A load of page 0x10 or 0x11. -/
def Mach.mcLoad (m : Mach) (o : Nat) : Payload × Mach :=
  let mc := m.ch.mc
  let a := mc.sub[0]
  let b := mc.sub[1]
  let v (p : Payload) : Payload × Mach := (p, m)
  match o with
  | 0x4000 => v (BitVec.ofNat 6 (if m.ch.big then 32 else 16) ++ BitVec.ofNat 2 (if m.ch.hasB then 2 else 1) ++ 0#6
      ++ BitVec.ofNat 10 m.ch.cclk : BitVec 24)
  | 0x4001 => v (BitVec.ofNat 24 mc.pool.length)
  | 0x4002 => m.readPeak
  | 0x4003 => v mc.aged
  | 0x4004 => v (mc.episodes ++ mc.cutoffs : BitVec 24)
  | 0x4400 => v (winGet m.ch 0x4400)
  | 0x4401 => v (BitVec.ofBool (!m.ch.predicts) ++ BitVec.ofNat 2 (m.ch.straps[3].level.toNat % 3) ++ BitVec.ofBool a.rfm
      ++ BitVec.ofBool b.rfm ++ BitVec.ofBool a.hot ++ BitVec.ofBool b.hot ++ 0#17 : BitVec 24)
  | 0x4402 => v (0#8 ++ b.temp ++ a.temp : BitVec 24)
  | 0x4403 => v (0#8 ++ b.slfail ++ a.slfail : BitVec 24)
  | 0x4404 => v mc.ceCount
  | 0x4405 => v (mc.ueCount ++ mc.linkCount : BitVec 24)
  | 0x4406 => v (mc.ceAddr.extractLsb' 0 24)
  | 0x4407 => v (mc.ceAddr.extractLsb' 24 8 |>.setWidth 24)
  | 0x4408 => v (mc.ueAddr.extractLsb' 0 24)
  | 0x4409 => v (BitVec.ofBool mc.ueSpec ++ 0#15 ++ mc.ueAddr.extractLsb' 24 8 : BitVec 24)
  | 0x440A => v mc.passes
  | 0x440B => v mc.nbrs
  | _ => v 0#24
/-- A store to page 0x10 or 0x11: only the writable fields of MCCTL. -/
def Mach.mcStore (m : Mach) (o : Nat) (p : Payload) : Mach :=
  if o = 0x4400 then { m with ch := winPut m.ch 0x4400 (p &&& 0xFB#24) } else m

end Sys2Proof.Machine
end

