-- ==== Sys2Proof/Machine/Port.lean ====
section
/-! DEFINITION. The square: channel ports, transmit queues, acceptance filters and inbound rings, CAN and Ethernet, last-gasp frames,
and the square's failure (19). -/
namespace Sys2Proof.Machine

/-- The offset of a register of page 0x80. -/
def pReg (o : Nat) : Nat := 0x20000 + o
/-- A status vector 257 to 263 whose source SQCTL enables. -/
def Mach.portRaise (m : Mach) (v : Nat) (addr : Cell) : Mach := m.raiseIf (winBit m.ch (pReg 1) (v - 257)) v addr
/-- Whether the square works: POR_N is high and it has not failed. -/
def Square.up (sq : Square) : Bool := sq.porN && !sq.failed
/-- Raise a status vector in every running channel. -/
def State.portRaiseAll (s : State) (v : Nat) (addr : Cell) : State :=
  s.onAll (fun m => if m.ch.life.cond = .running then m.portRaise v addr else m)

/-! ### Offering a frame (R430-R434) -/

/-- Bytes with a run of them replaced. -/
def setAt (bs : List Byte) (i : Nat) (new : List Byte) : List Byte := bs.take i ++ new ++ bs.drop (i + new.length)
/-- The six bytes of an address, byte 0 highest. -/
def macBytes (a : BitVec 48) : List Byte := (upFrom 0 6).map (fun i => a.extractLsb' (8 * (5 - i)) 8)
/-- A frame with its source address written (R432). -/
def frameMac (f : HostFrame) (a : BitVec 48) : HostFrame :=
  if f.iface = 2 then { f with data := setAt f.data 6 (macBytes a) } else f
/-- A frame with its sequence number written. -/
def frameSeq (f : HostFrame) (n : BitVec 16) : HostFrame :=
  if f.sqe then { f with data := setAt f.data f.seqpos.toNat [n.extractLsb' 8 8, n.extractLsb' 0 8] } else f
/-- The offset of a cell of staging slot s (R429). -/
def stage (s : Fin 8) (k : Nat) : Nat := wreg (0x82 + s.val / 2) (512 * (s.val % 2) + k)
/-- Whether a channel's committed frames are held (R433). -/
def Pair.holds (p : Pair) : Bool := p.role = .active || (p.role = .joiningActive && p.ready)
/-- A result of TXPUSH: code and number. -/
def txRes (code : BitVec 4) (n : BitVec 16) : Payload := (code ++ 0#4 ++ n : BitVec 24)
/-- TXPUSH(s): the slot is offered to the queue (R431, R432, R434). (DEDUCED, unsafe: log 52; DESIGN CHOICE, unsafe: log 70.) -/
def Mach.txpush (m : Mach) (s : Fin 8) : Payload × Mach :=
  let c0 := winGet m.ch (stage s 0)
  let c1 := winGet m.ch (stage s 1)
  let c2 := winGet m.ch (stage s 2)
  let data := unpack3 ((upFrom 3 506).map (fun k => winGet m.ch (stage s k)))
  let p := m.port
  if !m.sq.up then (txRes 4#4 0#16, m)
  else if !descOk m.sq c0 c1 c2 data then (txRes 2#4 0#16, m)
  else
    let f := frameOf c0 c1 c2 data
    if m.sq.ifOff f.iface then (txRes 3#4 0#16, m)
    else if !f.committed && m.ch.pair.role = .active && 32767 ≤ (p.seqI - p.snap.seqI).toNat then (txRes 5#4 0#16, m)
    else if 64 ≤ p.queue.length then (txRes 1#4 0#16, m.setPort { p with wasFull := true })
    else
      let n := if f.committed then p.seqC else p.seqI
      let g := frameSeq (frameMac f p.stmac) n
      let e : TxFrame := { frame := g, held := f.committed && m.ch.pair.holds, mark := none }
      let p := { p with
        queue := p.queue ++ [e]
        seqI := if f.committed then p.seqI else p.seqI + 1#16
        seqC := if f.committed then p.seqC + 1#16 else p.seqC }
      (txRes 0#4 n, (m.setPort p).bumpC 56)
/-- TXPUSH. -/
def execTxpush (c : Chan) (s : Fin 8) (st : State) : Out := .next (st.program c (fun m => (m.txpush s).2))

/-! ### Filters and the inbound ring (R437-R441) -/

/-- The 64-bit field a filter compares (R443). -/
def frameField (f : HostFrame) : BitVec 64 :=
  if f.iface = 2 then le64 (slice f.data 0 6 ++ slice f.data 12 2)
  else (0#32 ++ BitVec.ofBool f.fdf ++ BitVec.ofBool f.rtr ++ BitVec.ofBool f.ide ++ f.ident : BitVec 64)
/-- Whether a filter matches a frame. -/
def Filter.hits (g : Filter) (f : HostFrame) : Bool :=
  (decide (g.iface.val = f.iface.val) || (g.iface = 3 && f.iface ≠ 2)) && decide ((frameField f ^^^ g.value) &&& g.mask = 0#64)
/-- The lowest-numbered filter of a range that matches, numbered from a base. -/
def firstHit (f : HostFrame) : Nat → List Filter → Option Nat
  | _, [] => none
  | n, g :: r => if g.hits f then some n else firstHit f (n + 1) r
/-- The first filter number of a channel, or of its pair's even-numbered channel (R437). -/
def Mach.filterBase (m : Mach) : Nat := 124 * (if m.ch.pair.inPair then m.c.val / 2 * 2 else m.c.val)
/-- The filter of the channel that accepts a frame: none while it is not running. -/
def Mach.accepting (m : Mach) (f : HostFrame) : Option Nat :=
  if m.ch.life.cond = .running then firstHit f m.filterBase m.port.filters else none
/-- A frame enters the ring: its time, and the filter's vector (R439). -/
def Mach.enterRing (m : Mach) (x : RxFrame) : Mach :=
  let p := m.port
  ((m.setPort { p with ring := p.ring ++ [{ x with time := m.ch.clk.low }] }).raise (272 + x.filter) fix0).bumpC 58
/-- Deliver frames of a handover while the ring has room; the last one makes vector 263 pending (R441). (DESIGN CHOICE, unsafe: log 70.) -/
def Mach.feed (m : Mach) : Nat → Mach
  | 0 => m
  | n + 1 => match m.port.handover with
    | [] => m
    | x :: r =>
      if 64 ≤ m.port.ring.length then m
      else
        let m := (m.setPort { m.port with handover := r }).enterRing x
        if r.isEmpty then (m.portRaise 263 (fix m.port.rpgap)).setPort { m.port with rpgap := 0#24 } else m.feed n
/-- An accepted frame: behind a handover, into the ring with a copy in a formed pair, or lost (R439-R441). (DESIGN CHOICE, unsafe: log 70.) -/
def Mach.accept (m : Mach) (f : HostFrame) (k : Nat) : Mach :=
  let p := m.port
  let x : RxFrame := { frame := { f with committed := false, sqe := false, seqpos := 0#11 }, filter := k, replay := false, time := m.ch.clk.low }
  if !p.handover.isEmpty then m.setPort { p with handover := p.handover ++ [{ x with replay := true }] }
  else if 64 ≤ p.ring.length then ((m.setPort { p with rxLost := satInc p.rxLost }).portRaise 262 fix0).bumpC 59
  else
    let m := if m.ch.pair.role ≠ .active then m
      else if p.replay.length < 512 then m.setPort { p with replay := p.replay ++ [{ rx := x, popped := false, mark := none }] }
      else m.setPort { p with rpgap := satInc p.rpgap }
    m.enterRing x
/-- Offer a frame to one channel. -/
def State.offer (s : State) (f : HostFrame) (c : Chan) : State :=
  s.onMach c (fun m => match m.accepting f with | some k => m.accept f k | none => m)
/-- Offer a frame to channels in turn. -/
def State.offerAll (s : State) (f : HostFrame) : List Chan → State
  | [] => s
  | c :: r => (s.offer f c).offerAll f r
/-- Every channel. -/
def allChans : List Chan := [0, 1, 2, 3]
/-- The first copy not yet popped of a frame. -/
def popCopy (x : RxFrame) : List Copy → List Copy
  | [] => []
  | k :: r => if !k.popped && decide ({ k.rx with time := x.time } = x) then { k with popped := true } :: r else k :: popCopy x r
/-- RXPOP: the oldest frame leaves the ring; the frames that remain (R439). (DESIGN CHOICE, unsafe: log 70.) -/
def Mach.rxpop (m : Mach) : Payload × Mach :=
  match m.port.ring with
  | [] => (0#24, m)
  | x :: r =>
    let p := m.port
    let m := m.setPort { p with ring := r, replay := popCopy x p.replay }
    (BitVec.ofNat 24 r.length, m.feed 512)
/-- RXPOP. -/
def execRxpop (c : Chan) (s : State) : Out := .next (s.program c (fun m => m.rxpop.2))
/-- Whether a received frame is one its interface accepts (R425, R427). -/
def rxOk (f : HostFrame) : Bool :=
  if f.iface = 2 then
    60 ≤ f.data.length && (f.data.length ≤ 1514 || (f.data.length ≤ 1518 && slice f.data 12 2 = [0x81#8, 0x00#8]))
  else canLenOk f.fdf f.data.length && !(f.rtr && f.fdf) && !(f.brs && !f.fdf) && (f.ide || decide (f.ident.toNat < 2048))
/-- The CAN bus of an interface. -/
def busOf (i : Fin 3) : Fin 2 := if i = 1 then 1 else 0
/-- Replace a CAN controller. -/
def Square.setCan (sq : Square) (b : Fin 2) (x : Can) : Square := { sq with can := sq.can.set b x }
/-- Whether a CAN controller takes part in its bus. -/
def Square.onBus (sq : Square) (b : Fin 2) : Bool := !sq.canOff && sq.can[b].state ≠ .off && !sq.can[b].waiting
/-- A frame that no filter accepts (R438). -/
def Square.drop (sq : Square) : Square := { sq with unowned := satInc sq.unowned, unownedNow := sq.unownedNow + 1 }
/-- Count a dropped Ethernet reception. -/
def Square.rxErr (sq : Square) : Square := { sq with eth := { sq.eth with rxErr := satInc sq.eth.rxErr } }
/-- A protocol exception of a CAN bus: counted, and the controller waits for bus integration (R426). -/
def Square.exception (sq : Square) (b : Fin 2) : Square :=
  sq.setCan b { sq.can[b] with pexc := satInc sq.can[b].pexc, waiting := true }
/-- A frame whose data have an uncorrectable error in the square's own buffers: the record of kind 1 (R446). -/
def Square.dataBad (sq : Square) : Square := { sq with led := sq.led.arrive 0x11#6 false false (1#4 ++ 0#28 : BitVec 32) }
/-- FRAME_RECEPTION: a frame arrives at an interface. Outcome 0: without error; 1: a CAN protocol exception, or an Ethernet frame with an
error; 2: its data become uncorrectable in the square's buffer, so that it is dropped and counted (R446). -/
def State.receive (s : State) (f : HostFrame) (outcome : BitVec 2) : State :=
  let sq := s.square
  if !sq.up || sq.ifOff f.iface then s
  else if f.iface = 2 then
    if !sq.eth.link then s
    else if outcome = 1#2 || !rxOk f then { s with square := sq.rxErr }
    else if outcome = 2#2 then { s with square := sq.rxErr.dataBad }
    else if allChans.any (fun c => ((s.mach c).accepting f).isSome) then s.offerAll f allChans
    else { s with square := sq.drop }
  else
    let b := busOf f.iface
    if !sq.onBus b then s
    else if outcome = 1#2 || (f.fdf && sq.classical b) then { s with square := sq.exception b }
    else if !rxOk f then s
    else
      let r := sq.can[b].rec_
      let sq := sq.setCan b { sq.can[b] with rec_ := if 127 < r then 127 else r - 1 }
      let s := { s with square := sq }
      if outcome = 2#2 then { s with square := sq.rxErr.dataBad }
      else if allChans.any (fun c => ((s.mach c).accepting f).isSome) then s.offerAll f allChans else { s with square := sq.drop }
/-- FRAME_RECEPTION. -/
def execFrameReception (f : HostFrame) (outcome : BitVec 2) (s : State) : Out := .next (s.receive f outcome)
/-- UNOWNED_RECORD: the count of a second's drops (R438). -/
def execUnownedRecord (s : State) : Out :=
  .next (
    let sq := s.square
    if sq.up && sq.unownedNow ≠ 0 then
      { s with square := { sq with unownedNow := 0, led := sq.led.arrive 0x11#6 false false (3#4 ++ 0#4 ++ BitVec.ofNat 24 (min sq.unownedNow 0xFFFFFF) : BitVec 32) } }
    else s)
/-- BUS_INTEGRATION: a bus in the protocol exception state takes part again (R426). -/
def execBusIntegration (bus : Fin 2) (s : State) : Out :=
  .next (if s.square.up then { s with square := s.square.setCan bus { s.square.can[bus] with waiting := false } } else s)

/-! ### Transmission (R433-R436) -/

/-- The state a CAN controller reports (Table 19.3). -/
def BusState.code : BusState → BitVec 2
  | .active => 0#2
  | .passive => 1#2
  | .off => 2#2
  | .disabled => 3#2
/-- The state of a bus with its strap. -/
def Square.busState (sq : Square) (b : Fin 2) : BusState := if sq.canOff then .disabled else sq.can[b].state
/-- Fault confinement from the error counters. -/
def Can.confine (k : Can) : Can :=
  { k with state := if k.state = .off || 255 < k.tec then .off else if 127 < k.tec || 127 < k.rec_ then .passive else .active }
/-- A CAN controller changes; a change of its state is signalled in every running channel (Table 19.4). -/
def State.setCan (s : State) (b : Fin 2) (k : Can) : State :=
  let old := s.square.busState b
  let s := { s with square := s.square.setCan b k }
  let new := s.square.busState b
  if old = new then s else s.portRaiseAll (259 + b.val) (fix (new.code.setWidth 24))
/-- Whether an interface can carry frames handed over to it: a CAN bus that is on; Ethernet always, which drops. -/
def Square.carries (sq : Square) (i : Fin 3) : Bool := !sq.ifOff i && (i = 2 || sq.onBus (busOf i))
/-- Whether the frames ahead allow a frame for interface i to be handed over: each is at another interface that carries it, no two at
the same one. (DEDUCED, unsafe: log 52.) -/
def clearAhead (sq : Square) (i : Fin 3) : List TxFrame → List (Fin 3) → Bool
  | [], _ => true
  | e :: r, seen =>
    !e.held && e.frame.iface ≠ i && sq.carries e.frame.iface && !seen.contains e.frame.iface
      && clearAhead sq i r (e.frame.iface :: seen)
/-- The first frame of a queue that interface i can send: the frames before it, itself, the frames after it (R433). -/
def eligible (sq : Square) (i : Fin 3) (before : List TxFrame) : List TxFrame → Option (List TxFrame × TxFrame × List TxFrame)
  | [] => none
  | e :: r =>
    let ahead := before.filter (fun x => x.frame.committed = e.frame.committed || (e.frame.committed && !x.frame.committed))
    if !e.held && e.frame.iface = i && clearAhead sq i ahead [] then some (before, e, r) else eligible sq i (before ++ [e]) r
/-- What a channel sends next on an interface: a last-gasp frame first, with the port after it. -/
def Port.nextFor (p : Port) (sq : Square) (i : Fin 3) : Option (HostFrame × Port) :=
  match p.gaspDue.find? (fun f => f.iface = i) with
  | some f => some (frameMac f p.stmac, { p with gaspDue := p.gaspDue.filter (fun g => g.iface ≠ i) })
  | none => match eligible sq i [] p.queue with
    | some (a, e, r) => some (e.frame, { p with queue := a ++ r })
    | none => none
/-- The channels in rotating order after the one served last. -/
def rotation (last : Fin 4) : List Chan := [last + 1, last + 2, last + 3, last]
/-- The channel whose turn it is on an interface, its frame, and its port without it. -/
def Square.turn (sq : Square) (i : Fin 3) : List Chan → Option (Chan × HostFrame × Port)
  | [] => none
  | c :: r => match sq.ports[c].nextFor sq i with
    | some (f, p) => some (c, f, p)
    | none => sq.turn i r
/-- The channel served last on an interface. -/
def Square.last (sq : Square) (i : Fin 3) : Fin 4 := if i = 2 then sq.eth.last else sq.can[busOf i].last
/-- Note the channel just served. -/
def Square.setLast (sq : Square) (i : Fin 3) (c : Chan) : Square :=
  if i = 2 then { sq with eth := { sq.eth with last := c } } else sq.setCan (busOf i) { sq.can[busOf i] with last := c }
/-- A frame leaves a channel's queue: its port, and vector 257 as USED falls to 56 (Table 19.4). -/
def Mach.freed (m : Mach) (p : Port) : Mach :=
  let fell := p.wasFull && p.queue.length = 56 && m.port.queue.length ≠ 56
  (m.setPort { p with wasFull := p.wasFull && !fell }).raiseIf (fell && m.ch.life.cond = .running && winBit m.ch (pReg 1) 0) 257 fix0
/-- The channels a transmitted frame is offered to: those other than the sender and its partner (R438). -/
def State.others (s : State) (c : Chan) : List Chan := allChans.filter (fun k => k ≠ c && s.partner c ≠ some k)
/-- A frame has been sent without error. -/
def State.sent (s : State) (c : Chan) (f : HostFrame) (p : Port) : State :=
  (s.onMach c (fun m => (m.freed p).bumpC 57)).offerAll f (s.others c)
/-- Count a dropped transmission. -/
def Square.txAbort (sq : Square) : Square := { sq with eth := { sq.eth with txAbort := satInc sq.eth.txAbort } }
/-- FRAME_TRANSMISSION: outcome 0 sent; 1 lost arbitration, or on Ethernet a collision that a further attempt follows; 2 an error on a CAN
bus, or the 16th failed attempt of half duplex, which full duplex has not; 3 the frame's data are uncorrectable in the square's queue
(R425, R427, R435, R436, R438, R446). -/
def State.transmit (s : State) (i : Fin 3) (outcome : BitVec 2) : State :=
  let sq := s.square
  if !sq.up || !sq.carries i then s
  else match sq.turn i (rotation (sq.last i)) with
    | none => s
    | some (c, f, p) =>
      let s := { s with square := sq.setLast i c }
      if outcome = 3#2 then { s with square := s.square.txAbort.dataBad }.onMach c (fun m => m.freed p)
      else if i = 2 then
        if sq.eth.link && outcome = 0#2 then s.sent c f p
        else if sq.eth.link && (outcome = 1#2 || sq.eth.full) then { s with square := sq }
        else
          let s := { s with square := s.square.txAbort }
          s.onMach c (fun m => (m.freed p).raiseIf (m.ch.life.cond = .running && winBit m.ch (pReg 1) 1) 258 (fixN 2))
      else
        let b := busOf i
        let k := s.square.can[b]
        if outcome = 0#2 then (s.setCan b { k with tec := k.tec - 1 }.confine).sent c f p
        else if outcome = 1#2 then s
        else
          let s := s.setCan b { k with tec := k.tec + 8 }.confine
          if s.square.can[b].state = .off then
            s.onMach c (fun m => m.raiseIf (m.ch.life.cond = .running && winBit m.ch (pReg 1) 1) 258 (fixN i.val))
          else s
/-- FRAME_TRANSMISSION. -/
def execFrameTransmission (i : Fin 3) (outcome : BitVec 2) (s : State) : Out := .next (s.transmit i outcome)
/-- BUS_OFF_RECOVERY: the bus is error-active again with its counters at 0 (R425). -/
def execBusOffRecovery (bus : Fin 2) (s : State) : Out :=
  .next (if s.square.up && s.square.can[bus].state = .off then
      s.setCan bus { s.square.can[bus] with state := .active, tec := 0, rec_ := 0 }
    else s)
/-- PHY_POLL: the link as registers 1 and 5 report it, with the speed and duplex that a level forces (R428). -/
def execPhyPoll (link fast full : Bool) (s : State) : Out :=
  .next (
    let sq := s.square
    if !sq.up || sq.ifOff 2 then s
    else
      let k := sq.phyForced.getD (fast, full)
      let s' := { s with square := { sq with eth := { sq.eth with link := link, fast := k.1, full := k.2 } } }
      if sq.eth.link = link then s' else s'.portRaiseAll 261 (fixN (bnat link)))

/-! ### Last-gasp frames and the square's failure (R442, R446) -/

/-- Whether a channel that held an identity has failed since: it no longer runs. -/
def Channel.failedNow (ch : Channel) : Bool := ch.life.cond ≠ .running
/-- LAST_GASP: the queue is dropped and each registered frame of an enabled interface is due once. -/
def Mach.lastGasp (m : Mach) : Mach :=
  let p := m.port
  if m.sq.up && p.armed && m.ch.failedNow then
    let due := ([0, 1, 2] : List (Fin 3)).filterMap (fun i => if m.sq.ifOff i then none else p.gasp[i])
    m.setPort { p with queue := [], armed := false, gaspDue := due, wasFull := false }
  else m
/-- LAST_GASP. -/
def execLastGasp (c : Chan) (s : State) : Out := .next (s.onMach c Mach.lastGasp)
/-- A port emptied by the square's failure. -/
def Port.emptied (p : Port) : Port := { p with queue := [], ring := [], replay := [], handover := [], gaspDue := [], wasFull := false }
/-- Whether SQUARE_FAILURE names a failure: a divergence (0), an error in the filter table (2) or in queue, counter or identity state
(5), or a reading of VDD_SQ or VIO_SQ beyond an off limit (4, R107). -/
def squareFails (kind : BitVec 4) (rail : Bool) (reading : BitVec 16) : Bool :=
  let r : Fin 6 := if rail then 3 else 0
  kind = 0#4 || kind = 2#4 || kind = 5#4 || (kind = 4#4 && (beyond r (railLimits r).2 reading).isSome)
/-- SQUARE_FAILURE. `reading` is the rail's reading for kind 4 and the index of the bad entry for kinds 2 and 5. (DEDUCED, unsafe: log 53.) -/
def State.squareFail (s : State) (kind : BitVec 4) (rail : Bool) (reading : BitVec 16) : State :=
  let sq := s.square
  if !sq.up || !squareFails kind rail reading then s
  else
    let code : BitVec 4 := if rail then 9#4 else 8#4
    let lim := (railLimits (if rail then 3 else 0)).2
    let over_ : BitVec 4 := if lim.2 < reading.toNat then 1#4 else 0#4
    let led := if kind = 4#4 then sq.led.arrive 0x0B#6 false true (code ++ over_ ++ 0#8 ++ reading : BitVec 32) else sq.led
    let low : BitVec 24 := if kind = 4#4 then code.setWidth 24 else if kind = 0#4 then 0#24 else reading.setWidth 24
    let led := led.arrive 0x11#6 false false (kind ++ 0#4 ++ low : BitVec 32)
    let s := { s with square := { sq with failed := true, led := led, ports := sq.ports.map Port.emptied } }
    s.onAll (fun m => if m.ch.life.cond = .running then m.raise 256 (fix (kind.setWidth 24)) else m)
/-- SQUARE_FAILURE. -/
def execSquareFailure (kind : BitVec 4) (rail : Bool) (reading : BitVec 16) (s : State) : Out := .next (s.squareFail kind rail reading)

/-! ### Commits and the end of a pair (R433, R434, R440) -/

/-- A marker takes its place: held frames and popped copies without a mark take it, with the counters as they stand. -/
def Port.marker (p : Port) (e : BitVec 24) : Port :=
  { p with
    queue := p.queue.map (fun x => if x.held && x.mark.isNone then { x with mark := some e } else x)
    replay := p.replay.map (fun x => if x.popped && x.mark.isNone then { x with mark := some e } else x)
    marks := p.marks ++ [(e, { seqI := p.seqI, seqC := p.seqC, stmac := p.stmac })] }
/-- An epoch commits: its frames are released, its copies discarded, its snapshot kept. -/
def Port.commit (p : Port) (e : BitVec 24) : Port :=
  { p with
    queue := p.queue.map (fun x => if x.mark = some e then { x with held := false } else x)
    replay := p.replay.filter (fun x => x.mark ≠ some e)
    snap := ((p.marks.find? (fun x => x.1 = e)).map (fun x => x.2)).getD p.snap
    marks := p.marks.filter (fun x => x.1 ≠ e) }
/-- The pair ends: every held frame becomes eligible and the copies are discarded. -/
def Port.unpair (p : Port) : Port :=
  { p with queue := p.queue.map (fun x => { x with held := false, mark := none }), replay := [], marks := [] }
/-- The identity moves to a new active (R441): counters and address from the committed snapshot, copies to deliver. -/
def Port.moved (p : Port) : Port :=
  { p with
    queue := [], ring := [], replay := [], marks := [], wasFull := false, gaspDue := [], armed := true
    seqI := p.snap.seqI, seqC := p.snap.seqC, stmac := p.snap.stmac
    handover := p.handover ++ p.replay.map (fun k => { k.rx with replay := true }) }

/-! ### Windows (Tables 19.1 and 19.3) -/

/-- Descriptor cells of the frame at the head of the ring (R430). -/
def RxFrame.cells (x : RxFrame) : List Cell :=
  let f := x.frame
  let c0 : Payload := (BitVec.ofNat 2 f.iface.val ++ 0#2 ++ BitVec.ofBool f.ide ++ BitVec.ofBool f.fdf ++ BitVec.ofBool f.brs
    ++ BitVec.ofBool f.rtr ++ f.ident.extractLsb' 24 5 ++ BitVec.ofNat 11 f.data.length : BitVec 24)
  let c2 : Payload := (BitVec.ofNat 9 x.filter ++ BitVec.ofBool x.replay ++ 0#14 : BitVec 24)
  [fix c0, fix (f.ident.extractLsb' 0 24), fix c2, fix x.time] ++ (pack3 f.data).map raw
/-- A load of pages 0x80 to 0x85. A cell of RXHEAD that no frame fills is a free value. (DEDUCED, unsafe: log 53.) -/
def Mach.portLoad (m : Mach) (o : Nat) : Cell × Mach :=
  let p := m.port
  let sq := m.sq
  let v (x : Payload) : Cell × Mach := (fix x, m)
  let can (b : Fin 2) : Cell × Mach := v (sq.can[b].pexc ++ BitVec.ofNat 8 sq.can[b].rec_ ++ BitVec.ofNat 8 sq.can[b].tec : BitVec 24)
  if o < 0x20400 then
    match o - 0x20000 with
    | 0 => v (BitVec.ofBool sq.failed ++ BitVec.ofBool sq.eth.link ++ BitVec.ofBool sq.eth.fast ++ BitVec.ofBool sq.eth.full
        ++ (sq.busState 0).code ++ (sq.busState 1).code ++ 0#16 : BitVec 24)
    | 1 => v (winGet m.ch o)
    | 2 => v (0#9 ++ BitVec.ofNat 7 (p.queue.filter TxFrame.held).length ++ 0#1 ++ BitVec.ofNat 7 p.queue.length : BitVec 24)
    | 3 => v (p.seqI.setWidth 24)
    | 4 => v (p.seqC.setWidth 24)
    | 5 => v (BitVec.ofNat 24 p.ring.length)
    | 6 => let r := m.rxpop; (fix r.1, r.2)
    | 7 => v p.rxLost
    | 8 => v sq.unowned
    | 9 => v p.rpgap
    | 10 => v (p.stmac.extractLsb' 24 24)
    | 11 => v (p.stmac.extractLsb' 0 24)
    | 12 => can 0
    | 13 => can 1
    | 14 => v (sq.eth.rxErr ++ sq.eth.txAbort : BitVec 24)
    | k => if h : 16 ≤ k ∧ k < 24 then let r := m.txpush ⟨k - 16, by omega⟩; (fix r.1, r.2) else v 0#24
  else if o < 0x20800 then
    match (p.ring.head?.map RxFrame.cells).bind (fun l => l[o - 0x20400]?) with
    | some c => (c, m)
    | none => let r := m.draw 0x1000000; (raw (BitVec.ofNat 24 r.1), r.2)
  else if o < 0x21800 then
    let k := o % 512
    if 509 ≤ k then v 0#24 else (if k < 3 then fix (winGet m.ch o) else raw (winGet m.ch o), m)
  else v 0#24
/-- A store to pages 0x80 to 0x85. -/
def Mach.portStore (m : Mach) (o : Nat) (v : Payload) : Mach :=
  let p := m.port
  if o = 0x20001 then { m with ch := winPut m.ch o (v &&& 0x7F#24) }
  else if o = 0x2000A then m.setPort { p with stmac := (v ++ p.stmac.extractLsb' 0 24 : BitVec 48) }
  else if o = 0x2000B then m.setPort { p with stmac := (p.stmac.extractLsb' 24 24 ++ v : BitVec 48) }
  else if 0x20800 ≤ o && o < 0x21800 && o % 512 < 509 then { m with ch := winPut m.ch o v }
  else m

end Sys2Proof.Machine
end

