-- ==== Sys2Proof/Machine/Mirror.lean ====
section
/-! DEFINITION. The mirror stream an active channel of a pair sends (R405, R409). -/
namespace Sys2Proof.Machine

/-- A write of a memory line or of near-store cells enters the mirror stream, with the cells as they now stand. -/
def Mach.mirrorStore (m : Mach) (base : Nat) (cells : NMap (Cell × Bool)) : Mach :=
  if m.mirrors then m.sendMirror (.store (base / 16) (cells.map (fun e => (e.1, m.peek (base + e.1))))) else m
/-- A byte write enters the mirror stream. -/
def Mach.mirrorByte (m : Mach) (a : Nat) (j : Fin 3) (b : Byte) : Mach := m.sendMirror (.byte a j b)
/-- Whether the retransmit buffer or the undo log holds back steps that need a record (R406, R409). -/
def Mach.heldBack (m : Mach) : Bool :=
  m.mirrors && (decide (512 ≤ m.ch.pair.buf.length) || decide (2080768 ≤ m.ch.pair.undoOcc))

end Sys2Proof.Machine
end

