-- ==== Sys2Proof/Machine/Cache.lean ====
section
/-! DEFINITION. Caches: lookup, fills, replacement, prefetch, array errors, and the effect of a store step (R311-R329). -/
namespace Sys2Proof.Machine

/-! ### Addresses (Table 14.1) -/

/-- Set of a physical line number. -/
def lineSet (l : Nat) : Nat := l / 4 % 32
/-- Line within its frame. -/
def lineSlot (l : Nat) : Nat := l % 4
/-- Frame address. -/
def lineFrame (l : Nat) : BitVec 20 := BitVec.ofNat 20 (l / 128)
/-- The four ways of a set, as keys of the frame map. -/
def setKeys (l : Nat) : List Nat := [lineSet l * 4, lineSet l * 4 + 1, lineSet l * 4 + 2, lineSet l * 4 + 3]

/-! ### One cache -/

/-- The empty cache. -/
def Cache.empty : Cache := { frames := [], buf := [], reqs := [], fill := none }
/-- A cache of a core. -/
def Core.cache (co : Core) (dc : Bool) : Cache := if dc then co.dcache else co.icache
/-- Replace a cache of a core. -/
def Core.setCache (co : Core) (dc : Bool) (c : Cache) : Core := if dc then { co with dcache := c } else { co with icache := c }
/-- A cache of the channel. -/
def Mach.cache (m : Mach) (k : Fin 2) (dc : Bool) : Cache := (m.core k).cache dc
/-- Replace a cache of the channel. -/
def Mach.setCache (m : Mach) (k : Fin 2) (dc : Bool) (c : Cache) : Mach := m.setCore k ((m.core k).setCache dc c)
/-- Whether the data caches (or the instruction caches) are enabled (R314). -/
def Mach.cacheOn (m : Mach) (dc : Bool) : Bool := if dc then m.ch.proc.dcen else m.ch.proc.icen

/-- The ways of the line's set whose frame matches it. -/
def Cache.matching (c : Cache) (l : Nat) : List Nat :=
  (setKeys l).filter (fun k => match mapGet c.frames k with | some f => decide (f.faddr = lineFrame l) | none => false)
/-- The way and line of a hit (R312). -/
def Cache.lookup (c : Cache) (l : Nat) : Option (Nat × Frame × CLine) :=
  match c.matching l with
  | k :: _ => match mapGet c.frames k with
    | some f => (mapGet f.lines (lineSlot l)).map (fun cl => (k, f, cl))
    | none => none
  | [] => none
/-- Whether a line is valid. -/
def Cache.holds (c : Cache) (l : Nat) : Bool := (c.lookup l).isSome
/-- REF and AGE of a demand hit, a normal fill or a ZLINE install (R316). -/
def Frame.touch (f : Frame) : Frame := { f with ref := true, age := 0#2 }

/-- Whether a way holds no valid line. -/
def Cache.wayFree (c : Cache) (k : Nat) : Bool := match mapGet c.frames k with | some f => f.lines.isEmpty | none => true
/-- REF of a way. -/
def Cache.wayRef (c : Cache) (k : Nat) : Bool := match mapGet c.frames k with | some f => f.ref | none => false
/-- AGE of a way. -/
def Cache.wayAge (c : Cache) (k : Nat) : Nat := match mapGet c.frames k with | some f => f.age.toNat | none => 0
/-- The way with REF 0 and the greatest AGE, lowest on ties. -/
def Cache.oldest (c : Cache) : List Nat → Option Nat
  | [] => none
  | k :: r =>
    if c.wayRef k then c.oldest r
    else match c.oldest r with
      | none => some k
      | some j => if c.wayAge k < c.wayAge j then some j else some k
/-- Apply a change to the frames of some ways. -/
def mapFrames (f : Frame → Frame) (m : NMap Frame) : List Nat → NMap Frame
  | [] => m
  | k :: r => match mapGet m k with
    | some x => mapFrames f (mapPut m k (f x)) r
    | none => mapFrames f m r
/-- choose(set) of R316: the way for a new frame, with REF and AGE updated. -/
def Cache.choose (c : Cache) (l : Nat) : Nat × Cache :=
  let ks := setKeys l
  match ks.find? c.wayFree with
  | some k => (k, c)
  | none =>
    let c := if ks.all c.wayRef then { c with frames := mapFrames (fun f => { f with ref := false }) c.frames ks } else c
    let w := (c.oldest ks).getD (lineSet l * 4)
    let others := ks.filter (fun k => k ≠ w && !c.wayRef k)
    (w, { c with frames := mapFrames (fun f => { f with age := if f.age = 3#2 then 3#2 else f.age + 1#2 }) c.frames others })
/-- Install a line (R315, R316): in its frame where present, else in a chosen way; a streaming fill leaves REF 0 and AGE 3. -/
def Cache.install (c : Cache) (l : Nat) (cells : Line) (stream : Bool) : Cache :=
  let cl : CLine := { cells := cells, bad := 0#16 }
  let mark (f : Frame) : Frame := if stream then { f with ref := false, age := 3#2 } else f.touch
  match c.matching l with
  | k :: _ => match mapGet c.frames k with
    | some f => { c with frames := mapPut c.frames k (mark { f with lines := mapPut f.lines (lineSlot l) cl }) }
    | none => c
  | [] =>
    let w := c.choose l
    { w.2 with
      frames := mapPut w.2.frames w.1
        (mark { faddr := lineFrame l, ref := false, age := 0#2, bad := false, lines := [(lineSlot l, cl)] }) }
/-- Remove a line from the frames. -/
def Cache.invalidate (c : Cache) (l : Nat) : Cache :=
  { c with frames := mapFrames (fun f => { f with lines := mapDel f.lines (lineSlot l) }) c.frames (c.matching l) }
/-- Remove a line from the prefetch buffer, and make fills and prefetches of it in flight install nothing (R315, R322). -/
def Cache.forget (c : Cache) (l : Nat) : Cache :=
  { c with
    buf := c.buf.filter (fun b => b.line ≠ l)
    reqs := c.reqs.map (fun q => if q.line = l then { q with dead := true } else q)
    fill := c.fill.map (fun f => if f.line = l then { f with dead := true } else f) }
/-- Remove a line from a cache and its buffers (R329). -/
def Cache.drop (c : Cache) (l : Nat) : Cache := (c.invalidate l).forget l
/-- Every line invalid, the prefetch buffer empty, and what is in flight installs nothing (R313, R333). -/
def Cache.clear (c : Cache) : Cache :=
  { frames := [], buf := [], reqs := c.reqs.map (fun q => { q with dead := true }),
    fill := c.fill.map (fun f => { f with dead := true }) }
/-- The cells of a line after the issuing core's store (R317): a marked cell keeps the CDR the cache holds. -/
def updateLine (old : Line) (cells : NMap (Cell × Bool)) : Line :=
  Vector.ofFn (fun p : Fin 16 => match mapGet cells p.val with
    | some (v, true) => withCdr v (cellCdr old[p])
    | some (v, false) => v
    | none => old[p])
/-- The data cache of the issuing core at its store step (R317, R329). -/
def Cache.store (c : Cache) (l : Nat) (cells : NMap (Cell × Bool)) : Cache :=
  let c := c.forget l
  match c.lookup l with
  | some (k, f, cl) =>
    { c with
      frames := mapPut c.frames k
        { f with lines := mapPut f.lines (lineSlot l) { cl with cells := updateLine cl.cells cells } } }
  | none => c

/-! ### A store step (R329) -/

/-- The effect of a store step on caches and buffers: the issuing core's data cache is updated, the line leaves every other. A
step of the sweeper or the unit port has no issuing core. -/
def Mach.storeStep (m : Mach) (ag : Agent) (l : Nat) (cells : NMap (Cell × Bool)) : Mach :=
  let upd (j : Fin 2) (m : Mach) : Mach :=
    let co := m.core j
    m.setCore j { co with
      icache := co.icache.drop l
      dcache := if ag = coreAgent j then co.dcache.store l cells else co.dcache.drop l }
  upd 1 (upd 0 m)
/-- A write of memory cells takes its place in memory and the caches. -/
def Mach.memPlace (m : Mach) (ag : Agent) (l : Nat) (cells : NMap (Cell × Bool)) : Mach :=
  (m.turnWrite ag l cells).storeStep ag l cells
/-- A write of memory cells takes its place: memory, caches, mirror stream. -/
def Mach.memStep (m : Mach) (ag : Agent) (l : Nat) (cells : NMap (Cell × Bool)) : Mach :=
  (m.memPlace ag l cells).mirrorStore (l * 16) cells
/-- Write every listed near-store cell. -/
def Mach.nearCells (m : Mach) (base : Nat) : NMap (Cell × Bool) → Mach
  | [] => m
  | (p, v, md) :: r => (m.nearStore (base + p) v md).nearCells base r
/-- A write of near-store cells takes its place. -/
def Mach.nearStep (m : Mach) (ag : Agent) (l : Nat) (cells : NMap (Cell × Bool)) : Mach :=
  (({ m with ch.proc.granted := ag }).nearCells (l * 16 - 0x80000000) cells).mirrorStore (l * 16) cells
/-- A write of one cell at a physical address takes its place, by whichever store holds it; refused addresses write nothing. -/
def Mach.cellStep (m : Mach) (ag : Agent) (a : Nat) (v : Cell) (marked : Bool) : Mach :=
  match m.ch.place a with
  | .memory => m.memStep ag (a / 16) [(a % 16, v, marked)]
  | .near => m.nearStep ag (a / 16) [(a % 16, v, marked)]
  | _ => m

/-! ### Array errors (R324) -/

/-- A masked cache error: counted, recorded, and vector 34 where enabled. -/
def Mach.cacheError (m : Mach) (k : Fin 2) (unit : BitVec 3) (line : Nat) : Mach :=
  let m := { m.bump (96 * k.val + 63) with ch := winPut (m.bump (96 * k.val + 63)).ch 0x1403 (satInc (winGet m.ch 0x1403)) }
  let m := m.report 0x06#6 false false ((BitVec.ofNat 1 k.val) ++ unit ++ BitVec.ofNat 28 line : BitVec 32)
  m.raiseIf (winBit m.ch 0x1400 3) 34 (fix ((BitVec.ofNat 1 k.val) ++ unit ++ 0#20 : BitVec 24))
/-- Remove the directory entries of a set that have bad parity, or that match the same frame twice, each counted. (DEDUCED, unsafe: log 19.) -/
def Mach.dropBadWays (m : Mach) (k : Fin 2) (dc : Bool) (l : Nat) : List Nat → Mach
  | [] => m
  | j :: r =>
    let c := m.cache k dc
    let twice := decide ((c.matching l).length ≥ 2) && (c.matching l).contains j
    match mapGet c.frames j with
    | some f =>
      if f.bad || twice then
        let gone := if twice then (c.matching l) else [j]
        let m := m.setCache k dc { c with frames := gone.foldl mapDel c.frames }
        (m.cacheError k 2#3 0).dropBadWays k dc l r
      else m.dropBadWays k dc l r
    | none => m.dropBadWays k dc l r

/-! ### Demand reads (R315, R320, R322) -/

/-- Whether a line lies in the range the range engine is clearing (R326). -/
def Mach.inRange (m : Mach) (l : Nat) : Bool :=
  match m.ch.proc.range with
  | some (p, n) => decide (p ≤ l / 64) && decide (l / 64 < p + n)
  | none => false
/-- The fill in flight of a cache arrives: its line is installed unless it was made to install invalid. -/
def Mach.settleFill (m : Mach) (k : Fin 2) (dc : Bool) : Mach :=
  let c := m.cache k dc
  match c.fill with
  | none => m
  | some f =>
    let c := { c with fill := none }
    m.setCache k dc (if f.dead || m.inRange f.line then c else c.install f.line f.cells false)
/-- Whether a prefetch of a line is dropped: the line is valid, held or requested, two requests are in flight, or the range engine
clears its page (R320-R322, R326). -/
def Mach.dropsPrefetch (m : Mach) (k : Fin 2) (dc : Bool) (l : Nat) : Bool :=
  let c := m.cache k dc
  c.holds l || c.buf.any (fun b => b.line = l) || c.reqs.any (fun q => q.line = l)
    || decide (c.reqs.length ≥ 2) || m.inRange l || (match c.fill with | some f => decide (f.line = l) | none => false)
/-- Request a prefetch of a line: where it is not dropped, its read takes its place, speculative (R323, R366). -/
def Mach.prefetch (m : Mach) (k : Fin 2) (dc : Bool) (l : Nat) (stride : Bool) : Mach :=
  let c := m.cache k dc
  if m.dropsPrefetch k dc l then m
  else
    let rd := (if stride then m.bump (96 * k.val + 59) else m).turnRead (coreAgent k) l 0#2 true
    rd.2.setCache k dc { c with reqs := c.reqs ++ [{ line := l, cells := rd.1, stride := stride, dead := false }] }
/-- Whether the next-line prefetch of a cache is on (Table 14.7). -/
def Mach.nextLineOn (m : Mach) (dc : Bool) : Bool := winBit m.ch 0x1400 (if dc then 1 else 0)
/-- The request of the next line that a demand miss of line l makes, in the same page (R320). -/
def Mach.nextLine (m : Mach) (k : Fin 2) (dc : Bool) (l : Nat) : Mach :=
  if m.nextLineOn dc && decide (l % 64 ≠ 63) then m.prefetch k dc (l + 1) false else m
/-- Whether a demand miss of line l makes a request of the next line that is not dropped, so that its fill is marked OPEN (R373). -/
def Mach.nextLineGoes (m : Mach) (k : Fin 2) (dc : Bool) (l : Nat) : Bool :=
  m.nextLineOn dc && decide (l % 64 ≠ 63) && !m.dropsPrefetch k dc (l + 1)
/-- A line is in flight to serve as a cache's blocking fill. -/
def Mach.setFill (m : Mach) (k : Fin 2) (dc : Bool) (l : Nat) (cells : Line) : Mach :=
  m.setCache k dc { m.cache k dc with fill := some { line := l, cells := cells, dead := m.inRange l } }
/-- A demand miss: the line's read takes its place, the fill is in flight, and then the next line may be requested (R315, R320, R322). -/
def Mach.missFill (m : Mach) (k : Fin 2) (dc : Bool) (l : Nat) : Line × Mach :=
  let rd := m.turnRead (coreAgent k) l (if m.nextLineGoes k dc l then 1#2 else 0#2) false
  (rd.1, (rd.2.setFill k dc l rd.1).nextLine k dc l)
/-- A demand read that the frames did not serve: from the prefetch buffer, from the prefetch of it in flight, which becomes the blocking
fill, or by a fill. A line of the range being cleared is not installed (R322, R326). -/
def Mach.missRead (m : Mach) (k : Fin 2) (dc : Bool) (l : Nat) : Line × Mach :=
  let c := m.cache k dc
  match c.buf.find? (fun b => b.line = l) with
  | some b =>
    let c := { c with buf := c.buf.filter (fun x => x.line ≠ l) }
    if b.bad then
      (((m.setCache k dc c).cacheError k (if dc then 1#3 else 0#3) l).missFill k dc l)
    else (b.cells, m.setCache k dc (if m.inRange l then c else c.install l b.cells b.stride))
  | none =>
    match c.reqs.find? (fun q => q.line = l && !q.dead) with
    | some q =>
      let m := m.setCache k dc { c with reqs := c.reqs.filter (fun x => x.line ≠ l) }
      (q.cells, (m.setFill k dc l q.cells).nextLine k dc l)
    | none => m.missFill k dc l
/-- A read of a CACHED line through a cache, the cache enabled. -/
def Mach.cacheLine (m : Mach) (k : Fin 2) (dc : Bool) (a : Nat) : Line × Mach :=
  let l := a / 16
  let m := m.settleFill k dc
  let m := m.dropBadWays k dc l (setKeys l)
  let c := m.cache k dc
  match c.lookup l with
  | some (j, f, cl) =>
    if cl.bad.getLsbD (a % 16) then
      ((m.setCache k dc (c.invalidate l)).cacheError k (if dc then 1#3 else 0#3) l).missRead k dc l
    else (cl.cells, m.setCache k dc { c with frames := mapPut c.frames j f.touch })
  | none => m.missRead k dc l
/-- The cell at position `a mod 16` of a line. -/
def lineAt (ln : Line) (a : Nat) : Cell := ln[(⟨a % 16, Nat.mod_lt _ (by decide)⟩ : Fin 16)]
/-- A read of one cell of memory by a core, through its data cache when `cached` and enabled, else from memory. -/
def Mach.memFetch (m : Mach) (k : Fin 2) (a : Nat) (cached : Bool) : Cell × Mach :=
  if cached && m.ch.proc.dcen then
    let r := m.cacheLine k true a
    (lineAt r.1 a, r.2)
  else
    let r := m.turnRead (coreAgent k) (a / 16) 0#2 false
    (lineAt r.1 a, r.2)

end Sys2Proof.Machine
end

