-- ==== Sys2Proof/Machine/Perf.lean ====
section
/-! DEFINITION. Performance counters, the stamp, the tally buffer, sampling and page 0x06 (22). -/
namespace Sys2Proof.Machine

/-- Core counted events of Table 22.1 that the model counts; the others count cycles, microwords, or accesses that instruction fetch and
load-aheads share, and read as free values. (DESIGN CHOICE, safe: log 11.) -/
def coreCounted : List Nat :=
  [4, 5, 6, 7, 20, 21, 22, 23, 24, 25, 26, 27, 28, 29, 30, 31, 34, 36, 37, 38, 40, 41, 43, 44, 45, 46, 47, 59, 62, 63, 64, 65, 67, 68,
   77, 78, 79, 80, 81, 82, 83, 84, 85, 95]
/-- Channel counted events of Table 22.2 that the model counts. -/
def chanCounted : List Nat :=
  [3, 4, 5, 17, 25, 27, 29, 30, 31, 32, 33, 34, 35, 36, 37, 38, 39, 40, 41, 42, 43, 44, 45, 46, 48, 49, 50, 51, 52, 53, 54, 55, 56, 57, 58,
   59, 60, 61, 62, 63]
/-- Whether the model counts a counter. -/
def counted (n : Nat) : Bool := if n < 192 then coreCounted.contains (n % 96) else chanCounted.contains (n - 192)
/-- A read of a counter: its count, or a free value. (DESIGN CHOICE, safe: log 11.) -/
def Mach.readCounter (m : Mach) (n : Nat) : BitVec 48 × Mach :=
  if counted n then (mapAt 0#48 m.ch.perf.counts n, m) else let r := m.draw (2 ^ 48); (BitVec.ofNat 48 r.1, r.2)
/-- CYCLE_COUNTER_WRAP: the wrap count of the core (R492). -/
def Mach.cycleWrap (m : Mach) (k : Fin 2) : Mach :=
  if m.ch.life.cond = .running then
    m.count (fun c => if k = 0 then { c with wrap0 := satInc c.wrap0 } else { c with wrap1 := satInc c.wrap1 })
  else m
/-- CYCLE_COUNTER_WRAP. -/
def execCycleCounterWrap (c : Chan) (k : Fin 2) (s : State) : Out := .next (s.onMach c (fun m => m.cycleWrap k))

/-! ### The stamp (R494) -/

/-- A read of STAMPL: TIME, with WRAP captured for the thread; the stamp counts core cycles, a free value. (DESIGN CHOICE, safe: log 11.) -/
def Mach.readStamp (m : Mach) (t : Fin 8) : Payload × Mach :=
  let r := m.draw (2 ^ 32)
  let w : BitVec 32 := BitVec.ofNat 32 r.1
  (w.extractLsb' 0 24, r.2.setThr t { r.2.thr t with stampCap := some (w.extractLsb' 24 8 |>.setWidth 24) })
/-- STAMPL_READ. -/
def execStamplRead (c : Chan) (t : Fin 8) (s : State) : Out := .next (s.program c (fun m => (m.readStamp t).2))

/-! ### Records (R495-R501) -/

/-- SMPCTL, TLYCTL and TLWMARK. -/
def Channel.smpctl (ch : Channel) : Payload := winGet ch 0x1800
/-- TLYCTL. -/
def Channel.tlyctl (ch : Channel) : Payload := winGet ch 0x1801
/-- A record is lost. -/
def Mach.loseRecord (m : Mach) : Mach := { m.bumpC 61 with ch.perf.lost := satInc m.ch.perf.lost }
/-- A record arrives: lost while STOPPED is 1 or the queue is full (R496, R498). -/
def Mach.queueRecord (m : Mach) (sample : Bool) (cells : Vector Cell 4) : Mach :=
  if m.ch.perf.stopped || 4 ≤ m.ch.perf.queue.length then m.loseRecord
  else { m with ch.perf.queue := m.ch.perf.queue ++ [(sample, cells)] }
/-- The tally record of a retired instruction when its latency, a free value, exceeds THRESH (R499). (DESIGN CHOICE, safe: log 11.) -/
def Mach.tallyRecord (m : Mach) (t : Fin 8) (pc icell : VAddr) : Mach :=
  let l := m.draw 4095
  let lat := l.1 + 1
  let w := l.2.draw (2 ^ 32)
  let wrap : BitVec 8 := BitVec.ofNat 8 (w.1 / 2 ^ 24)
  if bits m.ch.tlyctl 0 12 < lat then
    w.2.queueRecord false #v[raw (0#1 ++ BitVec.ofNat 3 t.val ++ wrap ++ BitVec.ofNat 12 lat : BitVec 24), raw pc, raw icell,
      raw (BitVec.ofNat 24 w.1)]
  else w.2
/-- The sample record of a marked instruction (R501). (DESIGN CHOICE, safe: log 11.) -/
def Mach.sampleRecord (m : Mach) (t : Fin 8) (pc icell : VAddr) (retired : Bool) : Mach :=
  let f := m.draw 8
  let w := f.2.draw (2 ^ 32)
  let d := w.2.draw (2 ^ 24)
  let wrap : BitVec 8 := BitVec.ofNat 8 (w.1 / 2 ^ 24)
  (d.2.bumpC 62).queueRecord true #v[
    raw (1#1 ++ BitVec.ofNat 3 t.val ++ wrap ++ BitVec.ofNat 3 f.1 ++ BitVec.ofBool (!retired) ++ icell.extractLsb' 16 8 : BitVec 24),
    raw pc, raw (BitVec.ofNat 24 w.1), raw (BitVec.ofNat 24 d.1)]
/-- The mark of a core's selected instruction is taken. -/
def Mach.unmark (m : Mach) (k : Fin 2) : Mach := { m with ch.perf.marked := setBit m.ch.perf.marked k.val false }
/-- An instruction ends on a thread: its tally record, then its sample record when it is the marked one (R499-R501). -/
def Mach.tally (m : Mach) (t : Fin 8) (pc icell : VAddr) (retired : Bool) : Mach :=
  let y := m.ch.tlyctl
  let m := if retired && bit y 23 && bit y (12 + t.val) then m.tallyRecord t pc icell else m
  if bit m.ch.perf.marked (coreOf t).val && bit m.ch.smpctl (8 + t.val) then
    if bit m.ch.smpctl 23 then (m.unmark (coreOf t)).sampleRecord t pc icell retired else m.unmark (coreOf t)
  else m
/-- SAMPLING_COUNTDOWN_EXPIRY: the next selected instruction of the core is marked (R500). -/
def Mach.sampleMark (m : Mach) (k : Fin 2) : Mach :=
  if m.fastOn && bit m.ch.smpctl 23 then { m with ch.perf.marked := setBit m.ch.perf.marked k.val true } else m
/-- SAMPLING_COUNTDOWN_EXPIRY. -/
def execSamplingCountdownExpiry (c : Chan) (k : Fin 2) (s : State) : Out := .next (s.onMach c (fun m => m.sampleMark k))
/-- A record written at HEAD (R495, R496). -/
def Mach.putRecord (m : Mach) (sample : Bool) (cells : Vector Cell 4) : Mach :=
  let p := m.ch.perf
  let a := 0x80000000 + m.ch.proc.nearbase.toNat + 1024 + 4 * p.head.toNat
  let m := m.nearStep .unitPort (a / 16) ((upFrom (a % 16) 4).zip (cells.toList.map (fun v => (v, false))))
  let mode := bit m.ch.tlyctl 22
  let full := decide (512 ≤ p.count)
  let count := if full then 512 else p.count + 1
  let m := { m.bumpIf (!sample) 60 with ch.perf := { m.ch.perf with
    head := p.head + 1#9, count := count
    stopped := p.stopped || (!mode && decide (count = 512))
    wrapped := p.wrapped || (mode && full) } }
  let first89 := (!mode && decide (count = 512) && !p.stopped) || (mode && full && !p.wrapped)
  let m := m.raiseIf (first89 && bit m.ch.tlyctl 20) 89 (fixN (bnat mode))
  let m := m.raiseIf (!full && decide (count = bits (winGet m.ch 0x1802) 0 9) && bit m.ch.tlyctl 21) 90 (fixN count)
  m.raiseIf (sample && bit m.ch.smpctl 22) 91 (fixN p.head.toNat)
/-- TALLY_RECORD_WRITE: the oldest queued record takes its unit-port step; none while STOPPED is 1. -/
def Mach.tallyWrite (m : Mach) : Mach :=
  match m.ch.perf.queue with
  | [] => m
  | r :: rest => if m.ch.perf.stopped then m else ({ m with ch.perf.queue := rest }).putRecord r.1 r.2
/-- Every queued record is written. -/
def Mach.tallyDrain (m : Mach) : Mach := iterN (fun _ m => Mach.tallyWrite m) 0 4 m
/-- TALLY_RECORD_WRITE. -/
def execTallyRecordWrite (c : Chan) (s : State) : Out :=
  .next (s.onMach c (fun m => if m.fastOn then m.tallyWrite else m))
/-- A store of TLACK (R497), N limited to 1 to 512. -/
def Mach.tlack (m : Mach) (n : BitVec 10) : Mach :=
  let p := m.ch.perf
  let count := p.count - max 1 (min 512 n.toNat)
  { m with ch.perf := { p with count := count, stopped := p.stopped && !decide (count < 512) } }
/-- TLACK. -/
def execTlack (c : Chan) (n : BitVec 10) (s : State) : Out := .next (s.program c (fun m => m.tlack n))
/-- A store of TLCLR := 1. -/
def Mach.tlclr (m : Mach) : Mach := { m with ch.perf := { m.ch.perf with head := 0#9, count := 0, stopped := false, wrapped := false } }
/-- TLCLR. -/
def execTlclr (c : Chan) (s : State) : Out := .next (s.program c Mach.tlclr)

/-! ### Window (Table 22.5) -/

/-- A load of page 0x06. -/
def Mach.perfLoad (m : Mach) (t : Fin 8) (o : Nat) : Payload × Mach :=
  let p := m.ch.perf
  if o = 0x1800 || o = 0x1801 || o = 0x1802 then (winGet m.ch o, m)
  else if o = 0x1803 then
    (BitVec.ofBool p.stopped ++ BitVec.ofBool p.wrapped ++ BitVec.ofNat 3 p.queue.length ++ BitVec.ofNat 10 p.count ++ p.head : BitVec 24) |>
      fun v => (v, m)
  else if o = 0x1806 then (p.lost, m)
  else if o = 0x1807 then m.readStamp t
  else if o = 0x1808 then
    match (m.thr t).stampCap with
    | some w => (w, m.setThr t { m.thr t with stampCap := none })
    | none => let r := m.draw 256; (BitVec.ofNat 24 r.1, r.2)
  else (0#24, m)
/-- A field limited to its stated range (R503). -/
def limited (p : Payload) (lo n least most : Nat) : Payload := setField p lo n (max least (min most (bits p lo n)))
/-- A store to page 0x06. -/
def Mach.perfStore (m : Mach) (o : Nat) (v : Payload) : Mach :=
  if o = 0x1800 then { m with ch := winPut m.ch o (limited (v &&& 0xC0FF1F#24) 0 5 4 20) }
  else if o = 0x1801 then { m with ch := winPut m.ch o (limited v 0 12 8 4095) }
  else if o = 0x1802 then { m with ch := winPut m.ch o (limited (v &&& 0x1FF#24) 0 9 1 511) }
  else if o = 0x1804 then m.tlack (v.extractLsb' 0 10)
  else if o = 0x1805 then (if bit v 0 then m.tlclr else m)
  else m

end Sys2Proof.Machine
end

