-- ==== Sys2Proof/Machine/Spaces.lean ====
section
/-! DEFINITION. Managed spaces: slots, region maps, the remembered-set log, and how a cycle ends early (R335-R345, R355). -/
namespace Sys2Proof.Machine

/-! ### Slots and region maps -/

/-- A managed-space slot. -/
def Mach.slot (m : Mach) (s : Fin 8) : Slot := m.ch.sw.slots[s]
/-- Replace a slot. -/
def Mach.setSlot (m : Mach) (s : Fin 8) (x : Slot) : Mach := { m with ch.sw.slots := m.ch.sw.slots.set s x }
/-- The enabled slot of an ASID (R335). -/
def Sweeper.slotOfAsid (sw : Sweeper) (asid : BitVec 8) : Option (Fin 8) :=
  ([0, 1, 2, 3, 4, 5, 6, 7] : List (Fin 8)).find? (fun s => sw.slots[s].en && decide (sw.slots[s].asid = asid))
/-- The managed space of a thread's accesses: TE is 1 and an enabled slot has its ASID (R335). -/
def Mach.spaceOf (m : Mach) (th : Thread) : Option (Fin 8) := if th.te then m.ch.sw.slotOfAsid th.asid else none
/-- The region number of a virtual address: bits 23:16 (R336). -/
def regionOf (a : Nat) : Nat := a / 0x10000 % 256
/-- The map entry of a region. -/
def Slot.entry (x : Slot) (r : Nat) : Payload := mapAt 0#24 x.map r
/-- KIND of a map entry (Table 15.1). -/
def entryKind (e : Payload) : Nat := bits e 21 3
/-- NEW of a map entry. -/
def entryNew (e : Payload) : Bool := bit e 19
/-- ROOT of a map entry. -/
def entryRoot (e : Payload) : Bool := bit e 20
/-- FIRST of a map entry. -/
def entryFirst (e : Payload) : Nat := bits e 8 8
/-- KIND of a region. -/
def Slot.kind (x : Slot) (r : Nat) : Nat := entryKind (x.entry r)
abbrev kFREE : Nat := 0
abbrev kNURSERY : Nat := 1
abbrev kOLD : Nat := 2
abbrev kEVAC : Nat := 3
abbrev kLARGE : Nat := 4
abbrev kSTATIC : Nat := 5
abbrev kUNMANAGED : Nat := 6
/-- A map entry. -/
def mkEntry (kind : Nat) (root new : Bool) (first : Nat) : Payload :=
  (BitVec.ofNat 3 kind ++ BitVec.ofBool root ++ BitVec.ofBool new ++ 0#3 ++ BitVec.ofNat 8 first ++ 0#8 : BitVec 24)
/-- The FREE count of a slot: the regions with no other kind. -/
def Slot.freeCount (x : Slot) : Nat := 256 - (x.map.filter (fun e => entryKind e.2 ≠ kFREE)).length
/-- The NURSERY count of a slot. -/
def Slot.nurseryCount (x : Slot) : Nat := (x.map.filter (fun e => entryKind e.2 = kNURSERY)).length
/-- The regions of a slot, in order, that satisfy a test on their entries. -/
def Slot.regions (x : Slot) (p : Payload → Bool) : List Nat := (upFrom 0 256).filter (fun r => p (x.entry r))
/-- SWCTL.LOWMARK. -/
def Channel.lowmark (ch : Channel) : Nat := bits (winGet ch 0x2000) 8 8
/-- SWRSV.RSV. -/
def Channel.rsv (ch : Channel) : Nat := bits (winGet ch 0x2001) 0 8

/-! ### Ends of a cycle (R355) -/

/-- The phase number of SWSTAT (Table 15.9). -/
def Phase.code : Phase → Nat
  | .idle => 0
  | .roots => 1
  | .mark => 2
  | .select => 3
  | .evacuate => 4
  | .fixup => 5
  | .stopped => 6
/-- Whether a phase is ROOTS or MARK. -/
def Phase.marking : Phase → Bool
  | .roots => true
  | .mark => true
  | _ => false
/-- Clear every root request. -/
def clearRoots (v : Vector Thread 8) : Vector Thread 8 := v.map (fun t => { t with rootReq := false, rootPend := false })
/-- Write RAW 0 into the mark cells a cycle has set (R340). -/
def Mach.clearMarks (m : Mach) : List Nat → Mach
  | [] => m
  | a :: r => (m.cellStep .sweeper a (raw 0#24) false).clearMarks r
/-- The sweeper stops with cause 4 until the next reset. -/
def Mach.swStop (m : Mach) (s : Fin 8) : Mach :=
  let m := { m with ch.sw := { m.ch.sw with phase := .stopped, cause := 4#3, starting := false, xlate := none } }
  m.raiseIf (winBit m.ch 0x2000 1) 81 (fixN (32 + s.val))
/-- The memory word that mirrors a map entry: REGMAP page × 1,024 + 256 × slot + region (R335, R338). -/
def Mach.mapAddr (m : Mach) (s : Fin 8) (r : Nat) : Nat := bits m.ch.proc.regmap 0 22 * 1024 + 256 * s.val + r
/-- Leave the cycle for IDLE with a cause: root requests and the cycle's work are cleared, vector 81 is raised. -/
def Mach.swLeave (m : Mach) (cause : BitVec 3) : Mach :=
  let s := m.ch.sw.slot
  let m := { m.bumpC 37 with
    ch.thr := clearRoots m.ch.thr
    ch.sw := { m.ch.sw with
      phase := .idle, cause := cause, queue := [], spilled := 0, live := [], marks := [], work := [], todo := [], copy := none,
      toBlocks := [], toSpace := [], lost := false, whole := false, starting := false, planned := false, xlate := none } }
  m.raiseIf (winBit m.ch 0x2000 1) 81 (fixN (cause.toNat * 8 + s.val))
/-- Clear NEW in the on-chip map alone. -/
def Slot.clearNew (x : Slot) : Slot := { x with map := (mapVals (fun e => setBit e 19 false) x.map).filter (fun e => e.2 ≠ 0#24) }
/-- Write the memory mirror of an entry. A refused write is a sweeper error: in ROOTS, MARK and SELECT the cycle is abandoned,
elsewhere the sweeper stops. -/
def Mach.mirrorEntry (m : Mach) (s : Fin 8) (r : Nat) (e : Payload) : Mach :=
  match m.ch.place (m.mapAddr s r) with
  | .memory => m.cellStep .sweeper (m.mapAddr s r) (fix e) false
  | _ =>
    let leave : Mach := ((m.clearMarks m.ch.sw.marks).setSlot m.ch.sw.slot (m.slot m.ch.sw.slot).clearNew).swLeave 4#3
    match m.ch.sw.phase with
    | .stopped => m
    | .roots => leave
    | .mark => leave
    | .select => leave
    | _ => m.swStop s
/-- Change the map entry of a region, in the on-chip map and its memory mirror (R338); vector 82 is raised when the FREE count
falls from above LOWMARK to LOWMARK or below (R348). -/
def Mach.setRegion (m : Mach) (s : Fin 8) (r : Nat) (e : Payload) : Mach :=
  let x := m.slot s
  let y := { x with map := mapSet 0#24 x.map r e }
  let m := m.setSlot s y
  let m := m.raiseIf (decide (m.ch.lowmark ≠ 0) && decide (x.freeCount > m.ch.lowmark)
    && decide (y.freeCount ≤ m.ch.lowmark) && winBit m.ch 0x2000 2) 82 (fixN s.val)
  m.mirrorEntry s r e
/-- Go on with sweeper work where what was done before it has not ended the cycle or stopped the sweeper (R355). -/
def Mach.unlessEnded (m : Mach) (p : Phase) (f : Mach → Mach) : Mach := if m.ch.sw.phase = p then f m else m
/-- Change several regions to one entry; a refused mirror ends the work (R355). -/
def Mach.setRegions (m : Mach) (s : Fin 8) (e : Payload) : List Nat → Mach
  | [] => m
  | r :: rs => (m.setRegion s r e).unlessEnded m.ch.sw.phase (fun n => n.setRegions s e rs)
/-- Clear NEW of every region of a slot. -/
def Mach.clearNew (m : Mach) (s : Fin 8) : List (Nat × Payload) → Mach
  | [] => m
  | (r, e) :: rs =>
    (if entryNew e then m.setRegion s r (setBit e 19 false) else m).unlessEnded m.ch.sw.phase (fun n => n.clearNew s rs)
/-- The cycle is abandoned: marks, NEW and root requests are cleared, the sweeper is IDLE, vector 81 is raised. -/
def Mach.swAbandon (m : Mach) (cause : BitVec 3) : Mach :=
  let s := m.ch.sw.slot
  let m := m.clearMarks m.ch.sw.marks
  (m.clearNew s (m.slot s).map).swLeave cause
/-- A sweeper translation or bus error, or a refused access, of slot `s` (cause 4). -/
def Mach.swError (m : Mach) (s : Fin 8) : Mach :=
  match m.ch.sw.phase with
  | .roots => m.swAbandon 4#3
  | .mark => m.swAbandon 4#3
  | .select => m.swAbandon 4#3
  | .stopped => m
  | _ => m.swStop s

/-! ### The remembered-set log (R345) -/

/-- The log entry of a virtual target address in a slot. -/
def logEntry (s : Fin 8) (va : VAddr) : Payload := (BitVec.ofNat 3 s.val ++ 0#3 ++ va.extractLsb' 6 18 : BitVec 24)
/-- Set LOGOVF of a slot. -/
def Mach.setOvf (m : Mach) (s : Fin 8) : Mach := m.setSlot s { m.slot s with logovf := true }
/-- An entry is lost: LOGOVF, vector 83, and abandonment during ROOTS or MARK of a young cycle (R345, R355). -/
def Mach.logLost (m : Mach) (s : Fin 8) : Mach :=
  let m := (m.bumpC 42).setOvf s
  let m := m.raiseIf (winBit m.ch 0x2000 3) 83 (fixN s.val)
  if m.ch.sw.phase.marking && !m.ch.sw.full then m.swAbandon 3#3 else { m with ch.sw.lost := true }
/-- A log action takes its place: one entry into the ring, or a lost entry where the ring is full. -/
def Mach.logStep (m : Mach) (ag : Agent) (s : Fin 8) (e : Payload) : Mach :=
  if m.ch.sw.logOcc = 1024#11 then m.logLost s
  else
    let a := 0x80000000 + m.ch.proc.nearbase.toNat + m.ch.sw.logHead.toNat
    let m := m.nearStep ag (a / 16) [(a % 16, raw e, false)]
    { m.bumpC 41 with ch.sw := { m.ch.sw with logHead := m.ch.sw.logHead + 1#10, logOcc := m.ch.sw.logOcc + 1#11 } }
/-- The log actions of a write buffer entry or a step, in order. -/
def Mach.logSteps (m : Mach) (ag : Agent) : List (Fin 8 × BitVec 24) → Mach
  | [] => m
  | (s, e) :: r => (m.logStep ag s e).logSteps ag r

/-! ### Barrier predicates (R343, R350, R351) -/

/-- Whether the cycle follows pointers into a region kind (R351). -/
def Sweeper.follows (sw : Sweeper) (kind : Nat) : Bool :=
  decide (kind = kNURSERY) || (sw.full && (decide (kind = kOLD) || decide (kind = kLARGE)))
/-- Whether a phase is EVACUATE or FIXUP, or the sweeper stopped in one of them (R355). -/
def Phase.moving : Phase → Bool
  | .evacuate => true
  | .fixup => true
  | .stopped => true
  | _ => false
/-- Whether a barrier write of `v` at `va` in slot `s` makes a log action (Table 15.3). -/
def Mach.logs (m : Mach) (s : Fin 8) (va : VAddr) (v : Cell) : Bool :=
  let x := m.slot s
  let kt := x.kind (regionOf va.toNat)
  let kv := x.kind (regionOf (cellPay v).toNat)
  isPtrOrFwd v && (decide (kt = kOLD) || decide (kt = kLARGE)) && (decide (kv = kNURSERY) || decide (kv = kEVAC))
/-- Whether a barrier write in slot `s` makes a snapshot action for the overwritten cell. -/
def Mach.snapshots (m : Mach) (s : Fin 8) (old : Cell) : Bool :=
  decide (m.ch.sw.slot = s) && m.ch.sw.phase.marking && isPtrOrFwd old
    && m.ch.sw.follows ((m.slot s).kind (regionOf (cellPay old).toNat))
/-- Whether a barrier write at `va` in slot `s` is a checked store. -/
def Mach.checks (m : Mach) (s : Fin 8) (va : VAddr) : Bool :=
  decide (m.ch.sw.slot = s) && m.ch.sw.phase.moving && decide ((m.slot s).kind (regionOf va.toNat) = kEVAC)
/-- Cells with their positions from `i` up, whole. -/
def lineOf (i : Nat) : List Cell → NMap (Cell × Bool)
  | [] => []
  | v :: r => (i, v, false) :: lineOf (i + 1) r
/-- The sweeper writes the oldest 16 entries of the mark queue as one line at the next place of the spill area; a full area
abandons the cycle with cause 1, a refused address with cause 4 (R351, R355). -/
def Mach.spillLine (m : Mach) : Mach :=
  let sw := m.ch.sw
  let size := bits (winGet m.ch 0x2006) 0 12 * 1024
  let a := bits (winGet m.ch 0x2005) 0 22 * 1024 + sw.spilled
  if size < sw.spilled + 16 then m.swAbandon 1#3
  else match m.ch.place a with
    | .memory =>
      let m := m.memStep .sweeper (a / 16) (lineOf 0 (sw.queue.take 16))
      { m.bumpC 40 with ch.sw := { m.ch.sw with queue := m.ch.sw.queue.drop 16, spilled := m.ch.sw.spilled + 16 } }
    | _ => m.swError sw.slot
/-- Push a cell to the mark queue (R351): a full queue spills first, so the push is never refused. -/
def Mach.pushMark (m : Mach) (v : Cell) : Mach :=
  let m := if m.ch.sw.queue.length < 4096 then m else m.spillLine
  if m.ch.sw.phase.marking then { m with ch.sw.queue := m.ch.sw.queue ++ [v] } else m
/-- Push the cells of a list that the cycle follows. -/
def Mach.pushAll (m : Mach) (s : Fin 8) : List Cell → Mach
  | [] => m
  | v :: r => (if m.snapshots s v then m.pushMark v else m).pushAll s r

end Sys2Proof.Machine
end

