-- ==== Sys2Proof/Machine/Walk.lean ====
section
/-! DEFINITION. Address translation: the inverted page table walk, look-aside buffers, rights, and the accessed and dirty update
(R291-R302). -/
namespace Sys2Proof.Machine

/-! ### The walk (R294-R296) -/

/-- What a walk ends in. -/
inductive WalkRes where
  /-- the IPT index, KEY and FLAGS of the entry -/
  | found (i : Nat) (key flags : Payload)
  | miss
  | chain
  | bus
  deriving DecidableEq, Repr

/-- V of FLAGS (Table 13.3). -/
def flV (f : Payload) : Bool := bit f 23
/-- The key ASID of KEY. -/
def keyAsid (k : Payload) : BitVec 8 := k.extractLsb' 16 8
/-- G of an entry: with a key ASID other than 0 it counts as 0 (R293). -/
def flG (k f : Payload) : Bool := bit f 22 && decide (keyAsid k = 0#8)
/-- TYPE of FLAGS. -/
def flType (f : Payload) : BitVec 2 := f.extractLsb' 16 2
/-- The anchor index of (vpn, asid) (R294). -/
def anchorOf (vpn : BitVec 14) (asid : BitVec 8) (k : Nat) : Nat :=
  (vpn.toNat ^^^ (asid.toNat * 0x2D) ^^^ (vpn.toNat / 64)) % 2 ^ k
/-- PT: the first cell of the inverted page table (R291). -/
def Mach.ptBase (m : Mach) : Nat := bits m.ch.proc.ptbase 0 22 * 1024
/-- HB: the first cell of the hash anchor table (R294). -/
def Mach.hatBase (m : Mach) : Nat := bits m.ch.proc.hatbase 0 22 * 1024
/-- One walk read at a memory or, for an anchor, near-store address: the cell, or nothing for a bus error or an uncorrectable
read (R292, R295). -/
def Mach.walkRead (m : Mach) (ag : Agent) (a : Nat) (nearOk : Bool) : Option Cell × Mach :=
  match m.ch.place a with
  | .memory =>
    let r := m.turnRead ag (a / 16) 0#2 false
    let v := lineAt r.1 a
    (if cellTag v = tPSN then none else some v, r.2)
  | .near =>
    if nearOk then
      let r := m.nearFetch (a - 0x80000000)
      (if cellTag r.1 = tPSN then none else some r.1, r.2)
    else (none, m)
  | _ => (none, m)
/-- KEY, FLAGS and NEXT of entry i, read together (R296). -/
def Mach.walkEntry (m : Mach) (ag : Agent) (i : Nat) : Option (Payload × Payload × Payload) × Mach :=
  let a := m.ptBase + 4 * i
  match m.ch.place a with
  | .memory =>
    let r := m.turnRead ag (a / 16) 0#2 false
    let k := lineAt r.1 a
    let f := lineAt r.1 (a + 1)
    let n := lineAt r.1 (a + 2)
    (if cellTag k = tPSN || cellTag f = tPSN || cellTag n = tPSN then none else some (cellPay k, cellPay f, cellPay n), r.2)
  | _ => (none, m)
/-- The chain from a NEXT or anchor payload, at most 64 entries (R295). -/
def Mach.searchFrom (m : Mach) (ag : Agent) (vpn : BitVec 14) (s : BitVec 8) (gOnly : Bool) (p : Payload) : Nat → WalkRes × Mach
  | 0 => if bit p 23 then (.miss, m) else if bits p 0 22 ≥ m.ch.memPages + 320 then (.bus, m) else (.chain, m)
  | n + 1 =>
    if bit p 23 then (.miss, m)
    else
      let i := bits p 0 22
      if i ≥ m.ch.memPages + 320 then (.bus, m)
      else
        match m.walkEntry ag i with
        | (none, m) => (.bus, m)
        | (some (k, f, nx), m) =>
          if flV f && decide (k.extractLsb' 0 14 = vpn) && decide (keyAsid k = s) && (!gOnly || flG k f) then (.found i k f, m)
          else m.searchFrom ag vpn s gOnly nx n
/-- search(vpn, s, G-only) (R295). -/
def Mach.search (m : Mach) (ag : Agent) (vpn : BitVec 14) (s : BitVec 8) (gOnly : Bool) : WalkRes × Mach :=
  match m.walkRead ag (m.hatBase + anchorOf vpn s m.ch.proc.hatsize.toNat) true with
  | (none, m) => (.bus, m)
  | (some v, m) => m.searchFrom ag vpn s gOnly (cellPay v) 64
/-- Whether a TYPE is permitted for an index (Table 13.2, R293). -/
def Channel.typeOk (ch : Channel) (i : Nat) (t : BitVec 2) : Bool :=
  if i < ch.memPages then t = 0 || t = 1 else if i < ch.memPages + 64 then t = 3 else t = 2
/-- walk(vpn, asid) (R295). -/
def Mach.walk (m : Mach) (ag : Agent) (vpn : BitVec 14) (asid : BitVec 8) : WalkRes × Mach :=
  if m.ch.proc.hatsize = 0#24 then (.miss, m)
  else
    let r := m.search ag vpn asid false
    let r := if r.1 = .miss && asid ≠ 0#8 then r.2.search ag vpn 0#8 true else r
    match r with
    | (.found i k f, m) => if m.ch.typeOk i (flType f) then (.found i k f, m) else (.bus, m)
    | r => r
/-- The physical page base of an IPT index (Table 13.2). -/
def Channel.pageBase (ch : Channel) (i : Nat) : Nat :=
  if i < ch.memPages then i * 0x400
  else if i < ch.memPages + 64 then 0x80000000 + (i - ch.memPages) * 0x400
  else 0xC0000000 + (i - ch.memPages - 64) * 0x400

/-! ### Look-aside buffers (R300, R301) -/

/-- The look-aside entry a walk result makes (R300). -/
def tlbOf (i : Nat) (k f : Payload) : TlbEntry :=
  { vpn := k.extractLsb' 0 14, asid := keyAsid k, g := flG k f, idx := BitVec.ofNat 22 i, r := bit f 0, w := bit f 1, x := bit f 2,
    u := bit f 3, typ := flType f, a := bit f 21, d := bit f 20, ref := true, bad := false }
/-- Whether an entry matches (vpn, asid). -/
def TlbEntry.hit (e : TlbEntry) (vpn : BitVec 14) (asid : BitVec 8) : Bool :=
  decide (e.vpn = vpn) && (decide (e.asid = asid) || e.g)
/-- Whether two entries have one VPN, key ASID and G. -/
def TlbEntry.same (e f : TlbEntry) : Bool := decide (e.vpn = f.vpn) && decide (e.asid = f.asid) && decide (e.g = f.g)
/-- The slots whose entries satisfy a test. -/
def tlbWhere (b : NMap TlbEntry) (p : TlbEntry → Bool) : List Nat := (b.filter (fun e => p e.2)).map (fun e => e.1)
/-- The buffer without some slots. -/
def tlbDrop (b : NMap TlbEntry) (p : TlbEntry → Bool) : NMap TlbEntry := b.filter (fun e => !p e.2)
/-- Remove look-aside entries of a core, and the matching entries of its micro buffer (R302, R308). -/
def Core.tlbRemove (co : Core) (p : TlbEntry → Bool) : Core := { co with tlb := tlbDrop co.tlb p, utlb := tlbDrop co.utlb p }
/-- Fill the buffer (R300): the same entry's slot, else the lowest free slot, else the lowest not recently used, clearing all
referenced bits first where every one is set. -/
def tlbFill (b : NMap TlbEntry) (e : TlbEntry) : NMap TlbEntry :=
  match tlbWhere b e.same with
  | k :: _ => mapPut b k e
  | [] =>
    match (upFrom 0 64).find? (fun k => (mapGet b k).isNone) with
    | some k => mapPut b k e
    | none =>
      match tlbWhere b (fun x => !x.ref) with
      | k :: _ => mapPut b k e
      | [] => mapPut (mapVals (fun x => { x with ref := false }) b) 0 e
/-- What a look-aside lookup finds. -/
inductive Lookup where
  | hit (e : TlbEntry)
  | none
  | multi
  deriving DecidableEq, Repr
/-- A lookup (R300, R301): a hit sets the referenced bit; a multi-hit or bad parity removes the entries and is recorded. -/
def Mach.tlbLookup (m : Mach) (k : Fin 2) (vpn : BitVec 14) (asid : BitVec 8) : Lookup × Mach :=
  let co := m.core k
  let hits := tlbWhere co.tlb (fun e => e.hit vpn asid)
  if co.tlb.any (fun e => e.2.bad) || decide (hits.length ≥ 2) then
    let m := m.setCore k (co.tlbRemove (fun e => e.bad || e.hit vpn asid))
    (.multi, m.report 0x06#6 false false ((BitVec.ofNat 1 k.val) ++ 3#3 ++ 0#28 : BitVec 32))
  else match hits with
    | j :: _ => match mapGet co.tlb j with
      | some e => (.hit e, m.setCore k { co with tlb := mapPut co.tlb j { e with ref := true } })
      | none => (.none, m)
    | [] => (.none, m)
/-- Fill a core's look-aside buffer with a walk result; the micro buffer's copies of what it replaces go (R300, R302). -/
def Mach.tlbInsert (m : Mach) (k : Fin 2) (e : TlbEntry) : Mach :=
  let co := m.core k
  let new := tlbFill co.tlb e
  let gone (u : TlbEntry) : Bool := u.same e || (co.tlb.any (fun x => x.2.same u) && !new.any (fun x => x.2.same u))
  m.setCore k { co with tlb := new, utlb := tlbDrop co.utlb gone }
/-- A fetch of a core with TE = 1 removes the entries of its micro buffer that have bad parity, each with its record (R302). -/
def Mach.microCheck (m : Mach) (k : Fin 2) : Mach :=
  let bad := (m.core k).utlb.filter (fun e => e.2.bad)
  let m := if bad.isEmpty then m else m.setCore k { m.core k with utlb := tlbDrop (m.core k).utlb (fun e => e.bad) }
  bad.foldl (fun m _ => m.report 0x06#6 false false ((BitVec.ofNat 1 k.val) ++ 4#3 ++ 0#28 : BitVec 32)) m

/-! ### Accessed and dirty (R299) -/

/-- What the update of FLAGS finds. -/
inductive AdRes where
  | done
  /-- FLAGS has V = 0 -/
  | invalid
  /-- FLAGS reads uncorrectable or is refused -/
  | unreadable
  deriving DecidableEq, Repr
/-- Set A, or A and D, in the FLAGS cell of an IPT index as one turnstile step of a core or the sweeper. -/
def Mach.adWrite (m : Mach) (ag : Agent) (i : Nat) (write : Bool) : AdRes × Mach :=
  let a := m.ptBase + 4 * i + 1
  match m.ch.place a with
  | .memory =>
    let r := m.turnRead ag (a / 16) 0#2 false
    let v := lineAt r.1 a
    if cellTag v = tPSN then (.unreadable, r.2)
    else if flV (cellPay v) then
      let f := setBit (cellPay v) 21 true
      let f := if write then setBit f 20 true else f
      (.done, r.2.cellStep ag a (withPay v f) false)
    else (.invalid, r.2)
  | _ => (.unreadable, m)
/-- The update for a look-aside entry of core `k`: made only where the entry's own copy is 0; a failed one removes the entry. -/
def Mach.adUpdate (m : Mach) (k : Fin 2) (e : TlbEntry) (write : Bool) : AdRes × Mach :=
  let cur := ((m.core k).tlb.map (fun x => x.2)).find? (fun x => x.same e && decide (x.idx = e.idx))
  let have_ := (cur.getD e).a && (!write || (cur.getD e).d)
  if have_ then (.done, m)
  else
    let r := m.adWrite (coreAgent k) e.idx.toNat write
    match r.1 with
    | .done =>
      let co := r.2.core k
      (.done, r.2.setCore k { co with
        tlb := mapVals (fun x => if x.same e && decide (x.idx = e.idx) then { x with a := true, d := x.d || write } else x) co.tlb })
    | other => (other, r.2.setCore k ((r.2.core k).tlbRemove (fun x => x.same e)))

end Sys2Proof.Machine
end

