-- ==== Sys2Proof/Machine/SweepCmd.lean ====
section
/-! DEFINITION. The sweeper's commands and windows, pages 0x08 to 0x0B (R335, R338, R348, R358). A cycle command is accepted
here; its ROOTS phase begins in the sweeper's next step. -/
namespace Sys2Proof.Machine

/-- Whether the sweeper is in phase IDLE with no cycle command accepted that waits for the writes committed before it (R344; log 34). -/
def Mach.swIdle (m : Mach) : Bool := match m.ch.sw.phase with | .idle => !m.ch.sw.starting | _ => false
/-- Record the result of a command. -/
def Mach.swResult (m : Mach) (r : BitVec 2) : Mach := { m with ch.sw.result := r }
/-- Whether a map entry can be enabled: a FIX of kind FREE, STATIC or UNMANAGED with reserved bits 0 (R335). -/
def entryOkToEnable (v : Cell) : Bool :=
  let p := cellPay v
  cellTag v = tFIX && (entryKind p = kFREE || entryKind p = kSTATIC || entryKind p = kUNMANAGED) && bits p 16 3 = 0 && bits p 0 8 = 0
/-- Read the 16 lines of a slot's map in memory. -/
def Mach.readMapLines (m : Mach) (s : Fin 8) : Mach :=
  iterN (fun i m => (m.turnRead .sweeper (m.mapAddr s (16 * i) / 16) 0#2 false).2) 0 16 m
/-- The cells of a slot's map in memory; none where one lies at a refused address. -/
def Mach.mapCells (m : Mach) (s : Fin 8) : Option (List Cell) :=
  if (upFrom 0 256).all (fun r => m.ch.place (m.mapAddr s r) = .memory) then some ((upFrom 0 256).map (fun r => m.peek (m.mapAddr s r)))
  else none
/-- A map from its 256 entries. -/
def mapOf (cs : List Cell) : NMap Payload :=
  cs.zipIdx.filterMap (fun e => if cellPay e.1 = 0#24 then none else some (e.2, cellPay e.1))
/-- A line of RAW 0. -/
def zeroRaw : NMap (Cell × Bool) := lineOf 0 (List.replicate 16 (raw 0#24))
/-- The turnstile step that writes a line of RAW 0 whose cells have already taken their place: its request, its effect on the caches
and its mirror record. (DEDUCED, unsafe: log 35.) -/
def Mach.clearStep (m : Mach) (line : Nat) : Mach :=
  let q : PoolReq :=
    { line := line, src := .turnstile, kind := .write, hint := 2#2, age := 0, spec := false, stage := .waiting, left := 0, errs := [],
      prior := [] }
  (((m.turn .sweeper line).poolAdd q).storeStep .sweeper line zeroRaw).sendMirror (.store line ((upFrom 0 16).map (fun p => (p, raw 0#24))))
/-- Write RAW 0 into every cell of a slot's side area, a line a step (R340). -/
def Mach.clearSide (m : Mach) (s : Fin 8) : Mach :=
  let base := (m.slot s).side.toNat * 64
  iterN (fun i m => m.clearStep (base + i)) 0 33792 (m.putRun (base * 16) (List.replicate 540672 (raw 0#24)))
/-- Whether a slot's side area lies in populated memory. -/
def Mach.sideOk (m : Mach) (s : Fin 8) : Bool :=
  let a := (m.slot s).side.toNat * 1024
  m.ch.place a = .memory && m.ch.place (a + 540671) = .memory
/-- SPCTL(s) with EN = 1 (R335): nothing for an enabled slot; a failed enable leaves EN at 0 with RESULT 2. -/
def Mach.slotEnable (m : Mach) (s : Fin 8) (asid : BitVec 8) : Mach :=
  if !m.swIdle || (m.slot s).en then m
  else
    let m := m.setSlot s { m.slot s with asid := asid }
    let taken := (m.ch.sw.slotOfAsid asid).isSome
    match m.mapCells s with
    | none => m.swResult 2#2
    | some cs =>
      let m := m.readMapLines s
      if taken || !cs.all entryOkToEnable then m.swResult 2#2
      else if !m.sideOk s then m.swStop s
      else
        let m := m.clearSide s
        (m.setSlot s { m.slot s with en := true, map := mapOf cs, pitch := [], handed := [] }).swResult 0#2
/-- SLOT_ENABLE. -/
def execSlotEnable (c : Chan) (s : Fin 8) (asid : BitVec 8) (st : State) : Out := .next (st.program c (fun m => m.slotEnable s asid))
/-- SPCTL(s) with EN = 0 in IDLE: the pitches are dropped and the map is frozen. -/
def Mach.slotDisable (m : Mach) (s : Fin 8) (asid : BitVec 8) : Mach :=
  if m.swIdle then m.setSlot s { m.slot s with en := false, asid := asid, pitch := [] } else m
/-- SLOT_DISABLE. -/
def execSlotDisable (c : Chan) (s : Fin 8) (st : State) : Out :=
  .next (st.program c (fun m => m.slotDisable s (m.slot s).asid))
/-- A cycle of a slot is accepted: the sweeper leaves IDLE once every write committed before has taken its place (R344). A young cycle of
a slot with LOGOVF runs as a full cycle (R345, R348). -/
def Mach.acceptCycle (m : Mach) (s : Fin 8) (full : Bool) : Mach :=
  { m.bumpC 35 with ch.sw := { m.ch.sw with
    full := full || (m.slot s).logovf, slot := s, starting := true, planned := false, lost := false, whole := false, queue := [],
    spilled := 0, live := [], marks := [], work := [], todo := [], copy := none, toNext := 0, toEnd := 0, toBlocks := [], toSpace := [] } }
/-- SWCMD with OP 1 or 2. -/
def Mach.cycleCmd (m : Mach) (s : Fin 8) (full : Bool) : Mach :=
  if !m.swIdle then m.swResult 1#2
  else if !(m.slot s).en then m.swResult 2#2
  else (m.swResult 0#2).acceptCycle s full
/-- Whether region set accepts a change of a present entry to a kind and ROOT (R338). -/
def regionSetOk (e : Payload) (kind : Nat) (root : Bool) : Bool :=
  let k := entryKind e
  if k = kind && entryRoot e = root then true
  else if root && kind ≠ kUNMANAGED then false
  else if k = kFREE then kind = kSTATIC || kind = kUNMANAGED
  else if k = kSTATIC then kind = kFREE
  else if k = kUNMANAGED then kind = kFREE || kind = kUNMANAGED
  else false
/-- SWCMD with OP 3 (R338). -/
def Mach.regionSet (m : Mach) (s : Fin 8) (region : BitVec 8) (kind : BitVec 3) (root : Bool) : Mach :=
  if !m.swIdle then m.swResult 1#2
  else
    let e := (m.slot s).entry region.toNat
    if (m.slot s).en && regionSetOk e kind.toNat root then
      let m := m.swResult 0#2
      if entryKind e = kind.toNat && entryRoot e = root then m
      else m.setRegion s region.toNat (mkEntry kind.toNat root false 0)
    else m.swResult 2#2
/-- REGION_SET. -/
def execRegionSet (c : Chan) (s : Fin 8) (region : BitVec 8) (kind : BitVec 3) (root : Bool) (st : State) : Out :=
  .next (st.program c (fun m => m.regionSet s region kind root))
/-- SWCMD_INVALID: OP 4 to 15 is refused; another value names no refused command. -/
def execSwcmdInvalid (c : Chan) (op : BitVec 4) (s : State) : Out :=
  .next (s.program c (fun m => if 4#4 ≤ op then m.swResult 2#2 else m))
/-- The slot a three-bit field names. -/
def slotIx (p : Payload) : Fin 8 := Fin.ofNat 8 (bits p 17 3)
/-- A store of SWCMD. -/
def Mach.swcmd (m : Mach) (v : Payload) : Mach :=
  let op := bits v 20 4
  if op = 0 then m
  else if op = 1 then m.cycleCmd (slotIx v) false
  else if op = 2 then m.cycleCmd (slotIx v) true
  else if op = 3 then m.regionSet (slotIx v) (v.extractLsb' 8 8) (v.extractLsb' 5 3) (bit v 4)
  else m.swResult 2#2
/-- SWSTAT. -/
def Mach.swstat (m : Mach) : Payload :=
  let req : BitVec 8 := threads.foldl (fun a t => setBit a t.val (m.thr t).rootReq) 0#8
  (BitVec.ofNat 3 m.ch.sw.phase.code ++ BitVec.ofBool m.ch.sw.full ++ BitVec.ofNat 3 m.ch.sw.slot.val ++ 0#1 ++ req ++ 0#8 : BitVec 24)
/-- A load of pages 0x08 to 0x0B. -/
def Mach.swLoad (m : Mach) (o : Nat) : Payload :=
  let sw := m.ch.sw
  if o < 0x2400 then
    let k := o - 0x2000
    if k = 2 then m.swstat
    else if k = 3 then 0#24
    else if k = 4 then (0#18 ++ sw.cause ++ 0#1 ++ sw.result : BitVec 24)
    else if k = 7 then (sw.logHead ++ 0#3 ++ sw.logOcc : BitVec 24)
    else if k < 8 then winGet m.ch o
    else if 16 ≤ k && k < 48 then
      let x := m.slot (Fin.ofNat 8 ((k - 16) / 4))
      match k % 4 with
      | 0 => (BitVec.ofBool x.en ++ BitVec.ofBool x.logovf ++ 0#14 ++ x.asid : BitVec 24)
      | 1 => x.side.setWidth 24
      | 2 => (BitVec.ofNat 9 (if x.en then x.freeCount else 0) ++ BitVec.ofNat 9 (if x.en then x.nurseryCount else 0) ++ 0#6 : BitVec 24)
      | _ => x.cycles
    else 0#24
  else if o < 0x2800 then
    let k := o - 0x2400
    if k < 128 then
      let p := mapAt (0, 0) (m.slot (Fin.ofNat 8 (k / 16))).pitch (k % 16 / 2)
      BitVec.ofNat 24 (if k % 2 = 0 then p.1 else p.2)
    else 0#24
  else if o < 0x3000 then (m.slot (Fin.ofNat 8 ((o - 0x2800) / 256))).entry ((o - 0x2800) % 256)
  else 0#24
/-- A store to pages 0x08 to 0x0B. -/
def Mach.swStore (m : Mach) (o : Nat) (v : Payload) : Mach :=
  let k := o - 0x2000
  if 0x2400 ≤ o then m
  else if k = 0 then
    { m with ch := winPut m.ch o (if m.swIdle then v else (winGet m.ch o &&& 0xFFFFF0#24) ||| (v &&& 0xF#24)) }
  else if k = 3 then m.swcmd v
  else if !m.swIdle then m
  else if k = 1 then { m with ch := winPut m.ch o (v &&& 0xFF#24) }
  else if k = 5 then { m with ch := winPut m.ch o (v &&& 0x3FFFFF#24) }
  else if k = 6 then { m with ch := winPut m.ch o (v &&& 0xFFF#24) }
  else if 16 ≤ k && k < 48 then
    let s : Fin 8 := Fin.ofNat 8 ((k - 16) / 4)
    if k % 4 = 0 then (if bit v 23 then m.slotEnable s (v.extractLsb' 0 8) else m.slotDisable s (v.extractLsb' 0 8))
    else if k % 4 = 1 then m.setSlot s { m.slot s with side := v.extractLsb' 0 22 }
    else m
  else m

end Sys2Proof.Machine
end

