-- ==== Sys2Proof/Machine/Device.lean ====
section
/-! DEFINITION. Window pages: what a load of a register delivers and what a store of one does (R28, R332), with the registers of
pages 0x00 to 0x05 and 0x20. -/
namespace Sys2Proof.Machine

/-! ### Page 0x00 (Tables 3.6, 6.7) -/

/-- A readback register of a strap pin. -/
def Pin.readback (p : Pin) : Payload := (p.level ++ p.source ++ p.status ++ 0#3 ++ p.rlevel ++ p.raw : BitVec 24)
/-- A load of page 0x00. -/
def Mach.identLoad (m : Mach) (o : Nat) : Payload :=
  if o = 0 then (0#17 ++ m.sq.straps[0].level ++ 0#2 ++ BitVec.ofNat 2 m.c.val : BitVec 24)
  else if h : 8 ≤ o ∧ o < 16 then (m.ch.straps[o - 8]'(by omega)).readback
  else if h : 16 ≤ o ∧ o < 20 then (m.sq.straps[o - 16]'(by omega)).readback
  else if o = 0x18 || o = 0x19 then winGet m.ch o
  else if o = 0x1A then
    let b := m.ch.boot
    (BitVec.ofBool b.second ++ BitVec.ofBool b.warm ++ 0#2 ++ b.att1 ++ b.att0 ++ 0#11 ++ BitVec.ofNat 1 b.slot.val : BitVec 24)
  else if o = 0x1F then (0#23 ++ BitVec.ofBool Config.keyFused : BitVec 24)
  else if 0x20 ≤ o && o < 0x30 then
    if Config.keyFused then (0#8 ++ Config.fusedDigest (2 * (o - 0x20)) ++ Config.fusedDigest (2 * (o - 0x20) + 1) : BitVec 24)
    else 0#24
  else 0#24

/-! ### Pages 0x01 to 0x03 (Tables 5.8 to 5.10) -/

/-- A load of page 0x01. -/
def Mach.powerLoad (m : Mach) (o : Nat) : Payload × Mach :=
  let k := m.ch.clk
  if o = 0x0401 then m.readPwrstat
  else if o = 0x0402 then (m.ch.life.rstCause.setWidth 24, m)
  else if o = 0x0404 then ((0#10 ++ k.sticky ++ 0#2 ++ k.warn : BitVec 24), m)
  else if h : 0x0408 ≤ o ∧ o < 0x040E then ((k.mon[o - 0x0408]'(by omega)).setWidth 24, m)
  else if o = 0x0410 then ((BitVec.ofBool k.trimValid ++ 0#13 ++ k.trim : BitVec 24), m)
  else (winGet m.ch o, m)
/-- A store to page 0x01. -/
def Mach.powerStore (m : Mach) (o : Nat) (v : Payload) : Mach :=
  if o = 0x0400 then
    if bit v 2 then m.pwrOff (v.extractLsb' 16 8) else { m with ch := winPut m.ch o (v &&& 0x00FF03#24) }
  else if o = 0x0403 then { m with ch := winPut m.ch o (v &&& 3#24) }
  else if o = 0x0404 then { m with ch.clk.sticky := m.ch.clk.sticky &&& ~~~(v.extractLsb' 8 6) }
  else m
/-- A load of page 0x02. -/
def Mach.timerLoad (m : Mach) (t : Fin 8) (o : Nat) : Payload × Mach :=
  if o = 0x0800 then m.readTbl t
  else if o = 0x0801 then
    match (m.thr t).tbhCap with
    | some v => (v, m)
    | none => (m.ch.clk.high, m)
  else if h : 0x0810 ≤ o ∧ o < 0x0830 then
    (if o % 4 = 0 then (0#23 ++ BitVec.ofBool (m.wakeT ⟨(o - 0x0810) / 4, by omega⟩).armed : BitVec 24) else winGet m.ch o, m)
  else if h : 0x0840 ≤ o ∧ o < 0x0860 then
    let n : Fin 8 := ⟨(o - 0x0840) / 4, by omega⟩
    let f := m.fastT n
    match o % 4 with
    | 0 => ((f.pre ++ 0#20 ++ BitVec.ofBool f.periodic ++ BitVec.ofBool f.armed : BitVec 24), m)
    | 1 => (winGet m.ch o, m)
    | 2 => m.readCnt n
    | _ => (0#24, m)
  else (0#24, m)
/-- A store to page 0x02. -/
def Mach.timerStore (m : Mach) (o : Nat) (v : Payload) : Mach :=
  if h : 0x0810 ≤ o ∧ o < 0x0830 then
    let n : Fin 8 := ⟨(o - 0x0810) / 4, by omega⟩
    if o % 4 = 0 then (if bit v 0 then m.wakeArm n else m.wakeDisarm n) else { m with ch := winPut m.ch o v }
  else if h : 0x0840 ≤ o ∧ o < 0x0860 then
    let n : Fin 8 := ⟨(o - 0x0840) / 4, by omega⟩
    match o % 4 with
    | 0 => if bit v 0 then m.fastArm n (v.extractLsb' 22 2) (bit v 1) else m.fastDisarm n (v.extractLsb' 22 2) (bit v 1)
    | 1 => { m with ch := winPut m.ch o v }
    | _ => m
  else m
/-- A load of page 0x03. -/
def Mach.watchdogLoad (m : Mach) (o : Nat) : Payload :=
  if o = 0x0C00 then BitVec.ofNat 24 m.ch.clk.wdCount
  else if o = 0x0C01 then BitVec.ofNat 24 m.ch.wdPeriod
  else if o = 0x0C02 then BitVec.ofNat 24 m.ch.wdWarn
  else 0#24

/-! ### Page 0x04 (Table 4.7) -/

/-- A load of page 0x04. -/
def Mach.ledgerLoad (m : Mach) (o : Nat) : Payload :=
  let l := m.ch.led
  match o - 0x1000 with
  | 0 => (BitVec.ofBool l.scan ++ BitVec.ofBool l.writes ++ 0#1 ++ BitVec.ofNat 5 l.staging.length ++ BitVec.ofNat 4 l.held ++ 0#12 : BitVec 24)
  | 1 => setBit (winGet m.ch 0x1001) 3 m.ch.boot.good
  | 2 => l.newest
  | 3 => (0#8 ++ BitVec.ofNat 8 (l.nextErr false) ++ 0#3 ++ BitVec.ofNat 5 (l.pinned false) : BitVec 24)
  | 4 => l.lostTotal
  | 5 => l.corr
  | _ => 0#24
/-- A store to page 0x04. -/
def Mach.ledgerStore (m : Mach) (o : Nat) (v : Payload) : Mach :=
  if o = 0x1001 then
    let m := { m with ch := winPut m.ch o (v &&& 3#24) }
    let m := if bit v 2 then m.pinclr else m
    if bit v 3 then m.bootgood else m
  else m

/-! ### Page 0x05 (Table 14.7) and page 0x20 (Table 18.5) -/

/-- A store to page 0x05. -/
def Mach.cacheStore (m : Mach) (o : Nat) (v : Payload) : Mach :=
  if o = 0x1400 then { m with ch := winPut m.ch o (v &&& 0x3F#24) } else m
/-- PRSTAT.ROLE. The program of a standby or joining channel does not execute, so that nothing reads its code. -/
def Role.stat : Role → BitVec 2
  | .independent => 0#2
  | .active => 1#2
  | .alone => 2#2
  | .joiningActive => 3#2
  | .standby => 0#2
  | .joining => 0#2
/-- A load of page 0x20. CKBUSY reads 0: a CHECKPOINT is one command, and no load takes effect inside it. (DEDUCED, unsafe: log 49.) -/
def Mach.pairLoad (m : Mach) (o : Nat) : Payload :=
  let p := m.ch.pair
  match o - 0x8000 with
  | 0 => (p.role.stat ++ BitVec.ofBool p.ready ++ BitVec.ofBool p.linkUp ++ 0#20 : BitVec 24)
  | 1 => winGet m.ch o
  | 2 => p.epoch
  | 3 => BitVec.ofNat 24 p.undoOcc
  | 4 => winGet m.ch o
  | 5 => p.resends
  | 6 => BitVec.ofNat 24 (p.copied / 1024)
  | _ => 0#24
/-- A store to page 0x20: only PRCTL and CKBASE accept writes. -/
def Mach.pairStore (m : Mach) (o : Nat) (v : Payload) : Mach :=
  if o = 0x8001 then { m with ch := winPut m.ch o (v &&& 7#24) }
  else if o = 0x8004 then { m with ch := winPut m.ch o (v &&& 0xBFFFFF#24) }
  else m

/-! ### All pages (Table 1.3) -/

/-- A value with the state it leaves, as a FIX cell. -/
def asFix (r : Payload × Mach) : Cell × Mach := (fix r.1, r.2)
/-- A load of the window register at an offset by a thread: the cell and what the read does. -/
def Mach.winLoad (m : Mach) (t : Fin 8) (o : Nat) : Cell × Mach :=
  let p := o / 1024
  let v (x : Payload) : Cell × Mach := (fix x, m)
  if p = 0 then v (m.identLoad o)
  else if p = 1 then asFix (m.powerLoad o)
  else if p = 2 then asFix (m.timerLoad t o)
  else if p = 3 then v (m.watchdogLoad o)
  else if p = 4 then v (m.ledgerLoad o)
  else if p = 5 then v (winGet m.ch o)
  else if p < 8 then asFix (m.perfLoad t o)
  else if p < 0x10 then v (m.swLoad o)
  else if p < 0x20 then asFix (m.mcLoad o)
  else if p < 0x30 then v (m.pairLoad o)
  else if p < 0x40 then asFix (m.dispRead o)
  else if p < 0x50 then asFix (m.touchLoad o)
  else if p < 0x68 then asFix (m.panelLoad o)
  else m.portLoad o
/-- A store of a cell to the window register at an offset: its payload is written. (DEDUCED, safe: log 57.) -/
def Mach.winStore (m : Mach) (o : Nat) (c : Cell) : Mach :=
  let p := o / 1024
  let v := cellPay c
  let m := m.takePage p
  if p = 0 then (if o = 0x18 then m.putDriftctl v else m)
  else if p = 1 then m.powerStore o v
  else if p = 2 then m.timerStore o v
  else if p = 3 then m
  else if p = 4 then m.ledgerStore o v
  else if p = 5 then m.cacheStore o v
  else if p < 8 then m.perfStore o v
  else if p < 0x10 then m.swStore o v
  else if p < 0x20 then m.mcStore o v
  else if p < 0x30 then m.pairStore o v
  else if p < 0x40 then m.dispStore o v
  else if p < 0x50 then m.touchStore o v
  else if p < 0x68 then m.panelStore o v
  else m.portStore o v
/-- WINDOW_REGISTER_WRITE: a program's store reaches a window register. -/
def execWindowRegisterWrite (c : Chan) (offset : BitVec 18) (value : Payload) (s : State) : Out :=
  .next (s.program c (fun m => if pageAllocated (offset.toNat / 1024) then m.winStore offset.toNat (fix value) else m))

end Sys2Proof.Machine
end

