-- ==== Sys2Proof/Machine/Buffer.lean ====
section
/-! DEFINITION. The write buffers: placing a store, draining an entry (R317-R319, R332). -/
namespace Sys2Proof.Machine

/-- The bit of a thread in a mask. -/
def thBit (t : Fin 8) : BitVec 8 := 1#8 <<< t.val
/-- A cell placed over what an entry holds at its position: a data store over an unmarked cell keeps that cell's CDR (R317). -/
def mergeCell (old : Option (Cell × Bool)) (v : Cell) (marked : Bool) : Cell × Bool :=
  match old, marked with
  | some (w, false), true => (withCdr v (cellCdr w), false)
  | _, _ => (v, marked)
/-- Place cells over what an entry holds. -/
def mergeInto (old : NMap (Cell × Bool)) : NMap (Cell × Bool) → NMap (Cell × Bool)
  | [] => old
  | (p, v, md) :: r => mergeInto (mapPut old p (mergeCell (mapGet old p) v md)) r
/-- The oldest entry takes its place and leaves the buffer (R317, R319, R332, R345). -/
def Mach.drainEntry (m : Mach) (k : Fin 2) (e : WbEntry) : Mach :=
  let m := (m.bump (96 * k.val + 64)).logSteps (coreAgent k) e.logs
  match e.kind with
  | .memory =>
    let m := m.memStep (coreAgent k) e.line e.cells
    if e.zline && m.ch.proc.dcen then
      (m.bump (96 * k.val + 62)).setCache k true ((m.cache k true).install e.line (updateLine (Vector.replicate 16 fix0) e.cells) false)
    else m
  | .near => m.nearStep (coreAgent k) e.line e.cells
  | .device => match e.cells with
    | (p, v, _) :: _ => ({ m.bump (96 * k.val + 67) with ch.proc.granted := coreAgent k }).winStore (e.line * 16 + p - 0xC0000000) v
    | [] => m
/-- Drain the oldest entry of a core's write buffer. -/
def Mach.drainOne (m : Mach) (k : Fin 2) : Mach :=
  match (m.core k).wb with
  | [] => m
  | e :: r => (m.setCore k { m.core k with wb := r }).drainEntry k e
/-- Drain the n oldest entries. -/
def Mach.drainN (m : Mach) (k : Fin 2) : Nat → Mach
  | 0 => m
  | n + 1 => (m.drainOne k).drainN k n
/-- How many entries stand up to and including the youngest that satisfies a test. -/
def upToLast (p : WbEntry → Bool) : List WbEntry → Nat
  | [] => 0
  | e :: r => match upToLast p r with
    | 0 => if p e then 1 else 0
    | n + 1 => n + 2
/-- Entries of a line take their places (R318). (DEDUCED, unsafe: log 6.) -/
def Mach.drainLine (m : Mach) (k : Fin 2) (l : Nat) : Mach := m.drainN k (upToLast (fun e => e.line = l) (m.core k).wb)
/-- Every store of a thread takes its place (R205, R330). (DEDUCED, unsafe: log 6.) -/
def Mach.drainThread (m : Mach) (t : Fin 8) : Mach :=
  m.drainN (coreOf t) (upToLast (fun e => e.threads &&& thBit t ≠ 0#8) (m.core (coreOf t)).wb)
/-- Both buffers drain. -/
def Mach.drainAll (m : Mach) : Mach :=
  let m := m.drainN 0 (m.core 0).wb.length
  m.drainN 1 (m.core 1).wb.length
/-- Put an entry at the young end of a core's buffer; a full buffer drains its oldest entry first. (DEDUCED, unsafe: log 6.) -/
def Mach.wbPush (m : Mach) (k : Fin 2) (e : WbEntry) : Mach :=
  let m := if (m.core k).wb.length < 8 then m else m.drainOne k
  m.setCore k { m.core k with wb := (m.core k).wb ++ [e] }
/-- Place a store's cells in the buffer of the thread's core (R317): merged into the youngest entry of the same line, else a new
entry; a DEVICE store never merges. -/
def Mach.wbAdd (m : Mach) (t : Fin 8) (kind : WbKind) (line : Nat) (cells : NMap (Cell × Bool)) (zl : Bool)
    (logs : List (Fin 8 × BitVec 24)) : Mach :=
  let k := coreOf t
  let new : WbEntry := { kind := kind, line := line, cells := cells, threads := thBit t, zline := zl, logs := logs }
  match (m.core k).wb.getLast? with
  | some y =>
    if kind ≠ .device && y.kind = kind && y.line = line then
      let y' := { y with cells := mergeInto y.cells cells, threads := y.threads ||| thBit t, zline := y.zline || zl,
                         logs := y.logs ++ logs }
      (m.bump (96 * k.val + 65)).setCore k { m.core k with wb := (m.core k).wb.dropLast ++ [y'] }
    else m.wbPush k new
  | none => m.wbPush k new

end Sys2Proof.Machine
end

