-- ==== Sys2Proof/Machine/Access.lean ====
section
/-! DEFINITION. The accesses of an instruction: translation, reads that follow forwards, the load and store barriers, checked
stores, and the COMMIT word (R168, R177, R179, R246, R289-R306, R330, R343-R346). -/
namespace Sys2Proof.Machine

/-- How an instruction ends without completing plainly. -/
inductive Exit where
  /-- a fault: vector and ADDR; nothing of the instruction is done -/
  | fault (v : BitVec 10) (addr : Cell)
  /-- a look-aside machine check (vector 33) -/
  | mcheck (addr : Cell)
  /-- a reserved cell, with its operand code (R183) -/
  | reserved (cell : Cell) (code : Nat)
  /-- a trap after completion -/
  | trap (v : BitVec 10) (addr : Cell)
  /-- an accessed or dirty update found V = 0: the instruction counts as not having reached COMMIT (R299) -/
  | again
  /-- a fill of the upper half inside the instruction failed: the channel locks up with cause 2 (R273) -/
  | lockup
  deriving DecidableEq, Repr

/-- What an instruction works on: the slice of the device, its thread, and the translations its COMMIT word will mark. -/
structure IS where
  m : Mach
  t : Fin 8
  used : List (TlbEntry × Bool × VAddr)
  /-- forwards followed so far -/
  fwds : Nat
  /-- the physical address of the access last attempted, 0 where its translation failed -/
  last : Nat
  deriving DecidableEq, Repr

/-- An instruction's work. -/
abbrev IM (α : Type) := ExceptT Exit (StateM IS) α

/-- The slice. -/
def getM : IM Mach := do return (← get).m
/-- Change the slice. -/
def modM (f : Mach → Mach) : IM Unit := modify (fun s => { s with m := f s.m })
/-- Use the slice. -/
def useM {α : Type} (f : Mach → α × Mach) : IM α := modifyGet (fun s => ((f s.m).1, { s with m := (f s.m).2 }))
/-- The executing thread's number. -/
def me : IM (Fin 8) := do return (← get).t
/-- The executing thread. -/
def getT : IM Thread := do let s ← get; return s.m.thr s.t
/-- Change the executing thread. -/
def modT (f : Thread → Thread) : IM Unit := modify (fun s => { s with m := s.m.setThr s.t (f (s.m.thr s.t)) })
/-- The executing core. -/
def myCore : IM (Fin 2) := do return coreOf (← get).t
/-- Raise a fault. -/
def fault {α : Type} (v : BitVec 10) (addr : Cell) : IM α := throw (.fault v addr)
/-- The type fault with an operand code (R259). -/
def faultTY {α : Type} (code : Nat) : IM α := fault 3#10 (fixN code)
/-- The operand range fault. -/
def faultOR {α : Type} (code : Nat) : IM α := fault 4#10 (fixN code)
/-- The poison fault. -/
def faultPO {α : Type} (code : Nat) : IM α := fault 6#10 (fixN code)
/-- The illegal instruction fault. -/
def faultIL {α : Type} : IM α := fault 1#10 fix0
/-- The arithmetic overflow fault. -/
def faultOV {α : Type} : IM α := fault 5#10 fix0
/-- The allocation fault with its cause (R227). -/
def faultAL {α : Type} (cause : Nat) : IM α := fault 13#10 (fixN cause)

/-! ### Translation (R289-R306) -/

/-- The rights an access needs (Table 13.4). -/
structure Need where
  r : Bool
  w : Bool
  deriving DecidableEq, Repr
def needR : Need := { r := true, w := false }
def needW : Need := { r := false, w := true }
def needRW : Need := { r := true, w := true }

/-- A translated access: physical cell address and memory type (0 CACHED, 1 UNCACHED, 2 DEVICE, 3 NEAR). -/
structure Xl where
  phys : Nat
  typ : BitVec 2
  deriving DecidableEq, Repr

/-- The look-aside entry for an access: from the buffer, or by a walk that fills it. -/
def lookaside (va : VAddr) : IM TlbEntry := do
  let k ← myCore
  let th ← getT
  let vpn := va.extractLsb' 10 14
  match ← useM (fun m => m.tlbLookup k vpn th.asid) with
  | .hit e => return e
  | .multi => throw (.mcheck (fix va))
  | .none =>
    match ← useM (fun m => m.walk (coreAgent k) vpn th.asid) with
    | .found i ky f =>
      let e := tlbOf i ky f
      modM (fun m => m.tlbInsert k e)
      return e
    | .miss => fault 8#10 (fix va)
    | .chain => fault 10#10 (fix va)
    | .bus => fault 11#10 (fix va)
/-- Translate an access made as supervisor or user code, through a HAND or not: translation faults, rights, the DEVICE rule
(R177, with its operand code), and refused addresses (R27). -/
def xlateAs (sup : Bool) (va : VAddr) (need : Need) (hand : Bool) : IM Xl := do
  let th ← getT
  modify (fun s => { s with last := if th.te then 0 else if hand then 0xC0000000 + va.toNat else va.toNat })
  if th.te then
    let e ← lookaside va
    modify (fun s => { s with last := s.m.ch.pageBase e.idx.toNat + bits va 0 10 })
    if (need.r && !e.r) || (need.w && !e.w) || (!sup && !e.u) then fault 9#10 (fix va)
    if e.typ = 2#2 && !hand then faultTY 3
    let ch := (← getM).ch
    let a := ch.pageBase e.idx.toNat + bits va 0 10
    if ch.place a = .nothing then fault 12#10 (fix va)
    modify (fun s => { s with used := s.used ++ [(e, need.w, va)] })
    return { phys := a, typ := e.typ }
  else if hand then
    let a := 0xC0000000 + va.toNat
    if (← getM).ch.place a = .window then return { phys := a, typ := 2#2 } else fault 12#10 (fix va)
  else return { phys := va.toNat, typ := 0#2 }
/-- Translate an access of the executing mode. -/
def xlate (va : VAddr) (need : Need) (hand : Bool) : IM Xl := do xlateAs (← getT).sup va need hand

/-- The COMMIT word's updates for the collected translations, in order (R246, R299). -/
def commitList : List (TlbEntry × Bool × VAddr) → IM Unit
  | [] => return ()
  | (e, w, va) :: r => do
    let k ← myCore
    let t ← me
    modM (fun m => if (e.a && (!w || e.d)) then m else m.drainThread t)
    match ← useM (fun m => m.adUpdate k e w) with
    | .done => commitList r
    | .invalid => throw .again
    | .unreadable => fault 11#10 (fix va)
/-- The COMMIT word. -/
def commit : IM Unit := do
  let u := (← get).used
  modify (fun s => { s with used := [] })
  commitList u
/-- The updates of an address met only after COMMIT: V = 0 gives the translation miss fault (R246). -/
def commitLate : List (TlbEntry × Bool × VAddr) → IM Unit
  | [] => return ()
  | (e, w, va) :: r => do
    let k ← myCore
    match ← useM (fun m => m.adUpdate k e w) with
    | .done => commitLate r
    | .invalid => fault 8#10 (fix va)
    | .unreadable => fault 11#10 (fix va)
/-- Translate an address met after COMMIT. -/
def xlateLate (va : VAddr) (need : Need) : IM Xl := do
  modify (fun s => { s with used := [] })
  let x ← xlate va need false
  let u := (← get).used
  modify (fun s => { s with used := [] })
  commitLate u
  return x

/-! ### Reads -/

/-- A read of one cell of memory or near store: the own core's entries of its line take their places first (R318). -/
def readCell (x : Xl) : IM Cell := do
  let k ← myCore
  modM (fun m => m.drainLine k (x.phys / 16))
  match (← getM).ch.place x.phys with
  | .near => useM (fun m => m.nearFetch (x.phys - 0x80000000))
  | .memory => useM (fun m => m.memFetch k x.phys (x.typ = 0#2))
  | _ => return fix0
/-- One cell of the vector table, read past translation by a core: its own entries of the line take their places first, and memory is read
through the core's data cache (R261, R318, R331). -/
def Mach.tableRead (m : Mach) (k : Fin 2) (a : Nat) : Cell × Mach :=
  let m := m.drainLine k (a / 16)
  match m.ch.place a with
  | .near => m.nearFetch (a - 0x80000000)
  | .memory => m.memFetch k a true
  | _ => (psn 0#4, m)
/-- The read of an indivisible step: it stands at a turnstile place and fills no cache (R317, R330). -/
def stepRead (x : Xl) : IM Cell := do
  let k ← myCore
  match (← getM).ch.place x.phys with
  | .near => useM (fun m => m.nearFetch (x.phys - 0x80000000))
  | .memory => useM (fun m =>
      let r := m.turnRead (coreAgent k) (x.phys / 16) 0#2 false
      (lineAt r.1 x.phys, r.2))
  | _ => return fix0
/-- A read, made by `rd`, that follows FWD cells, up to eight (R179): the cell, its virtual address, its translation. -/
def readFwdBy (rd : Xl → IM Cell) (va : VAddr) (need : Need) : Nat → Xl → IM (Cell × VAddr × Xl)
  | 0, x => do
    let v ← rd x
    if cellTag v = tFWD then faultTY 3
    return (v, va, x)
  | n + 1, x => do
    let v ← rd x
    if cellTag v = tFWD then
      modify (fun s => { s with fwds := s.fwds + 1 })
      let x ← xlate (cellPay v) need false
      readFwdBy rd (cellPay v) need n x
    else return (v, va, x)
/-- A load that follows forwards. -/
def readFwd (va : VAddr) (need : Need) (n : Nat) (x : Xl) : IM (Cell × VAddr × Xl) := readFwdBy readCell va need n x
/-- A translated read of one cell, forwards followed. -/
def readAt (va : VAddr) (need : Need) : IM (Cell × VAddr × Xl) := do
  let x ← xlate va need false
  readFwd va need 8 x
/-- The header read of a header-addressing pointer (R168). -/
def headerOf (p : Cell) : IM Cell := do
  let r ← readAt (cellPay p) needR
  if cellTag r.1 = tPSN then faultPO 3
  if cellTag r.1 ≠ tHDR then faultTY 3
  if !kindMatches (cellTag p) (hdrKind r.1) then faultTY 3
  return r.1
/-- A loaded cell's own checks (R194 step 6): PSN faults; at a reserved cell the instruction, which completes, reaches COMMIT and traps
(R183, R246). -/
def checkLoaded (v : Cell) : IM Unit := do
  if cellTag v = tPSN then faultPO 3
  if isReserved v then
    commit
    throw (.reserved v 3)

/-! ### The load barrier (R346) -/

/-- Whether the load barrier acts on a delivered cell. -/
def Mach.loadBarrierActs (m : Mach) (th : Thread) (v : Cell) : Bool :=
  isPtr (cellTag v) && m.ch.sw.phase.moving &&
  (match m.spaceOf th with
   | some s => decide (s = m.ch.sw.slot) && decide ((m.slot s).kind (regionOf (cellPay v).toNat) = kEVAC)
   | none => false)
/-- What the load barrier did on a load: nothing, or the forwards it followed and the heal to post once the load commits. -/
abbrev Healing := Option (Nat × Option HealReq)
/-- A barrier load of `v` from virtual address `va` at physical address `a`: the cell to deliver, and what the barrier did. A read
of the target that meets any condition leaves the cell as loaded. -/
def loadBarrier (va : VAddr) (a : Nat) (v : Cell) : IM (Cell × Healing) := do
  let s ← get
  if s.m.loadBarrierActs (s.m.thr s.t) v then
    tryCatch
      (do
        let r ← readAt (cellPay v) needR
        let n := (← get).fwds - s.fwds
        modify (fun i => { i with fwds := s.fwds })
        if cellTag r.1 = tPSN || r.2.1 = cellPay v then return (v, some (n, none))
        else
          return (withPay v r.2.1, some (n, some { addr := a, va := va, slot := s.m.ch.sw.slot, old := v, new := r.2.1, core := coreOf s.t })))
      (fun _ => do
        let n := (← get).fwds - s.fwds
        modify (fun i => { i with used := s.used, fwds := s.fwds })
        return (v, some (n, none)))
  else return (v, none)
/-- A load that the barrier acted on commits: its counters, and the heal it posts. -/
def postHeal (h : Healing) : IM Unit :=
  match h with
  | none => return ()
  | some (n, h) => do
    let t ← me
    modM (fun m => (m.bumpT t 82).bumpBy (96 * (coreOf t).val + 83) n)
    match h with
    | some h => modM (fun m => { m.bump (96 * h.core.val + 84) with ch.proc.heals := m.ch.proc.heals ++ [h] })
    | none => return ()

/-! ### Stores (R317, R330, R343) -/

/-- Where the write buffer sends a translated store. -/
def Mach.wbKind (m : Mach) (a : Nat) : WbKind :=
  match m.ch.place a with
  | .near => .near
  | .window => .device
  | _ => .memory
/-- Place one cell in the write buffer. -/
def bufStore (x : Xl) (v : Cell) (marked : Bool) (logs : List (Fin 8 × BitVec 24)) : IM Unit := do
  let t ← me
  modM (fun m => m.wbAdd t (m.wbKind x.phys) (x.phys / 16) [(x.phys % 16, v, marked)] false logs)
/-- The log action of a barrier write, if any. -/
def Mach.logAction (m : Mach) (th : Thread) (va : VAddr) (v : Cell) : List (Fin 8 × BitVec 24) :=
  match m.spaceOf th with
  | some s => if m.logs s va v then [(s, logEntry s va)] else []
  | none => []
/-- The snapshot action on a cell a thread overwrites. -/
def Mach.snapAct (m : Mach) (t sl : Fin 8) (old : Cell) : Mach :=
  (if m.snapshots sl old then m.bumpT t 79 else m).pushAll sl [old]
/-- The snapshot action of a barrier write at a translated address: the cell that it will overwrite is read (R344). -/
def snapshot (x : Xl) : IM Unit := do
  let s ← get
  match s.m.spaceOf (s.m.thr s.t) with
  | some sl =>
    if decide (s.m.ch.sw.slot = sl) && s.m.ch.sw.phase.marking then
      let old ← readCell x
      modM (fun m => m.snapAct s.t sl old)
  | none => return ()
/-- Log actions of a thread are counted. -/
def countLogs (t : Fin 8) (logs : List (Fin 8 × BitVec 24)) : IM Unit :=
  if logs.isEmpty then return () else modM (fun m => m.bumpT t 78)
/-- The actions of a barrier write whose step has read its target: the log action, then the snapshot action. -/
def stepActions (va : VAddr) (old v : Cell) : IM Unit := do
  let s ← get
  let th := s.m.thr s.t
  let logs := s.m.logAction th va v
  countLogs s.t logs
  modM (fun m => m.logSteps (coreAgent (coreOf s.t)) logs)
  match s.m.spaceOf th with
  | some sl => modM (fun m => m.snapAct s.t sl old)
  | none => return ()
/-- Whether the executing thread's write at `va` targets an evacuated region. -/
def targetsEvac (va : VAddr) : IM Bool := do
  let s ← get
  match s.m.spaceOf (s.m.thr s.t) with
  | some sl => return s.m.checks sl va
  | none => return false
/-- A store whose step reads its target (R179, R330); a FWD found makes it repeat at the forwarded cell. `marked` data stores keep the
CDR stored; `counted` as a checked store (Table 22.1), which the write of RPLACD is not. -/
def checkedStore (va : VAddr) (v : Cell) (marked counted : Bool) : Nat → Xl → IM Unit
  | 0, x => do
    let old ← stepRead x
    if cellTag old = tFWD then faultTY 3
    finishChecked va x old
  | n + 1, x => do
    let t ← me
    modM (fun m => m.drainThread t)
    let old ← stepRead x
    if cellTag old = tFWD then
      modM (fun m => m.bumpTIf counted t 81)
      let x ← xlateLate (cellPay old) needW
      checkedStore (cellPay old) v marked counted n x
    else finishChecked va x old
where
  finishChecked (va : VAddr) (x : Xl) (old : Cell) : IM Unit := do
    let s ← get
    stepActions va old v
    modM (fun m => (m.bumpTIf counted s.t 80).cellStep (coreAgent (coreOf s.t)) x.phys v marked)
/-- A barrier write of a data cell at a translated address, after COMMIT (Table 15.3): a checked store where its target lies in
an evacuated region or `always`, else a buffered store with its log and snapshot actions. -/
def barrierStore (va : VAddr) (x : Xl) (v : Cell) (marked always : Bool) : IM Unit := do
  if always || (← targetsEvac va) then checkedStore va v marked true 8 x
  else
    let s ← get
    let logs := s.m.logAction (s.m.thr s.t) va v
    countLogs s.t logs
    snapshot x
    bufStore x v marked logs

end Sys2Proof.Machine
end

