-- ==== Sys2Proof/Machine/Issue.lean ====
section
/-! DEFINITION. Issuing one instruction on a thread: signal routing (R264-R267), lockup (R276), the upper-half fill (R273), its dispatch
and microwords (R245-R252), the loop-end step (R207), and what completes, faults and traps (R194, R195, R260). -/
namespace Sys2Proof.Machine

/-! ### Signals of a thread -/

/-- The attribute word of a vector in the attribute store (Table 11.4). -/
def Proc.attrOf (p : Proc) (v : Nat) : Payload := mapAt 0#24 p.attr v
/-- PRIO. -/
def attrPrio (a : Payload) : Nat := bits a 22 2
/-- SAVE. -/
def attrSave (a : Payload) : Bool := bit a 21
/-- THREAD. -/
def attrThread (a : Payload) : Nat := bits a 16 4
/-- HOLD. -/
def attrHold (a : Payload) : BitVec 8 := a.extractLsb' 8 8
/-- Whether a wait mask selects a vector (R210). -/
def maskSelects (mask : Payload) (v : Nat) : Bool := if v < 768 then bit mask 23 else bit mask ((v - 768) / 16)
/-- The mask of a waiting thread. -/
def Thread.mask? (th : Thread) : Option Payload := match th.status with | .waiting k => some k | _ => none
/-- Whether a thread waits with a mask that selects a vector. -/
def Thread.waitsFor (th : Thread) (v : Nat) : Bool := match th.mask? with | some k => maskSelects k v | none => false
/-- Whether a pending vector is one thread `t` takes at its boundary (R264): its own, vector 39 on thread 0, and for the lowest
waiting thread that selects it a THREAD 15 signal. -/
def Mach.takes (m : Mach) (t : Fin 8) (v : Nat) : Bool :=
  let th := m.thr t
  let tgt := attrThread (m.ch.proc.attrOf v)
  if v = 39 then decide (t = 0)
  else match th.status with
    | .stopped => false
    | .running => decide (tgt = t.val)
    | .waiting _ => th.waitsFor v && (decide (tgt = t.val)
        || (decide (tgt = 15) && decide (threads.find? (fun j => (m.thr j).waitsFor v) = some t)))
/-- Of two vectors the one selected first: the higher PRIO, then the lower number (R265). -/
def Proc.better (p : Proc) (v w : Nat) : Nat :=
  if attrPrio (p.attrOf v) < attrPrio (p.attrOf w) then w
  else if attrPrio (p.attrOf v) = attrPrio (p.attrOf w) && w < v then w else v
/-- The first selected of a list of vectors. -/
def Proc.best (p : Proc) : List Nat → Option Nat
  | [] => none
  | v :: r => match p.best r with
    | none => some v
    | some w => some (p.better v w)
/-- The signal thread `t` takes at its boundary, if any: none while a window is open or in a mode-change shadow (R265-R267). The
root request of a running thread is its vector 84 (R349). -/
def Mach.signalFor (m : Mach) (t : Fin 8) : Option Nat :=
  let th := m.thr t
  if th.hold.isSome || th.inShadow then none
  else
    let vs := (m.ch.proc.pend.map (fun e => e.1)).filter (fun v => m.takes t v)
    m.ch.proc.best (if th.rootPend && decide (th.status = .running) then 84 :: vs else vs)
/-- Whether an instruction of thread `t` can issue: the channel runs, the thread runs, and no event is due at its boundary. (DEDUCED, unsafe: log 16.) -/
def Mach.canIssue (m : Mach) (t : Fin 8) : Bool :=
  decide (m.ch.life.cond = .running) && decide (m.ch.life.power = .run) && decide ((m.thr t).status = .running)
    && (m.thr t).sync.isNone && (m.signalFor t).isNone

/-! ### Lockup (R276) -/

/-- The channel locks up: CHn_LOCK_N and CHn_FAULT_N fall, the lockup record and the counts record are requested. (DEDUCED, unsafe: log 22.) -/
def Mach.lockup (m : Mach) (t : Fin 8) (cause : BitVec 4) (vector : BitVec 10) (access : Nat) : Mach :=
  let th := m.thr t
  let info : LockInfo :=
    { cause := cause, thread := BitVec.ofNat 4 t.val, vector := vector, pc := fix th.pc, pstate := fix th.pstate, sp := th.sp,
      vbase := fix m.ch.proc.vbase, access := BitVec.ofNat 32 access, ucver := fix m.ch.proc.ucver,
      pending := match th.sync with | some e => if e.vector.toNat < 32 then 1#32 <<< e.vector.toNat else 0#32 | none => 0#32 }
  let m := m.stopAll .lockedUp
  { m with
    ch.life.lockN := false
    ch.led := { m.ch.led with
      lockReq := some info
      counts := { m.ch.led.counts with lockups := satInc m.ch.led.counts.lockups }
      items := if m.ch.led.items.contains .counts then m.ch.led.items else m.ch.led.items ++ [.counts] } }

/-! ### The upper half (R269-R273, R279) -/

/-- ACCH as MFS reads it (R186). -/
def accH (a : BitVec 56) : Payload := (a.extractLsb' 48 8).signExtend 24
/-- ACCM. -/
def accM (a : BitVec 56) : Payload := a.extractLsb' 24 24
/-- ACCL. -/
def accL (a : BitVec 56) : Payload := a.extractLsb' 0 24
/-- ACC from the payloads of its three registers. -/
def accOf (h md l : Payload) : BitVec 56 := (h.extractLsb' 0 8 ++ md ++ l : BitVec 56)
/-- The 24 cells of the upper half, in the order of frame offsets 24-47 (Table 11.5). -/
def Thread.upperCells (th : Thread) : List Cell :=
  (th.regs.toList.drop 16) ++ [fix (accH th.acc), fix (accM th.acc), fix (accL th.acc), fix th.loopC, fix th.loopS, fix th.loopE,
    fix0, fix0]
/-- Cells with their virtual addresses from `a` up. -/
def addrsFrom (a : VAddr) : List Cell → List (VAddr × Cell)
  | [] => []
  | v :: r => (a, v) :: addrsFrom (a + 1#24) r
/-- Translate every address of a supervisor write. -/
def xlateCells : List (VAddr × Cell) → IM (List (VAddr × Cell × Xl))
  | [] => return []
  | (a, v) :: r => do
    let x ← xlateAs true a needW false
    let xs ← xlateCells r
    return (a, v, x) :: xs
/-- Make the barrier writes of cells already translated: whole cells, so unmarked. (DEDUCED, unsafe: log 24.) -/
def writeCells : List (VAddr × Cell × Xl) → IM Unit
  | [] => return ()
  | (a, v, x) :: r => do
    barrierStore a x v false false
    writeCells r
/-- Supervisor writes of consecutive cells, all translated before the first is made. -/
def pushCells (a : VAddr) (vs : List Cell) : IM Unit := do
  let xs ← xlateCells (addrsFrom a vs)
  commit
  writeCells xs
/-- Run work again where its COMMIT word found V = 0, up to n times. -/
def retrying {α : Type} : Nat → IM α → IM α
  | 0, w => w
  | n + 1, w => tryCatch w (fun e => match e with
    | .again => do
      modify (fun s => { s with used := [] })
      retrying n w
    | e => throw e)
/-- The fill of the upper half (R273). (DEDUCED, safe: log 27.) -/
def fillUpper : IM Unit := do
  let th ← getT
  let t ← me
  if th.shlvl then
    let b := cellPay th.spS - 24#24
    retrying 4 (pushCells b th.upperCells)
    modT (fun th => { th with spS := loc b, frame := some b, loopC := 0#24, pstate := setBit th.pstate 3 false })
    modM (fun m => m.bumpT t 30)
  else
    match th.frame with
    | some f => retrying 4 (pushCells (f + 24#24) th.upperCells)
    | none => pure ()
    modT (fun th => { th with loopC := 0#24, pstate := setBit th.pstate 3 false })
    modM (fun m => m.bumpT t 30)

/-! ### Issuing an instruction -/

/-- How an instruction leaves the PC. -/
inductive Flow where
  | next
  | jump (a : VAddr)
  /-- RETE: the restored PC, with no loop-end step, in the mode-change shadow -/
  | rete (a : VAddr)
  /-- UENTER: a transfer that opens the mode-change shadow -/
  | enter (a : VAddr)
  /-- a transfer without the loop-end step (LOADL executed while LZ was 1) -/
  | land (a : VAddr)
  /-- the instruction stands at its address: WAIT -/
  | stay
  /-- the instruction stands at its address and has not executed yet: an ALLOCL whose body is still being filled (R267) -/
  | resume
  deriving DecidableEq, Repr

/-- The fixed part of an instruction: opcode, supervisor only (R247), its INSTR cell, destination, the registers its fields name,
whether it touches the upper half besides (R272), and operand a of a generic instruction with operand b where it has one. -/
structure Ins where
  op : Nat
  sup : Bool
  icell : Cell
  dest : Option Reg
  named : List Reg
  touch : Bool
  generic : Option (Reg × Option Reg)
  deriving DecidableEq, Repr

/-- The PC after an instruction, with the loop-end step (R207); suspended while LZ is 1 (R272). -/
def Thread.retire (th : Thread) (target : Option VAddr) : Thread :=
  let th := { th with inShadow := false }
  if !th.lz && th.loopC ≠ 0#24 && th.pc = th.loopE then
    match target with
    | some a => { th with loopC := 0#24, pc := a }
    | none =>
      if 1#24 < th.loopC then { th with loopC := th.loopC - 1#24, pc := th.loopS }
      else { th with loopC := 0#24, pc := th.loopE + 1#24 }
  else { th with pc := target.getD (th.pc + 1#24) }
/-- The thread after an instruction completes. -/
def Thread.complete (th : Thread) : Flow → Thread
  | .next => th.retire none
  | .jump a => th.retire (some a)
  | .enter a => { th.retire (some a) with inShadow := true }
  | .rete a => { th with pc := a, inShadow := true }
  | .land a => { th with pc := a, inShadow := false }
  | .stay => { th with inShadow := false }
  | .resume => th
/-- Record a synchronous event on a thread (R265). (DEDUCED, safe: log 17.) -/
def Thread.raiseSync (th : Thread) (v : BitVec 10) (addr icell : Cell) (kind : BitVec 2) : Thread :=
  { th with inShadow := false, sync := some { vector := v, addr := addr, icell := icell, ret := th.pc, kind := kind } }
/-- Whether an instruction touches the upper half (R272). -/
def Ins.touches (i : Ins) : Bool := i.touch || i.named.any (fun r => decide (16 ≤ r.val))
/-- What reading the dispatch entry of an instruction comes to (R247): a word that fails parity or whose START names no microword, the
illegal instruction fault of VALID and MASK, or the entry's SUP. -/
inductive Dispatch where
  | bad (u : Nat)
  | illegal
  | go (sup : Bool) (start : Nat)
  deriving DecidableEq, Repr
/-- The dispatch read of an instruction word (R245, R247). With a control store as made it finds the entry of an assigned instruction,
whose unused fields the form of the command leaves 0. -/
def Core.dispatch (c : Core) (i : Ins) : Dispatch :=
  if c.asMade then .go i.sup (Config.microStart i.op % 7920)
  else match c.micro (7936 + i.op) with
    | none => .bad (7936 + i.op)
    | some w =>
      if !bit w 31 || (w.extractLsb' 14 16 &&& (cellPay i.icell).setWidth 16) ≠ 0#16 then .illegal
      else if !isMicroword (bits w 0 14) then .bad (7936 + i.op)
      else .go (bit w 30) (bits w 0 14)
/-- The classes a TAGDISP of the instruction finds: those of its generic operands, FIX 0 for one it does not have (R248); for an
instruction that is not generic, free values. -/
def Mach.tagClasses (m : Mach) (t : Fin 8) (i : Ins) : Nat × Nat :=
  match i.generic with
  | some (a, b) => (tagClass ((m.thr t).reg a), match b with | some b => tagClass ((m.thr t).reg b) | none => 0)
  | none => (Config.microFree m.free 8192 % 16, Config.microFree m.free 8193 % 16)
/-- The microsequencer of a thread. -/
def Mach.micro (m : Mach) (t : Fin 8) : MicroSeq := m.ch.seq[t]
/-- The microwords an instruction of thread t runs through from START: with a control store as made the ROM's own routine, which meets
no machine check; else the tag-class row of a generic instruction fails first (R249). -/
def Mach.routine (m : Mach) (t : Fin 8) (i : Ins) (start : Nat) : MicroRun :=
  let co := m.core (coreOf t)
  let q := { m.micro t with upc := BitVec.ofNat 14 start }
  let k := m.tagClasses t i
  let r := co.sequence k.1 k.2 (Config.microFree m.free) microLimit false q
  if co.asMade then { r with stop := .ends }
  else if i.generic.isSome && (co.micro (7920 + k.1)).isNone then { stop := .bad (7920 + k.1), committed := false, seq := q }
  else r
/-- MCINFO (R252). -/
def mcInfo (resumable : Bool) (k : Fin 2) (u : Nat) : Cell :=
  fix (BitVec.ofBool resumable ++ BitVec.ofNat 1 k.val ++ 0#8 ++ BitVec.ofNat 14 u : BitVec 24)
/-- The control-store machine check of a thread (R250): vector 32 is due at once, with MCINFO in ADDR. Its class 0x07 record is queued by
the entry, which settles FLAG (R251; log 17). -/
def Mach.controlCheck (m : Mach) (t : Fin 8) (i : Ins) (u : Nat) (resumable : Bool) : Mach :=
  let m := m.bumpTIf ((m.core (coreOf t)).micro u).isNone t 95
  m.setThr t { m.thr t with sync := some { vector := 32#10, addr := mcInfo resumable (coreOf t) u, icell := i.icell,
                                           ret := (m.thr t).pc, kind := 3#2 } }
/-- The class 0x07 record: core and microaddress (Table 4.5). -/
def Mach.reportControl (m : Mach) (flag : Bool) (k : Fin 2) (u : BitVec 14) : Mach :=
  m.report 0x07#6 false flag ((BitVec.ofNat 1 k.val) ++ 0#17 ++ u : BitVec 32)
/-- Whether a completing instruction takes the loop-back branch. -/
def Thread.loopsBack (th : Thread) (f : Flow) : Bool :=
  decide (f = .next) && !th.lz && decide (1#24 < th.loopC) && decide (th.pc = th.loopE)
/-- The counters of Table 22.1 that an instruction's retirement moves (R490), its tally and its sample (R499-R501). `t` has not
yet left the instruction. -/
def Mach.retired (m : Mach) (t : Fin 8) (i : Ins) (f : Flow) : Mach :=
  let back := (m.thr t).loopsBack f
  let m := if i.op = 0x38 || i.op = 0x3E then m else m.tally t (m.thr t).pc (cellPay i.icell) true
  let m := (m.bumpT t (4 + t.val % 4)).bumpTIf i.generic.isSome t 34
  let m := m.bumpTIf (i.op = 0x90 || i.op = 0x91 || i.op = 0x82 || i.op = 0x83) t 38
  let m := (m.bumpTIf (i.op = 0x24) t 43).bumpTIf (i.op = 0xA0 || i.op = 0xA1) t 45
  ((m.bumpTIf (i.op = 0x28) t 68).bumpTIf (i.op = 0x3B) t 31).bumpTIf back t 47
/-- An instruction that faults gives its sample, where it was marked (R501). -/
def Mach.notRetired (m : Mach) (t : Fin 8) (i : Ins) : Mach := m.tally t (m.thr t).pc (cellPay i.icell) false
/-- What an ended instruction leaves on its thread. -/
def Mach.finishIns (m : Mach) (t : Fin 8) (i : Ins) : Except Exit Flow → Mach
  | .ok .stay => m.setThr t ((m.thr t).complete .stay)
  | .ok .resume => m
  | .ok f => let m := m.retired t i f; m.setThr t ((m.thr t).complete f)
  | .error (.fault v a) => let m := m.notRetired t i; m.setThr t ((m.thr t).raiseSync v a i.icell 0#2)
  | .error (.mcheck a) => let m := m.notRetired t i; m.setThr t ((m.thr t).raiseSync 33#10 a i.icell 3#2)
  | .error (.trap v a) => let m := m.retired t i .next; m.setThr t (((m.thr t).complete .next).raiseSync v a i.icell 1#2)
  | .error (.reserved c code) =>
    let m := m.retired t i .next
    let th := m.thr t
    let th := match i.dest with | some d => th.setReg d c | none => th
    m.setThr t ((th.complete .next).raiseSync 24#10 (fixN code) i.icell 1#2)
  | .error .again => m
  | .error .lockup => m.lockup t 2#4 0#10 0
/-- Run an instruction's work on a slice: the work's end, the slice, and the physical address of the access it attempted last. -/
def Mach.runAt {α : Type} (m : Mach) (t : Fin 8) (w : IM α) : Except Exit α × Mach × Nat :=
  let r := w.run.run { m := m, t := t, used := [], fwds := 0, last := 0 }
  (r.1, r.2.m, r.2.last)
/-- Run an instruction's work on a slice. -/
def Mach.run {α : Type} (m : Mach) (t : Fin 8) (w : IM α) : Except Exit α × Mach := ((m.runAt t w).1, (m.runAt t w).2.1)
/-- The event of an EVT code in place of the instruction's own end: a fault for codes 1 to 15, a trap after the writes for 16 to 31; which
one belongs to the ROM revision (R244; log 8). -/
def microExit (evt : BitVec 5) : Exit :=
  let e := Config.microEvent evt
  if evt < 16#5 then .fault (BitVec.ofNat 10 (1 + e.1 % 15)) (fix e.2) else .trap (BitVec.ofNat 10 (24 + e.1 % 4)) (fix e.2)
/-- Work done up to a control-store machine check after COMMIT: the writes already issued stand and the rest are never made (R252). Which
of them had been issued is a free value: none, or all of the work's. (DESIGN CHOICE, unsafe: log 8.) -/
def Mach.partWork (m : Mach) (t : Fin 8) (w : IM Flow) : Mach :=
  let d := m.draw 2
  if d.1 = 0 then d.2
  else match d.2.run t (retrying 4 w) with
    | (.ok _, m) => m
    | (.error _, _) => d.2
/-- Run the routine of a dispatched instruction and then finish it: its work where the routine goes through, the event a patch names, or
the control-store machine check (R244-R252). -/
def Mach.runIns (m : Mach) (t : Fin 8) (i : Ins) (start : Nat) (w : IM Flow) : Mach :=
  let r := m.routine t i start
  let m := { m with ch.seq := m.ch.seq.set t r.seq, free := m.free + 1 }
  match r.stop with
  | .ends => let x := m.run t (retrying 4 w); x.2.finishIns t i x.1
  | .bad u => if r.committed then (m.partWork t w).controlCheck t i u false else m.controlCheck t i u true
  | .event e =>
    if e = 0#5 then let x := m.run t (retrying 4 w); x.2.finishIns t i x.1
    else if e < 16#5 then m.finishIns t i (.error (microExit e))
    else match m.run t (retrying 4 w) with
      | (.ok _, m) => m.finishIns t i (.error (microExit e))
      | (.error x, m) => m.finishIns t i (.error x)
/-- Issue one instruction on thread `t` (R245): nothing where it cannot issue; the dispatch read with the illegal instruction and privilege
faults; the upper-half fill, a failing one locking the channel up; then its microwords and its work. -/
def Mach.issue (m : Mach) (t : Fin 8) (i : Ins) (w : IM Flow) : Mach :=
  if !m.canIssue t then m
  else
  let m := if (m.thr t).te then m.microCheck (coreOf t) else m
  match (m.core (coreOf t)).dispatch i with
    | .bad u => m.controlCheck t i u true
    | .illegal => m.setThr t ((m.thr t).raiseSync 1#10 fix0 i.icell 0#2)
    | .go sup start =>
      if sup && !(m.thr t).sup then m.setThr t ((m.thr t).raiseSync 2#10 fix0 i.icell 0#2)
      else if (m.thr t).lz && i.touches then
        match m.runAt t fillUpper with
        | (.ok _, m, _) => m.runIns t i start w
        | (.error _, m, a) => m.lockup t 2#4 0#10 a
      else m.runIns t i start w
/-- Issue an instruction on a thread of a channel. -/
def State.issue (s : State) (c : Chan) (t : Fin 8) (i : Ins) (w : IM Flow) : State := s.onMach c (fun m => m.issue t i w)

/-! ### INSTR cells (R191) -/

/-- A register number as a field. -/
def regF (r : Reg) : BitVec 5 := BitVec.ofNat 5 r.val
/-- Format A: opcode, d, a, b, v. -/
def cellA (op : Nat) (d a b : Reg) (v : Bool) : Cell :=
  mkCell tINSTR 0#2 (BitVec.ofNat 8 op ++ regF d ++ regF a ++ regF b ++ BitVec.ofBool v : BitVec 24)
/-- Format I: opcode, d, a, imm6. -/
def cellI (op : Nat) (d a : Reg) (imm : BitVec 6) : Cell :=
  mkCell tINSTR 0#2 (BitVec.ofNat 8 op ++ regF d ++ regF a ++ imm : BitVec 24)
/-- Format L: opcode, d, imm11. -/
def cellL (op : Nat) (d : Reg) (imm : BitVec 11) : Cell := mkCell tINSTR 0#2 (BitVec.ofNat 8 op ++ regF d ++ imm : BitVec 24)
/-- Format J: opcode, off16. -/
def cellJ (op : Nat) (off : BitVec 16) : Cell := mkCell tINSTR 0#2 (BitVec.ofNat 8 op ++ off : BitVec 24)

end Sys2Proof.Machine
end

