-- ==== Sys2Proof/Machine/Operands.lean ====
section
/-! DEFINITION. Operand forms: register operands and their checks (R193, R194 step 3), the instruction formats as `Ins`, the cell
a pointer addresses (R199), code entries (R173, R206), stack addresses (R204). -/
namespace Sys2Proof.Machine

/-! ### Register operands -/

/-- A register operand with its code: PSN, reserved cell, tag (R194 step 3). -/
def operand (code : Nat) (r : Reg) (ok : BitVec 6 → Bool) : IM Cell := do
  let v := (← getT).reg r
  if cellTag v = tPSN then faultPO code
  if isReserved v then throw (.reserved v code)
  if !ok (cellTag v) then faultTY code
  return v
/-- ANY (Table 8.6). -/
def anyTag (_t : BitVec 6) : Bool := true
/-- FIX only. -/
def fixTag (t : BitVec 6) : Bool := t = tFIX
/-- Two BITS operands of one tag (Table 8.6). -/
def bitsPair (a b : Reg) : IM (Cell × Cell) := do
  let x ← operand 0 a isBits
  let y ← operand 1 b isBits
  if cellTag x ≠ cellTag y then faultTY 1
  return (x, y)
/-- Write the destination. -/
def setD (d : Reg) (v : Cell) : IM Unit := modT (fun th => th.setReg d v)
/-- Whether a cell is NIL, its CDR apart. -/
def isNil (v : Cell) : Bool := cellTag v = tCONST && cellPay v = 0#24
/-- Whether two cells agree in TAG and PAYLOAD. -/
def sameValue (v w : Cell) : Bool := cellTag v = cellTag w && cellPay v = cellPay w

/-! ### Formats -/

/-- Format A with destination d and operands a, b. -/
def iDAB (op : Nat) (d a b : Reg) (v : Bool) : Ins :=
  { op := op, sup := false, icell := cellA op d a b v, dest := some d, named := [d, a, b], touch := false, generic := none }
/-- Format A with destination d and operand a. -/
def iDA (op : Nat) (d a : Reg) : Ins :=
  { op := op, sup := false, icell := cellA op d a 0 false, dest := some d, named := [d, a], touch := false, generic := none }
/-- Format A with sources d, a and b. -/
def iSAB (op : Nat) (d a b : Reg) : Ins := { iDAB op d a b false with dest := none }
/-- Format A with operands a and b. -/
def iAB (op : Nat) (a b : Reg) (v : Bool) : Ins :=
  { op := op, sup := false, icell := cellA op 0 a b v, dest := none, named := [a, b], touch := false, generic := none }
/-- Format A with operand a. -/
def iA (op : Nat) (a : Reg) : Ins :=
  { op := op, sup := false, icell := cellA op 0 a 0 false, dest := none, named := [a], touch := false, generic := none }
/-- Format A with destination d only. -/
def iD (op : Nat) (d : Reg) : Ins :=
  { op := op, sup := false, icell := cellA op d 0 0 false, dest := some d, named := [d], touch := false, generic := none }
/-- Format A with source d only. -/
def iS (op : Nat) (d : Reg) : Ins := { iD op d with dest := none }
/-- Format A with no operand. -/
def iN (op : Nat) : Ins :=
  { op := op, sup := false, icell := cellA op 0 0 0 false, dest := none, named := [], touch := false, generic := none }
/-- Format I with destination d, operand a and imm6. -/
def iDAI (op : Nat) (d a : Reg) (imm : BitVec 6) : Ins :=
  { op := op, sup := false, icell := cellI op d a imm, dest := some d, named := [d, a], touch := false, generic := none }
/-- Format I with source d. -/
def iSAI (op : Nat) (d a : Reg) (imm : BitVec 6) : Ins := { iDAI op d a imm with dest := none }
/-- Format I with operand a. -/
def iAI (op : Nat) (a : Reg) (imm : BitVec 6) : Ins := { iDAI op 0 a imm with dest := none, named := [a] }
/-- Format I with destination d. -/
def iDI (op : Nat) (d : Reg) (imm : BitVec 6) : Ins := { iDAI op d 0 imm with named := [d] }
/-- Format I with no register. -/
def iI (op : Nat) (imm : BitVec 6) : Ins := { iDAI op 0 0 imm with dest := none, named := [] }
/-- Format L with destination d. -/
def iDL (op : Nat) (d : Reg) (imm : BitVec 11) : Ins :=
  { op := op, sup := false, icell := cellL op d imm, dest := some d, named := [d], touch := false, generic := none }
/-- Format L with source d. -/
def iSL (op : Nat) (d : Reg) (imm : BitVec 11) : Ins := { iDL op d imm with dest := none }
/-- Format L with no register. -/
def iL (op : Nat) (imm : BitVec 11) : Ins := { iDL op 0 imm with dest := none, named := [] }
/-- Format J. -/
def iJ (op : Nat) (off : BitVec 16) : Ins :=
  { op := op, sup := false, icell := cellJ op off, dest := none, named := [], touch := false, generic := none }
/-- The instruction as a supervisor one. -/
def Ins.asSup (i : Ins) : Ins := { i with sup := true }
/-- The instruction as one that touches the upper half. -/
def Ins.touching (i : Ins) : Ins := { i with touch := true }
/-- The instruction as a generic one of operand a. -/
def Ins.asGeneric (i : Ins) (a : Reg) : Ins := { i with generic := some (a, none) }
/-- The instruction as a generic one of operands a and b. -/
def Ins.asGeneric2 (i : Ins) (a b : Reg) : Ins := { i with generic := some (a, some b) }

/-! ### The cell a pointer addresses (R199, Table 8.8) -/

/-- A resolved access: the virtual address, whether through a HAND, and the header of a header-addressed object. -/
structure Target where
  va : VAddr
  hand : Bool
  hdr : Option Cell
  deriving DecidableEq, Repr
/-- LD and ST: pointer and field k. -/
def fieldTarget (p : Cell) (k : Nat) (store : Bool) : IM Target := do
  let base := cellPay p
  if cellTag p = tCONS || cellTag p = tLOC then
    if k ≠ 0 then faultOR 4
    return { va := base, hand := false, hdr := none }
  else if cellTag p = tHAND then
    if bits base 0 10 + k ≥ 1024 then faultOR 4
    return { va := base + BitVec.ofNat 24 k, hand := true, hdr := none }
  else
    let h ← headerOf p
    if hdrSize h < k || (store && k = 0) then faultOR 4
    return { va := base + BitVec.ofNat 24 k, hand := false, hdr := some h }
/-- LDX, STX and LOCOF: pointer and index. (DEDUCED, unsafe: log 23.) -/
def indexTarget (p : Cell) (i : Int) : IM Target := do
  let base := cellPay p
  if cellTag p = tHAND then
    if i < 0 || i > 1023 || (bits base 0 10 : Int) + i ≥ 1024 then faultOR 1
    return { va := base + BitVec.ofInt 24 i, hand := true, hdr := none }
  else
    let h ← headerOf p
    if i < 0 || i ≥ (hdrSize h : Int) then faultOR 1
    return { va := base + 1#24 + BitVec.ofInt 24 i, hand := false, hdr := some h }
/-- Whether user code may not store a source of this tag (R158). (DEDUCED, unsafe: log 23.) -/
def userSealed (t : BitVec 6) : Bool := t = tINSTR || t = tHDR || t = tFREE || t = tCRATE
/-- The limit of R158 on a CRATE pointer in user code. (DEDUCED, unsafe: log 23.) -/
def limitCrate (p : Cell) : IM Unit := do
  if cellTag p = tCRATE && !(← getT).sup then faultTY 0
/-- The limits of R158 and R200 on a store of `v`, with its operand code, through pointer `p`. (DEDUCED, unsafe: log 23.) -/
def limitStore (p : Cell) (tg : Target) (v : Cell) (code : Nat) : IM Unit := do
  let user := !(← getT).sup
  if user && userSealed (cellTag v) then faultTY code
  if user && (cellTag p = tCODE || cellTag p = tCRATE) then faultTY 0
  match tg.hdr with
  | some h =>
    if (hdrKind h = 1#4 || hdrKind h = 9#4) && !isImm (cellTag v) then faultTY 3
    if (hdrKind h = 0#4 || hdrKind h = 10#4) && (isSealed (cellTag v) || isSpecial (cellTag v)) then faultTY 3
  | none => return ()

/-! ### Code entries (R173, R206) -/

/-- The entry address of a CODE cell: the header reached + 2 + NCONST. -/
def codeEntry (p : Cell) : IM VAddr := do
  let r ← readAt (cellPay p) needR
  if cellTag r.1 = tPSN then faultPO 3
  if cellTag r.1 ≠ tHDR || hdrKind r.1 ≠ 4#4 then faultTY 3
  let c1 ← readAt (cellPay p + 1#24) needR
  checkLoaded c1.1
  if cellTag c1.1 ≠ tFIX then faultTY 3
  return r.2.1 + 2#24 + BitVec.ofNat 24 (bits (cellPay c1.1) 0 12)

/-! ### Stack addresses (R204) -/

/-- SP, which must carry LOC. -/
def stackPtr : IM VAddr := do
  let sp := (← getT).sp
  if cellTag sp ≠ tLOC then faultTY 5
  return cellPay sp

end Sys2Proof.Machine
end

