-- ==== Sys2Proof/Machine/Pitch.lean ====
section
/-! DEFINITION. Mark bits, pitches and allocation (R227, R229, R339-R342). -/
namespace Sys2Proof.Machine

/-! ### Mark and card bits (R340) -/

/-- SIDE of a slot. -/
def Mach.side (m : Mach) (s : Fin 8) : Nat := (m.slot s).side.toNat * 1024
/-- The mark cell of a virtual address. -/
def Mach.markAddr (m : Mach) (s : Fin 8) (a : Nat) : Nat := m.side s + 2048 * regionOf a + a % 0x10000 / 32
/-- The mark bit of a virtual address within its cell. -/
def markBit (a : Nat) : Nat := a % 32 / 2
/-- The card cell of a virtual address. -/
def Mach.cardAddr (m : Mach) (s : Fin 8) (a : Nat) : Nat := m.side s + 0x80000 + 64 * regionOf a + a % 0x10000 / 1024
/-- The card bit of a virtual address within its cell. -/
def cardBit (a : Nat) : Nat := a % 1024 / 64
/-- Whether a virtual address is marked. -/
def Mach.marked (m : Mach) (s : Fin 8) (a : Nat) : Bool := bit (cellPay (m.peek (m.markAddr s a))) (markBit a)
/-- Remember a mark cell the cycle has set. -/
def Mach.noteMark (m : Mach) (a : Nat) : Mach :=
  if m.ch.sw.marks.contains a then m else { m with ch.sw.marks := a :: m.ch.sw.marks }
/-- Set the mark bit of a virtual address; a refused write is a sweeper error (R355). -/
def Mach.setMark (m : Mach) (s : Fin 8) (a : Nat) : Mach :=
  let w := m.markAddr s a
  match m.ch.place w with
  | .memory => (m.cellStep .sweeper w (raw (setBit (cellPay (m.peek w)) (markBit a) true)) false).noteMark w
  | _ => m.swError s
/-- Set or clear the card bit of a virtual address; a refused write is a sweeper error (R355). -/
def Mach.writeCard (m : Mach) (s : Fin 8) (a : Nat) (on : Bool) : Mach :=
  let w := m.cardAddr s a
  match m.ch.place w with
  | .memory => m.cellStep .sweeper w (raw (setBit (cellPay (m.peek w)) (cardBit a) on)) false
  | _ => m.swError s
/-- Set the mark bits of the even cells from `a` on, n of them. -/
def Mach.blackPairs (m : Mach) (s : Fin 8) (a : Nat) : Nat → Mach
  | 0 => m
  | n + 1 => (m.setMark s a).unlessEnded m.ch.sw.phase (fun m => m.blackPairs s (a + 2) n)
/-- Add to the live count of a region (R351). -/
def Mach.addLive (m : Mach) (r n : Nat) : Mach := { m with ch.sw.live := mapPut m.ch.sw.live r (mapAt 0 m.ch.sw.live r + n) }
/-- Set the mark bits of [a, b) and count them as live (R341, R351). -/
def Mach.blackRange (m : Mach) (s : Fin 8) (a b : Nat) : Mach :=
  (m.blackPairs s a ((b - a) / 2)).unlessEnded m.ch.sw.phase (fun m => m.addLive (regionOf a) (b - a))

/-! ### Pitches (R341) -/

/-- Whether a cycle of a slot is running. -/
def Sweeper.cycleOf (sw : Sweeper) (s : Fin 8) : Bool :=
  decide (sw.slot = s) && (match sw.phase with | .idle => false | .stopped => false | _ => true)
/-- The block a refill would hand out (R341): its address, and whether a FREE region is taken for it. -/
def Mach.planBlock (m : Mach) (s : Fin 8) : Option (Nat × Bool) :=
  let x := m.slot s
  match (x.regions (fun e => entryKind e = kNURSERY)).find? (fun r => decide (mapAt 0 x.handed r < 64)) with
  | some r => some (r * 0x10000 + mapAt 0 x.handed r * 1024, false)
  | none =>
    if x.freeCount < m.ch.rsv + 1 then none
    else (x.regions (fun e => entryKind e = kFREE)).head?.map (fun r => (r * 0x10000, true))
/-- Hand out a planned block: the region becomes NURSERY where it was FREE, and in ROOTS and MARK the block is marked. -/
def Mach.handOut (m : Mach) (s : Fin 8) (a : Nat) (take : Bool) : Mach :=
  let r := regionOf a
  let m := if take then m.setRegion s r (mkEntry kNURSERY false (m.ch.sw.cycleOf s) 0) else m
  let x := m.slot s
  let m := m.setSlot s { x with handed := mapPut x.handed r ((if take then 0 else mapAt 0 x.handed r) + 1) }
  if decide (m.ch.sw.slot = s) && m.ch.sw.phase.marking then m.blackRange s a (a + 1024) else m
/-- A thread's pitch in a slot: top and end, both 0 for none. -/
def Mach.pitch (m : Mach) (s t : Fin 8) : Nat × Nat := mapAt (0, 0) (m.slot s).pitch t.val
/-- Set a thread's pitch. -/
def Mach.setPitch (m : Mach) (s t : Fin 8) (p : Nat × Nat) : Mach :=
  m.setSlot s { m.slot s with pitch := mapPut (m.slot s).pitch t.val p }

/-! ### ALLOCL reservations (R229) -/

/-- The regions of a run. -/
def runRegions (first count : Nat) : List Nat := upFrom first count
/-- Return a thread's reservation: every region of its run becomes FREE. -/
def Mach.returnResv (m : Mach) (t : Fin 8) : Mach :=
  match (m.thr t).resv with
  | none => m
  | some r =>
    let m := m.setRegions r.slot 0#24 (runRegions r.first r.count)
    m.setThr t { m.thr t with resv := none }

/-! ### Allocation (R227) -/

/-- A planned allocation: where the object starts, the pitch after it, a block to hand out, and a FREE run over the rest of the
old pitch. -/
structure Plan where
  slot : Fin 8
  base : Nat
  top : Nat
  fin : Nat
  block : Option (Nat × Bool)
  free : Option (Nat × Nat)
  deriving DecidableEq, Repr
/-- Plan an allocation of n cells in a slot. -/
def Mach.planAlloc (m : Mach) (s t : Fin 8) (n : Nat) : Option Plan :=
  let p := m.pitch s t
  if p.1 ≠ p.2 && p.1 + n ≤ p.2 then some { slot := s, base := p.1, top := p.1 + n, fin := p.2, block := none, free := none }
  else match m.planBlock s with
    | none => none
    | some b => some { slot := s, base := b.1, top := b.1 + n, fin := b.1 + 1024, block := some b,
                       free := if p.1 < p.2 then some (p.1, p.2 - p.1) else none }
/-- Request an allocation of n cells: the thread's reservation is returned first, and the allocation fault is raised where the
space is not managed (cause 1) or the request is refused (cause 0). -/
def requestAlloc (n : Nat) : IM Plan := do
  let t ← me
  modM (fun m => m.returnResv t)
  let s ← get
  match s.m.spaceOf (s.m.thr t) with
  | none => faultAL 1
  | some sl => match s.m.planAlloc sl t n with
    | none =>
      modM (fun m => (m.bumpT t 39).bumpC 44)
      faultAL 0
    | some p =>
      if p.block.isSome then modM (fun m => m.bumpT t 39)
      return p
/-- The translations of a planned allocation's writes. -/
def xlatePlan (p : Plan) : IM (Xl × Option Xl) := do
  let x ← xlate (BitVec.ofNat 24 p.base) needW false
  match p.free with
  | none => return (x, none)
  | some f => do
    let y ← xlate (BitVec.ofNat 24 f.1) needW false
    return (x, some y)
/-- Write cells from a translated address up as initialising writes, which carry no store-barrier action. -/
def initCells (x : Xl) : Nat → List Cell → IM Unit
  | _, [] => return ()
  | i, v :: r => do
    bufStore { x with phys := x.phys + i } v false []
    initCells x (i + 1) r
/-- Carry out a planned allocation after COMMIT: the block, the FREE run, the pitch, and the object's cells. (DEDUCED, unsafe: log 30.) -/
def carryAlloc (p : Plan) (x : Xl × Option Xl) (cells : List Cell) : IM Unit := do
  let t ← me
  match p.block with
  | some b => modM (fun m => (m.handOut p.slot b.1 b.2).bumpC 43)
  | none => pure ()
  match p.free, x.2 with
  | some f, some y => initCells y 0 [freeRun f.2]
  | _, _ => pure ()
  modM (fun m => m.setPitch p.slot t (p.top, p.fin))
  initCells x.1 0 cells
/-- Allocate and write an object, and COMMIT: its address. -/
def allocObject (cells : List Cell) : IM VAddr := do
  let p ← requestAlloc cells.length
  let x ← xlatePlan p
  commit
  carryAlloc p x cells
  return BitVec.ofNat 24 p.base
/-- A four-cell box (R218). -/
def boxCells (kind : BitVec 4) (hi lo : Payload) : List Cell := [hdr kind 2, raw hi, raw lo, freeRun 1]
/-- Deliver a canonical integer into d (R217, R218): the overflow fault, a FIX, or a new INT48 box. -/
def deliverInt (d : Reg) (i : Int) : IM Flow := do
  match canonical i with
  | .overflow => faultOV
  | .fix v =>
    commit
    setD d v
    return .next
  | .box hi lo =>
    let a ← allocObject (boxCells 5#4 hi lo)
    let t ← me
    modM (fun m => m.bumpT t 36)
    setD d (mkCell tBOX 0#2 a)
    return .next

end Sys2Proof.Machine
end

