-- ==== Sys2Proof/Machine/SweepMem.lean ====
section
/-! DEFINITION. The sweeper's own accesses to virtual cells (R290), the extents of regions (R169, R339), and the lines of an ALLOCL
body (R229). -/
namespace Sys2Proof.Machine

/-- Work of the sweeper that can end in an access error, named by its vector: 8 miss, 9 rights, 10 chain, 11 walk bus, 12 bus. -/
abbrev SM (α : Type) := ExceptT (BitVec 10) (StateM Mach) α

/-- Run sweeper work. -/
def Mach.sweep {α : Type} (m : Mach) (w : SM α) : Except (BitVec 10) α × Mach := w.run.run m
/-- Change the slice. -/
def swMod (f : Mach → Mach) : SM Unit := modify f
/-- Use the slice. -/
def swUse {α : Type} (f : Mach → α × Mach) : SM α := modifyGet f
/-- Whether the channel's own engines work: it runs, in RUN, IDLE or DOZE (R113). -/
def Mach.works (m : Mach) : Bool := m.fastOn

/-! ### Translation (R290) -/

/-- The walk of the sweeper's page: IPT index and FLAGS. -/
def swWalk (vpn : BitVec 14) (asid : BitVec 8) : SM (Nat × Payload) := do
  match ← swUse (fun m => m.walk .sweeper vpn asid) with
  | .found i _ f =>
    swMod (fun m => { m with ch.sw.xlate := some (vpn, asid, i, f) })
    return (i, f)
  | .miss => throw 8#10
  | .chain => throw 10#10
  | .bus => throw 11#10
/-- The sweeper's translation of a page: the one it keeps, or a walk. -/
def swPage (vpn : BitVec 14) (asid : BitVec 8) : SM (Nat × Payload) := do
  match (← get).ch.sw.xlate with
  | some (v, a, i, f) => if v = vpn && a = asid then return (i, f) else swWalk vpn asid
  | none => swWalk vpn asid
/-- One attempt at the physical address of a virtual cell of a slot, checked as supervisor code and committed (R290, R299): none where
the update finds V = 0, with the translation kept dropped. -/
def swXlateOnce (s : Fin 8) (va : Nat) (rd wr : Bool) : SM (Option Nat) := do
  let asid := ((← get).slot s).asid
  let r ← swPage (BitVec.ofNat 14 (va / 1024)) asid
  let fl := r.2
  if (rd && !bit fl 0) || (wr && !bit fl 1) || flType fl = 2#2 then throw 9#10
  let a := (← get).ch.pageBase r.1 + va % 1024
  if (← get).ch.place a = .nothing then throw 12#10
  if !bit fl 21 || (wr && !bit fl 20) then
    match ← swUse (fun m => m.adWrite .sweeper r.1 wr) with
    | .done =>
      let fl := setBit fl 21 true
      let fl := if wr then setBit fl 20 true else fl
      swMod (fun m => { m with ch.sw.xlate := some (BitVec.ofNat 14 (va / 1024), asid, r.1, fl) })
      return some a
    | .invalid =>
      swMod (fun m => { m with ch.sw.xlate := none })
      return none
    | .unreadable => throw 11#10
  else return some a
/-- The physical address of a sweeper access: where the update finds V = 0 the access walks again, n times at most (R299). -/
def swXlateN (s : Fin 8) (va : Nat) (rd wr : Bool) : Nat → SM Nat
  | 0 => throw 8#10
  | n + 1 => do
    match ← swXlateOnce s va rd wr with
    | some a => return a
    | none => swXlateN s va rd wr n
/-- The translation of a sweeper access. -/
def swXlate (s : Fin 8) (va : Nat) (rd wr : Bool) : SM Nat := swXlateN s va rd wr 5
/-- Run sweeper work; an error discards the translation kept. -/
def Mach.sweepTry {α : Type} (m : Mach) (w : SM α) : Except (BitVec 10) α × Mach :=
  match m.sweep w with
  | (.ok v, m) => (.ok v, m)
  | (.error e, m) => (.error e, { m with ch.sw.xlate := none })
/-- Read one cell at a physical address. -/
def Mach.physRead (m : Mach) (ag : Agent) (a : Nat) : Cell × Mach :=
  match m.ch.place a with
  | .near => m.nearFetch (a - 0x80000000)
  | .memory => let r := m.turnRead ag (a / 16) 0#2 false; (lineAt r.1 a, r.2)
  | _ => (fix0, m)
/-- Read one virtual cell of a slot. -/
def swRead (s : Fin 8) (va : Nat) : SM Cell := do
  let a ← swXlate s va true false
  swUse (fun m => m.physRead .sweeper a)
/-- Read one virtual cell, FWD cells followed (R179): the cell and its virtual address. -/
def swReadFwd (s : Fin 8) : Nat → Nat → SM (Cell × Nat)
  | 0, va => do return (← swRead s va, va)
  | n + 1, va => do
    let v ← swRead s va
    if cellTag v = tFWD then swReadFwd s n (cellPay v).toNat else return (v, va)
/-- Write one virtual cell of a slot whole. -/
def swWrite (s : Fin 8) (va : Nat) (v : Cell) : SM Unit := do
  let a ← swXlate s va false true
  swMod (fun m => m.cellStep .sweeper a v false)
/-- Replace one virtual cell of a slot by a compare-and-swap, which needs R and W (R290). -/
def swSwap (s : Fin 8) (va : Nat) (v : Cell) : SM Unit := do
  let a ← swXlate s va true true
  swMod (fun m => m.cellStep .sweeper a v false)
/-- Write cells of one line from a virtual address up. -/
def swWriteLine (s : Fin 8) (va : Nat) (vs : List Cell) : SM Unit := do
  let a ← swXlate s va false true
  let cells := lineOf (a % 16) vs
  swMod (fun m => match m.ch.place a with
    | .near => m.nearStep .sweeper (a / 16) cells
    | .memory => m.memStep .sweeper (a / 16) cells
    | _ => m)

/-! ### Extents (R169, R339) -/

/-- Rounded up to even. -/
def toEven (n : Nat) : Nat := n + n % 2
/-- The cells of a list extent from `va` on, before rounding, within `fuel` cells; a CDR 11 ends the list like NIL. (DEDUCED, unsafe: log 31.) -/
def swListLen (s : Fin 8) : Nat → Nat → Nat → SM Nat
  | 0, n, _ => return n
  | k + 1, n, va => do
    let v ← swRead s va
    if cellCdr v = 0#2 then return n + 2
    else if cellCdr v = 1#2 then swListLen s k (n + 1) (va + 1)
    else return n + 1
/-- The extent that starts at a cell within a block or run ending at `stop`: its length and whether it is an object. (DEDUCED, unsafe: log 31.) -/
def swExtent (s : Fin 8) (va stop : Nat) : SM (Nat × Bool) := do
  let v ← swRead s va
  if cellTag v = tHDR then return (toEven (hdrSize v + 1), true)
  else if cellTag v = tFREE then return (max 1 (cellPay v).toNat, false)
  else return (toEven (← swListLen s (stop - va) 0 va), true)
/-- The extent of a block that contains cell `a`, walked from `va`: its start and length. -/
def swFindIn (s : Fin 8) (a stop : Nat) : Nat → Nat → SM (Option (Nat × Nat))
  | 0, _ => return none
  | k + 1, va => do
    if stop ≤ va then return none
    let e ← swExtent s va stop
    if a < va + e.1 then return (if e.2 then some (va, e.1) else none)
    else swFindIn s a stop k (va + e.1)

/-! ### Bodies of objects (Table 9.4, R228, R229) -/

/-- Body cell i (from 1) of a new object of a selector and SIZE. -/
def bodyCell (sel : BitVec 6) (size i : Nat) : Cell :=
  if sel = 1#6 then (if i = 1 then fixN (3 * (size - 1)) else raw 0#24)
  else if sel = 2#6 then (if i = 1 || i = 4 then cNIL else if i = 2 || i = 3 then cUNBOUND else fix0)
  else if sel = 6#6 || sel = 9#6 then raw 0#24
  else fix0
/-- The header KIND of a selector; none for one outside Table 9.4. -/
def selKind (sel : BitVec 6) : Option (BitVec 4) :=
  if sel = 0#6 then some 0#4 else if sel = 1#6 then some 1#4 else if sel = 2#6 then some 2#4 else if sel = 3#6 then some 3#4
  else if sel = 6#6 then some 6#4 else if sel = 7#6 then some 7#4 else if sel = 9#6 then some 9#4
  else if 16#6 ≤ sel && sel ≤ 23#6 then some 10#4 else none
/-- The pointer tag a selector delivers. -/
def selTag (sel : BitVec 6) : BitVec 6 :=
  if sel = 0#6 || sel = 9#6 then tVEC else if sel = 1#6 then tSTR else if sel = 2#6 then tSYM else if sel = 3#6 then tCLO
  else if sel = 6#6 then tBOX else if sel = 7#6 then tREC else 0x20#6 + (sel - 16#6)
/-- The least SIZE of ALLOC for a selector, and the greatest. -/
def selSizes (sel : BitVec 6) : Nat × Nat :=
  if sel = 6#6 then (2, 2) else if sel = 2#6 then (4, 1023) else if sel = 1#6 || sel = 3#6 || sel = 7#6 then (1, 1023)
  else (0, 1023)
/-- Cell i of a new object, header included. -/
def objCell (sel : BitVec 6) (size i : Nat) : Cell := if i = 0 then hdr ((selKind sel).getD 0#4) size else bodyCell sel size i
/-- The regions a large object of a SIZE takes. -/
def largeRegions (size : Nat) : Nat := ceilDiv (size + 1) 65536
/-- Cells that an object of a SIZE occupies, its padding included (R169). -/
def objSpan (size : Nat) : Nat := toEven (size + 1)
/-- Cells of a large object's run that the fill writes: the object, and the first cell of the FREE run after it. -/
def fillCells (size : Nat) : Nat := min (objSpan size + 1) (largeRegions size * 65536)
/-- Lines of the fill. -/
def fillLines (size : Nat) : Nat := ceilDiv (fillCells size) 16
/-- Cell i of the fill. -/
def fillCell (sel : BitVec 6) (size i : Nat) : Cell :=
  if i ≤ size then objCell sel size i
  else if i < objSpan size then freeRun 1
  else freeRun (largeRegions size * 65536 - objSpan size)
/-- The cells of line j of a reservation's fill. -/
def Reservation.line (r : Reservation) (j : Nat) : List Cell :=
  (upFrom (16 * j) (min 16 (fillCells r.size - 16 * j))).map (fillCell r.sel r.size)
/-- The virtual address of line j of a reservation's fill. -/
def Reservation.lineVa (r : Reservation) (j : Nat) : Nat := r.first * 0x10000 + 16 * j
/-- Write the next line of a thread's reservation (R229): the fill advances, or stops at the line with its error. -/
def Mach.fillStep (m : Mach) (t : Fin 8) (r : Reservation) : Option (BitVec 10) × Mach :=
  match m.sweepTry (swWriteLine r.slot (r.lineVa r.filled) (r.line r.filled)) with
  | (.ok _, m) => (none, m.setThr t { m.thr t with resv := some { r with filled := r.filled + 1, failed := false } })
  | (.error e, m) => (some e, m.setThr t { m.thr t with resv := some { r with failed := true } })

end Sys2Proof.Machine
end

