-- ==== Sys2Proof/Machine/Events.lean ====
section
/-! DEFINITION. Entering an event in stack and in shadow mode, RETE, the HOLD window, stalemate, heals, line fills, prefetch arrival
and the write buffers' drain (R265-R277, R315, R317, R322, R347). -/
namespace Sys2Proof.Machine

/-! ### Selecting an event (R265, R270) -/

/-- The event a thread enters at its boundary, with what its frame records. -/
structure Entry where
  vector : Nat
  addr : Cell
  icell : Cell
  ret : VAddr
  kind : BitVec 2
  overrun : BitVec 8
  deriving DecidableEq, Repr
/-- The thread at the boundary a signal is taken at: a waiting thread has completed its WAIT. -/
def Thread.atBoundary (th : Thread) : Thread :=
  match th.status with
  | .waiting _ => { th.retire none with status := .running }
  | _ => th
/-- The ADDR of vector 84: the phase (R349). -/
def Mach.rootAddr (m : Mach) : Cell := fixN m.ch.sw.phase.code
/-- The event thread `t` enters now, and the channel with the event taken. -/
def Mach.selectEvent (m : Mach) (t : Fin 8) : Option (Entry × Mach) :=
  let th := m.thr t
  match th.sync with
  | some e =>
    some ({ vector := e.vector.toNat, addr := e.addr, icell := e.icell, ret := e.ret, kind := e.kind, overrun := 0#8 },
      m.setThr t { th with sync := none })
  | none => match m.signalFor t with
    | none => none
    | some v =>
      let m := if th.mask?.isSome then m.bumpT t (4 + t.val % 4) else m
      let th := th.atBoundary
      if v = 84 then
        some ({ vector := 84, addr := m.rootAddr, icell := fix0, ret := th.pc, kind := 2#2, overrun := 0#8 },
          m.setThr t { th with rootPend := false })
      else
        let p := (mapGet m.ch.proc.pend v).getD { overrun := 0#8, addr := fix0 }
        let m := m.setThr t th
        some ({ vector := v, addr := p.addr, icell := fix0, ret := th.pc, kind := 2#2, overrun := p.overrun },
          { m with ch.proc.pend := mapDel m.ch.proc.pend v })
/-- Whether a thread can enter an event: the channel runs in RUN and the thread is not stopped. -/
def Mach.canEnter (m : Mach) (t : Fin 8) : Bool :=
  decide (m.ch.life.cond = .running) && decide (m.ch.life.power = .run) && decide ((m.thr t).status ≠ .stopped)
/-- Whether an entry of a vector uses the shadow bank (R271). -/
def Mach.usesShadow (m : Mach) (t : Fin 8) (v : Nat) : Bool := attrSave (m.ch.proc.attrOf v) && !(m.thr t).shb
/-- EVINFO (Table 11.6). -/
def Mach.evinfo (m : Mach) (t : Fin 8) (e : Entry) (opened : Bool) : Cell :=
  let shfb := attrSave (m.ch.proc.attrOf e.vector) && (m.thr t).shb
  fix (0#1 ++ BitVec.ofBool shfb ++ BitVec.ofBool opened ++ BitVec.ofBool (m.thr t).shlvl ++ e.kind ++ e.overrun
    ++ BitVec.ofNat 10 e.vector : BitVec 24)
/-- Whether the entry opens a window (R266). -/
def Mach.opensHold (m : Mach) (t : Fin 8) (v : Nat) : Bool :=
  decide (attrHold (m.ch.proc.attrOf v) ≠ 0#8) && (m.thr t).hold.isNone
/-- The window after an entry. -/
def Mach.holdAfter (m : Mach) (t : Fin 8) (v : Nat) : Option (BitVec 8) :=
  if m.opensHold t v then some (attrHold (m.ch.proc.attrOf v)) else (m.thr t).hold

/-! ### The handler (Table 11.7, cycles 2 and 3) -/

/-- The physical address of a vector's handler cell. -/
def Mach.handlerAddr (m : Mach) (v : Nat) : Nat := bits m.ch.proc.vbase 0 22 * 1024 + 2 * v
/-- The handler cell, read past translation (R261). -/
def Mach.handlerCell (m : Mach) (t : Fin 8) (v : Nat) : Cell × Mach := m.tableRead (coreOf t) (m.handlerAddr v)
/-- The lockup cause of a failing access of cycle 3: a translation fault or a DEVICE page 2, anything else about the handler 1. (DEDUCED, unsafe: log 22.) -/
def causeOf : Exit → BitVec 4
  | .fault v _ => if v = 8#10 || v = 9#10 || v = 10#10 || v = 11#10 then 2#4 else 1#4
  | .mcheck _ => 2#4
  | .again => 2#4
  | _ => 1#4
/-- Entry work whose failures carry a lockup cause, as a trap whose ADDR names it; a COMMIT that finds V = 0 makes the accesses again
(R246, R299). -/
def asStep {α : Type} (cause : Exit → BitVec 4) (w : IM α) : IM α :=
  tryCatch w (fun e => match e with
    | .again => throw .again
    | e => throw (.trap 0#10 (fixN (cause e).toNat)))
/-- The entry address of a handler. -/
def handlerEntry (h : Cell) : IM VAddr := do
  if cellTag h ≠ tCODE then throw (.trap 0#10 (fixN 1))
  asStep (fun e => match e with | .fault 12#10 _ => 1#4 | _ => 2#4)
    (do
      let _ ← xlateAs true (cellPay h) needR false
      return ())
  asStep causeOf (codeEntry h)
/-- Work whose every failure is a frame push fault. -/
def asPush {α : Type} (w : IM α) : IM α := asStep (fun _ => 2#4) w
/-- The lockup cause that ended entry work; a mapping that is not found again is a translation fault. -/
def lockCause : Exit → BitVec 4
  | .trap _ a => (cellPay a).setWidth 4
  | _ => 2#4
/-- Run entry work as supervisor code of a thread: its result, or the lockup cause and the physical address of the failing access. -/
def Mach.asSupervisor {α : Type} (m : Mach) (t : Fin 8) (w : IM α) : Except (BitVec 4 × Nat) α × Mach :=
  let ps := (m.thr t).pstate
  let r := (m.setThr t { m.thr t with pstate := setBit ps 0 true }).runAt t w
  let m := r.2.1.setThr t { r.2.1.thr t with pstate := ps }
  match r.1 with
  | .ok v => (.ok v, m)
  | .error e => (.error (lockCause e, r.2.2), m)

/-! ### The words of an entry (R251) -/

/-- The failing word of the microwords an entry runs through: those of vector 32 stand in the entry store, every other entry's in the
control ROM. -/
def Mach.entryWord (m : Mach) (t : Fin 8) (e : Entry) (shadow : Bool) : Option Nat :=
  let co := m.core (coreOf t)
  if e.vector = 32 || co.asMade then none
  else
    let q := { m.micro t with upc := BitVec.ofNat 14 (Config.microStart (if shadow then 257 else 256) % 7920) }
    let f := Config.microFree m.free
    match (co.sequence (f 8192 % 16) (f 8193 % 16) f microLimit false q).stop with
    | .bad u => some u
    | _ => none
/-- The class 0x07 record of an entry of vector 32: FLAG 1 where the entry fails (R250, R251). -/
def Mach.entryRecord (m : Mach) (t : Fin 8) (e : Entry) (failed : Bool) : Mach :=
  if e.vector = 32 then m.reportControl failed (coreOf t) ((cellPay e.addr).setWidth 14) else m
/-- An entry that fails locks the channel up. -/
def Mach.entryFails (m : Mach) (t : Fin 8) (e : Entry) (cause : BitVec 4) (access : Nat) : Mach :=
  (m.entryRecord t e true).lockup t cause (BitVec.ofNat 10 e.vector) access
/-- Whether the words of an entry can be read: a mismatch of the entry store's copies, or a failing control word, locks the channel up
with cause 4 (R251). -/
def Mach.entryWords (m : Mach) (t : Fin 8) (e : Entry) (shadow : Bool) : Option Mach :=
  if e.vector = 32 && (m.core (coreOf t)).entryDiff then some (m.entryFails t e 4#4 0)
  else match m.entryWord t e shadow with
    | some u => some ((m.reportControl true (coreOf t) (BitVec.ofNat 14 u)).lockup t 4#4 (BitVec.ofNat 10 e.vector) 0)
    | none => none

/-! ### Entry (R268-R271) -/

/-- The lower 24 cells of an event frame (Table 11.5). -/
def Mach.frameCells (m : Mach) (t : Fin 8) (e : Entry) : List Cell :=
  let th := m.thr t
  [reta e.ret, fix th.pstate, m.evinfo t e (m.opensHold t e.vector), e.addr, e.icell,
    (match th.frame with | some a => loc a | none => cNIL), fix0, fix0] ++ th.regs.toList.take 16
/-- An entry takes effect: the thread's core is clocked (R114), the stalemate condition is broken (R277), and the counters of Table 22.1
move. -/
def Mach.countEntry (m : Mach) (t : Fin 8) (e : Entry) (shadow : Bool) : Mach :=
  let m := { m with ch.life := { m.ch.life with gated := setBit m.ch.life.gated (coreOf t).val false }, ch.clk.staleFor := 0 }
  let m := m.bumpT t (20 + t.val % 4)
  let m := m.bumpT t (24 + e.kind.toNat)
  let m := m.bumpT t (if shadow then 29 else 28)
  let m := if e.vector = 13 then m.bumpT t 40 else m
  if 8 ≤ e.vector && e.vector ≤ 11 then m.bumpT t 77 else m
/-- A stack-mode entry (Table 11.7). -/
def Mach.enterStack (m : Mach) (t : Fin 8) (e : Entry) : Mach :=
  match m.entryWords t e false with
  | some m => m
  | none =>
  let th := m.thr t
  if cellTag th.spS ≠ tLOC then m.entryFails t e 3#4 0
  else
    let h := m.handlerCell t e.vector
    if cellTag h.1 = tPSN then h.2.entryFails t e 0#4 (m.handlerAddr e.vector)
    else
      let f := cellPay th.spS - 48#24
      let work : IM VAddr := do
        let a ← handlerEntry h.1
        let _ ← asPush (xlateCells ((upFrom 0 48).map (fun i => (f + BitVec.ofNat 24 i, fix0))))
        asPush (pushCells f (m.frameCells t e))
        return a
      match h.2.asSupervisor t (retrying 4 work) with
      | (.error c, m) => m.entryFails t e c.1 c.2
      | (.ok a, m) =>
        let m := (m.entryRecord t e false).countEntry t e false
        m.setThr t { m.thr t with
          spS := loc f, frame := some f, shlvl := false, pstate := setBit (setBit (m.thr t).pstate 0 true) 3 true,
          hold := m.holdAfter t e.vector, pc := a, inShadow := true }
/-- A shadow-mode entry (Table 11.8). -/
def Mach.enterShadow (m : Mach) (t : Fin 8) (e : Entry) : Mach :=
  match m.entryWords t e true with
  | some m => m
  | none =>
  let h := m.handlerCell t e.vector
  if cellTag h.1 = tPSN then h.2.entryFails t e 0#4 (m.handlerAddr e.vector)
  else
    let work : IM VAddr := do
      let a ← handlerEntry h.1
      asPush commit
      return a
    match h.2.asSupervisor t (retrying 4 work) with
    | (.error c, m) => m.entryFails t e c.1 c.2
    | (.ok a, m) =>
      let m := (m.entryRecord t e false).countEntry t e true
      let th := m.thr t
      let opened := m.opensHold t e.vector
      let regs := swapLow th.regs th.bank
      m.setThr t { th with
        shRet := e.ret, shPst := th.pstate, shFrame := th.frame,
        regs := ((regs.set 13 e.icell).set 14 e.addr).set 15 (m.evinfo t e opened),
        bank := lowHalf th.regs, frame := none, shlvl := true,
        pstate := setBit (setBit (setBit th.pstate 0 true) 2 true) 3 true,
        hold := m.holdAfter t e.vector, shOpened := opened, pc := a, inShadow := true }
where
  /-- c0-c15 of the registers -/
  lowHalf (r : Vector Cell 32) : Vector Cell 16 := Vector.ofFn (fun i : Fin 16 => r[i.castLE (by decide : 16 ≤ 32)])
  /-- the registers with c0-c15 taken from the bank -/
  swapLow (r : Vector Cell 32) (b : Vector Cell 16) : Vector Cell 32 :=
    Vector.ofFn (fun i : Fin 32 => if h : i.val < 16 then b[i.val] else r[i])
/-- EVENT_ENTRY_STACK: the event due at the thread's boundary is entered where its entry is a stack-mode one. -/
def Mach.eventEntryStack (m : Mach) (t : Fin 8) : Mach :=
  if !m.canEnter t then m
  else match m.selectEvent t with
    | none => m
    | some (e, m') => if m.usesShadow t e.vector then m else m'.enterStack t e
/-- EVENT_ENTRY_SHADOW: the event due is entered where its entry uses the shadow bank. -/
def Mach.eventEntryShadow (m : Mach) (t : Fin 8) : Mach :=
  if !m.canEnter t then m
  else match m.selectEvent t with
    | none => m
    | some (e, m') => if m.usesShadow t e.vector then m'.enterShadow t e else m
/-- EVENT_ENTRY_STACK. -/
def execEventEntryStack (c : Chan) (t : Fin 8) (s : State) : Out := .next (s.onMach c (fun m => m.eventEntryStack t))
/-- EVENT_ENTRY_SHADOW. -/
def execEventEntryShadow (c : Chan) (t : Fin 8) (s : State) : Out := .next (s.onMach c (fun m => m.eventEntryShadow t))

/-! ### Return (R274) -/

/-- The failure of RETE with its code. -/
def reteFail {α : Type} (code : Nat) : IM α := fault 1#10 (fixN code)
/-- What a frame cell that cannot be read comes to: failure 2 for a translation fault or a bus error, anything else itself (R274). -/
def frameExit : Exit → Exit
  | .fault v a => if 8#10 ≤ v && v ≤ 12#10 then .fault 1#10 (fixN 2) else .fault v a
  | e => e
/-- Frame cells from offset i up, each a barrier load; an unreadable one, PSN included, is failure 2. -/
def frameRead (f : VAddr) : Nat → Nat → IM (List (Cell × Healing))
  | _, 0 => return []
  | i, n + 1 => do
    let r ← tryCatch (readAt (f + BitVec.ofNat 24 i) needR) (fun e => throw (frameExit e))
    if cellTag r.1 = tPSN then reteFail 2
    let b ← loadBarrier r.2.1 r.2.2.phys r.1
    return b :: (← frameRead f (i + 1) n)
/-- Cell i of what was read. -/
def readAtI (l : List (Cell × Healing)) (i : Nat) : Cell := (l.getD i (fix0, none)).1
/-- Post the heals of a list of loads. -/
def postAll : List (Cell × Healing) → IM Unit
  | [] => return ()
  | (_, h) :: r => do
    postHeal h
    postAll r
/-- Registers from a list, from register `lo` up. -/
def putRegs (v : Vector Cell 32) (lo : Nat) : List Cell → Vector Cell 32
  | [] => v
  | c :: r => putRegs (v.set (Fin.ofNat 32 lo) c) (lo + 1) r
/-- The upper half from its 22 cells. -/
def Thread.putUpper (th : Thread) (v : List Cell) : Thread :=
  let p (i : Nat) : Payload := cellPay (v.getD i fix0)
  { th with regs := putRegs th.regs 16 (v.take 16), acc := accOf (p 16) (p 17) (p 18), loopC := p 19, loopS := p 20, loopE := p 21 }
/-- RETE from a stack level. (DEDUCED, unsafe: log 25.) -/
def reteStack (f : VAddr) : IM Flow := do
  let th ← getT
  let lo ← frameRead f 0 24
  let up ← if th.lz then pure [] else frameRead f 24 22
  if cellTag (readAtI lo 0) ≠ tRETA then reteFail 3
  let ps := readAtI lo 1
  let link := readAtI lo 5
  if cellTag ps ≠ tFIX || bits (cellPay ps) 5 19 ≠ 0 || bit (cellPay ps) 2 ≠ th.shb then reteFail 4
  if !(cellTag link = tLOC || isNil link) then reteFail 4
  commit
  postAll lo
  postAll up
  let ev := cellPay (readAtI lo 2)
  modT (fun th =>
    let th := if th.lz then th else th.putUpper (up.map (fun e => e.1))
    { th with
      regs := putRegs th.regs 0 ((lo.drop 8).map (fun e => e.1)), pstate := cellPay ps, spS := loc (f + 48#24),
      shlvl := bit ev 20, frame := if isNil link then none else some (cellPay link),
      hold := if bit ev 21 then none else th.hold })
  return .rete (cellPay (readAtI lo 0))
/-- RETE from the shadow level. -/
def reteShadow : IM Flow := do
  let th ← getT
  let up ← if th.lz then pure [] else match th.frame with
    | some f => frameRead f 0 22
    | none => reteFail 1
  commit
  postAll up
  modT (fun th =>
    let sp := match th.frame with | some f => loc (f + 24#24) | none => th.spS
    let th := if th.lz then th else { th.putUpper (up.map (fun e => e.1)) with spS := sp }
    { th with
      regs := Mach.enterShadow.swapLow th.regs th.bank, bank := Mach.enterShadow.lowHalf th.regs,
      pstate := th.shPst, frame := th.shFrame, shlvl := false, hold := if th.shOpened then none else th.hold,
      shOpened := false })
  return .rete th.shRet
/-- RETE (R274). -/
def execRete (c : Chan) (t : Fin 8) (s : State) : Out :=
  .next (s.issue c t (iN 0x3B).asSup (do
    let th ← getT
    if th.shlvl then reteShadow
    else match th.frame with
      | some f => reteStack f
      | none => reteFail 1))

/-! ### Windows and stalemate -/

/-- HOLD_WINDOW_EXPIRY: an open window closes. -/
def execHoldWindowExpiry (c : Chan) (t : Fin 8) (s : State) : Out :=
  .next (s.onMach c (fun m => m.setThr t { m.thr t with hold := none }))
/-- Whether the stalemate condition holds (R277). (DEDUCED, unsafe: log 37.) -/
def Channel.stalemated (ch : Channel) : Bool :=
  let live := ch.thr.toList.filter (fun th => th.status ≠ .stopped)
  decide (ch.life.cond = .running) && live.all (fun th => match th.mask? with
    | none => false
    | some k => !bit k 23 && !(ch.proc.pend.any (fun e => maskSelects k e.1)))
/-- STALEMATE: where the condition holds and has held for 256 slow-clock periods, vector 39 becomes pending for thread 0, and the count
starts again (R277). (DEDUCED, unsafe: log 37.) -/
def Mach.stalemate (m : Mach) : Mach :=
  if m.ch.stalemated && decide (256 ≤ m.ch.clk.staleFor) then { m with ch.clk.staleFor := 0 }.raise 39 fix0 else m
/-- STALEMATE. -/
def execStalemate (c : Chan) (s : State) : Out := .next (s.onMach c (fun m => m.stalemate))

/-! ### Heals, fills and drains -/

/-- HEAL: the oldest posted compare-and-swap (R346, R347): it replaces the payload of a source cell that still holds the loaded tag
and payload, keeping its CDR, with the log and snapshot actions of a barrier write; otherwise nothing changes. (DEDUCED, unsafe: log 33.) -/
def Mach.heal (m : Mach) : Mach :=
  match m.ch.proc.heals with
  | [] => m
  | h :: r =>
    let m := { m with ch.proc.heals := r }
    let ag := coreAgent h.core
    let v := m.physRead ag h.addr
    if cellTag v.1 = cellTag h.old && cellPay v.1 = cellPay h.old then
      let w := withPay v.1 h.new
      let m := if v.2.logs h.slot h.va w then v.2.logStep ag h.slot (logEntry h.slot h.va) else v.2
      (m.pushAll h.slot [v.1]).cellStep ag h.addr w false
    else v.2.bump (96 * h.core.val + 85)
/-- The posted heals, n of them at most, oldest first. -/
def Mach.healAll (m : Mach) : Nat → Mach
  | 0 => m
  | n + 1 => m.heal.healAll n
/-- HEAL. -/
def execHeal (c : Chan) (s : State) : Out := .next (s.onMach c (fun m => if m.fastOn then m.heal else m))
/-- LINE_FILL: the fill in flight of a core's cache arrives. -/
def execLineFill (c : Chan) (k : Fin 2) (dcache : Bool) (s : State) : Out := .next (s.onMach c (fun m => m.settleFill k dcache))
/-- PREFETCH_ARRIVAL: the oldest prefetch in flight arrives; a discarded or in-range one leaves nothing (R322, R326). -/
def Mach.prefetchArrival (m : Mach) (k : Fin 2) (dc : Bool) : Mach :=
  let c := m.cache k dc
  match c.reqs with
  | [] => m
  | q :: r =>
    let m := m.setCache k dc { c with reqs := r }
    if q.dead || m.inRange q.line then m
    else
      let c := m.cache k dc
      let buf := if c.buf.length < 4 then c.buf else c.buf.drop 1
      m.setCache k dc { c with buf := buf ++ [{ line := q.line, cells := q.cells, stride := q.stride, bad := false }] }
/-- PREFETCH_ARRIVAL. -/
def execPrefetchArrival (c : Chan) (k : Fin 2) (dcache : Bool) (s : State) : Out :=
  .next (s.onMach c (fun m => m.prefetchArrival k dcache))
/-- WRITE_BUFFER_DRAIN: the oldest write buffer entry takes its place; a channel that has stopped issues none (R42). -/
def execWriteBufferDrain (c : Chan) (k : Fin 2) (s : State) : Out :=
  .next (s.onMach c (fun m => if m.fastOn && !m.heldBack then m.drainOne k else m))

end Sys2Proof.Machine
end

