-- ==== Sys2Proof/Machine/System.lean ====
section
/-! DEFINITION. Translation and cache instructions, the range engine, ROOTSCAN and WAIT (R210, R308, R309, R313, R326, R333, R350). -/
namespace Sys2Proof.Machine

/-! ### Look-aside buffers (Table 13.8) -/

/-- Which look-aside entries a TLBINV selects (Table 13.7). -/
def tlbSelects (imm : BitVec 6) (p : Payload) (e : TlbEntry) : Bool :=
  if imm = 0#6 then true
  else if imm = 1#6 then !e.g && decide (e.asid = p.extractLsb' 16 8)
  else if imm = 2#6 then decide (e.vpn = p.extractLsb' 0 14) && (decide (e.asid = p.extractLsb' 16 8) || e.g)
  else e.g
/-- Remove look-aside entries from both cores; the sweeper discards its translation (R290, R308). -/
def Mach.tlbInvalidate (m : Mach) (p : TlbEntry → Bool) : Mach :=
  let m := m.setCore 0 ((m.core 0).tlbRemove p)
  let m := m.setCore 1 ((m.core 1).tlbRemove p)
  { m with ch.sw.xlate := none }
/-- TLBINV. -/
def execTlbinv (c : Chan) (t : Fin 8) (a : Reg) (imm : BitVec 6) (s : State) : Out :=
  .next (s.issue c t (iAI 0xB8 a imm).asSup (do
    if 3#6 < imm || ((imm = 0#6 || imm = 3#6) && a ≠ 0) then faultIL
    if imm = 1#6 || imm = 2#6 then
      let v ← operand 0 a fixTag
      if bits (cellPay v) 14 2 ≠ 0 then faultOR 0
    commit
    let p := cellPay ((← getT).reg a)
    modM (fun m => m.tlbInvalidate (tlbSelects imm p))
    return .next))
/-- TLBPROBE. -/
def execTlbprobe (c : Chan) (t : Fin 8) (d a : Reg) (s : State) : Out :=
  .next (s.issue c t (iDA 0xB9 d a).asSup (do
    let v ← operand 0 a fixTag
    let p := cellPay v
    if bits p 14 2 ≠ 0 then faultOR 0
    let va := fix (p.extractLsb' 0 14 ++ 0#10 : BitVec 24)
    match ← useM (fun m => m.walk (coreAgent (coreOf t)) (p.extractLsb' 0 14) (p.extractLsb' 16 8)) with
    | .found i _ _ =>
      commit
      setD d (fixN i)
      return .next
    | .miss =>
      commit
      setD d (fixI (-1))
      return .next
    | .chain => fault 10#10 va
    | .bus => fault 11#10 va))

/-! ### Caches (Table 14.6) -/

/-- Whether imm6 selects caches (R333). -/
def cacheSel (imm : BitVec 6) : Bool := imm ≠ 0#6 && imm ≤ 3#6
/-- Clear the caches of both cores that a selection names. -/
def Mach.clearCaches (m : Mach) (i d : Bool) : Mach :=
  let one (k : Fin 2) (m : Mach) : Mach :=
    let co := m.core k
    m.setCore k { co with icache := if i then co.icache.clear else co.icache, dcache := if d then co.dcache.clear else co.dcache }
  one 1 (one 0 m)
/-- Clear every stride slot. -/
def Mach.clearStrides (m : Mach) : Mach := { m with ch.thr := m.ch.thr.map (fun t => { t with stride := [] }) }
/-- CACHEON. -/
def execCacheon (c : Chan) (t : Fin 8) (imm : BitVec 6) (s : State) : Out :=
  .next (s.issue c t (iI 0xC0 imm).asSup (do
    if !cacheSel imm then faultOR 4
    if !(← getM).ch.proc.invd then fault 15#10 fix0
    commit
    modM (fun m => { m with ch.proc := { m.ch.proc with icen := m.ch.proc.icen || bit imm 0, dcen := m.ch.proc.dcen || bit imm 1 } })
    return .next))
/-- CACHEOFF (R313). -/
def execCacheoff (c : Chan) (t : Fin 8) (imm : BitVec 6) (s : State) : Out :=
  .next (s.issue c t (iI 0xC1 imm).asSup (do
    if !cacheSel imm then faultOR 4
    commit
    modM (fun m =>
      let m := if bit imm 1 then m.drainAll else m
      let m := m.clearCaches (bit imm 0) (bit imm 1)
      { m with ch.proc := { m.ch.proc with icen := m.ch.proc.icen && !bit imm 0, dcen := m.ch.proc.dcen && !bit imm 1 } })
    return .next))
/-- CINVALL. -/
def execCinvall (c : Chan) (t : Fin 8) (s : State) : Out :=
  .next (s.issue c t (iN 0xC2).asSup (do
    commit
    modM (fun m =>
      let m := (m.clearCaches true true).clearStrides
      { m with ch.proc.invd := true })
    return .next))
/-- CRANGE (R326). -/
def execCrange (c : Chan) (t : Fin 8) (d a b : Reg) (s : State) : Out :=
  .next (s.issue c t (iDAB 0xC3 d a b false).asSup (do
    let x ← operand 0 a fixTag
    let y ← operand 1 b fixTag
    let p := fixInt (cellPay x)
    let n := fixInt (cellPay y)
    let pages : Int := (← getM).ch.memPages
    if p < 0 || p ≥ pages then faultOR 0
    if n < 1 || p + n > pages then faultOR 1
    commit
    if (← getM).ch.proc.range.isSome then
      setD d (fixN 1)
    else
      modM (fun m =>
        let m := { m with ch.proc.range := some (p.toNat, n.toNat) }
        { m with ch := winPut (winPut m.ch 0x1401 (cellPay x)) 0x1402 (cellPay y) })
      setD d fix0
    return .next))
/-- A cache with every line of a range of pages removed. -/
def Cache.dropRange (c : Cache) (out : Nat → Bool) : Cache :=
  { c with
    frames := c.frames.map (fun e => (e.1, { e.2 with
      lines := e.2.lines.filter (fun l => !out ((e.2.faddr.toNat * 32 + e.1 / 4) * 4 + l.1)) }))
    buf := c.buf.filter (fun b => !out b.line)
    reqs := c.reqs.map (fun q => if out q.line then { q with dead := true } else q)
    fill := c.fill.map (fun f => if out f.line then { f with dead := true } else f) }
/-- RANGE_ENGINE_DONE: no line of the range is left in any cache, RBUSY clears, vector 88 (R326). -/
def Mach.rangeDone (m : Mach) : Mach :=
  if m.ch.proc.range.isNone || decide (m.ch.life.cond ≠ .running) || decide (m.ch.life.power = .sleep) then m
  else
    let out := m.inRange
    let one (k : Fin 2) (m : Mach) : Mach :=
      let co := m.core k
      m.setCore k { co with icache := co.icache.dropRange out, dcache := co.dcache.dropRange out }
    let m := one 1 (one 0 m)
    ({ m with ch.proc.range := none }).raiseIf (winBit m.ch 0x1400 5) 88 fix0
/-- RANGE_ENGINE_DONE. -/
def execRangeEngineDone (c : Chan) (s : State) : Out := .next (s.onMach c (fun m => m.rangeDone))

/-! ### Root requests (R349, R350) -/

/-- Whether a thread's space is the cycle's target for ROOTSCAN. -/
def Mach.rootSpace (m : Mach) (th : Thread) : Bool :=
  decide ((m.slot m.ch.sw.slot).asid = th.asid) && (m.slot m.ch.sw.slot).en
/-- The forwarded cell of a root in FIXUP: a pointer into an EVAC region whose target holds FWD; none to leave it. -/
def Mach.forwardOf (m : Mach) (v : Cell) : Option Cell × Mach :=
  let s := m.ch.sw.slot
  if isPtrOrFwd v && decide ((m.slot s).kind (regionOf (cellPay v).toNat) = kEVAC) then
    match m.sweepTry (swRead s (cellPay v).toNat) with
    | (.ok w, m) => (if cellTag w = tFWD then some (withPay v (cellPay w)) else none, m)
    | (.error _, m) => (none, m)
  else (none, m)
/-- One root cell served: pushed in ROOTS, replaced in FIXUP. -/
def Mach.serveCell (m : Mach) (v : Cell) : Cell × Mach :=
  if !isPtr (cellTag v) then (v, m)
  else match m.ch.sw.phase with
    | .roots => (v, m.pushMark v)
    | .fixup => match m.forwardOf v with
      | (some w, m) => (w, m)
      | (none, m) => (v, m)
    | _ => (v, m)
/-- A list of root cells served in order. -/
def Mach.serveCells (m : Mach) : List Cell → List Cell × Mach
  | [] => ([], m)
  | v :: r =>
    let a := m.serveCell v
    let b := a.2.serveCells r
    (a.1 :: b.1, b.2)
/-- A frame cell read for root service, with its A update (R299). -/
def rootRead (va : VAddr) : IM Cell := do
  let x ← xlateAs true va needR false
  commit
  readCell x
/-- A frame cell replaced by root service, with its A and D updates. -/
def rootWrite (va : VAddr) (w : Cell) : IM Unit := do
  let x ← xlateAs true va needW false
  commit
  let k ← myCore
  modM (fun m => m.cellStep (coreAgent k) x.phys w false)
/-- The frame cells of a stack level served in memory; a cell that cannot be reached is left out. -/
def serveFrame (f : VAddr) : Nat → Nat → IM Unit
  | _, 0 => return ()
  | i, n + 1 => do
    let va := f + BitVec.ofNat 24 i
    tryCatch
      (do
        let v ← retrying 4 (rootRead va)
        let w ← useM (fun m => m.serveCell v)
        if w ≠ v then retrying 4 (rootWrite va w))
      (fun _ => modify (fun s => { s with used := [] }))
    serveFrame f (i + 1) n
/-- Serve a thread's root request over its root set. -/
def Mach.serveRoot (m : Mach) (t : Fin 8) : Mach :=
  let m := if m.rootSpace (m.thr t) then
      let th := m.thr t
      let a := m.serveCells th.regs.toList
      let b := a.2.serveCells th.bank.toList
      let d := b.2.serveCells [th.spU, th.spS, th.chain]
      let m := d.2.setThr t { d.2.thr t with
        regs := loadVec th.regs 0 a.1, bank := loadVec th.bank 0 b.1,
        spU := d.1.getD 0 th.spU, spS := d.1.getD 1 th.spS, chain := d.1.getD 2 th.chain }
      match th.shlvl, th.frame with
      | false, some f => (m.run t (serveFrame f 8 16)).2
      | _, _ => m
    else m
  m.setThr t { m.thr t with rootReq := false, rootPend := false }
where
  /-- a vector refilled from a list -/
  loadVec {n : Nat} (v : Vector Cell n) (i : Nat) : List Cell → Vector Cell n
    | [] => v
    | c :: r => loadVec (v.setIfInBounds i c) (i + 1) r
/-- A quiet scan returns the channel from DOZE to IDLE (R349). -/
def Mach.leaveDoze (m : Mach) : Mach := if m.ch.life.power = .doze then { m with ch.life.power := .idle } else m
/-- Raise a root request on every thread that is not stopped; a waiting thread is served at once by a quiet scan (R349). -/
def Mach.raiseRoots (m : Mach) : List (Fin 8) → Mach
  | [] => m
  | t :: r =>
    let th := m.thr t
    (match th.status with
    | .stopped => m
    | .running => m.setThr t { th with rootReq := true, rootPend := true }
    | .waiting _ => m.leaveDoze.serveRoot t).raiseRoots r
/-- ROOTSCAN. -/
def execRootscan (c : Chan) (t : Fin 8) (s : State) : Out :=
  .next (s.issue c t (iN 0xC8).asSup (do
    commit
    if (← getT).rootReq then modM (fun m => m.serveRoot t)
    return .next))

/-! ### WAIT (R210) -/

/-- WAIT: the thread waits at its address with its mask; the wake and completion are the event's entry. A window closes, and a
root request outstanding is served by a quiet scan. -/
def execWait (c : Chan) (t : Fin 8) (a : Reg) (s : State) : Out :=
  .next (s.issue c t (iA 0x38 a) (do
    let v ← operand 0 a fixTag
    let p := cellPay v
    if bits p 16 7 ≠ 0 || p = 0#24 then faultOR 0
    commit
    modT (fun th => { th with status := .waiting p, hold := none })
    if (← getT).rootReq then modM (fun m => m.serveRoot t)
    return .stay))

end Sys2Proof.Machine
end

