-- ==== Sys2Proof/Machine/Sweep.lean ====
section
/-! DEFINITION. The sweeper at work: log drain, refills, roots, marking, selection, copying, fixing (R341-R355). -/
namespace Sys2Proof.Machine

/-! ### The log (R345) -/

/-- LOGOVF of every enabled slot, with vector 83 for each. -/
def Mach.ovfAll (m : Mach) : List (Fin 8) → Mach
  | [] => m
  | s :: r =>
    (if (m.slot s).en then (m.setOvf s).raiseIf (winBit m.ch 0x2000 3) 83 (fixN s.val) else m).ovfAll r
/-- The oldest log entry is drained into the card bitmap; one that names no card sets LOGOVF of every enabled slot. (DEDUCED, unsafe: log 36.) -/
def Mach.logDrain (m : Mach) : Mach :=
  if m.ch.sw.logOcc = 0#11 then m
  else
    let tail : Nat := (m.ch.sw.logHead.toNat + 1024 - m.ch.sw.logOcc.toNat) % 1024
    let r := m.nearFetch (m.ch.proc.nearbase.toNat + tail)
    let m := { r.2 with ch.sw.logOcc := r.2.ch.sw.logOcc - 1#11 }
    let p := cellPay r.1
    if cellTag r.1 ≠ tRAW || bits p 18 3 ≠ 0 then ({ m with ch.sw.lost := true }).ovfAll threads
    else
      let s : Fin 8 := Fin.ofNat 8 (bits p 21 3)
      if (m.slot s).en then m.writeCard s (bits p 0 18 * 64) true else m
/-- Drain n entries. -/
def Mach.logDrainN (m : Mach) : Nat → Mach
  | 0 => m
  | n + 1 => m.logDrain.logDrainN n
/-- Whether the sweeper can take a step: the channel works and the mirror does not hold steps back (R409). -/
def Mach.sweeps (m : Mach) : Bool := m.works && !m.heldBack
/-- LOG_DRAIN. -/
def execLogDrain (c : Chan) (s : State) : Out := .next (s.onMach c (fun m => if m.sweeps then m.logDrain else m))

/-! ### Pitches (R341, R342) -/

/-- FREE over the remainder of a thread's pitch, then top := end. (DEDUCED, unsafe: log 32.) -/
def Mach.retirePitch (m : Mach) (s t : Fin 8) : Mach :=
  let p := m.pitch s t
  if p.1 < p.2 then
    match m.sweepTry (swWrite s p.1 (freeRun (p.2 - p.1))) with
    | (.ok _, m) => m.setPitch s t (p.2, p.2)
    | (.error _, m) => (m.setPitch s t (p.2, p.2)).swError s
  else m
/-- Retire the pitches of a list of threads that lie in regions a test picks. -/
def Mach.retireIn (m : Mach) (s : Fin 8) (p : Nat → Bool) : List (Fin 8) → Mach
  | [] => m
  | t :: r =>
    let q := m.pitch s t
    (if q.1 < q.2 && p (regionOf q.1) then m.retirePitch s t else m).unlessEnded m.ch.sw.phase (fun m => m.retireIn s p r)
/-- PITCH_REFILL: a thread's request for a new pitch outside an allocation: the rest of the old pitch becomes FREE; a refused request
leaves everything (R341). -/
def Mach.pitchRefill (m : Mach) (s t : Fin 8) : Mach :=
  if !m.sweeps || !(m.slot s).en then m
  else match m.planBlock s with
    | none => m.bumpC 44
    | some b => ((m.retirePitch s t).handOut s b.1 b.2).setPitch s t (b.1, b.1 + 1024) |>.bumpC 43
/-- PITCH_REFILL. -/
def execPitchRefill (c : Chan) (s t : Fin 8) (st : State) : Out := .next (st.onMach c (fun m => m.pitchRefill s t))

/-! ### ROOTS (R341, R349) -/

/-- The black ranges of the current pitches of a slot. -/
def Mach.blackPitches (m : Mach) (s : Fin 8) : List (Fin 8) → Mach
  | [] => m
  | t :: r =>
    let p := m.pitch s t
    (if p.1 < p.2 then m.blackRange s p.1 p.2 else m).unlessEnded m.ch.sw.phase (fun m => m.blackPitches s r)
/-- ROOTS begins: every write committed before it, posted heals included, takes its place in IDLE (R344); pitch remainders become black,
root requests are raised. -/
def Mach.beginRoots (m : Mach) : Mach :=
  let m := m.drainAll
  let m := m.healAll m.ch.proc.heals.length
  if m.ch.sw.phase ≠ .idle then m
  else
    let m := { m with ch.sw := { m.ch.sw with phase := .roots, starting := false, xlate := none } }
    (m.blackPitches m.ch.sw.slot threads).unlessEnded .roots (fun m => m.raiseRoots threads)
/-- A cycle command of a program (R348): where it starts a cycle, ROOTS begins. (DEDUCED, unsafe: log 34.) -/
def Mach.startCycle (m : Mach) (s : Fin 8) (full : Bool) : Mach :=
  let go := m.swIdle && (m.slot s).en
  let m := m.cycleCmd s full
  if go then m.beginRoots else m
/-- YOUNG_CYCLE_COMMAND. -/
def execYoungCycleCommand (c : Chan) (s : Fin 8) (st : State) : Out := .next (st.program c (fun m => m.startCycle s false))
/-- FULL_CYCLE_COMMAND. -/
def execFullCycleCommand (c : Chan) (s : Fin 8) (st : State) : Out := .next (st.program c (fun m => m.startCycle s true))
/-- Whether a slot meets the full and the young trigger (R348). -/
def Mach.triggers (m : Mach) (s : Fin 8) : Bool × Bool :=
  let x := m.slot s
  let nur := bits (winGet m.ch 0x2000) 16 8
  let young := (x.regions (fun e => entryKind e = kNURSERY && !entryNew e)).length
  (x.en && decide (m.ch.lowmark ≠ 0) && decide (x.freeCount ≤ m.ch.lowmark), x.en && decide (nur ≠ 0) && decide (nur ≤ young))
/-- AUTOMATIC_CYCLE_START: the lowest enabled slot that meets a trigger starts a cycle, a full one where both apply. -/
def Mach.autoCycle (m : Mach) : Mach :=
  if !m.sweeps || !m.swIdle then m
  else match threads.find? (fun s => (m.triggers s).1 || (m.triggers s).2) with
    | none => m
    | some s => (m.acceptCycle s (m.triggers s).1).beginRoots
/-- AUTOMATIC_CYCLE_START. -/
def execAutomaticCycleStart (c : Chan) (s : State) : Out := .next (s.onMach c Mach.autoCycle)

/-! ### Walking blocks (R339) -/

/-- Where the extents of the block at an address end: a current pitch's top, else its end. -/
def Slot.blockStop (x : Slot) (start : Nat) : Nat :=
  match x.pitch.find? (fun e => decide (e.2.1 < e.2.2) && decide (e.2.2 = start + 1024)) with
  | some e => e.2.1
  | none => start + 1024
/-- Whether an object's cells are scanned (R351). -/
def scanned (v : Cell) : Bool :=
  cellTag v ≠ tHDR || !(hdrKind v = 1#4 || hdrKind v = 9#4 || hdrKind v = 5#4 || hdrKind v = 6#4)
/-- The extents with objects of a block from `va` up to `stop`. -/
def swBlock (s : Fin 8) (stop : Nat) : Nat → Nat → SM (List (Nat × Nat))
  | 0, _ => return []
  | k + 1, va => do
    if stop ≤ va then return []
    let e ← swExtent s va stop
    let r ← swBlock s stop k (va + e.1)
    return if e.2 then (va, e.1) :: r else r
/-- The blocks of a region that have been handed out or, in an OLD or EVAC region, all of them. -/
def Slot.blocks (x : Slot) (r : Nat) : List Nat :=
  let n := if x.kind r = kNURSERY then mapAt 0 x.handed r else match mapGet x.handed r with | some n => n | none => 64
  (upFrom 0 n).map (fun i => r * 0x10000 + 1024 * i)
/-- The extent containing the target of a cell: start, length, and whether its cells are scanned; none beyond a pitch top. -/
def swTarget (s : Fin 8) (v : Cell) : SM (Option (Nat × Nat × Bool)) := do
  let x := (← get).slot s
  let a := (cellPay v).toNat
  let r := regionOf a
  if x.kind r = kLARGE then
    let st := entryFirst (x.entry r) * 0x10000
    let h ← swRead s st
    return some (st, toEven (hdrSize h + 1), scanned h)
  else
    let b := a / 1024 * 1024
    let stop := x.blockStop b
    if stop ≤ a then return none
    let e ← if isHdrp (cellTag v) then do
        let e ← swExtent s a stop
        pure (if e.2 then some (a, e.1) else none)
      else swFindIn s a stop 1024 b
    match e with
    | none => return none
    | some e =>
      let h ← swRead s e.1
      return some (e.1, e.2, scanned h)

/-! ### MARK (R351) -/

/-- The set cards of the regions of a slot that hold cells, by first cell. -/
def Mach.cardsOf (m : Mach) (s : Fin 8) : List Nat → List Nat × Mach
  | [] => ([], m)
  | w :: r =>
    let a := m.physRead .sweeper (m.cardAddr s w)
    let b := a.2.cardsOf s r
    let p := cellPay a.1
    (((upFrom 0 16).filter (fun i => bit p i)).map (fun i => w + 64 * i) ++ b.1, b.2)
/-- The first cells of every card cell of a slot: every card whose bit is set counts, whatever its region's kind (R351, R354). -/
def cardCells : List Nat := (upFrom 0 256).flatMap (fun r => (upFrom 0 64).map (fun i => r * 0x10000 + 1024 * i))
/-- STATIC regions, and UNMANAGED ones with ROOT, which has no meaning in any other kind (Tables 15.1 and 15.2). -/
def Slot.rootRegions (x : Slot) : List Nat :=
  x.regions (fun e => entryKind e = kSTATIC || (decide (entryKind e = kUNMANAGED) && entryRoot e))
/-- MARK begins once every root request is served: root regions and, in a young cycle, the cells of set cards after the log is
drained. -/
def Mach.beginMark (m : Mach) : Mach :=
  let s := m.ch.sw.slot
  let roots := (m.slot s).rootRegions.map (fun r => Work.cells (r * 0x10000) 0x10000)
  let m := { m with ch.sw := { m.ch.sw with phase := .mark, planned := true, work := roots, xlate := none } }
  if m.ch.sw.full then m
  else
    let m := m.logDrainN m.ch.sw.logOcc.toNat
    let c := m.cardsOf s cardCells
    match c.2.ch.sw.phase with
    | .mark => { c.2 with ch.sw := { c.2.ch.sw with work := c.2.ch.sw.work ++ c.1.map (fun a => Work.cells a 64) } }
    | _ => c.2
/-- Take an entry of the mark queue: a followed one's extent, where unmarked, is marked, counted and its cells put to work. -/
def Mach.takeEntry (m : Mach) (v : Cell) : Mach :=
  let s := m.ch.sw.slot
  if !(isPtrOrFwd v && m.ch.sw.follows ((m.slot s).kind (regionOf (cellPay v).toNat))) then m
  else match m.sweepTry (swTarget s v) with
    | (.error _, m) => m.swError s
    | (.ok none, m) => m
    | (.ok (some (st, n, sc)), m) =>
      if m.marked s st then m
      else
        let m := ((m.setMark s st).addLive (regionOf st) n).bumpC 38
        if sc then { m with ch.sw.work := .cells st n :: m.ch.sw.work } else m
/-- The cells of one work item of MARK are scanned, one cell a step. -/
def Mach.scanCell (m : Mach) (st n : Nat) (rest : List Work) : Mach :=
  let s := m.ch.sw.slot
  let m := { m with ch.sw.work := if n ≤ 1 then rest else .cells (st + 1) (n - 1) :: rest }
  match m.sweepTry (swRead s st) with
  | (.error _, m) => m.swError s
  | (.ok v, m) => m.pushAll s [v]
/-- The newest spilled line returns to the queue. (DEDUCED, unsafe: log 33.) -/
def Mach.unspill (m : Mach) : Mach :=
  let n := m.ch.sw.spilled - 16
  let a := bits (winGet m.ch 0x2005) 0 22 * 1024 + n
  let r := m.turnRead .sweeper (a / 16) 0#2 false
  { r.2 with ch.sw := { r.2.ch.sw with queue := r.2.ch.sw.queue ++ r.1.toList, spilled := n } }
/-- One step of MARK. -/
def Mach.markUnit (m : Mach) : Mach :=
  match m.ch.sw.work with
  | .cells st n :: r => m.scanCell st n r
  | _ :: r => { m with ch.sw.work := r }
  | [] => match m.ch.sw.queue with
    | v :: q => ({ m with ch.sw.queue := q }).takeEntry v
    | [] => if 0 < m.ch.sw.spilled then m.unspill else m
/-- MARK_QUEUE_SPILL: a full queue writes its oldest 16 entries. -/
def execMarkQueueSpill (c : Chan) (s : State) : Out :=
  .next (s.onMach c (fun m =>
    if m.sweeps && m.ch.sw.phase.marking && decide (4096 ≤ m.ch.sw.queue.length) then m.spillLine else m))

/-! ### SELECT (R352) -/

/-- The live count of a region. -/
def Mach.live (m : Mach) (r : Nat) : Nat := mapAt 0 m.ch.sw.live r
/-- Whether a region is held as an ALLOCL reservation. -/
def Mach.reserved (m : Mach) (s : Fin 8) (r : Nat) : Bool :=
  threads.any (fun t => match (m.thr t).resv with
    | some x => decide (x.slot = s) && decide (x.first ≤ r) && decide (r < x.first + x.count)
    | none => false)
/-- The regions SELECT frees first. -/
def Mach.deadRegions (m : Mach) (s : Fin 8) : List Nat :=
  let x := m.slot s
  (upFrom 0 256).filter (fun r =>
    let e := x.entry r
    let k := entryKind e
    (decide (k = kNURSERY) && !entryNew e && decide (m.live r = 0))
      || (m.ch.sw.full && decide (k = kOLD) && decide (m.live r = 0))
      || (m.ch.sw.full && decide (k = kLARGE) && !entryNew e && !m.marked s (entryFirst e * 0x10000) && !m.reserved s r))
/-- Regions of to-space a total live count needs. -/
def spaceFor (l : Nat) : Nat := ceilDiv (2 * l) 65536
/-- Whether a set of a total live count fits. -/
def fits (l free rsv : Nat) : Bool := decide (spaceFor l + rsv ≤ free)
/-- Insert by ascending live count, ties in region order. -/
def insertLive (f : Nat → Nat) (r : Nat) : List Nat → List Nat
  | [] => [r]
  | x :: l => if f r < f x then r :: x :: l else x :: insertLive f r l
/-- Candidates added while the whole set still fits. -/
def addWhileFits (f : Nat → Nat) (free rsv : Nat) : List Nat → List Nat → Nat → List Nat × Nat
  | [], set_, l => (set_, l)
  | r :: cs, set_, l => if fits (l + f r) free rsv then addWhileFits f free rsv cs (set_ ++ [r]) (l + f r) else (set_, l)
/-- What SELECT chooses: the EVAC regions, the to-space regions and the blocks to evacuate; none where the nursery set does not fit. -/
def Mach.selection (m : Mach) (s : Fin 8) : Option (List Nat × List Nat × List Nat) :=
  let x := m.slot s
  let nur := x.regions (fun e => entryKind e = kNURSERY && !entryNew e)
  let ln := (nur.map m.live).foldl (· + ·) 0
  let free := x.freeCount
  let pct := bits (winGet m.ch 0x2000) 4 4
  if !fits ln free m.ch.rsv then none
  else
    let cands := if m.ch.sw.full then
        (x.regions (fun e => entryKind e = kOLD)).filter (fun r => decide (m.live r ≤ pct * 4096)) |>.foldl (fun l r => insertLive m.live r l) []
      else []
    let pick := addWhileFits m.live free m.ch.rsv cands nur ln
    let evac := (upFrom 0 256).filter (fun r => pick.1.contains r)
    some (evac, (x.regions (fun e => entryKind e = kFREE)).take (spaceFor pick.2), evac.flatMap x.blocks)
/-- SELECT: dead regions become FREE; the nursery set and the candidates that fit become EVAC; to-space is claimed; pitches in
EVAC regions are retired; EVACUATE begins. A refused mirror write abandons the cycle and changes no further region (R355). -/
def Mach.selectPhase (m : Mach) : Mach :=
  let s := m.ch.sw.slot
  let m := { m with ch.sw := { m.ch.sw with phase := .select, xlate := none } }
  (m.setRegions s 0#24 (m.deadRegions s)).unlessEnded .select (fun m =>
    match m.selection s with
    | none => m.swAbandon 2#3
    | some (evac, to_, blocks) =>
      (m.setRegions s (mkEntry kEVAC false false 0) evac).unlessEnded .select (fun m =>
        (m.setRegions s (mkEntry kOLD false false 0) to_).unlessEnded .select (fun m =>
          (m.retireIn s (fun r => evac.contains r) threads).unlessEnded .select (fun m =>
            let y := m.slot s
            let m := m.setSlot s { y with handed := y.handed.filter (fun e => !to_.contains e.1) }
            { m with ch.sw := { m.ch.sw with
                phase := .evacuate, planned := true, work := blocks.map (fun b => .block b true), todo := [], copy := none,
                toNext := 0, toEnd := 0, toSpace := to_, xlate := none
                toBlocks := to_.flatMap (fun r => (upFrom 0 64).map (fun i => r * 0x10000 + 1024 * i)) } }))))
/-- MARK_END: with nothing left to trace, SELECT follows. -/
def Mach.markEnd (m : Mach) : Mach :=
  let sw := m.ch.sw
  if m.sweeps && decide (sw.phase = .mark) && sw.planned && sw.queue.isEmpty && decide (sw.spilled = 0) && sw.work.isEmpty then m.selectPhase
  else m
/-- MARK_END. -/
def execMarkEnd (c : Chan) (s : State) : Out := .next (s.onMach c Mach.markEnd)

/-! ### EVACUATE (R353) -/

/-- The marked extents of blocks, block by block, until some are found: they become the extents to copy. -/
def Mach.findTodo (m : Mach) : List Work → Mach
  | [] => { m with ch.sw.work := [] }
  | .block b _ :: r =>
    let s := m.ch.sw.slot
    match m.sweepTry (swBlock s ((m.slot s).blockStop b) 1024 b) with
    | (.error _, m) => m.swError s
    | (.ok es, m) =>
      let es := es.filter (fun e => m.marked s e.1)
      if es.isEmpty then m.findTodo r else { m with ch.sw := { m.ch.sw with work := r, todo := es } }
  | _ :: r => m.findTodo r
/-- FREE over the rest of the current to-space block. -/
def Mach.closeBlock (m : Mach) : Mach :=
  let s := m.ch.sw.slot
  if m.ch.sw.toNext < m.ch.sw.toEnd then
    match m.sweepTry (swWrite s m.ch.sw.toNext (freeRun (m.ch.sw.toEnd - m.ch.sw.toNext))) with
    | (.ok _, m) => m
    | (.error _, m) => m.swError s
  else m
/-- Place the next extent's copy: in the current block where it fits, else at the start of the next one. -/
def Mach.placeCopy (m : Mach) (src n : Nat) : Mach :=
  let m := if m.ch.sw.toNext + n ≤ m.ch.sw.toEnd then m
    else
      let m := m.closeBlock
      match m.ch.sw.toBlocks with
      | [] => m
      | b :: r => { m with ch.sw := { m.ch.sw with toNext := b, toEnd := b + 1024, toBlocks := r } }
  { m with ch.sw := { m.ch.sw with copy := some { src := src, len := n, k := 0, dst := m.ch.sw.toNext }, toNext := m.ch.sw.toNext + n } }
/-- Copy one cell: read, write with its CDR, card, and the forward by a compare-and-swap, which in one step cannot fail. -/
def Mach.copyCell (m : Mach) (j : CopyJob) : Mach :=
  let s := m.ch.sw.slot
  let a := j.src + j.k
  let d := j.dst + j.k
  let rw : SM Cell := do
    let v ← swRead s a
    swWrite s d v
    return v
  match m.sweepTry rw with
  | (.error _, m) => m.swError s
  | (.ok v, m) =>
    let k := (m.slot s).kind (regionOf (cellPay v).toNat)
    let m := if isPtrOrFwd v && (decide (k = kNURSERY) || decide (k = kEVAC)) then m.writeCard s d true else m
    m.unlessEnded .evacuate (fun m =>
      match m.sweepTry (swSwap s a (mkCell tFWD (cellCdr v) (BitVec.ofNat 24 d))) with
      | (.error _, m) => m.swError s
      | (.ok _, m) =>
        let m := m.bumpC 39
        if j.k + 1 < j.len then { m with ch.sw.copy := some { j with k := j.k + 1 } }
        else { m.setMark s j.dst with ch.sw.copy := none })
/-- SWEEPER_COPY: the next cell of the extent under way, or the first of the next marked extent. (DEDUCED, unsafe: log 33.) -/
def Mach.copyUnit (m : Mach) : Mach :=
  if m.ch.sw.phase ≠ .evacuate then m
  else match m.ch.sw.copy with
    | some j => m.copyCell j
    | none =>
      let m := if m.ch.sw.todo.isEmpty then m.findTodo m.ch.sw.work else m
      match m.ch.sw.todo with
      | [] => m
      | e :: r =>
        let m := ({ m with ch.sw.todo := r }).placeCopy e.1 e.2
        match m.ch.sw.phase, m.ch.sw.copy with
        | .evacuate, some j => m.copyCell j
        | _, _ => m
/-- SWEEPER_COPY. -/
def execSweeperCopy (c : Chan) (s : State) : Out := .next (s.onMach c (fun m => if m.sweeps then m.copyUnit else m))
/-- FREE over each block of to-space that lies in a region begun and holds no copy. (DEDUCED, unsafe: log 32.) -/
def Mach.closeBlocks (m : Mach) (used : Nat → Bool) : List Nat → Mach
  | [] => m
  | b :: r =>
    let s := m.ch.sw.slot
    (if used (regionOf b) then match m.sweepTry (swWrite s b (freeRun 1024)) with
        | (.ok _, m) => m
        | (.error _, m) => m.swError s
      else m).unlessEnded m.ch.sw.phase (fun m => m.closeBlocks used r)
/-- To-space regions in which no block has been begun. -/
def Sweeper.unusedTo (sw : Sweeper) : List Nat := sw.toSpace.filter (fun r => sw.toBlocks.contains (r * 0x10000))
/-- EVACUATE_END: with every marked extent copied, FIXUP begins and raises its root requests (R354). -/
def Mach.evacuateEnd (m : Mach) : Mach :=
  if !m.sweeps || decide (m.ch.sw.phase ≠ .evacuate) || m.ch.sw.copy.isSome || !m.ch.sw.todo.isEmpty then m
  else
    let m := m.findTodo m.ch.sw.work
    if !m.ch.sw.todo.isEmpty then m
    else
      m.closeBlock.unlessEnded .evacuate (fun m =>
        let un := m.ch.sw.unusedTo
        (m.closeBlocks (fun r => !un.contains r) m.ch.sw.toBlocks).unlessEnded .evacuate (fun m =>
          ({ m with ch.sw := { m.ch.sw with phase := .fixup, planned := false, work := [], xlate := none } }).raiseRoots threads))
/-- EVACUATE_END. -/
def execEvacuateEnd (c : Chan) (s : State) : Out := .next (s.onMach c Mach.evacuateEnd)

/-! ### FIXUP (R354, Table 15.6) -/

/-- Fix one virtual cell. -/
def swFix (s : Fin 8) (va : Nat) : SM Unit := do
  let v ← swRead s va
  if isPtrOrFwd v && decide (((← get).slot s).kind (regionOf (cellPay v).toNat) = kEVAC) then
    let w ← swRead s (cellPay v).toNat
    if cellTag w = tFWD then swSwap s va (withPay v (cellPay w))
/-- Fix n cells from `va` up; whether one of them then points into a NURSERY region. -/
def swFixCard (s : Fin 8) : Nat → Nat → SM Bool
  | 0, _ => return false
  | n + 1, va => do
    swFix s va
    let v ← swRead s va
    let hit := isPtrOrFwd v && decide (((← get).slot s).kind (regionOf (cellPay v).toNat) = kNURSERY)
    return (← swFixCard s n (va + 1)) || hit
/-- Every extent of the OLD and LARGE regions that were there before SELECT, or every marked one. -/
def Mach.oldWork (m : Mach) (s : Fin 8) (marked : Bool) : List Work :=
  let x := m.slot s
  ((upFrom 0 256).filter (fun r => x.kind r = kOLD && !m.ch.sw.toSpace.contains r)).flatMap
      (fun r => (x.blocks r).map (fun b => .block b marked))
    ++ ((upFrom 0 256).filter (fun r => x.kind r = kLARGE && entryFirst (x.entry r) = r)).map (fun r => Work.large r marked)
/-- The work of FIXUP (Table 15.6), the extents that a log overflow adds apart. -/
def Mach.fixWork (m : Mach) (s : Fin 8) (cards : List Nat) : List Work :=
  let x := m.slot s
  let sw := m.ch.sw
  let blocksOf (r : Nat) : List Work := (x.blocks r).map (fun b => .block b false)
  let isNew (r : Nat) : Bool := entryNew (x.entry r)
  let roots := x.rootRegions.map (fun r => Work.cells (r * 0x10000) 0x10000)
  let to_ := (sw.toSpace.filter (fun r => !sw.unusedTo.contains r)).flatMap blocksOf
  let news := ((upFrom 0 256).filter (fun r => x.kind r = kNURSERY && isNew r)).flatMap blocksOf
    ++ (((upFrom 0 256).filter (fun r => x.kind r = kLARGE && entryFirst (x.entry r) = r && isNew r)).map (fun r => Work.large r false))
  if sw.full then m.oldWork s true ++ to_ ++ news ++ roots else cards.map .card ++ roots ++ to_ ++ news
/-- The work of FIXUP is made once its root requests are served and the log is drained. -/
def Mach.beginFix (m : Mach) : Mach :=
  let s := m.ch.sw.slot
  let m := m.logDrainN m.ch.sw.logOcc.toNat
  let c := if m.ch.sw.full then ([], m) else m.cardsOf s cardCells
  c.2.unlessEnded .fixup (fun m => { m with ch.sw := { m.ch.sw with planned := true, work := m.fixWork s c.1 } })
/-- Whether a young FIXUP has still to take every OLD and LARGE extent, because a log entry was lost in its cycle (Table 15.6). -/
def Sweeper.owesWhole (sw : Sweeper) : Bool := !sw.full && sw.lost && !sw.whole
/-- Put those extents to work. -/
def Mach.takeWhole (m : Mach) : Mach :=
  { m with ch.sw := { m.ch.sw with whole := true, work := m.oldWork m.ch.sw.slot false } }
/-- One step of FIXUP. -/
def Mach.fixUnit (m : Mach) : Mach :=
  let s := m.ch.sw.slot
  let more (m : Mach) (ws : List Work) : Mach := m.unlessEnded .fixup (fun m => { m with ch.sw.work := ws ++ m.ch.sw.work })
  match m.ch.sw.work with
  | [] => if m.ch.sw.owesWhole then m.takeWhole else m
  | w :: r =>
    let m := { m with ch.sw.work := r }
    match w with
    | .cells st n =>
      match m.sweepTry (swFix s st) with
      | (.error _, m) => m.swError s
      | (.ok _, m) => if n ≤ 1 then m else more m [.cells (st + 1) (n - 1)]
    | .card st =>
      match m.sweepTry (swFixCard s 64 st) with
      | (.error _, m) => m.swError s
      | (.ok hit, m) => m.writeCard s st hit
    | .block b marked =>
      match m.sweepTry (swBlock s ((m.slot s).blockStop b) 1024 b) with
      | (.error _, m) => m.swError s
      | (.ok es, m) => more m ((es.filter (fun e => !marked || m.marked s e.1)).map (fun e => Work.cells e.1 e.2))
    | .large q marked =>
      if marked && !m.marked s (q * 0x10000) then m
      else match m.sweepTry (swRead s (q * 0x10000)) with
        | (.error _, m) => m.swError s
        | (.ok h, m) => more m [.cells (q * 0x10000) (toEven (hdrSize h + 1))]
/-- FIXUP_END: EVAC regions and unused to-space become FREE; NEW and the mark bits clear; SPCYC counts; the sweeper is IDLE and
vector 80 is raised. LOGOVF clears where the cycle was full and no entry was lost. -/
def Mach.fixupEnd (m : Mach) : Mach :=
  let sw := m.ch.sw
  let s := sw.slot
  if !m.sweeps || decide (sw.phase ≠ .fixup) || !sw.planned || !sw.work.isEmpty || sw.owesWhole then m
  else
    (m.setRegions s 0#24 ((m.slot s).regions (fun e => entryKind e = kEVAC))).unlessEnded .fixup (fun m =>
      (m.setRegions s 0#24 sw.unusedTo).unlessEnded .fixup (fun m =>
        (m.clearNew s (m.slot s).map).unlessEnded .fixup (fun m =>
          let m := m.clearMarks sw.marks
          let x := m.slot s
          let m := m.setSlot s { x with cycles := x.cycles + 1#24, logovf := x.logovf && !(sw.full && !sw.lost) }
          let m := { m.bumpC 36 with ch.sw := { m.ch.sw with
            phase := .idle, queue := [], spilled := 0, live := [], marks := [], work := [], todo := [], copy := none, toNext := 0,
            toEnd := 0, toBlocks := [], toSpace := [], lost := false, whole := false, planned := false, xlate := none } }
          m.raiseIf (winBit m.ch 0x2000 0) 80 (fixN (s.val + 8 * bnat sw.full)))))
/-- FIXUP_END. -/
def execFixupEnd (c : Chan) (s : State) : Out := .next (s.onMach c Mach.fixupEnd)

/-! ### The turnstile (R328) -/

/-- Whether a root request is outstanding. -/
def Mach.rootsOut (m : Mach) : Bool := threads.any (fun t => (m.thr t).rootReq)
/-- One step of the sweeper in its phase; a log entry is drained where the phase has nothing to do. -/
def Mach.sweepUnit (m : Mach) : Mach :=
  let sw := m.ch.sw
  match sw.phase with
  | .idle => if sw.starting then m.beginRoots else m.logDrain
  | .roots => if m.rootsOut then m.logDrain else m.beginMark
  | .mark => if sw.work.isEmpty && sw.queue.isEmpty && sw.spilled = 0 then m.logDrain else m.markUnit
  | .evacuate => if sw.copy.isSome || !sw.todo.isEmpty || !sw.work.isEmpty then m.copyUnit else m.logDrain
  | .fixup => if m.rootsOut then m.logDrain else if !sw.planned then m.beginFix else if sw.work.isEmpty && !sw.owesWhole then m.logDrain
    else m.fixUnit
  | _ => m.logDrain
/-- Whether the sweeper requests a step. -/
def Mach.sweepAsks (m : Mach) : Bool :=
  let sw := m.ch.sw
  decide (sw.logOcc ≠ 0#11) || (match sw.phase with
    | .idle => sw.starting
    | .roots => !m.rootsOut
    | .mark => !(sw.work.isEmpty && sw.queue.isEmpty && decide (sw.spilled = 0))
    | .evacuate => sw.copy.isSome || !sw.todo.isEmpty || !sw.work.isEmpty
    | .fixup => !m.rootsOut && (!sw.planned || !sw.work.isEmpty || sw.owesWhole)
    | _ => false)
/-- Lines of memory outside the undo area. -/
def Channel.copyMem (ch : Channel) : Nat := (ch.memCells - 0x400000) / 16
/-- Lines a rejoin copies (R421). -/
def Channel.copyLines (ch : Channel) : Nat := ch.copyMem + 4096
/-- The physical line number of the n-th line copied: memory, then near store, in ascending address order. -/
def Channel.copyLine (ch : Channel) (n : Nat) : Nat := if n < ch.copyMem then n else 0x8000000 + (n - ch.copyMem)
/-- Whether the rejoin copy has lines left. -/
def Mach.copying (m : Mach) : Bool :=
  m.ch.pair.role = .joiningActive && !m.ch.pair.ready && decide (m.ch.pair.copied < m.ch.copyLines)
/-- The cells of a line of memory or near store as the unit port reads them. -/
def Mach.portLine (m : Mach) (l : Nat) : Line × Mach :=
  if m.ch.place (l * 16) = .memory then m.turnRead .unitPort l 0#2 false
  else
    let o := l * 16 - 0x80000000
    let one (i : Nat) (m : Mach) : Mach := (m.nearFetch i).2
    (Vector.ofFn (fun p : Fin 16 => (nearRead (m.nearBits (o + p.val))).2), iterN one o 16 m)
/-- One COPY line is read and sent. -/
def Mach.copyLineStep (m : Mach) : Mach :=
  let l := m.ch.copyLine m.ch.pair.copied
  let r := m.portLine l
  let m := r.2.sendMirror (.copy l r.1)
  { m with ch.pair.copied := m.ch.pair.copied + 1 }
/-- One step of the unit port: a performance record, else a COPY line. -/
def Mach.unitStep (m : Mach) : Mach :=
  if !m.ch.perf.queue.isEmpty && !m.ch.perf.stopped then m.tallyWrite
  else if m.copying then m.copyLineStep else m
/-- Whether the oldest write buffer entry of a core asks for a step: one of memory only while its partition of the pool has a free entry
(R367). -/
def Mach.bufferAsks (m : Mach) (k : Fin 2) : Bool :=
  match (m.core k).wb with
  | [] => false
  | e :: _ => decide (e.kind ≠ .memory) || m.ch.mc.free .turnstile
/-- Whether an agent requests a step. The sweeper and a COPY line ask while the pool has room for them; performance records go to near
store (R367). -/
def Mach.asks (m : Mach) : Agent → Bool
  | .core0 => m.bufferAsks 0
  | .core1 => m.bufferAsks 1
  | .sweeper => m.works && m.sweepAsks && m.ch.mc.free .turnstile
  | .unitPort => (!m.ch.perf.queue.isEmpty && !m.ch.perf.stopped) || (m.copying && m.ch.mc.free .turnstile)
/-- The agents in rotation after the one granted last. -/
def Agent.after : Agent → List Agent
  | .core0 => [.core1, .sweeper, .unitPort, .core0]
  | .core1 => [.sweeper, .unitPort, .core0, .core1]
  | .sweeper => [.unitPort, .core0, .core1, .sweeper]
  | .unitPort => [.core0, .core1, .sweeper, .unitPort]
/-- One step of an agent. -/
def Mach.agentStep (m : Mach) : Agent → Mach
  | .core0 => m.drainOne 0
  | .core1 => m.drainOne 1
  | .sweeper => m.sweepUnit
  | .unitPort => m.unitStep
/-- TURNSTILE_GRANT: the next requesting agent in rotation takes one step. -/
def Mach.grant (m : Mach) : Mach :=
  if !m.fastOn || m.heldBack then m
  else match m.ch.proc.granted.after.find? m.asks with
    | none => m
    | some a => ({ m with ch.proc.granted := a }).agentStep a
/-- TURNSTILE_GRANT. -/
def execTurnstileGrant (c : Chan) (s : State) : Out := .next (s.onMach c Mach.grant)

end Sys2Proof.Machine
end

