-- ==== Sys2Proof/Machine/Sleep.lean ====
section
/-! DEFINITION. IDLE, DOZE, SLEEP, wake and pre-wake (R113-R118, R327). The commands name the moments the microsecond bounds give;
the model checks every other condition (log 7). -/
namespace Sys2Proof.Machine

/-- Whether a thread keeps its core clocked: it runs, has an event to enter, or a signal it takes. -/
def Mach.busy (m : Mach) (t : Fin 8) : Bool :=
  let th := m.thr t
  decide (th.status = .running) || th.sync.isSome || (m.signalFor t).isSome
/-- The threads of a core. -/
def threadsOf (k : Fin 2) : List (Fin 8) := if k = 0 then [0, 1, 2, 3] else [4, 5, 6, 7]
/-- IDLE_ENTRY: a core none of whose threads is busy gates its clock; with both gated the channel is in IDLE (R114). -/
def Mach.idleEntry (m : Mach) (k : Fin 2) : Mach :=
  if m.programs && !(threadsOf k).any m.busy then
    let m := { m with ch.life.gated := setBit m.ch.life.gated k.val true }
    if m.ch.life.gated = 3#2 then m.setPower .idle 1#2 else m
  else m
/-- IDLE_ENTRY. -/
def execIdleEntry (c : Chan) (k : Fin 2) (s : State) : Out := .next (s.onMach c (fun m => m.idleEntry k))
/-- A cache that keeps only the ways a test picks, with its prefetch buffer cleared; a fill or prefetch in flight installs nothing
(R327). -/
def Cache.keepWays (c : Cache) (p : Nat → Bool) : Cache :=
  { c with frames := c.frames.filter (fun e => p (e.1 % 4)), buf := [], reqs := c.reqs.map (fun q => { q with dead := true }),
           fill := c.fill.map (fun f => { f with dead := true }) }
/-- The look-aside buffers are emptied: they hold no valid entry on the wake from SLEEP (R31). -/
def Mach.dropLookaside (m : Mach) : Mach :=
  (m.setCore 0 { m.core 0 with tlb := [], utlb := [] }).setCore 1 { m.core 1 with tlb := [], utlb := [] }
/-- The ways powered down on an entry: invalid in all four caches, prefetch buffers and stride slots cleared (R327). -/
def Mach.powerWays (m : Mach) (p : Nat → Bool) : Mach :=
  let one (k : Fin 2) (m : Mach) : Mach :=
    let co := m.core k
    m.setCore k { co with icache := co.icache.keepWays p, dcache := co.dcache.keepWays p }
  (one 1 (one 0 m)).clearStrides
/-- MAXST. -/
def Channel.maxst (ch : Channel) : Nat := bits (winGet ch 0x0400) 0 2
/-- Whether an armed wake timer's deadline lies within n slow-clock periods. -/
def Mach.wakeWithin (m : Mach) (n : Nat) : Bool := m.ch.clk.wake.toList.any (fun w => w.armed && decide (w.cmp.toNat ≤ m.ch.clk.tb.toNat + n))
/-- Whether an armed fast timer expires within 20 µs, which is 20,000 core cycles: its present count is a free value up to the one last
loaded (R115). (DESIGN CHOICE, safe: log 11.) -/
def Mach.fastWithin (m : Mach) : List (Fin 8) → Bool × Mach
  | [] => (false, m)
  | n :: r =>
    let f := m.fastT n
    let c := if f.armed then m.draw (f.loaded.toNat + 1) else (0, m)
    let x := c.2.fastWithin r
    (x.1 || (f.armed && decide (c.1 * 16 ^ f.pre.toNat ≤ 20000)), x.2)
/-- Both populated subchannels enter self-refresh, every row closed (R383). -/
def Mach.enterSelfRefresh (m : Mach) : Mach :=
  { m with ch.mc := { m.ch.mc with selfRef := true, sub := m.ch.mc.sub.map (fun x => x.closeAll m.ch.tRcd) } }
/-- Memory leaves self-refresh: one all-bank refresh of each populated subchannel, and no request is served until the temperature report
has been read (R383). -/
def Mach.leaveSelfRefresh (m : Mach) : Mach :=
  let one (sub : Bool) (m : Mach) : Mach := if m.ch.populated sub then m.doRefresh sub else m
  if m.ch.mc.selfRef then { one true (one false m) with ch.mc.selfRef := false, ch.mc.unread := true } else m
/-- A wake: cores clocked, memory out of self-refresh, the channel in RUN (R117). A pre-wake goes on until its deadline's event is
pending (R118). -/
def Mach.toRun (m : Mach) : Mach :=
  let m := m.bumpIf (decide (m.ch.life.power = .sleep)) 5
  { m.leaveSelfRefresh with ch.life := { m.ch.life with power := .run, gated := 0#2 } }
/-- DOZE_ENTRY (R115, R327, R398): no timer within 20 µs and no pre-wake in progress, which a disarmed timer no longer is (R122); the
write buffers drain first; an event the drain raises abandons the entry. (DEDUCED, unsafe: log 38.) -/
def Mach.dozeEntry (m : Mach) : Mach :=
  let f := m.fastWithin [0, 1, 2, 3, 4, 5, 6, 7]
  let may := decide (m.ch.life.cond = .running) && decide (m.ch.life.power = .idle) && decide (1 ≤ m.ch.maxst) && !m.wakeWithin 1
      && !(m.ch.life.preWake && m.wakeWithin 3)
  let m := if may then f.2 else m
  if may && !f.1 then
    let before := m.ch.proc.pend
    let m := m.drainAll
    if m.ch.proc.pend ≠ before then m.toRun
    else (((m.powerWays (fun w => decide (w = 0))).setPower .doze 2#2).bumpC 3).bumpBy (192 + 63) 2
  else m
/-- DOZE_ENTRY. -/
def execDozeEntry (c : Chan) (s : State) : Out := .next (s.onMach c Mach.dozeEntry)
/-- Whether a channel is a member of a formed pair. -/
def Role.formed : Role → Bool
  | .active => true
  | .standby => true
  | _ => false
/-- The conditions of SLEEP (R116). -/
def Mach.sleepOk (m : Mach) : Bool :=
  decide (m.ch.life.cond = .running) && decide (m.ch.life.power = .doze) && decide (2 ≤ m.ch.maxst)
    && m.ch.clk.fast.toList.all (fun f => !f.armed) && !m.wakeWithin 63 && m.swIdle && m.ch.proc.range.isNone
    && !m.ch.framing && !m.ch.scanning && !m.ch.touch.run && m.ch.panel.i2c.isNone && m.ch.mc.pool.isEmpty && !m.ch.pair.role.formed
/-- SLEEP_ENTRY: records waiting are written, then way 0 is invalid, memory in self-refresh, the PLL stopped, and the look-aside buffers
lose their entries (R31, R116, R327). (DEDUCED, unsafe: log 6.) -/
def Mach.sleepEntry (m : Mach) : Mach :=
  if m.sleepOk then
    let before := m.ch.proc.pend
    let m := m.tallyDrain
    if m.ch.proc.pend ≠ before then m.toRun
    else
      let m := (((m.powerWays (fun _ => false)).dropLookaside.setPower .sleep 3#2).bumpC 4).bumpBy (192 + 63) 2
      m.enterSelfRefresh
  else m
/-- SLEEP_ENTRY. -/
def execSleepEntry (c : Chan) (s : State) : Out := .next (s.onMach c Mach.sleepEntry)
/-- WAKE: a pending event returns the channel to RUN (R117). -/
def Mach.wakeUp (m : Mach) : Mach :=
  if decide (m.ch.life.cond = .running) && decide (m.ch.life.power ≠ .run) && !m.ch.proc.pend.isEmpty then m.toRun else m
/-- WAKE. -/
def execWake (c : Chan) (s : State) : Out := .next (s.onMach c Mach.wakeUp)
/-- PRE_WAKE: three periods before the nearest armed deadline the wake sequence starts; until the event, the channel stays at most
in IDLE (R118). -/
def Mach.preWakeUp (m : Mach) : Mach :=
  if decide (m.ch.life.cond = .running) && decide (m.ch.life.power = .sleep) && m.wakeWithin 3 then
    { (m.bumpC 5).leaveSelfRefresh with ch.life := { m.ch.life with power := .idle, preWake := true } }
  else m
/-- PRE_WAKE. -/
def execPreWake (c : Chan) (s : State) : Out := .next (s.onMach c Mach.preWakeUp)

end Sys2Proof.Machine
end

