-- ==== Sys2Proof/Machine/Checking.lean ====
section
/-! DEFINITION. Lockstep checking (R396-R400, R511). -/
namespace Sys2Proof.Machine

/-- The halt on a divergence or a checker fault with its record (R400, Table 4.5); the cycle counter is a free value. (DESIGN CHOICE, safe: log 11.) -/
def Mach.checkHalt (m : Mach) (cls : BitVec 6) (core : BitVec 1) (mech : BitVec 3) (unit : BitVec 4) : Mach :=
  let r := m.draw (2 ^ 24)
  r.2.halt.report cls false false (core ++ mech ++ unit ++ BitVec.ofNat 24 r.1 : BitVec 32)
/-- Whether a core is clocked and executing. -/
def Mach.clocked (m : Mach) (k : Fin 2) : Bool := m.programs && !bit m.ch.life.gated k.val
/-- The core field of a record. -/
def coreBit (k : Fin 2) : BitVec 1 := BitVec.ofNat 1 k.val
/-- BOUNDARY_DIVERGENCE: mechanism 0. -/
def execBoundaryDivergence (c : Chan) (k : Fin 2) (s : State) : Out :=
  .next (s.onMach c (fun m => if m.clocked k then m.checkHalt 0x08#6 (coreBit k) 0#3 0#4 else m))
/-- REGISTER_SIGNATURE: a comparison; a mismatch is a signature divergence, mechanism 1 (R398). -/
def Mach.signature (m : Mach) (k : Fin 2) (same : Bool) : Mach :=
  if m.clocked k then
    let m := m.bumpC 63
    if same then m else m.checkHalt 0x08#6 (coreBit k) 1#3 0#4
  else m
/-- REGISTER_SIGNATURE. -/
def execRegisterSignature (c : Chan) (k : Fin 2) (same : Bool) (s : State) : Out := .next (s.onMach c (fun m => m.signature k same))
/-- CHECKER_FAULT: mechanism 2, or 3 for the parity of a delay register (R399). -/
def execCheckerFault (c : Chan) (k : Fin 2) (parity : Bool) (s : State) : Out :=
  .next (s.onMach c (fun m => if m.clocked k then m.checkHalt 0x09#6 (coreBit k) (if parity then 3#3 else 2#3) 0#4 else m))
/-- UNIT_COMPARE_MISMATCH: mechanism 4, or 2 for a failed cross check, with the unit code (R511). -/
def execUnitCompareMismatch (c : Chan) (unit : BitVec 4) (crossCheck : Bool) (s : State) : Out :=
  .next (s.onMach c (fun m =>
    if m.ch.life.cond.live && decide (1#4 ≤ unit) && decide (unit ≤ 8#4) then m.checkHalt 0x09#6 0#1 (if crossCheck then 2#3 else 4#3) unit
    else m))

end Sys2Proof.Machine
end

