-- ==== Sys2Proof/Machine/Context.lean ====
section
/-! DEFINITION. Context halves and crates (R279-R287). -/
namespace Sys2Proof.Machine

/-- NIL for an empty list or chain, else the cell itself (R283, R284). -/
def linkCell (v : Cell) : Cell := if cellTag v = tFIX then cNIL else v
/-- Whether a CFREE or CHAIN cell denotes an empty list (R281). -/
def emptyLink (v : Cell) : Bool := isNil v || (cellTag v = tFIX && cellPay v = 0#24)
/-- FRAME as a saved cell: LOC, or NIL for none. -/
def frameCell (f : Option VAddr) : Cell := match f with | some a => loc a | none => cNIL
/-- The 24 cells of the lower half with their resume address (Table 12.1). -/
def Thread.lowerCells (th : Thread) (resume : VAddr) : List Cell :=
  th.regs.toList.take 16 ++
    [reta resume, fix th.pstate, th.spU, th.spS, fix (th.asid.setWidth 24), frameCell th.frame, fixN (bnat th.shlvl), fix0]
/-- A crate: its address and translation for a supervisor access with the rights asked for, W for a save and R for a restore (Table
13.4), and the head cell checked whole (R283, R284). Both write the crate, which marks its page D (R299). -/
def crateAt (p : Cell) (need : Need) : IM (VAddr × Xl) := do
  if cellTag p ≠ tCRATE then faultTY 3
  let a := cellPay p
  let x ← xlateAs true a need false
  modify (fun s => { s with used := s.used.map (fun u => (u.1, true, u.2.2)) })
  if bits a 0 5 ≠ 0 then faultTY 3
  let h ← readCell x
  if h ≠ crateHdr then faultTY 3
  return (a, x)
/-- Cell i of a translated crate. -/
def crateCell (x : Xl) (i : Nat) : IM Cell := readCell { x with phys := x.phys + i }
/-- Barrier writes of whole cells from cell i of a crate up. -/
def crateWrite (a : VAddr) (x : Xl) : Nat → List Cell → IM Unit
  | _, [] => return ()
  | i, v :: r => do
    barrierStore (a + BitVec.ofNat 24 i) { x with phys := x.phys + i } v false false
    crateWrite a x (i + 1) r
/-- Every store of the thread takes its place before an indivisible step (R330). -/
def drainMine : IM Unit := do
  let t ← me
  modM (fun m => m.drainThread t)
/-- Write CHAIN. -/
def setChain (v : Cell) : IM Unit := modT (fun th => { th with chain := v })
/-- Save a half (R283 steps 2 and 4): crate checks, then `fillFirst`, COMMIT, unlink, and the crate's cells. -/
def saveHalf (half : Nat) (cells : Thread → List Cell) (fillFirst : IM Unit) : IM Flow := do
  let t ← me
  let cfree := (← getM).ch.proc.cfree
  if emptyLink cfree then fault 14#10 fix0
  let c ← crateAt cfree needW
  let next ← crateCell c.2 1
  let used := (← get).used
  modify (fun s => { s with used := [] })
  fillFirst
  modify (fun s => { s with used := used })
  commit
  drainMine
  modM (fun m => { m with ch.proc.cfree := next })
  let th ← getT
  crateWrite c.1 c.2 3 (cells th)
  crateWrite c.1 c.2 1 [linkCell th.chain, fixN (8 * half + t.val)]
  setChain (mkCell tCRATE 0#2 c.1)
  return .next
/-- The illegal instruction fault of the four instructions while the shadow bank is in use. -/
def noShadow : IM Unit := do if (← getT).shb then faultIL
/-- SAVEL. -/
def execSavel (c : Chan) (t : Fin 8) (imm : BitVec 11) (s : State) : Out :=
  .next (s.issue c t (iL 0xB0 imm).asSup (do
    noShadow
    if imm = 0#11 then faultOR 4
    saveHalf 0 (fun th => th.lowerCells (th.pc + imm.setWidth 24)) (do
      if (← getT).lz then tryCatch fillUpper (fun _ => throw .lockup))))
/-- SAVEU. -/
def execSaveu (c : Chan) (t : Fin 8) (s : State) : Out :=
  .next (s.issue c t (iN 0xB1).asSup.touching (do
    noShadow
    saveHalf 1 Thread.upperCells (return ())))
/-- The crate at the head of the chain of the wanted half. (DEDUCED, unsafe: log 28.) -/
def chainCrate (half : Bool) : IM (VAddr × Xl) := do
  let c ← crateAt (← getT).chain needR
  let info ← crateCell c.2 2
  if cellTag info ≠ tFIX || bit (cellPay info) 3 ≠ half then faultTY 3
  return c
/-- Saved cells of a crate from saved cell i up, each a barrier load, with the heals to post. -/
def savedCells (a : VAddr) (x : Xl) : Nat → Nat → IM (List (Cell × Healing))
  | _, 0 => return []
  | i, n + 1 => do
    let v ← crateCell x (3 + i)
    let b ← loadBarrier (a + BitVec.ofNat 24 (3 + i)) (x.phys + 3 + i) v
    return b :: (← savedCells a x (i + 1) n)
/-- Post the heals of several barrier loads. -/
def postHeals : List (Cell × Healing) → IM Unit
  | [] => return ()
  | (_, h) :: r => do
    postHeal h
    postHeals r
/-- Pop the chain, clear the crate and return it to the free list (R284 step 4). -/
def popCrate (a : VAddr) (x : Xl) : IM Unit := do
  let link ← crateCell x 1
  crateWrite a x 2 (List.replicate 25 fix0)
  drainMine
  let cfree := (← getM).ch.proc.cfree
  crateWrite a x 1 [linkCell cfree]
  drainMine
  modM (fun m => { m with ch.proc.cfree := mkCell tCRATE 0#2 a })
  setChain link
/-- Registers from a list, from register `lo` up. -/
def loadRegs (v : Vector Cell 32) (lo : Nat) : List Cell → Vector Cell 32
  | [] => v
  | c :: r => loadRegs (v.set (Fin.ofNat 32 lo) c) (lo + 1) r
/-- A control cell of LOADL: PSN is the poison fault, a failed check the type fault. (DEDUCED, unsafe: log 25.) -/
def control (v : Cell) (ok : Bool) : IM Unit := do
  if cellTag v = tPSN then faultPO 3
  if !ok then faultTY 3
/-- Cell i of a list of delivered cells. -/
def cellAt (l : List (Cell × Healing)) (i : Nat) : Cell := (l.getD i (fix0, none)).1
/-- Whether a PSTATE cell may be restored by LOADL (R284). -/
def pstateOk (v : Cell) : Bool :=
  cellTag v = tFIX && bit (cellPay v) 0 && !bit (cellPay v) 2 && !bit (cellPay v) 3 && bits (cellPay v) 5 19 = 0
/-- LOADL. -/
def execLoadl (c : Chan) (t : Fin 8) (s : State) : Out :=
  .next (s.issue c t (iN 0xB2).asSup (do
    noShadow
    let k ← chainCrate false
    let v ← savedCells k.1 k.2 0 24
    let lz := (← getT).lz
    control (cellAt v 16) (cellTag (cellAt v 16) = tRETA)
    control (cellAt v 17) (pstateOk (cellAt v 17))
    control (cellAt v 18) (cellTag (cellAt v 18) = tLOC || (cellTag (cellAt v 18) = tFIX && cellPay (cellAt v 18) = 0#24))
    control (cellAt v 19) (cellTag (cellAt v 19) = tLOC)
    control (cellAt v 20) (cellTag (cellAt v 20) = tFIX && cellPay (cellAt v 20) ≤ 255#24)
    control (cellAt v 21) (cellTag (cellAt v 21) = tLOC || isNil (cellAt v 21))
    control (cellAt v 22) (cellTag (cellAt v 22) = tFIX && cellPay (cellAt v 22) = 0#24)
    commit
    postHeals v
    popCrate k.1 k.2
    modT (fun th => { th with
      regs := loadRegs th.regs 0 ((v.take 16).map (fun e => e.1)), pstate := cellPay (cellAt v 17),
      spU := cellAt v 18, spS := cellAt v 19, asid := (cellPay (cellAt v 20)).setWidth 8,
      frame := if isNil (cellAt v 21) then none else some (cellPay (cellAt v 21)), shlvl := false, hold := none })
    return if lz then .land (cellPay (cellAt v 16)) else .jump (cellPay (cellAt v 16))))
/-- LOADU. -/
def execLoadu (c : Chan) (t : Fin 8) (s : State) : Out :=
  .next (s.issue c t (iN 0xB3).asSup.touching (do
    noShadow
    let k ← chainCrate true
    let v ← savedCells k.1 k.2 0 24
    commit
    postHeals v
    popCrate k.1 k.2
    modT (fun th => { th with
      regs := loadRegs th.regs 16 ((v.take 16).map (fun e => e.1)),
      acc := accOf (cellPay (cellAt v 16)) (cellPay (cellAt v 17)) (cellPay (cellAt v 18)),
      loopC := cellPay (cellAt v 19), loopS := cellPay (cellAt v 20), loopE := cellPay (cellAt v 21) })
    return .next))

end Sys2Proof.Machine
end

