-- ==== Sys2Proof/Machine/Control.lean ====
section
/-! DEFINITION. Control transfer, hardware loops, signals, threads, and the special registers (R186-R190, R206-R213). -/
namespace Sys2Proof.Machine

/-! ### Transfers (Table 8.10) -/

/-- J. -/
def execJ (c : Chan) (t : Fin 8) (off : BitVec 16) (s : State) : Out :=
  .next (s.issue c t (iJ 0x30 off) (do commit; return .jump ((← getT).pc + off.signExtend 24)))
/-- CALL. -/
def execCall (c : Chan) (t : Fin 8) (off : BitVec 16) (s : State) : Out :=
  .next (s.issue c t (iJ 0x31 off) (do
    commit
    let pc := (← getT).pc
    setD 15 (reta (pc + 1#24))
    return .jump (pc + off.signExtend 24)))
/-- The work of BT and BF: branch when NIL-ness of d differs from `onNil`'s complement. -/
def wBranch (d : Reg) (off : BitVec 11) (onNil : Bool) : IM Flow := do
  let v ← operand 2 d anyTag
  commit
  if isNil v = onNil then return .jump ((← getT).pc + off.signExtend 24) else return .next
/-- BT. -/
def execBt (c : Chan) (t : Fin 8) (d : Reg) (off : BitVec 11) (s : State) : Out :=
  .next (s.issue c t (iSL 0x32 d off) (wBranch d off false))
/-- BF. -/
def execBf (c : Chan) (t : Fin 8) (d : Reg) (off : BitVec 11) (s : State) : Out :=
  .next (s.issue c t (iSL 0x33 d off) (wBranch d off true))
/-- JMPR. -/
def execJmpr (c : Chan) (t : Fin 8) (a : Reg) (s : State) : Out :=
  .next (s.issue c t (iA 0x34 a) (do
    let p ← operand 0 a (fun g => g = tCODE)
    let e ← codeEntry p
    commit
    return .jump e))
/-- CALLR: through a CLO, cell 1 of the closure is entered and c14 receives the closure; d is written last. (DEDUCED, unsafe: log 26.) -/
def execCallr (c : Chan) (t : Fin 8) (d a : Reg) (s : State) : Out :=
  .next (s.issue c t (iDA 0x35 d a) (do
    let p ← operand 0 a (fun g => g = tCODE || g = tCLO)
    let ret := reta ((← getT).pc + 1#24)
    if cellTag p = tCODE then
      let e ← codeEntry p
      commit
      setD d ret
      return .jump e
    else
      let h ← headerOf p
      if hdrSize h < 1 then faultTY 3
      let r ← readAt (cellPay p + 1#24) needR
      checkLoaded r.1
      if cellTag r.1 ≠ tCODE then faultTY 3
      let e ← codeEntry r.1
      commit
      setD 14 p
      setD d ret
      return .jump e))
/-- RET. -/
def execRet (c : Chan) (t : Fin 8) (a : Reg) (s : State) : Out :=
  .next (s.issue c t (iA 0x36 a) (do
    let p ← operand 0 a (fun g => g = tRETA)
    commit
    return .jump (cellPay p)))
/-- LOOP (R207). (DEDUCED, unsafe: log 29.) -/
def execLoop (c : Chan) (t : Fin 8) (d : Reg) (off : BitVec 11) (s : State) : Out :=
  .next (s.issue c t (iSL 0x37 d off).touching (do
    let v ← operand 2 d fixTag
    if fixInt (cellPay v) < 0 then faultOR 2
    if off = 0#11 then faultOR 4
    commit
    let pc := (← getT).pc
    let e := pc + off.setWidth 24
    modT (fun th => { th with loopC := cellPay v, loopS := pc + 1#24, loopE := e })
    if cellPay v = 0#24 then return .jump (e + 1#24) else return .next))

/-! ### Signals, mode and threads (R211-R213) -/

/-- SIG. -/
def execSig (c : Chan) (t : Fin 8) (a : Reg) (s : State) : Out :=
  .next (s.issue c t (iA 0x39 a) (do
    let v ← operand 0 a fixTag
    let n := fixInt (cellPay v)
    if n < 768 || n > 1023 then faultOR 0
    commit
    modM (fun m => m.raise n.toNat fix0)
    return .next))
/-- SVC: completes and traps with imm11. -/
def execSvc (c : Chan) (t : Fin 8) (imm : BitVec 11) (s : State) : Out :=
  .next (s.issue c t (iL 0x3A imm) (do commit; throw (.trap 27#10 (fix (imm.setWidth 24)))))
/-- UENTER. -/
def execUenter (c : Chan) (t : Fin 8) (a : Reg) (s : State) : Out :=
  .next (s.issue c t (iA 0x3C a).asSup (do
    let p ← operand 0 a (fun g => g = tCODE || g = tRETA)
    let e ← if cellTag p = tRETA then pure (cellPay p) else codeEntry p
    commit
    modT (fun th => { th with pstate := setBit th.pstate 0 false })
    return .enter e))
/-- The state a started thread begins with (R212): TE and ASID of the starter, SP_S, PC; every other register FIX 0. (DEDUCED, unsafe: log 28.) -/
def Thread.start (old starter : Thread) (sp : Cell) (entry : VAddr) : Thread :=
  { old with
    regs := Vector.replicate 32 fix0, bank := Vector.replicate 16 fix0, acc := 0#56, loopC := 0#24, loopS := 0#24, loopE := 0#24,
    pc := entry, pstate := setBit 1#24 1 starter.te, spU := fix0, spS := sp, chain := fix0, asid := starter.asid,
    frame := none, shlvl := false, shRet := 0#24, shPst := 0#24, shFrame := none, shOpened := false,
    status := .running, hold := none, inShadow := false, sync := none, rootReq := false, rootPend := false }
/-- A thread number as a thread. -/
def thOf (n : Nat) : Fin 8 := ⟨n % 8, Nat.mod_lt _ (by decide)⟩
/-- TSTART; a started thread's core is clocked (R114). -/
def execTstart (c : Chan) (t : Fin 8) (d a b : Reg) (s : State) : Out :=
  .next (s.issue c t (iSAB 0x3D d a b).asSup (do
    let n ← operand 0 a fixTag
    let p ← operand 1 b (fun g => g = tCODE)
    let sp ← operand 2 d (fun g => g = tLOC)
    let k := fixInt (cellPay n)
    if k < 1 || k > 7 then faultOR 0
    let j := thOf k.toNat
    if ((← getM).thr j).status ≠ .stopped then faultOR 0
    let e ← codeEntry p
    commit
    let me ← getT
    modM (fun m => { m with ch.life.gated := setBit m.ch.life.gated (coreOf j).val false }.setThr j
      ((m.thr j).start me (withCdr sp 0#2) e))
    return .next))
/-- THALT: stops the thread once its stores have taken their places; its root request counts as served (R349). -/
def execThalt (c : Chan) (t : Fin 8) (s : State) : Out :=
  .next (s.issue c t (iN 0x3E).asSup (do
    if t = 0 then faultIL
    commit
    modM (fun m => m.drainThread t)
    modT (fun th => { th with status := .stopped, rootReq := false, rootPend := false })
    return .next))

/-! ### Special registers (Tables 8.1, 8.2) -/

/-- DEVID (R189). -/
def devid (c : Chan) : Payload :=
  (0x424#12 ++ (if Config.keyFused then 1#4 else 0#4) ++ Config.stepping ++ BitVec.ofNat 2 c.val : BitVec 24)
/-- CSTAT (Table 14.2). -/
def Channel.cstat (ch : Channel) : Payload :=
  (0#8 ++ BitVec.ofNat 4 (ch.core[1]).wb.length ++ BitVec.ofNat 4 (ch.core[0]).wb.length ++ 0#4
    ++ BitVec.ofBool ch.proc.range.isSome ++ BitVec.ofBool ch.proc.invd ++ BitVec.ofBool ch.proc.dcen
    ++ BitVec.ofBool ch.proc.icen : BitVec 24)
/-- Whether MFS and MTS know a register number: assigned, supervisor-only to read, writable, supervisor-only to write, touching
the upper half. -/
structure SReg where
  readSup : Bool
  writable : Bool
  writeSup : Bool
  upper : Bool
  deriving DecidableEq, Repr
/-- The special registers (Tables 8.1 and 8.2). -/
def sreg (n : Nat) : Option SReg :=
  if n = 0x00 then some ⟨true, false, true, false⟩
  else if n = 0x01 || n = 0x02 then some ⟨false, true, false, false⟩
  else if n = 0x03 || n = 0x04 then some ⟨true, true, true, false⟩
  else if n = 0x05 then some ⟨false, false, true, false⟩
  else if n = 0x06 then some ⟨false, true, true, false⟩
  else if n = 0x08 || n = 0x09 || n = 0x0A || n = 0x0C then some ⟨false, true, false, true⟩
  else if n = 0x0D || n = 0x0E then some ⟨false, true, true, true⟩
  else if n = 0x20 || n = 0x21 || n = 0x22 || n = 0x23 || n = 0x24 || n = 0x26 || n = 0x27 then some ⟨true, true, true, false⟩
  else if n = 0x25 || n = 0x28 then some ⟨true, false, true, false⟩
  else if n = 0x29 then some ⟨false, false, true, false⟩
  else none
/-- What MFS delivers for a register number. -/
def Mach.sregRead (m : Mach) (t : Fin 8) (n : Nat) : Cell :=
  let th := m.thr t
  let p := m.ch.proc
  if n = 0x00 then fix th.pc
  else if n = 0x01 then fix th.pstate
  else if n = 0x02 then th.spU
  else if n = 0x03 then th.spS
  else if n = 0x04 then th.chain
  else if n = 0x05 then fixN t.val
  else if n = 0x06 then fix (th.asid.setWidth 24)
  else if n = 0x08 then fix (accH th.acc)
  else if n = 0x09 then fix (accM th.acc)
  else if n = 0x0A then fix (accL th.acc)
  else if n = 0x0C then fix th.loopC
  else if n = 0x0D then fix th.loopS
  else if n = 0x0E then fix th.loopE
  else if n = 0x20 then fix p.vbase
  else if n = 0x21 then p.cfree
  else if n = 0x22 then fix p.ptbase
  else if n = 0x23 then fix p.hatbase
  else if n = 0x24 then fix p.hatsize
  else if n = 0x25 then fix m.ch.cstat
  else if n = 0x26 then fix p.regmap
  else if n = 0x27 then fix p.nearbase
  else if n = 0x28 then fix p.ucver
  else fix (devid m.c)
/-- The register number of an MFS or MTS (R188). -/
def sregNum (imm : BitVec 11) : Nat := imm.toNat
/-- MFS. -/
def execMfs (c : Chan) (t : Fin 8) (d : Reg) (imm : BitVec 11) (s : State) : Out :=
  let n := sregNum imm
  .next (s.issue c t { iDL 0x40 d imm with touch := match sreg n with | some r => r.upper | none => false } (do
    match sreg n with
    | none => faultIL
    | some r =>
      if r.readSup && !(← getT).sup then fault 2#10 fix0
      commit
      let v := (← getM).sregRead t n
      setD d v
      return .next))

/-- The attribute cells of the vector table at physical base B, from slot v on, n of them; none where one is not acceptable (R261). -/
def Mach.readAttrs (m : Mach) (k : Fin 2) (b v : Nat) : Nat → Option (NMap Payload) × Mach
  | 0 => (some [], m)
  | n + 1 =>
    let a := b + 2 * v + 1
    let r := m.tableRead k a
    let p := cellPay r.1
    if cellTag r.1 = tFIX && !bit p 20 && bits p 0 8 = 0 && !(8 ≤ attrThread p && attrThread p ≤ 14) then
      match r.2.readAttrs k b (v + 1) n with
      | (some at_, m) => (some (if p = 0#24 then at_ else (v, p) :: at_), m)
      | (none, m) => (none, m)
    else (none, r.2)
/-- Whether the vector table of a VBASE payload lies wholly in memory or wholly in near store (R261). -/
def Channel.vbaseOk (ch : Channel) (p : Payload) : Bool :=
  let b := bits p 0 22 * 1024
  bits p 22 2 = 0 && ((b + 2048 ≤ ch.memCells) || (0x80000000 ≤ b && b + 2048 ≤ 0x80010000))
/-- The check and load of a new vector table: the attribute store, or nothing where the MTS faults. -/
def Mach.loadVbase (m : Mach) (k : Fin 2) (p : Payload) : Bool × Mach :=
  if m.ch.vbaseOk p then
    match m.readAttrs k (bits p 0 22 * 1024) 0 1024 with
    | (some at_, m) => (true, { m with ch.proc := { m.ch.proc with vbase := p, attr := at_ } })
    | (none, m) => (false, m)
  else (false, m)
/-- The sweeper discards its translation (R290). -/
def Mach.swForget (m : Mach) : Mach := { m with ch.sw.xlate := none }
/-- Whether MTS accepts a source tag for a register. -/
def mtsTag (n : Nat) (v : Cell) : Bool :=
  if n = 0x02 || n = 0x03 then cellTag v = tLOC
  else if n = 0x04 || n = 0x21 then cellTag v = tCRATE || isNil v || cellTag v = tFIX
  else cellTag v = tFIX
/-- Whether MTS permits a value of an accepted tag for a register other than VBASE (R188). (DEDUCED, unsafe: log 23.) -/
def mtsValue (n : Nat) (v : Cell) : Bool :=
  let p := cellPay v
  if n = 0x04 || n = 0x21 then !(cellTag v = tFIX) || p = 0#24
  else if n = 0x06 then p ≤ 255#24
  else if n = 0x0C then decide (0 ≤ fixInt p)
  else if n = 0x23 || n = 0x26 then bits p 22 2 = 0
  else if n = 0x24 then p = 0#24 || (10#24 ≤ p && p ≤ 22#24)
  else if n = 0x27 then bits p 0 10 = 0 && p ≤ 0xF400#24
  else true
/-- The write of a special register other than VBASE. (DEDUCED, unsafe: log 28.) -/
def Mach.sregWrite (m : Mach) (t : Fin 8) (n : Nat) (v : Cell) : Mach :=
  let th := m.thr t
  let p := cellPay v
  let w := withCdr v 0#2
  if n = 0x01 then
    let st := setBit th.pstate 4 (bit p 4)
    m.setThr t { th with pstate := if th.sup then setBit st 1 (bit p 1) else st }
  else if n = 0x02 then m.setThr t { th with spU := w }
  else if n = 0x03 then m.setThr t { th with spS := w }
  else if n = 0x04 then m.setThr t { th with chain := w }
  else if n = 0x06 then m.setThr t { th with asid := p.setWidth 8 }
  else if n = 0x08 then m.setThr t { th with acc := accOf p (accM th.acc) (accL th.acc) }
  else if n = 0x09 then m.setThr t { th with acc := accOf (accH th.acc) p (accL th.acc) }
  else if n = 0x0A then m.setThr t { th with acc := accOf (accH th.acc) (accM th.acc) p }
  else if n = 0x0C then m.setThr t { th with loopC := p }
  else if n = 0x0D then m.setThr t { th with loopS := p }
  else if n = 0x0E then m.setThr t { th with loopE := p }
  else if n = 0x21 then { m with ch.proc.cfree := w }
  else if n = 0x22 then { m with ch.proc.ptbase := setField p 22 2 0 }.swForget
  else if n = 0x23 then { m with ch.proc.hatbase := p }.swForget
  else if n = 0x24 then { m with ch.proc.hatsize := p }.swForget
  else if n = 0x26 then { m with ch.proc.regmap := p }
  else if n = 0x27 then { m with ch.proc.nearbase := p }
  else m
/-- The work of MTS: register checks, source checks, value checks, write (R188). -/
def wMts (t : Fin 8) (d : Reg) (n : Nat) : IM Flow := do
  match sreg n with
  | none => faultIL
  | some r =>
    if !r.writable then faultIL
    if r.writeSup && !(← getT).sup then fault 2#10 fix0
    let v := (← getT).reg d
    if cellTag v = tPSN then faultPO 2
    if isReserved v then throw (.reserved v 2)
    if !mtsTag n v then faultTY 2
    if n = 0x20 then
      let ok ← useM (fun m => m.loadVbase (coreOf t) (cellPay v))
      if !ok then faultOR 2
      commit
      return .next
    else
      if !mtsValue n v then faultOR 2
      commit
      modM (fun m => m.sregWrite t n v)
      return .next
/-- MTS. -/
def execMts (c : Chan) (t : Fin 8) (d : Reg) (imm : BitVec 11) (s : State) : Out :=
  let n := sregNum imm
  .next (s.issue c t { iSL 0x41 d imm with touch := match sreg n with | some r => r.upper | none => false } (wMts t d n))
/-- MTS of VBASE: the new table is checked and its attribute store loaded (R261, R262). -/
def execMtsVbase (c : Chan) (t : Fin 8) (d : Reg) (s : State) : Out :=
  .next (s.issue c t (iSL 0x41 d 0x20#11) (wMts t d 0x20))

end Sys2Proof.Machine
end

