-- ==== Sys2Proof/Machine/Floats.lean ====
section
/-! DEFINITION. Short floats and binary32: exact values, rounding to nearest even, arithmetic and comparison (R163, R164, R219). -/
namespace Sys2Proof.Machine

/-- A float value: the finite ones as (-1)^neg · num / den · 2^e with num and den positive. -/
inductive Fl where
  | nan
  | inf (neg : Bool)
  | zero (neg : Bool)
  | fin (neg : Bool) (num den : Nat) (e : Int)
  deriving DecidableEq, Repr

/-- Round num / den · 2^e to p significant bits, ties to even, the exponent range unbounded: (m, e') with 2^(p-1) ≤ m < 2^p. -/
def roundBits (p num den : Nat) (e : Int) : Nat × Int :=
  let s0 : Int := (p : Int) + (Nat.log2 den : Int) - (Nat.log2 num : Int)
  let scale (s : Int) : Nat × Nat := if 0 ≤ s then (num * 2 ^ s.toNat, den) else (num, den * 2 ^ (-s).toNat)
  let sc (s : Int) : Nat := (scale s).1 / (scale s).2
  let s := if sc s0 < 2 ^ p then s0 else if sc (s0 - 1) < 2 ^ p then s0 - 1 else s0 - 2
  let n := (scale s).1
  let d := (scale s).2
  let q := n / d
  let r := n % d
  let q := if 2 * r > d || (2 * r = d && q % 2 = 1) then q + 1 else q
  if q = 2 ^ p then (2 ^ (p - 1), e - s + 1) else (q, e - s)

/-- The value of an SFLT payload (R163). -/
def sfltVal (p : Payload) : Fl :=
  let s := bit p 23
  let e := bits p 16 7
  let f := bits p 0 16
  if e = 0 then .zero s
  else if e = 127 then (if f = 0 then .inf s else .nan)
  else .fin s (65536 + f) 1 ((e : Int) - 63 - 16)
/-- The SFLT payload of sign, exponent and fraction. -/
def mkSflt (s : Bool) (e f : Nat) : Payload := (BitVec.ofBool s ++ BitVec.ofNat 7 e ++ BitVec.ofNat 16 f : BitVec 24)
/-- The canonical SFLT NaN (R164). -/
abbrev sfltNaN : Payload := 0x7F8000#24
/-- The SFLT payload of a value, rounded in two stages (R164). -/
def toSflt : Fl → Payload
  | .nan => sfltNaN
  | .inf s => mkSflt s 127 0
  | .zero s => mkSflt s 0 0
  | .fin s n d e =>
    let r := roundBits 17 n d e
    let x := r.2 + 16
    if x < -62 then mkSflt s 0 0 else if x > 63 then mkSflt s 127 0 else mkSflt s (x + 63).toNat (r.1 - 65536)
/-- The value of a binary32 word, a subnormal taken as zero of its sign (R219). -/
def f32Val (w : BitVec 32) : Fl :=
  let s := bit w 31
  let e := bits w 23 8
  let f := bits w 0 23
  if e = 0 then .zero s
  else if e = 255 then (if f = 0 then .inf s else .nan)
  else .fin s (8388608 + f) 1 ((e : Int) - 127 - 23)
/-- The binary32 word of sign, exponent and fraction. -/
def mkF32 (s : Bool) (e f : Nat) : BitVec 32 := (BitVec.ofBool s ++ BitVec.ofNat 8 e ++ BitVec.ofNat 23 f : BitVec 32)
/-- The canonical binary32 NaN (R219). -/
abbrev f32NaN : BitVec 32 := 0x7FC00000#32
/-- The binary32 word of a value, rounded in two stages (R219). -/
def toF32 : Fl → BitVec 32
  | .nan => f32NaN
  | .inf s => mkF32 s 255 0
  | .zero s => mkF32 s 0 0
  | .fin s n d e =>
    let r := roundBits 24 n d e
    let x := r.2 + 23
    if x < -126 then mkF32 s 0 0 else if x > 127 then mkF32 s 255 0 else mkF32 s (x + 127).toNat (r.1 - 8388608)
/-- The value of an integer. -/
def intVal (i : Int) : Fl := if i = 0 then .zero false else .fin (decide (i < 0)) i.natAbs 1 0
/-- The opposite value. -/
def Fl.neg : Fl → Fl
  | .nan => .nan
  | .inf s => .inf (!s)
  | .zero s => .zero (!s)
  | .fin s n d e => .fin (!s) n d e
/-- The scaled integer of a decoded finite value (den 1) at exponent e0 ≤ e. -/
def scaled (s : Bool) (n : Nat) (e e0 : Int) : Int := (if s then -1 else 1) * (n * 2 ^ (e - e0).toNat : Nat)
/-- The exact sum of two decoded values; an exact zero sum of opposite values is +0. -/
def Fl.add : Fl → Fl → Fl
  | .nan, _ => .nan
  | _, .nan => .nan
  | .inf s, .inf t => if s = t then .inf s else .nan
  | .inf s, _ => .inf s
  | _, .inf t => .inf t
  | .zero s, .zero t => .zero (s && t)
  | .zero _, y => y
  | x, .zero _ => x
  | .fin s n _ e, .fin t k _ f =>
    let e0 := min e f
    let v := scaled s n e e0 + scaled t k f e0
    if v = 0 then .zero false else .fin (decide (v < 0)) v.natAbs 1 e0
/-- The exact product of two decoded values. -/
def Fl.mul : Fl → Fl → Fl
  | .nan, _ => .nan
  | _, .nan => .nan
  | .inf _, .zero _ => .nan
  | .zero _, .inf _ => .nan
  | .inf s, .inf t => .inf (s != t)
  | .inf s, .fin t _ _ _ => .inf (s != t)
  | .fin s _ _ _, .inf t => .inf (s != t)
  | .zero s, .zero t => .zero (s != t)
  | .zero s, .fin t _ _ _ => .zero (s != t)
  | .fin s _ _ _, .zero t => .zero (s != t)
  | .fin s n _ e, .fin t k _ f => .fin (s != t) (n * k) 1 (e + f)
/-- The exact quotient of two decoded values (R221). -/
def Fl.div : Fl → Fl → Fl
  | .nan, _ => .nan
  | _, .nan => .nan
  | .inf _, .inf _ => .nan
  | .zero _, .zero _ => .nan
  | .inf s, .zero t => .inf (s != t)
  | .inf s, .fin t _ _ _ => .inf (s != t)
  | .fin s _ _ _, .inf t => .zero (s != t)
  | .zero s, .inf t => .zero (s != t)
  | .zero s, .fin t _ _ _ => .zero (s != t)
  | .fin s _ _ _, .zero t => .inf (s != t)
  | .fin s n _ e, .fin t k _ f => .fin (s != t) n k (e - f)
/-- A comparison number of a decoded value other than NaN at exponent e0, with infinities beyond every finite one. -/
def Fl.key (e0 : Int) : Fl → Int
  | .nan => 0
  | .inf s => (if s then -1 else 1) * 2 ^ 600
  | .zero _ => 0
  | .fin s n _ e => scaled s n e e0
/-- Whether a value is NaN. -/
def Fl.isNan : Fl → Bool
  | .nan => true
  | _ => false
/-- x = y for decoded values; false where either is NaN. -/
def Fl.eq (x y : Fl) : Bool := !x.isNan && !y.isNan && decide (x.key (-200) = y.key (-200))
/-- x < y for decoded values; false where either is NaN. -/
def Fl.lt (x y : Fl) : Bool := !x.isNan && !y.isNan && decide (x.key (-200) < y.key (-200))
/-- The integer nearest toward zero (R224); nothing for NaN and infinity. -/
def Fl.trunc : Fl → Option Int
  | .nan => none
  | .inf _ => none
  | .zero _ => some 0
  | .fin s n d e =>
    let q : Nat := if 0 ≤ e then n * 2 ^ e.toNat / d else n / (d * 2 ^ (-e).toNat)
    some (if s then -(q : Int) else q)

end Sys2Proof.Machine
end

