-- ==== Sys2Proof/Machine/Generic.lean ====
section
/-! DEFINITION. Generic arithmetic and short-float instructions (R215-R226). -/
namespace Sys2Proof.Machine

/-- A numeric operand. -/
inductive Num where
  | int (i : Int)
  | sf (p : Payload)
  | f32 (w : BitVec 32)
  deriving DecidableEq, Repr
/-- Whether a class is one generic dispatch accepts (R215). -/
def genClass (n : Nat) : Bool := n = 0 || n = 1 || n = 5 || n = 10 || n = 12
/-- PSN and reserved cell of a generic operand. -/
def genCheck (code : Nat) (v : Cell) : IM Unit := do
  if cellTag v = tPSN then faultPO code
  if isReserved v then throw (.reserved v code)
/-- Generic dispatch on two operand cells (R215, R248): faults, or the extension trap. -/
def genDispatch (x y : Cell) : IM Unit := do
  genCheck 0 x
  genCheck 1 y
  if !genClass (tagClass x) then faultTY 0
  if !genClass (tagClass y) then faultTY 1
  if tagClass x = 5 || tagClass x = 12 || tagClass y = 5 || tagClass y = 12 then throw (.trap 25#10 fix0)
/-- A body cell of a box. -/
def boxBody (p : Cell) (k : Nat) : IM Payload := do
  let r ← readAt (cellPay p + BitVec.ofNat 24 k) needR
  checkLoaded r.1
  return cellPay r.1
/-- The value of a numeric operand; a BOX is read from its object (R172, R215). -/
def numVal (v : Cell) : IM Num := do
  if cellTag v = tFIX then return .int (fixInt (cellPay v))
  else if cellTag v = tSFLT then return .sf (cellPay v)
  else
    let h ← headerOf v
    let hi ← boxBody v 1
    let lo ← boxBody v 2
    if hdrKind h = 5#4 then return .int (BitVec.toInt (hi ++ lo : BitVec 48))
    else return .f32 (hi ++ lo.setWidth 8 : BitVec 32)
/-- An operand in short-float arithmetic: an integer is rounded first (R219). -/
def Num.asS : Num → Fl
  | .int i => sfltVal (toSflt (intVal i))
  | .sf p => sfltVal p
  | .f32 w => f32Val w
/-- An operand in binary32 arithmetic (R219). -/
def Num.asF : Num → Fl
  | .int i => f32Val (toF32 (intVal i))
  | .sf p => f32Val (toF32 (sfltVal p))
  | .f32 w => f32Val w
/-- Whether either operand is FLT32. -/
def anyF32 : Num → Num → Bool
  | .f32 _, _ => true
  | _, .f32 _ => true
  | _, _ => false
/-- Deliver an SFLT. -/
def deliverS (d : Reg) (f : Fl) : IM Flow := do
  commit
  setD d (mkCell tSFLT 0#2 (toSflt f))
  return .next
/-- Deliver a new FLT32 box. -/
def deliverF (d : Reg) (f : Fl) : IM Flow := do
  let w := toF32 f
  let a ← allocObject (boxCells 6#4 (w.extractLsb' 8 24) ((w.extractLsb' 0 8).setWidth 24))
  let t ← me
  modM (fun m => m.bumpT t 37)
  setD d (mkCell tBOX 0#2 a)
  return .next
/-- The work of ADD, SUB and MUL on operand cells (Table 9.2). -/
def wArith (d : Reg) (x y : Cell) (fi : Int → Int → Int) (ff : Fl → Fl → Fl) : IM Flow := do
  genDispatch x y
  let u ← numVal x
  let v ← numVal y
  match u, v with
  | .int i, .int j => deliverInt d (fi i j)
  | u, v => if anyF32 u v then deliverF d (ff u.asF v.asF) else deliverS d (ff u.asS v.asS)
/-- The subtraction of floats. -/
def Fl.sub (x y : Fl) : Fl := x.add y.neg
/-- A register cell. -/
def regCell (r : Reg) : IM Cell := do return (← getT).reg r
/-- ADD. -/
def execAdd (c : Chan) (t : Fin 8) (d a b : Reg) (s : State) : Out :=
  .next (s.issue c t ((iDAB 0x60 d a b false).asGeneric2 a b) (do wArith d (← regCell a) (← regCell b) (· + ·) Fl.add))
/-- SUB. -/
def execSub (c : Chan) (t : Fin 8) (d a b : Reg) (s : State) : Out :=
  .next (s.issue c t ((iDAB 0x61 d a b false).asGeneric2 a b) (do wArith d (← regCell a) (← regCell b) (· - ·) Fl.sub))
/-- MUL. -/
def execMul (c : Chan) (t : Fin 8) (d a b : Reg) (s : State) : Out :=
  .next (s.issue c t ((iDAB 0x62 d a b false).asGeneric2 a b) (do wArith d (← regCell a) (← regCell b) (· * ·) Fl.mul))
/-- FDIV: always a float (R221). -/
def execFdiv (c : Chan) (t : Fin 8) (d a b : Reg) (s : State) : Out :=
  .next (s.issue c t ((iDAB 0x63 d a b false).asGeneric2 a b) (do
    let x ← regCell a
    let y ← regCell b
    genDispatch x y
    let u ← numVal x
    let v ← numVal y
    if anyF32 u v then deliverF d (Fl.div u.asF v.asF) else deliverS d (Fl.div u.asS v.asS)))
/-- The integer of an operand of QUO or REM (R222). -/
def needInt (u : Num) : IM Int :=
  match u with
  | .int i => return i
  | _ => faultTY 3
/-- The work of QUO and REM. -/
def wQuo (d a b : Reg) (f : Int → Int → Int) : IM Flow := do
  let x ← regCell a
  let y ← regCell b
  genDispatch x y
  if cellTag x = tSFLT then faultTY 0
  if cellTag y = tSFLT then faultTY 1
  if cellTag y = tFIX && cellPay y = 0#24 then faultOR 1
  let i ← needInt (← numVal x)
  let j ← needInt (← numVal y)
  if j = 0 then faultOR 1
  deliverInt d (f i j)
/-- QUO: truncates toward zero. -/
def execQuo (c : Chan) (t : Fin 8) (d a b : Reg) (s : State) : Out :=
  .next (s.issue c t ((iDAB 0x64 d a b false).asGeneric2 a b) (wQuo d a b Int.tdiv))
/-- REM: takes the sign of the dividend. -/
def execRem (c : Chan) (t : Fin 8) (d a b : Reg) (s : State) : Out :=
  .next (s.issue c t ((iDAB 0x65 d a b false).asGeneric2 a b) (wQuo d a b Int.tmod))
/-- NEG: FIX is taken in place of b for the result type. -/
def execNeg (c : Chan) (t : Fin 8) (d a : Reg) (s : State) : Out :=
  .next (s.issue c t ((iDA 0x66 d a).asGeneric a) (do
    let x ← regCell a
    genDispatch x fix0
    match ← numVal x with
    | .int i => deliverInt d (-i)
    | .sf p => deliverS d (sfltVal p).neg
    | .f32 w => deliverF d (f32Val w).neg))
/-- ADDI. -/
def execAddi (c : Chan) (t : Fin 8) (d a : Reg) (imm : BitVec 6) (s : State) : Out :=
  .next (s.issue c t ((iDAI 0x67 d a imm).asGeneric a) (do
    wArith d (← regCell a) (fixI imm.toInt) (· + ·) Fl.add))
/-- The work of NUMEQ and NUMLT (R223). -/
def wCompare (d a b : Reg) (v : Bool) (fi : Int → Int → Bool) (ff : Fl → Fl → Bool) : IM Flow := do
  let x ← regCell a
  let y ← regCell b
  genDispatch x y
  let u ← numVal x
  let w ← numVal y
  let r := match u, w with
    | .int i, .int j => fi i j
    | u, w => if anyF32 u w then ff u.asF w.asF else ff u.asS w.asS
  commit
  setD d (truth (r != v))
  return .next
/-- NUMEQ. -/
def execNumeq (c : Chan) (t : Fin 8) (d a b : Reg) (v : Bool) (s : State) : Out :=
  .next (s.issue c t ((iDAB 0x68 d a b v).asGeneric2 a b) (wCompare d a b v (fun i j => decide (i = j)) Fl.eq))
/-- NUMLT. -/
def execNumlt (c : Chan) (t : Fin 8) (d a b : Reg) (v : Bool) (s : State) : Out :=
  .next (s.issue c t ((iDAB 0x69 d a b v).asGeneric2 a b) (wCompare d a b v (fun i j => decide (i < j)) Fl.lt))
/-- TOSF. -/
def execTosf (c : Chan) (t : Fin 8) (d a : Reg) (s : State) : Out :=
  .next (s.issue c t ((iDA 0x6A d a).asGeneric a) (do
    let x ← regCell a
    genDispatch x fix0
    match ← numVal x with
    | .int i => deliverS d (intVal i)
    | .sf p => deliverS d (sfltVal p)
    | .f32 w => deliverS d (f32Val w)))
/-- TOF32: always a new box. -/
def execTof32 (c : Chan) (t : Fin 8) (d a : Reg) (s : State) : Out :=
  .next (s.issue c t ((iDA 0x6B d a).asGeneric a) (do
    let x ← regCell a
    genDispatch x fix0
    match ← numVal x with
    | .int i => deliverF d (intVal i)
    | .sf p => deliverF d (sfltVal p)
    | .f32 w => deliverF d (f32Val w)))
/-- TRUNC: an integer operand is delivered unchanged. (DEDUCED, unsafe: log 59.) -/
def execTrunc (c : Chan) (t : Fin 8) (d a : Reg) (s : State) : Out :=
  .next (s.issue c t ((iDA 0x6C d a).asGeneric a) (do
    let x ← regCell a
    genDispatch x fix0
    let deliver (f : Fl) : IM Flow := match f.trunc with
      | none => faultOV
      | some i => deliverInt d i
    match ← numVal x with
    | .int _ =>
      commit
      setD d (withCdr x 0#2)
      return .next
    | .sf p => deliver (sfltVal p)
    | .f32 w => deliver (f32Val w)))
/-- The work of the short-float instructions (R226). -/
def wShort (d a b : Reg) (f : Fl → Fl → Fl) : IM Flow := do
  let x ← operand 0 a (fun g => g = tSFLT)
  let y ← operand 1 b (fun g => g = tSFLT)
  deliverS d (f (sfltVal (cellPay x)) (sfltVal (cellPay y)))
/-- FADD. -/
def execFadd (c : Chan) (t : Fin 8) (d a b : Reg) (s : State) : Out := .next (s.issue c t (iDAB 0x70 d a b false) (wShort d a b Fl.add))
/-- FSUB. -/
def execFsub (c : Chan) (t : Fin 8) (d a b : Reg) (s : State) : Out := .next (s.issue c t (iDAB 0x71 d a b false) (wShort d a b Fl.sub))
/-- FMUL. -/
def execFmul (c : Chan) (t : Fin 8) (d a b : Reg) (s : State) : Out := .next (s.issue c t (iDAB 0x72 d a b false) (wShort d a b Fl.mul))
/-- FDV. -/
def execFdv (c : Chan) (t : Fin 8) (d a b : Reg) (s : State) : Out := .next (s.issue c t (iDAB 0x73 d a b false) (wShort d a b Fl.div))

end Sys2Proof.Machine
end

