-- ==== Sys2Proof/Machine/Memory.lean ====
section
/-! DEFINITION. Loads, stores, compare-and-swap, byte accesses, FENCE and the stack (R199-R205; Table 8.9). -/
namespace Sys2Proof.Machine

/-! ### Stride training (R321) -/

/-- The stride slots after a committed load at `pc` of address `va`, most recently trained first, and the address to prefetch. -/
def trainStride (sl : List Stride) (pc va : VAddr) : List Stride × Option VAddr :=
  match takeFirst (fun s => decide (s.pc = pc)) sl with
  | none => ({ pc := pc, last := va, stride := 0#24, conf := 0#2 } :: sl.take 3, none)
  | some (s, rest) =>
    let delta := va - s.last
    let s := if delta = s.stride && delta ≠ 0#24 then { s with conf := if s.conf = 3#2 then 3#2 else s.conf + 1#2, last := va }
      else { s with stride := delta, conf := 0#2, last := va }
    let n := s.stride.toInt.natAbs
    if s.conf ≥ 2#2 && 1 ≤ n && n ≤ 512 then
      (s :: rest, some (va + s.stride * BitVec.ofNat 24 (max 2 (ceilDiv 32 n))))
    else (s :: rest, none)
/-- The physical line of a prefetch target, through a look-aside entry already present; nothing where none is, where the lookup meets a
multi-hit, which then removes and records, or where the page is not CACHED memory (R301, R305). -/
def Mach.prefetchLine (m : Mach) (th : Thread) (k : Fin 2) (va : VAddr) : Option Nat × Mach :=
  let line (m : Mach) (a : Nat) : Option Nat := if m.ch.place a = .memory then some (a / 16) else none
  if th.te then
    match m.tlbLookup k (va.extractLsb' 10 14) th.asid with
    | (.hit e, m) => (if e.typ = 0#2 then line m (m.ch.pageBase e.idx.toNat + bits va 0 10) else none, m)
    | (_, m) => (none, m)
  else (line m va.toNat, m)
/-- Train the thread's stride slots on a committed load of a CACHED page (R321). -/
def train (va : VAddr) (typ : BitVec 2) : IM Unit := do
  let s ← get
  let th := s.m.thr s.t
  if typ = 0#2 && s.m.ch.proc.dcen && winBit s.m.ch 0x1400 2 then
    let r := trainStride th.stride th.pc va
    modT (fun th => { th with stride := r.1 })
    match r.2 with
    | some ta => match ← useM (fun m => m.prefetchLine th (coreOf s.t) ta) with
      | some l => modM (fun m => m.prefetch (coreOf s.t) true l true)
      | none => return ()
    | none => return ()

/-! ### Loads -/

/-- Complete a load: barrier, checks, COMMIT, heal, destination. -/
def deliverLoad (d : Reg) (r : Cell × VAddr × Xl) : IM Unit := do
  let v ← loadBarrier r.2.1 r.2.2.phys r.1
  checkLoaded v.1
  commit
  postHeal v.2
  setD d v.1
/-- A load of a resolved target (R177, R199): a DEVICE cell is read from its unit once the thread's stores have taken their
places and the load commits. -/
def loadTarget (d : Reg) (tg : Target) : IM Unit := do
  let x ← xlate tg.va needR tg.hand
  if x.typ = 2#2 then
    let t ← me
    commit
    modM (fun m => m.drainThread t)
    let k ← myCore
    let v ← useM (fun m => ({ m with ch.proc.granted := coreAgent k }).winLoad t (x.phys - 0xC0000000))
    setD d v
  else
    let r ← readFwd tg.va needR 8 x
    deliverLoad d r
    train tg.va x.typ
/-- LD. -/
def execLd (c : Chan) (t : Fin 8) (d a : Reg) (imm : BitVec 6) (s : State) : Out :=
  .next (s.issue c t (iDAI 0x20 d a imm) (do
    let p ← operand 0 a isPtr
    let tg ← fieldTarget p imm.toNat false
    limitCrate p
    loadTarget d tg
    return .next))
/-- The tags LDX and STX accept. -/
def indexTag (t : BitVec 6) : Bool := isHdrp t || t = tHAND
/-- LDX. -/
def execLdx (c : Chan) (t : Fin 8) (d a b : Reg) (s : State) : Out :=
  .next (s.issue c t (iDAB 0x21 d a b false) (do
    let p ← operand 0 a indexTag
    let i ← operand 1 b fixTag
    let tg ← indexTarget p (fixInt (cellPay i))
    limitCrate p
    loadTarget d tg
    return .next))

/-! ### Stores -/

/-- A store of a resolved target (R159, R200, R330). `always`: through a CONS or LOC pointer, so checked wherever it lies. -/
def storeTarget (tg : Target) (v : Cell) (always : Bool) : IM Unit := do
  let x ← xlate tg.va needW tg.hand
  commit
  if x.typ = 2#2 then bufStore x v true []
  else barrierStore tg.va x v true always
/-- ST. -/
def execSt (c : Chan) (t : Fin 8) (d a : Reg) (imm : BitVec 6) (s : State) : Out :=
  .next (s.issue c t (iSAI 0x22 d a imm) (do
    let p ← operand 0 a isPtr
    let v ← operand 2 d anyTag
    let tg ← fieldTarget p imm.toNat true
    limitStore p tg v 2
    storeTarget tg v (cellTag p = tCONS || cellTag p = tLOC)
    return .next))
/-- STX. -/
def execStx (c : Chan) (t : Fin 8) (d a b : Reg) (s : State) : Out :=
  .next (s.issue c t (iSAB 0x23 d a b) (do
    let p ← operand 0 a indexTag
    let i ← operand 1 b fixTag
    let v ← operand 2 d anyTag
    let tg ← indexTarget p (fixInt (cellPay i))
    limitStore p tg v 2
    storeTarget tg v false
    return .next))
/-- The write of a step that has read its target: log and snapshot actions, then the cell with its CDR kept. -/
def stepWrite (va : VAddr) (x : Xl) (old v : Cell) : IM Unit := do
  let s ← get
  stepActions va old v
  modM (fun m => m.cellStep (coreAgent (coreOf s.t)) x.phys v true)
/-- CAS (R201): one indivisible step. -/
def execCas (c : Chan) (t : Fin 8) (d a b : Reg) (s : State) : Out :=
  .next (s.issue c t (iDAB 0x24 d a b false) (do
    let p ← operand 0 a (fun g => g = tLOC || g = tCONS)
    let n ← operand 1 b anyTag
    let e ← operand 2 d anyTag
    let tn ← me
    modM (fun m => m.drainThread tn)
    let x ← xlate (cellPay p) needRW false
    let r ← readFwdBy stepRead (cellPay p) needRW 8 x
    if !(← getT).sup && userSealed (cellTag n) then faultTY 1
    if isReserved r.1 then checkLoaded r.1
    let bl ← loadBarrier r.2.1 r.2.2.phys r.1
    commit
    modM (fun m => m.drainThread tn)
    if cellTag r.1 = tPSN then
      stepWrite r.2.1 r.2.2 r.1 n
      setD d cUNBOUND
    else
      if sameValue r.1 e then stepWrite r.2.1 r.2.2 r.1 n else modM (fun m => m.bumpT tn 44)
      postHeal bl.2
      setD d bl.1
    return .next))

/-! ### Bytes (R171, R202, R393) -/

/-- The cell and byte of byte k of a STR or RAWV object, with its bounds (R202). -/
def byteTarget (p : Cell) (i : Int) : IM (VAddr × Fin 3) := do
  let h ← headerOf p
  let base := cellPay p
  if cellTag p = tSTR then
    let c1 ← readAt (base + 1#24) needR
    if cellTag c1.1 = tPSN then faultPO 3
    if cellTag c1.1 ≠ tFIX then faultTY 3
    if i < 0 || i ≥ fixInt (cellPay c1.1) then faultOR 1
    return (base + 2#24 + BitVec.ofNat 24 (i.toNat / 3), Fin.ofNat 3 i.toNat)
  else
    if hdrKind h ≠ 9#4 then faultTY 3
    if i < 0 || i ≥ (3 * hdrSize h : Int) then faultOR 1
    return (base + 1#24 + BitVec.ofNat 24 (i.toNat / 3), Fin.ofNat 3 i.toNat)
/-- The tags LDB and STB accept. -/
def byteTag (t : BitVec 6) : Bool := t = tSTR || t = tVEC
/-- LDB. -/
def execLdb (c : Chan) (t : Fin 8) (d a b : Reg) (s : State) : Out :=
  .next (s.issue c t (iDAB 0x25 d a b false) (do
    let p ← operand 0 a byteTag
    let i ← operand 1 b fixTag
    let bt ← byteTarget p (fixInt (cellPay i))
    let x ← xlate bt.1 needR false
    let r ← readFwd bt.1 needR 8 x
    checkLoaded r.1
    commit
    setD d (fixN (bits (cellPay r.1) (8 * bt.2.val) 8))
    train bt.1 x.typ
    return .next))
/-- A cell with byte j of its payload replaced. -/
def withByte (v : Cell) (j : Nat) (b : Nat) : Cell := withPay v (setField (cellPay v) (8 * j) 8 b)
/-- What the step of a byte write finds. -/
inductive ByteRes where
  | done
  | fwd (v : Cell)
  | poison
  | reserved (v : Cell)
  deriving DecidableEq, Repr
/-- The byte write at a memory cell (R393): a refused merge writes PSN with SOURCE 2. -/
def Mach.byteMem (m : Mach) (k : Fin 2) (a : Nat) (j : Fin 3) (b : Nat) : ByteRes × Mach :=
  let e := eccRead a (m.memBits a)
  let l := a / 16
  let m := { m with ch.proc.granted := coreAgent k }
  let others : Mach := if (m.mergeErrs l [] positions).isEmpty then m else m.lineWrite l [] 0#2
  match e.1 with
  | .uncorrectable =>
    let m := (m.memPlace (coreAgent k) l [(a % 16, psn 2#4, false)]).mirrorByte a j (BitVec.ofNat 8 b)
    let m := m.setCache k true ((m.cache k true).drop l)
    (.poison, m.reportUe a false false true)
  | c =>
    if cellTag e.2 = tPSN then (.poison, others)
    else if cellTag e.2 = tFWD then (.fwd e.2, m)
    else if isReserved e.2 then (.reserved e.2, m)
    else
      let m := (m.memPlace (coreAgent k) l [(a % 16, withByte e.2 j.val b, false)]).mirrorByte a j (BitVec.ofNat 8 b)
      (.done, if c = Ecc.correctable then m.reportCe a false false else m)
/-- The byte write at a near-store cell. -/
def Mach.byteNear (m : Mach) (k : Fin 2) (a : Nat) (j : Fin 3) (b : Nat) : ByteRes × Mach :=
  let r := ({ m with ch.proc.granted := coreAgent k }).nearFetch (a - 0x80000000)
  if cellTag r.1 = tPSN then (.poison, r.2)
  else if cellTag r.1 = tFWD then (.fwd r.1, r.2)
  else if isReserved r.1 then (.reserved r.1, r.2)
  else (.done, (r.2.nearStore (a - 0x80000000) (withByte r.1 j.val b) false).mirrorByte a j (BitVec.ofNat 8 b))
/-- The byte write of STB (R202): one step; at a forward it repeats at the forwarded cell in a new step. -/
def byteStep (j : Fin 3) (b : Nat) : Nat → Xl → IM Unit
  | n, x => do
    let t ← me
    modM (fun m => m.drainThread t)
    match ← useM (fun m => if m.ch.place x.phys = .near then m.byteNear (coreOf t) x.phys j b else m.byteMem (coreOf t) x.phys j b) with
    | .done => return ()
    | .poison => faultPO 3
    | .reserved v => throw (.reserved v 3)
    | .fwd v => match n with
      | 0 => faultTY 3
      | n + 1 => do
        let x ← xlateLate (cellPay v) needRW
        byteStep j b n x
/-- STB. -/
def execStb (c : Chan) (t : Fin 8) (d a b : Reg) (s : State) : Out :=
  .next (s.issue c t (iSAB 0x26 d a b) (do
    let p ← operand 0 a byteTag
    let i ← operand 1 b fixTag
    let v ← operand 2 d fixTag
    if fixInt (cellPay v) < 0 || fixInt (cellPay v) > 255 then faultOR 2
    let bt ← byteTarget p (fixInt (cellPay i))
    let x ← xlate bt.1 needRW false
    commit
    byteStep bt.2 (cellPay v).toNat 8 x
    return .next))
/-- LOCOF (R203). -/
def execLocof (c : Chan) (t : Fin 8) (d a b : Reg) (s : State) : Out :=
  .next (s.issue c t (iDAB 0x27 d a b false) (do
    let p ← operand 0 a (fun g => isHdrp g || g = tCONS)
    let i ← operand 1 b fixTag
    if cellTag p = tCONS then
      if cellPay i ≠ 0#24 then faultOR 1
      commit
      setD d (loc (cellPay p))
    else
      let tg ← indexTarget p (fixInt (cellPay i))
      limitCrate p
      commit
      setD d (loc tg.va)
    return .next))
/-- FENCE (R205). -/
def execFence (c : Chan) (t : Fin 8) (s : State) : Out :=
  .next (s.issue c t (iN 0x28) (do
    commit
    let tn ← me
    modM (fun m => m.drainThread tn)
    return .next))

/-! ### The stack (R204) -/

/-- A store to a stack cell. -/
def stackStore (va : VAddr) (v : Cell) : IM Unit := do
  if !(← getT).sup && userSealed (cellTag v) then faultTY 2
  let x ← xlate va needW false
  commit
  barrierStore va x v true false
/-- PUSH. -/
def execPush (c : Chan) (t : Fin 8) (d : Reg) (s : State) : Out :=
  .next (s.issue c t (iS 0x29 d) (do
    let v ← operand 2 d anyTag
    let sp ← stackPtr
    stackStore (sp - 1#24) v
    modT (fun th => th.setSp (loc (sp - 1#24)))
    return .next))
/-- POP. -/
def execPop (c : Chan) (t : Fin 8) (d : Reg) (s : State) : Out :=
  .next (s.issue c t (iD 0x2A d) (do
    let sp ← stackPtr
    let r ← readAt sp needR
    deliverLoad d r
    modT (fun th => th.setSp (loc (sp + 1#24)))
    return .next))
/-- LDSP. -/
def execLdsp (c : Chan) (t : Fin 8) (d : Reg) (imm : BitVec 11) (s : State) : Out :=
  .next (s.issue c t (iDL 0x2B d imm) (do
    let sp ← stackPtr
    let r ← readAt (sp + imm.setWidth 24) needR
    deliverLoad d r
    return .next))
/-- STSP. -/
def execStsp (c : Chan) (t : Fin 8) (d : Reg) (imm : BitVec 11) (s : State) : Out :=
  .next (s.issue c t (iSL 0x2C d imm) (do
    let v ← operand 2 d anyTag
    let sp ← stackPtr
    stackStore (sp + imm.setWidth 24) v
    return .next))
/-- ADDSP. -/
def execAddsp (c : Chan) (t : Fin 8) (imm : BitVec 11) (s : State) : Out :=
  .next (s.issue c t (iL 0x2D imm) (do
    let sp ← stackPtr
    commit
    modT (fun th => th.setSp (loc (sp + imm.signExtend 24)))
    return .next))

end Sys2Proof.Machine
end

