-- ==== Sys2Proof/Machine/Lists.lean ====
section
/-! DEFINITION. Allocation instructions, lists and the accumulator (R227-R236). -/
namespace Sys2Proof.Machine

/-! ### Allocation (Table 9.5) -/

/-- The cells of a new object in order, padded to an even count with FREE 1. -/
def objCells (sel : BitVec 6) (size : Nat) : List Cell :=
  (upFrom 0 (size + 1)).map (objCell sel size) ++ (if size % 2 = 0 then [freeRun 1] else [])
/-- ALLOC. -/
def execAlloc (c : Chan) (t : Fin 8) (d a : Reg) (imm : BitVec 6) (s : State) : Out :=
  .next (s.issue c t (iDAI 0x90 d a imm) (do
    if (selKind imm).isNone then faultIL
    let v ← operand 0 a fixTag
    let n := fixInt (cellPay v)
    if n < (selSizes imm).1 || n > (selSizes imm).2 then faultOR 0
    let p ← allocObject (objCells imm n.toNat)
    setD d (mkCell (selTag imm) 0#2 p)
    return .next))
/-- The lowest run of n consecutive FREE regions of a slot. -/
def Slot.freeRunAt (x : Slot) (n : Nat) : Option Nat :=
  (upFrom 0 (257 - n)).find? (fun r => (upFrom r n).all (fun j => x.kind j = kFREE))
/-- Place a large object: its run becomes LARGE (R229). -/
def Mach.placeLarge (m : Mach) (t s : Fin 8) (size : Nat) (sel : BitVec 6) (first : Nat) : Mach :=
  let n := largeRegions size
  let m := m.setRegions s (mkEntry kLARGE false (m.ch.sw.cycleOf s) first) (upFrom first n)
  m.setThr t { m.thr t with resv := some { slot := s, first := first, count := n, size := size, sel := sel, filled := 0, failed := false } }
/-- During ROOTS and MARK of its space's cycle, the mark bit of a large object's first cell is set as it is taken (R229, R341). -/
def Mach.markLarge (m : Mach) (r : Reservation) : Mach :=
  if decide (m.ch.sw.slot = r.slot) && m.ch.sw.phase.marking then m.setMark r.slot (r.first * 0x10000) else m
/-- ALLOCL (R229): it takes the thread's reservation or places a new one; it completes once the fill has, a stopped line being
tried again here, and until then it stands at its address. (DEDUCED, unsafe: log 6.) -/
def wAllocl (d a : Reg) (imm : BitVec 6) : IM Flow := do
  if (selKind imm).isNone then faultIL
  let v ← operand 0 a fixTag
  let n := fixInt (cellPay v)
  if n < 1024 || n > 1048575 then faultOR 0
  if imm = 2#6 || imm = 3#6 || imm = 6#6 then faultOR 4
  let size := n.toNat
  let s ← get
  let t := s.t
  let sp := s.m.spaceOf (s.m.thr t)
  let mine := match (s.m.thr t).resv with
    | some r => decide (r.size = size) && decide (r.sel = imm) && decide (sp = some r.slot)
    | none => false
  if !mine then
    modM (fun m => m.returnResv t)
    match sp with
    | none => faultAL 1
    | some sl => match ((← getM).slot sl).freeRunAt (largeRegions size) with
      | none => faultAL 2
      | some f => modM (fun m => m.placeLarge t sl size imm f)
  match (← getT).resv with
  | none => return .resume
  | some r =>
    modM (fun m => m.markLarge r)
    if r.failed then
      match ← useM (fun m => m.fillStep t r) with
      | some e => fault e (fixN (r.lineVa r.filled))
      | none => pure ()
    match (← getT).resv with
    | none => return .resume
    | some r =>
      if r.filled < fillLines r.size then return .resume
      else
        commit
        modT (fun th => { th with resv := none })
        setD d (mkCell (selTag imm) 0#2 (BitVec.ofNat 24 (r.first * 0x10000)))
        return .next
/-- ALLOCL. -/
def execAllocl (c : Chan) (t : Fin 8) (d a : Reg) (imm : BitVec 6) (s : State) : Out :=
  .next (s.issue c t (iDAI 0x91 d a imm) (wAllocl d a imm))
/-- ALLOCL_BODY_FILL: one line of the reserved object's body. -/
def Mach.alloclBodyFill (m : Mach) (t : Fin 8) : Mach :=
  match (m.thr t).resv with
  | some r => if m.works && !r.failed && decide (r.filled < fillLines r.size) then (m.fillStep t r).2 else m
  | none => m
/-- ALLOCL_BODY_FILL. -/
def execAlloclBodyFill (c : Chan) (t : Fin 8) (s : State) : Out := .next (s.onMach c (fun m => m.alloclBodyFill t))

/-- The 16 positions of a line as whole FIX 0 cells. -/
def zeroLine : NMap (Cell × Bool) := lineOf 0 (List.replicate 16 fix0)
/-- The cells of a translated line, read in order. -/
def readLine (x : Xl) : Nat → IM (List Cell)
  | 0 => return []
  | n + 1 => do
    let v ← readCell x
    return v :: (← readLine { x with phys := x.phys + 1 } n)
/-- ZLINE (R230, R319). -/
def execZline (c : Chan) (t : Fin 8) (a b : Reg) (s : State) : Out :=
  .next (s.issue c t (iAB 0x92 a b false) (do
    let p ← operand 0 a (fun g => g = tVEC || g = tREC || isUP g)
    let i ← operand 1 b fixTag
    let h ← headerOf p
    let k := fixInt (cellPay i)
    let va := cellPay p + 1#24 + cellPay i
    if k < 0 || k + 15 ≥ (hdrSize h : Int) || bits va 0 4 ≠ 0 then faultOR 1
    let x ← xlate va needW false
    commit
    let s ← get
    match s.m.spaceOf (s.m.thr s.t) with
    | some sl =>
      if decide (s.m.ch.sw.slot = sl) && decide (s.m.ch.sw.phase = .mark) then
        let old ← readLine x 16
        modM (fun m => m.pushAll sl old)
    | none => pure ()
    modM (fun m => m.wbAdd s.t (m.wbKind x.phys) (x.phys / 16) zeroLine (x.typ = 0#2) [])
    return .next))

/-! ### Lists (Table 9.6) -/

/-- The tags CAR, CDR and ENDP accept, with NIL the one constant. -/
def listOperand (a : Reg) : IM Cell := do
  let v ← operand 0 a (fun g => g = tCONS || g = tCONST)
  if cellTag v = tCONST && !isNil v then faultTY 0
  return v
/-- The checks of a list cell (R161, R183): PSN, a reserved cell, CDR 11. -/
def listCheck (v : Cell) : IM Unit := do
  checkLoaded v
  if cellCdr v = 3#2 then faultTY 3
/-- The list cell a CONS addresses, forwards followed, with its checks. -/
def listCell (p : Cell) : IM (Cell × VAddr × Xl) := do
  let r ← readAt (cellPay p) needR
  listCheck r.1
  return r
/-- CAR. -/
def execCar (c : Chan) (t : Fin 8) (d a : Reg) (s : State) : Out :=
  .next (s.issue c t (iDA 0x80 d a) (do
    let p ← listOperand a
    if isNil p then
      commit
      setD d cNIL
    else
      let r ← listCell p
      deliverLoad d r
      train (cellPay p) r.2.2.typ
    return .next))
/-- CDR: the cdr of the list cell reached (R160). R346 does not name CDR among the barrier loads. (DEDUCED, unsafe: log 21.) -/
def execOpCdr (c : Chan) (t : Fin 8) (d a : Reg) (s : State) : Out :=
  .next (s.issue c t (iDA 0x81 d a) (do
    let p ← listOperand a
    if isNil p then
      commit
      setD d cNIL
    else
      let r ← listCell p
      if cellCdr r.1 = 1#2 then
        commit
        setD d (mkCell tCONS 0#2 (r.2.1 + 1#24))
      else if cellCdr r.1 = 2#2 then
        commit
        setD d cNIL
      else
        let q ← readAt (r.2.1 + 1#24) needR
        checkLoaded q.1
        commit
        setD d q.1
      train (cellPay p) r.2.2.typ
    return .next))
/-- The limit of R158 on a source in user code. -/
def limitSource (v : Cell) (code : Nat) : IM Unit := do
  if !(← getT).sup && userSealed (cellTag v) then faultTY code
/-- CONS. -/
def execOpCons (c : Chan) (t : Fin 8) (d a b : Reg) (s : State) : Out :=
  .next (s.issue c t (iDAB 0x82 d a b false) (do
    let x ← operand 0 a anyTag
    let y ← operand 1 b anyTag
    limitSource x 0
    limitSource y 1
    let p ← allocObject [withCdr x 0#2, withCdr y 0#2]
    setD d (mkCell tCONS 0#2 p)
    return .next))
/-- The source registers of LIST, each checked as operand a. -/
def listSources : List Nat → IM (List Cell)
  | [] => return []
  | r :: rs => do
    let v ← operand 0 (Fin.ofNat 32 r) anyTag
    return v :: (← listSources rs)
/-- The cells of a compact list: CDR NEXT, the last CDR NIL. -/
def compactCells : List Cell → List Cell
  | [] => []
  | [v] => [withCdr v 2#2]
  | v :: r => withCdr v 1#2 :: compactCells r
/-- The cells of a dotted list: CDR NEXT, then a NORMAL pair. -/
def dottedCells : List Cell → List Cell
  | [] => []
  | [v] => [withCdr v 0#2]
  | [v, w] => [withCdr v 0#2, withCdr w 0#2]
  | v :: r => withCdr v 1#2 :: dottedCells r
/-- Cells padded to an even count. -/
def padEven (l : List Cell) : List Cell := if l.length % 2 = 0 then l else l ++ [freeRun 1]
/-- Limits of R158 on each source of LIST. -/
def limitSources : List Cell → IM Unit
  | [] => return ()
  | v :: r => do
    limitSource v 0
    limitSources r
/-- LIST. -/
def execOpList (c : Chan) (t : Fin 8) (d a : Reg) (imm : BitVec 6) (s : State) : Out :=
  let n := bits imm 0 5
  let rs := upFrom a.val n
  .next (s.issue c t { iDAI 0x83 d a imm with touch := rs.any (fun r => decide (16 ≤ r)) } (do
    if n < 1 || n > 16 || a.val + n > 32 then faultIL
    let vs ← listSources rs
    if bit imm 5 && n < 2 then faultOR 4
    limitSources vs
    let p ← allocObject (padEven (if bit imm 5 then dottedCells vs else compactCells vs))
    setD d (mkCell tCONS 0#2 p)
    return .next))
/-- The FWD of RPLACD installed at a list cell, as its own step with the actions of a barrier write (R234). (DEDUCED, unsafe: log 33.) -/
def installFwd (va : VAddr) (x : Xl) (old : Cell) (y : VAddr) : IM Unit := do
  let t ← me
  modM (fun m => m.drainThread t)
  stepWrite va x old (mkCell tFWD 0#2 y)
  modM (fun m => m.bumpT t 41)
/-- RPLACD (R233): the compare-and-swap of one indivisible step of this model finds the cell just read, so the loop runs once. -/
def execRplacd (c : Chan) (t : Fin 8) (a b : Reg) (s : State) : Out :=
  .next (s.issue c t (iAB 0x84 a b false) (do
    let p ← operand 0 a (fun g => g = tCONS)
    let v ← operand 1 b anyTag
    let r ← readAt (cellPay p) needR
    let x := r.2.1
    limitSource v 1
    listCheck r.1
    if cellCdr r.1 = 0#2 then
      let y ← xlate (x + 1#24) needW false
      commit
      checkedStore (x + 1#24) v true false 8 y
    else if (cellCdr r.1 = 2#2 && isNil v) || (cellCdr r.1 = 1#2 && cellTag v = tCONS && cellPay v = x + 1#24) then
      commit
    else
      let xx ← xlate x needRW false
      let pl ← requestAlloc 2
      let ax ← xlatePlan pl
      commit
      carryAlloc pl ax [withCdr r.1 0#2, withCdr v 0#2]
      installFwd x xx r.1 (BitVec.ofNat 24 pl.base)
    return .next))
/-- ENDP. -/
def execEndp (c : Chan) (t : Fin 8) (d a : Reg) (s : State) : Out :=
  .next (s.issue c t (iDA 0x85 d a) (do
    let p ← listOperand a
    commit
    setD d (truth (isNil p))
    return .next))

/-! ### The accumulator (Table 9.7) -/

/-- The work of MAC and MACS. -/
def wMac (a b : Reg) (v sat : Bool) : IM Flow := do
  let x ← operand 0 a fixTag
  let y ← operand 1 b fixTag
  commit
  let sum := macSum (← getT).acc (cellPay x) (cellPay y) v
  if inAcc sum then
    modT (fun th => { th with acc := BitVec.ofInt 56 sum })
    return .next
  else
    let t ← me
    modM (fun m => m.bumpT t 46)
    modT (fun th => { th with acc := if sat then accSat sum else BitVec.ofInt 56 sum, pstate := setBit th.pstate 4 true })
    if sat then return .next else throw (.trap 26#10 fix0)
/-- MAC. -/
def execMac (c : Chan) (t : Fin 8) (a b : Reg) (v : Bool) (s : State) : Out :=
  .next (s.issue c t (iAB 0xA0 a b v).touching (wMac a b v false))
/-- MACS. -/
def execMacs (c : Chan) (t : Fin 8) (a b : Reg) (v : Bool) (s : State) : Out :=
  .next (s.issue c t (iAB 0xA1 a b v).touching (wMac a b v true))
/-- ACCZ. -/
def execAccz (c : Chan) (t : Fin 8) (s : State) : Out :=
  .next (s.issue c t (iN 0xA2).touching (do
    commit
    modT (fun th => { th with acc := 0#56 })
    return .next))
/-- ACCGET. -/
def execAccget (c : Chan) (t : Fin 8) (d : Reg) (imm : BitVec 6) (s : State) : Out :=
  .next (s.issue c t (iDI 0xA3 d imm).touching (do
    if imm.toNat > 32 then faultOR 4
    deliverInt d (accGetInt (← getT).acc imm.toNat)))

end Sys2Proof.Machine
end

