-- ==== Sys2Proof/Machine/Moves.lean ====
section
/-! DEFINITION. Moves, tags, integer and bit operations (R197, R198; Table 8.7). -/
namespace Sys2Proof.Machine

/-- The cell a thread fetches where no other command stands for it (R174, R191, R192, R247): NOP; a cell that is not INSTR, which raises
the instruction tag fault; a word of opcode 0x00, of an unassigned opcode or with a nonzero unused field, which raises the illegal
instruction fault. A word of another instruction is that instruction's own command and does nothing here. -/
def Mach.issueCell (m : Mach) (t : Fin 8) (w : Cell) : Mach :=
  let i : Ins := { iN (cellOp w) with icell := w }
  let work : IM Flow := do commit; return .next
  if !m.canIssue t then m
  else if cellTag w ≠ tINSTR then m.finishIns t i (.error (.fault 7#10 (fix (m.thr t).pc)))
  else if isInstr w then (if cellOp w = 0x01 then m.issue t (iN 0x01) work else m)
  else if (m.core (coreOf t)).asMade then m.finishIns t i (.error (.fault 1#10 fix0))
  else m.issue t i work
/-- NOP, or another fetched cell that no other command stands for (log 16). -/
def execNop (c : Chan) (t : Fetched) (s : State) : Out := .next (s.onMach c (fun m => m.issueCell t.thread t.cell))
/-- The work of an instruction that delivers a function of operand a. -/
def wUnary (d a : Reg) (ok : BitVec 6 → Bool) (f : Cell → Cell) : IM Flow := do
  let v ← operand 0 a ok
  commit
  setD d (f v)
  return .next
/-- MOV: the whole cell, CDR included. -/
def execMov (c : Chan) (t : Fin 8) (d a : Reg) (s : State) : Out := .next (s.issue c t (iDA 0x02 d a) (wUnary d a anyTag id))
/-- MOVI. -/
def execMovi (c : Chan) (t : Fin 8) (d : Reg) (imm : BitVec 11) (s : State) : Out :=
  .next (s.issue c t (iDL 0x03 d imm) (do commit; setD d (fix (imm.signExtend 24)); return .next))
/-- LDK: the constant imm11 cells before the instruction. -/
def execLdk (c : Chan) (t : Fin 8) (d : Reg) (imm : BitVec 11) (s : State) : Out :=
  .next (s.issue c t (iDL 0x04 d imm) (do
    if imm = 0#11 then faultOR 4
    let r ← readAt ((← getT).pc - imm.setWidth 24) needR
    checkLoaded r.1
    if cellTag r.1 = tINSTR || cellTag r.1 = tHDR || cellTag r.1 = tFREE then faultTY 3
    commit
    setD d (withCdr r.1 0#2)
    return .next))
/-- TAGOF. -/
def execTagof (c : Chan) (t : Fin 8) (d a : Reg) (s : State) : Out :=
  .next (s.issue c t (iDA 0x05 d a) (wUnary d a anyTag (fun v => fix ((cellTag v).setWidth 24))))
/-- TAGEQ. -/
def execTageq (c : Chan) (t : Fin 8) (d a : Reg) (imm : BitVec 6) (s : State) : Out :=
  .next (s.issue c t (iDAI 0x06 d a imm) (wUnary d a anyTag (fun v => truth (cellTag v = imm))))
/-- Whether a tag belongs to the first row of Table 7.2. -/
def plainTag (t : BitVec 6) : Bool := t = tFIX || t = tSFLT || t = tCHAR || t = tRAW || isUI t
/-- Whether Table 7.2 allows the executing mode to retag a cell (R157, R198). -/
def retagOk (sup : Bool) (v : Cell) (t : BitVec 6) : Bool :=
  let f := cellTag v
  if plainTag t then plainTag f
  else if t = tCONST then plainTag f && cellPay v ≤ 3#24
  else if isUP t then isUP f || (sup && f = tFIX)
  else if isPtr t || t = tINSTR || t = tHDR || t = tFREE then sup && f = tFIX
  else false
/-- TAGSET. -/
def execTagset (c : Chan) (t : Fin 8) (d a : Reg) (imm : BitVec 6) (s : State) : Out :=
  .next (s.issue c t (iDAI 0x07 d a imm) (do
    let v ← operand 0 a anyTag
    if !retagOk (← getT).sup v imm then faultTY 0
    commit
    setD d (mkCell imm 0#2 (cellPay v))
    return .next))
/-- CDROF. -/
def execCdrof (c : Chan) (t : Fin 8) (d a : Reg) (s : State) : Out :=
  .next (s.issue c t (iDA 0x08 d a) (wUnary d a anyTag (fun v => fix ((cellCdr v).setWidth 24))))
/-- Deliver an integer as FIX, or the overflow fault (R197). -/
def deliverFix (d : Reg) (i : Int) : IM Flow := do
  if !inFix i then faultOV
  commit
  setD d (fixI i)
  return .next
/-- The work of IADD and ISUB. -/
def wIntOp (d a b : Reg) (f : Int → Int → Int) : IM Flow := do
  let x ← operand 0 a fixTag
  let y ← operand 1 b fixTag
  deliverFix d (f (fixInt (cellPay x)) (fixInt (cellPay y)))
/-- IADD. -/
def execIadd (c : Chan) (t : Fin 8) (d a b : Reg) (s : State) : Out :=
  .next (s.issue c t (iDAB 0x10 d a b false) (wIntOp d a b (· + ·)))
/-- ISUB. -/
def execIsub (c : Chan) (t : Fin 8) (d a b : Reg) (s : State) : Out :=
  .next (s.issue c t (iDAB 0x11 d a b false) (wIntOp d a b (· - ·)))
/-- IADDI. -/
def execIaddi (c : Chan) (t : Fin 8) (d a : Reg) (imm : BitVec 6) (s : State) : Out :=
  .next (s.issue c t (iDAI 0x12 d a imm) (do
    let x ← operand 0 a fixTag
    deliverFix d (fixInt (cellPay x) + imm.toInt)))
/-- The work of the two-operand bit operations: the result keeps the tag of a. -/
def wBitOp (d a b : Reg) (f : Payload → Payload → Payload) : IM Flow := do
  let p ← bitsPair a b
  commit
  setD d (mkCell (cellTag p.1) 0#2 (f (cellPay p.1) (cellPay p.2)))
  return .next
/-- AND. -/
def execOpAnd (c : Chan) (t : Fin 8) (d a b : Reg) (s : State) : Out :=
  .next (s.issue c t (iDAB 0x13 d a b false) (wBitOp d a b (· &&& ·)))
/-- OR. -/
def execOpOr (c : Chan) (t : Fin 8) (d a b : Reg) (s : State) : Out :=
  .next (s.issue c t (iDAB 0x14 d a b false) (wBitOp d a b (· ||| ·)))
/-- XOR. -/
def execOpXor (c : Chan) (t : Fin 8) (d a b : Reg) (s : State) : Out :=
  .next (s.issue c t (iDAB 0x15 d a b false) (wBitOp d a b (· ^^^ ·)))
/-- The work of a bit operation with an immediate. -/
def wBitImm (d a : Reg) (f : Payload → Payload) : IM Flow := do
  let x ← operand 0 a isBits
  commit
  setD d (mkCell (cellTag x) 0#2 (f (cellPay x)))
  return .next
/-- ANDI. -/
def execAndi (c : Chan) (t : Fin 8) (d a : Reg) (imm : BitVec 6) (s : State) : Out :=
  .next (s.issue c t (iDAI 0x16 d a imm) (wBitImm d a (· &&& imm.setWidth 24)))
/-- A left shift of 24 bits: 0 from an amount of 24 up. -/
def shl24 (p : Payload) (n : Nat) : Payload := p <<< n
/-- A logical right shift. -/
def shr24 (p : Payload) (n : Nat) : Payload := p >>> n
/-- An arithmetic right shift: copies of bit 23 from an amount of 24 up. -/
def sar24 (p : Payload) (n : Nat) : Payload := p.sshiftRight n
/-- The work of a shift by a register amount. -/
def wShift (d a b : Reg) (f : Payload → Nat → Payload) : IM Flow := do
  let x ← operand 0 a isBits
  let y ← operand 1 b fixTag
  if fixInt (cellPay y) < 0 then faultOR 1
  commit
  setD d (mkCell (cellTag x) 0#2 (f (cellPay x) (cellPay y).toNat))
  return .next
/-- SHL. -/
def execShl (c : Chan) (t : Fin 8) (d a b : Reg) (s : State) : Out := .next (s.issue c t (iDAB 0x17 d a b false) (wShift d a b shl24))
/-- SHR. -/
def execShr (c : Chan) (t : Fin 8) (d a b : Reg) (s : State) : Out := .next (s.issue c t (iDAB 0x18 d a b false) (wShift d a b shr24))
/-- SAR. -/
def execSar (c : Chan) (t : Fin 8) (d a b : Reg) (s : State) : Out := .next (s.issue c t (iDAB 0x19 d a b false) (wShift d a b sar24))
/-- SHLI. -/
def execShli (c : Chan) (t : Fin 8) (d a : Reg) (imm : BitVec 6) (s : State) : Out :=
  .next (s.issue c t (iDAI 0x1A d a imm) (wBitImm d a (shl24 · imm.toNat)))
/-- SHRI. -/
def execShri (c : Chan) (t : Fin 8) (d a : Reg) (imm : BitVec 6) (s : State) : Out :=
  .next (s.issue c t (iDAI 0x1B d a imm) (wBitImm d a (shr24 · imm.toNat)))
/-- SARI. -/
def execSari (c : Chan) (t : Fin 8) (d a : Reg) (imm : BitVec 6) (s : State) : Out :=
  .next (s.issue c t (iDAI 0x1C d a imm) (wBitImm d a (sar24 · imm.toNat)))
/-- EQ; v inverts. -/
def execOpEq (c : Chan) (t : Fin 8) (d a b : Reg) (v : Bool) (s : State) : Out :=
  .next (s.issue c t (iDAB 0x1D d a b v) (do
    let x ← operand 0 a anyTag
    let y ← operand 1 b anyTag
    commit
    setD d (truth (sameValue x y != v))
    return .next))
/-- ILT; v inverts. -/
def execIlt (c : Chan) (t : Fin 8) (d a b : Reg) (v : Bool) (s : State) : Out :=
  .next (s.issue c t (iDAB 0x1E d a b v) (do
    let x ← operand 0 a fixTag
    let y ← operand 1 b fixTag
    commit
    setD d (truth (decide (fixInt (cellPay x) < fixInt (cellPay y)) != v))
    return .next))
/-- ULT; v inverts. -/
def execUlt (c : Chan) (t : Fin 8) (d a b : Reg) (v : Bool) (s : State) : Out :=
  .next (s.issue c t (iDAB 0x1F d a b v) (do
    let p ← bitsPair a b
    commit
    setD d (truth (decide (cellPay p.1 < cellPay p.2) != v))
    return .next))

end Sys2Proof.Machine
end

