-- ==== Sys2Proof/Machine/Units.lean ====
section
/-! DEFINITION. Instructions that reach the channel's units: PMREAD, WDKICK, LGREAD, LGWRITE, FLXFER, CHECKPOINT (R92, R93, R123, R150,
R151, R214, R411, R493). -/
namespace Sys2Proof.Machine

/-! ### Counters, watchdog, ledger -/

/-- PMREAD: counter a into d and d + 1. -/
def execPmread (c : Chan) (t : Fin 8) (d a : Reg) (s : State) : Out :=
  .next (s.issue c t (iDA 0xD4 d a).asSup (do
    if d.val % 2 = 1 then faultIL
    let v ← operand 0 a fixTag
    if 255#24 < cellPay v then faultOR 0
    commit
    let n ← useM (fun m => m.readCounter (cellPay v).toNat)
    setD d (raw (n.extractLsb' 24 24))
    setD (d + 1) (raw (n.extractLsb' 0 24))
    return .next))
/-- WDKICK. -/
def execWdkick (c : Chan) (t : Fin 8) (s : State) : Out :=
  .next (s.issue c t (iN 0x42).asSup (do
    commit
    modM (fun m => { m with ch.clk := { m.ch.clk with wdCount := 0, wdWarned := false } })
    return .next))
/-- The cell LGREAD delivers for the operand's fields, and what the read leaves; none beyond the partition (R71, R92). A corrected word
of either partition counts in the LGCORR of the channel that reads; an unreadable word queues its record in the ledger of the partition.
(DEDUCED, unsafe: log 41.) -/
def Mach.lgread (m : Mach) (p : Payload) : Option (Cell × Mach) :=
  let o := bits p 0 14
  let sq := bit p 14
  let l := if sq then m.sq.led else m.ch.led
  if bits p 16 8 ≠ 0 || (if sq then 2048 else 8192) ≤ o then none
  else
    let w := l.word o
    let v : Cell := if !sq && 0x1800 ≤ o then w else fix (if bit p 15 then (w.extractLsb' 24 8).setWidth 24 else w.extractLsb' 0 24)
    match mapGet l.flaws o with
    | some true =>
      let detail : BitVec 32 := 0x2#4 ++ BitVec.ofNat 28 o
      some (psn 4#4, if sq then { m with sq.led := m.sq.led.arrive 0x0F#6 false false detail } else m.report 0x0F#6 false false detail)
    | some false => some (v, { m with ch.led.corr := satInc m.ch.led.corr })
    | none => some (v, m)
/-- LGREAD. -/
def execLgread (c : Chan) (t : Fin 8) (d a : Reg) (s : State) : Out :=
  .next (s.issue c t (iDA 0x43 d a).asSup (do
    let v ← operand 0 a fixTag
    match (← getM).lgread (cellPay v) with
    | none => faultOR 0
    | some r =>
      commit
      modM (fun m => match m.lgread (cellPay v) with | some r => r.2 | none => m)
      setD d r.1
      return .next))
/-- The tags LGWRITE accepts in b (R93). -/
def userTag (t : BitVec 6) : Bool := t = tFIX || t = tSFLT || t = tCHAR || t = tCONST || t = tRAW || isUI t
/-- LGWRITE: queued while four staging entries are free, held for an epoch on the active of a pair (R93, R94). -/
def execLgwrite (c : Chan) (t : Fin 8) (d a b : Reg) (s : State) : Out :=
  .next (s.issue c t (iDAB 0x44 d a b false).asSup (do
    let v ← operand 0 a fixTag
    let w ← operand 1 b userTag
    if 2047#24 < cellPay v then faultOR 0
    commit
    let m ← getM
    if m.ch.led.staging.length ≤ 12 then
      modM (fun m => { m with ch.led := { m.ch.led with
        staging := m.ch.led.staging ++ [.user ((cellPay v).setWidth 11) w m.ch.pair.holds] } })
      setD d (fixN 0)
    else setD d (fixN 1)
    return .next))

/-! ### FLXFER (R150, R151) -/

/-- A command block: kind, data offset, byte count. -/
structure FlBlock where
  cells : List Cell
  kind : Nat
  count : Nat
  buf : Nat
  deriving DecidableEq, Repr
/-- The command block at a near-store offset; none where it or a field exceeds R150. (DEDUCED, unsafe: log 51.) -/
def Mach.flBlock (m : Mach) (o : Nat) : Option FlBlock × Mach :=
  if 0x10000 < o + 4 then (none, m)
  else
    let r0 := m.nearFetch o
    let r1 := r0.2.nearFetch (o + 1)
    let r2 := r1.2.nearFetch (o + 2)
    let r3 := r2.2.nearFetch (o + 3)
    let cs := [r0.1, r1.1, r2.1, r3.1]
    let k := bits (cellPay r0.1) 8 8
    let n := bits (cellPay r2.1) 8 16
    let b := (cellPay r3.1).toNat
    if cs.all (fun v => cellTag v = tFIX) && k ≤ 2 && n ≤ 768 && b + ceilDiv n 3 ≤ 0x10000 then
      (some { cells := cs, kind := k, count := n, buf := b }, r3.2)
    else (none, r3.2)
/-- The bytes of the data buffer. -/
def Mach.flData (m : Mach) (b : FlBlock) : List Byte × Mach :=
  let get (o : Nat) (r : List Payload × Mach) : List Payload × Mach :=
    let v := r.2.nearFetch o
    (r.1 ++ [cellPay v.1], v.2)
  let r := iterN get b.buf (ceilDiv b.count 3) ([], m)
  ((unpack3 r.1).take b.count, r.2)
/-- Read data as RAW cells into the data buffer, through the unit port. -/
def Mach.flStore (m : Mach) (o : Nat) : List Payload → Mach
  | [] => m
  | p :: r => (m.cellStep .unitPort (0x80000000 + o) (raw p) false).flStore (o + 1) r
/-- The transfer: what d receives. (DEDUCED, safe: log 9.) -/
def Mach.flxfer (m : Mach) (b : FlBlock) (timedOut standbyFailed : Bool) (reply : List Byte) : Cell × Mach :=
  if b.kind = 0 then
    if timedOut then (fixN 1, m) else (fixN 0, m.flStore b.buf (pack3 (reply.take b.count)))
  else
    let r := if b.kind = 2 then m.flData b else ([], m)
    let paired := decide (m.ch.pair.role = .active)
    let m := if paired then r.2.sendMirror (.flash b.cells r.1) else r.2
    (fixN (if timedOut then 1 else if paired && standbyFailed then 2 else 0), m)
/-- FLXFER: the thread's earlier stores take their places before the command block is read (R318, R331). -/
def execFlxfer (c : Chan) (t : Fin 8) (d a : Reg) (timedOut standbyFailed : Bool) (reply : List Byte) (s : State) : Out :=
  .next (s.issue c t (iDA 0x45 d a).asSup (do
    let v ← operand 0 a fixTag
    modM (fun m => m.drainThread t)
    let b ← useM (fun m => m.flBlock (cellPay v).toNat)
    match b with
    | none => faultOR 0
    | some b =>
      commit
      let r ← useM (fun m => m.flxfer b timedOut standbyFailed reply)
      setD d r
      return .next))

/-! ### CHECKPOINT (R410, R411) -/

/-- The page of the crate set of an epoch. -/
def Mach.setBase (m : Mach) (e : BitVec 24) : Nat := (bits (winGet m.ch 0x8004) 0 22 + e.toNat % 2) * 1024
/-- The 32 cells of a crate: header, LINK NIL, INFO, 24 saved cells, FIX 0. -/
def crateImage (info : Cell) (saved : List Cell) : List Cell :=
  [crateHdr, cNIL, info] ++ saved ++ List.replicate (29 - saved.length) fix0
/-- The shadow state crate of a thread. -/
def Thread.shadowCells (th : Thread) : List Cell :=
  th.bank.toList ++ [if th.shb then reta th.shRet else fix0, fix th.shPst, (match th.shFrame with | some a => loc a | none => cNIL),
    fixN (bnat (decide (th.status = .stopped))), th.chain]
/-- Channel state I. -/
def Mach.chanCells (m : Mach) : List Cell :=
  let p := m.ch.proc
  [fix p.vbase, p.cfree, fix p.ptbase, fix p.hatbase, fix p.hatsize, fix p.regmap, fix p.nearbase,
    fixN (bnat p.icen + 2 * bnat p.dcen), fix (winGet m.ch 0x1400), fix (winGet m.ch 0x2000), fix (winGet m.ch 0x2001),
    fix (winGet m.ch 0x2005), fix (winGet m.ch 0x2006), fix (m.swLoad 0x2007), fix m.swstat]
  ++ threads.map (fun s => fix (m.swLoad (0x2010 + 4 * s.val)))
/-- Channel state II. -/
def Mach.chanCells2 (m : Mach) : List Cell :=
  threads.map (fun s => fix (m.swLoad (0x2011 + 4 * s.val))) ++ [fix (winGet m.ch 0x8001)]
/-- The cells of a thread's three crates, its PC as it resumes. -/
def Thread.crates (th : Thread) (t : Fin 8) : List Cell :=
  crateImage (fixN t.val) (th.lowerCells th.pc) ++ crateImage (fixN (8 + t.val)) th.upperCells ++ crateImage fix0 th.shadowCells
/-- The 27 crates of a set in order. -/
def Mach.crateSet (m : Mach) (me : Fin 8) (d : Reg) (e : BitVec 24) : List Cell :=
  let th (t : Fin 8) : Thread := if t = me then ((m.thr t).complete .next).setReg d (fixN 3) else m.thr t
  threads.flatMap (fun t => (th t).crates t) ++ crateImage fix0 m.chanCells ++ crateImage fix0 m.chanCells2
    ++ crateImage fix0 [fix e, fixN me.val]
/-- Write cells untranslated from a physical address up, a line a step. -/
def Mach.physLines (m : Mach) (k : Fin 2) (a : Nat) : Nat → List Cell → Mach
  | 0, _ => m
  | n + 1, vs =>
    let cells := lineOf 0 (vs.take 16)
    (match m.ch.place a with
      | .memory => m.memStep (coreAgent k) (a / 16) cells
      | .near => m.nearStep (coreAgent k) (a / 16) cells
      | _ => m).physLines k (a + 16) n (vs.drop 16)
/-- Every thread reaches a boundary: an event already raised is entered. -/
def Mach.reachBoundaries (m : Mach) (me : Fin 8) : List (Fin 8) → Mach
  | [] => m
  | t :: r =>
    (if t ≠ me && (m.thr t).sync.isSome then (m.eventEntryStack t).eventEntryShadow t else m).reachBoundaries me r
/-- Fill the upper half of every thread with LZ = 1 that is not stopped; a failing fill locks the channel up (R273). (DEDUCED, safe: log 27.) -/
def Mach.fillAll (m : Mach) : List (Fin 8) → Mach
  | [] => m
  | t :: r =>
    (if (m.thr t).lz && decide ((m.thr t).status ≠ .stopped) then
      match m.runAt t fillUpper with
      | (.ok _, m, _) => m
      | (.error _, m, a) => m.lockup t 2#4 0#10 a
    else m).fillAll r
/-- Retire every pitch of the slots of a list. -/
def Mach.retireAll (m : Mach) : List (Fin 8) → Mach
  | [] => m
  | s :: r => (m.retireIn s (fun _ => true) threads).retireAll r
/-- Return every reservation. -/
def Mach.returnAll (m : Mach) : List (Fin 8) → Mach
  | [] => m
  | t :: r => (m.returnResv t).returnAll r
/-- The epoch of the next CHECKPOINT: after the youngest marker not yet acknowledged, or the committed epoch. -/
def Pair.lastEpoch (p : Pair) : BitVec 24 :=
  p.buf.foldl (fun e x => match x.2 with | .commit k _ => k | _ => e) p.epoch
/-- The held user words. -/
def Ledger.heldWords (l : Ledger) : List (BitVec 11 × Cell) :=
  l.staging.filterMap (fun e => match e with | .user o c true => some (o, c) | _ => none)
/-- The code CHECKPOINT delivers without doing anything, if any. (DEDUCED, unsafe: log 50.) -/
def Mach.ckRefusal (m : Mach) : Option Nat :=
  match m.ch.sw.phase with
  | .select => some 2
  | .evacuate => some 2
  | .fixup => some 2
  | _ =>
    if !m.ch.pair.holds then some 4
    else if !winBit m.ch 0x8004 23 then some 5
    else none
/-- The held words not already carried by an earlier marker. -/
def Pair.carried (p : Pair) : Nat := p.buf.foldl (fun n x => match x.2 with | .commit _ w => n + w.length | _ => n) 0
/-- The capture of CHECKPOINT up to its marker, on a channel that still runs. (DEDUCED, unsafe: log 50.) -/
def Mach.capture2 (m : Mach) (t : Fin 8) (d : Reg) : Mach :=
  let e := m.ch.pair.lastEpoch + 1#24
  let m := m.retireAll threads
  let m := m.returnAll threads
  let m := m.drainAll
  let m := m.physLines (coreOf t) (m.setBase e) 54 (m.crateSet t d e)
  let words := m.ch.led.heldWords.drop m.ch.pair.carried
  (m.sendMirror (.commit e words)).setPort (m.port.marker e)
/-- CHECKPOINT. (DEDUCED, unsafe: log 50.) -/
def execCheckpoint (c : Chan) (t : Fin 8) (d : Reg) (s : State) : Out :=
  .next (s.issue c t (iD 0xD0 d).asSup (do
    match (← getM).ckRefusal with
    | some k =>
      commit
      setD d (fixN k)
      return .next
    | none =>
      commit
      modM (fun m => (m.reachBoundaries t threads).fillAll threads)
      if (← getM).ch.life.cond ≠ .running then return .stay
      modM (fun m => m.capture2 t d)
      setD d (fixN 0)
      return .next))

end Sys2Proof.Machine
end

