-- ==== Sys2Proof/Machine/Pair.lean ====
section
/-! DEFINITION. The pair: applying the mirror stream, acknowledgements and commits, loss of the standby, failover and rejoining
(R401-R421, R440, R441). -/
namespace Sys2Proof.Machine

/-! ### Health and loss (R404, R407, R409, R420) -/

/-- The health line of a channel: powered, out of reset, not halted and not in OFF (R404). (DEDUCED, unsafe: log 45.) -/
def Channel.healthy (ch : Channel) : Bool :=
  match ch.life.cond with
  | .sampling => true
  | .held => true
  | .booting => true
  | .running => true
  | .standby => true
  | _ => false
/-- Whether a channel applies a mirror stream: a standby, or a channel that joins. -/
def Role.follows : Role → Bool
  | .standby => true
  | .joining => true
  | _ => false
/-- Whether a channel sends one. -/
def Role.leads : Role → Bool
  | .active => true
  | .joiningActive => true
  | _ => false
/-- DETAIL of a class 0x0E record. -/
def pairDetail (kind : BitVec 4) (e : BitVec 24) : BitVec 32 := (kind ++ 0#4 ++ e : BitVec 32)
/-- The standby withdraws (R407, R409): it enters reset and stays there; its writer discards its queue (R89) and, its partition scanned
already, writes what follows. (DEDUCED, unsafe: log 47.) -/
def Mach.withdraw (m : Mach) (kind : BitVec 4) : Mach :=
  let e := m.ch.pair.epoch
  let r := channelReset m.ch.life.rstCause
  let m := { m with ch := { r with
    life := { r.life with cond := .keptOff, rstN := m.ch.life.rstN, good := m.ch.life.good, rails := m.ch.life.rails, en := m.ch.life.en }
    phys := physReset (m.ch.phys.memGen + 1)
    pair := { pairReset with inPair := m.ch.pair.inPair, epoch := e }
    led := { m.ch.led.reset with scan := m.ch.led.scan, snapRead := m.ch.led.snapRead } } }
  m.report 0x0E#6 false false (pairDetail kind e)
/-- The active goes on without a standby (R420): record of kind 3, vector 46, held frames and held user words released. (DEDUCED, unsafe: log 47.) -/
def Mach.loseStandby (m : Mach) (why : Nat) : Mach :=
  let m := { m with
    ch.pair := { m.ch.pair with
      role := .alone, linkUp := false, buf := [], applied := 0, tries := 0, undoOcc := 0, nearFull := false, ready := false
      backSince := none }
    ch.led := m.ch.led.release }
  let m := (m.request .pair).setPort m.port.unpair
  (m.report 0x0E#6 false false (pairDetail 3#4 m.ch.pair.epoch)).raise 46 (fixN why)
/-- The channel's partner, when the two share a mirror link: this one sends and the other applies. -/
def State.follower (s : State) (a : Chan) : Option Chan :=
  match s.partner a with
  | some p => if (s.chan a).pair.role.leads && (s.chan p).pair.role.follows then some p else none
  | none => none
/-- The channel whose stream this one applies. -/
def State.leader (s : State) (c : Chan) : Option Chan :=
  match s.partner c with
  | some a => if (s.chan a).pair.role.leads && (s.chan c).pair.role.follows then some a else none
  | none => none

/-! ### Applying records (R405, R406, R408, R412) -/

/-- The undo entry of a cell: its address and what it held; an uncorrectable cell is PSN with SOURCE 1 (R408). (DEDUCED, unsafe: log 46.) -/
def Mach.undoEntry (m : Mach) (a : Nat) : Nat × Cell :=
  (a, match m.ch.place a with
    | .near => let r := nearRead (m.nearBits (a - 0x80000000)); if r.1 = Ecc.uncorrectable then psn 1#4 else r.2
    | _ => m.peek a)
/-- Log the cells a record is about to write, in write order. -/
def Mach.logUndo (m : Mach) : List Nat → Mach
  | [] => m
  | a :: r => ({ m with ch.pair.undo := m.undoEntry a :: m.ch.pair.undo }).logUndo r
/-- Log where the channel is a standby. (DEDUCED, unsafe: log 46.) -/
def Mach.logUndoIf (m : Mach) (as : List Nat) : Mach := if m.ch.pair.role = .standby then m.logUndo as else m
/-- Write cells of a line through the unit port. -/
def Mach.portWrite (m : Mach) (l : Nat) (cells : NMap Cell) : Mach :=
  let cs := cells.map (fun (e : Nat × Cell) => (e.1, e.2, false))
  match m.ch.place (l * 16) with
  | .memory => m.memStep .unitPort l cs
  | .near => m.nearStep .unitPort l cs
  | _ => m
/-- The merge of a BYTE record (R393, R408). -/
def Mach.mergeByte (m : Mach) (a : Nat) (j : Fin 3) (b : Byte) : Mach :=
  match m.ch.place a with
  | .memory =>
    let e := eccRead a (m.memBits a)
    match e.1 with
    | .uncorrectable => (m.memStep .unitPort (a / 16) [(a % 16, psn 2#4, false)]).reportUe a false false true
    | k =>
      let poisoned := decide (cellTag e.2 = tPSN)
      if poisoned && k = Ecc.clean then m
      else
        let m := m.memStep .unitPort (a / 16) [(a % 16, if poisoned then e.2 else withByte e.2 j.val b.toNat, false)]
        if k = Ecc.correctable then m.reportCe a false false else m
  | .near =>
    let r := m.nearFetch (a - 0x80000000)
    if cellTag r.1 = tPSN then r.2 else r.2.nearStep .unitPort (a / 16) [(a % 16, withByte r.1 j.val b.toNat, false)]
  | _ => m
/-- The pair record is requested after a commit, at most once per 1,024 slow-clock periods; a commit inside that window requests none, then
or later (R78). (DESIGN CHOICE, unsafe: log 62.) -/
def Mach.epochRecord (m : Mach) : Mach :=
  let now := m.ch.clk.tb.toNat
  if m.ch.pair.recTime + 1024 ≤ now then ({ m with ch.pair.recTime := now }).request .pair else m
/-- The commit on the standby (R412): log emptied, epoch recorded, user words due in its queue of 16 (R88); the first commit of a joining channel forms
the pair (R421). -/
def Mach.commitHere (m : Mach) (e : BitVec 24) (words : List (BitVec 11 × Cell)) : Mach :=
  let joins := decide (m.ch.pair.role = .joining)
  let m := { m with
    ch.pair := { m.ch.pair with undo := [], epoch := e, formation := false, role := .standby, linkUp := true }
    ch.led := ({ m.ch.led with due := m.ch.led.due ++ words }).takeDue }
  if joins then
    let m := { m with ch.life := { m.ch.life with cond := .standby, faultN := true }, ch.pair.recTime := m.ch.clk.tb.toNat }
    (m.request .pair).report 0x0E#6 false false (pairDetail 1#4 e)
  else m.epochRecord
/-- One record applied by the channel that follows. -/
def Mach.applyRecord (m : Mach) : MirrorRec → Mach
  | .store l cells => (m.logUndoIf (cells.map (fun (e : Nat × Cell) => l * 16 + e.1))).portWrite l cells
  | .byte a j b => (m.logUndoIf [a]).mergeByte a j b
  | .copy l line => m.portWrite l (line.toList.zipIdx.map (fun (e : Cell × Nat) => (e.2, e.1)))
  | .commit e words => m.commitHere e words
  | .boot => { m with ch.boot := { m.ch.boot.mark with good := m.ch.boot.good } }.request .boot
  | .flash _ _ => m
  | .idle => m
/-- The next record the follower receives: a COMMIT is transmitted only when every earlier record has been acknowledged (R411). -/
def Pair.next (p : Pair) : Option MirrorRec :=
  match p.buf[p.applied]? with
  | some (_, .commit e w) => if p.applied = 0 then some (.commit e w) else none
  | some (_, r) => some r
  | none => none
/-- Apply the next record: on the follower, then on the leader's link, and at a COMMIT in the square (R412). PRESUMED (log 15): the
standby learns CKBASE with the COMMIT record. (PRESUMED, unsafe: log 15.) -/
def State.applyNext (s : State) (c a : Chan) : State :=
  match (s.chan a).pair.next with
  | none => s
  | some r =>
    let page := winGet (s.chan a) 0x8004
    let s := s.onMach c (fun m => m.applyRecord r)
    let s := s.onMach a (fun m => { m with ch.pair.applied := m.ch.pair.applied + 1 })
    match r with
    | .commit e _ =>
      let s := s.onMach c (fun m => { m with ch := winPut m.ch 0x8004 page })
      if s.square.up then s.onMach a (fun m => m.setPort (m.port.commit e)) else s
    | _ => s
/-- MIRROR_RECORD_APPLY: a record arrives; one whose CRC fails is not applied. -/
def execMirrorRecordApply (c : Chan) (crcOk : Bool) (s : State) : Out :=
  .next (match s.leader c with
    | some a => if crcOk then s.applyNext c a else s
    | none => s)

/-! ### Acknowledgements (R406, R409, R412) -/

/-- Whether a sequence number is another one or older, by serial-number arithmetic. -/
def seqLe (a b : BitVec 24) : Bool := a = b || newer b a
/-- The records in flight: up to a marker that is not the oldest. -/
def Pair.inFlight (p : Pair) : Nat :=
  let plain (x : BitVec 24 × MirrorRec) : Bool := match x.2 with | .commit _ _ => false | _ => true
  match p.buf with
  | [] => 0
  | _ :: r => 1 + (r.takeWhile plain).length
/-- Release the n oldest held user words. -/
def releaseN : Nat → List Staged → List Staged
  | _, [] => []
  | 0, l => l
  | n + 1, .user o c true :: r => .user o c false :: releaseN n r
  | n + 1, x :: r => x :: releaseN (n + 1) r
/-- The active learns of the commit of an epoch that carried n user words: PREPOCH, vector 42, the words of its own user area, and
a joining partner becomes the standby (R412, R421). -/
def Mach.commitAcked (m : Mach) (e : BitVec 24) (n : Nat) : Mach :=
  let forms := decide (m.ch.pair.role = .joiningActive)
  let m := { m.bumpC 48 with
    ch.pair := { m.ch.pair with
      role := .active, epoch := e, formation := false, nearFull := false, ready := false, lastCommit := m.ch.clk.tb.toNat }
    ch.led := { m.ch.led with staging := releaseN n m.ch.led.staging } }
  let m := m.raiseIf (winBit m.ch 0x8001 1) 42 (fix e)
  if forms then
    (({ m with ch.pair.recTime := m.ch.clk.tb.toNat }).request .pair).report 0x0E#6 false false (pairDetail 0#4 e)
  else m.epochRecord
/-- The commits among acknowledged records. -/
def Mach.ackRecords (m : Mach) : List (BitVec 24 × MirrorRec) → Mach
  | [] => m
  | (_, .commit e w) :: r => (m.commitAcked e w.length).ackRecords r
  | _ :: r => m.ackRecords r
/-- The occupancy the standby reports: vector 41 once per epoch, and back-pressure (R409). (DEDUCED, unsafe: log 49.) -/
def Mach.occupancy (m : Mach) (occ : Nat) : Mach :=
  let p := m.ch.pair
  let near := decide (1572864 ≤ occ)
  let m := { m with ch.pair := { p with
    undoOcc := occ, nearFull := p.nearFull || near
    backSince := if 2080768 ≤ occ then some (p.backSince.getD m.ch.clk.tb.toNat) else none } }
  m.raiseIf (near && !p.nearFull && winBit m.ch 0x8001 0) 41 fix0
/-- An acknowledgement of every record up to a number that the standby has applied. -/
def Mach.acked (m : Mach) (seq : BitVec 24) (occ : Nat) : Mach :=
  let p := m.ch.pair
  let k := ((p.buf.take p.applied).filter (fun x => seqLe x.1 seq)).length
  let m := { m with ch.pair := { p with
    buf := p.buf.drop k, applied := p.applied - k, tries := if k = 0 then p.tries else 0, linkUp := true } }
  (m.ackRecords (p.buf.take k)).occupancy occ
/-- A negative acknowledgement: the records in flight are sent again. -/
def Mach.nacked (m : Mach) : Mach :=
  let p := m.ch.pair
  let n := p.inFlight
  { m.bumpBy (192 + 46) n with ch.pair := { p with tries := p.tries + 1, resends := satAdd p.resends n } }
/-- MIRROR_ACKNOWLEDGEMENT. -/
def execMirrorAcknowledgement (c : Chan) (seq : BitVec 24) (negative : Bool) (s : State) : Out :=
  .next (match s.follower c with
    | some p => if (s.chan c).life.cond ≠ .running then s
      else s.onMach c (fun m => if negative then m.nacked else m.acked seq (s.chan p).pair.undo.length)
    | none => s)
/-- MIRROR_IDLE_RECORD: the command names a link silent for 1 µs. (DESIGN CHOICE, unsafe: log 7.) -/
def execMirrorIdleRecord (c : Chan) (s : State) : Out :=
  .next (s.onMach c (fun m => if m.ch.life.cond = .running && m.ch.pair.role.leads && !m.heldBack then m.sendMirror .idle else m))
/-- EPOCH_OVERDUE: 50 ms, 1,638 slow-clock periods, without a commit (R413). (DESIGN CHOICE, unsafe: log 7.) -/
def Mach.epochOverdue (m : Mach) : Mach :=
  let p := m.ch.pair
  let now := m.ch.clk.tb.toNat
  if m.ch.life.cond = .running && p.role = .active && p.lastCommit + 1638 ≤ now then
    let m := { m with ch.pair.lastCommit := now }
    (m.report 0x0E#6 false false (pairDetail 4#4 p.epoch)).raiseIf (winBit m.ch 0x8001 2) 43 (fix p.epoch)
  else m
/-- EPOCH_OVERDUE. -/
def execEpochOverdue (c : Chan) (s : State) : Out := .next (s.onMach c Mach.epochOverdue)
/-- PAIR_BREAK: back-pressure for 2 ms, 65 slow-clock periods, without a commit (R409). (DESIGN CHOICE, unsafe: log 7.) -/
def execPairBreak (c : Chan) (s : State) : Out :=
  .next (match s.follower c, (s.chan c).pair.backSince with
    | some p, some t =>
      if (s.chan c).life.cond = .running && decide (t + 65 ≤ (s.chan c).clk.tb.toNat) then
        (s.onMach p (fun m => m.withdraw 5#4)).onMach c (fun m => m.loseStandby 2)
      else s
    | _, _ => s)
/-- STANDBY_LOSS: the health line of the standby, or of the joining partner, has read failed for 4 µs (R420, log 7). (DESIGN CHOICE, unsafe: log 7.) -/
def execStandbyLoss (c : Chan) (s : State) : Out :=
  .next (match s.partner c with
    | some p =>
      let lost := !(s.chan p).healthy || !(s.chan p).pair.role.follows
      if (s.chan c).life.cond = .running && (s.chan c).pair.role.leads && lost then s.onMach c (fun m => m.loseStandby 0) else s
    | none => s)

/-! ### Rejoining (R421) -/

/-- JOIN_REQUEST: a channel that has verified its slot joins a partner that runs as an active without a standby. -/
def execJoinRequest (c : Chan) (s : State) : Out :=
  .next (match s.partner c with
    | some a =>
      let ch := s.chan c
      let q := s.chan a
      if ch.life.cond = .booting && ch.pair.role = .joining && q.life.cond = .running && q.pair.role = .alone then
        let s := s.onMach a (fun m => { m with ch.pair := { m.ch.pair with
          role := .joiningActive, linkUp := true, copied := 0, ready := false, buf := [], applied := 0, tries := 0 } })
        s.onMach c (fun m => { m with ch.pair := { m.ch.pair with linkUp := true, undo := [] } })
      else s
    | none => s)
/-- Every record outstanding is applied and acknowledged. -/
def State.settleStream (s : State) (c a : Chan) : Nat → State
  | 0 => s
  | n + 1 =>
    let s := s.applyNext c a
    (s.onMach a (fun m => match m.ch.pair.buf with
      | (q, _) :: _ => m.acked q (s.chan c).pair.undo.length
      | [] => m)).settleStream c a n
/-- One line of the copy: read on the active, written on the joining channel without undo. -/
def State.copyLine (s : State) (c a : Chan) (n : Nat) : State :=
  let l := (s.chan a).copyLine n
  let r := (s.mach a).portLine l
  let s := s.onMach a (fun _ => { r.2 with
    ch.pair := { r.2.ch.pair with copied := n + 1, nextSeq := r.2.ch.pair.nextSeq + 1#24 } })
  (s.onMach a (fun m => m.bumpC 45)).onMach c (fun m => m.applyRecord (.copy l r.1))
/-- COPY_COMPLETE: what is left of the copy is made (log 6), and PRSTAT.READY reads 1. (DEDUCED, unsafe: log 6.) -/
def execCopyComplete (c : Chan) (s : State) : Out :=
  .next (match s.follower c with
    | some p =>
      let ch := s.chan c
      if (s.mach c).fastOn && ch.pair.role = .joiningActive && !ch.pair.ready then
        let s := s.settleStream p c ch.pair.buf.length
        let s := iterN (fun i s => State.copyLine s p c i) ch.pair.copied (ch.copyLines - ch.pair.copied) s
        s.onMach c (fun m => { m with ch.pair := { m.ch.pair with copied := m.ch.copyLines, ready := true } })
      else s
    | none => s)

/-! ### Failover (R414-R419, R441) -/

/-- Undo entries are applied newest first. -/
def Mach.rollBack (m : Mach) : List (Nat × Cell) → Mach
  | [] => m
  | (a, v) :: r => (m.cellStep .unitPort a v false).rollBack r
/-- n cells at a physical address, read through the unit port. -/
def Mach.readCells (m : Mach) (a : Nat) : Nat → List Cell × Mach
  | 0 => ([], m)
  | n + 1 =>
    let r := m.physRead .unitPort a
    let q := r.2.readCells (a + 1) n
    (r.1 :: q.1, q.2)
/-- The 32 cells of crate k of the set just read. -/
def crateOf (cs : List Cell) (k : Nat) : List Cell := (cs.drop (32 * k)).take 32
/-- Saved cell i of a crate. -/
def savedAt (crate : List Cell) (i : Nat) : Cell := crate.getD (3 + i) fix0
/-- LOC as a frame; NIL or anything else is none. -/
def frameOfCell (v : Cell) : Option VAddr := if cellTag v = tLOC then some (cellPay v) else none
/-- A thread from its three crates (R416). -/
def restoreThread (lo up sh : List Cell) : Thread :=
  let p (c : List Cell) (i : Nat) : Payload := cellPay (savedAt c i)
  { threadReset with
    regs := loadRegs (loadRegs threadReset.regs 0 ((lo.drop 3).take 16)) 16 ((up.drop 3).take 16)
    bank := Vector.ofFn (fun i : Fin 16 => savedAt sh i.val)
    acc := accOf (p up 16) (p up 17) (p up 18), loopC := p up 19, loopS := p up 20, loopE := p up 21
    pc := p lo 16, pstate := p lo 17, spU := savedAt lo 18, spS := savedAt lo 19, chain := savedAt sh 20
    asid := (p lo 20).setWidth 8, frame := frameOfCell (savedAt lo 21), shlvl := bit (p lo 22) 0
    shRet := p sh 16, shPst := p sh 17, shFrame := frameOfCell (savedAt sh 18)
    status := if bit (p sh 19) 0 then .stopped else .running }
/-- Whether the set is that of an epoch: 27 headers and the epoch record. -/
def setOk (cs : List Cell) (e : BitVec 24) : Bool :=
  (upFrom 0 27).all (fun k => (crateOf cs k).getD 0 fix0 = crateHdr) && decide (savedAt (crateOf cs 26) 0 = fix e)
/-- A slot as its SPCTL and SIDEBASE cells give it, with its map from memory when it is enabled. (DEDUCED, unsafe: log 48.) -/
def Mach.restoreSlot (m : Mach) (s : Fin 8) (ctl side : Payload) : Mach :=
  let m := m.setSlot s { slotReset with en := bit ctl 23, logovf := bit ctl 22, asid := ctl.extractLsb' 0 8, side := side.extractLsb' 0 22 }
  if bit ctl 23 then
    let map := mapOf ((m.mapCells s).getD [])
    let m := m.readMapLines s
    m.setSlot s { m.slot s with map := map, handed := map.filterMap (fun (e : Nat × Payload) => if entryKind e.2 = kNURSERY then some (e.1, 64) else none) }
  else m
/-- Slots in turn. -/
def Mach.restoreSlots (m : Mach) (ctl side : Nat → Payload) : List (Fin 8) → Mach
  | [] => m
  | s :: r => (m.restoreSlot s (ctl s.val) (side s.val)).restoreSlots ctl side r
/-- The set mark cells of a slot (R340). -/
def Mach.markCells (m : Mach) (s : Fin 8) : List Nat :=
  (upFrom ((m.slot s).side.toNat * 1024) 0x80000).filter (fun a => m.peek a ≠ raw 0#24)
/-- The sweeper as SWSTAT shows it: a cycle in ROOTS or MARK is abandoned with cause 5 (R416). -/
def Mach.restoreSweep (m : Mach) (stat : Payload) : Mach :=
  let ph := bits stat 21 3
  let m := { m with ch.sw := { m.ch.sw with full := bit stat 20, slot := Fin.ofNat 8 (bits stat 17 3) } }
  if ph = 1 || ph = 2 then
    let m := { m with ch.sw := { m.ch.sw with phase := (if ph = 1 then .roots else .mark), marks := m.markCells m.ch.sw.slot } }
    m.swAbandon 5#3
  else if ph = 6 then { m with ch.sw.phase := .stopped }
  else m
/-- Write window registers. -/
def Mach.putWins (m : Mach) : List (Nat × Payload) → Mach
  | [] => m
  | (o, v) :: r => ({ m with ch := winPut m.ch o v }).putWins r
/-- Steps 3 and 4 of R416 from the cells of the set. -/
def Mach.restore (m : Mach) (cs : List Cell) : Mach :=
  let one := crateOf cs 24
  let two := crateOf cs 25
  let c (i : Nat) : Cell := savedAt one i
  let p (i : Nat) : Payload := cellPay (savedAt one i)
  let m := (m.loadVbase 0 (p 0)).2
  let m := { m with ch.proc := { m.ch.proc with
    cfree := c 1, ptbase := p 2, hatbase := p 3, hatsize := p 4, regmap := p 5, nearbase := p 6, icen := bit (p 7) 0, dcen := bit (p 7) 1 } }
  let m := m.putWins [(0x1400, p 8), (0x2000, p 9), (0x2001, p 10), (0x2005, p 11), (0x2006, p 12),
    (0x8001, cellPay (savedAt two 8)), (0x8004, 0#24)]
  let m := { m with ch.sw := { m.ch.sw with logHead := (p 13).extractLsb' 14 10, logOcc := (p 13).extractLsb' 0 11 } }
  let m := m.restoreSlots (fun i => p (15 + i)) (fun i => cellPay (savedAt two i)) threads
  let m := { m with ch.thr := Vector.ofFn (fun t : Fin 8 =>
    restoreThread (crateOf cs (3 * t.val)) (crateOf cs (3 * t.val + 1)) (crateOf cs (3 * t.val + 2))) }
  m.restoreSweep (p 14)
/-- The committed state of the new active: the formation state, or the crate set of its epoch; none where the set does not check
(R414, R416). -/
def Mach.committed (m : Mach) : Option Mach :=
  if m.ch.pair.formation then
    some (match m.ch.boot.image with
      | some i => { m with ch.thr := (Vector.replicate 8 threadReset).set 0 (bootThread i.entry i.stack) }
      | none => m)
  else
    let m := (m.clearCaches true true).clearStrides
    let m := { m with ch.proc.invd := true }
    let e := m.ch.pair.epoch
    let r := m.readCells (m.setBase e) 864
    if setOk r.1 e then some (r.2.restore r.1) else none
/-- Roll back and restore (steps 3 to 5 of Table 18.4). -/
def Mach.recover (m : Mach) : Option Mach :=
  let u := m.ch.pair.undo
  let m := ({ m with ch.pair.undo := [] }).rollBack u
  m.committed
/-- Steps 6 and 7: the new active with its record, counts and condition. (DEDUCED, unsafe: log 48.) -/
def Mach.becomeActive (m : Mach) : Mach :=
  let now := m.ch.clk.tb.toNat
  let e := m.ch.pair.epoch
  let m := { m with
    ch.pair := { m.ch.pair with role := .alone, epoch := e + 1#24, linkUp := false, recTime := now, lastCommit := now }
    ch.life := { m.ch.life with cond := .running, power := .run, gated := 0#2, faultN := true, alone46 := false }
    ch.clk := { m.ch.clk with wdRun := true, wdCount := 0, wdWarned := false } }
  let m := (m.request .pair).count (fun c => { c with failovers := satInc c.failovers })
  (m.report 0x0E#6 false false (pairDetail 2#4 (e + 1#24))).raise 46 (fixN 4)
/-- A port that has given its identity away: only last-gasp frames that wait stay. -/
def Port.given (p : Port) : Port :=
  { p with
    queue := [], ring := [], filters := [], gasp := Vector.replicate 3 none, armed := false, replay := [], marks := [], handover := []
    wasFull := false }
/-- The square moves the identity of the failed active (R441). -/
def State.handOver (s : State) (a c : Chan) : State :=
  if s.square.up then
    let p := s.square.ports[a]
    let s := s.onMach a (fun m => m.setPort p.given)
    s.onMach c (fun m => (m.setPort p.moved).feed 512)
  else s
/-- The failed active's end of the pair: the link closes and the words it holds for an epoch are never written. -/
def Mach.failed (m : Mach) : Mach :=
  if m.ch.pair.role.leads then
    { m with
      ch.pair := { m.ch.pair with role := .independent, linkUp := false, buf := [], applied := 0 }
      ch.led := m.ch.led.dropHeld }
  else m
/-- The standby takes over from a failed active; a joining channel, or one whose crate set does not check, resets itself (R415, R416,
R421). -/
def State.failover (s : State) (c a : Chan) : State :=
  let s := s.onMach a (fun m => m.lastGasp.failed)
  if (s.chan c).pair.role = .joining then s.onMach c (fun m => m.reset m.ch.life.rstCause)
  else match (s.mach c).recover with
    | none => s.onMach c (fun m => m.reset m.ch.life.rstCause)
    | some m => ((s.onMach c (fun _ => m)).onMach c Mach.becomeActive).handOver a c
/-- Whether the health line of the active has failed, or the active has been reset since. -/
def State.activeFailed (s : State) (a : Chan) : Bool := !(s.chan a).healthy || !(s.chan a).pair.role.leads
/-- FAILOVER: the active's health line has read failed for 4 µs. (DESIGN CHOICE, unsafe: log 7.) -/
def execFailover (c : Chan) (s : State) : Out :=
  .next (match s.partner c with
    | some a =>
      let follows : Bool := (s.chan c).pair.role.follows && (s.chan c).pair.linkUp
      if follows && s.activeFailed a then s.failover c a else s
    | none => s)
/-- LINK_FAILURE: 16 resends or 20 µs without acknowledgement, with records outstanding (R407, log 7). (DESIGN CHOICE, unsafe: log 7.) -/
def execLinkFailure (c : Chan) (s : State) : Out :=
  .next (match s.follower c with
    | some p =>
      if (s.chan c).pair.buf.isEmpty then s
      else if (s.chan c).healthy then (s.onMach p (fun m => m.withdraw 3#4)).onMach c (fun m => m.loseStandby 1)
      else s.failover p c
    | none => s)

end Sys2Proof.Machine
end

