-- ==== Sys2Proof/Machine/Dispatch.lean ====
section
/-! DEFINITION. One arm per command: its meaning. -/
namespace Sys2Proof.Machine

/-- The effect of a command on everything but the queue. -/
def exec (i : Instr) (s : State) : Host.Outcome State Fault Refusal :=
  match i with
  | .nop c t => Sys2Proof.Machine.execNop c t s
  | .mov c t d a => Sys2Proof.Machine.execMov c t d a s
  | .movi c t d imm => Sys2Proof.Machine.execMovi c t d imm s
  | .ldk c t d imm => Sys2Proof.Machine.execLdk c t d imm s
  | .tagof c t d a => Sys2Proof.Machine.execTagof c t d a s
  | .tageq c t d a imm => Sys2Proof.Machine.execTageq c t d a imm s
  | .tagset c t d a imm => Sys2Proof.Machine.execTagset c t d a imm s
  | .cdrof c t d a => Sys2Proof.Machine.execCdrof c t d a s
  | .iadd c t d a b => Sys2Proof.Machine.execIadd c t d a b s
  | .isub c t d a b => Sys2Proof.Machine.execIsub c t d a b s
  | .iaddi c t d a imm => Sys2Proof.Machine.execIaddi c t d a imm s
  | .opAnd c t d a b => Sys2Proof.Machine.execOpAnd c t d a b s
  | .opOr c t d a b => Sys2Proof.Machine.execOpOr c t d a b s
  | .opXor c t d a b => Sys2Proof.Machine.execOpXor c t d a b s
  | .andi c t d a imm => Sys2Proof.Machine.execAndi c t d a imm s
  | .shl c t d a b => Sys2Proof.Machine.execShl c t d a b s
  | .shr c t d a b => Sys2Proof.Machine.execShr c t d a b s
  | .sar c t d a b => Sys2Proof.Machine.execSar c t d a b s
  | .shli c t d a imm => Sys2Proof.Machine.execShli c t d a imm s
  | .shri c t d a imm => Sys2Proof.Machine.execShri c t d a imm s
  | .sari c t d a imm => Sys2Proof.Machine.execSari c t d a imm s
  | .opEq c t d a b v => Sys2Proof.Machine.execOpEq c t d a b v s
  | .ilt c t d a b v => Sys2Proof.Machine.execIlt c t d a b v s
  | .ult c t d a b v => Sys2Proof.Machine.execUlt c t d a b v s
  | .ld c t d a imm => Sys2Proof.Machine.execLd c t d a imm s
  | .ldx c t d a b => Sys2Proof.Machine.execLdx c t d a b s
  | .st c t d a imm => Sys2Proof.Machine.execSt c t d a imm s
  | .stx c t d a b => Sys2Proof.Machine.execStx c t d a b s
  | .cas c t d a b => Sys2Proof.Machine.execCas c t d a b s
  | .ldb c t d a b => Sys2Proof.Machine.execLdb c t d a b s
  | .stb c t d a b => Sys2Proof.Machine.execStb c t d a b s
  | .locof c t d a b => Sys2Proof.Machine.execLocof c t d a b s
  | .fence c t => Sys2Proof.Machine.execFence c t s
  | .push c t d => Sys2Proof.Machine.execPush c t d s
  | .pop c t d => Sys2Proof.Machine.execPop c t d s
  | .ldsp c t d imm => Sys2Proof.Machine.execLdsp c t d imm s
  | .stsp c t d imm => Sys2Proof.Machine.execStsp c t d imm s
  | .addsp c t imm => Sys2Proof.Machine.execAddsp c t imm s
  | .j c t off => Sys2Proof.Machine.execJ c t off s
  | .call c t off => Sys2Proof.Machine.execCall c t off s
  | .bt c t d off => Sys2Proof.Machine.execBt c t d off s
  | .bf c t d off => Sys2Proof.Machine.execBf c t d off s
  | .jmpr c t a => Sys2Proof.Machine.execJmpr c t a s
  | .callr c t d a => Sys2Proof.Machine.execCallr c t d a s
  | .ret c t a => Sys2Proof.Machine.execRet c t a s
  | .loop c t d off => Sys2Proof.Machine.execLoop c t d off s
  | .wait c t a => Sys2Proof.Machine.execWait c t a s
  | .sig c t a => Sys2Proof.Machine.execSig c t a s
  | .svc c t imm => Sys2Proof.Machine.execSvc c t imm s
  | .rete c t => Sys2Proof.Machine.execRete c t s
  | .uenter c t a => Sys2Proof.Machine.execUenter c t a s
  | .tstart c t d a b => Sys2Proof.Machine.execTstart c t d a b s
  | .thalt c t => Sys2Proof.Machine.execThalt c t s
  | .mfs c t d imm => Sys2Proof.Machine.execMfs c t d imm s
  | .mts c t d imm => Sys2Proof.Machine.execMts c t d imm s
  | .mtsVbase c t d => Sys2Proof.Machine.execMtsVbase c t d s
  | .wdkick c t => Sys2Proof.Machine.execWdkick c t s
  | .lgread c t d a => Sys2Proof.Machine.execLgread c t d a s
  | .lgwrite c t d a b => Sys2Proof.Machine.execLgwrite c t d a b s
  | .flxfer c t d a timedOut standbyFailed reply => Sys2Proof.Machine.execFlxfer c t d a timedOut standbyFailed reply s
  | .add c t d a b => Sys2Proof.Machine.execAdd c t d a b s
  | .sub c t d a b => Sys2Proof.Machine.execSub c t d a b s
  | .mul c t d a b => Sys2Proof.Machine.execMul c t d a b s
  | .fdiv c t d a b => Sys2Proof.Machine.execFdiv c t d a b s
  | .quo c t d a b => Sys2Proof.Machine.execQuo c t d a b s
  | .rem c t d a b => Sys2Proof.Machine.execRem c t d a b s
  | .neg c t d a => Sys2Proof.Machine.execNeg c t d a s
  | .addi c t d a imm => Sys2Proof.Machine.execAddi c t d a imm s
  | .numeq c t d a b v => Sys2Proof.Machine.execNumeq c t d a b v s
  | .numlt c t d a b v => Sys2Proof.Machine.execNumlt c t d a b v s
  | .tosf c t d a => Sys2Proof.Machine.execTosf c t d a s
  | .tof32 c t d a => Sys2Proof.Machine.execTof32 c t d a s
  | .trunc c t d a => Sys2Proof.Machine.execTrunc c t d a s
  | .fadd c t d a b => Sys2Proof.Machine.execFadd c t d a b s
  | .fsub c t d a b => Sys2Proof.Machine.execFsub c t d a b s
  | .fmul c t d a b => Sys2Proof.Machine.execFmul c t d a b s
  | .fdv c t d a b => Sys2Proof.Machine.execFdv c t d a b s
  | .alloc c t d a imm => Sys2Proof.Machine.execAlloc c t d a imm s
  | .allocl c t d a imm => Sys2Proof.Machine.execAllocl c t d a imm s
  | .alloclBodyFill c t => Sys2Proof.Machine.execAlloclBodyFill c t s
  | .zline c t a b => Sys2Proof.Machine.execZline c t a b s
  | .car c t d a => Sys2Proof.Machine.execCar c t d a s
  | .opCdr c t d a => Sys2Proof.Machine.execOpCdr c t d a s
  | .opCons c t d a b => Sys2Proof.Machine.execOpCons c t d a b s
  | .opList c t d a imm => Sys2Proof.Machine.execOpList c t d a imm s
  | .rplacd c t a b => Sys2Proof.Machine.execRplacd c t a b s
  | .endp c t d a => Sys2Proof.Machine.execEndp c t d a s
  | .mac c t a b v => Sys2Proof.Machine.execMac c t a b v s
  | .macs c t a b v => Sys2Proof.Machine.execMacs c t a b v s
  | .accz c t => Sys2Proof.Machine.execAccz c t s
  | .accget c t d imm => Sys2Proof.Machine.execAccget c t d imm s
  | .savel c t imm => Sys2Proof.Machine.execSavel c t imm s
  | .saveu c t => Sys2Proof.Machine.execSaveu c t s
  | .loadl c t => Sys2Proof.Machine.execLoadl c t s
  | .loadu c t => Sys2Proof.Machine.execLoadu c t s
  | .tlbinv c t a imm => Sys2Proof.Machine.execTlbinv c t a imm s
  | .tlbprobe c t d a => Sys2Proof.Machine.execTlbprobe c t d a s
  | .cacheon c t imm => Sys2Proof.Machine.execCacheon c t imm s
  | .cacheoff c t imm => Sys2Proof.Machine.execCacheoff c t imm s
  | .cinvall c t => Sys2Proof.Machine.execCinvall c t s
  | .crange c t d a b => Sys2Proof.Machine.execCrange c t d a b s
  | .rangeEngineDone c => Sys2Proof.Machine.execRangeEngineDone c s
  | .rootscan c t => Sys2Proof.Machine.execRootscan c t s
  | .checkpoint c t d => Sys2Proof.Machine.execCheckpoint c t d s
  | .pmread c t d a => Sys2Proof.Machine.execPmread c t d a s
  | .eventEntryStack c t => Sys2Proof.Machine.execEventEntryStack c t s
  | .eventEntryShadow c t => Sys2Proof.Machine.execEventEntryShadow c t s
  | .holdWindowExpiry c t => Sys2Proof.Machine.execHoldWindowExpiry c t s
  | .stalemate c => Sys2Proof.Machine.execStalemate c s
  | .heal c => Sys2Proof.Machine.execHeal c s
  | .lineFill c k dcache => Sys2Proof.Machine.execLineFill c k dcache s
  | .prefetchArrival c k dcache => Sys2Proof.Machine.execPrefetchArrival c k dcache s
  | .writeBufferDrain c k => Sys2Proof.Machine.execWriteBufferDrain c k s
  | .turnstileGrant c => Sys2Proof.Machine.execTurnstileGrant c s
  | .wakeTimerArm c n => Sys2Proof.Machine.execWakeTimerArm c n s
  | .wakeTimerDisarm c n => Sys2Proof.Machine.execWakeTimerDisarm c n s
  | .wakeTimerExpiry c n => Sys2Proof.Machine.execWakeTimerExpiry c n s
  | .fastTimerArm c n pre periodic => Sys2Proof.Machine.execFastTimerArm c n pre periodic s
  | .fastTimerDisarm c n pre periodic => Sys2Proof.Machine.execFastTimerDisarm c n pre periodic s
  | .fastTimerExpiry c n => Sys2Proof.Machine.execFastTimerExpiry c n s
  | .tblRead c t => Sys2Proof.Machine.execTblRead c t s
  | .pwrstatRead c => Sys2Proof.Machine.execPwrstatRead c s
  | .idleEntry c k => Sys2Proof.Machine.execIdleEntry c k s
  | .dozeEntry c => Sys2Proof.Machine.execDozeEntry c s
  | .sleepEntry c => Sys2Proof.Machine.execSleepEntry c s
  | .wake c => Sys2Proof.Machine.execWake c s
  | .preWake c => Sys2Proof.Machine.execPreWake c s
  | .pwrctlOff c key => Sys2Proof.Machine.execPwrctlOff c key s
  | .supplyMonitorWarning c rail reading => Sys2Proof.Machine.execSupplyMonitorWarning c rail reading s
  | .supplyMonitorOff c rail reading => Sys2Proof.Machine.execSupplyMonitorOff c rail reading s
  | .vtxDriveRestored c => Sys2Proof.Machine.execVtxDriveRestored c s
  | .offReturn c => Sys2Proof.Machine.execOffReturn c s
  | .monitorReadingUpdate c vdd vddq vaon vio vtx tj => Sys2Proof.Machine.execMonitorReadingUpdate c vdd vddq vaon vio vtx tj s
  | .referenceClockFault c count => Sys2Proof.Machine.execReferenceClockFault c count s
  | .slowClockTrim c trim tj => Sys2Proof.Machine.execSlowClockTrim c trim tj s
  | .porReset => Sys2Proof.Machine.execPorReset s
  | .pinReset c => Sys2Proof.Machine.execPinReset c s
  | .releaseOfReset c => Sys2Proof.Machine.execReleaseOfReset c s
  | .chnEnSample c level => Sys2Proof.Machine.execChnEnSample c level s
  | .ledgerSnapshotRead o => Sys2Proof.Machine.execLedgerSnapshotRead o s
  | .strapMeasurement c pin phase0 c0 c1 c2 c3 => Sys2Proof.Machine.execStrapMeasurement c pin phase0 c0 c1 c2 c3 s
  | .squareStrapMeasurement pin phase0 c0 c1 c2 c3 => Sys2Proof.Machine.execSquareStrapMeasurement pin phase0 c0 c1 c2 c3 s
  | .monitoringRound o codes => Sys2Proof.Machine.execMonitoringRound o codes s
  | .driftctl c value => Sys2Proof.Machine.execDriftctl c value s
  | .ledgerScan o => Sys2Proof.Machine.execLedgerScan o s
  | .stagingQueueArrival o cls spec flag detail => Sys2Proof.Machine.execStagingQueueArrival o cls spec flag detail s
  | .ledgerWordWrite o firstOk secondOk => Sys2Proof.Machine.execLedgerWordWrite o firstOk secondOk s
  | .bootgood c => Sys2Proof.Machine.execBootgood c s
  | .pinclr c => Sys2Proof.Machine.execPinclr c s
  | .flashDiscovery c found density modes => Sys2Proof.Machine.execFlashDiscovery c found density modes s
  | .flashTransactionTimeout c => Sys2Proof.Machine.execFlashTransactionTimeout c s
  | .slotAttempt c hdr0 hdr1 => Sys2Proof.Machine.execSlotAttempt c hdr0 hdr1 s
  | .slotLoad c image => Sys2Proof.Machine.execSlotLoad c image s
  | .bootRetry c => Sys2Proof.Machine.execBootRetry c s
  | .imageApply c => Sys2Proof.Machine.execImageApply c s
  | .firstInstruction c => Sys2Proof.Machine.execFirstInstruction c s
  | .fullTraining c sub failStep temp rfmA rfmB => Sys2Proof.Machine.execFullTraining c sub failStep temp rfmA rfmB s
  | .trainingRetry c => Sys2Proof.Machine.execTrainingRetry c s
  | .restoreAndVerify c pass line rfmA rfmB => Sys2Proof.Machine.execRestoreAndVerify c pass line rfmA rfmB s
  | .commandIssue c sub => Sys2Proof.Machine.execCommandIssue c sub s
  | .requestComplete c sub strobeMissing again => Sys2Proof.Machine.execRequestComplete c sub strobeMissing again s
  | .rowIdleClose c sub bank => Sys2Proof.Machine.execRowIdleClose c sub bank s
  | .refresh c sub => Sys2Proof.Machine.execRefresh c sub s
  | .retrainingSlice c okA okB => Sys2Proof.Machine.execRetrainingSlice c okA okB s
  | .temperatureRead c tA tB => Sys2Proof.Machine.execTemperatureRead c tA tB s
  | .countingWindowBoundary c sub => Sys2Proof.Machine.execCountingWindowBoundary c sub s
  | .patrolScrub c => Sys2Proof.Machine.execPatrolScrub c s
  | .writeCrcAlert c sub => Sys2Proof.Machine.execWriteCrcAlert c sub s
  | .panic c => Sys2Proof.Machine.execPanic c s
  | .panicLimit c => Sys2Proof.Machine.execPanicLimit c s
  | .boundaryDivergence c k => Sys2Proof.Machine.execBoundaryDivergence c k s
  | .registerSignature c k same => Sys2Proof.Machine.execRegisterSignature c k same s
  | .checkerFault c k parity => Sys2Proof.Machine.execCheckerFault c k parity s
  | .unitCompareMismatch c unit crossCheck => Sys2Proof.Machine.execUnitCompareMismatch c unit crossCheck s
  | .cycleCounterWrap c k => Sys2Proof.Machine.execCycleCounterWrap c k s
  | .slotEnable c sl asid => Sys2Proof.Machine.execSlotEnable c sl asid s
  | .slotDisable c sl => Sys2Proof.Machine.execSlotDisable c sl s
  | .youngCycleCommand c sl => Sys2Proof.Machine.execYoungCycleCommand c sl s
  | .fullCycleCommand c sl => Sys2Proof.Machine.execFullCycleCommand c sl s
  | .regionSet c sl region kind root => Sys2Proof.Machine.execRegionSet c sl region kind root s
  | .swcmdInvalid c op => Sys2Proof.Machine.execSwcmdInvalid c op s
  | .automaticCycleStart c => Sys2Proof.Machine.execAutomaticCycleStart c s
  | .pitchRefill c sl t => Sys2Proof.Machine.execPitchRefill c sl t s
  | .logDrain c => Sys2Proof.Machine.execLogDrain c s
  | .markQueueSpill c => Sys2Proof.Machine.execMarkQueueSpill c s
  | .markEnd c => Sys2Proof.Machine.execMarkEnd c s
  | .sweeperCopy c => Sys2Proof.Machine.execSweeperCopy c s
  | .evacuateEnd c => Sys2Proof.Machine.execEvacuateEnd c s
  | .fixupEnd c => Sys2Proof.Machine.execFixupEnd c s
  | .linkTraining c rate lanes => Sys2Proof.Machine.execLinkTraining c rate lanes s
  | .linkTrainingDone c result lanes rate => Sys2Proof.Machine.execLinkTrainingDone c result lanes rate s
  | .auxTransaction c op mot len => Sys2Proof.Machine.execAuxTransaction c op mot len s
  | .auxDone c result reply => Sys2Proof.Machine.execAuxDone c result reply s
  | .hpd c kind => Sys2Proof.Machine.execHpd c kind s
  | .verticalStart c => Sys2Proof.Machine.execVerticalStart c s
  | .underrun c planes => Sys2Proof.Machine.execUnderrun c planes s
  | .dctlDirty c => Sys2Proof.Machine.execDctlDirty c s
  | .psrEntry c => Sys2Proof.Machine.execPsrEntry c s
  | .ntcMeasurement c code => Sys2Proof.Machine.execNtcMeasurement c code s
  | .ambientLightPoll c ok value => Sys2Proof.Machine.execAmbientLightPoll c ok value s
  | .keyScan c pressed => Sys2Proof.Machine.execKeyScan c pressed s
  | .kevt c => Sys2Proof.Machine.execKevt c s
  | .encoderTransition c e a b => Sys2Proof.Machine.execEncoderTransition c e a b s
  | .gpioEdge c pin level => Sys2Proof.Machine.execGpioEdge c pin level s
  | .wakePinEdge c => Sys2Proof.Machine.execWakePinEdge c s
  | .buzzerStart c k duty => Sys2Proof.Machine.execBuzzerStart c k duty s
  | .buzzerStop c k => Sys2Proof.Machine.execBuzzerStop c k s
  | .buzzerDurationExpiry c k => Sys2Proof.Machine.execBuzzerDurationExpiry c k s
  | .i2cTransaction c addr wlen rlen => Sys2Proof.Machine.execI2cTransaction c addr wlen rlen s
  | .i2cDone c result reply => Sys2Proof.Machine.execI2cDone c result reply s
  | .watchdogEarlyWarning c => Sys2Proof.Machine.execWatchdogEarlyWarning c s
  | .watchdogExpiry c => Sys2Proof.Machine.execWatchdogExpiry c s
  | .scanStart c => Sys2Proof.Machine.execScanStart c s
  | .scanStop c => Sys2Proof.Machine.execScanStop c s
  | .baselineReset c => Sys2Proof.Machine.execBaselineReset c s
  | .report c nodes electrodes noise => Sys2Proof.Machine.execReport c nodes electrodes noise s
  | .rawCaptureArm c => Sys2Proof.Machine.execRawCaptureArm c s
  | .trpt c => Sys2Proof.Machine.execTrpt c s
  | .approachRun c sum => Sys2Proof.Machine.execApproachRun c sum s
  | .txpush c sl => Sys2Proof.Machine.execTxpush c sl s
  | .rxpop c => Sys2Proof.Machine.execRxpop c s
  | .frameTransmission f outcome => Sys2Proof.Machine.execFrameTransmission f outcome s
  | .frameReception f outcome => Sys2Proof.Machine.execFrameReception f outcome s
  | .busOffRecovery bus => Sys2Proof.Machine.execBusOffRecovery bus s
  | .phyPoll link fast full => Sys2Proof.Machine.execPhyPoll link fast full s
  | .unownedRecord => Sys2Proof.Machine.execUnownedRecord s
  | .lastGasp c => Sys2Proof.Machine.execLastGasp c s
  | .squareFailure kind rail reading => Sys2Proof.Machine.execSquareFailure kind rail reading s
  | .mirrorRecordApply c crcOk => Sys2Proof.Machine.execMirrorRecordApply c crcOk s
  | .mirrorAcknowledgement c seq negative => Sys2Proof.Machine.execMirrorAcknowledgement c seq negative s
  | .linkFailure c => Sys2Proof.Machine.execLinkFailure c s
  | .epochOverdue c => Sys2Proof.Machine.execEpochOverdue c s
  | .pairBreak c => Sys2Proof.Machine.execPairBreak c s
  | .failover c => Sys2Proof.Machine.execFailover c s
  | .standbyLoss c => Sys2Proof.Machine.execStandbyLoss c s
  | .joinRequest c => Sys2Proof.Machine.execJoinRequest c s
  | .copyComplete c => Sys2Proof.Machine.execCopyComplete c s
  | .samplingCountdownExpiry c k => Sys2Proof.Machine.execSamplingCountdownExpiry c k s
  | .tallyRecordWrite c => Sys2Proof.Machine.execTallyRecordWrite c s
  | .tlack c n => Sys2Proof.Machine.execTlack c n s
  | .tlclr c => Sys2Proof.Machine.execTlclr c s
  | .stamplRead c t => Sys2Proof.Machine.execStamplRead c t s
  | .mcpeakRead c => Sys2Proof.Machine.execMcpeakRead c s
  | .windowRegisterWrite c offset value => Sys2Proof.Machine.execWindowRegisterWrite c offset value s
  | .busIntegration bus => Sys2Proof.Machine.execBusIntegration bus s
  | .stuckAlert c sub => Sys2Proof.Machine.execStuckAlert c sub s
  | .alertRelease c sub => Sys2Proof.Machine.execAlertRelease c sub s
  | .mirrorIdleRecord c => Sys2Proof.Machine.execMirrorIdleRecord c s

end Sys2Proof.Machine
end

