-- ==== Sys2Proof/Machine/Tick.lean ====
section
/-! DEFINITION. One slow-clock period with no command waiting (DESIGN CHOICE, log 7): the timebase, the watchdog's count and the
seconds of the ledgers advance. -/
namespace Sys2Proof.Machine

/-- Whether the timebase counts: out of reset and not in OFF (R112). -/
def Cond.ticks : Cond → Bool
  | .inReset => false
  | .keptOff => false
  | .off => false
  | _ => true
/-- The timebase, the watchdog, the wait for the next monitoring round of a running channel, and the count of the stalemate condition
(R65, R112, R123, R277). -/
def Clock.tick (k : Clock) (running stale : Bool) : Clock :=
  { k with tb := k.tb + 1#48, wdCount := if k.wdRun then k.wdCount + 1 else k.wdCount,
           monWait := if running then k.monWait + 1 else k.monWait, staleFor := if stale then k.staleFor + 1 else 0 }
/-- One period of a channel. A panic episode ends at its watermark, and the port may be promoted again (R374); a failed boot round and a
failed training come nearer to their retry (R142, R379). -/
def Channel.tick (ch : Channel) : Channel :=
  { ch with
    clk := if ch.life.cond.ticks then ch.clk.tick (decide (ch.life.cond = .running)) ch.stalemated else ch.clk
    boot := { ch.boot with waited := ch.boot.waited + 1 }
    mc := { ch.mc with panic := false, panicHeld := false, waited := ch.mc.waited + 1
                       sub := ch.mc.sub.map (fun x => if ch.mc.trained && decide (ch.life.power ≠ .sleep) then { x with winAge := x.winAge + 1 } else x) }
    led := if ch.life.cond = .inReset then ch.led else { ch.led with periods := ch.led.periods + 1 } }
/-- One period of the square: its seconds, and the wait for its next monitoring round, which counts from the decision of its pins (R65). -/
def Square.tick (sq : Square) : Square :=
  if sq.porN then { sq with
    led := { sq.led with periods := sq.led.periods + 1 }
    monWait := if sq.straps.toList.all (fun p => p.decided) then sq.monWait + 1 else sq.monWait } else sq
/-- One slow-clock period. (DESIGN CHOICE, unsafe: log 7.) -/
def State.tick (s : State) : State := { s with chans := s.chans.map Channel.tick, square := s.square.tick }

end Sys2Proof.Machine
end

