-- ==== Sys2Proof/Machine/Step.lean ====
section
/-! DEFINITION. A step of the device: the command at the front of the queue, or one slow-clock period. -/
namespace Sys2Proof.Machine

/-- Take the command at the front of the queue and run it on the state with the rest; with no command waiting, one slow-clock period
passes. (DESIGN CHOICE, unsafe: log 7.) -/
def step (s : State) : Host.Outcome State Fault Refusal :=
  match s.pending with
  | [] => .next s.tick
  | i :: r => exec i { s with pending := r }
/-- The state with the command a word spells put at the front of the queue; unchanged where it spells none. -/
def State.withFetchWord (s : State) (nbits w : Nat) : State :=
  match decodeTableWord nbits w with
  | some i => { s with pending := i :: s.pending }
  | none => s

end Sys2Proof.Machine
end

