-- ==== Sys2Proof/Safety.lean ====
section
/-! DEFINITION. The terms claims use: when a thread can issue, what a command leaves alone, how an instruction ends, and which cells an
access reaches with nothing in its way. -/
namespace Sys2Proof.Machine

/-! ### Issuing -/

/-- A thread of a channel. -/
def State.thread (s : State) (c : Chan) (t : Fin 8) : Thread := (s.chan c).thr[t]
/-- Thread t of channel c can issue an instruction that goes through to its own work: no event is due at its boundary, the control
stores of its core and its checker read as they were made, with no patch point (R249, R254), no entry of its core's micro buffer has bad
parity (R302), and its upper half needs no fill (R272). -/
def State.ready (s : State) (c : Chan) (t : Fin 8) : Bool :=
  (s.mach c).canIssue t && ((s.chan c).core[coreOf t]).asMade && !((s.chan c).core[coreOf t]).utlb.any (fun e => e.2.bad)
    && !((s.chan c).thr[t]).lz
/-- A register operand that passes the checks of R194 step 3. -/
def Thread.has (th : Thread) (r : Reg) (ok : BitVec 6 → Bool) : Bool :=
  cellTag (th.reg r) ≠ tPSN && !isReserved (th.reg r) && ok (cellTag (th.reg r))
/-- The integer a FIX register holds. -/
def Thread.int (th : Thread) (r : Reg) : Int := fixInt (cellPay (th.reg r))
/-- The payload of a register. -/
def Thread.pay (th : Thread) (r : Reg) : Payload := cellPay (th.reg r)

/-! ### What is left alone -/

/-- Every channel but c is the same in both states. -/
def sameElsewhere (s s' : State) (c : Chan) : Prop := ∀ k, k ≠ c → s'.chan k = s.chan k
/-- Channel c with thread t as th, that thread's microsequencer as q (R241), and performance unit p (22). -/
def State.ran (s : State) (c : Chan) (t : Fin 8) (th : Thread) (q : MicroSeq) (p : Perf) : Channel :=
  { s.chan c with thr := (s.chan c).thr.set t th, seq := (s.chan c).seq.set t q, perf := p }
/-- Between s and s' only thread t of channel c with its microsequencer, that channel's performance counters and records (22), and the
free counter have changed: the thread is th. -/
def onlyThread (s s' : State) (c : Chan) (t : Fin 8) (th : Thread) : Prop :=
  ∃ (p : Perf) (n : Nat) (q : MicroSeq), s' = ({ s with free := n }).setChan c (s.ran c t th q p)
/-- The cell a read of memory or near store at a physical address would deliver. -/
def State.cell (s : State) (c : Chan) (a : Nat) : Cell := (s.mach c).peek a
/-- Every cell of memory and near store reads as before. -/
def sameCells (s s' : State) (c : Chan) : Prop := ∀ a, s'.cell c a = s.cell c a
/-- What the core of thread t would read at a physical address: the stored cell under the stores its write buffer holds, oldest first; a
marked one keeps the CDR (R317, R318). -/
def State.seen (s : State) (c : Chan) (t : Fin 8) (a : Nat) : Cell :=
  ((s.chan c).core[coreOf t]).wb.foldl
    (fun v e => if e.line = a / 16 then
        match mapGet e.cells (a % 16) with
        | some (w, true) => withCdr w (cellCdr v)
        | some (w, false) => w
        | none => v
      else v)
    (s.cell c a)
/-- Between s and s', of channel c only thread t with its microsequencer, the write buffer and look-aside buffer of its core, the turnstile's
last grant, the memory controller with what it reports, and the performance unit have changed, and every stored cell reads as before: the
thread is th, the buffer holds wb. -/
def onlyAccess (s s' : State) (c : Chan) (t : Fin 8) (th : Thread) (wb : List WbEntry) : Prop :=
  sameCells s s' c ∧
  ∃ (p : Perf) (n : Nat) (q : MicroSeq) (mc : MemCtl) (led : Ledger) (pend : NMap Pend) (ph : Phys) (tlb : NMap TlbEntry) (ag : Agent),
    s' = ({ s with free := n }).setChan c { s.ran c t th q p with
      core := (s.chan c).core.set (coreOf t) { (s.chan c).core[coreOf t] with tlb := tlb, wb := wb }
      mc := mc, led := led, phys := ph
      proc := { (s.chan c).proc with pend := pend, granted := ag } }
/-- Between s and s', of channel c only thread t with its microsequencer, its processor's buffers and caches, the turnstile's last grant, the
memory controller with what it reports, the mirror link, the performance unit and the storage have changed: the thread is th. -/
def onlyStep (s s' : State) (c : Chan) (t : Fin 8) (th : Thread) : Prop :=
  ∃ (p : Perf) (n : Nat) (q : MicroSeq) (mc : MemCtl) (led : Ledger) (pend : NMap Pend) (ph : Phys) (core : Vector Core 2) (pair : Pair)
    (ag : Agent),
    s' = ({ s with free := n }).setChan c { s.ran c t th q p with
      core := core, mc := mc, led := led, phys := ph, pair := pair
      proc := { (s.chan c).proc with pend := pend, granted := ag } }

/-! ### How an instruction ends -/

/-- The command answers a state in which only its thread has changed, to th. -/
def completes (i : Instr) (s : State) (c : Chan) (t : Fin 8) (th : Thread) : Prop :=
  ∃ s', exec i s = .next s' ∧ onlyThread s s' c t th
/-- The instruction completes having written v to register d and nothing else. -/
def delivers (i : Instr) (s : State) (c : Chan) (t : Fin 8) (d : Reg) (v : Cell) : Prop :=
  completes i s c t (((s.thread c t).setReg d v).complete .next)
/-- The instruction faults: no register, special register or memory cell changes, and the event is recorded (R194, R265). -/
def faults (i : Instr) (s : State) (c : Chan) (t : Fin 8) (v : BitVec 10) (addr icell : Cell) : Prop :=
  completes i s c t ((s.thread c t).raiseSync v addr icell 0#2)

/-- The instruction completes with the stored cells as they were, its thread th and its core's buffer wb. -/
def accesses (i : Instr) (s : State) (c : Chan) (t : Fin 8) (th : Thread) (wb : List WbEntry) : Prop :=
  ∃ s', exec i s = .next s' ∧ onlyAccess s s' c t th wb
/-- The instruction completes having stored v at physical address a and nothing elsewhere, its thread th. -/
def storesAt (i : Instr) (s : State) (c : Chan) (t : Fin 8) (th : Thread) (a : Nat) (v : Cell) : Prop :=
  ∃ s', exec i s = .next s' ∧ onlyStep s s' c t th ∧ s'.cell c a = v ∧ ∀ b, b ≠ a → s'.cell c b = s.cell c b

/-- The instruction completes with the effect that turns channel c into ch, and with its thread th. -/
def leaves (i : Instr) (s : State) (c : Chan) (t : Fin 8) (ch : Channel) (th : Thread) : Prop :=
  ∃ s', exec i s = .next s' ∧ onlyThread (s.setChan c ch) s' c t th

/-- The command turns channel c into ch and changes nothing else but its performance unit and the free counter. -/
def does (i : Instr) (s : State) (c : Chan) (ch : Channel) : Prop :=
  ∃ (p : Perf) (n : Nat), exec i s = .next (({ s with free := n }).setChan c { ch with perf := p })

/-! ### Plain accesses -/

/-- The physical memory address of an access that needs nothing but what the look-aside buffer of the thread's core holds: the
address itself with TE 0, else the page of the one entry that hits, with the rights asked for and A (and D) already set. -/
def State.reach (s : State) (c : Chan) (t : Fin 8) (va : VAddr) (need : Need) : Option Nat :=
  let th := s.thread c t
  let co := (s.chan c).core[coreOf t]
  let vpn := va.extractLsb' 10 14
  if !th.te then some va.toNat
  else if !mapWf co.tlb || co.tlb.any (fun e => e.2.bad) then none
  else match co.tlb.filter (fun e => e.2.hit vpn th.asid) with
    | [e] =>
      let a := (s.chan c).pageBase e.2.idx.toNat + bits va 0 10
      if (!need.r || e.2.r) && (!need.w || e.2.w) && (th.sup || e.2.u) && decide (e.2.typ = 0#2) && e.2.a && (!need.w || e.2.d)
          && decide ((s.chan c).place a = .memory) then some a else none
    | _ => none
/-- The virtual and physical address at which an access ends after the FWD cells it meets, at most eight (R179). -/
def State.chase (s : State) (c : Chan) (t : Fin 8) (need : Need) : Nat → VAddr → Option (VAddr × Nat)
  | n, va => match s.reach c t va need with
    | none => none
    | some a =>
      if cellTag (s.cell c a) = tFWD then
        match n with
        | 0 => none
        | n + 1 => s.chase c t need n (cellPay (s.cell c a))
      else some (va, a)
/-- What a read from a virtual address delivers: where it ended and the cell found. -/
def State.found (s : State) (c : Chan) (t : Fin 8) (va : VAddr) : Option (VAddr × Cell) :=
  (s.chase c t needR 8 va).map (fun r => (r.1, s.cell c r.2))
/-- Thread t is ready, its channel's data caches are off, its core has no store waiting, and no sweeper cycle runs: an access takes its
place at once and meets no barrier. -/
def State.plain (s : State) (c : Chan) (t : Fin 8) : Bool :=
  s.ready c t && !(s.chan c).proc.dcen && ((s.chan c).core[coreOf t]).wb.isEmpty && decide ((s.chan c).sw.phase = .idle)
/-- A cell that a load may deliver (R194 step 6). -/
def loadable (v : Cell) : Bool := cellTag v ≠ tPSN && !isReserved v
/-- The header a header-addressing pointer reaches, where R168 accepts it. -/
def State.headerAt (s : State) (c : Chan) (t : Fin 8) (p : Cell) : Option Cell :=
  match s.found c t (cellPay p) with
  | some (_, h) => if cellTag h = tHDR && kindMatches (cellTag p) (hdrKind h) then some h else none
  | none => none
/-- The cell LD and ST name by pointer and field k (R199), HAND apart. -/
def State.fieldAt (s : State) (c : Chan) (t : Fin 8) (p : Cell) (k : Nat) (store : Bool) : Option VAddr :=
  if cellTag p = tCONS || cellTag p = tLOC then (if k = 0 then some (cellPay p) else none)
  else if cellTag p = tHAND then none
  else match s.headerAt c t p with
    | some h => if hdrSize h < k || (store && k = 0) then none else some (cellPay p + BitVec.ofNat 24 k)
    | none => none
/-- The cell LDX, STX and LOCOF name by pointer and index (R199, R203), HAND apart. -/
def State.indexAt (s : State) (c : Chan) (t : Fin 8) (p : Cell) (i : Int) : Option VAddr :=
  match s.headerAt c t p with
  | some h => if 0 ≤ i && i < (hdrSize h : Int) then some (cellPay p + 1#24 + BitVec.ofInt 24 i) else none
  | none => none
/-- The cell and byte LDB and STB name (R202). -/
def State.byteAt (s : State) (c : Chan) (t : Fin 8) (p : Cell) (i : Int) : Option (VAddr × Nat) :=
  match s.headerAt c t p with
  | none => none
  | some h =>
    if cellTag p = tSTR then
      match s.found c t (cellPay p + 1#24) with
      | some (_, n) => if cellTag n = tFIX && 0 ≤ i && i < fixInt (cellPay n) then
          some (cellPay p + 2#24 + BitVec.ofNat 24 (i.toNat / 3), i.toNat % 3) else none
      | none => none
    else if hdrKind h = 9#4 && 0 ≤ i && i < (3 * hdrSize h : Int) then
      some (cellPay p + 1#24 + BitVec.ofNat 24 (i.toNat / 3), i.toNat % 3)
    else none
/-- The entry of a CODE cell: header + 2 + NCONST (R173). -/
def State.entryAt (s : State) (c : Chan) (t : Fin 8) (p : Cell) : Option VAddr :=
  match s.found c t (cellPay p), s.found c t (cellPay p + 1#24) with
  | some (h, v), some (_, n) => if cellTag v = tHDR && hdrKind v = 4#4 && cellTag n = tFIX then
      some (h + 2#24 + BitVec.ofNat 24 (bits (cellPay n) 0 12)) else none
  | _, _ => none
/-- The limits of R158 and R200 on storing v through pointer p, whose header is h where it addresses one. -/
def storable (sup : Bool) (p : Cell) (h : Option Cell) (v : Cell) : Bool :=
  (sup || (!userSealed (cellTag v) && cellTag p ≠ tCODE && cellTag p ≠ tCRATE)) &&
  match h with
  | some h => !((hdrKind h = 1#4 || hdrKind h = 9#4) && !isImm (cellTag v))
      && !((hdrKind h = 0#4 || hdrKind h = 10#4) && (isSealed (cellTag v) || isSpecial (cellTag v)))
  | none => true
/-- The entry a buffered store of v at physical address a leaves in an empty buffer: one data cell, with its log actions (R317, R345). -/
def storeEntry (t : Fin 8) (a : Nat) (v : Cell) (logs : List (Fin 8 × BitVec 24)) : WbEntry :=
  { kind := .memory, line := a / 16, cells := [(a % 16, v, true)], threads := thBit t, zline := false, logs := logs }

end Sys2Proof.Machine
end

