-- ==== Sys2Proof/Certificates/Slice0/Obligations.lean ====
section
/-! DEFINITION. What this model claims of the device: one proposition each, in the order of the rules they rest on. -/
open Sys2Proof Sys2Proof.Machine

/-! ## The block and its queue -/

/-- A step runs the command at the front of the queue on the state with the rest of the queue. -/
def Obligations.StepRunsFrontCommand : Prop :=
  ∀ (s : State) (i : Instr) (r : List Instr), s.pending = i :: r → step s = exec i { s with pending := r }

/-- With no command waiting one slow-clock period passes (log 7): each channel that is neither in reset nor kept off nor in OFF counts
its timebase once and its watchdog where that runs (R112, R123), a running one its wait for the next monitoring round (R65), one in the stalemate
condition that condition's periods, which start again when it does not hold (R277); the waits for the retries of boot and training grow by one
(R142, R379), and those of the refresh windows of a trained controller out of SLEEP (R387); a panic episode ends (R374), and no thread,
register, cell of storage or queue changes. -/
def Obligations.IdleStepCountsOnePeriod : Prop :=
  ∀ s : State, s.pending = [] → ∃ s', step s = .next s' ∧ s'.pending = [] ∧ s'.free = s.free ∧
    ∀ c : Chan,
      (s'.chan c).clk = (if (s.chan c).life.cond = .inReset ∨ (s.chan c).life.cond = .keptOff ∨ (s.chan c).life.cond = .off
        then (s.chan c).clk
        else { (s.chan c).clk with
          tb := (s.chan c).clk.tb + 1#48
          wdCount := (s.chan c).clk.wdCount + (if (s.chan c).clk.wdRun then 1 else 0)
          monWait := (s.chan c).clk.monWait + (if (s.chan c).life.cond = .running then 1 else 0)
          staleFor := if (s.chan c).stalemated then (s.chan c).clk.staleFor + 1 else 0 }) ∧
      (s'.chan c).boot = { (s.chan c).boot with waited := (s.chan c).boot.waited + 1 } ∧
      (s'.chan c).mc = { (s.chan c).mc with
        panic := false, panicHeld := false, waited := (s.chan c).mc.waited + 1
        sub := if (s.chan c).mc.trained = true ∧ (s.chan c).life.power ≠ .sleep
          then (s.chan c).mc.sub.map (fun x => { x with winAge := x.winAge + 1 }) else (s.chan c).mc.sub } ∧
      (s'.chan c).thr = (s.chan c).thr ∧ (s'.chan c).core = (s.chan c).core ∧ (s'.chan c).proc = (s.chan c).proc ∧
      (s'.chan c).phys = (s.chan c).phys ∧ (s'.chan c).win = (s.chan c).win ∧ (s'.chan c).life = (s.chan c).life

/-- Right after reset no command waits, every channel is in reset with thread 0 running in supervisor mode and the other threads stopped,
their registers FIX 0 (R146, R186, R187, R212), its special registers and attribute store as Table 8.2 and R262 give them, UCVER with ROMREV 1
(R256), no signal pending, caches and translation off, every window register at its At power-up value, and nothing stored. -/
def Obligations.ResetState : Prop :=
  State.reset.pending = [] ∧ ∀ c : Chan,
    (State.reset.chan c).life.cond = .inReset ∧
    (∀ t : Fin 8, let th := State.reset.thread c t
      th.status = (if t = 0 then .running else .stopped) ∧ (∀ r : Reg, th.reg r = fix0) ∧ th.pc = 0#24 ∧
      th.pstate = (if t = 0 then 1#24 else 0#24) ∧ th.spU = fix0 ∧ th.spS = fix0 ∧
      th.chain = fix0 ∧ th.asid = 0#8 ∧ th.acc = 0#56 ∧ th.loopC = 0#24 ∧ th.loopS = 0#24 ∧ th.loopE = 0#24 ∧ th.frame = none ∧
      th.sync = none ∧ th.hold = none) ∧
    (let p := (State.reset.chan c).proc;
      p.vbase = 0#24 ∧ p.cfree = fix0 ∧ p.ptbase = 0#24 ∧ p.hatbase = 0#24 ∧ p.hatsize = 0#24 ∧ p.regmap = 0#24 ∧
      p.nearbase = 0xF400#24 ∧ p.ucver = 0x010000#24 ∧ p.attr = [] ∧ p.pend = [] ∧ p.icen = false ∧ p.dcen = false ∧ p.invd = false) ∧
    (∀ o : Nat, winGet (State.reset.chan c) o = winReset o) ∧
    (State.reset.chan c).phys.mem = [] ∧ (State.reset.chan c).phys.near = [] ∧ (State.reset.chan c).clk.tb = 0#48

/-- What is stored and the window registers stand in canonical form: keys strictly rising. -/
def Sys2Proof.Machine.State.storageWf (s : State) : Bool :=
  [0, 1, 2, 3].all (fun c : Chan => mapWf (s.chan c).phys.mem && mapWf (s.chan c).phys.near && mapWf (s.chan c).win)

/-- HEADLINE. Every command and every idle period keeps the canonical form of storage: memory, near store and window registers of
each channel hold one entry per address, in rising order. -/
def Obligations.StepKeepsStorageWf : Prop :=
  ∀ s s' : State, s.storageWf = true → step s = .next s' → s'.storageWf = true

/-- Reset has the canonical form. -/
def Obligations.ResetStorageWf : Prop := State.reset.storageWf = true

/-- No command stops the model: every step answers a next state. -/
def Obligations.EveryStepAnswers : Prop := ∀ s : State, ∃ s', step s = .next s'

/-- The channel of a command that is an instruction of a thread (08, 09, 12, 13, 14, 15, 18, 22), with its thread. -/
def Sys2Proof.Instr.issuedBy : Instr → Option (Chan × Fin 8)
  | .nop c t => some (c, t.thread)
  | .mov c t _ _ => some (c, t)
  | .movi c t _ _ => some (c, t)
  | .ldk c t _ _ => some (c, t)
  | .tagof c t _ _ => some (c, t)
  | .tageq c t _ _ _ => some (c, t)
  | .tagset c t _ _ _ => some (c, t)
  | .cdrof c t _ _ => some (c, t)
  | .iadd c t _ _ _ => some (c, t)
  | .isub c t _ _ _ => some (c, t)
  | .iaddi c t _ _ _ => some (c, t)
  | .opAnd c t _ _ _ => some (c, t)
  | .opOr c t _ _ _ => some (c, t)
  | .opXor c t _ _ _ => some (c, t)
  | .andi c t _ _ _ => some (c, t)
  | .shl c t _ _ _ => some (c, t)
  | .shr c t _ _ _ => some (c, t)
  | .sar c t _ _ _ => some (c, t)
  | .shli c t _ _ _ => some (c, t)
  | .shri c t _ _ _ => some (c, t)
  | .sari c t _ _ _ => some (c, t)
  | .opEq c t _ _ _ _ => some (c, t)
  | .ilt c t _ _ _ _ => some (c, t)
  | .ult c t _ _ _ _ => some (c, t)
  | .ld c t _ _ _ => some (c, t)
  | .ldx c t _ _ _ => some (c, t)
  | .st c t _ _ _ => some (c, t)
  | .stx c t _ _ _ => some (c, t)
  | .cas c t _ _ _ => some (c, t)
  | .ldb c t _ _ _ => some (c, t)
  | .stb c t _ _ _ => some (c, t)
  | .locof c t _ _ _ => some (c, t)
  | .fence c t => some (c, t)
  | .push c t _ => some (c, t)
  | .pop c t _ => some (c, t)
  | .ldsp c t _ _ => some (c, t)
  | .stsp c t _ _ => some (c, t)
  | .addsp c t _ => some (c, t)
  | .j c t _ => some (c, t)
  | .call c t _ => some (c, t)
  | .bt c t _ _ => some (c, t)
  | .bf c t _ _ => some (c, t)
  | .jmpr c t _ => some (c, t)
  | .callr c t _ _ => some (c, t)
  | .ret c t _ => some (c, t)
  | .loop c t _ _ => some (c, t)
  | .wait c t _ => some (c, t)
  | .sig c t _ => some (c, t)
  | .svc c t _ => some (c, t)
  | .rete c t => some (c, t)
  | .uenter c t _ => some (c, t)
  | .tstart c t _ _ _ => some (c, t)
  | .thalt c t => some (c, t)
  | .mfs c t _ _ => some (c, t)
  | .mts c t _ _ => some (c, t)
  | .mtsVbase c t _ => some (c, t)
  | .wdkick c t => some (c, t)
  | .lgread c t _ _ => some (c, t)
  | .lgwrite c t _ _ _ => some (c, t)
  | .flxfer c t _ _ _ _ _ => some (c, t)
  | .add c t _ _ _ => some (c, t)
  | .sub c t _ _ _ => some (c, t)
  | .mul c t _ _ _ => some (c, t)
  | .fdiv c t _ _ _ => some (c, t)
  | .quo c t _ _ _ => some (c, t)
  | .rem c t _ _ _ => some (c, t)
  | .neg c t _ _ => some (c, t)
  | .addi c t _ _ _ => some (c, t)
  | .numeq c t _ _ _ _ => some (c, t)
  | .numlt c t _ _ _ _ => some (c, t)
  | .tosf c t _ _ => some (c, t)
  | .tof32 c t _ _ => some (c, t)
  | .trunc c t _ _ => some (c, t)
  | .fadd c t _ _ _ => some (c, t)
  | .fsub c t _ _ _ => some (c, t)
  | .fmul c t _ _ _ => some (c, t)
  | .fdv c t _ _ _ => some (c, t)
  | .alloc c t _ _ _ => some (c, t)
  | .allocl c t _ _ _ => some (c, t)
  | .zline c t _ _ => some (c, t)
  | .car c t _ _ => some (c, t)
  | .opCdr c t _ _ => some (c, t)
  | .opCons c t _ _ _ => some (c, t)
  | .opList c t _ _ _ => some (c, t)
  | .rplacd c t _ _ => some (c, t)
  | .endp c t _ _ => some (c, t)
  | .mac c t _ _ _ => some (c, t)
  | .macs c t _ _ _ => some (c, t)
  | .accz c t => some (c, t)
  | .accget c t _ _ => some (c, t)
  | .savel c t _ => some (c, t)
  | .saveu c t => some (c, t)
  | .loadl c t => some (c, t)
  | .loadu c t => some (c, t)
  | .tlbinv c t _ _ => some (c, t)
  | .tlbprobe c t _ _ => some (c, t)
  | .cacheon c t _ => some (c, t)
  | .cacheoff c t _ => some (c, t)
  | .cinvall c t => some (c, t)
  | .crange c t _ _ _ => some (c, t)
  | .rootscan c t => some (c, t)
  | .checkpoint c t _ => some (c, t)
  | .pmread c t _ _ => some (c, t)
  | _ => none

/-- An instruction of one channel leaves every other channel as it was, and what it does to its own channel depends on no other
channel: two devices that agree in that channel, the square and the free counter agree in it afterwards (R22). -/
def Obligations.InstructionsKeepToTheirChannel : Prop :=
  ∀ (i : Instr) (c : Chan) (t : Fin 8), i.issuedBy = some (c, t) → ∀ s u : State,
    s.chan c = u.chan c → s.square = u.square → s.free = u.free →
    ∃ s' u', exec i s = .next s' ∧ exec i u = .next u' ∧ sameElsewhere s s' c ∧ s'.pending = s.pending ∧
      s'.chan c = u'.chan c ∧ s'.square = u'.square ∧ s'.free = u'.free

/-- A thread with an event due at its boundary, or of a channel that does not run, executes nothing: whatever instruction is asked of it,
the state does not change (R210, R212, R265). -/
def Sys2Proof.Machine.noIssueAtAnEventBoundaryClaim : Prop :=
  ∀ (i : Instr) (c : Chan) (t : Fin 8) (s : State), i.issuedBy = some (c, t) → (s.mach c).canIssue t = false → exec i s = .next s

/-- The supervisor instructions, with their INSTR cells (Tables 8.11, 9.8, 12.2, 13.8, 14.6, 15.6, 18.4; R191). -/
def Sys2Proof.Instr.supCell : Instr → Option Cell
  | .rete _ _ => some (cellA 0x3B 0 0 0 false)
  | .uenter _ _ a => some (cellA 0x3C 0 a 0 false)
  | .tstart _ _ d a b => some (cellA 0x3D d a b false)
  | .thalt _ _ => some (cellA 0x3E 0 0 0 false)
  | .wdkick _ _ => some (cellA 0x42 0 0 0 false)
  | .lgread _ _ d a => some (cellA 0x43 d a 0 false)
  | .lgwrite _ _ d a b => some (cellA 0x44 d a b false)
  | .flxfer _ _ d a _ _ _ => some (cellA 0x45 d a 0 false)
  | .savel _ _ imm => some (cellL 0xB0 0 imm)
  | .saveu _ _ => some (cellA 0xB1 0 0 0 false)
  | .loadl _ _ => some (cellA 0xB2 0 0 0 false)
  | .loadu _ _ => some (cellA 0xB3 0 0 0 false)
  | .tlbinv _ _ a imm => some (cellI 0xB8 0 a imm)
  | .tlbprobe _ _ d a => some (cellA 0xB9 d a 0 false)
  | .cacheon _ _ imm => some (cellI 0xC0 0 0 imm)
  | .cacheoff _ _ imm => some (cellI 0xC1 0 0 imm)
  | .cinvall _ _ => some (cellA 0xC2 0 0 0 false)
  | .crange _ _ d a b => some (cellA 0xC3 d a b false)
  | .rootscan _ _ => some (cellA 0xC8 0 0 0 false)
  | .checkpoint _ _ d => some (cellA 0xD0 d 0 0 false)
  | .pmread _ _ d a => some (cellA 0xD4 d a 0 false)
  | _ => none

/-- A supervisor instruction in user code raises the privilege fault, vector 2 with ADDR FIX 0, whatever its fields hold, and changes
nothing (R194 step 2, R247). -/
def Sys2Proof.Machine.privilegeFaultInUserCodeClaim : Prop :=
  ∀ (i : Instr) (s : State) (c : Chan) (t : Fin 8) (ic : Cell), i.issuedBy = some (c, t) → i.supCell = some ic →
    s.ready c t = true → (s.thread c t).sup = false →
    exec i s = .next (s.setChan c { s.chan c with thr := (s.chan c).thr.set t ((s.thread c t).raiseSync 2#10 fix0 ic 0#2) })

/-- An instruction at an event boundary does not issue, and a supervisor instruction in user code raises the privilege fault: the claims noIssueAtAnEventBoundaryClaim, privilegeFaultInUserCodeClaim. -/
def Obligations.NotItsOwnEffect : Prop := noIssueAtAnEventBoundaryClaim ∧ privilegeFaultInUserCodeClaim

/-! ## Moves, tags, integers and bits (Table 8.7) -/

/-- The moves and tag readers deliver what Table 8.7 gives, and NOP nothing; every result but MOV's carries CDR 00 (R197). A fetched cell that is
not INSTR raises the instruction tag fault with the PC in ADDR (R174), an INSTR cell of no assigned opcode or with a nonzero unused field the
illegal instruction fault (R191, R192). -/
def Sys2Proof.Machine.movesAndTagsClaim : Prop :=
  ∀ (s : State) (c : Chan) (t : Fin 8), s.ready c t = true → let th := s.thread c t
    (∀ w : Cell, cellTag w = tINSTR → cellPay w = 0x010000#24 → completes (.nop c ⟨t, w⟩) s c t (th.complete .next)) ∧
    (∀ w : Cell, cellTag w ≠ tINSTR → faults (.nop c ⟨t, w⟩) s c t 7#10 (fix th.pc) w) ∧
    (∀ w : Cell, cellTag w = tINSTR → isInstr w = false → faults (.nop c ⟨t, w⟩) s c t 1#10 fix0 w) ∧
    (∀ (d : Reg) (imm : BitVec 11), delivers (.movi c t d imm) s c t d (fix (imm.signExtend 24))) ∧
    (∀ d a : Reg, th.has a anyTag = true →
      delivers (.mov c t d a) s c t d (th.reg a) ∧
      delivers (.tagof c t d a) s c t d (fix ((cellTag (th.reg a)).setWidth 24)) ∧
      delivers (.cdrof c t d a) s c t d (fix ((cellCdr (th.reg a)).setWidth 24)) ∧
      ∀ imm : BitVec 6, delivers (.tageq c t d a imm) s c t d (if cellTag (th.reg a) = imm then cT else cNIL))

/-- The tags of the first row of Table 7.2: FIX, SFLT, CHAR, RAW and UI0 to UI7. -/
def Sys2Proof.Machine.openTag (g : BitVec 6) : Bool := g = tFIX || g = tSFLT || g = tCHAR || g = tRAW || (0x28#6 ≤ g && g ≤ 0x2F#6)

/-- TAGSET delivers a's payload under tag imm6 with CDR 00 where Table 7.2 allows the retag, and raises the type fault where it does not:
among the plain tags always, to CONST with a payload of 0 to 3, among UP tags always, to a pointer tag, INSTR, HDR or FREE from FIX in
supervisor code only, to RETA, FWD, PSN or a reserved code never (R157, R198). -/
def Sys2Proof.Machine.retaggingClaim : Prop :=
  ∀ (s : State) (c : Chan) (t : Fin 8) (d a : Reg) (imm : BitVec 6), s.ready c t = true →
    (s.thread c t).has a anyTag = true →
    let v := (s.thread c t).reg a
    let ok : Prop :=
      (openTag imm = true ∧ openTag (cellTag v) = true) ∨ (imm = tCONST ∧ openTag (cellTag v) = true ∧ cellPay v ≤ 3#24) ∨
      (isUP imm = true ∧ isUP (cellTag v) = true) ∨
      ((isPtr imm = true ∨ imm = tINSTR ∨ imm = tHDR ∨ imm = tFREE) ∧ (s.thread c t).sup = true ∧ cellTag v = tFIX)
    (ok → delivers (.tagset c t d a imm) s c t d (mkCell imm 0#2 (cellPay v))) ∧
    (¬ ok → faults (.tagset c t d a imm) s c t 3#10 fix0 (cellI 0x07 d a imm))

/-- Moves, tags and retagging: the claims movesAndTagsClaim, retaggingClaim. -/
def Obligations.TagMovesAndRetagging : Prop := movesAndTagsClaim ∧ retaggingClaim

/-- IADD, ISUB and IADDI deliver the exact sum or difference as FIX, or raise the arithmetic overflow fault, vector 5, where it lies outside
−8,388,608 … 8,388,607: they never promote (R197). -/
def Obligations.FixArithmetic : Prop :=
  ∀ (s : State) (c : Chan) (t : Fin 8) (d a b : Reg) (imm : BitVec 6), s.ready c t = true → let th := s.thread c t
    th.has a fixTag = true → th.has b fixTag = true →
    (if -8388608 ≤ th.int a + th.int b ∧ th.int a + th.int b ≤ 8388607
      then delivers (.iadd c t d a b) s c t d (fix (BitVec.ofInt 24 (th.int a + th.int b)))
      else faults (.iadd c t d a b) s c t 5#10 fix0 (cellA 0x10 d a b false)) ∧
    (if -8388608 ≤ th.int a - th.int b ∧ th.int a - th.int b ≤ 8388607
      then delivers (.isub c t d a b) s c t d (fix (BitVec.ofInt 24 (th.int a - th.int b)))
      else faults (.isub c t d a b) s c t 5#10 fix0 (cellA 0x11 d a b false)) ∧
    (if -8388608 ≤ th.int a + imm.toInt ∧ th.int a + imm.toInt ≤ 8388607
      then delivers (.iaddi c t d a imm) s c t d (fix (BitVec.ofInt 24 (th.int a + imm.toInt)))
      else faults (.iaddi c t d a imm) s c t 5#10 fix0 (cellI 0x12 d a imm))

/-- The bit operations work on the 24 payload bits and keep the tag of a, with CDR 00; two operands must carry one tag; an amount of 24
or more shifts everything out, or for SAR leaves copies of bit 23; a negative amount raises the operand range fault (R197, Table 8.7). -/
def Obligations.BitOperations : Prop :=
  ∀ (s : State) (c : Chan) (t : Fin 8) (d a b : Reg) (imm : BitVec 6), s.ready c t = true → let th := s.thread c t
    let res (p : Payload) : Cell := mkCell (cellTag (th.reg a)) 0#2 p
    th.has a isBits = true →
    (th.has b isBits = true → cellTag (th.reg a) = cellTag (th.reg b) →
      delivers (.opAnd c t d a b) s c t d (res (th.pay a &&& th.pay b)) ∧
      delivers (.opOr c t d a b) s c t d (res (th.pay a ||| th.pay b)) ∧
      delivers (.opXor c t d a b) s c t d (res (th.pay a ^^^ th.pay b))) ∧
    (th.has b isBits = true → cellTag (th.reg a) ≠ cellTag (th.reg b) →
      faults (.opAnd c t d a b) s c t 3#10 (fixN 1) (cellA 0x13 d a b false)) ∧
    (th.has b fixTag = true → 0 ≤ th.int b →
      delivers (.shl c t d a b) s c t d (res (if 24 ≤ th.int b then 0#24 else th.pay a <<< (th.pay b).toNat)) ∧
      delivers (.shr c t d a b) s c t d (res (if 24 ≤ th.int b then 0#24 else th.pay a >>> (th.pay b).toNat)) ∧
      delivers (.sar c t d a b) s c t d
        (res (if 24 ≤ th.int b then (if bit (th.pay a) 23 then 0xFFFFFF#24 else 0#24) else (th.pay a).sshiftRight (th.pay b).toNat))) ∧
    (th.has b fixTag = true → th.int b < 0 →
      faults (.shl c t d a b) s c t 4#10 (fixN 1) (cellA 0x17 d a b false) ∧
      faults (.shr c t d a b) s c t 4#10 (fixN 1) (cellA 0x18 d a b false) ∧
      faults (.sar c t d a b) s c t 4#10 (fixN 1) (cellA 0x19 d a b false)) ∧
    delivers (.andi c t d a imm) s c t d (res (th.pay a &&& imm.setWidth 24)) ∧
    delivers (.shli c t d a imm) s c t d (res (if 24 ≤ imm.toNat then 0#24 else th.pay a <<< imm.toNat)) ∧
    delivers (.shri c t d a imm) s c t d (res (if 24 ≤ imm.toNat then 0#24 else th.pay a >>> imm.toNat)) ∧
    delivers (.sari c t d a imm) s c t d
      (res (if 24 ≤ imm.toNat then (if bit (th.pay a) 23 then 0xFFFFFF#24 else 0#24) else (th.pay a).sshiftRight imm.toNat))

/-- EQ compares tag and payload, ILT signed FIX values, ULT payloads of one tag; each delivers CONST T or CONST NIL, and v = 1 inverts
(R197). -/
def Obligations.Comparisons : Prop :=
  ∀ (s : State) (c : Chan) (t : Fin 8) (d a b : Reg) (v : Bool), s.ready c t = true → let th := s.thread c t
    let res (p : Bool) : Cell := if p != v then 0x0C000001#32 else 0x0C000000#32
    (th.has a anyTag = true → th.has b anyTag = true → delivers (.opEq c t d a b v) s c t d
      (res (cellTag (th.reg a) = cellTag (th.reg b) ∧ th.pay a = th.pay b))) ∧
    (th.has a fixTag = true → th.has b fixTag = true → delivers (.ilt c t d a b v) s c t d (res (th.int a < th.int b))) ∧
    (th.has a isBits = true → th.has b isBits = true → cellTag (th.reg a) = cellTag (th.reg b) →
      delivers (.ult c t d a b v) s c t d (res (th.pay a < th.pay b)))

/-- The checks of a two-operand instruction, in the order of R194 step 3, on IADD: PSN in a raises the poison fault with code 0, a reserved
cell in a the reserved trap of R183, a tag outside FIX in a the type fault with code 0; only then is b looked at, with code 1. -/
def Obligations.OperandChecksInOrder : Prop :=
  ∀ (s : State) (c : Chan) (t : Fin 8) (d a b : Reg), s.ready c t = true → let th := s.thread c t
    let ic := cellA 0x10 d a b false
    (cellTag (th.reg a) = tPSN → faults (.iadd c t d a b) s c t 6#10 (fixN 0) ic) ∧
    (isReserved (th.reg a) = true → completes (.iadd c t d a b) s c t
      (((th.setReg d (th.reg a)).complete .next).raiseSync 24#10 (fixN 0) ic 1#2)) ∧
    (cellTag (th.reg a) ≠ tPSN → isReserved (th.reg a) = false → cellTag (th.reg a) ≠ tFIX →
      faults (.iadd c t d a b) s c t 3#10 (fixN 0) ic) ∧
    (th.has a fixTag = true → cellTag (th.reg b) = tPSN → faults (.iadd c t d a b) s c t 6#10 (fixN 1) ic) ∧
    (th.has a fixTag = true → isReserved (th.reg b) = true → completes (.iadd c t d a b) s c t
      (((th.setReg d (th.reg b)).complete .next).raiseSync 24#10 (fixN 1) ic 1#2)) ∧
    (th.has a fixTag = true → cellTag (th.reg b) ≠ tPSN → isReserved (th.reg b) = false → cellTag (th.reg b) ≠ tFIX →
      faults (.iadd c t d a b) s c t 3#10 (fixN 1) ic)

/-- The loop-end step (R207), seen on NOP at LOOPE: while LOOPC is above 1 it is decremented and the next PC is LOOPS; at 1 it becomes 0 and
the next PC is LOOPE + 1; a transfer there (J) clears LOOPC and wins; with LOOPC 0 or elsewhere the PC alone moves. -/
def Sys2Proof.Machine.loopEndStepClaim : Prop :=
  ∀ (s : State) (c : Chan) (t : Fin 8) (off : BitVec 16), s.ready c t = true → (s.thread c t).inShadow = false →
    let nop := cellA 0x01 0 0 0 false
    let th := s.thread c t
    (th.pc = th.loopE → 1#24 < th.loopC →
      completes (.nop c ⟨t, nop⟩) s c t { th with loopC := th.loopC - 1#24, pc := th.loopS }) ∧
    (th.pc = th.loopE → th.loopC = 1#24 → completes (.nop c ⟨t, nop⟩) s c t { th with loopC := 0#24, pc := th.loopE + 1#24 }) ∧
    (th.pc = th.loopE → th.loopC ≠ 0#24 →
      completes (.j c t off) s c t { th with loopC := 0#24, pc := th.pc + off.signExtend 24 }) ∧
    (th.pc ≠ th.loopE ∨ th.loopC = 0#24 →
      completes (.nop c ⟨t, nop⟩) s c t { th with pc := th.pc + 1#24 } ∧
      completes (.j c t off) s c t { th with pc := th.pc + off.signExtend 24 })


/-! ## Generic arithmetic (Tables 9.1 to 9.3) -/

/-- On FIX operands the generic instructions deliver the exact integer as FIX where it fits, and FDIV and TOSF the short float; NUMEQ and
NUMLT compare exactly; TRUNC delivers its integer operand unchanged (R217, R220, R222-R224). -/
def Sys2Proof.Machine.genericOnFixClaim : Prop :=
  ∀ (s : State) (c : Chan) (t : Fin 8) (d a b : Reg) (imm : BitVec 6) (v : Bool), s.ready c t = true → let th := s.thread c t
    let fits (i : Int) : Prop := -8388608 ≤ i ∧ i ≤ 8388607
    let res (i : Int) : Cell := fix (BitVec.ofInt 24 i)
    let yes (p : Bool) : Cell := if p != v then 0x0C000001#32 else 0x0C000000#32
    th.has a fixTag = true →
    (th.has b fixTag = true →
      (fits (th.int a + th.int b) → delivers (.add c t d a b) s c t d (res (th.int a + th.int b))) ∧
      (fits (th.int a - th.int b) → delivers (.sub c t d a b) s c t d (res (th.int a - th.int b))) ∧
      (fits (th.int a * th.int b) → delivers (.mul c t d a b) s c t d (res (th.int a * th.int b))) ∧
      delivers (.fdiv c t d a b) s c t d
        (mkCell tSFLT 0#2 (toSflt (Fl.div (sfltVal (toSflt (intVal (th.int a)))) (sfltVal (toSflt (intVal (th.int b))))))) ∧
      delivers (.numeq c t d a b v) s c t d (yes (th.int a = th.int b)) ∧
      delivers (.numlt c t d a b v) s c t d (yes (th.int a < th.int b))) ∧
    (fits (-th.int a) → delivers (.neg c t d a) s c t d (res (-th.int a))) ∧
    (fits (th.int a + imm.toInt) → delivers (.addi c t d a imm) s c t d (res (th.int a + imm.toInt))) ∧
    delivers (.tosf c t d a) s c t d (mkCell tSFLT 0#2 (toSflt (intVal (th.int a)))) ∧
    delivers (.trunc c t d a) s c t d (fix (th.pay a))

/-- QUO and REM on FIX operands with a nonzero divisor, the quotient within FIX: both complete, QUO truncates toward zero, REM takes the sign
of the dividend, and a = QUO × b + REM; a divisor of 0 raises the operand range fault (R222). -/
def Sys2Proof.Machine.quotientAndRemainderClaim : Prop :=
  ∀ (s : State) (c : Chan) (t : Fin 8) (d a b : Reg), s.ready c t = true → let th := s.thread c t
    th.has a fixTag = true → th.has b fixTag = true →
    (th.int b ≠ 0 → ¬ (th.int a = -8388608 ∧ th.int b = -1) →
      ∃ q r : Int, delivers (.quo c t d a b) s c t d (fix (BitVec.ofInt 24 q)) ∧
        delivers (.rem c t d a b) s c t d (fix (BitVec.ofInt 24 r)) ∧
        th.int a = q * th.int b + r ∧ r.natAbs < (th.int b).natAbs ∧ (0 < r → 0 < th.int a) ∧ (r < 0 → th.int a < 0) ∧
        -8388608 ≤ q ∧ q ≤ 8388607) ∧
    (th.int b = 0 → faults (.quo c t d a b) s c t 4#10 (fixN 1) (cellA 0x64 d a b false) ∧
      faults (.rem c t d a b) s c t 4#10 (fixN 1) (cellA 0x65 d a b false))

/-- The product of two FIX operands lies in the 48-bit range, so that MUL of two FIX never raises the arithmetic overflow fault: where it does
not fit FIX, it asks for a box (R217, R220). -/
def Sys2Proof.Machine.fixProductNeverOverflowsClaim : Prop :=
  ∀ p q : Payload, canonical (fixInt p * fixInt q) ≠ .overflow

/-- Generic instructions on FIX operands, the law of the quotient and the remainder, and the range of products: the claims genericOnFixClaim, quotientAndRemainderClaim, fixProductNeverOverflowsClaim. -/
def Obligations.GenericArithmetic : Prop := genericOnFixClaim ∧ quotientAndRemainderClaim ∧ fixProductNeverOverflowsClaim

/-- On SFLT operands the generic and the short-float instructions deliver the rounded short float of the exact operation, and compare the
values; a NaN makes both comparisons NIL before v is applied (R220, R221, R223, R226). -/
def Obligations.ShortFloats : Prop :=
  ∀ (s : State) (c : Chan) (t : Fin 8) (d a b : Reg) (v : Bool), s.ready c t = true → let th := s.thread c t
    let sf (g : BitVec 6) : Bool := g = tSFLT
    let x := sfltVal (th.pay a)
    let y := sfltVal (th.pay b)
    let res (f : Fl) : Cell := mkCell tSFLT 0#2 (toSflt f)
    th.has a sf = true → th.has b sf = true →
    delivers (.fadd c t d a b) s c t d (res (x.add y)) ∧ delivers (.add c t d a b) s c t d (res (x.add y)) ∧
    delivers (.fsub c t d a b) s c t d (res (x.add y.neg)) ∧ delivers (.sub c t d a b) s c t d (res (x.add y.neg)) ∧
    delivers (.fmul c t d a b) s c t d (res (x.mul y)) ∧ delivers (.mul c t d a b) s c t d (res (x.mul y)) ∧
    delivers (.fdv c t d a b) s c t d (res (x.div y)) ∧ delivers (.fdiv c t d a b) s c t d (res (x.div y)) ∧
    delivers (.neg c t d a) s c t d (res x.neg) ∧
    delivers (.numeq c t d a b v) s c t d (if x.eq y != v then cT else cNIL) ∧
    delivers (.numlt c t d a b v) s c t d (if x.lt y != v then cT else cNIL) ∧
    (x = Fl.nan → x.eq y = false ∧ x.lt y = false)

/-! ## The accumulator (Table 9.7) -/

/-- MAC and MACS add the exact product to ACC, or subtract it when v = 1; outside −2^55 … 2^55 − 1 MAC keeps the sum modulo 2^56 and traps
after completion, MACS saturates by the sign of the exact sum, and both set ACCOV; ACCZ clears ACC alone; ACCGET delivers
⌊(ACC + h) ÷ 2^s⌋ where it fits FIX (R235, R236). -/
def Obligations.Accumulator : Prop :=
  ∀ (s : State) (c : Chan) (t : Fin 8) (d a b : Reg) (imm : BitVec 6) (v : Bool), s.ready c t = true → let th := s.thread c t
    let sum : Int := if v then th.acc.toInt - th.int a * th.int b else th.acc.toInt + th.int a * th.int b
    let ovf := setBit th.pstate 4 true
    (th.has a fixTag = true → th.has b fixTag = true →
      (-36028797018963968 ≤ sum ∧ sum ≤ 36028797018963967 →
        completes (.mac c t a b v) s c t ({ th with acc := BitVec.ofInt 56 sum }.complete .next) ∧
        completes (.macs c t a b v) s c t ({ th with acc := BitVec.ofInt 56 sum }.complete .next)) ∧
      (sum < -36028797018963968 ∨ 36028797018963967 < sum →
        completes (.mac c t a b v) s c t (({ th with acc := BitVec.ofInt 56 sum, pstate := ovf }.complete .next).raiseSync 26#10 fix0
          (cellA 0xA0 0 a b v) 1#2) ∧
        completes (.macs c t a b v) s c t ({ th with
          acc := if sum < 0 then 0x80000000000000#56 else 0x7FFFFFFFFFFFFF#56
          pstate := ovf }.complete .next))) ∧
    completes (.accz c t) s c t ({ th with acc := 0#56 }.complete .next) ∧
    (let h : Int := if imm = 0#6 then 0 else 2 ^ (imm.toNat - 1);
     let q : Int := (th.acc.toInt + h) / 2 ^ imm.toNat;
      imm ≤ 32#6 → -8388608 ≤ q → q ≤ 8388607 → delivers (.accget c t d imm) s c t d (fix (BitVec.ofInt 24 q))) ∧
    (32#6 < imm → faults (.accget c t d imm) s c t 4#10 (fixN 4) (cellI 0xA3 d 0 imm))

/-! ## Transfers, threads and special registers -/

/-- Relative transfers count from the instruction's own address, modulo 2^24; CALL leaves RETA of the next address in c15; BT branches when d
is not NIL and BF when it is; RET goes to the RETA's payload; ENDP tells NIL (R206, Table 8.10). -/
def Sys2Proof.Machine.transfersClaim : Prop :=
  ∀ (s : State) (c : Chan) (t : Fin 8) (d a : Reg) (off16 : BitVec 16) (off : BitVec 11), s.ready c t = true → let th := s.thread c t
    completes (.j c t off16) s c t (th.complete (.jump (th.pc + off16.signExtend 24))) ∧
    completes (.call c t off16) s c t ((th.setReg 15 (reta (th.pc + 1#24))).complete (.jump (th.pc + off16.signExtend 24))) ∧
    (th.has d anyTag = true →
      let nil : Prop := cellTag (th.reg d) = tCONST ∧ th.pay d = 0#24
      completes (.bt c t d off) s c t (th.complete (if nil then .next else .jump (th.pc + off.signExtend 24))) ∧
      completes (.bf c t d off) s c t (th.complete (if nil then .jump (th.pc + off.signExtend 24) else .next))) ∧
    (th.has a (fun g => g = tRETA) = true → completes (.ret c t a) s c t (th.complete (.jump (th.pay a))))

/-- LOOP sets LOOPS := PC + 1, LOOPE := PC + off11 and LOOPC := d, and with d = FIX 0 continues at LOOPE + 1; a negative d or an off11 of 0 raises
the operand range fault (R207). -/
def Sys2Proof.Machine.loopSetupClaim : Prop :=
  ∀ (s : State) (c : Chan) (t : Fin 8) (d : Reg) (off : BitVec 11), s.ready c t = true → let th := s.thread c t
    let e := th.pc + off.setWidth 24
    th.has d fixTag = true →
    (0 ≤ th.int d → off ≠ 0#11 → completes (.loop c t d off) s c t
      ({ th with loopC := th.pay d, loopS := th.pc + 1#24, loopE := e }.complete (if th.pay d = 0#24 then .jump (e + 1#24) else .next))) ∧
    (th.int d < 0 → faults (.loop c t d off) s c t 4#10 (fixN 2) (cellL 0x37 d off)) ∧
    (0 ≤ th.int d → off = 0#11 → faults (.loop c t d off) s c t 4#10 (fixN 4) (cellL 0x37 d off))

/-- LOOP, and the step at the loop end: the claims loopSetupClaim, loopEndStepClaim. -/
def Obligations.HardwareLoop : Prop := loopSetupClaim ∧ loopEndStepClaim

/-- SIG makes the named software signal pending on its own channel, a second raise counting as an overrun, and any other number raises the operand
range fault; SVC completes and then traps with imm11 in ADDR; WAIT leaves the thread waiting with its mask, its window closed, and a mask with no bit
or a reserved bit set raises the operand range fault (R210, R211, R213). -/
def Obligations.SignalsAndWaiting : Prop :=
  ∀ (s : State) (c : Chan) (t : Fin 8) (a : Reg) (imm : BitVec 11), s.ready c t = true → let th := s.thread c t
    let p := (s.chan c).proc
    completes (.svc c t imm) s c t ((th.complete .next).raiseSync 27#10 (fix (imm.setWidth 24)) (cellL 0x3A 0 imm) 1#2) ∧
    (th.has a fixTag = true →
      (768 ≤ th.int a → th.int a ≤ 1023 →
        (mapGet p.pend (th.pay a).toNat = none →
          leaves (.sig c t a) s c t { s.chan c with proc := { p with
            pend := mapPut p.pend (th.pay a).toNat { overrun := 0#8, addr := fix0 } } } (th.complete .next)) ∧
        ∀ q, mapGet p.pend (th.pay a).toNat = some q →
          leaves (.sig c t a) s c t { s.chan c with proc := { p with
            pend := mapPut p.pend (th.pay a).toNat { q with overrun := satInc q.overrun } } } (th.complete .next)) ∧
      (th.int a < 768 ∨ 1023 < th.int a → faults (.sig c t a) s c t 4#10 (fixN 0) (cellA 0x39 0 a 0 false)) ∧
      (th.pay a ≠ 0#24 → bits (th.pay a) 16 7 = 0 → th.rootReq = false →
        completes (.wait c t a) s c t { th with status := .waiting (th.pay a), hold := none, inShadow := false }) ∧
      (th.pay a = 0#24 ∨ bits (th.pay a) 16 7 ≠ 0 → faults (.wait c t a) s c t 4#10 (fixN 0) (cellA 0x38 0 a 0 false)))

/-- THALT stops its thread, on thread 0 it is an illegal instruction; ROOTSCAN with no request outstanding does nothing, and else ends the request: in a
space that is not the cycle's with nothing more, in ROOTS of its own space, every root cell served, with its registers as they were; UENTER to a
RETA clears S and the next boundary is in the mode-change shadow (R212, R213, R267, R349, R350). -/
def Sys2Proof.Machine.threadsAndModesClaim : Prop :=
  ∀ (s : State) (c : Chan) (t : Fin 8) (a : Reg), s.ready c t = true → (s.thread c t).sup = true → let th := s.thread c t
    (t ≠ 0 → ((s.chan c).core[coreOf t]).wb = [] →
      completes (.thalt c t) s c t ({ th with status := .stopped, rootReq := false, rootPend := false }.complete .next)) ∧
    (t = 0 → faults (.thalt c t) s c t 1#10 fix0 (cellA 0x3E 0 0 0 false)) ∧
    (th.rootReq = false → completes (.rootscan c t) s c t (th.complete .next)) ∧
    (th.rootReq = true → (s.mach c).rootSpace th = false →
      completes (.rootscan c t) s c t ({ th with rootReq := false, rootPend := false }.complete .next)) ∧
    (th.rootReq = true → (s.chan c).sw.phase = .roots → th.shlvl = true ∨ th.frame = none →
      ∃ s', exec (.rootscan c t) s = .next s' ∧ s'.thread c t = { th with rootReq := false, rootPend := false }.complete .next ∧
        s'.pending = s.pending ∧ sameElsewhere s s' c) ∧
    (th.has a (fun g => g = tRETA) = true →
      completes (.uenter c t a) s c t ({ th with pstate := setBit th.pstate 0 false }.complete (.enter (th.pay a))))

/-- What MFS delivers of a thread's own registers (Table 8.1), with the number and whether only supervisor code may read it. -/
def Sys2Proof.Machine.Thread.specials (th : Thread) (t : Fin 8) : List (BitVec 11 × Bool × Cell) :=
  [(0x00#11, true, fix th.pc), (0x01#11, false, fix th.pstate), (0x02#11, false, th.spU), (0x03#11, true, th.spS), (0x04#11, true, th.chain),
   (0x05#11, false, fix (BitVec.ofNat 24 t.val)), (0x06#11, false, fix (th.asid.setWidth 24)),
   (0x08#11, false, fix ((th.acc.extractLsb' 48 8).signExtend 24)), (0x09#11, false, fix (th.acc.extractLsb' 24 24)),
   (0x0A#11, false, fix (th.acc.extractLsb' 0 24)), (0x0C#11, false, fix th.loopC), (0x0D#11, false, fix th.loopS),
   (0x0E#11, false, fix th.loopE)]
/-- What MFS delivers of a channel's supervisor registers (Table 8.2), CSTAT and DEVID apart. -/
def Sys2Proof.Machine.Proc.specials (p : Proc) : List (BitVec 11 × Bool × Cell) :=
  [(0x20#11, true, fix p.vbase), (0x21#11, true, p.cfree), (0x22#11, true, fix p.ptbase), (0x23#11, true, fix p.hatbase),
   (0x24#11, true, fix p.hatsize), (0x26#11, true, fix p.regmap), (0x27#11, true, fix p.nearbase), (0x28#11, true, fix p.ucver)]

/-- MFS delivers each special register of Tables 8.1 and 8.2; one that only supervisor code may read raises the privilege fault in user code; an
unassigned number or nonzero bits 10:8 are an illegal instruction (R186, R188). -/
def Obligations.ReadSpecialRegisters : Prop :=
  ∀ (s : State) (c : Chan) (t : Fin 8) (d : Reg), s.ready c t = true → let th := s.thread c t
    (∀ r ∈ th.specials t ++ (s.chan c).proc.specials,
      (r.2.1 = false ∨ th.sup = true → delivers (.mfs c t d r.1) s c t d r.2.2) ∧
      (r.2.1 = true ∧ th.sup = false → faults (.mfs c t d r.1) s c t 2#10 fix0 (cellL 0x40 d r.1))) ∧
    (∀ n : BitVec 11, 0x2A#11 ≤ n ∨ n = 0x07#11 ∨ n = 0x0B#11 ∨ (0x0F#11 ≤ n ∧ n < 0x20#11) →
      faults (.mfs c t d n) s c t 1#10 fix0 (cellL 0x40 d n))

/-- MTS writes the special register it names, with CDR 00, where mode, tag and value permit, and nothing else: thread registers first, then the
channel's (R186-R188); in user code a write of PSTATE changes ACCOV only, in supervisor code TE as well (R187). -/
def Sys2Proof.Machine.writeSpecialRegistersClaim : Prop :=
  ∀ (s : State) (c : Chan) (t : Fin 8) (d : Reg), s.ready c t = true → let th := s.thread c t
    let v := th.pay d
    let ps := setBit th.pstate 4 (bit v 4)
    let p := (s.chan c).proc
    let mts (n : BitVec 11) (th' : Thread) : Prop := completes (.mts c t d n) s c t (th'.complete .next)
    let put (n : BitVec 11) (p' : Proc) : Prop := leaves (.mts c t d n) s c t { s.chan c with proc := p' } (th.complete .next)
    (th.has d fixTag = true →
      mts 0x01#11 { th with pstate := if th.sup then setBit ps 1 (bit v 1) else ps } ∧
      mts 0x08#11 { th with acc := (v.extractLsb' 0 8 ++ th.acc.extractLsb' 24 24 ++ th.acc.extractLsb' 0 24 : BitVec 56) } ∧
      mts 0x09#11 { th with acc := (th.acc.extractLsb' 48 8 ++ v ++ th.acc.extractLsb' 0 24 : BitVec 56) } ∧
      mts 0x0A#11 { th with acc := (th.acc.extractLsb' 48 8 ++ th.acc.extractLsb' 24 24 ++ v : BitVec 56) } ∧
      (0 ≤ th.int d → mts 0x0C#11 { th with loopC := v }) ∧
      (th.int d < 0 → faults (.mts c t d 0x0C#11) s c t 4#10 (fixN 2) (cellL 0x41 d 0x0C#11))) ∧
    (th.has d (fun g => g = tLOC) = true → mts 0x02#11 { th with spU := loc v }) ∧
    (th.sup = true →
      (th.has d (fun g => g = tLOC) = true → mts 0x03#11 { th with spS := loc v }) ∧
      (th.has d (fun g => g = tCRATE) = true →
        mts 0x04#11 { th with chain := mkCell tCRATE 0#2 v } ∧ put 0x21#11 { p with cfree := mkCell tCRATE 0#2 v }) ∧
      (th.has d fixTag = true →
        (v ≤ 255#24 → mts 0x06#11 { th with asid := v.setWidth 8 }) ∧
        (255#24 < v → faults (.mts c t d 0x06#11) s c t 4#10 (fixN 2) (cellL 0x41 d 0x06#11)) ∧
        mts 0x0D#11 { th with loopS := v } ∧ mts 0x0E#11 { th with loopE := v } ∧
        (v < 0x400000#24 → put 0x26#11 { p with regmap := v }) ∧
        (v ≤ 0xF400#24 → v.extractLsb' 0 10 = 0#10 → put 0x27#11 { p with nearbase := v }) ∧
        leaves (.mts c t d 0x22#11) s c t { s.chan c with
          proc := { p with ptbase := v &&& 0x3FFFFF#24 }, sw := { (s.chan c).sw with xlate := none } } (th.complete .next) ∧
        (v < 0x400000#24 → leaves (.mts c t d 0x23#11) s c t { s.chan c with
          proc := { p with hatbase := v }, sw := { (s.chan c).sw with xlate := none } } (th.complete .next)) ∧
        (v = 0#24 ∨ (10#24 ≤ v ∧ v ≤ 22#24) → leaves (.mts c t d 0x24#11) s c t { s.chan c with
          proc := { p with hatsize := v }, sw := { (s.chan c).sw with xlate := none } } (th.complete .next)))) ∧
    (th.sup = false → faults (.mts c t d 0x03#11) s c t 2#10 fix0 (cellL 0x41 d 0x03#11) ∧
      faults (.mts c t d 0x20#11) s c t 2#10 fix0 (cellL 0x41 d 0x20#11)) ∧
    faults (.mts c t d 0x05#11) s c t 1#10 fix0 (cellL 0x41 d 0x05#11)


/-! ## Transfers through CODE, and starting a thread -/

/-- A transfer through CODE enters at header + 2 + NCONST; CALLR leaves RETA of the next address in d, and through a closure first the closure in
c14; UENTER through CODE clears S (R173, R206, R213). -/
def Sys2Proof.Machine.codeTransfersClaim : Prop :=
  ∀ (s : State) (c : Chan) (t : Fin 8) (d a : Reg) (e : VAddr), s.plain c t = true → let th := s.thread c t
    let p := th.reg a
    (cellTag p = tCODE → s.entryAt c t p = some e →
      accesses (.jmpr c t a) s c t (th.complete (.jump e)) [] ∧
      accesses (.callr c t d a) s c t ((th.setReg d (reta (th.pc + 1#24))).complete (.jump e)) [] ∧
      (th.sup = true →
        accesses (.uenter c t a) s c t ({ th with pstate := setBit th.pstate 0 false }.complete (.enter e)) [])) ∧
    (∀ (h k : Cell) (va : VAddr), cellTag p = tCLO → s.headerAt c t p = some h → 1 ≤ hdrSize h →
      s.found c t (cellPay p + 1#24) = some (va, k) → cellTag k = tCODE → s.entryAt c t k = some e →
      accesses (.callr c t d a) s c t (((th.setReg 14 p).setReg d (reta (th.pc + 1#24))).complete (.jump e)) [])

/-- The control transfers: the claims transfersClaim, codeTransfersClaim. -/
def Obligations.ControlTransfers : Prop := transfersClaim ∧ codeTransfersClaim

/-- TSTART starts the stopped thread FIX a, 1 to 7: supervisor mode with TE and ASID of the starting thread, SP_S := d, PC at the entry of CODE b, every
other register FIX 0; a number outside 1 to 7 or a thread that is not stopped raises the operand range fault (R212). -/
def Sys2Proof.Machine.startThreadClaim : Prop :=
  ∀ (s : State) (c : Chan) (t j : Fin 8) (d a b : Reg) (e : VAddr), s.plain c t = true → (s.thread c t).sup = true →
    let th := s.thread c t
    let old := s.thread c j
    th.has a fixTag = true → th.has b (fun g => g = tCODE) = true → th.has d (fun g => g = tLOC) = true →
    (th.int a = j.val → j ≠ 0 → old.status = .stopped → s.entryAt c t (th.reg b) = some e →
      ∃ s', exec (.tstart c t d a b) s = .next s' ∧
        onlyAccess (s.setChan c { s.chan c with thr := (s.chan c).thr.set j { old with
            regs := Vector.replicate 32 fix0, bank := Vector.replicate 16 fix0, acc := 0#56, loopC := 0#24, loopS := 0#24, loopE := 0#24
            pc := e, pstate := if th.te then 3#24 else 1#24, spU := fix0, spS := loc (th.pay d), chain := fix0, asid := th.asid
            frame := none, shlvl := false, shRet := 0#24, shPst := 0#24, shFrame := none, shOpened := false
            status := .running, hold := none, inShadow := false, sync := none, rootReq := false, rootPend := false } })
          s' c t (th.complete .next) []) ∧
    (th.int a < 1 ∨ 7 < th.int a → faults (.tstart c t d a b) s c t 4#10 (fixN 0) (cellA 0x3D d a b false)) ∧
    (th.int a = j.val → j ≠ 0 → old.status ≠ .stopped → faults (.tstart c t d a b) s c t 4#10 (fixN 0) (cellA 0x3D d a b false))

/-- Threads, modes and their starts: the claims threadsAndModesClaim, startThreadClaim. -/
def Obligations.ThreadsAndModes : Prop := threadsAndModesClaim ∧ startThreadClaim

/-! ## Loads (Tables 8.8, 8.9, 9.6) -/

/-- The loads deliver the cell their pointer, index, stack pointer or list cell reaches, FWD cells followed, into d alone; no stored cell changes
(R179, R199, R202, R204, R231). -/
def Sys2Proof.Machine.loadsClaim : Prop :=
  ∀ (s : State) (c : Chan) (t : Fin 8) (d a b : Reg) (imm : BitVec 6) (n : BitVec 11) (va w : VAddr) (v : Cell), s.plain c t = true →
    let th := s.thread c t
    let p := th.reg a
    let got : Prop := s.found c t va = some (w, v) ∧ loadable v = true
    let put (x : Cell) : Thread := (th.setReg d x).complete .next
    (th.has a isPtr = true → (cellTag p = tCRATE → th.sup = true) → s.fieldAt c t p imm.toNat false = some va → got →
      accesses (.ld c t d a imm) s c t (put v) []) ∧
    (th.has a isHdrp = true → (cellTag p = tCRATE → th.sup = true) → th.has b fixTag = true → s.indexAt c t p (th.int b) = some va →
      got → accesses (.ldx c t d a b) s c t (put v) []) ∧
    (∀ j : Nat, th.has a (fun g => g = tSTR || g = tVEC) = true → th.has b fixTag = true → s.byteAt c t p (th.int b) = some (va, j) →
      got → accesses (.ldb c t d a b) s c t (put (fixN (bits (cellPay v) (8 * j) 8))) []) ∧
    (n ≠ 0#11 → va = th.pc - n.setWidth 24 → got → cellTag v ≠ tINSTR → cellTag v ≠ tHDR → cellTag v ≠ tFREE →
      accesses (.ldk c t d n) s c t (put (withCdr v 0#2)) []) ∧
    (cellTag th.sp = tLOC → va = cellPay th.sp → got →
      accesses (.pop c t d) s c t (((th.setReg d v).setSp (loc (va + 1#24))).complete .next) []) ∧
    (cellTag th.sp = tLOC → va = cellPay th.sp + n.setWidth 24 → got → accesses (.ldsp c t d n) s c t (put v) []) ∧
    (cellTag p = tCONS → va = cellPay p → got → cellCdr v ≠ 3#2 → accesses (.car c t d a) s c t (put v) [])

/-- CAR and CDR accept CONS or NIL and ENDP too; any other tag raises the type fault. CAR delivers the contents of the list cell, CDR what its CDR code
says: the next cell's contents for NORMAL, a CONS to the next cell for NEXT, NIL for NIL; both follow FWD, and code 11 raises the type fault. CAR and CDR of NIL
are NIL, ENDP tells NIL from a pair (R160, R161, R231). -/
def Obligations.ListReads : Prop :=
  ∀ (s : State) (c : Chan) (t : Fin 8) (d a : Reg) (va w : VAddr) (v x : Cell), s.plain c t = true → let th := s.thread c t
    let p := th.reg a
    let put (x : Cell) : Thread := (th.setReg d x).complete .next
    (cellTag p = tCONS → s.found c t (cellPay p) = some (va, v) → cellTag v ≠ tPSN →
      (cellCdr v = 1#2 → accesses (.opCdr c t d a) s c t (put (mkCell tCONS 0#2 (va + 1#24))) []) ∧
      (cellCdr v = 2#2 → accesses (.opCdr c t d a) s c t (put cNIL) []) ∧
      (cellCdr v = 0#2 → s.found c t (va + 1#24) = some (w, x) → loadable x = true → accesses (.opCdr c t d a) s c t (put x) [])) ∧
    (cellTag p = tCONST → cellPay p = 0#24 →
      delivers (.car c t d a) s c t d cNIL ∧ delivers (.opCdr c t d a) s c t d cNIL ∧ delivers (.endp c t d a) s c t d cT) ∧
    (cellTag p = tCONS → delivers (.endp c t d a) s c t d cNIL) ∧
    (cellTag p = tCONS → s.found c t (cellPay p) = some (va, v) → loadable v = true → cellCdr v ≠ 3#2 → accesses (.car c t d a) s c t (put v) []) ∧
    (cellTag p = tCONS → s.found c t (cellPay p) = some (va, v) → cellTag v ≠ tPSN → cellCdr v = 3#2 →
      accesses (.car c t d a) s c t (th.raiseSync 3#10 (fixN 3) (cellA 0x80 d a 0 false) 0#2) [] ∧
      accesses (.opCdr c t d a) s c t (th.raiseSync 3#10 (fixN 3) (cellA 0x81 d a 0 false) 0#2) []) ∧
    (th.has a (fun g => g ≠ tCONS && g ≠ tPSN && (g ≠ tCONST || !isNil p)) = true →
      faults (.car c t d a) s c t 3#10 (fixN 0) (cellA 0x80 d a 0 false) ∧ faults (.opCdr c t d a) s c t 3#10 (fixN 0) (cellA 0x81 d a 0 false) ∧
      faults (.endp c t d a) s c t 3#10 (fixN 0) (cellA 0x85 d a 0 false))

/-- LOCOF makes a LOC to the cell LDX would address, for a CONS and FIX 0 the car cell, and ADDSP moves SP by the signed immediate: neither reads the cell
(R203, R204). -/
def Sys2Proof.Machine.addressesClaim : Prop :=
  ∀ (s : State) (c : Chan) (t : Fin 8) (d a b : Reg) (imm : BitVec 11) (va : VAddr), s.plain c t = true → let th := s.thread c t
    let p := th.reg a
    (th.has b fixTag = true →
      (cellTag p = tCONS → th.pay b = 0#24 → delivers (.locof c t d a b) s c t d (loc (cellPay p))) ∧
      (cellTag p = tCONS → th.pay b ≠ 0#24 → faults (.locof c t d a b) s c t 4#10 (fixN 1) (cellA 0x27 d a b false)) ∧
      (th.has a isHdrp = true → (cellTag p = tCRATE → th.sup = true) → s.indexAt c t p (th.int b) = some va →
        accesses (.locof c t d a b) s c t ((th.setReg d (loc va)).complete .next) [])) ∧
    (cellTag th.sp = tLOC → completes (.addsp c t imm) s c t ((th.setSp (loc (cellPay th.sp + imm.signExtend 24))).complete .next))

/-- The loads, and the address instructions: the claims loadsClaim, addressesClaim. -/
def Obligations.LoadsAndAddresses : Prop := loadsClaim ∧ addressesClaim

/-! ## Stores (Table 8.9, R317, R330) -/

/-- A store to a field or an element, PUSH and STSP translate their cell and leave it in the write buffer as one data cell: no register but SP changes,
and no stored cell until the buffer drains (R200, R204, R317). -/
def Sys2Proof.Machine.bufferedStoresClaim : Prop :=
  ∀ (s : State) (c : Chan) (t : Fin 8) (d a b : Reg) (imm : BitVec 6) (n : BitVec 11) (va : VAddr) (k : Nat), s.plain c t = true →
    let th := s.thread c t
    let p := th.reg a
    let v := th.reg d
    let at_ : Prop := s.reach c t va needW = some k
    let wb := [storeEntry t k v ((s.mach c).logAction th va v)]
    th.has d anyTag = true →
    (th.has a isHdrp = true → s.fieldAt c t p imm.toNat true = some va → storable th.sup p (s.headerAt c t p) v = true → at_ →
      accesses (.st c t d a imm) s c t (th.complete .next) wb) ∧
    (th.has a isHdrp = true → th.has b fixTag = true → s.indexAt c t p (th.int b) = some va →
      storable th.sup p (s.headerAt c t p) v = true → at_ → accesses (.stx c t d a b) s c t (th.complete .next) wb) ∧
    (cellTag th.sp = tLOC → (th.sup || !userSealed (cellTag v)) = true →
      (va = cellPay th.sp - 1#24 → at_ → accesses (.push c t d) s c t ((th.setSp (loc va)).complete .next) wb) ∧
      (va = cellPay th.sp + n.setWidth 24 → at_ → accesses (.stsp c t d n) s c t (th.complete .next) wb))

/-- ST through a CONS or LOC is checked at its own step: it takes its place at once, at the cell reached through FWD cells, keeps the CDR stored there,
and changes no other cell (R159, R330). -/
def Sys2Proof.Machine.checkedStoreClaim : Prop :=
  ∀ (s : State) (c : Chan) (t : Fin 8) (d a : Reg) (va : VAddr) (k : Nat), s.plain c t = true → let th := s.thread c t
    let p := th.reg a
    let v := th.reg d
    cellTag p = tCONS ∨ cellTag p = tLOC → th.has d anyTag = true → (th.sup || !userSealed (cellTag v)) = true →
    s.chase c t needW 8 (cellPay p) = some (va, k) → (s.mach c).logAction th va v = [] →
    storesAt (.st c t d a 0#6) s c t (th.complete .next) k (withCdr v (cellCdr (s.cell c k)))

/-- CAS in one indivisible step: the cell reached is replaced by b, its CDR kept, where it agrees with d in tag and payload; d receives the cell found;
over PSN b is written and d receives UNBOUND (R201). -/
def Sys2Proof.Machine.compareAndSwapClaim : Prop :=
  ∀ (s : State) (c : Chan) (t : Fin 8) (d a b : Reg) (va : VAddr) (k : Nat), s.plain c t = true → let th := s.thread c t
    let p := th.reg a
    let old := s.cell c k
    let new := withCdr (th.reg b) (cellCdr old)
    cellTag p = tCONS ∨ cellTag p = tLOC → th.has b anyTag = true → th.has d anyTag = true →
    (th.sup || !userSealed (cellTag (th.reg b))) = true → s.chase c t needRW 8 (cellPay p) = some (va, k) →
    (s.mach c).logAction th va (th.reg b) = [] → isReserved old = false →
    (cellTag old = tPSN → storesAt (.cas c t d a b) s c t ((th.setReg d cUNBOUND).complete .next) k new) ∧
    (cellTag old ≠ tPSN → cellTag old = cellTag (th.reg d) → cellPay old = th.pay d →
      storesAt (.cas c t d a b) s c t ((th.setReg d old).complete .next) k new) ∧
    (cellTag old ≠ tPSN → ¬ (cellTag old = cellTag (th.reg d) ∧ cellPay old = th.pay d) →
      accesses (.cas c t d a b) s c t ((th.setReg d old).complete .next) [])

/-- STB replaces one byte of the payload of the cell reached, and nothing else of it or of memory; a value outside 0 to 255 raises the operand range fault
(R171, R202). -/
def Sys2Proof.Machine.byteStoreClaim : Prop :=
  ∀ (s : State) (c : Chan) (t : Fin 8) (d a b : Reg) (va w : VAddr) (j k : Nat), s.plain c t = true → let th := s.thread c t
    let old := s.cell c k
    th.has a (fun g => g = tSTR || g = tVEC) = true → th.has b fixTag = true → th.has d fixTag = true →
    (0 ≤ th.int d → th.int d ≤ 255 → s.byteAt c t (th.reg a) (th.int b) = some (va, j) → s.chase c t needRW 8 va = some (w, k) →
      loadable old = true →
      storesAt (.stb c t d a b) s c t (th.complete .next) k (withPay old (setField (cellPay old) (8 * j) 8 (th.pay d).toNat))) ∧
    (th.int d < 0 ∨ 255 < th.int d → faults (.stb c t d a b) s c t 4#10 (fixN 2) (cellA 0x26 d a b false))

/-- STR and STB: the claims checkedStoreClaim, byteStoreClaim. -/
def Obligations.CheckedAndByteStores : Prop := checkedStoreClaim ∧ byteStoreClaim

/-- RPLACD of a NORMAL pair stores the new cdr at its own step in the cell after the car, or where the FWD cells there lead, the CDR stored there kept (R179);
a compact cell whose cdr is already the value asked for stays as it is (R233). -/
def Sys2Proof.Machine.replaceCdrClaim : Prop :=
  ∀ (s : State) (c : Chan) (t : Fin 8) (a b : Reg) (va w : VAddr) (v : Cell) (k : Nat), s.plain c t = true → let th := s.thread c t
    let p := th.reg a
    let y := th.reg b
    cellTag p = tCONS → isReserved v = false → th.has b anyTag = true → (th.sup || !userSealed (cellTag y)) = true →
    s.found c t (cellPay p) = some (va, v) → cellTag v ≠ tPSN →
    (cellCdr v = 0#2 → s.chase c t needW 8 (va + 1#24) = some (w, k) → (s.mach c).logAction th w y = [] →
      storesAt (.rplacd c t a b) s c t (th.complete .next) k (withCdr y (cellCdr (s.cell c k)))) ∧
    ((cellCdr v = 2#2 ∧ cellTag y = tCONST ∧ cellPay y = 0#24) ∨ (cellCdr v = 1#2 ∧ cellTag y = tCONS ∧ cellPay y = va + 1#24) →
      accesses (.rplacd c t a b) s c t (th.complete .next) [])

/-- CAS and RPLACD: the claims compareAndSwapClaim, replaceCdrClaim. -/
def Obligations.SwapAndReplaceCdr : Prop := compareAndSwapClaim ∧ replaceCdrClaim

/-- A write buffer entry that only holds cells of a memory line. -/
def Sys2Proof.Machine.plainEntry (ch : Channel) (e : WbEntry) : Bool :=
  decide (e.kind = .memory) && e.logs.isEmpty && !e.zline && (List.range 16).all (fun p => decide (ch.place (e.line * 16 + p) = .memory))

/-- The oldest entry of a write buffer takes its place, by a drain or at its core's turn in the rotation of the turnstile: its cells are stored, a marked one keeping the
CDR stored, every other cell reads as before, and the entry leaves the buffer (R317, R328). -/
def Obligations.WriteBufferDrains : Prop :=
  ∀ (s : State) (c : Chan) (k : Fin 2) (e : WbEntry) (r : List WbEntry) (i : Instr),
    (s.chan c).life.cond = .running → (s.chan c).life.power ≠ .sleep → (s.mach c).heldBack = false → ((s.chan c).core[k]).wb = e :: r →
    plainEntry (s.chan c) e = true →
    i = .writeBufferDrain c k ∨ (i = .turnstileGrant c ∧ (s.chan c).proc.granted = (if k = 0 then .unitPort else .core0) ∧
      ((s.chan c).mc.pool.filter (fun q => q.src = .turnstile)).length < 896) →
    ∃ s', exec i s = .next s' ∧ ((s'.chan c).core[k]).wb = r ∧ (s'.chan c).thr = (s.chan c).thr ∧
      sameElsewhere s s' c ∧ (s'.chan c).proc.granted = (if k = 0 then .core0 else .core1) ∧
      ∀ a, s'.cell c a = if a / 16 = e.line then
          match mapGet e.cells (a % 16) with
          | some (v, true) => withCdr v (cellCdr (s.cell c a))
          | some (v, false) => v
          | none => s.cell c a
        else s.cell c a

/-- FENCE completes once every earlier store of its thread has taken its place: its core's buffer then holds none of them, and what the core would read at any
address is unchanged (R205, R318). -/
def Obligations.FenceDrains : Prop :=
  ∀ (s : State) (c : Chan) (t : Fin 8), s.ready c t = true → (s.chan c).proc.dcen = false →
    ((s.chan c).core[coreOf t]).wb.all (plainEntry (s.chan c)) = true →
    ∃ s', exec (.fence c t) s = .next s' ∧ onlyStep s s' c t ((s.thread c t).complete .next) ∧
      ((s'.chan c).core[coreOf t]).wb.all (fun e => e.threads &&& thBit t = 0#8) = true ∧
      (∀ a, s'.seen c t a = s.seen c t a)

/-! ## Allocation (Tables 9.4 to 9.6) -/

/-- The channel with a thread's pitch in a slot set. -/
def Sys2Proof.Machine.Channel.withPitch (ch : Channel) (sl t : Fin 8) (p : Nat × Nat) : Channel :=
  let x := ch.sw.slots[sl]
  { ch with sw.slots := ch.sw.slots.set sl { x with pitch := mapPut x.pitch t.val p } }
/-- The instruction takes an object of these cells from the top of its thread's pitch: the cells are written there and nowhere else, the pitch top moves past
them, and d receives the pointer under tag g (R227). -/
def Sys2Proof.Machine.allocates (i : Instr) (s : State) (c : Chan) (t : Fin 8) (cells : List Cell) (d : Reg) (g : BitVec 6) : Prop :=
  ∀ (sl : Fin 8) (top fin a : Nat), (s.thread c t).te = true → (s.thread c t).resv = none →
    (s.chan c).sw.slotOfAsid (s.thread c t).asid = some sl → mapAt (0, 0) ((s.chan c).sw.slots[sl]).pitch t.val = (top, fin) →
    top + cells.length ≤ fin → top % 1024 + cells.length ≤ 1024 → top < 0x1000000 → s.reach c t (BitVec.ofNat 24 top) needW = some a →
    ∃ s', exec i s = .next s' ∧
      onlyStep (s.setChan c ((s.chan c).withPitch sl t (top + cells.length, fin))) s' c t
        (((s.thread c t).setReg d (mkCell g 0#2 (BitVec.ofNat 24 top))).complete .next) ∧
      (∀ (j : Nat) (h : j < cells.length), s'.seen c t (a + j) = cells[j]) ∧
      ∀ b, b < a ∨ a + cells.length ≤ b → s'.seen c t b = s.seen c t b

/-- A new object comes from the thread's pitch: ALLOC with the cells of Table 9.4, CONS a NORMAL pair, LIST a compact list in one run, TOF32 a FLT32 box, and an
integer result outside FIX an INT48 box (R217, R218, R224, R227, R228, R232). -/
def Sys2Proof.Machine.allocationsClaim : Prop :=
  ∀ (s : State) (c : Chan) (t : Fin 8) (d a b : Reg) (imm : BitVec 6), s.plain c t = true → let th := s.thread c t
    let box (i : Int) : List Cell :=
      [0x18500002#32, raw ((BitVec.ofInt 48 i).extractLsb' 24 24), raw ((BitVec.ofInt 48 i).extractLsb' 0 24), freeRun 1]
    let big (i : Int) : Prop := i < -8388608 ∨ 8388607 < i
    (th.has a fixTag = true →
      (∀ k, selKind imm = some k → ((selSizes imm).1 : Int) ≤ th.int a → th.int a ≤ ((selSizes imm).2 : Int) →
        allocates (.alloc c t d a imm) s c t (objCells imm (th.int a).toNat) d (selTag imm)) ∧
      allocates (.tof32 c t d a) s c t
        [0x18600002#32, raw ((toF32 (intVal (th.int a))).extractLsb' 8 24), raw (((toF32 (intVal (th.int a))).extractLsb' 0 8).setWidth 24),
          freeRun 1] d tBOX ∧
      (th.has b fixTag = true →
        (big (th.int a + th.int b) → allocates (.add c t d a b) s c t (box (th.int a + th.int b)) d tBOX) ∧
        (big (th.int a * th.int b) → allocates (.mul c t d a b) s c t (box (th.int a * th.int b)) d tBOX))) ∧
    (th.has a anyTag = true → th.has b anyTag = true →
      (th.sup || (!userSealed (cellTag (th.reg a)) && !userSealed (cellTag (th.reg b)))) = true →
      allocates (.opCons c t d a b) s c t [withCdr (th.reg a) 0#2, withCdr (th.reg b) 0#2] d tCONS) ∧
    (1#6 ≤ imm → imm ≤ 16#6 → a.val + imm.toNat ≤ 32 →
      let vs := (List.range imm.toNat).map (fun i => th.reg (Fin.ofNat 32 (a.val + i)))
      (∀ i < imm.toNat, th.has (Fin.ofNat 32 (a.val + i)) anyTag = true) →
      (th.sup || vs.all (fun v => !userSealed (cellTag v))) = true →
      allocates (.opList c t d a imm) s c t
        (vs.dropLast.map (fun v => withCdr v 1#2) ++ vs.getLast?.toList.map (fun v => withCdr v 2#2)
          ++ (if imm.toNat % 2 = 1 then [freeRun 1] else [])) d tCONS)

/-- An allocation in a thread whose translation is off raises the allocation fault with cause 1, on CONS (R227). -/
def Sys2Proof.Machine.allocationNeedsManagedSpaceClaim : Prop :=
  ∀ (s : State) (c : Chan) (t : Fin 8) (d a b : Reg), s.ready c t = true → (s.thread c t).te = false → (s.thread c t).resv = none →
    (s.thread c t).has a anyTag = true → (s.thread c t).has b anyTag = true → (s.thread c t).sup = true →
    faults (.opCons c t d a b) s c t 13#10 (fixN 1) (cellA 0x82 d a b false)

/-- Allocation with a pitch, and without managed space: the claims allocationsClaim, allocationNeedsManagedSpaceClaim. -/
def Obligations.Allocations : Prop := allocationsClaim ∧ allocationNeedsManagedSpaceClaim

/-- ALLOCL completes once its body has been filled: d receives the pointer to the run's first region and the reservation is the program's object; each
ALLOCL_BODY_FILL before that writes the next line of the body and counts it (R229). -/
def Obligations.LargeAllocation : Prop :=
  (∀ (s : State) (c : Chan) (t : Fin 8) (d a : Reg) (imm : BitVec 6) (r : Reservation), s.plain c t = true → let th := s.thread c t
    th.has a fixTag = true → (selKind imm).isSome = true → imm ≠ 2#6 → imm ≠ 3#6 → imm ≠ 6#6 → 1024 ≤ th.int a → th.int a ≤ 1048575 →
    th.resv = some r → (r.size : Int) = th.int a → r.sel = imm → (s.mach c).spaceOf th = some r.slot → r.failed = false →
    fillLines r.size ≤ r.filled →
    completes (.allocl c t d a imm) s c t
      (({ th with resv := none }.setReg d (mkCell (selTag imm) 0#2 (BitVec.ofNat 24 (r.first * 0x10000)))).complete .next)) ∧
  (∀ (s : State) (c : Chan) (t : Fin 8) (r : Reservation) (i k : Nat) (f : Payload),
    (s.chan c).life.cond = .running → (s.chan c).life.power = .run → (s.thread c t).resv = some r → r.failed = false →
    r.filled < fillLines r.size →
    (s.chan c).sw.xlate = some (BitVec.ofNat 14 (r.lineVa r.filled / 1024), ((s.chan c).sw.slots[r.slot]).asid, i, f) →
    bit f 1 = true → bit f 20 = true → bit f 21 = true → flType f ≠ 2#2 → k = (s.chan c).pageBase i + r.lineVa r.filled % 1024 →
    (s.chan c).place k = .memory →
    ∃ s', exec (.alloclBodyFill c t) s = .next s' ∧
      onlyStep (s.setChan c { s.chan c with sw := { (s.chan c).sw with lastLine := some (k / 16) } }) s' c t
        { s.thread c t with resv := some { r with filled := r.filled + 1, failed := false } } ∧
      (∀ (j : Nat) (h : j < (r.line r.filled).length), s'.cell c (k + j) = (r.line r.filled)[j]) ∧
      ∀ b, b < k ∨ k + (r.line r.filled).length ≤ b → s'.cell c b = s.cell c b)

/-- ZLINE leaves a whole line of FIX 0 in the write buffer; an index whose 16 cells do not lie in the object, or do not start a line, raises the operand
range fault (R230, R319). -/
def Sys2Proof.Machine.zeroLineClaim : Prop :=
  ∀ (s : State) (c : Chan) (t : Fin 8) (a b : Reg) (h : Cell) (k : Nat), s.plain c t = true → let th := s.thread c t
    let va := th.pay a + 1#24 + th.pay b
    th.has a (fun g => g = tVEC || g = tREC || isUP g) = true → th.has b fixTag = true → s.headerAt c t (th.reg a) = some h →
    (0 ≤ th.int b → th.int b + 15 < hdrSize h → bits va 0 4 = 0 → s.reach c t va needW = some k →
      accesses (.zline c t a b) s c t (th.complete .next)
        [{ kind := .memory, line := k / 16, cells := (List.range 16).map (fun p => (p, fix0, false)), threads := thBit t, zline := true, logs := [] }]) ∧
    (th.int b < 0 ∨ hdrSize h ≤ th.int b + 15 ∨ bits va 0 4 ≠ 0 →
      accesses (.zline c t a b) s c t (th.raiseSync 4#10 (fixN 1) (cellA 0x92 0 a b false) 0#2) [])

/-- The buffered stores and ZLINE: the claims bufferedStoresClaim, zeroLineClaim. -/
def Obligations.BufferedStores : Prop := bufferedStoresClaim ∧ zeroLineClaim


/-! ## Context halves and crates (12) -/

/-- The 24 cells of a lower half in the order of Table 12.1, resuming at a given address. -/
def Sys2Proof.Machine.lowerImage (th : Thread) (resume : VAddr) : List Cell :=
  (List.range 16).map (fun i => th.reg (Fin.ofNat 32 i)) ++
    [reta resume, fix th.pstate, th.spU, th.spS, fix (th.asid.setWidth 24), (match th.frame with | some a => loc a | none => cNIL),
     (if th.shlvl then 1#32 else 0#32), fix0]
/-- The 24 cells of an upper half in the order of Table 12.1. -/
def Sys2Proof.Machine.upperImage (th : Thread) : List Cell :=
  (List.range 16).map (fun i => th.reg (Fin.ofNat 32 (16 + i))) ++
    [fix ((th.acc.extractLsb' 48 8).signExtend 24), fix (th.acc.extractLsb' 24 24), fix (th.acc.extractLsb' 0 24), fix th.loopC, fix th.loopS,
     fix th.loopE, fix0, fix0]

/-- SAVEL and SAVEU take the crate at the head of the free list: its header stays, LINK receives the thread's chain (NIL for none), INFO the half and the
thread, 24 cells the half; the crate becomes the head of the chain, and CFREE its old LINK. No other cell changes (R281, R283). -/
def Sys2Proof.Machine.saveHalvesClaim : Prop :=
  ∀ (s : State) (c : Chan) (t : Fin 8) (imm : BitVec 11) (k : Nat), s.plain c t = true → (s.thread c t).sup = true → (s.thread c t).shb = false →
    let th := s.thread c t
    let free := (s.chan c).proc.cfree
    let a := cellPay free
    let saved (i : Instr) (half : Nat) (img : List Cell) : Prop :=
      ∃ s', exec i s = .next s' ∧
        onlyStep (s.setChan c { s.chan c with proc := { (s.chan c).proc with cfree := s.cell c (k + 1) } }) s' c t
          ({ th with chain := mkCell tCRATE 0#2 a }.complete .next) ∧
        s'.seen c t (k + 1) = (if cellTag th.chain = tFIX then cNIL else th.chain) ∧
        s'.seen c t (k + 2) = fixN (8 * half + t.val) ∧
        (∀ (j : Nat) (h : j < img.length), s'.seen c t (k + 3 + j) = img[j]) ∧
        ∀ b, b ≤ k ∨ k + 27 ≤ b → s'.seen c t b = s.seen c t b
    cellTag free = tCRATE → bits a 0 5 = 0 → s.reach c t a needW = some k → s.cell c k = 0x1880001F#32 →
    (imm ≠ 0#11 → saved (.savel c t imm) 0 (lowerImage th (th.pc + imm.setWidth 24))) ∧ saved (.saveu c t) 1 (upperImage th)

/-- SAVEL and SAVEU with an empty free list raise the crate fault, vector 14, and in the shadow bank the illegal instruction fault, as LOADL and LOADU do (R281,
R282, R283). -/
def Sys2Proof.Machine.crateFaultsClaim : Prop :=
  ∀ (s : State) (c : Chan) (t : Fin 8) (imm : BitVec 11), s.ready c t = true → (s.thread c t).sup = true → imm ≠ 0#11 →
    ((s.thread c t).shb = false → (s.chan c).proc.cfree = fix0 ∨ (s.chan c).proc.cfree = cNIL →
      faults (.savel c t imm) s c t 14#10 fix0 (cellL 0xB0 0 imm) ∧ faults (.saveu c t) s c t 14#10 fix0 (cellA 0xB1 0 0 0 false)) ∧
    ((s.thread c t).shb = true →
      faults (.savel c t imm) s c t 1#10 fix0 (cellL 0xB0 0 imm) ∧ faults (.saveu c t) s c t 1#10 fix0 (cellA 0xB1 0 0 0 false) ∧
      faults (.loadl c t) s c t 1#10 fix0 (cellA 0xB2 0 0 0 false) ∧ faults (.loadu c t) s c t 1#10 fix0 (cellA 0xB3 0 0 0 false))

/-- SAVEL and SAVEU, and their faults: the claims saveHalvesClaim, crateFaultsClaim. -/
def Obligations.ContextSaves : Prop := saveHalvesClaim ∧ crateFaultsClaim

/-- LOADL and LOADU restore the half in the crate at the head of the chain: the chain becomes its LINK, the crate goes to the head of the free list with every
saved cell cleared to FIX 0, and no other cell changes, where the store of the free list's link needs no entry in the store log (R281, R284). -/
def Obligations.LoadHalves : Prop :=
  ∀ (s : State) (c : Chan) (t : Fin 8) (k : Nat), s.plain c t = true → (s.thread c t).sup = true → (s.thread c t).shb = false →
    let th := s.thread c t
    let a := cellPay th.chain
    let v (i : Nat) : Cell := s.cell c (k + 3 + i)
    let p (i : Nat) : Payload := cellPay (v i)
    let free := (s.chan c).proc.cfree
    let loaded (i : Instr) (th' : Thread) : Prop :=
      ∃ s', exec i s = .next s' ∧
        onlyStep (s.setChan c { s.chan c with proc := { (s.chan c).proc with cfree := mkCell tCRATE 0#2 a } }) s' c t th' ∧
        s'.seen c t (k + 1) = (if cellTag free = tFIX then cNIL else free) ∧
        (∀ j < 25, s'.seen c t (k + 2 + j) = fix0) ∧ ∀ b, b ≤ k ∨ k + 27 ≤ b → s'.seen c t b = s.seen c t b
    cellTag th.chain = tCRATE → bits a 0 5 = 0 → s.reach c t a needRW = some k → s.cell c k = 0x1880001F#32 →
    cellTag (s.cell c (k + 2)) = tFIX →
    (s.mach c).logAction th (a + 1#24) (if cellTag free = tFIX then cNIL else free) = [] →
    (bit (cellPay (s.cell c (k + 2))) 3 = false → cellTag (v 16) = tRETA → cellTag (v 17) = tFIX → p 17 &&& 0xFFFFED#24 = 1#24 →
      cellTag (v 18) = tLOC ∨ (cellTag (v 18) = tFIX ∧ p 18 = 0#24) → cellTag (v 19) = tLOC → cellTag (v 20) = tFIX → p 20 ≤ 255#24 → cellTag (v 21) = tLOC ∨ isNil (v 21) = true →
      cellTag (v 22) = tFIX → p 22 = 0#24 →
      loaded (.loadl c t) ({ th with
        regs := Vector.ofFn (fun r : Fin 32 => if r.val < 16 then v r.val else th.reg r)
        pstate := p 17, spU := v 18, spS := v 19, asid := (p 20).setWidth 8
        frame := if isNil (v 21) then none else some (p 21)
        shlvl := false, hold := none, chain := s.cell c (k + 1) }.complete (.jump (p 16)))) ∧
    (bit (cellPay (s.cell c (k + 2))) 3 = true →
      loaded (.loadu c t) ({ th with
        regs := Vector.ofFn (fun r : Fin 32 => if r.val < 16 then th.reg r else v (r.val - 16))
        acc := ((p 16).extractLsb' 0 8 ++ p 17 ++ p 18 : BitVec 56)
        loopC := p 19, loopS := p 20, loopE := p 21, chain := s.cell c (k + 1) }.complete .next))

/-! ## Translation, caches and the range engine (13, 14) -/

/-- The channel with both cores changed. -/
def Sys2Proof.Machine.Channel.mapCores (ch : Channel) (f : Core → Core) : Channel := { ch with core := ch.core.map f }

/-- TLBINV removes from both cores the look-aside entries its kind selects: every one, those of an ASID that are not global, those of a page, the global ones; the
sweeper's kept translation goes too. TLBPROBE with no anchor table delivers FIX −1. A kind above 3 is an illegal instruction (R290, R308, R309). -/
def Obligations.LookasideInstructions : Prop :=
  ∀ (s : State) (c : Chan) (t : Fin 8) (d a : Reg) (imm : BitVec 6), s.ready c t = true → (s.thread c t).sup = true → let th := s.thread c t
    let ch := s.chan c
    let gone (sel : TlbEntry → Bool) : Channel :=
      { ch.mapCores (fun co => { co with tlb := co.tlb.filter (fun e => !sel e.2), utlb := co.utlb.filter (fun e => !sel e.2) }) with
        sw := { ch.sw with xlate := none } }
    let asid := (th.pay a).extractLsb' 16 8
    leaves (.tlbinv c t 0 0#6) s c t (gone (fun _ => true)) (th.complete .next) ∧
    leaves (.tlbinv c t 0 3#6) s c t (gone (fun e => e.g)) (th.complete .next) ∧
    (th.has a fixTag = true → bits (th.pay a) 14 2 = 0 →
      leaves (.tlbinv c t a 1#6) s c t (gone (fun e => !e.g && decide (e.asid = asid))) (th.complete .next) ∧
      leaves (.tlbinv c t a 2#6) s c t (gone (fun e => decide (e.vpn = (th.pay a).extractLsb' 0 14) && (decide (e.asid = asid) || e.g)))
        (th.complete .next) ∧
      (ch.proc.hatsize = 0#24 → delivers (.tlbprobe c t d a) s c t d (fixI (-1)))) ∧
    (th.has a fixTag = true → bits (th.pay a) 14 2 ≠ 0 →
      faults (.tlbprobe c t d a) s c t 4#10 (fixN 0) (cellA 0xB9 d a 0 false)) ∧
    (3#6 < imm → faults (.tlbinv c t a imm) s c t 1#10 fix0 (cellI 0xB8 0 a imm))

/-- CACHEON enables the caches it names for the whole channel once CINVALL has run, and raises the cache enable fault, vector 15, before; CACHEOFF, its cores' buffers
empty, clears and disables those it names; CINVALL leaves no line in any cache and no stride slot (R313, R333). -/
def Sys2Proof.Machine.cacheInstructionsClaim : Prop :=
  ∀ (s : State) (c : Chan) (t : Fin 8) (imm : BitVec 6), s.ready c t = true → (s.thread c t).sup = true → let th := s.thread c t
    let ch := s.chan c
    let p := ch.proc
    (imm = 1#6 ∨ imm = 2#6 ∨ imm = 3#6 →
      (p.invd = true → leaves (.cacheon c t imm) s c t
        { ch with proc := { p with icen := p.icen || bit imm 0, dcen := p.dcen || bit imm 1 } } (th.complete .next)) ∧
      (p.invd = false → faults (.cacheon c t imm) s c t 15#10 fix0 (cellI 0xC0 0 0 imm)) ∧
      (ch.core[0].wb = [] → ch.core[1].wb = [] → leaves (.cacheoff c t imm) s c t
        { ch.mapCores (fun co => { co with
            icache := if bit imm 0 then co.icache.clear else co.icache
            dcache := if bit imm 1 then co.dcache.clear else co.dcache }) with
          proc := { p with icen := p.icen && !bit imm 0, dcen := p.dcen && !bit imm 1 } } (th.complete .next))) ∧
    leaves (.cinvall c t) s c t
      { ch.mapCores (fun co => { co with icache := co.icache.clear, dcache := co.dcache.clear }) with
        thr := ch.thr.map (fun x => { x with stride := [] }), proc := { p with invd := true } }
      ({ th with stride := [] }.complete .next) ∧
    (imm = 0#6 ∨ 3#6 < imm → faults (.cacheon c t imm) s c t 4#10 (fixN 4) (cellI 0xC0 0 0 imm) ∧
      faults (.cacheoff c t imm) s c t 4#10 (fixN 4) (cellI 0xC1 0 0 imm))

/-- CRANGE takes a range of populated pages, reports 1 and changes nothing while the engine is busy, and else starts it and reports 0; when the engine is done no
cache holds a line of the range, and the engine is free (R326). -/
def Sys2Proof.Machine.rangeEngineClaim : Prop :=
  ∀ (s : State) (c : Chan) (t : Fin 8) (d a b : Reg), let th := s.thread c t
    let ch := s.chan c
    (s.ready c t = true → th.sup = true → th.has a fixTag = true → th.has b fixTag = true → 0 ≤ th.int a → 1 ≤ th.int b →
      th.int a + th.int b ≤ (ch.memPages : Int) →
      (ch.proc.range.isSome = true → delivers (.crange c t d a b) s c t d (fixN 1)) ∧
      (ch.proc.range = none → mapWf ch.win = true → ∃ ch', leaves (.crange c t d a b) s c t ch' ((th.setReg d fix0).complete .next) ∧
        ch'.proc.range = some ((th.int a).toNat, (th.int b).toNat) ∧ winGet ch' 0x1401 = th.pay a ∧ winGet ch' 0x1402 = th.pay b ∧
        ch' = { ch with proc := { ch.proc with range := ch'.proc.range }, win := ch'.win } ∧
        ∀ o, o ≠ 0x1401 → o ≠ 0x1402 → winGet ch' o = winGet ch o)) ∧
    (∀ pg n : Nat, ch.life.cond = .running → ch.life.power ≠ .sleep → ch.proc.range = some (pg, n) →
      ∃ s', exec (.rangeEngineDone c) s = .next s' ∧ (s'.chan c).proc.range = none ∧ (s'.chan c).thr = ch.thr ∧ (s'.chan c).phys = ch.phys ∧
        (∀ (k : Fin 2) (dc : Bool) (l : Nat), pg ≤ l / 64 → l / 64 < pg + n → l < 2 ^ 27 → (((s'.chan c).core[k]).cache dc).holds l = false) ∧
        (bit (winGet ch 0x1400) 5 = true → (mapGet (s'.chan c).proc.pend 88).isSome = true))

/-- The cache instructions and the range engine: the claims cacheInstructionsClaim, rangeEngineClaim. -/
def Obligations.CachesAndRanges : Prop := cacheInstructionsClaim ∧ rangeEngineClaim

/-! ## Units reached by instructions (04, 05, 06, 18, 22) -/

/-- WDKICK restarts the watchdog's count; PMREAD of a counter the model counts delivers bits 47:24 and 23:0 as RAW in d and d + 1; LGREAD delivers a ledger word's low
or high part as FIX, of either partition, a user word whole, PSN for an unreadable one, and counts a corrected one; LGWRITE queues a user word while four entries are free, else reports 1 (R71, R92, R93,
R123, R493). -/
def Obligations.UnitInstructions : Prop :=
  ∀ (s : State) (c : Chan) (t : Fin 8) (d a b : Reg), s.ready c t = true → (s.thread c t).sup = true → let th := s.thread c t
    let ch := s.chan c
    let o := bits (th.pay a) 0 14
    let w := mapAt 0#32 ch.led.words o
    leaves (.wdkick c t) s c t { ch with clk := { ch.clk with wdCount := 0, wdWarned := false } } (th.complete .next) ∧
    (th.has a fixTag = true → d.val % 2 = 0 → th.pay a ≤ 255#24 → counted (th.pay a).toNat = true →
      let n := mapAt 0#48 ch.perf.counts (th.pay a).toNat
      completes (.pmread c t d a) s c t
        (((th.setReg d (raw (n.extractLsb' 24 24))).setReg (d + 1) (raw (n.extractLsb' 0 24))).complete .next)) ∧
    (th.has a fixTag = true → bits (th.pay a) 16 8 = 0 → bit (th.pay a) 14 = false → o < 8192 →
      (mapGet ch.led.flaws o = none → delivers (.lgread c t d a) s c t d
        (if 0x1800 ≤ o then w else if bit (th.pay a) 15 then fix ((w.extractLsb' 24 8).setWidth 24) else fix (w.extractLsb' 0 24))) ∧
      (mapGet ch.led.flaws o = some false → leaves (.lgread c t d a) s c t { ch with led := { ch.led with corr := satInc ch.led.corr } }
        ((th.setReg d (if 0x1800 ≤ o then w else if bit (th.pay a) 15 then fix ((w.extractLsb' 24 8).setWidth 24)
          else fix (w.extractLsb' 0 24))).complete .next)) ∧
      (mapGet ch.led.flaws o = some true → ∃ s', exec (.lgread c t d a) s = .next s' ∧ s'.thread c t = (th.setReg d (psn 4#4)).complete .next)) ∧
    (th.has a fixTag = true → bits (th.pay a) 16 8 = 0 → bit (th.pay a) 14 = true → o < 2048 → mapGet s.square.led.flaws o = none →
      let q := mapAt 0#32 s.square.led.words o
      delivers (.lgread c t d a) s c t d
        (if bit (th.pay a) 15 then fix ((q.extractLsb' 24 8).setWidth 24) else fix (q.extractLsb' 0 24))) ∧
    (th.has a fixTag = true → th.has b userTag = true → th.pay a ≤ 2047#24 →
      (ch.led.staging.length ≤ 12 → leaves (.lgwrite c t d a b) s c t
        { ch with led := { ch.led with staging := ch.led.staging ++ [.user ((th.pay a).setWidth 11) (th.reg b) ch.pair.holds] } }
        ((th.setReg d fix0).complete .next)) ∧
      (12 < ch.led.staging.length → delivers (.lgwrite c t d a b) s c t d (fixN 1)))

/-- Near-store cells from an offset up that read without error. -/
def Sys2Proof.Machine.State.nearClean (s : State) (c : Chan) (o n : Nat) : Prop := ∀ i < n, (nearRead ((s.mach c).nearBits (o + i))).1 = .clean

/-- FLXFER with a command block of R150: a transfer that times out reports 1, a command or a write on an unpaired channel that does not reports 0, and a read reports 0
with the bytes received packed three to a RAW cell into the data buffer and nothing else changed (R150, R151). -/
def Obligations.FlashTransfer : Prop :=
  ∀ (s : State) (c : Chan) (t : Fin 8) (d a : Reg) (failed : Bool) (reply : List Byte), s.plain c t = true → (s.thread c t).sup = true →
    let th := s.thread c t
    let o := (th.pay a).toNat
    let blk (i : Nat) : Cell := s.cell c (0x80000000 + o + i)
    let kind := bits (cellPay (blk 0)) 8 8
    let count := bits (cellPay (blk 2)) 8 16
    let buf := (cellPay (blk 3)).toNat
    th.has a fixTag = true → o + 4 ≤ 0x10000 → (∀ i < 4, cellTag (blk i) = tFIX) → count ≤ 768 → buf + (count + 2) / 3 ≤ 0x10000 →
    s.nearClean c o 4 → (s.chan c).pair.role = .independent →
    (kind = 1 →
      delivers (.flxfer c t d a true failed reply) s c t d (fixN 1) ∧ delivers (.flxfer c t d a false failed reply) s c t d fix0) ∧
    (kind = 2 → s.nearClean c buf ((count + 2) / 3) →
      delivers (.flxfer c t d a true failed reply) s c t d (fixN 1) ∧ delivers (.flxfer c t d a false failed reply) s c t d fix0) ∧
    (kind = 0 → delivers (.flxfer c t d a true failed reply) s c t d (fixN 1) ∧
      (reply.length = count → ∃ s', exec (.flxfer c t d a false failed reply) s = .next s' ∧
        onlyStep s s' c t ((th.setReg d fix0).complete .next) ∧
        (∀ i < (count + 2) / 3, s'.cell c (0x80000000 + buf + i) = raw ((reply.getD (3 * i + 2) 0#8) ++ (reply.getD (3 * i + 1) 0#8)
          ++ (reply.getD (3 * i) 0#8) : BitVec 24)) ∧
        ∀ b, b < 0x80000000 + buf ∨ 0x80000000 + buf + (count + 2) / 3 ≤ b → s'.cell c b = s.cell c b))

/-- CHECKPOINT that cannot capture reports why: 2 while the sweeper selects, evacuates or fixes up, 4 on a channel that is not the active of a pair, 5 while CKBASE is not
enabled (R411). -/
def Sys2Proof.Machine.checkpointRefusalsClaim : Prop :=
  ∀ (s : State) (c : Chan) (t : Fin 8) (d : Reg), s.ready c t = true → (s.thread c t).sup = true →
    let ph := (s.chan c).sw.phase
    let moves : Prop := ph = .select ∨ ph = .evacuate ∨ ph = .fixup
    (moves → delivers (.checkpoint c t d) s c t d (fixN 2)) ∧
    (¬ moves → (s.chan c).pair.role = .independent → delivers (.checkpoint c t d) s c t d (fixN 4)) ∧
    (¬ moves → (s.chan c).pair.role = .active → bit (winGet (s.chan c) 0x8004) 23 = false →
      delivers (.checkpoint c t d) s c t d (fixN 5))

/-- CHECKPOINT on an active channel, no store waiting and no thread with an event or an unfilled half: the 27 crates of the next epoch's set are written at its page
and no other cell changes, the epoch's COMMIT marker with the held user words ends the mirror stream, and d receives FIX 0 (R410, R411). -/
def Sys2Proof.Machine.checkpointCapturesClaim : Prop :=
  ∀ (s : State) (c : Chan) (t : Fin 8) (d : Reg), s.plain c t = true → (s.thread c t).sup = true → let ch := s.chan c
    let m := s.mach c
    let e := ch.pair.lastEpoch + 1#24
    let base := (bits (winGet ch 0x8004) 0 22 + e.toNat % 2) * 1024
    ch.pair.role = .active → bit (winGet ch 0x8004) 23 = true → ch.core[0].wb = [] → ch.core[1].wb = [] →
    (∀ u : Fin 8, (s.thread c u).sync = none ∧ (s.thread c u).lz = false ∧ (s.thread c u).resv = none ∧ (ch.sw.slots[u]).pitch = []) →
    (∀ i < 864, ch.place (base + i) = .memory) →
    ∃ s', exec (.checkpoint c t d) s = .next s' ∧ s'.thread c t = ((s.thread c t).setReg d fix0).complete .next ∧
      (∀ u, u ≠ t → s'.thread c u = s.thread c u) ∧ sameElsewhere s s' c ∧
      (∀ (i : Nat) (h : i < (m.crateSet t d e).length), s'.cell c (base + i) = (m.crateSet t d e)[i]) ∧
      (∀ b, b < base ∨ base + 864 ≤ b → s'.cell c b = s.cell c b) ∧
      ∃ q, (s'.chan c).pair.buf.getLast? = some (q, .commit e (ch.led.heldWords.drop ch.pair.carried))

/-- CHECKPOINT, refused and captured: the claims checkpointRefusalsClaim, checkpointCapturesClaim. -/
def Obligations.Checkpoints : Prop := checkpointRefusalsClaim ∧ checkpointCapturesClaim


/-! ## Events (11) -/

/-- Of the signals pending for a running thread at a boundary with no window open and no shadow, the one taken has the highest PRIO, and among equal PRIO the
lowest vector; none is taken where none is routed to the thread (R264, R265). -/
def Obligations.SignalSelection : Prop :=
  ∀ (s : State) (c : Chan) (t : Fin 8), let th := s.thread c t
    let m := s.mach c
    let mine (v : Nat) : Prop := (mapGet m.ch.proc.pend v).isSome = true ∧ (if v = 39 then t = 0 else attrThread (m.ch.proc.attrOf v) = t.val)
    let prio (v : Nat) : Nat := attrPrio (m.ch.proc.attrOf v)
    th.status = .running → th.hold = none → th.inShadow = false → th.rootPend = false →
    (m.signalFor t = none ↔ ∀ v, ¬ mine v) ∧
    (∀ v, m.signalFor t = some v ↔ mine v ∧ ∀ w, mine w → w = v ∨ prio w < prio v ∨ (prio w = prio v ∧ v < w))

/-- EVINFO of an entry (Table 11.6). -/
def Sys2Proof.Machine.entryInfo (th : Thread) (e : SyncEvent) (shfb opened : Bool) : Cell :=
  fix (0#1 ++ BitVec.ofBool shfb ++ BitVec.ofBool opened ++ BitVec.ofBool th.shlvl ++ e.kind ++ 0#8 ++ e.vector : BitVec 24)

/-- A thread with a synchronous event enters its handler: with SAVE 1 and SHB 0 by exchanging c0 to c15 with the bank and keeping return address, PSTATE and
FRAME, else by pushing RETURN, PSTATE, EVINFO, ADDR, ICELL, LINK and c0 to c15 below SP_S; S and LZ become 1, the window of the attribute opens, and the PC is the
entry of the handler's CODE. The copies of the entry store agree, and the core's control stores read as they were made (R251, R261, R266 to R271). -/
def Obligations.EventEntries : Prop :=
  ∀ (s : State) (c : Chan) (t : Fin 8) (e : SyncEvent) (a : VAddr), let th := s.thread c t
    let ch := s.chan c
    let attr := ch.proc.attrOf e.vector.toNat
    let k := bits ch.proc.vbase 0 22 * 1024 + 2 * e.vector.toNat
    let opened := decide (attrHold attr ≠ 0#8) && th.hold.isNone
    let hold := if opened then some (attrHold attr) else th.hold
    let s0 := s.setChan c { ch with
      life := { ch.life with gated := setBit ch.life.gated (coreOf t).val false }, clk := { ch.clk with staleFor := 0 } }
    let shadow : Prop := attrSave attr = true ∧ th.shb = false
    let f := cellPay th.spS - 48#24
    let frame : List Cell := [reta e.ret, fix th.pstate, entryInfo th e (attrSave attr && th.shb) opened, e.addr, e.icell,
      (match th.frame with | some x => loc x | none => cNIL), fix0, fix0] ++ th.regs.toList.take 16
    (ch.core[coreOf t]).asMade = true → (ch.core[coreOf t]).entryDiff = false →
    ch.life.cond = .running → ch.life.power = .run → th.status = .running → th.sync = some e → th.te = false → ch.proc.dcen = false →
    (ch.core[coreOf t]).wb = [] → ch.sw.phase = .idle → ch.place k = .memory → cellTag (s.cell c k) = tCODE →
    s.entryAt c t (s.cell c k) = some a →
    (shadow → ∃ s', exec (.eventEntryShadow c t) s = .next s' ∧ onlyAccess s0 s' c t { th with
        sync := none, shRet := e.ret, shPst := th.pstate, shFrame := th.frame
        regs := Vector.ofFn (fun r : Fin 32 => if r.val = 13 then e.icell else if r.val = 14 then e.addr
          else if r.val = 15 then entryInfo th e false opened else if h : r.val < 16 then th.bank[r.val] else th.reg r)
        bank := Vector.ofFn (fun r : Fin 16 => th.reg (r.castLE (by decide)))
        frame := none, shlvl := true, pstate := setBit (setBit (setBit th.pstate 0 true) 2 true) 3 true
        hold := hold, shOpened := opened, pc := a, inShadow := true } []) ∧
    (¬ shadow → cellTag th.spS = tLOC → 48#24 ≤ cellPay th.spS →
      ∃ s' wb, exec (.eventEntryStack c t) s = .next s' ∧ onlyAccess s0 s' c t { th with
        sync := none, spS := loc f, frame := some f, shlvl := false, pstate := setBit (setBit th.pstate 0 true) 3 true
        hold := hold, pc := a, inShadow := true } wb ∧
      (∀ (i : Nat) (h : i < frame.length), s'.seen c t (f.toNat + i) = frame[i]) ∧
      ∀ b, b < f.toNat ∨ f.toNat + frame.length ≤ b → s'.seen c t b = s.seen c t b)

/-- RETE restores a level whose upper half has been filled: from the frame at FRAME, registers, ACC, loop registers, PSTATE, SP_S, SHLVL, FRAME, window and PC; from
the shadow level, the registers of the block at FRAME, the bank's c0 to c15 and the kept PSTATE, FRAME and PC. It raises the illegal instruction fault with its
code where the thread has no level, where a cell of the frame holds PSN, where RETURN is not RETA, and where PSTATE or LINK is not one RETE can restore
(R274). -/
def Obligations.ReturnFromEvent : Prop :=
  ∀ (s : State) (c : Chan) (t : Fin 8) (f : VAddr) (v : Nat → Cell), s.plain c t = true → (s.thread c t).sup = true → let th := s.thread c t
    let p (i : Nat) : Payload := cellPay (v i)
    let held (n : Nat) : Prop := ∀ i < n, ∃ va, s.found c t (f + BitVec.ofNat 24 i) = some (va, v i)
    (th.shlvl = false → th.frame = none → faults (.rete c t) s c t 1#10 (fixN 1) (cellA 0x3B 0 0 0 false)) ∧
    (th.shlvl = false → th.frame = some f → held 46 → (∃ i < 46, cellTag (v i) = tPSN) →
      accesses (.rete c t) s c t (th.raiseSync 1#10 (fixN 2) (cellA 0x3B 0 0 0 false) 0#2) []) ∧
    (th.shlvl = false → th.frame = some f → held 46 → (∀ i < 46, cellTag (v i) ≠ tPSN) →
      (cellTag (v 0) ≠ tRETA → accesses (.rete c t) s c t (th.raiseSync 1#10 (fixN 3) (cellA 0x3B 0 0 0 false) 0#2) []) ∧
      (cellTag (v 0) = tRETA → cellTag (v 1) = tFIX → bits (p 1) 5 19 = 0 → bit (p 1) 2 = th.shb →
        cellTag (v 5) ≠ tLOC → ¬ (cellTag (v 5) = tCONST ∧ p 5 = 0#24) →
        accesses (.rete c t) s c t (th.raiseSync 1#10 (fixN 4) (cellA 0x3B 0 0 0 false) 0#2) []) ∧
      (cellTag (v 0) = tRETA → cellTag (v 1) ≠ tFIX ∨ bits (p 1) 5 19 ≠ 0 ∨ bit (p 1) 2 ≠ th.shb →
        accesses (.rete c t) s c t (th.raiseSync 1#10 (fixN 4) (cellA 0x3B 0 0 0 false) 0#2) []) ∧
      (cellTag (v 0) = tRETA → cellTag (v 1) = tFIX → bits (p 1) 5 19 = 0 → bit (p 1) 2 = th.shb →
        cellTag (v 5) = tLOC ∨ (cellTag (v 5) = tCONST ∧ p 5 = 0#24) →
        accesses (.rete c t) s c t ({ th with
          regs := Vector.ofFn (fun r : Fin 32 => v (8 + r.val)), acc := ((p 40).extractLsb' 0 8 ++ p 41 ++ p 42 : BitVec 56)
          loopC := p 43, loopS := p 44, loopE := p 45, pstate := p 1, spS := loc (f + 48#24), shlvl := bit (p 2) 20
          frame := if cellTag (v 5) = tLOC then some (p 5) else none
          hold := if bit (p 2) 21 then none else th.hold }.complete (.rete (p 0))) [])) ∧
    (th.shlvl = true → th.frame = some f → held 22 → (∃ i < 22, cellTag (v i) = tPSN) →
      accesses (.rete c t) s c t (th.raiseSync 1#10 (fixN 2) (cellA 0x3B 0 0 0 false) 0#2) []) ∧
    (th.shlvl = true → th.frame = none → faults (.rete c t) s c t 1#10 (fixN 1) (cellA 0x3B 0 0 0 false)) ∧
    (th.shlvl = true → th.frame = some f → held 22 → (∀ i < 22, cellTag (v i) ≠ tPSN) →
      accesses (.rete c t) s c t ({ th with
        regs := Vector.ofFn (fun r : Fin 32 => if h : r.val < 16 then th.bank[r.val] else v (r.val - 16))
        bank := Vector.ofFn (fun r : Fin 16 => th.reg (r.castLE (by decide)))
        acc := ((p 16).extractLsb' 0 8 ++ p 17 ++ p 18 : BitVec 56), loopC := p 19, loopS := p 20, loopE := p 21
        spS := loc (f + 24#24), pstate := th.shPst, frame := th.shFrame, shlvl := false
        hold := if th.shOpened then none else th.hold, shOpened := false }.complete (.rete th.shRet)) [])

/-- MTS to VBASE of a table whose 1,024 attribute cells are acceptable loads the attribute store from them with the new VBASE; a table that does not lie in memory or near
store raises the operand range fault (R188, R261, R262). -/
def Sys2Proof.Machine.vectorTableLoadClaim : Prop :=
  ∀ (s : State) (c : Chan) (t : Fin 8) (d : Reg), s.plain c t = true → (s.thread c t).sup = true → let th := s.thread c t
    let ch := s.chan c
    let b := bits (th.pay d) 0 22 * 1024
    let attr (v : Nat) : Cell := s.cell c (b + 2 * v + 1)
    th.has d fixTag = true →
    (bits (th.pay d) 22 2 = 0 → b + 2048 ≤ ch.memCells → (∀ i < 2048, ch.place (b + i) = .memory) →
      (∀ v < 1024, cellTag (attr v) = tFIX ∧ bit (cellPay (attr v)) 20 = false ∧ bits (cellPay (attr v)) 0 8 = 0 ∧
        ¬ (8 ≤ attrThread (cellPay (attr v)) ∧ attrThread (cellPay (attr v)) ≤ 14)) →
      ∃ s', exec (.mtsVbase c t d) s = .next s' ∧
        onlyAccess (s.setChan c { ch with proc := { ch.proc with
          vbase := th.pay d
          attr := (List.range 1024).filterMap (fun v => if cellPay (attr v) = 0#24 then none else some (v, cellPay (attr v))) } })
          s' c t (th.complete .next) []) ∧
    (bits (th.pay d) 22 2 ≠ 0 → faults (.mtsVbase c t d) s c t 4#10 (fixN 2) (cellL 0x41 d 0x20#11))

/-- MTS of every special register: the claims writeSpecialRegistersClaim, vectorTableLoadClaim. -/
def Obligations.WriteSpecialRegisters : Prop := writeSpecialRegistersClaim ∧ vectorTableLoadClaim

/-- An open window closes at its expiry; where every thread that is not stopped waits with HW 0 and no pending signal is selected, and that has held for 256
slow-clock periods, vector 39 becomes pending for thread 0 and the periods count anew; before, nothing happens (R266, R277). -/
def Sys2Proof.Machine.windowsAndStalemateClaim : Prop :=
  ∀ (s : State) (c : Chan) (t : Fin 8), let ch := s.chan c
    exec (.holdWindowExpiry c t) s = .next (s.setChan c { ch with thr := ch.thr.set t { s.thread c t with hold := none } }) ∧
    (ch.life.cond = .running → mapGet ch.proc.pend 39 = none →
      (∀ u : Fin 8, (s.thread c u).status = .stopped ∨ ∃ k, (s.thread c u).status = .waiting k ∧ bit k 23 = false ∧
        ∀ e ∈ ch.proc.pend, e.1 < 768 ∨ bit k ((e.1 - 768) / 16) = false) →
      256 ≤ ch.clk.staleFor →
      exec (.stalemate c) s = .next (s.setChan c { ch with
        clk := { ch.clk with staleFor := 0 }
        proc := { ch.proc with pend := mapPut ch.proc.pend 39 { overrun := 0#8, addr := fix0 } } })) ∧
    (ch.clk.staleFor < 256 → exec (.stalemate c) s = .next s) ∧
    (∀ (u : Fin 8) (k : Payload), (s.thread c u).status = .waiting k → bit k 23 = true → exec (.stalemate c) s = .next s)

/-! ## Fills, prefetches and heals (14, 15) -/

/-- A demand fill that arrives is installed, unless a store or an invalidation met it or its line lies in the range being cleared; a prefetch that arrives enters
the prefetch buffer with the cells its read found, the oldest of four entries making room, and a discarded one nothing; no stored cell changes (R315, R322,
R326). -/
def Sys2Proof.Machine.fillsAndPrefetchesClaim : Prop :=
  ∀ (s : State) (c : Chan) (k : Fin 2) (dc : Bool), let ch := s.chan c
    let co := ch.core[k]
    let x := co.cache dc
    let gone (l : Nat) : Bool := match ch.proc.range with | some (p, n) => decide (p ≤ l / 64) && decide (l / 64 < p + n) | none => false
    (∀ f, x.fill = some f → exec (.lineFill c k dc) s = .next (s.setChan c { ch with core := ch.core.set k (co.setCache dc
      (if f.dead || gone f.line then { x with fill := none } else { x with fill := none }.install f.line f.cells false)) })) ∧
    (∀ q r, x.reqs = q :: r →
      ((q.dead || gone q.line) = true →
        exec (.prefetchArrival c k dc) s = .next (s.setChan c { ch with core := ch.core.set k (co.setCache dc { x with reqs := r }) })) ∧
      ((q.dead || gone q.line) = false →
        exec (.prefetchArrival c k dc) s = .next (s.setChan c { ch with core := ch.core.set k (co.setCache dc { x with
          reqs := r
          buf := (if x.buf.length < 4 then x.buf else x.buf.drop 1) ++
            [{ line := q.line, cells := q.cells, stride := q.stride, bad := false }] }) })))

/-- The oldest heal replaces the payload of a source cell that still holds the loaded tag and payload, keeping its CDR, and changes no other cell; one that fails
changes no cell (R346, R347). -/
def Sys2Proof.Machine.healsClaim : Prop :=
  ∀ (s : State) (c : Chan) (h : HealReq) (r : List HealReq), let ch := s.chan c
    let old := s.cell c h.addr
    let same : Prop := cellTag old = cellTag h.old ∧ cellPay old = cellPay h.old
    ch.life.cond = .running → ch.life.power ≠ .sleep → ch.sw.phase.marking = false → ch.proc.heals = h :: r → ch.place h.addr = .memory → (s.mach c).logs h.slot h.va (withPay old h.new) = false →
    ∃ s', exec (.heal c) s = .next s' ∧ (s'.chan c).proc.heals = r ∧ (s'.chan c).thr = ch.thr ∧ sameElsewhere s s' c ∧
      (same → s'.cell c h.addr = withPay old h.new ∧ ∀ b, b ≠ h.addr → s'.cell c b = s.cell c b) ∧ (¬ same → sameCells s s' c)

/-- The ends of HOLD windows and stalemates, line fills and prefetches, and heals: the claims windowsAndStalemateClaim, fillsAndPrefetchesClaim, healsClaim. -/
def Obligations.WindowsFillsAndHeals : Prop := windowsAndStalemateClaim ∧ fillsAndPrefetchesClaim ∧ healsClaim


/-! ## Commands of units: what they turn a channel into -/

/-- The command turns channel c into ch and changes nothing else. -/
def Sys2Proof.Machine.turnsTo (i : Instr) (s : State) (c : Chan) (ch : Channel) : Prop := exec i s = .next (s.setChan c ch)
/-- The channel with signal v raised: pending with its ADDR, or one more overrun, at most 255, of one already pending (R263). -/
def Sys2Proof.Machine.Channel.raised (ch : Channel) (v : Nat) (addr : Cell) : Channel :=
  { ch with proc := { ch.proc with pend := mapPut ch.proc.pend v (match mapGet ch.proc.pend v with
      | none => { overrun := 0#8, addr := addr }
      | some q => { q with overrun := if q.overrun = 255#8 then 255#8 else q.overrun + 1#8 }) } }
/-- The channel with a signal raised where its source is enabled. -/
def Sys2Proof.Machine.Channel.raisedIf (ch : Channel) (on : Bool) (v : Nat) (addr : Cell) : Channel := if on then ch.raised v addr else ch
/-- The channel with an error record in its staging queue, room being there (R81, R88). -/
def Sys2Proof.Machine.Channel.recorded (ch : Channel) (cls : BitVec 6) (spec flag : Bool) (detail : BitVec 32) : Channel :=
  { ch with led := { ch.led with
    staging := ch.led.staging ++ [.error cls spec flag (mapAt 0#8 ch.led.lost cls.toNat) (BitVec.ofNat 24 (ch.led.periods / 32768)) detail]
    lost := mapDel ch.led.lost cls.toNat } }
/-- The channel executes in RUN: its program can store to a window register. -/
def Sys2Proof.Machine.State.awake (s : State) (c : Chan) : Prop := (s.chan c).life.cond = .running ∧ (s.chan c).life.power = .run

/-! ## Timers (05) -/

/-- Arming a wake timer loads its comparator from WTnDH:WTnDL, and one already passed fires at once; at expiry its event becomes pending and, with WTnPER 0, ARM
clears, else the deadline grows by WTnPER, and a pre-wake is over (R118); before its deadline nothing happens; disarming clears ARM alone. A fast timer loads FTnCNT from FTnRLD at arming; at zero
its event becomes pending and it reloads where PERIODIC, else ARM clears, as it does when armed while FTnRLD is 0. A load of TBL captures bits 47:24 (R112, R120,
R121, R122). -/
def Obligations.Timers : Prop :=
  ∀ (s : State) (c : Chan) (n : Fin 8), let ch := s.chan c
    let k := ch.clk
    let wake (w : WakeTimer) : Channel := { ch with clk := { k with wake := k.wake.set n w } }
    let fires (w : WakeTimer) : Channel :=
      { ch with clk := { k with wake := k.wake.set n w }, life := { ch.life with preWake := false } }.raised (64 + n.val) fix0
    let fast (f : FastTimer) : Channel := { ch with clk := { k with fast := k.fast.set n f } }
    let cmp : BitVec 48 := winGet ch (0x812 + 4 * n.val) ++ winGet ch (0x811 + 4 * n.val)
    let per := winGet ch (0x813 + 4 * n.val)
    let rld := winGet ch (0x841 + 4 * n.val)
    (s.awake c →
      (k.tb < cmp → turnsTo (.wakeTimerArm c n) s c (wake { armed := true, cmp := cmp })) ∧
      (cmp ≤ k.tb → per = 0#24 → turnsTo (.wakeTimerArm c n) s c (fires { armed := false, cmp := cmp })) ∧
      (cmp ≤ k.tb → per ≠ 0#24 →
        turnsTo (.wakeTimerArm c n) s c (fires { armed := true, cmp := cmp + per.setWidth 48 })) ∧
      turnsTo (.wakeTimerDisarm c n) s c (wake { k.wake[n] with armed := false }) ∧
      (∀ pre periodic, turnsTo (.fastTimerArm c n pre periodic) s c
        (fast { armed := true, periodic := periodic, pre := pre, loaded := rld, zero := decide (rld = 0#24) })) ∧
      (∀ pre periodic, ∃ (p : Payload) (r : Nat), p ≤ k.fast[n].loaded ∧ exec (.fastTimerDisarm c n pre periodic) s =
        .next (({ s with free := r }).setChan c (fast { k.fast[n] with armed := false, periodic := periodic, pre := pre, loaded := p }))) ∧
      (∀ t : Fin 8, turnsTo (.tblRead c t) s c
        { ch with thr := ch.thr.set t { s.thread c t with tbhCap := some (k.tb.extractLsb' 24 24) } })) ∧
    (ch.life.cond = .running →
      (k.wake[n].armed = true → k.wake[n].cmp ≤ k.tb →
        turnsTo (.wakeTimerExpiry c n) s c (fires (if per = 0#24 then { k.wake[n] with armed := false }
          else { k.wake[n] with cmp := k.wake[n].cmp + per.setWidth 48 }))) ∧
      (k.wake[n].armed = false ∨ k.tb < k.wake[n].cmp → exec (.wakeTimerExpiry c n) s = .next s) ∧
      (k.fast[n].armed = true → ch.life.power ≠ .sleep →
        turnsTo (.fastTimerExpiry c n) s c ((fast (if k.fast[n].periodic = true ∧ k.fast[n].zero = false then { k.fast[n] with loaded := rld }
          else { k.fast[n] with armed := false, loaded := 0#24 })).raised (72 + n.val) fix0)) ∧
      (k.fast[n].armed = false → exec (.fastTimerExpiry c n) s = .next s))

/-! ## Power states, resets and OFF (05) -/

/-- A channel whose caches keep only the ways a test picks, with prefetch buffers and stride slots cleared, what is in flight installing nothing (R327). -/
def Sys2Proof.Machine.Channel.waysOff (ch : Channel) (keep : Nat → Bool) : Channel :=
  let f (x : Cache) : Cache :=
    { x with
      frames := x.frames.filter (fun e => keep (e.1 % 4)), buf := [], reqs := x.reqs.map (fun q => { q with dead := true })
      fill := x.fill.map (fun q => { q with dead := true }) }
  { ch with
    core := ch.core.map (fun co => { co with icache := f co.icache, dcache := f co.dcache })
    thr := ch.thr.map (fun t => { t with stride := [] }) }

/-- A core with no busy thread gates its clock, and with both gated the channel is in IDLE; IDLE falls to DOZE with its write buffers empty and no deadline near,
keeping way 0 alone, and not while a pre-wake is in progress; DOZE to SLEEP under the conditions of R116, keeping no way and no look-aside entry, memory in
self-refresh with every row closed; a pending event returns the channel to RUN, a near deadline starts the wake, and both take memory out of self-refresh, no
request then being served before the temperature is read; a load of PWRSTAT clears DEEPEST (R31, R114 to R118, R327, R383). -/
def Obligations.PowerStates : Prop :=
  ∀ (s : State) (c : Chan), let ch := s.chan c
    let life := ch.life
    let deeper (n : BitVec 2) : BitVec 2 := if life.deepest < n then n else life.deepest
    let maxst := bits (winGet ch 0x400) 0 2
    let far (n : Nat) : Prop := ∀ i : Fin 8, ch.clk.wake[i].armed = true → ch.clk.tb.toNat + n < ch.clk.wake[i].cmp.toNat
    (s.awake c → turnsTo (.pwrstatRead c) s c { ch with life := { life with deepest := 0#2 } }) ∧
    (∀ k : Fin 2, s.awake c → (∀ t : Fin 8, coreOf t = k → ((s.thread c t).status ≠ .running ∧ (s.thread c t).sync = none ∧
        (s.mach c).signalFor t = none)) →
      let g := setBit life.gated k.val true
      turnsTo (.idleEntry c k) s c { ch with life :=
        if g = 3#2 then { life with gated := g, power := .idle, deepest := deeper 1#2 } else { life with gated := g } }) ∧
    (life.cond = .running → life.power = .idle → 1 ≤ maxst → far 1 → life.preWake = false ∨ far 3 →
      ((s.mach c).fastWithin [0, 1, 2, 3, 4, 5, 6, 7]).1 = false → ch.core[0].wb = [] → ch.core[1].wb = [] →
      does (.dozeEntry c) s c { ch.waysOff (fun w => decide (w = 0)) with life := { life with power := .doze, deepest := deeper 2#2 } }) ∧
    (life.preWake = true → ¬ far 3 → exec (.dozeEntry c) s = .next s) ∧
    (life.cond = .running → life.power = .doze → 2 ≤ maxst → (∀ n : Fin 8, ch.clk.fast[n].armed = false) → far 63 → ch.sw.phase = .idle →
      ch.sw.starting = false → ch.proc.range = none → ch.framing = false → bit (winGet ch 0x10000) 1 = false → ch.touch.run = false →
      ch.panel.i2c = none → ch.mc.pool = [] → ch.pair.role ≠ .active → ch.pair.role ≠ .standby → ch.perf.queue = [] →
      does (.sleepEntry c) s c { ch.waysOff (fun _ => false) with
        core := (ch.waysOff (fun _ => false)).core.map (fun co => { co with tlb := [], utlb := [] })
        mc := { ch.mc with selfRef := true, sub := ch.mc.sub.map (fun x => x.closeAll ch.tRcd) }
        life := { life with power := .sleep, deepest := 3#2 } }) ∧
    (let mc := (s.mach c).leaveSelfRefresh.ch.mc;
      (ch.mc.selfRef = false → mc = ch.mc) ∧ (ch.mc.selfRef = true → mc.selfRef = false ∧ mc.unread = true ∧ mc.pool = ch.mc.pool) ∧
      (life.cond = .running → life.power ≠ .run → ch.proc.pend ≠ [] →
        does (.wake c) s c { ch with mc := mc, life := { life with power := .run, gated := 0#2 } }) ∧
      (life.cond = .running → life.power = .sleep → ¬ far 3 →
        does (.preWake c) s c { ch with mc := mc, life := { life with power := .idle, preWake := true } }))

/-- Channel c has been reset with a cause: every register, buffer, unit and timer at its At power-up value, memory and near store undefined again, its condition in
reset, its supplies as they were, its ledger partition in its scan with one record of the reset staged (R79, R89), the counters of 22 kept over PIN and WDT alone (R125, R491). -/
def Sys2Proof.Machine.wasReset (s s' : State) (c : Chan) (cause : BitVec 6) : Prop :=
  let a := s.chan c
  let b := s'.chan c
  b.life.cond = .inReset ∧ b.life.rstCause = cause ∧ b.life.power = .run ∧ b.clk = clockReset ∧ b.win = [] ∧
  b.life.rails = a.life.rails ∧ b.led.scan = true ∧ b.led.items = [] ∧ b.led.lockReq = none ∧ b.led.job = none ∧ b.led.staging.length = 1 ∧
  b.thr = threadsReset ∧ b.seq = Vector.replicate 8 seqReset ∧ b.core = Vector.replicate 2 coreReset ∧ b.proc = procReset ∧ b.sw = sweeperReset ∧
  b.mc = mcReset ∧ b.pair = pairReset ∧ b.disp = dispReset ∧ b.panel = panelReset ∧ b.touch = touchReset ∧ b.boot = bootReset ∧
  b.phys.mem = [] ∧ b.phys.near = [] ∧ b.phys.memGen ≠ a.phys.memGen ∧
  b.perf = { perfReset with counts := if cause = 2#6 ∨ cause = 4#6 then a.perf.counts else [] }

/-- POR_N low resets every channel with cause POR and the square; CHn_RST_N low resets its channel with cause PIN, or OFFREQ out of a requested OFF; the release lets
a channel in reset sample, where a low CHn_EN keeps it off; the watchdog's period resets with cause WDT, a monitor's OFF ends with BROWNOUT or THERMAL; PWRCTL with KEY
0x5A puts the channel into OFF, with any other KEY does nothing. No other channel changes but for POR_N (R43, R64, R105, R119, R124, R125). -/
def Obligations.ResetsAndOff : Prop :=
  ∀ (s : State) (c : Chan), let ch := s.chan c
    let life := ch.life
    let resets (i : Instr) (cause : BitVec 6) : Prop :=
      ∃ s', exec i s = .next s' ∧ wasReset s s' c cause ∧ sameElsewhere s s' c ∧ s'.square = s.square
    (∃ s', exec .porReset s = .next s' ∧ (∀ k, wasReset s s' k 1#6) ∧
      s'.square = { squareReset with led := s.square.led.reset }) ∧
    (life.rstN = true → s.square.porN = true → resets (.pinReset c) (if life.offCause = some .request then 8#6 else 2#6)) ∧
    (life.cond = .inReset → exec (.releaseOfReset c) s = .next (({ s with square := { s.square with porN := true, powered := true } }).setChan c
      { ch with life := { life with cond := .sampling, rstN := true, good := true, rails := life.rails ||| 0x0F#5 } })) ∧
    (∀ level, life.cond = .sampling → life.en = none → s.square.straps[0].decided = false →
      turnsTo (.chnEnSample c level) s c { ch with life := { life with en := some level, cond := if level then .sampling else .keptOff } }) ∧
    (life.cond = .running → ch.clk.wdRun = true → 3277 * 2 ^ ch.straps[5].level.toNat ≤ ch.clk.wdCount → resets (.watchdogExpiry c) 4#6) ∧
    (life.offCause = some .brownout ∨ life.offCause = some .thermal →
      (∀ rail : Fin 5, rail ≠ 4 ∨ ch.straps[6].level ≠ 0#3 → bit ch.clk.warn rail.val = false) → ch.clk.mon[5].toInt ≤ 110 →
      resets (.offReturn c) (if life.offCause = some .brownout then 16#6 else 32#6)) ∧
    (s.awake c → (∀ key, key ≠ 0x5A#8 → exec (.pwrctlOff c key) s = .next s) ∧
      ∃ s', exec (.pwrctlOff c 0x5A#8) s = .next s' ∧ sameElsewhere s s' c ∧ s'.square = s.square ∧ (s'.chan c).life.cond = .off ∧
        (s'.chan c).life.offCause = some .request ∧ (s'.chan c).thr = threadsReset ∧ (s'.chan c).proc = procReset ∧
        (s'.chan c).phys.mem = [] ∧ (s'.chan c).phys.near = [] ∧ (s'.chan c).win = [])

/-! ## Monitors, watchdog and lockstep (05, 18) -/

/-- The warning limits of Table 5.2 in mV, junction in °C. -/
def Sys2Proof.Machine.warnLimits : Fin 6 → Nat × Nat
  | 0 => (745, 865) | 1 => (1045, 1155) | 2 => (1680, 1920) | 3 => (3050, 3550) | 4 => (4750, 10500) | 5 => (0, 118)
/-- The off limits of Table 5.2. -/
def Sys2Proof.Machine.offLimits : Fin 6 → Nat × Nat
  | 0 => (700, 920) | 1 => (1000, 1210) | 2 => (1600, 1980) | 3 => (2900, 3700) | 4 => (4500, 11000) | 5 => (0, 135)
/-- The kind of a level beyond limits: 0 under, 1 over, 2 thermal (R104). -/
def Sys2Proof.Machine.levelKind (rail : Fin 6) (lim : Nat × Nat) (r : BitVec 16) (kind : BitVec 4) : Prop :=
  if rail = 5 then (lim.2 : Int) < r.toInt ∧ kind = 2#4
  else (r.toNat < lim.1 ∧ kind = 0#4) ∨ (lim.1 ≤ r.toNat ∧ lim.2 < r.toNat ∧ kind = 1#4)

/-- A level beyond a warning limit sets WARN and STICKY, raises event 45 where enabled and is recorded; VAON_CHn below its limit stops the ledger writer, until it is read
back within it; a junction or rail beyond an off limit puts the channel into OFF; readings clear WARN; a reference clock fault halts, the memory controller completing
the writes it has issued (R42); a trim sets TRIM and VALID; the watchdog warns once at three
quarters of its period with event 40; a divergence, a signature that differs, a checker fault or a unit mismatch halts the channel with its record (R90, R103 to
R106, R110, R111, R124, R396 to R400, R511). -/
def Obligations.MonitorsAndChecks : Prop :=
  ∀ (s : State) (c : Chan), let ch := s.chan c
    let k := ch.clk
    let now := k.tb.toNat
    let fresh (rail : Nat) : Prop := mapGet k.lastRec rail = none
    let noted (rail : Nat) : Channel := { ch with clk := { k with lastRec := mapPut k.lastRec rail now } }
    let seen (x : Channel) (rail : Fin 6) (r : BitVec 16) : Channel := if rail = 5 then x else { x with
      life := { x.life with rails := setBit x.life.rails rail.val (if rail = 2 then decide (1200 ≤ r.toNat) else decide (r ≠ 0#16)) }
      led := { x.led with stopped := x.led.stopped || (decide (rail = 2) && decide (r.toNat < 1680)) } }
    let halted (x : Channel) : Channel :=
      let q := ({ s.mach c with ch := x }).quench.ch
      { q with
        life := { q.life with cond := .halted, faultN := false }, panel := { q.panel with buz := 0#2 }
        mc := { q.mc with pool := [], queued := [], selfRef := q.mc.trained } }
    let halts (i : Instr) (cls : BitVec 6) (top : BitVec 8) : Prop := (halted ch).led.staging.length < 16 →
      ∃ (n : BitVec 24) (r : Nat), exec i s = .next (({ s with free := r }).setChan c ((halted ch).recorded cls false false (top ++ n : BitVec 32)))
    let core (j : Fin 2) : BitVec 1 := BitVec.ofNat 1 j.val
    ch.led.staging.length < 16 → ch.life.cond = .running →
    (∀ (rail : Fin 6) (r : BitVec 16) (kind : BitVec 4), rail ≠ 4 ∨ ch.straps[6].level ≠ 0#3 → fresh rail.val →
      (levelKind rail (warnLimits rail) r kind → bit k.warn rail.val = false →
        let x := ({ ch with clk := { k with
            warn := setBit k.warn rail.val true, sticky := setBit k.sticky rail.val true, lastRec := mapPut k.lastRec rail.val now } }.recorded
          0x0B#6 false false (BitVec.ofNat 4 rail.val ++ kind ++ 0#8 ++ r : BitVec 32)).raisedIf (bit (winGet ch 0x403) 0) 45 fix0
        turnsTo (.supplyMonitorWarning c rail r) s c (seen x rail r)) ∧
      (levelKind rail (offLimits rail) r kind →
        let x := (seen (noted rail.val) rail r).recorded 0x0B#6 false true (BitVec.ofNat 4 rail.val ++ kind ++ 0#8 ++ r : BitVec 32)
        (rail ≠ 4 → ∃ s', exec (.supplyMonitorOff c rail r) s = .next s' ∧ sameElsewhere s s' c ∧ (s'.chan c).led = x.led ∧
          (s'.chan c).life.cond = .off ∧ (s'.chan c).life.offCause = some (if rail = 5 then .thermal else .brownout)) ∧
        (rail = 4 → ∃ s', exec (.supplyMonitorOff c rail r) s = .next s' ∧ sameElsewhere s s' c ∧
          (s'.chan c).life = { ch.life with rails := setBit ch.life.rails 4 (decide (r ≠ 0#16)) } ∧ (s'.chan c).touch.vtxf = true))) ∧
    (ch.touch.vtxf = true → bit k.warn 4 = false → turnsTo (.vtxDriveRestored c) s c
      ({ ch with touch := { ch.touch with vtxf := false } }.raisedIf (bit (winGet ch 0x10000) 12) 148 (fixN 1))) ∧
    (∀ v0 v1 v2 v3 v4 v5 : BitVec 16, ∃ s', exec (.monitorReadingUpdate c v0 v1 v2 v3 v4 v5) s = .next s' ∧ sameElsewhere s s' c ∧
      (s'.chan c).clk.mon = #v[v0, v1, v2, v3, v4, v5] ∧ (s'.chan c).clk.sticky = k.sticky ∧ (s'.chan c).life.cond = .running ∧
      (s'.chan c).life = { ch.life with rails := (s'.chan c).life.rails } ∧
      (∀ rail : Fin 5, rail ≠ 2 → bit (s'.chan c).life.rails rail.val = decide ((s'.chan c).clk.mon[rail.val] ≠ 0#16)) ∧
      (v2.toNat < 1680 → (s'.chan c).led.stopped = true) ∧
      (1680 ≤ v2.toNat → ch.life.offCause ≠ some .request → (s'.chan c).led.stopped = false) ∧ (s'.chan c).thr = ch.thr ∧ (s'.chan c).proc = ch.proc ∧
      ∀ rail : Fin 6, bit (s'.chan c).clk.warn rail.val = true ↔
        bit k.warn rail.val = true ∧ ∃ kind, levelKind rail (warnLimits rail) (s'.chan c).clk.mon[rail] kind) ∧
    (∀ count : BitVec 16, fresh 6 → count < 650#16 ∨ 880#16 < count ∨ ch.life.power ≠ .sleep → turnsTo (.referenceClockFault c count) s c
      (halted ((noted 6).recorded 0x0B#6 false false (6#4 ++ (if 880#16 < count then 1#4 else 0#4) ++ 0#8 ++ count : BitVec 32)))) ∧
    (∀ (trim : BitVec 10) (tj : BitVec 16), ch.life.power ≠ .sleep → turnsTo (.slowClockTrim c trim tj) s c
      { ch with clk := { k with trim := trim, trimValid := true, trimTj := tj } }) ∧
    (k.wdRun = true → k.wdWarned = false → 3 * (3277 * 2 ^ ch.straps[5].level.toNat) / 4 ≤ k.wdCount →
      turnsTo (.watchdogEarlyWarning c) s c
        (({ ch with clk := { k with wdWarned := true } }.raised 40 fix0).recorded 0x0A#6 false false (s.mach c).notWaiting)) ∧
    (∀ j : Fin 2, ch.life.power = .run → bit ch.life.gated j.val = false →
      halts (.boundaryDivergence c j) 0x08#6 (core j ++ 0#3 ++ 0#4 : BitVec 8) ∧
      does (.registerSignature c j true) s c ch ∧
      ((halted ch).led.staging.length < 16 → ∃ p : Perf, ∃ (n : BitVec 24) (r : Nat),
        exec (.registerSignature c j false) s = .next (({ s with free := r }).setChan c
          { (halted ch).recorded 0x08#6 false false (core j ++ 1#3 ++ 0#4 ++ n : BitVec 32) with perf := p })) ∧
      halts (.checkerFault c j false) 0x09#6 (core j ++ 2#3 ++ 0#4 : BitVec 8) ∧
      halts (.checkerFault c j true) 0x09#6 (core j ++ 3#3 ++ 0#4 : BitVec 8)) ∧
    (∀ unit : BitVec 4, 1#4 ≤ unit → unit ≤ 8#4 →
      halts (.unitCompareMismatch c unit false) 0x09#6 (0#1 ++ 4#3 ++ unit : BitVec 8) ∧
      halts (.unitCompareMismatch c unit true) 0x09#6 (0#1 ++ 2#3 ++ unit : BitVec 8))


/-! ## Configuration by straps (03) -/

/-- The bands and nominal zones of Table 3.2: level, band, zone, in codes. -/
def Sys2Proof.Machine.strapBands : List (BitVec 3 × Nat × Nat × Nat × Nat) :=
  [(0#3, 0, 13, 0, 6), (1#3, 82, 99, 84, 98), (2#3, 177, 215, 181, 211), (3#3, 285, 347, 291, 341), (4#3, 408, 498, 418, 489),
   (5#3, 544, 664, 556, 652), (6#3, 692, 844, 707, 829), (7#3, 1000, 1023, 1023, 1023)]
/-- The rule of R58 for pin i (0 to 7 of a channel, 8 to 11 of the device) with its history, measured to a mean reading x with phase 0 and spread within bounds
or not: level, source and cause. -/
def Sys2Proof.Machine.decides (i : Nat) (hist : Option (BitVec 3)) (bad : Option (BitVec 3)) (x : Nat) (level source cause : BitVec 3) : Prop :=
  let top := topLevel i
  let fall (src cs : BitVec 3) : Prop := cause = cs ∧ match hist with
    | some h => if h ≤ top then level = h ∧ source = src else level = noHistory i ∧ source = 5#3
    | none => level = noHistory i ∧ source = 5#3
  match bad with
  | some cs => fall 2#3 cs
  | none => match strapBands.find? (fun b => b.2.1 ≤ x && x ≤ b.2.2.1) with
    | none => fall 2#3 2#3
    | some b =>
      if top < b.1 then fall 4#3 3#3
      else if hist = none ∨ hist = some b.1 then level = b.1 ∧ source = 0#3 ∧ cause = 5#3
      else if b.2.2.2.1 ≤ x ∧ x ≤ b.2.2.2.2 then level = b.1 ∧ source = 1#3 ∧ cause = 5#3
      else fall 3#3 4#3

/-- What a monitoring round shows of a pin whose word is a plain reading: its raw value, and its status against the level in use, 0 NOMINAL, 1 DRIFTED, 2
UNREADABLE, 3 MOVED (R65). -/
def Sys2Proof.Machine.shows (p q : Pin) (w : BitVec 16) : Prop :=
  q.raw = w.setWidth 10 ∧ q.status = (match strapBands.find? (fun b => b.2.1 ≤ w.toNat && w.toNat ≤ b.2.2.1) with
    | none => 2#2
    | some b => if b.1 ≠ p.level then 3#2 else if b.2.2.2.1 ≤ w.toNat ∧ w.toNat ≤ b.2.2.2.2 then 0#2 else 1#2)
/-- A pin after a monitoring round: level, source and history as before, and what its word shows where that is a plain reading. -/
def Sys2Proof.Machine.monitored (p q : Pin) (word : Option (BitVec 16)) : Prop :=
  q.level = p.level ∧ q.source = p.source ∧ q.hist = p.hist ∧ q.decided = p.decided ∧ (word = none → q = p) ∧
  ∀ w, word = some w → w < 0x400#16 → shows p q w
/-- A pin with the level that the newer valid snapshot copy of a ledger gives pin i. -/
def Sys2Proof.Machine.recalls (l : Ledger) (sq : Bool) (i : Nat) (p : Pin) : Pin :=
  { p with hist := (l.item sq .snapshot).bind (fun b => b[i]?.map (fun w => w.extractLsb' 10 3)) }
/-- A ledger partition whose snapshot copies have been read, its correctable words counted. -/
def Sys2Proof.Machine.snapshotRead (l : Ledger) : Ledger :=
  { l with snapRead := true, corr := satAdd l.corr (l.flaws.filter (fun e => 0x20 ≤ e.1 && e.1 < 0x60 && !e.2)).length }

/-- The scales decide a pin by R58 from phase 0, the spread of the four readings, their mean, its band and the pin's history, and record it where its source is not
its own reading; the last pin of a channel without a partner decides whether it boots, holds or stays off; a monitoring round, due once 1,966,080
slow-clock periods have passed, rewrites STATUS, RLEVEL and RAW alone and counts; DRIFTCTL keeps DEVEN, and enabling with a pin adrift makes event 44
pending; the snapshot read gives each pin its history (R52, R53, R58, R59, R64 to R66, R79). The rounding of a mean that lies halfway is the model's choice
(log 64), and where in the snapshot a level stands is the model's layout (log 12). -/
def Obligations.Straps : Prop :=
  ∀ (s : State) (c : Chan) (p0 c0 c1 c2 c3 : BitVec 10), let ch := s.chan c
    let codes := [c0.toNat, c1.toNat, c2.toNat, c3.toNat]
    let mean := (codes.sum + 2) / 4
    let wide : Prop := ∃ a ∈ codes, ∃ b ∈ codes, a + 8 < b
    let bad (x : Option (BitVec 3)) : Prop := (100#10 < p0 → x = some 0#3) ∧ (p0 ≤ 100#10 → wide → x = some 1#3) ∧ (p0 ≤ 100#10 → ¬ wide → x = none)
    (∀ pin : Fin 8, ch.life.cond = .sampling → ch.life.en = some true → ch.led.snapRead = true →
      (∀ j : Fin 8, ch.straps[j].decided = decide (j < pin)) → ch.led.staging.length < 16 → ch.mc.trainFail = none →
      (∀ k : Chan, k ≠ c → (s.chan k).life.cond = .sampling → (s.chan k).allDecided = true → (s.chan k).straps[0].source ≠ 5#3) →
      ∃ (x : Option (BitVec 3)) (q : Pin) (cause : BitVec 3), bad x ∧ decides pin.val ch.straps[pin].hist x mean q.level q.source cause ∧
        q.decided = true ∧ q.hist = ch.straps[pin].hist ∧
        (pin ≠ 7 → turnsTo (.strapMeasurement c pin p0 c0 c1 c2 c3) s c
          (let ch' := { ch with straps := ch.straps.set pin q };
            if q.source = 0#3 then ch' else ch'.recorded 0x01#6 false false
              (BitVec.ofNat 4 pin.val ++ cause ++ q.level ++ q.source ++ q.status ++ 0#7 ++ q.raw : BitVec 32))) ∧
        (pin = 7 → ∃ (s' : State) (more : List Staged), exec (.strapMeasurement c pin p0 c0 c1 c2 c3) s = .next s' ∧
          (s'.chan c).straps[7] = q ∧ (∀ j : Fin 8, j ≠ 2 → j ≠ 7 → (s'.chan c).straps[j] = ch.straps[j]) ∧
          (ch.straps[0].level ≠ 0#3 → ((s'.chan c).straps[2]).level = 0#3) ∧ (s'.chan c).led.staging = ch.led.staging ++ more ∧
          (s.square.straps[0].decided = false → (s'.chan c).life = ch.life) ∧
          (s.square.straps[0].decided = true → s.partner c = none → (s'.chan c).life.cond =
            (if arrIncludes s.chmode c = false then .keptOff else if ch.straps[0].source = 5#3 then .held else .booting)))) ∧
    (∀ pin : Fin 4, s.square.porN = true → s.square.failed = false → s.square.led.snapRead = true → s.square.straps[pin].decided = false →
      (∀ j : Fin 4, j < pin → s.square.straps[j].decided = true) →
      ∃ (x : Option (BitVec 3)) (q : Pin) (cause : BitVec 3) (led : Ledger) (s' : State), bad x ∧
        decides (8 + pin.val) s.square.straps[pin].hist x mean q.level q.source cause ∧ q.decided = true ∧
        (q.source = 0#3 → led = s.square.led) ∧
        exec (.squareStrapMeasurement pin p0 c0 c1 c2 c3) s = .next s' ∧
        (let sq := { s.square with straps := s.square.straps.set pin q, led := led };
          s'.square = { sq with eth := { sq.eth with mdio := if pin = 3 then sq.phyWrites else sq.eth.mdio } }) ∧
        ((∀ k : Chan, (s.chan k).life.cond ≠ .sampling) → ∀ k : Chan, s'.chan k = s.chan k)) ∧
    (∀ words : List (BitVec 16), mapWf ch.win = true → ch.life.cond = .running →
      (ch.clk.monWait < 1966080 → exec (.monitoringRound c.castSucc words) s = .next s) ∧
      (1966080 ≤ ch.clk.monWait → ∃ s', exec (.monitoringRound c.castSucc words) s = .next s' ∧ sameElsewhere s s' c ∧
        winGet (s'.chan c) 0x19 = winGet ch 0x19 + 1#24 ∧ (s'.chan c).clk = { ch.clk with monWait := 0 } ∧
        (s'.chan c).life = ch.life ∧ (s'.chan c).thr = ch.thr ∧
        ∀ pin : Fin 8, monitored ch.straps[pin] ((s'.chan c).straps[pin]) words[pin.val]?)) ∧
    (∀ words : List (BitVec 16), s.square.failed = false → (∀ pin : Fin 4, s.square.straps[pin].decided = true) → 1966080 ≤ s.square.monWait →
      ∃ s', exec (.monitoringRound 4 words) s = .next s' ∧ s'.square.monWait = 0 ∧ (s'.chan c).thr = ch.thr ∧ (s'.chan c).straps = ch.straps ∧
        ∀ pin : Fin 4, monitored s.square.straps[pin] (s'.square.straps[pin]) words[pin.val]?) ∧
    (∀ v : BitVec 24, mapWf ch.win = true → s.awake c → ∃ s', exec (.driftctl c v) s = .next s' ∧ winGet (s'.chan c) 0x18 = v &&& 1#24 ∧ (s'.chan c).thr = ch.thr ∧
      (s'.chan c).straps = ch.straps ∧
      (bit v 0 = true → bit (winGet ch 0x18) 0 = false → (∃ i : Fin 8, ch.straps[i].status ≠ 0#2 ∨ ch.straps[i].source ≠ 0#3) →
        (mapGet (s'.chan c).proc.pend 44).isSome = true)) ∧
    (ch.life.cond = .sampling → ch.led.snapRead = false → turnsTo (.ledgerSnapshotRead c.castSucc) s c { ch with
      led := snapshotRead ch.led, straps := Vector.ofFn (fun i : Fin 8 => recalls ch.led false i.val ch.straps[i]) }) ∧
    (s.square.led.snapRead = false → exec (.ledgerSnapshotRead 4) s = .next { s with square := { s.square with
      porN := true, led := snapshotRead s.square.led
      straps := Vector.ofFn (fun i : Fin 4 => recalls s.square.led true i.val s.square.straps[i]) } })

/-! ## The ledger (04) -/

/-- The offset of the pinned slot or rotating slot a record goes to is the model's `nextErr`; a record is word 0 (kind, SPEC, FLAG, sequence), LOST and TIME, DETAIL, and
its commit word. The writer writes one word at a time, rewriting one that does not read back once and giving its record up when it fails again: with nothing under way it starts the oldest entry of the
staging queue with the next sequence number, and the last word commits the record. An arriving record enters the queue while it has room and is lost and counted
when it has not; BOOTGOOD sets the mark and requests boot record and snapshot; PINCLR enters the queue; the scan gives sequence counter and counts (R77, R79, R81, R83,
R86, R88, R141). -/
def Obligations.LedgerWriter : Prop :=
  ∀ (s : State) (c : Chan), let ch := s.chan c
    let l := ch.led
    let led (x : Ledger) : Channel := { ch with led := x }
    let open_ : Prop := l.scan = false ∧ l.stopped = false ∧ l.suspended = none ∧ l.lockReq = none
    (∀ (cls : BitVec 6) (spec flag : Bool) (detail : BitVec 32), ch.life.cond ≠ .inReset → 1#6 ≤ cls → cls ≤ 0x11#6 → cls ≠ 0x0F#6 →
      (l.staging.length < 16 → turnsTo (.stagingQueueArrival c.castSucc cls spec flag detail) s c (ch.recorded cls spec flag detail)) ∧
      (16 ≤ l.staging.length → ∃ s', exec (.stagingQueueArrival c.castSucc cls spec flag detail) s = .next s' ∧ sameElsewhere s s' c ∧
        (s'.chan c).led.staging = l.staging ∧ (s'.chan c).led.words = l.words ∧
        (s'.chan c).led.lostTotal = (if l.lostTotal = 0xFFFFFF#24 then l.lostTotal else l.lostTotal + 1#24))) ∧
    (ch.life.cond ≠ .inReset → ch.life.offCause ≠ some .request → open_ →
      (∀ (cls : BitVec 6) (spec flag : Bool) (lost : BitVec 8) (time : BitVec 24) (detail : BitVec 32) (rest : List Staged),
        l.job = none → l.items = [] → l.staging = .error cls spec flag lost time detail :: rest →
        let o := 0x400 + 4 * l.nextErr false
        let w0 : BitVec 32 := cls ++ BitVec.ofBool spec ++ BitVec.ofBool flag ++ l.seq
        let w1 : BitVec 32 := lost ++ time
        ∃ s', exec (.ledgerWordWrite c.castSucc true true) s = .next s' ∧ sameElsewhere s s' c ∧ (s'.chan c).thr = ch.thr ∧
          (s'.chan c).led.words = mapSet 0#32 l.words o w0 ∧ (s'.chan c).led.seq = l.seq + 1#24 ∧
          (s'.chan c).led.staging = rest ++ (l.due.take (16 - rest.length)).map (fun w => .user w.1 w.2 false) ∧
          (s'.chan c).led.job = some { kind := .entry, seq := some l.seq
                                       todo := [(o + 1, w1), (o + 2, detail), (o + 3, crcWords [w0, w1, detail])] }) ∧
      (∀ (o : Nat) (w : BitVec 32) (rest : List (Nat × BitVec 32)) (seq : Option (BitVec 24)) (firstOk : Bool),
        l.job = some { kind := .entry, todo := (o, w) :: rest, seq := seq } →
        ∃ s', exec (.ledgerWordWrite c.castSucc firstOk true) s = .next s' ∧ (s'.chan c).led.words = mapSet 0#32 l.words o w ∧
          (s'.chan c).led.job = (if rest = [] then none else some { kind := .entry, todo := rest, seq := seq }) ∧
          (rest = [] → (s'.chan c).led.newest = seq.getD l.newest)) ∧
      (∀ (o : Nat) (w : BitVec 32) (rest : List (Nat × BitVec 32)) (seq : Option (BitVec 24)),
        l.job = some { kind := .entry, todo := (o, w) :: rest, seq := seq } →
        ∃ (s' : State) (g : BitVec 32), exec (.ledgerWordWrite c.castSucc false false) s = .next s' ∧ g ≠ w ∧
          (s'.chan c).led.words = mapSet 0#32 l.words o g ∧ (s'.chan c).led.job = none ∧ (s'.chan c).led.newest = l.newest ∧
          o ∈ (s'.chan c).led.worn)) ∧
    (s.awake c →
      (ch.boot.good = false → ∃ s', exec (.bootgood c) s = .next s' ∧ (s'.chan c).boot.good = true ∧ (s'.chan c).boot.goodSlot = some ch.boot.slot ∧
        (if ch.boot.slot = 0 then (s'.chan c).boot.att0 = 0#4 else (s'.chan c).boot.att1 = 0#4) ∧
        Item.boot ∈ (s'.chan c).led.items ∧ Item.snapshot ∈ (s'.chan c).led.items ∧ s'.square.snapAsked = true) ∧
      (ch.boot.good = true → exec (.bootgood c) s = .next s) ∧
      (l.staging.length < 16 → turnsTo (.pinclr c) s c (led { l with staging := l.staging ++ [.pinclr] }))) ∧
    (l.scan = true → l.snapRead = true → ∃ s', exec (.ledgerScan c.castSucc) s = .next s' ∧ sameElsewhere s s' c ∧
      (s'.chan c).led.scan = false ∧ (s'.chan c).led.words = l.words ∧
      (s'.chan c).led.seq = (match l.scanNewest false with | some n => l.errSeq n + 1#24 | none => 1#24))

/-! ## The boot sequence (06) -/

/-- DETAIL of a class 0x0C record: slot, result, section. -/
def Sys2Proof.Machine.bootRec (slot : Fin 2) (result : BitVec 3) (sect : BitVec 16) : BitVec 32 := (BitVec.ofNat 1 slot.val ++ result ++ 0#12 ++ sect : BitVec 32)

/-- A flash of 64 to 2,048 Mbit with a mode the CHn_BOOT level permits is taken in the first such mode, else both slots fail with result 5; a transaction that times out
fails the slot being read; with no boot record slot 0 is attempted first; an attempt increments the
slot's count, requests the boot record and records result 0; a slot that is not sound fails with result 2 and section 0xFFFF, one whose digest differs with 3, one unsigned where
keys are fused with 4, and one that passes gives its image, loaded unless the channel joins a partner; a failed round is repeated after 327,680 slow-clock
periods; the image is applied to the control stores of both cores and their checkers, VBASE and attribute store; at the first instruction thread 0 runs at ENTRY in supervisor mode with SP_S at STACK and every
other register FIX 0, and the watchdog starts (R123, R131, R132, R136, R140, R142, R143, R146). -/
def Obligations.BootSequence : Prop :=
  ∀ (s : State) (c : Chan), let ch := s.chan c
    let b := ch.boot
    let boot (x : Boot) : Channel := { ch with boot := x }
    let reached (x : Channel) : Channel := { x with life := { x.life with taken := { x.life.taken with flash := true } } }
    ch.led.staging.length < 15 → ch.life.cond = .booting →
    (∀ (density : BitVec 16) (modes : BitVec 6) (k : Fin 6), b.stage = .discover → 64#16 ≤ density → density ≤ 2048#16 → ch.straps[4].level.toNat ≤ k.val →
      bit modes k.val = true → (∀ j : Fin 6, ch.straps[4].level.toNat ≤ j.val → j < k → bit modes j.val = false) →
      turnsTo (.flashDiscovery c true density modes) s c (reached (boot { b with stage := .attempt, flash := some (density, k) }))) ∧
    (b.stage = .discover → b.prev = none →
      let failed := (ch.recorded 0x0C#6 false false (bootRec 0 5#3 0#16)).recorded 0x0C#6 false false (bootRec 1 5#3 0#16)
      let x := { failed with boot := { b with
        stage := .failed, prev := some (b.round ++ [bootRec 0 5#3 0#16, bootRec 1 5#3 0#16]), round := [], order := [], flash := none
        waited := 0, gone := 0#2 } }
      (∀ density modes, turnsTo (.flashDiscovery c false density modes) s c (reached x)) ∧ turnsTo (.flashTransactionTimeout c) s c x) ∧
    (b.stage = .load → b.prev = none → b.order ≠ [] → turnsTo (.flashTransactionTimeout c) s c
      ({ ch with boot := { b with stage := .attempt, round := b.round ++ [bootRec b.slot 5#3 0#16] } }.recorded 0x0C#6 false false
        (bootRec b.slot 5#3 0#16))) ∧
    (b.stage = .attempt → b.prev = none → b.order = [] → b.gone = 0#2 → ∃ (n : Fin 2) (r : Nat),
      exec (.flashTransactionTimeout c) s = .next (({ s with free := r }).setChan c
        ({ ch with boot := { b with round := b.round ++ [bootRec n 5#3 0#16], gone := if n = 0 then 1#2 else 2#2 } }.recorded 0x0C#6 false false
          (bootRec n 5#3 0#16)))) ∧
    (∀ (h0 h1 : List Byte) (n : Fin 2) (rest : List (Fin 2)), b.stage = .attempt → ch.led.scan = false → b.gone = 0#2 →
      b.order = n :: rest ∨ (b.order = [] ∧ b.known = false ∧ n = 0 ∧ rest = [1]) → b.prev = none →
      ∃ s', exec (.slotAttempt c h0 h1) s = .next s' ∧ sameElsewhere s s' c ∧ Item.boot ∈ (s'.chan c).led.items ∧
        (s'.chan c).led.staging = (ch.recorded 0x0C#6 false false (bootRec n 0#3 0#16)).led.staging ∧
        (s'.chan c).boot = { b with
          stage := .load, order := rest, slot := n, second := !b.order.isEmpty, known := true, lastTried := n, round := b.round ++ [bootRec n 0#3 0#16]
          att0 := if n = 0 ∧ b.att0 ≠ 15#4 then b.att0 + 1#4 else b.att0
          att1 := if n = 1 ∧ b.att1 ≠ 15#4 then b.att1 + 1#4 else b.att1 }) ∧
    (∀ img : List Byte, b.stage = .load → ch.mc.trained = true → ch.led.owes .boot = false → b.prev = none →
      b.order ≠ [] →
      let fails (x : Channel) (result : BitVec 3) (sect : BitVec 16) : Channel :=
        { x with boot := { b with stage := .attempt, round := b.round ++ [bootRec b.slot result sect] } }.recorded
          0x0C#6 false false (bootRec b.slot result sect)
      let verified (x : Channel) : Channel :=
        if imageDigest img ≠ digestField img then fails x 3#3 0#16
        else if Config.keyFused = true ∧ signed img = false then fails x 4#3 0#16
        else { x with boot := { b with stage := .passed, image := some (imageOf img), round := [], prev := none } }
      (sound img b.slotSize ch.memCells = false → turnsTo (.slotLoad c img) s c (fails ch 2#3 0xFFFF#16)) ∧
      (sound img b.slotSize ch.memCells = true → s.joins c = true → ((s.mach c).loadSections img false 0 (sections img)).1 = none → b.second = false →
        turnsTo (.slotLoad c img) s c (verified ch)) ∧
      (sound img b.slotSize ch.memCells = true → s.joins c = false → b.second = false →
        let r := (s.mach c).loadSections img true 0 (sections img)
        (r.1 = none → turnsTo (.slotLoad c img) s c (verified r.2.ch)) ∧
        (∀ i, r.1 = some i → ∃ s', exec (.slotLoad c img) s = .next s' ∧ sameElsewhere s s' c ∧ (s'.chan c).thr = ch.thr ∧
          (s'.chan c).boot = { b with stage := .attempt, round := b.round ++ [bootRec b.slot 2#3 (BitVec.ofNat 16 i)] }))) ∧
    (b.stage = .failed → 327680 ≤ b.waited → turnsTo (.bootRetry c) s c (boot { b with stage := .discover })) ∧
    (b.waited < 327680 → exec (.bootRetry c) s = .next s) ∧
    (∀ i : Image, b.image = some i → b.stage = .passed → ch.led.owes .boot = false → s.partner c = none →
      ∃ s', exec (.imageApply c) s = .next s' ∧ sameElsewhere s s' c ∧ (s'.chan c).boot = { b with stage := .applied } ∧ (s'.chan c).phys = ch.phys ∧
        (s'.chan c).core = ch.core.map (fun k => k.loadPatch i.patch) ∧
        (s'.chan c).proc = { ch.proc with
          ucver := (Config.romRev ++ (i.patch.map Patch.ident).getD 0#16 : BitVec 24), vbase := BitVec.ofNat 24 i.vpage, attr := i.attr }) ∧
    (∀ i : Image, b.image = some i → b.stage = .applied → ch.pair.role ≠ .standby → ch.pair.role ≠ .joining →
      ∃ s', exec (.firstInstruction c) s = .next s' ∧ sameElsewhere s s' c ∧ (s'.chan c).life.cond = .running ∧ (s'.chan c).life.power = .run ∧
        (s'.chan c).life.faultN = true ∧ (s'.chan c).clk.wdRun = true ∧ (s'.chan c).clk.wdCount = 0 ∧ (s'.chan c).phys = ch.phys ∧
        s'.thread c 0 = { threadReset with pc := i.entry, pstate := 1#24, spS := loc i.stack, status := .running } ∧
        (∀ t : Fin 8, t ≠ 0 → s'.thread c t = threadReset) ∧
        (ch.life.alone46 = true → (s'.chan c).proc = (ch.raised 46 (fixN 3)).proc))


/-! ## The memory controller (16, 17) -/

/-- Saturating increment. -/
def Sys2Proof.Machine.upTo {w : Nat} (p : BitVec w) : BitVec w := if p.toNat + 1 = 2 ^ w then p else p + 1#w

/-- Training: a pass overwrites memory, a failing step is recorded and waits for its retry; a restored training that verifies makes the boot warm. Scheduling: a
controller clock activates the row of the one waiting request or, its row open, issues its column command, and issues neither before the timing of Table 16.1
permits it; once its last beat has passed a request completes and leaves the pool, a write opening its alert window; a row idle for 256 clocks closes; a refresh closes every row. Maintenance: a slice goes to the next lane and counts a failure, readings above
85 °C make a subchannel hot and 32 at or below it cool, the scrub goes to the next line, a window boundary frees the counters once the window has passed. Alerts: an open write is
reissued twice, at its third alert its line reads as poison; a stuck alert is recorded once. Panic: an episode begins, its limit holds it off; a load of MCPEAK
clears it (R366 to R394). -/
def Obligations.MemoryController : Prop :=
  ∀ (s : State) (c : Chan) (b : Bool), let ch := s.chan c
    let mc := ch.mc
    let ix : Fin 2 := if b then 1 else 0
    let x := mc.sub[ix]
    let withMc (y : MemCtl) : Channel := { ch with mc := y }
    let setSub (y : SubCh) : Channel := withMc { mc with sub := mc.sub.set ix y }
    let up : Prop := mc.trained = true ∧ ch.life.cond = .running ∧ ch.life.power ≠ .sleep
    let there : Prop := b = true → ch.hasB = true
    let aged (y : PoolReq) : PoolReq := { y with age := min 512 (y.age + 1), left := y.left - 1 }
    let room : Prop := ch.led.staging.length < 16
    (ch.life.cond = .booting → mc.trained = false → ch.led.scan = false →
      (∀ (step : BitVec 4) (temp : BitVec 8) (ra rb : Bool), mc.retryWait = false → ch.restorable = false →
        (step = 0#4 → ∃ s', exec (.fullTraining c b step temp ra rb) s = .next s' ∧ sameElsewhere s s' c ∧ (s'.chan c).phys.mem = [] ∧
          (s'.chan c).phys.memGen = ch.phys.memGen + 1 ∧ (s'.chan c).mc.trained = true ∧ (s'.chan c).mc.trainTemp = temp ∧
          (s'.chan c).life.taken.memory = true ∧ Item.training ∈ (s'.chan c).led.items) ∧
        (step ≠ 0#4 → mc.trainFail ≠ some (b, step) → room → turnsTo (.fullTraining c b step temp ra rb) s c
          ({ ch with
            mc := { mc with linkCount := upTo mc.linkCount, trainFail := some (b, step), retryWait := true, waited := 0 }
            life := { ch.life with faultN := false, taken := { ch.life.taken with memory := false } } }.recorded
            0x04#6 false false (BitVec.ofBool b ++ 2#3 ++ step.setWidth 28 : BitVec 32)))) ∧
      (∀ (line : BitVec 32) (ra rb : Bool), ch.restorable = true → mc.restoreFailed = false →
        (∃ s', exec (.restoreAndVerify c true line ra rb) s = .next s' ∧ (s'.chan c).mc.trained = true ∧ (s'.chan c).boot.warm = true ∧
          (s'.chan c).phys = ch.phys ∧ sameElsewhere s s' c) ∧
        ∃ s', exec (.restoreAndVerify c false line ra rb) s = .next s' ∧ (s'.chan c).mc.restoreFailed = true ∧ (s'.chan c).mc.trained = false)) ∧
    (327680 ≤ mc.waited → turnsTo (.trainingRetry c) s c (withMc { mc with retryWait := false })) ∧
    (mc.waited < 327680 → exec (.trainingRetry c) s = .next s) ∧
    (∀ (r : PoolReq), up → there → x.owed = 0#2 → x.toCmd ≤ 1 → mc.unread = false → ch.nextScan = none → mc.pool = [r] → ch.subOf r.line = ix →
      r.stage = .waiting → x.open_ = [] →
      let k := x.bank (ch.spot r.line).2
      (k.row = none → k.toAct ≤ 1 → ∃ s', exec (.commandIssue c b) s = .next s' ∧ sameElsewhere s s' c ∧ (s'.chan c).phys = ch.phys ∧
        (s'.chan c).mc.pool = [aged r] ∧ (((s'.chan c).mc.sub[ix]).bank (ch.spot r.line).2).row = some (ch.spot r.line).1) ∧
      (k.row = some (ch.spot r.line).1 → k.toCol ≤ 1 → x.toBus ≤ 1 → r.left ≤ 1 → r.kind = .read ∨ r.kind = .scrub ∨ r.kind = .write →
        ∃ s', exec (.commandIssue c b) s = .next s' ∧ sameElsewhere s s' c ∧ (s'.chan c).phys = ch.phys ∧
          (s'.chan c).mc.pool = [{ aged r with stage := .issued, left := (if r.kind = .write then ch.tCwl else ch.tRcd) + 2 }]) ∧
      ((k.row = none → 1 < k.toAct) → (∀ row, k.row = some row → row ≠ (ch.spot r.line).1 → 1 < k.toPre) →
        (k.row = some (ch.spot r.line).1 → 1 < k.toCol ∨ 1 < x.toBus ∨ 1 < r.left) →
        ∃ s', exec (.commandIssue c b) s = .next s' ∧ (s'.chan c).phys = ch.phys ∧ (s'.chan c).mc.pool = [aged r] ∧ ((s'.chan c).mc.sub[ix]).cmd = .none)) ∧
    (∀ (r : PoolReq) (rest : List PoolReq) (again : Bool), up → mc.pool = r :: rest → r.stage = .issued → r.left = 0 → mc.queued = [] →
      ch.subOf r.line = ix → r.errs = [] → r.age < 512 →
      (r.kind = .read ∨ r.kind = .scrub → turnsTo (.requestComplete c b false again) s c (withMc { mc with pool := rest })) ∧
      (r.kind = .write ∨ r.kind = .merge → turnsTo (.requestComplete c b false again) s c
        (withMc { mc with pool := rest, sub := mc.sub.set ix { x with open_ := x.open_ ++ [{ line := r.line, alerts := 0#2, left := 16 }] } }))) ∧
    (∀ bank : Fin 32, up → (x.bank bank.val).row.isSome = true → 256 ≤ (x.bank bank.val).idle →
      turnsTo (.rowIdleClose c b bank) s c (setSub { x.setBank bank.val { x.bank bank.val with
        row := none, leftOpen := false, idle := 0, toCol := 0, toPre := 0, toAct := ch.tRcd } with cmd := .precharge bank.val })) ∧
    (up → there → mc.pool = [] → ∃ s', exec (.refresh c b) s = .next s' ∧ sameElsewhere s s' c ∧ (s'.chan c).phys = ch.phys ∧
      ∀ n, (((s'.chan c).mc.sub[ix]).bank n).row = none) ∧
    (∀ okA okB : Bool, up → ∃ s', exec (.retrainingSlice c okA okB) s = .next s' ∧ sameElsewhere s s' c ∧ (s'.chan c).phys = ch.phys ∧
      (there → ((s'.chan c).mc.sub[ix]).lane = x.lane + 1 ∧
        ((s'.chan c).mc.sub[ix]).slfail = (if (if b then okB else okA) then x.slfail else upTo x.slfail))) ∧
    (∀ tA tB : BitVec 8, up → there → ∃ s', exec (.temperatureRead c tA tB) s = .next s' ∧ sameElsewhere s s' c ∧ (s'.chan c).phys = ch.phys ∧
      let t := if b then tB else tA
      let y := (s'.chan c).mc.sub[ix]
      (s'.chan c).mc.unread = false ∧ y.temp = t ∧ (85 < t.toInt → y.hot = true) ∧ (t.toInt ≤ 85 → y.hot = (x.hot && decide (x.cool < 31)))) ∧
    (x.winLen ≤ x.winAge → turnsTo (.countingWindowBoundary c b) s c
      (setSub { x with dist := [], winAge := 0, winLen := if x.hot then 524 else 1048 })) ∧
    (x.winAge < x.winLen → exec (.countingWindowBoundary c b) s = .next s) ∧
    (up → ∃ s', exec (.patrolScrub c) s = .next s' ∧ sameElsewhere s s' c ∧ sameCells s s' c ∧ (s'.chan c).thr = ch.thr ∧
      (there → ((s'.chan c).mc.sub[ix]).scrub = if ch.subCells / 16 ≤ x.scrub + 1 then 0 else x.scrub + 1)) ∧
    (∀ w : OpenWrite, up → x.stuck = false → x.open_ = [w] →
      (w.alerts ≠ 2#2 → does (.writeCrcAlert c b) s c (setSub { x with open_ := [{ w with alerts := w.alerts + 1#2, left := 16 }] })) ∧
      (w.alerts = 2#2 → (∀ i < 16, ch.place (w.line * 16 + i) = .memory) → ∃ s', exec (.writeCrcAlert c b) s = .next s' ∧ sameElsewhere s s' c ∧
        ((s'.chan c).mc.sub[ix]).open_ = [] ∧ (∀ i < 16, s'.cell c (w.line * 16 + i) = psn 1#4) ∧
        ∀ a, a / 16 ≠ w.line → s'.cell c a = s.cell c a)) ∧
    (up → there → x.stuck = false → room → turnsTo (.stuckAlert c b) s c
      ((withMc { mc with sub := mc.sub.set ix { x with stuck := true }, linkCount := upTo mc.linkCount }).recorded
        0x04#6 false false (BitVec.ofBool b ++ 0#31 : BitVec 32))) ∧
    turnsTo (.alertRelease c b) s c (setSub { x with stuck := false }) ∧
    (ch.life.cond = .running → ch.life.power ≠ .sleep → ch.framing = true → mc.panic = false → mc.panicHeld = false →
      turnsTo (.panic c) s c (withMc { mc with panic := true, episodes := upTo mc.episodes })) ∧
    (mc.panic = true → turnsTo (.panicLimit c) s c (withMc { mc with panic := false, panicHeld := true, cutoffs := upTo mc.cutoffs })) ∧
    (s.awake c → turnsTo (.mcpeakRead c) s c (withMc { mc with peak := 0#11 }))


/-! ## The sweeper (15) -/

/-- Replace a managed-space slot of a channel. -/
def Sys2Proof.Machine.Channel.withSlot (ch : Channel) (sl : Fin 8) (x : Slot) : Channel := { ch with sw := { ch.sw with slots := ch.sw.slots.set sl x } }
/-- The changes region set permits (R338): from a kind to a kind, ROOT only on UNMANAGED. -/
def Sys2Proof.Machine.regionMay (e : Payload) (kind : Nat) (root : Bool) : Prop :=
  (entryKind e = kind ∧ entryRoot e = root) ∨
  ((root = true → kind = 6) ∧
    ((entryKind e = 0 ∧ (kind = 5 ∨ kind = 6)) ∨ (entryKind e = 5 ∧ kind = 0) ∨ (entryKind e = 6 ∧ (kind = 0 ∨ kind = 6))))

/-- The sweeper's commands in phase IDLE: an enable takes a map of FREE, STATIC and UNMANAGED entries and clears the side area; a disable drops the pitches; a young or
full cycle of an enabled slot, with every earlier write in its place, enters ROOTS, a young one of a slot with LOGOVF as a full cycle, and of a slot not enabled is refused with result 2; region set
changes the map and its mirror where permitted, else result 2; OP 4 to 15 has result 2. In any other phase they change nothing but report 1. A trigger starts a full
cycle; a refill hands the thread the next block of a NURSERY region (R335, R338, R340, R341, R348). -/
def Obligations.SweeperCommands : Prop :=
  ∀ (s : State) (c : Chan) (sl : Fin 8), let ch := s.chan c
    let sw := ch.sw
    let x := sw.slots[sl]
    let idle : Prop := sw.phase = .idle ∧ sw.starting = false
    let quiet : Prop := ch.core[0].wb = [] ∧ ch.core[1].wb = [] ∧ ch.proc.heals = [] ∧ (∀ t : Fin 8, ∀ k, (s.thread c t).status ≠ .waiting k) ∧
      (∀ i < 540672, ch.place (x.side.toNat * 1024 + i) = .memory) ∧ ∀ e ∈ x.pitch, e.2.2 ≤ 0x1000000
    let result (r : BitVec 2) : Channel := { ch with sw := { sw with result := r } }
    let mapCell (r : Nat) : Nat := bits ch.proc.regmap 0 22 * 1024 + 256 * sl.val + r
    let side := x.side.toNat * 1024
    let starts (i : Instr) (full : Bool) : Prop := ∃ s', exec i s = .next s' ∧ sameElsewhere s s' c ∧ (s'.chan c).sw.phase = .roots ∧
      (s'.chan c).sw.slot = sl ∧ (s'.chan c).sw.full = full ∧ (s'.chan c).sw.starting = false ∧ (s'.chan c).sw.xlate = none ∧
      ∀ t : Fin 8, s'.thread c t = (if (s.thread c t).status = .running then { s.thread c t with rootReq := true, rootPend := true } else s.thread c t)
    (s.awake c →
      (idle → turnsTo (.slotDisable c sl) s c (ch.withSlot sl { x with en := false, pitch := [] })) ∧
      (∀ asid : BitVec 8, idle → x.en = false → (∀ u : Fin 8, sw.slots[u].en = true → sw.slots[u].asid ≠ asid) →
        (∀ r < 256, ch.place (mapCell r) = .memory ∧ cellTag (s.cell c (mapCell r)) = tFIX ∧
          let e := cellPay (s.cell c (mapCell r))
          (entryKind e = 0 ∨ entryKind e = 5 ∨ entryKind e = 6) ∧ bits e 16 3 = 0 ∧ bits e 0 8 = 0) →
        ch.place side = .memory → ch.place (side + 540671) = .memory →
        ∃ s', exec (.slotEnable c sl asid) s = .next s' ∧ sameElsewhere s s' c ∧ (s'.chan c).thr = ch.thr ∧ (s'.chan c).sw.result = 0#2 ∧
          (let y := (s'.chan c).sw.slots[sl];
            y.en = true ∧ y.asid = asid ∧ y.logovf = x.logovf ∧ y.pitch = [] ∧ y.side = x.side ∧ ∀ r < 256, y.entry r = cellPay (s.cell c (mapCell r))) ∧
          (∀ i < 540672, s'.cell c (side + i) = raw 0#24) ∧ ∀ a, a < side ∨ side + 540672 ≤ a → s'.cell c a = s.cell c a) ∧
      (idle → x.en = true → quiet →
        starts (.youngCycleCommand c sl) x.logovf ∧ starts (.fullCycleCommand c sl) true) ∧
      (idle → x.en = false → turnsTo (.youngCycleCommand c sl) s c (result 2#2) ∧ turnsTo (.fullCycleCommand c sl) s c (result 2#2)) ∧
      (¬ idle → turnsTo (.youngCycleCommand c sl) s c (result 1#2) ∧ turnsTo (.fullCycleCommand c sl) s c (result 1#2) ∧
        ∀ region kind root, turnsTo (.regionSet c sl region kind root) s c (result 1#2)) ∧
      (∀ (region : BitVec 8) (kind : BitVec 3) (root : Bool), idle → x.en = true →
        let e := x.entry region.toNat
        let new : Payload := kind ++ BitVec.ofBool root ++ 0#20
        (¬ regionMay e kind.toNat root → turnsTo (.regionSet c sl region kind root) s c (result 2#2)) ∧
        (regionMay e kind.toNat root → entryKind e ≠ kind.toNat ∨ entryRoot e ≠ root → mapWf x.map = true →
          ch.place (mapCell region.toNat) = .memory →
          ∃ s', exec (.regionSet c sl region kind root) s = .next s' ∧ sameElsewhere s s' c ∧ (s'.chan c).thr = ch.thr ∧
            (s'.chan c).sw.result = 0#2 ∧ ((s'.chan c).sw.slots[sl]).entry region.toNat = new ∧
            (∀ r, r ≠ region.toNat → ((s'.chan c).sw.slots[sl]).entry r = x.entry r) ∧
            s'.cell c (mapCell region.toNat) = fix new ∧ ∀ a, a ≠ mapCell region.toNat → s'.cell c a = s.cell c a)) ∧
      (∀ op : BitVec 4, 4#4 ≤ op → turnsTo (.swcmdInvalid c op) s c (result 2#2))) ∧
    (ch.life.cond = .running → ch.life.power = .run → (s.mach c).heldBack = false →
      (idle → quiet → x.en = true → (∀ u : Fin 8, u < sl → sw.slots[u].en = false) → bits (winGet ch 0x2000) 8 8 ≠ 0 →
        x.freeCount ≤ bits (winGet ch 0x2000) 8 8 → starts (.automaticCycleStart c) true) ∧
      (∀ (t : Fin 8) (r n : Nat), x.en = true → r < 256 → entryKind (x.entry r) = 1 → mapAt 0 x.handed r = n → n < 64 →
        (∀ q < r, entryKind (x.entry q) = 1 → 64 ≤ mapAt 0 x.handed q) → mapAt (0, 0) x.pitch t.val = (0, 0) → idle →
        does (.pitchRefill c sl t) s c (ch.withSlot sl { x with
          handed := mapPut x.handed r (n + 1), pitch := mapPut x.pitch t.val (r * 0x10000 + n * 1024, r * 0x10000 + n * 1024 + 1024) })))

/-- The anchor and the first entry of its chain translate a page of an ASID to memory page i, readable and writable, with A and D set (R291 to R296). -/
def Sys2Proof.Machine.State.paged (s : State) (c : Chan) (vpn : BitVec 14) (asid : BitVec 8) (i h e : Nat) : Prop :=
  let ch := s.chan c
  let p (a : Nat) : Payload := cellPay (s.cell c a)
  ch.proc.hatsize ≠ 0#24 ∧ h = bits ch.proc.hatbase 0 22 * 1024 + anchorOf vpn asid ch.proc.hatsize.toNat ∧
  e = bits ch.proc.ptbase 0 22 * 1024 + 4 * i ∧ i < ch.memPages ∧ ch.place h = .memory ∧ ch.place e = .memory ∧ ch.place (i * 1024) = .memory ∧
  cellTag (s.cell c h) ≠ tPSN ∧ bit (p h) 23 = false ∧ bits (p h) 0 22 = i ∧
  cellTag (s.cell c e) ≠ tPSN ∧ cellTag (s.cell c (e + 1)) ≠ tPSN ∧ cellTag (s.cell c (e + 2)) ≠ tPSN ∧
  (p e).extractLsb' 0 14 = vpn ∧ (p e).extractLsb' 16 8 = asid ∧
  bit (p (e + 1)) 23 = true ∧ bit (p (e + 1)) 17 = false ∧ bit (p (e + 1)) 0 = true ∧ bit (p (e + 1)) 1 = true ∧
  bit (p (e + 1)) 20 = true ∧ bit (p (e + 1)) 21 = true

/-- A drained log entry sets its card; a full mark queue spills its oldest 16 entries as one line; MARK's end frees a dead NURSERY region and begins EVACUATE; a copy step
moves one cell to to-space with its CDR and leaves FWD in its place; EVACUATE's end begins FIXUP with its root requests; FIXUP's end frees EVAC regions and unused
to-space, clears NEW and the mark cells, counts the cycle and raises vector 80 where enabled (R340, R345, R351 to R354). -/
def Obligations.SweeperCycle : Prop :=
  ∀ (s : State) (c : Chan), let ch := s.chan c
    let sw := ch.sw
    let sl := sw.slot
    let x := sw.slots[sl]
    let mapCell (r : Nat) : Nat := bits ch.proc.regmap 0 22 * 1024 + 256 * sl.val + r
    ch.life.cond = .running → ch.life.power = .run → (s.mach c).heldBack = false →
    (∀ (o w : Nat) (u : Fin 8) (p : Payload), sw.logOcc ≠ 0#11 →
      o = ch.proc.nearbase.toNat + (sw.logHead.toNat + 1024 - sw.logOcc.toNat) % 1024 → o < 0x10000 → s.nearClean c o 1 →
      s.cell c (0x80000000 + o) = raw p → bits p 18 3 = 0 → bits p 21 3 = u.val → sw.slots[u].en = true →
      w = sw.slots[u].side.toNat * 1024 + 0x80000 + bits p 4 14 → ch.place w = .memory →
      ∃ s', exec (.logDrain c) s = .next s' ∧ sameElsewhere s s' c ∧ (s'.chan c).sw = { sw with logOcc := sw.logOcc - 1#11, lastLine := some (w / 16) } ∧ (s'.chan c).thr = ch.thr ∧
        s'.cell c w = raw (setBit (cellPay (s.cell c w)) (bits p 0 4) true) ∧ ∀ a, a ≠ w → s'.cell c a = s.cell c a) ∧
    (let a := bits (winGet ch 0x2005) 0 22 * 1024 + sw.spilled;
      sw.phase = .roots ∨ sw.phase = .mark → 4096 ≤ sw.queue.length → sw.spilled % 16 = 0 → sw.spilled + 16 ≤ bits (winGet ch 0x2006) 0 12 * 1024 →
      ch.place a = .memory →
      ∃ s', exec (.markQueueSpill c) s = .next s' ∧ sameElsewhere s s' c ∧
        (s'.chan c).sw = { sw with queue := sw.queue.drop 16, spilled := sw.spilled + 16, lastLine := some (a / 16) } ∧ (s'.chan c).thr = ch.thr ∧
        (∀ i < 16, s'.cell c (a + i) = sw.queue.getD i fix0) ∧ ∀ b, b < a ∨ a + 16 ≤ b → s'.cell c b = s.cell c b) ∧
    (∀ (r : Nat) (e : Payload), sw.phase = .mark → sw.planned = true → sw.queue = [] → sw.spilled = 0 → sw.work = [] → r < 256 → x.map = [(r, e)] →
      entryKind e = 1 → entryNew e = false → mapAt 0 sw.live r = 0 → ch.place (mapCell r) = .memory →
      ∃ s', exec (.markEnd c) s = .next s' ∧ sameElsewhere s s' c ∧ (s'.chan c).sw.phase = .evacuate ∧ ((s'.chan c).sw.slots[sl]).map = [] ∧
        (s'.chan c).thr = ch.thr ∧ s'.cell c (mapCell r) = fix0 ∧ ∀ a, a ≠ mapCell r → s'.cell c a = s.cell c a) ∧
    (∀ (j : CopyJob) (i k h e h' e' ps pd : Nat), sw.phase = .evacuate → sw.copy = some j → j.k + 1 < j.len → sw.xlate = none →
      s.paged c (BitVec.ofNat 14 ((j.src + j.k) / 1024)) x.asid i h e → s.paged c (BitVec.ofNat 14 ((j.dst + j.k) / 1024)) x.asid k h' e' →
      ps = i * 1024 + (j.src + j.k) % 1024 → pd = k * 1024 + (j.dst + j.k) % 1024 → ps ≠ pd →
      (∀ a ∈ [ps, pd], a ∉ [h, e, e + 1, e + 2, h', e', e' + 1, e' + 2]) →
      (isPtrOrFwd (s.cell c ps) = true → entryKind (x.entry (bits (cellPay (s.cell c ps)) 16 8)) ≠ 1 ∧
        entryKind (x.entry (bits (cellPay (s.cell c ps)) 16 8)) ≠ 3) →
      ∃ s', exec (.sweeperCopy c) s = .next s' ∧ sameElsewhere s s' c ∧ (s'.chan c).thr = ch.thr ∧ (s'.chan c).sw.copy = some { j with k := j.k + 1 } ∧
        s'.cell c pd = s.cell c ps ∧ s'.cell c ps = mkCell tFWD (cellCdr (s.cell c ps)) (BitVec.ofNat 24 (j.dst + j.k)) ∧
        ∀ a, a ≠ ps → a ≠ pd → s'.cell c a = s.cell c a) ∧
    (sw.phase = .evacuate → sw.copy = none → sw.todo = [] → sw.work = [] → sw.toBlocks = [] → sw.toEnd ≤ sw.toNext →
      (∀ (t : Fin 8) k, (s.thread c t).status ≠ .waiting k) →
      does (.evacuateEnd c) s c { ch with
        sw := { sw with phase := .fixup, planned := false, work := [], xlate := none }
        thr := ch.thr.map (fun t => if t.status = .running then { t with rootReq := true, rootPend := true } else t) }) ∧
    (sw.phase = .fixup → sw.planned = true → sw.work = [] → sw.full = true ∨ sw.lost = false ∨ sw.whole = true → mapWf x.map = true → (∀ e ∈ x.map, e.1 < 256) → (∀ r ∈ sw.toSpace, r < 256) →
      (∀ a ∈ sw.marks, ch.place a = .memory) →
      (∀ r < 256, ch.place (mapCell r) = .memory) →
      ∃ s', exec (.fixupEnd c) s = .next s' ∧ sameElsewhere s s' c ∧ (s'.chan c).sw.phase = .idle ∧ (s'.chan c).thr = ch.thr ∧
        (let y := (s'.chan c).sw.slots[sl];
          y.cycles = x.cycles + 1#24 ∧ y.en = x.en ∧ y.pitch = x.pitch ∧ y.logovf = (x.logovf && !(sw.full && !sw.lost)) ∧
          ∀ r < 256, y.entry r = (if entryKind (x.entry r) = 3 ∨ (r ∈ sw.toSpace ∧ r * 0x10000 ∈ sw.toBlocks) then 0#24
            else setBit (x.entry r) 19 false)) ∧
        (∀ a ∈ sw.marks, s'.cell c a = raw 0#24) ∧
        (bit (winGet ch 0x2000) 0 = true → (mapGet (s'.chan c).proc.pend 80).isSome = true))

/-! ## The display engine and the panel (20) -/

/-- The unit of a window page has taken its balls at a program's store (R40). -/
def Sys2Proof.Machine.Channel.taking (ch : Channel) (p : Nat) : Channel := { ch with life := { ch.life with taken := ch.life.taken.page p } }

/-- Link training latches request and timing and ends with its result, and the trained lanes and rate; an AUX transaction runs while none is busy and ends with its result;
hot plug and unplug; a vertical start latches planes and palette; an underrun counts a line; a change restarts the count of unchanged frames and ends self refresh, which
begins after DPSR.N of them. Each raises its vector where DCTL enables it (R449 to R458). -/
def Obligations.DisplayEngine : Prop :=
  ∀ (s : State) (c : Chan), let ch := s.chan c
    let d := ch.disp
    let on : Prop := ch.dispOn = true
    let withD (y : Disp) : Channel := { ch with disp := y }
    let ev (x : Channel) (v : Nat) (a : Cell) : Channel := x.raisedIf (bit (winGet ch 0xC000) (v - 120)) v a
    let awake := s.awake c
    let running : Prop := ch.life.cond = .running
    let fast : Prop := ch.life.power ≠ .sleep
    let its (y : Channel) : Channel := y.taking 0x30
    (awake → on →
      (∀ rate lanes : BitVec 2, turnsTo (.linkTraining c rate lanes) s c (its { winPut ch 0xC002 (0#20 ++ rate ++ lanes : BitVec 24) with
        disp := { d with training := some (rate, lanes), dlres := 1#3, timing := ch.timingRegs, scan := none } })) ∧
      (∀ (op : BitVec 2) (mot : Bool) (len : BitVec 4),
        (d.aux = none → turnsTo (.auxTransaction c op mot len) s c
          (its { winPut ch 0xC031 (0#1 ++ op ++ BitVec.ofBool mot ++ 0#16 ++ len : BitVec 24) with disp := { d with aux := some (op, len) } })) ∧
        (d.aux ≠ none → turnsTo (.auxTransaction c op mot len) s c (its ch))) ∧
      (d.psr = false → turnsTo (.dctlDirty c) s c (its (withD { d with unchanged := 0 }))) ∧
      (d.psr = true → turnsTo (.dctlDirty c) s c (its (ev (withD { d with psr := false, unchanged := 0 }) 133 fix0)))) ∧
    (∀ result lanes rate reply, ¬ fast → exec (.linkTrainingDone c result lanes rate) s = .next s ∧ exec (.auxDone c rate reply) s = .next s) ∧
    (running → fast →
      (∀ (result : BitVec 3) (lanes rate rl rr : BitVec 2), d.training = some (rr, rl) → lanes ≤ rl → rate ≤ rr →
        lanes ≤ (dispCeiling ch.straps[7].level.toNat).2 → rate ≤ (dispCeiling ch.straps[7].level.toNat).1 →
        let slow : Prop := linkRate rate lanes * 8 < bits d.timing[0] 0 18 * 240
        ∀ r : BitVec 3, (d.hpd = false → r = 1#3) → (d.hpd = true → result = 0#3 ∨ result = 4#3 → (slow → r = 4#3) ∧ (¬ slow → r = 0#3)) →
          (d.hpd = true → result ≠ 0#3 → result ≠ 4#3 → r = result) →
          turnsTo (.linkTrainingDone c result lanes rate) s c
            (ev (withD { d with training := none, dlres := r, lanes := lanes, rate := rate }) 128 (fix (r.setWidth 24)))) ∧
      (∀ (op result : BitVec 2) (len : BitVec 4) (reply : List Byte), d.aux = some (op, len) → bit op 0 = false ∨ result ≠ 0#2 →
        turnsTo (.auxDone c result reply) s c (ev (withD { d with aux := none, auxResult := result }) 129 (fix (result.setWidth 24)))) ∧
      (∀ (op : BitVec 2) (b0 b1 b2 : Byte), d.aux = some (op, 2#4) → bit op 0 = true → turnsTo (.auxDone c 0#2 [b0, b1, b2]) s c
        (ev { winPut ch 0xC034 (b2 ++ b1 ++ b0 : BitVec 24) with disp := { d with aux := none, auxResult := 0#2 } } 129 fix0))) ∧
    (running →
      (on →
        turnsTo (.hpd c 1#2) s c (ev (withD { d with hpd := true }) 131 (fixN 1)) ∧
        (d.psr = false →
          turnsTo (.hpd c 0#2) s c (ev (withD { d with hpd := false, dlres := 1#3, scan := none }) 131 fix0) ∧ turnsTo (.hpd c 2#2) s c (ev ch 131 (fixN 2))) ∧
        (d.psr = true → turnsTo (.hpd c 2#2) s c (ev (ev (withD { d with psr := false, unchanged := 0 }) 133 fix0) 131 (fixN 2)))) ∧
      (∀ result reply, d.aux = none → exec (.auxDone c result reply) s = .next s) ∧
      (fast → ch.framing = true →
        (∃ s', exec (.verticalStart c) s = .next s' ∧ sameElsewhere s s' c ∧ sameCells s s' c ∧ (s'.chan c).thr = ch.thr ∧
          (∀ p : Fin 4, (s'.chan c).disp.planes[p] = ch.planeRegs p) ∧ (s'.chan c).disp.flip = 0#4 ∧
          (∀ i < 256, mapAt 0#24 (s'.chan c).disp.palette i = winGet ch (0xC400 + i)) ∧ (s'.chan c).disp.unchanged = d.unchanged + 1 ∧
          (s'.chan c).disp.scan = some { row := 0, plane := 0, k := 0 } ∧ (s'.chan c).disp.lines = Vector.replicate 4 [] ∧
          (bit (winGet ch 0xC000) 12 = true → (mapGet (s'.chan c).proc.pend 132).isSome = true)) ∧
        (∀ planes : BitVec 4, planes ≠ 0#4 → (∀ p : Fin 4, bit planes p.val = true → bit (d.planes[p]).ctl 0 = true) →
          does (.underrun c planes) s c (ev (winPut ch 0xC00C (upTo (winGet ch 0xC00C))) 130 (fix (planes.setWidth 24)))) ∧
        (let r := winGet ch 0xC00A;
          bit r 23 = true → 1 ≤ bits r 0 8 → bits r 0 8 ≤ d.unchanged → does (.psrEntry c) s c (ev (withD { d with psr := true, scan := none }) 133 (fixN 1)))))

/-- The derating limit of an NTC code; an ambient light poll; a key that disagrees for the last of KDEB scans changes and queues its event, lost where 16 wait, and KEVT pops
the oldest; an encoder counts a quadrature step up or down and an error where both lines change; a selected GPIO edge and the wake pin raise their vectors; a buzzer sounds
until stopped or its duration ends, 0 being none; an I²C transaction runs while none is busy and ends with its result (R128, R460 to R467). -/
def Obligations.PanelUnits : Prop :=
  ∀ (s : State) (c : Chan), let ch := s.chan c
    let x := ch.panel
    let withP (y : Panel) : Channel := { ch with panel := y }
    let g (o : Nat) : Payload := winGet ch o
    let bl (i : Nat) : Bool := bit (g 0x14000) i
    (ch.life.cond = .running →
      (∀ code : BitVec 10,
        let full := bits (g 0x14007) 0 10
        let start := bits (g 0x14006) 0 10
        let floor := bits (g 0x14008) 0 12
        ∀ l : Nat, (code < 4#10 → l = floor) →
          (4#10 ≤ code → (start ≤ full ∨ start ≤ code.toNat → l = 4095) ∧ (full < start → code.toNat ≤ full → l = floor) ∧
            (full < code.toNat → code.toNat < start → l = floor + (4095 - floor) * (code.toNat - full) / (start - full))) →
          turnsTo (.ntcMeasurement c code) s c (((withP { x with limit := BitVec.ofNat 12 l, ntc := code }).raisedIf
            (bl 8 && decide (code < 4#10)) 232 (fix (code.setWidth 24))).raisedIf (bl 9 && (decide (x.limit = 4095#12) != decide (l = 4095))) 233 (fixN l))) ∧
      (∀ value : BitVec 16, bit (g 0x14009) 23 = true → ch.life.power ≠ .sleep → x.i2c = none →
        (let v : Payload := 1#1 ++ 0#7 ++ value;
          turnsTo (.ambientLightPoll c true value) s c ((winPut ch 0x1400A v).raisedIf (bl 3) 216 (fix v))) ∧
        turnsTo (.ambientLightPoll c false value) s c (winPut ch 0x1400A (setBit (g 0x1400A) 23 false))) ∧
      (∀ (n : Fin 64) (k : Nat), bit (g 0x16000) 0 = true → n.val / 8 ≤ bits (g 0x16000) 4 3 → n.val % 8 ≤ bits (g 0x16000) 8 3 →
        x.disagree = (if k = 0 then [] else [(n.val, k)]) →
        let now := !bit x.keys n.val
        let seen := setBit x.keys n.val now
        let kdeb := max 1 (bits (g 0x16000) 12 4)
        let ends (y : Channel) : Prop := turnsTo (.keyScan c seen) s c y
        (k + 1 < kdeb → ends (withP { x with disagree := [(n.val, k + 1)] })) ∧
        (kdeb ≤ k + 1 →
          (x.keyq.length < 16 → ends ((withP { x with keys := seen, disagree := [], keyq := x.keyq ++ [(now, n)] }).raisedIf
            (bit (g 0x16000) 16 && x.keyq.isEmpty) 168 fix0)) ∧
          (16 ≤ x.keyq.length → ends ((withP { x with keys := seen, disagree := [] }).raisedIf (bit (g 0x16000) 17) 169 fix0)))) ∧
      (∀ (e : Fin 4) (a b : Bool), bit (g 0x1600C) e.val = true →
        let y := x.enc[e]
        let put (z : Enc) : Channel := withP { x with enc := x.enc.set e z }
        let up : Prop := (y.a, y.b, a, b) ∈ [(false, false, true, false), (true, false, true, true), (true, true, false, true), (false, true, false, false)]
        (y.a ≠ a → y.b ≠ b → turnsTo (.encoderTransition c e a b) s c (put { y with a := a, b := b, err := upTo y.err })) ∧
        ((y.a = a ↔ y.b ≠ b) →
          ∀ n : BitVec 16, (up → n = y.count + 1#16) → (¬ up → n = y.count - 1#16) →
            turnsTo (.encoderTransition c e a b) s c
              ((put { y with a := a, b := b, count := n }).raisedIf (bit (g 0x1600C) (4 + e.val)) (184 + e.val) (fix (n.setWidth 24))))) ∧
      (∀ (pin : Fin 8) (level : Bool),
        (bit x.gpin pin.val = level → exec (.gpioEdge c pin level) s = .next s) ∧
        (bit x.gpin pin.val ≠ level → turnsTo (.gpioEdge c pin level) s c ((withP { x with gpin := setBit x.gpin pin.val level }).raisedIf
          (bit (g 0x16015) (2 * pin.val + if level then 0 else 1)) (192 + pin.val) (if level then fixN 1 else fix0)))) ∧
      turnsTo (.wakePinEdge c) s c (ch.raisedIf (bit (g 0x0403) 1) 223 fix0) ∧
      (∀ k : Fin 2,
        (g (0x1601A + 3 * k.val) = 0#24 → exec (.buzzerDurationExpiry c k) s = .next s) ∧
        (g (0x1601A + 3 * k.val) ≠ 0#24 → turnsTo (.buzzerDurationExpiry c k) s c (withP { x with buz := setBit x.buz k.val false }))) ∧
      (∀ (result : BitVec 3) (rlen : BitVec 4) (reply : List Byte), ch.life.power ≠ .sleep → x.i2c = some rlen → result ≠ 0#3 ∨ rlen = 0#4 →
        turnsTo (.i2cDone c result reply) s c ((withP { x with i2c := none, i2cResult := result }).raisedIf (bit (g 0x18000) 8) 224 (fix (result.setWidth 24)))) ∧
      (∀ b0 b1 : Byte, ch.life.power ≠ .sleep → x.i2c = some 2#4 → turnsTo (.i2cDone c 0#3 [b0, b1]) s c
        ({ winPut ch 0x18008 (0#8 ++ b1 ++ b0 : BitVec 24) with panel := { x with i2c := none, i2cResult := 0#3 } }.raisedIf (bit (g 0x18000) 8) 224 fix0))) ∧
    (s.awake c →
      (∀ p k r, x.keyq = (p, k) :: r → turnsTo (.kevt c) s c (withP { x with keyq := r })) ∧ (x.keyq = [] → exec (.kevt c) s = .next s) ∧
      (∀ (k : Fin 2) (duty : BitVec 8),
        turnsTo (.buzzerStart c k duty) s c
          (Channel.taking { winPut ch (0x16018 + 3 * k.val) (duty.setWidth 24) with panel := { x with buz := setBit x.buz k.val true } } 0x58) ∧
        turnsTo (.buzzerStop c k) s c ((withP { x with buz := setBit x.buz k.val false }).taking 0x58)) ∧
      (∀ (addr : BitVec 7) (wlen rlen : BitVec 4),
        (x.i2c = none → turnsTo (.i2cTransaction c addr wlen rlen) s c
          (Channel.taking { winPut ch 0x18001 (0#1 ++ addr ++ 0#4 ++ wlen ++ 0#4 ++ rlen : BitVec 24) with panel := { x with i2c := some rlen } } 0x60)) ∧
        (x.i2c ≠ none → turnsTo (.i2cTransaction c addr wlen rlen) s c (ch.taking 0x60))))

/-! ## The touch front end (21) -/

/-- A scan starts with fresh baselines and the thresholds in the registers, but not in a drive fault; it stops after the report under way; a report with no touch on it
numbers itself, sets the baselines of a fresh scan to its counts, lifts every contact and shows no water; a load of TRPT shows the latest report; an approach run at ATH for
ACONF runs raises vector 144, its first run setting the baseline (R471 to R484). -/
def Obligations.TouchFrontEnd : Prop :=
  ∀ (s : State) (c : Chan), let ch := s.chan c
    let x := ch.touch
    let withT (y : Touch) : Channel := { ch with touch := y }
    let g (o : Nat) : Payload := winGet ch (0x10000 + o)
    let its (y : Channel) : Channel := y.taking 0x40
    ch.touchOn = true →
    (s.awake c → mapWf ch.win = true →
      (x.vtxf = false → turnsTo (.scanStart c) s c (its { winPut ch 0x10000 (setBit (g 0) 1 true) with
        touch := { x with run := true, fresh := true, freq := (g 4).extractLsb' 8 2,
                          thr1 := g 5, thr2 := g 6, track := g 7, noise := g 8, glove := bit (g 0) 4 } })) ∧
      (x.vtxf = true → turnsTo (.scanStart c) s c (its ch)) ∧
      turnsTo (.scanStop c) s c (its (winPut ch 0x10000 (setBit (g 0) 1 false))) ∧
      turnsTo (.baselineReset c) s c (its (withT { x with fresh := true })) ∧
      turnsTo (.rawCaptureArm c) s c (its (winPut ch 0x1000F 1#24)) ∧
      turnsTo (.trpt c) s c (withT { x with shownSeq := x.seq, shown := x.contacts })) ∧
    (ch.life.cond = .running →
      (∀ nodes electrodes : List (BitVec 16), ch.life.power ≠ .sleep → x.run = true → x.fresh = true → x.calBase = [] → x.vtxCal = 0#16 → x.glove = false →
        0 < bits x.thr1 0 12 → 0 < bits x.thr2 0 12 → 0 < bits x.thr2 12 12 →
        ∃ s', exec (.report c nodes electrodes []) s = .next s' ∧ sameElsewhere s s' c ∧ (s'.chan c).phys = ch.phys ∧ (s'.chan c).thr = ch.thr ∧
          let y := (s'.chan c).touch
          y.seq = x.seq + 1#24 ∧ y.fresh = false ∧ y.run = bit (g 0) 1 ∧ y.water = false ∧ y.filmX = false ∧ y.filmY = false ∧ y.freq = x.freq ∧
          (∀ k ∈ y.contacts, k.evt = 3#2 ∧ ∃ k' ∈ x.contacts, k'.id = k.id ∧ k'.evt ≠ 3#2) ∧
          y.shown = x.shown ∧
          ∀ i j, i < ch.geometry.1 → j < ch.geometry.2 → mapGet y.base (24 * i + j) = some (nodes.getD (i * ch.geometry.2 + j) 0#16)) ∧
      (∀ sum : Payload, let actl := g 11
        let ath := bits actl 0 16
        bit actl 23 = true → bit (g 0) 1 = false → x.run = false → 0 < ath →
        (x.aReady = false → does (.approachRun c sum) s c (withT { x with aReady := true, aRuns := 0, aSum := sum, aBase := sum, appr := false })) ∧
        (x.aReady = true → x.aBase.toNat + ath ≤ sum.toNat →
          let fires := decide (max 1 (bits actl 16 2) ≤ x.aRuns + 1) && !x.appr
          does (.approachRun c sum) s c ((withT { x with aRuns := x.aRuns + 1, aSum := sum, appr := x.appr || fires }).raisedIf
            (bit (g 0) 8 && fires) 144 (fixN (min (sum.toNat - x.aBase.toNat) 8388607)))) ∧
        (x.aReady = true → sum.toNat < x.aBase.toNat + ath → x.aBase.toNat * 2 + ath ≤ 2 * sum.toNat →
          does (.approachRun c sum) s c (withT { x with aRuns := 0, aSum := sum }))))


/-! ## The square and its ports (19) -/

/-- The state with a channel's port replaced. -/
def Sys2Proof.Machine.State.withPort (s : State) (c : Chan) (p : Port) : State :=
  { s with square := { s.square with ports := s.square.ports.set c p } }
/-- The command answers state s' but for the performance unit of channel c, whose other parts are ch. -/
def Sys2Proof.Machine.reaches (i : Instr) (s s' : State) (c : Chan) (ch : Channel) : Prop :=
  ∃ p : Perf, exec i s = .next (s'.setChan c { ch with perf := p })
/-- Every running channel with a signal raised where a bit of SQCTL enables it, bit 24 standing for always. -/
def Sys2Proof.Machine.State.raiseRunning (s : State) (b : Nat) (v : Nat) (addr : Cell) : State :=
  { s with chans := s.chans.map (fun ch => if ch.life.cond = .running then ch.raisedIf (b = 24 || bit (winGet ch 0x20001) b) v addr else ch) }
/-- Channel c takes an inbound frame with its filter number n: it runs, and the first of its filters that matches is that one (R437, R438). -/
def Sys2Proof.Machine.State.takes (s : State) (c : Chan) (f : HostFrame) (n : Nat) : Prop :=
  (s.chan c).life.cond = .running ∧ ∃ pre g post, s.square.ports[c].filters = pre ++ g :: post ∧ g.hits f = true ∧ (∀ h ∈ pre, h.hits f = false) ∧
    n = 124 * (if (s.chan c).pair.inPair then c.val / 2 * 2 else c.val) + pre.length
/-- Channel c takes no frame f. -/
def Sys2Proof.Machine.State.passes (s : State) (c : Chan) (f : HostFrame) : Prop :=
  (s.chan c).life.cond ≠ .running ∨ ∀ g ∈ s.square.ports[c].filters, g.hits f = false
/-- A ledger with an error record in its staging queue, room being there (R81, R88). -/
def Sys2Proof.Machine.Ledger.with_ (l : Ledger) (cls : BitVec 6) (detail : BitVec 32) : Ledger :=
  { l with
    staging := l.staging ++ [.error cls false false (mapAt 0#8 l.lost cls.toNat) (BitVec.ofNat 24 (l.periods / 32768)) detail]
    lost := mapDel l.lost cls.toNat }

/-- A received frame as it enters a ring: with its filter and time, and with no sequence or commit bits (Table 19.1). -/
def Sys2Proof.Machine.rxFrame (f : HostFrame) (n : Nat) (time : Payload) : RxFrame :=
  { frame := { f with committed := false, sqe := false, seqpos := 0#11 }, filter := n, replay := false, time := time }
/-- A port that the square's failure has emptied (R445). -/
def Sys2Proof.Machine.Port.lostAll (q : Port) : Port := { q with queue := [], ring := [], replay := [], handover := [], gaspDue := [], wasFull := false }

/-- TXPUSH queues a valid frame with its sequence number and address, held where the channel's epochs commit it; it changes nothing on an invalid one, a disabled interface, a
dead square or too many immediate frames since the snapshot, and notes a full queue. RXPOP drops the oldest frame and takes the next of a handover. An arriving frame enters the
ring of each channel whose filter takes it, is lost at a full ring, or counts as unowned; protocol exceptions and bad Ethernet frames are counted, a frame whose data go bad in
the square's buffer is counted and recorded (R425 to R441, R446). -/
def Obligations.PortQueues : Prop :=
  ∀ (s : State) (c : Chan), let ch := s.chan c
    let sq := s.square
    let p := sq.ports[c]
    let role := ch.pair.role
    (s.awake c →
      (∀ k : Fin 8,
        let w (i : Nat) : Payload := winGet ch (0x20800 + 512 * k.val + i)
        let data := unpack3 ((upFrom 3 506).map w)
        let f := frameOf (w 0) (w 1) (w 2) data
        let valid : Prop := sq.up = true ∧ descOk sq (w 0) (w 1) (w 2) data = true ∧ sq.ifOff f.iface = false
        let far : Prop := f.committed = false ∧ role = .active ∧ 32767 ≤ (p.seqI - p.snap.seqI).toNat
        let n := if f.committed then p.seqC else p.seqI
        (¬ valid ∨ far → exec (.txpush c k) s = .next s) ∧
        (valid → ¬ far → 64 ≤ p.queue.length → exec (.txpush c k) s = .next (s.withPort c { p with wasFull := true })) ∧
        (valid → ¬ far → p.queue.length < 64 → reaches (.txpush c k) s (s.withPort c { p with
          queue := p.queue ++ [{ frame := frameSeq (frameMac f p.stmac) n,
                                 held := f.committed && decide (role = .active ∨ (role = .joiningActive ∧ ch.pair.ready = true)), mark := none }]
          seqI := if f.committed then p.seqI else p.seqI + 1#16
          seqC := if f.committed then p.seqC + 1#16 else p.seqC }) c ch)) ∧
      (p.ring = [] → exec (.rxpop c) s = .next s) ∧
      (∀ x r, p.ring = x :: r → p.replay = [] →
        (p.handover = [] → exec (.rxpop c) s = .next (s.withPort c { p with ring := r })) ∧
        (∀ y, p.handover = [y] → r.length < 64 →
          reaches (.rxpop c) s (s.withPort c { p with ring := r ++ [{ y with time := ch.clk.low }], handover := [], rpgap := 0#24 }) c
            ((ch.raised (272 + y.filter) fix0).raisedIf (bit (winGet ch 0x20001) 6) 263 (fix p.rpgap))))) ∧
    (∀ (f : HostFrame) (n : Nat), sq.up = true → sq.ifOff f.iface = false →
      (f.iface = 2 → sq.eth.link = true →
        (rxOk f = true → s.takes c f n → (∀ k, k ≠ c → s.passes k f) → p.handover = [] →
          (p.ring.length < 64 → role ≠ .active → reaches (.frameReception f 0#2) s
            (s.withPort c { p with ring := p.ring ++ [rxFrame f n ch.clk.low] }) c (ch.raised (272 + n) fix0)) ∧
          (64 ≤ p.ring.length → reaches (.frameReception f 0#2) s (s.withPort c { p with rxLost := upTo p.rxLost }) c
            (ch.raisedIf (bit (winGet ch 0x20001) 5) 262 fix0))) ∧
        (rxOk f = true → (∀ k, s.passes k f) → exec (.frameReception f 0#2) s =
          .next { s with square := { sq with unowned := upTo sq.unowned, unownedNow := sq.unownedNow + 1 } }) ∧
        exec (.frameReception f 1#2) s = .next { s with square := { sq with eth := { sq.eth with rxErr := upTo sq.eth.rxErr } } } ∧
        (rxOk f = true → sq.led.staging.length < 16 → exec (.frameReception f 2#2) s = .next { s with square := { sq with
          eth := { sq.eth with rxErr := upTo sq.eth.rxErr }, led := sq.led.with_ 0x11#6 (1#4 ++ 0#28 : BitVec 32) } })) ∧
      (∀ b : Fin 2, f.iface.val = b.val → sq.can[b].state ≠ .off → sq.can[b].waiting = false →
        exec (.frameReception f 1#2) s =
          .next { s with square := { sq with can := sq.can.set b { sq.can[b] with pexc := upTo sq.can[b].pexc, waiting := true } } }))

/-- A frame alone in the queues leaves its queue when sent, and an error on Ethernet drops and counts it; lost arbitration and CAN errors keep it, errors raising and successes
lowering TEC; on Ethernet a collision with attempts left changes nothing; a frame whose data have gone bad is dropped, counted and recorded. A bus recovers from bus-off; a bus integrates; the PHY's link is polled, with the speed and duplex a level forces, and its change signalled; dropped frames are recorded. A failed channel drops its queue and
its registered last-gasp frames fall due; a failing square, for a supply only beyond its off limit, empties every port and signals every running channel (R107, R425 to R446). -/
def Obligations.SquareUnits : Prop :=
  ∀ (s : State) (c : Chan), let ch := s.chan c
    let sq := s.square
    let p := sq.ports[c]
    let setCan (b : Fin 2) (k : Can) : State := { s with square := { sq with can := sq.can.set b k } }
    let dropped (t : State) : State := State.withPort { t with square := { t.square with
      eth := { t.square.eth with txAbort := upTo t.square.eth.txAbort }, led := t.square.led.with_ 0x11#6 (1#4 ++ 0#28 : BitVec 32) } } c { p with queue := [] }
    let room : Prop := sq.led.staging.length < 16
    sq.up = true →
    (∀ (e : TxFrame), p.queue = [e] → e.held = false → p.gaspDue = [] → (∀ k, k ≠ c → sq.ports[k].queue = [] ∧ sq.ports[k].gaspDue = []) →
      sq.ifOff e.frame.iface = false →
      (e.frame.iface = 2 →
        (sq.eth.link = true → (∀ k, k ≠ c → s.passes k e.frame) → reaches (.frameTransmission 2 0#2) s
          ({ s with square := { sq with eth := { sq.eth with last := c } } }.withPort c { p with queue := [] }) c ch) ∧
        (∀ o : BitVec 2, sq.eth.link = true → o = 1#2 ∨ (o = 2#2 ∧ sq.eth.full = true) → exec (.frameTransmission 2 o) s = .next s) ∧
        (room → exec (.frameTransmission 2 3#2) s = .next (dropped { s with square := { sq with eth := { sq.eth with last := c } } })) ∧
        (∀ o : BitVec 2, o ≠ 3#2 → sq.eth.link = false ∨ (o = 2#2 ∧ sq.eth.full = false) → exec (.frameTransmission 2 o) s =
          .next (({ s with square := { sq with eth := { sq.eth with last := c, txAbort := upTo sq.eth.txAbort } } }.withPort c { p with queue := [] }).setChan c
            (ch.raisedIf (decide (ch.life.cond = Cond.running) && bit (winGet ch 0x20001) 1) 258 (fixN 2))))) ∧
      (∀ (i : Fin 3) (b : Fin 2), e.frame.iface = i → i.val = b.val → sq.can[b].state = .active → sq.can[b].waiting = false →
        let k := { sq.can[b] with last := c }
        exec (.frameTransmission i 1#2) s = .next (setCan b k) ∧
        (room → exec (.frameTransmission i 3#2) s = .next (dropped (setCan b k))) ∧
        (k.tec + 8 ≤ 127 → k.rec_ ≤ 127 → exec (.frameTransmission i 2#2) s = .next (setCan b { k with tec := k.tec + 8 })) ∧
        (k.tec ≤ 127 → k.rec_ ≤ 127 → (∀ x, x ≠ c → s.passes x e.frame) →
          reaches (.frameTransmission i 0#2) s ((setCan b { k with tec := k.tec - 1 }).withPort c { p with queue := [] }) c ch))) ∧
    (∀ b : Fin 2,
      exec (.busIntegration b) s = .next (setCan b { sq.can[b] with waiting := false }) ∧
      (sq.can[b].state = .off → sq.canOff = false →
        exec (.busOffRecovery b) s = .next ((setCan b { sq.can[b] with state := .active, tec := 0, rec_ := 0 }).raiseRunning (2 + b.val) (259 + b.val) fix0))) ∧
    (sq.ifOff 2 = false → ∀ link fast full : Bool,
      let level := sq.straps[3].level
      let s' : State := { s with square := { sq with eth := { sq.eth with
        link := link
        fast := if level = 1#3 ∨ level = 2#3 then true else if level = 3#3 ∨ level = 4#3 then false else fast
        full := if level = 1#3 ∨ level = 3#3 then true else if level = 2#3 ∨ level = 4#3 then false else full } } }
      exec (.phyPoll link fast full) s = .next (if sq.eth.link = link then s' else s'.raiseRunning 4 261 (if link then fixN 1 else fix0))) ∧
    (sq.unownedNow ≠ 0 → sq.led.staging.length < 16 → exec .unownedRecord s = .next { s with square := { sq with
      unownedNow := 0, led := sq.led.with_ 0x11#6 (3#4 ++ 0#4 ++ BitVec.ofNat 24 (min sq.unownedNow 0xFFFFFF) : BitVec 32) } }) ∧
    (p.armed = true → ch.life.cond ≠ .running →
      ∃ due : List HostFrame, exec (.lastGasp c) s = .next (s.withPort c { p with queue := [], armed := false, wasFull := false, gaspDue := due }) ∧
        ∀ f, f ∈ due ↔ ∃ i : Fin 3, sq.ifOff i = false ∧ p.gasp[i] = some f) ∧
    (∀ (kind : BitVec 4) (rail : Bool) (reading : BitVec 16),
      let fails (l : Ledger) : State := { s with square := { sq with failed := true, led := l, ports := sq.ports.map Port.lostAll } }.raiseRunning
        24 256 (fix (kind.setWidth 24))
      (kind = 0#4 ∨ kind = 2#4 ∨ kind = 5#4 → room → exec (.squareFailure kind rail reading) s = .next
        (fails (sq.led.with_ 0x11#6 (kind ++ 0#4 ++ (if kind = 0#4 then 0#24 else reading.setWidth 24) : BitVec 32)))) ∧
      (let low := if rail then 2900 else 700
        let high := if rail then 3700 else 920
        let code : BitVec 4 := if rail then 9#4 else 8#4
        kind = 4#4 →
        (low ≤ reading.toNat → reading.toNat ≤ high → exec (.squareFailure kind rail reading) s = .next s) ∧
        (reading.toNat < low ∨ high < reading.toNat → sq.led.staging.length < 15 → exec (.squareFailure kind rail reading) s = .next
          (fails (({ sq.led with
            staging := sq.led.staging ++ [Staged.error 0x0B#6 false true (mapAt 0#8 sq.led.lost 0x0B) (BitVec.ofNat 24 (sq.led.periods / 32768))
              (code ++ (if high < reading.toNat then 1#4 else 0#4) ++ 0#8 ++ reading : BitVec 32)]
            lost := mapDel sq.led.lost 0x0B }).with_ 0x11#6 (4#4 ++ 0#24 ++ code : BitVec 32))))))


/-! ## The pair (18) -/

/-- Channel c goes on alone after i: its buffer empties, vector 46 is pending and its frames are released; its cells and threads stay. -/
def Sys2Proof.Machine.goesAlone (i : Instr) (s : State) (c : Chan) (more : State → Prop) : Prop :=
  ∃ s', exec i s = .next s' ∧ (s'.chan c).pair.role = .alone ∧ (s'.chan c).pair.buf = [] ∧ (s'.chan c).pair.linkUp = false ∧
    (mapGet (s'.chan c).proc.pend 46).isSome = true ∧ (∀ e ∈ s'.square.ports[c].queue, e.held = false) ∧
    s'.square.ports[c].replay = [] ∧ sameCells s s' c ∧ (s'.chan c).thr = (s.chan c).thr ∧ more s'

/-- Records reach the follower in order, none where the CRC fails: a store logs the cell's old contents and writes it, a commit empties the log, takes the epoch, queues the
user words as far as its queue of 16 has room (the rest waits, log 63) and commits the port. Acknowledgements free records, and that of a commit ends the epoch; a negative one is a resend; silence sends IDLE; an overdue epoch is
reported. A failed or lost partner leaves the other alone, the failed standby withdrawn; a channel joins; a failover rolls the log back and runs (R405 to R421). -/
def Obligations.Pairing : Prop :=
  ∀ (s : State) (c a : Chan), let ch := s.chan c
    let q := ch.pair
    let z := s.chan a
    let lead (x : Pair) : State := s.setChan a { z with pair := x }
    let running : Prop := ch.life.cond = .running
    let withdrawn (s' : State) : Prop := (s'.chan a).life.cond = .keptOff ∧ (s'.chan a).pair.role = .independent
    let room : Prop := ch.led.staging.length < 16
    a ≠ c →
    (s.leader c = some a →
      exec (.mirrorRecordApply c false) s = .next s ∧
      (∀ n, z.pair.buf[z.pair.applied]? = some (n, .idle) →
        exec (.mirrorRecordApply c true) s = .next (lead { z.pair with applied := z.pair.applied + 1 })) ∧
      (∀ (n : BitVec 24) (l k : Nat) (v : Cell), z.pair.buf[z.pair.applied]? = some (n, .store l [(k, v)]) → k < 16 → q.role = .standby →
        (∀ i < 16, ch.place (l * 16 + i) = .memory) →
        ∃ s', exec (.mirrorRecordApply c true) s = .next s' ∧ (s'.chan c).pair.undo = (l * 16 + k, s.cell c (l * 16 + k)) :: q.undo ∧
          s'.cell c (l * 16 + k) = v ∧ (∀ b, b ≠ l * 16 + k → s'.cell c b = s.cell c b) ∧
          s'.chan a = { z with pair := { z.pair with applied := z.pair.applied + 1 } } ∧ (s'.chan c).thr = ch.thr) ∧
      (∀ (n e : BitVec 24) (w : List (BitVec 11 × Cell)) (r : List (BitVec 24 × MirrorRec)), z.pair.buf = (n, .commit e w) :: r → z.pair.applied = 0 →
        q.role = .standby → s.square.up = true →
        ∃ s', exec (.mirrorRecordApply c true) s = .next s' ∧ (s'.chan c).pair.undo = [] ∧ (s'.chan c).pair.epoch = e ∧ (s'.chan c).pair.role = .standby ∧
          (ch.led.due = [] → ch.led.staging.length + w.length ≤ 16 →
            (s'.chan c).led.staging = ch.led.staging ++ w.map (fun x => .user x.1 x.2 false) ∧ (s'.chan c).led.due = []) ∧
          (s'.chan c).led.staging.length = max ch.led.staging.length (min 16 (ch.led.staging.length + ch.led.due.length + w.length)) ∧
          (s'.chan c).led.staging ++ (s'.chan c).led.due.map (fun x => .user x.1 x.2 false) =
            ch.led.staging ++ (ch.led.due ++ w).map (fun x => .user x.1 x.2 false) ∧ s'.square.ports[a] = (s.square.ports[a]).commit e ∧
          sameCells s s' c ∧ (s'.chan c).thr = ch.thr)) ∧
    (s.follower c = some a →
      (running →
        (∀ (n seq : BitVec 24) (r : MirrorRec), q.buf = [(n, r)] →
          does (.mirrorAcknowledgement c seq true) s c { ch with pair := { q with tries := q.tries + 1, resends := upTo q.resends } }) ∧
        (∀ (n : BitVec 24) (r : MirrorRec) (rest : List (BitVec 24 × MirrorRec)), q.buf = (n, r) :: rest → (∀ e w, r ≠ .commit e w) → q.applied = 1 →
          z.pair.undo.length < 1572864 →
          turnsTo (.mirrorAcknowledgement c n false) s c { ch with pair := { q with
            buf := rest, applied := 0, tries := 0, linkUp := true, undoOcc := z.pair.undo.length, backSince := none } }) ∧
        (∀ (n e : BitVec 24), q.buf = [(n, .commit e [])] → q.applied = 1 → q.role = .active →
          ∃ s', exec (.mirrorAcknowledgement c n false) s = .next s' ∧ sameElsewhere s s' c ∧ (s'.chan c).pair.role = .active ∧ (s'.chan c).pair.epoch = e ∧
            (s'.chan c).pair.buf = [] ∧ (s'.chan c).pair.lastCommit = ch.clk.tb.toNat ∧ (s'.chan c).led.staging = ch.led.staging ∧
            (s'.chan c).phys = ch.phys ∧ (s'.chan c).thr = ch.thr ∧
            (bit (winGet ch 0x8001) 1 = true → (mapGet (s'.chan c).proc.pend 42).isSome = true)) ∧
        (∀ t : Nat, q.backSince = some t → t + 65 ≤ ch.clk.tb.toNat → goesAlone (.pairBreak c) s c withdrawn) ∧
        (q.ready = false → ch.life.power ≠ .sleep → ∃ s', exec (.copyComplete c) s = .next s' ∧ (q.role = .joiningActive → (s'.chan c).pair.ready = true) ∧
          (q.role ≠ .joiningActive → s' = s))) ∧
      (q.buf = [] → exec (.linkFailure c) s = .next s) ∧ (q.buf ≠ [] → ch.healthy = true → goesAlone (.linkFailure c) s c withdrawn)) ∧
    (running → q.role = .active ∨ q.role = .joiningActive →
      ((s.mach c).heldBack = false → does (.mirrorIdleRecord c) s c { ch with pair := { q with buf := q.buf ++ [(q.nextSeq, .idle)], nextSeq := q.nextSeq + 1#24 } }) ∧
      (s.partner c = some a → z.healthy = false → goesAlone (.standbyLoss c) s c (fun s' => s'.chan a = z))) ∧
    (running → q.role = .active →
      (ch.clk.tb.toNat < q.lastCommit + 1638 → exec (.epochOverdue c) s = .next s) ∧
      (q.lastCommit + 1638 ≤ ch.clk.tb.toNat → room → turnsTo (.epochOverdue c) s c
        (({ ch with pair := { q with lastCommit := ch.clk.tb.toNat } }.recorded 0x0E#6 false false (4#4 ++ 0#4 ++ q.epoch : BitVec 32)).raisedIf
          (bit (winGet ch 0x8001) 2) 43 (fix q.epoch)))) ∧
    (s.partner c = some a →
      (ch.life.cond = .booting → q.role = .joining → z.life.cond = .running → z.pair.role = .alone →
        exec (.joinRequest c) s = .next ((lead { z.pair with
          role := .joiningActive, linkUp := true, copied := 0, ready := false, buf := [], applied := 0, tries := 0 }).setChan c
          { ch with pair := { q with linkUp := true, undo := [] } })) ∧
      (∀ (i : Image) (x : Nat) (v : Cell), q.role = .standby → q.linkUp = true → z.healthy = false → q.formation = true → ch.boot.image = some i →
        q.undo = [(x, v)] → ch.place x = .memory → (∀ j < 16, ch.place (x / 16 * 16 + j) = .memory) →
        ∃ s', exec (.failover c) s = .next s' ∧ (s'.chan c).life.cond = .running ∧ (s'.chan c).pair.role = .alone ∧
          (s'.chan c).pair.epoch = q.epoch + 1#24 ∧ (s'.chan c).pair.undo = [] ∧ s'.thread c 0 = bootThread i.entry i.stack ∧
          (mapGet (s'.chan c).proc.pend 46).isSome = true ∧ s'.cell c x = v ∧ ∀ b, b ≠ x → s'.cell c b = s.cell c b))

/-! ## Performance monitoring and the window (22, 01) -/

/-- A wrap of a core's cycle counter counts in the counts record; an expired countdown marks an instruction where sampling is on; the oldest record is written at HEAD, its
four cells in near store; TLACK and TLCLR move COUNT and STOPPED; a read of STAMPL captures WRAP. A store to a page of no unit or to the watchdog page changes nothing; PWREV,
timer values, CCTL, PRCTL and CKBASE keep what their fields hold, and the sticky bits of SUPSTAT clear where a 1 is written (R28, R78, R492 to R500). -/
def Obligations.PerformanceAndWindow : Prop :=
  ∀ (s : State) (c : Chan), let ch := s.chan c
    let p := ch.perf
    let l := ch.led
    (ch.life.cond = .running →
      (∀ k : Fin 2, turnsTo (.cycleCounterWrap c k) s c { ch with led := { l with
        counts := (if k = 0 then { l.counts with wrap0 := upTo l.counts.wrap0 } else { l.counts with wrap1 := upTo l.counts.wrap1 })
        items := if Item.counts ∈ l.items then l.items else l.items ++ [.counts] } }) ∧
      (∀ k : Fin 2, bit (winGet ch 0x1800) 23 = true →
        ch.life.power ≠ .sleep → turnsTo (.samplingCountdownExpiry c k) s c { ch with perf := { p with marked := setBit p.marked k.val true } }) ∧
      (∀ (sample : Bool) (cells : Vector Cell 4) (rest : List (Bool × Vector Cell 4)), ch.life.power ≠ .sleep → p.queue = (sample, cells) :: rest →
        let a := 0x80000000 + ch.proc.nearbase.toNat + 1024 + 4 * p.head.toNat
        (p.stopped = true → exec (.tallyRecordWrite c) s = .next s) ∧
        (p.stopped = false → p.count < 511 → a + 4 ≤ 0x80010000 →
          ∃ s', exec (.tallyRecordWrite c) s = .next s' ∧ sameElsewhere s s' c ∧ (s'.chan c).thr = ch.thr ∧ (s'.chan c).perf.queue = rest ∧
            (s'.chan c).perf.head = p.head + 1#9 ∧ (s'.chan c).perf.count = p.count + 1 ∧ (s'.chan c).perf.stopped = false ∧
            (∀ i : Fin 4, s'.cell c (a + i.val) = cells[i]) ∧ (∀ b, b < a ∨ a + 4 ≤ b → s'.cell c b = s.cell c b) ∧
            (sample = true → bit (winGet ch 0x1800) 22 = true → (mapGet (s'.chan c).proc.pend 91).isSome = true)))) ∧
    (s.awake c →
      (∀ n : BitVec 10, 1 ≤ n.toNat → n.toNat ≤ 512 →
        turnsTo (.tlack c n) s c { ch with perf := { p with count := p.count - n.toNat, stopped := p.stopped && decide (512 ≤ p.count - n.toNat) } }) ∧
      turnsTo (.tlclr c) s c { ch with perf := { p with head := 0#9, count := 0, stopped := false, wrapped := false } } ∧
      (∀ t : Fin 8, ∃ w : BitVec 8, exec (.stamplRead c t) s = .next (({ s with free := s.free + 1 }).setChan c
        { ch with thr := ch.thr.set t { s.thread c t with stampCap := some (w.setWidth 24) } })) ∧
      (∀ (o : BitVec 18) (v : Payload),
        let n := o.toNat
        let ends (x : Channel) : Prop := turnsTo (.windowRegisterWrite c o v) s c x
        ((0x68 ≤ n / 1024 ∧ n / 1024 < 0x80) ∨ 0xC0 ≤ n / 1024 ∨ n / 1024 = 3 → exec (.windowRegisterWrite c o v) s = .next s) ∧
        (n = 0x0403 → ends ((winPut ch n (v &&& 3#24)).taking 1)) ∧
        (n = 0x0404 → ends (Channel.taking { ch with clk := { ch.clk with sticky := ch.clk.sticky &&& ~~~(v.extractLsb' 8 6) } } 1)) ∧
        ((0x0810 ≤ n ∧ n < 0x0830 ∧ n % 4 ≠ 0) ∨ (0x0840 ≤ n ∧ n < 0x0860 ∧ n % 4 = 1) → ends (winPut ch n v)) ∧
        (n = 0x1400 → ends (winPut ch n (v &&& 0x3F#24))) ∧ (n = 0x8001 → ends (winPut ch n (v &&& 7#24))) ∧
        (n = 0x8004 → ends (winPut ch n (v &&& 0xBFFFFF#24)))))

/-! ## The control stores (10) -/

/-- The thread with vector 32 due at once: MCINFO in ADDR, RESUMABLE 1, the instruction's own address as return address (R250, R252). -/
def Sys2Proof.Machine.Thread.controlFault (th : Thread) (t : Fin 8) (u : Nat) (ic : Cell) : Thread :=
  { th with sync := some { vector := 32#10, icell := ic, ret := th.pc, kind := 3#2
                           addr := fix (1#1 ++ BitVec.ofNat 1 (coreOf t).val ++ 0#8 ++ BitVec.ofNat 14 u : BitVec 24) } }

/-- A stored word holds an odd number of ones in each of its four groups of 29 bits, and fails parity with any one bit altered; the micro-return stack is circular, a
fifth CALL overwriting the oldest entry. A patch section's words are stored with their parity and every other patch RAM word fails; the lowest patch point that names a ROM
address redirects it, one that names a table never does. A dispatch entry or tag-class row that fails in the core's copy or its checker's raises vector 32 before the
instruction writes anything, a privilege fault included; a vector-32 entry whose entry-store copies differ locks the channel up with cause 4 and a class 0x07 record of
FLAG 1 (R238, R241, R249 to R254). -/
def Obligations.ControlStores : Prop :=
  (∀ d : BitVec 112, let w := withParity d
    w.setWidth 112 = d ∧ parityOk w = true ∧ (∀ i < 116, parityOk (w ^^^ BitVec.twoPow 116 i) = false) ∧
    ∀ g < 4, (((List.range 28).filter (fun j => d.getLsbD (28 * g + j))).length + (w.getLsbD (112 + g)).toNat) % 2 = 1) ∧
  (∀ (q : MicroSeq) (a b x y e : BitVec 14),
    let r0 := ((((q.push a).push b).push x).push y).push e
    let r1 := r0.pop.2
    let r2 := r1.pop.2
    let r3 := r2.pop.2
    r0.pop.1 = e ∧ r1.pop.1 = y ∧ r2.pop.1 = x ∧ r3.pop.1 = b ∧ r3.pop.2.pop.1 = e) ∧
  (∀ p : Patch, mapWf p.words = true → let r := patchStore (some p)
    ∀ k < 1024,
      (∀ d : BitVec 112, mapGet p.words k = some d → d ≠ 0#112 → r.word (8192 + k) = withParity d) ∧
      (mapGet p.words k = none ∨ mapGet p.words k = some 0#112 → parityOk (r.word (8192 + k)) = false)) ∧
  (∀ (x : CStore) (u : Nat), (7920 ≤ u → x.redirect u = u) ∧
    (u < 7920 → ∀ (pre post : NMap (BitVec 13 × BitVec 10)) (k : Nat) (p : BitVec 10), x.pts = pre ++ (k, (BitVec.ofNat 13 u, p)) :: post →
      (∀ e ∈ pre, e.2.1 ≠ BitVec.ofNat 13 u) → x.redirect u = 8192 + p.toNat)) ∧
  (∀ (s : State) (c : Chan) (t : Fin 8), let ch := s.chan c
    let th := s.thread c t
    let co := ch.core[coreOf t]
    let fails (u : Nat) : Prop := parityOk (co.store.word u) = false ∨ parityOk (co.checker.word u) = false
    let whole (u : Nat) : Prop := mapAt 0#116 co.store.flips u = 0#116 ∧ mapAt 0#116 co.checker.flips u = 0#116
    (∀ d a b : Reg, (s.mach c).canIssue t = true → th.te = false →
      (fails (7936 + 0x10) → exec (.iadd c t d a b) s =
        .next (s.setChan c { ch with thr := ch.thr.set t (th.controlFault t 7952 (cellA 0x10 d a b false)) })) ∧
      (fails (7936 + 0x3B) → exec (.rete c t) s =
        .next (s.setChan c { ch with thr := ch.thr.set t (th.controlFault t 7995 (cellA 0x3B 0 0 0 false)) })) ∧
      (let u := 7920 + tagClass (th.reg a);
        th.lz = false → whole (7936 + 0x60) → fails u → ∃ (q : MicroSeq) (n : Nat), exec (.add c t d a b) s =
          .next (({ s with free := n }).setChan c { ch with
            seq := ch.seq.set t q, thr := ch.thr.set t (th.controlFault t u (cellA 0x60 d a b false)) }))) ∧
    (∀ e : SyncEvent, ch.life.cond = .running → ch.life.power = .run → th.status = .running → th.sync = some e → e.vector = 32#10 →
      co.entryDiff = true → ch.led.staging.length < 16 →
      let i : Instr := if attrSave (ch.proc.attrOf 32) = true ∧ th.shb = false then .eventEntryShadow c t else .eventEntryStack c t
      ∃ s', exec i s = .next s' ∧ sameElsewhere s s' c ∧ (s'.chan c).life.cond = .lockedUp ∧ (s'.chan c).life.lockN = false ∧
        (s'.chan c).life.faultN = false ∧
        (∃ x : LockInfo, (s'.chan c).led.lockReq = some x ∧ x.cause = 4#4 ∧ x.thread = BitVec.ofNat 4 t.val ∧ x.vector = 32#10 ∧ x.pc = fix th.pc) ∧
        (∃ (lost : BitVec 8) (time : BitVec 24), Staged.error 0x07#6 false true lost time
          (BitVec.ofNat 1 (coreOf t).val ++ 0#17 ++ (cellPay e.addr).extractLsb' 0 14 : BitVec 32) ∈ (s'.chan c).led.staging)))
end

