-- ==== Sys2Proof/Laws/Run.lean ====
section
/-! SUPPORT. How an instruction's work runs: one equation for each way to build it. -/
namespace Sys2Proof.Machine

/-- The work of an instruction on what it works on. -/
def runI {α : Type} (w : IM α) (st : IS) : Except Exit α × IS := w.run.run st

@[simp] theorem runI_pure {α : Type} (a : α) (st : IS) : runI (pure a) st = (.ok a, st) := rfl
@[simp] theorem runI_throw {α : Type} (e : Exit) (st : IS) : runI (throw e : IM α) st = (.error e, st) := rfl
theorem runI_bind {α β : Type} (w : IM α) (f : α → IM β) (st : IS) :
    runI (w >>= f) st = match runI w st with | (.ok a, s) => runI (f a) s | (.error e, s) => (.error e, s) := by
  show (ExceptT.run (ExceptT.bind w f)).run st = _
  simp only [ExceptT.run, ExceptT.bind, ExceptT.mk, runI]
  show StateT.run (StateT.bind w (ExceptT.bindCont f)) st = _
  simp only [StateT.run, StateT.bind]
  rcases h : w st with ⟨r, s⟩
  cases r <;> rfl
@[simp] theorem runI_map {α β : Type} (f : α → β) (w : IM α) (st : IS) :
    runI (f <$> w) st = match runI w st with | (.ok a, s) => (.ok (f a), s) | (.error e, s) => (.error e, s) := by
  have : f <$> w = w >>= fun a => pure (f a) := (bind_pure_comp f w).symm
  rw [this, runI_bind]
  rfl
/-- A sequence whose first part completes. -/
theorem runI_bind_ok {α β : Type} {w : IM α} {f : α → IM β} {st s : IS} {a : α} (h : runI w st = (.ok a, s)) :
    runI (w >>= f) st = runI (f a) s := by rw [runI_bind, h]
/-- A sequence whose first part ends the instruction. -/
theorem runI_bind_error {α β : Type} {w : IM α} {f : α → IM β} {st s : IS} {e : Exit} (h : runI w st = (.error e, s)) :
    runI (w >>= f) st = (.error e, s) := by rw [runI_bind, h]
@[simp] theorem runI_get (st : IS) : runI (get : IM IS) st = (.ok st, st) := rfl
@[simp] theorem runI_modify (f : IS → IS) (st : IS) : runI (modify f : IM Unit) st = (.ok (), f st) := rfl
@[simp] theorem runI_modM (f : Mach → Mach) (st : IS) : runI (modM f) st = (.ok (), { st with m := f st.m }) := rfl
@[simp] theorem runI_useM {α : Type} (f : Mach → α × Mach) (st : IS) :
    runI (useM f) st = (.ok (f st.m).1, { st with m := (f st.m).2 }) := rfl
@[simp] theorem runI_getM (st : IS) : runI getM st = (.ok st.m, st) := rfl
@[simp] theorem runI_me (st : IS) : runI me st = (.ok st.t, st) := rfl
@[simp] theorem runI_getT (st : IS) : runI getT st = (.ok (st.m.thr st.t), st) := rfl
@[simp] theorem runI_modT (f : Thread → Thread) (st : IS) :
    runI (modT f) st = (.ok (), { st with m := st.m.setThr st.t (f (st.m.thr st.t)) }) := rfl
@[simp] theorem runI_myCore (st : IS) : runI myCore st = (.ok (coreOf st.t), st) := rfl
@[simp] theorem runI_setD (d : Reg) (v : Cell) (st : IS) :
    runI (setD d v) st = (.ok (), { st with m := st.m.setThr st.t ((st.m.thr st.t).setReg d v) }) := rfl
@[simp] theorem runI_fault {α : Type} (v : BitVec 10) (a : Cell) (st : IS) : runI (fault v a : IM α) st = (.error (.fault v a), st) := rfl
@[simp] theorem runI_faultTY {α : Type} (n : Nat) (st : IS) : runI (faultTY n : IM α) st = (.error (.fault 3#10 (fixN n)), st) := rfl
@[simp] theorem runI_faultOR {α : Type} (n : Nat) (st : IS) : runI (faultOR n : IM α) st = (.error (.fault 4#10 (fixN n)), st) := rfl
@[simp] theorem runI_faultPO {α : Type} (n : Nat) (st : IS) : runI (faultPO n : IM α) st = (.error (.fault 6#10 (fixN n)), st) := rfl
@[simp] theorem runI_faultIL {α : Type} (st : IS) : runI (faultIL : IM α) st = (.error (.fault 1#10 fix0), st) := rfl
@[simp] theorem runI_faultOV {α : Type} (st : IS) : runI (faultOV : IM α) st = (.error (.fault 5#10 fix0), st) := rfl
@[simp] theorem runI_ite {α : Type} (c : Prop) [Decidable c] (x y : IM α) (st : IS) :
    runI (if c then x else y) st = if c then runI x st else runI y st := by split <;> rfl
theorem runI_tryCatch {α : Type} (w : IM α) (h : Exit → IM α) (st : IS) :
    runI (tryCatch w h) st = match runI w st with | (.ok a, s) => (.ok a, s) | (.error e, s) => runI (h e) s := by
  show (ExceptT.run (ExceptT.tryCatch w h)).run st = _
  simp only [ExceptT.run, ExceptT.tryCatch, ExceptT.mk, runI]
  show StateT.run (StateT.bind w _) st = _
  simp only [StateT.run, StateT.bind]
  rcases hw : w st with ⟨r, s⟩
  cases r <;> rfl
/-- COMMIT with no translation collected does nothing (R246). -/
theorem runI_commit_nil (m : Mach) (t : Fin 8) (n l : Nat) :
    runI commit { m := m, t := t, used := [], fwds := n, last := l } = (.ok (), { m := m, t := t, used := [], fwds := n, last := l }) := rfl
/-- Work that completes is not repeated. -/
theorem runI_retrying_ok {α : Type} (n : Nat) (w : IM α) (st s : IS) (a : α) (h : runI w st = (.ok a, s)) :
    runI (retrying n w) st = (.ok a, s) := by
  cases n with
  | zero => exact h
  | succ n => unfold retrying; rw [runI_tryCatch, h]
/-- Work that ends the instruction otherwise than by meeting V = 0 is not repeated. -/
theorem runI_retrying_error {α : Type} (n : Nat) (w : IM α) (st s : IS) (e : Exit) (h : runI w st = (.error e, s)) (he : e ≠ .again) :
    runI (retrying n w) st = (.error e, s) := by
  cases n with
  | zero => exact h
  | succ n => unfold retrying; rw [runI_tryCatch, h]; cases e <;> simp_all
/-- A register operand that passes its checks (R194 step 3). -/
theorem runI_operand_ok (code : Nat) (r : Reg) (ok : BitVec 6 → Bool) (st : IS) (v : Cell) (hv : (st.m.thr st.t).reg r = v)
    (hp : cellTag v ≠ tPSN) (hr : isReserved v = false) (ht : ok (cellTag v) = true) : runI (operand code r ok) st = (.ok v, st) := by
  subst hv
  unfold operand
  simp [runI_bind, hp, hr, ht]
/-- A register operand that holds PSN (R181). -/
theorem runI_operand_psn (code : Nat) (r : Reg) (ok : BitVec 6 → Bool) (st : IS) (hp : cellTag ((st.m.thr st.t).reg r) = tPSN) :
    runI (operand code r ok) st = (.error (.fault 6#10 (fixN code)), st) := by
  unfold operand
  simp [runI_bind, hp]
/-- A register operand that holds a reserved cell (R183). -/
theorem runI_operand_reserved (code : Nat) (r : Reg) (ok : BitVec 6 → Bool) (st : IS) (hr : isReserved ((st.m.thr st.t).reg r) = true) :
    runI (operand code r ok) st = (.error (.reserved ((st.m.thr st.t).reg r) code), st) := by
  have hp : cellTag ((st.m.thr st.t).reg r) ≠ tPSN := by
    intro h
    simp only [isReserved, h, Bool.or_eq_true, Bool.and_eq_true, decide_eq_true_eq] at hr
    rcases hr with hr | hr
    · exact absurd hr (by decide)
    · exact absurd hr.1 (by decide)
  unfold operand
  simp [runI_bind, hp, hr]
/-- A register operand with a tag outside the operand's set. -/
theorem runI_operand_tag (code : Nat) (r : Reg) (ok : BitVec 6 → Bool) (st : IS) (hp : cellTag ((st.m.thr st.t).reg r) ≠ tPSN)
    (hr : isReserved ((st.m.thr st.t).reg r) = false) (ht : ok (cellTag ((st.m.thr st.t).reg r)) = false) :
    runI (operand code r ok) st = (.error (.fault 3#10 (fixN code)), st) := by
  unfold operand
  simp [runI_bind, hp, hr, ht]

end Sys2Proof.Machine
end

