-- ==== Sys2Proof/Laws/State.lean ====
section
/-! SUPPORT. Reading back what an update of the state, of a channel's slice, or of a thread has written: one lemma per reading. -/
namespace Sys2Proof.Machine

/-! ### The state -/

@[simp] theorem chan_setChan (s : State) (c : Chan) (ch : Channel) : (s.setChan c ch).chan c = ch := by simp [State.chan, State.setChan]
theorem chan_setChan_ne (s : State) (c k : Chan) (ch : Channel) (h : k ≠ c) : (s.setChan c ch).chan k = s.chan k := by
  have : (c : Nat) ≠ k := fun e => h (Fin.ext e.symm)
  simp [State.chan, State.setChan, this]
@[simp] theorem setChan_square (s : State) (c : Chan) (ch : Channel) : (s.setChan c ch).square = s.square := rfl
@[simp] theorem setChan_free (s : State) (c : Chan) (ch : Channel) : (s.setChan c ch).free = s.free := rfl
@[simp] theorem setChan_pending (s : State) (c : Chan) (ch : Channel) : (s.setChan c ch).pending = s.pending := rfl
@[simp] theorem setChan_chan (s : State) (c : Chan) : s.setChan c (s.chan c) = s := by simp [State.chan, State.setChan]
@[simp] theorem setChan_setChan (s : State) (c : Chan) (a b : Channel) : (s.setChan c a).setChan c b = s.setChan c b := by
  simp [State.setChan]
@[simp] theorem mach_c (s : State) (c : Chan) : (s.mach c).c = c := rfl
@[simp] theorem mach_ch (s : State) (c : Chan) : (s.mach c).ch = s.chan c := rfl
@[simp] theorem mach_sq (s : State) (c : Chan) : (s.mach c).sq = s.square := rfl
@[simp] theorem mach_free (s : State) (c : Chan) : (s.mach c).free = s.free := rfl
@[simp] theorem putMach_pending (s : State) (m : Mach) : (s.putMach m).pending = s.pending := rfl
@[simp] theorem putMach_square (s : State) (m : Mach) : (s.putMach m).square = m.sq := rfl
@[simp] theorem putMach_free (s : State) (m : Mach) : (s.putMach m).free = m.free := rfl
@[simp] theorem chan_putMach (s : State) (m : Mach) : (s.putMach m).chan m.c = m.ch := by simp [State.chan, State.putMach]
theorem chan_putMach_ne (s : State) (m : Mach) (k : Chan) (h : k ≠ m.c) : (s.putMach m).chan k = s.chan k := by
  have : (m.c : Nat) ≠ k := fun e => h (Fin.ext e.symm)
  simp [State.chan, State.putMach, this]
/-- Work on a slice touches its own channel, the square and the free counter. -/
theorem onMach_eq (s : State) (c : Chan) (f : Mach → Mach) :
    s.onMach c f = { (s.setChan c (f (s.mach c)).ch) with square := (f (s.mach c)).sq, free := (f (s.mach c)).free } := rfl
@[simp] theorem onMach_pending (s : State) (c : Chan) (f : Mach → Mach) : (s.onMach c f).pending = s.pending := rfl
@[simp] theorem chan_onMach (s : State) (c : Chan) (f : Mach → Mach) : (s.onMach c f).chan c = (f (s.mach c)).ch := by
  simp [State.onMach, State.putMach, State.chan]
/-- Every other channel is left alone. -/
theorem chan_onMach_ne (s : State) (c k : Chan) (f : Mach → Mach) (h : k ≠ c) : (s.onMach c f).chan k = s.chan k :=
  chan_putMach_ne s _ k h
/-- Work that leaves a slice as it was leaves the state as it was. -/
theorem onMach_id (s : State) (c : Chan) (f : Mach → Mach) (h : f (s.mach c) = s.mach c) : s.onMach c f = s := by
  unfold State.onMach
  rw [h]
  simp [State.putMach, State.mach, State.chan]

/-! ### Threads and cores -/

@[simp] theorem thr_setThr (m : Mach) (t : Fin 8) (th : Thread) : (m.setThr t th).thr t = th := by simp [Mach.thr, Mach.setThr]
theorem thr_setThr_ne (m : Mach) (t u : Fin 8) (th : Thread) (h : u ≠ t) : (m.setThr t th).thr u = m.thr u := by
  have : (t : Nat) ≠ u := fun e => h (Fin.ext e.symm)
  simp [Mach.thr, Mach.setThr, this]
@[simp] theorem setThr_setThr (m : Mach) (t : Fin 8) (a b : Thread) : (m.setThr t a).setThr t b = m.setThr t b := by simp [Mach.setThr]
@[simp] theorem setThr_c (m : Mach) (t : Fin 8) (th : Thread) : (m.setThr t th).c = m.c := rfl
@[simp] theorem setThr_sq (m : Mach) (t : Fin 8) (th : Thread) : (m.setThr t th).sq = m.sq := rfl
@[simp] theorem setThr_free (m : Mach) (t : Fin 8) (th : Thread) : (m.setThr t th).free = m.free := rfl
@[simp] theorem setThr_phys (m : Mach) (t : Fin 8) (th : Thread) : (m.setThr t th).ch.phys = m.ch.phys := rfl
@[simp] theorem setThr_proc (m : Mach) (t : Fin 8) (th : Thread) : (m.setThr t th).ch.proc = m.ch.proc := rfl
@[simp] theorem setThr_seq (m : Mach) (t : Fin 8) (th : Thread) : (m.setThr t th).ch.seq = m.ch.seq := rfl
@[simp] theorem setThr_led (m : Mach) (t : Fin 8) (th : Thread) : (m.setThr t th).ch.led = m.ch.led := rfl
@[simp] theorem setThr_sw (m : Mach) (t : Fin 8) (th : Thread) : (m.setThr t th).ch.sw = m.ch.sw := rfl
@[simp] theorem setThr_mc (m : Mach) (t : Fin 8) (th : Thread) : (m.setThr t th).ch.mc = m.ch.mc := rfl
@[simp] theorem setThr_life (m : Mach) (t : Fin 8) (th : Thread) : (m.setThr t th).ch.life = m.ch.life := rfl
@[simp] theorem setThr_clk (m : Mach) (t : Fin 8) (th : Thread) : (m.setThr t th).ch.clk = m.ch.clk := rfl
@[simp] theorem setThr_win (m : Mach) (t : Fin 8) (th : Thread) : (m.setThr t th).ch.win = m.ch.win := rfl
@[simp] theorem setThr_core (m : Mach) (t : Fin 8) (th : Thread) (k : Fin 2) : (m.setThr t th).core k = m.core k := rfl
@[simp] theorem core_setCore (m : Mach) (k : Fin 2) (co : Core) : (m.setCore k co).core k = co := by simp [Mach.core, Mach.setCore]
theorem core_setCore_ne (m : Mach) (k j : Fin 2) (co : Core) (h : j ≠ k) : (m.setCore k co).core j = m.core j := by
  have : (k : Nat) ≠ j := fun e => h (Fin.ext e.symm)
  simp [Mach.core, Mach.setCore, this]
@[simp] theorem setCore_thr (m : Mach) (k : Fin 2) (co : Core) (t : Fin 8) : (m.setCore k co).thr t = m.thr t := rfl
@[simp] theorem setCore_proc (m : Mach) (k : Fin 2) (co : Core) : (m.setCore k co).ch.proc = m.ch.proc := rfl
@[simp] theorem setCore_seq (m : Mach) (k : Fin 2) (co : Core) : (m.setCore k co).ch.seq = m.ch.seq := rfl
@[simp] theorem setCore_led (m : Mach) (k : Fin 2) (co : Core) : (m.setCore k co).ch.led = m.ch.led := rfl
@[simp] theorem setCore_sw (m : Mach) (k : Fin 2) (co : Core) : (m.setCore k co).ch.sw = m.ch.sw := rfl
@[simp] theorem setCore_mc (m : Mach) (k : Fin 2) (co : Core) : (m.setCore k co).ch.mc = m.ch.mc := rfl
@[simp] theorem setCore_life (m : Mach) (k : Fin 2) (co : Core) : (m.setCore k co).ch.life = m.ch.life := rfl
@[simp] theorem setCore_clk (m : Mach) (k : Fin 2) (co : Core) : (m.setCore k co).ch.clk = m.ch.clk := rfl
@[simp] theorem setCore_win (m : Mach) (k : Fin 2) (co : Core) : (m.setCore k co).ch.win = m.ch.win := rfl
@[simp] theorem setCore_phys (m : Mach) (k : Fin 2) (co : Core) : (m.setCore k co).ch.phys = m.ch.phys := rfl
/-- A patch changes a core's control store and its checker's, and nothing else of it. -/
@[simp] theorem loadPatch_tlb (c : Core) (p : Option Patch) : (c.loadPatch p).tlb = c.tlb := rfl
@[simp] theorem loadPatch_utlb (c : Core) (p : Option Patch) : (c.loadPatch p).utlb = c.utlb := rfl
@[simp] theorem loadPatch_icache (c : Core) (p : Option Patch) : (c.loadPatch p).icache = c.icache := rfl
@[simp] theorem loadPatch_dcache (c : Core) (p : Option Patch) : (c.loadPatch p).dcache = c.dcache := rfl
@[simp] theorem loadPatch_wb (c : Core) (p : Option Patch) : (c.loadPatch p).wb = c.wb := rfl
@[simp] theorem loadPatch_entryDiff (c : Core) (p : Option Patch) : (c.loadPatch p).entryDiff = c.entryDiff := rfl

/-! ### Registers of a thread -/

@[simp] theorem reg_setReg (th : Thread) (r : Reg) (v : Cell) : (th.setReg r v).reg r = v := by simp [Thread.reg, Thread.setReg]
theorem reg_setReg_ne (th : Thread) (r q : Reg) (v : Cell) (h : q ≠ r) : (th.setReg r v).reg q = th.reg q := by
  have : (r : Nat) ≠ q := fun e => h (Fin.ext e.symm)
  simp [Thread.reg, Thread.setReg, this]
@[simp] theorem setReg_pc (th : Thread) (r : Reg) (v : Cell) : (th.setReg r v).pc = th.pc := rfl
@[simp] theorem setReg_pstate (th : Thread) (r : Reg) (v : Cell) : (th.setReg r v).pstate = th.pstate := rfl
@[simp] theorem setReg_acc (th : Thread) (r : Reg) (v : Cell) : (th.setReg r v).acc = th.acc := rfl
@[simp] theorem setReg_loopC (th : Thread) (r : Reg) (v : Cell) : (th.setReg r v).loopC = th.loopC := rfl
@[simp] theorem setReg_loopS (th : Thread) (r : Reg) (v : Cell) : (th.setReg r v).loopS = th.loopS := rfl
@[simp] theorem setReg_loopE (th : Thread) (r : Reg) (v : Cell) : (th.setReg r v).loopE = th.loopE := rfl
@[simp] theorem setReg_spU (th : Thread) (r : Reg) (v : Cell) : (th.setReg r v).spU = th.spU := rfl
@[simp] theorem setReg_spS (th : Thread) (r : Reg) (v : Cell) : (th.setReg r v).spS = th.spS := rfl
/-- SP is the stack pointer of the mode (R204). -/
@[simp] theorem setSp_sp (th : Thread) (v : Cell) : (th.setSp v).sp = v := by
  unfold Thread.setSp
  by_cases h : th.sup = true
  · rw [if_pos h]
    exact if_pos h
  · rw [if_neg h]
    exact if_neg h

/-! ### Storage -/

@[simp] theorem putMem_thr (m : Mach) (a : Nat) (w : BitVec 40) (t : Fin 8) : (m.putMem a w).thr t = m.thr t := rfl
@[simp] theorem putMem_proc (m : Mach) (a : Nat) (w : BitVec 40) : (m.putMem a w).ch.proc = m.ch.proc := rfl
@[simp] theorem putMem_core (m : Mach) (a : Nat) (w : BitVec 40) : (m.putMem a w).ch.core = m.ch.core := rfl
@[simp] theorem putMem_led (m : Mach) (a : Nat) (w : BitVec 40) : (m.putMem a w).ch.led = m.ch.led := rfl
@[simp] theorem putMem_mc (m : Mach) (a : Nat) (w : BitVec 40) : (m.putMem a w).ch.mc = m.ch.mc := rfl
@[simp] theorem putMem_seq (m : Mach) (a : Nat) (w : BitVec 40) : (m.putMem a w).ch.seq = m.ch.seq := rfl
@[simp] theorem putRun_thr (m : Mach) (a : Nat) (vs : List Cell) : (m.putRun a vs).ch.thr = m.ch.thr := rfl
@[simp] theorem putRun_core (m : Mach) (a : Nat) (vs : List Cell) : (m.putRun a vs).ch.core = m.ch.core := rfl
@[simp] theorem putRun_proc (m : Mach) (a : Nat) (vs : List Cell) : (m.putRun a vs).ch.proc = m.ch.proc := rfl
@[simp] theorem putRun_boot (m : Mach) (a : Nat) (vs : List Cell) : (m.putRun a vs).ch.boot = m.ch.boot := rfl
@[simp] theorem putRun_led (m : Mach) (a : Nat) (vs : List Cell) : (m.putRun a vs).ch.led = m.ch.led := rfl
@[simp] theorem putRun_mc (m : Mach) (a : Nat) (vs : List Cell) : (m.putRun a vs).ch.mc = m.ch.mc := rfl
@[simp] theorem putRun_near (m : Mach) (a : Nat) (vs : List Cell) : (m.putRun a vs).ch.phys.near = m.ch.phys.near := rfl
@[simp] theorem putMem_near (m : Mach) (a : Nat) (w : BitVec 40) : (m.putMem a w).ch.phys.near = m.ch.phys.near := rfl
@[simp] theorem putMem_mem (m : Mach) (a : Nat) (w : BitVec 40) : (m.putMem a w).ch.phys.mem = mapPut m.ch.phys.mem a w := rfl
@[simp] theorem putNear_mem (m : Mach) (o : Nat) (v : Cell) : (m.putNear o v).ch.phys.mem = m.ch.phys.mem := rfl
@[simp] theorem putNear_near (m : Mach) (o : Nat) (v : Cell) :
    (m.putNear o v).ch.phys.near = mapPut m.ch.phys.near o (0#2 ++ v : BitVec 34) := rfl
@[simp] theorem setChan_phys (s : State) (c : Chan) (ch : Channel) : ((s.setChan c ch).chan c).phys = ch.phys := by simp

end Sys2Proof.Machine
end

