-- ==== Sys2Proof/Laws/Issue.lean ====
section
/-! SUPPORT. What issuing an instruction does where the thread is ready: it runs the work and finishes; what finishing leaves. -/
namespace Sys2Proof.Machine

/-- Only the performance counters, their records and the free counter differ. -/
def perfOnly (m n : Mach) : Prop := ∃ (p : Perf) (k : Nat), n = { m with ch.perf := p, free := k }
theorem perfOnly_refl (m : Mach) : perfOnly m m := ⟨m.ch.perf, m.free, rfl⟩
theorem perfOnly_trans {a b c : Mach} (h : perfOnly a b) (k : perfOnly b c) : perfOnly a c := by
  obtain ⟨p, n, rfl⟩ := h
  obtain ⟨q, l, rfl⟩ := k
  exact ⟨q, l, rfl⟩
theorem bump_perfOnly (m : Mach) (n : Nat) : perfOnly m (m.bump n) := ⟨_, m.free, rfl⟩
theorem bumpBy_perfOnly (m : Mach) (n k : Nat) : perfOnly m (m.bumpBy n k) := ⟨_, m.free, rfl⟩
theorem bumpT_perfOnly (m : Mach) (t : Fin 8) (n : Nat) : perfOnly m (m.bumpT t n) := ⟨_, m.free, rfl⟩
theorem bumpC_perfOnly (m : Mach) (n : Nat) : perfOnly m (m.bumpC n) := ⟨_, m.free, rfl⟩
theorem draw_perfOnly (m : Mach) (n : Nat) : perfOnly m (m.draw n).2 := ⟨m.ch.perf, _, rfl⟩
theorem queueRecord_perfOnly (m : Mach) (b : Bool) (v : Vector Cell 4) : perfOnly m (m.queueRecord b v) := by
  unfold Mach.queueRecord Mach.loseRecord
  split
  · exact ⟨_, m.free, rfl⟩
  · exact ⟨_, m.free, rfl⟩
theorem bumpTIf_perfOnly (m : Mach) (b : Bool) (t : Fin 8) (n : Nat) : perfOnly m (m.bumpTIf b t n) := by
  unfold Mach.bumpTIf
  split
  · exact bumpT_perfOnly m t n
  · exact perfOnly_refl m
theorem unmark_perfOnly (m : Mach) (k : Fin 2) : perfOnly m (m.unmark k) := ⟨_, m.free, rfl⟩
theorem tallyRecord_perfOnly (m : Mach) (t : Fin 8) (pc ic : VAddr) : perfOnly m (m.tallyRecord t pc ic) := by
  have h : perfOnly m ((m.draw 4095).2.draw (2 ^ 32)).2 := perfOnly_trans (draw_perfOnly _ _) (draw_perfOnly _ _)
  unfold Mach.tallyRecord
  dsimp only
  split
  · exact perfOnly_trans h (queueRecord_perfOnly _ _ _)
  · exact h
theorem sampleRecord_perfOnly (m : Mach) (t : Fin 8) (pc ic : VAddr) (r : Bool) : perfOnly m (m.sampleRecord t pc ic r) :=
  perfOnly_trans (perfOnly_trans (draw_perfOnly _ _) (perfOnly_trans (draw_perfOnly _ _) (draw_perfOnly _ _)))
    (perfOnly_trans (bumpC_perfOnly _ _) (queueRecord_perfOnly _ _ _))
/-- The end of an instruction moves counters and records only (R499-R501). -/
theorem tally_perfOnly (m : Mach) (t : Fin 8) (pc ic : VAddr) (r : Bool) : perfOnly m (m.tally t pc ic r) := by
  have h : perfOnly m (if (r && bit m.ch.tlyctl 23 && bit m.ch.tlyctl (12 + t.val)) = true then m.tallyRecord t pc ic else m) := by
    split
    · exact tallyRecord_perfOnly m t pc ic
    · exact perfOnly_refl m
  unfold Mach.tally
  dsimp only
  generalize (if (r && bit m.ch.tlyctl 23 && bit m.ch.tlyctl (12 + t.val)) = true then m.tallyRecord t pc ic else m) = n at h ⊢
  split
  · split
    · exact perfOnly_trans h (perfOnly_trans (unmark_perfOnly _ _) (sampleRecord_perfOnly _ _ _ _ _))
    · exact perfOnly_trans h (unmark_perfOnly _ _)
  · exact h
/-- A retirement moves counters and records only (R490). -/
theorem retired_perfOnly (m : Mach) (t : Fin 8) (i : Ins) (f : Flow) : perfOnly m (m.retired t i f) := by
  have h : perfOnly m (if (i.op = 0x38 || i.op = 0x3E) = true then m else m.tally t (m.thr t).pc (cellPay i.icell) true) := by
    split
    · exact perfOnly_refl m
    · exact tally_perfOnly _ _ _ _ _
  unfold Mach.retired
  dsimp only
  have tail (a : Mach) (b : Bool) (n : Nat) (ha : perfOnly m a) : perfOnly m (a.bumpTIf b t n) := perfOnly_trans ha (bumpTIf_perfOnly a b t n)
  repeat apply tail
  exact perfOnly_trans h (bumpT_perfOnly _ _ _)

/-- The slice in which a ready thread's instruction finds its work: its microsequencer has run through the routine (R241), which has drawn one
free value. -/
def State.begun (s : State) (c : Chan) (t : Fin 8) (i : Ins) : Mach :=
  { s.mach c with
    ch := { s.chan c with seq := (s.chan c).seq.set t ((s.mach c).routine t i (Config.microStart i.op % 7920)).seq }
    free := s.free + 1 }
/-- A core whose micro buffer has no bad entry has nothing to check. -/
theorem microCheck_clean {m : Mach} {k : Fin 2} (h : (m.core k).utlb.any (fun e => e.2.bad) = false) : m.microCheck k = m := by
  have hb : (m.core k).utlb.filter (fun e => e.2.bad) = [] := by
    rw [List.filter_eq_nil_iff]
    intro e he hbad
    rw [List.any_eq_false] at h
    exact h e he hbad
  unfold Mach.microCheck
  simp [hb]
/-- A ready thread's instruction goes through to its own work. -/
theorem issue_ready {s : State} {c : Chan} {t : Fin 8} {i : Ins} {w : IM Flow} (h : s.ready c t = true)
    (hs : i.sup = true → (((s.chan c).thr[t]).sup = true)) :
    (s.mach c).issue t i w = ((s.begun c t i).run t (retrying 4 w)).2.finishIns t i ((s.begun c t i).run t (retrying 4 w)).1 := by
  unfold State.ready at h
  simp only [Bool.and_eq_true, Bool.not_eq_true'] at h
  obtain ⟨⟨⟨h1, h2⟩, h3⟩, h4⟩ := h
  have e : (s.mach c).thr t = (s.chan c).thr[t] := rfl
  have hm : (s.mach c).microCheck (coreOf t) = s.mach c := microCheck_clean h3
  have hd : ((s.mach c).core (coreOf t)).dispatch i = .go i.sup (Config.microStart i.op % 7920) := by
    unfold Core.dispatch
    exact if_pos h2
  have hr : (s.mach c).runIns t i (Config.microStart i.op % 7920) w
      = ((s.begun c t i).run t (retrying 4 w)).2.finishIns t i ((s.begun c t i).run t (retrying 4 w)).1 := by
    have hst : ((s.mach c).routine t i (Config.microStart i.op % 7920)).stop = .ends := by
      unfold Mach.routine
      have h2' : ((s.mach c).core (coreOf t)).asMade = true := h2
      dsimp only
      rw [if_pos h2']
    unfold Mach.runIns
    dsimp only
    rw [hst]
    rfl
  unfold Mach.issue
  rw [h1, hm, ite_self]
  dsimp only
  rw [hd]
  simp only [Bool.not_true, Bool.false_eq_true, if_false, e, h4, Bool.false_and]
  rw [hr]
  by_cases hh : i.sup = true
  · rw [hs hh]
    simp
  · simp [hh]
/-- The state in which a thread's instruction finds its work. -/
abbrev workOn (s : State) (c : Chan) (t : Fin 8) (i : Ins) : IS := { m := s.begun c t i, t := t, used := [], fwds := 0, last := 0 }
/-- Changing one thread of a slice in which only counters and records differ from the one the work found. -/
theorem onlyThread_of {s : State} {c : Chan} {t : Fin 8} {i : Ins} {n : Mach} {th : Thread} (h : perfOnly (s.begun c t i) n) :
    onlyThread s (s.putMach { n.setThr t th with c := c }) c t th := by
  obtain ⟨p, k, rfl⟩ := h
  exact ⟨p, k, _, rfl⟩
/-- What a run of an instruction's work is, told by the work. -/
theorem run_eq {m : Mach} {t : Fin 8} {w : IM Flow} {x : Except Exit Flow} {r : IS}
    (h : runI w { m := m, t := t, used := [], fwds := 0, last := 0 } = (x, r)) : m.run t w = (x, r.m) := by
  show ((runI w _).1, (runI w _).2.m) = _
  rw [h]
/-- A slice in which only counters and records differ has the same threads. -/
theorem perfOnly_thr {m n : Mach} (h : perfOnly m n) (t : Fin 8) : n.thr t = m.thr t := by
  obtain ⟨p, k, rfl⟩ := h
  rfl
/-- A ready thread's instruction whose work completes and leaves a slice in which only the thread has changed. -/
theorem issue_done {s : State} {c : Chan} {t : Fin 8} {i : Ins} {w : IM Flow} {f : Flow} {th : Thread} {r : IS} (h : s.ready c t = true)
    (hs : i.sup = true → (((s.chan c).thr[t]).sup = true)) (hf : f ≠ .stay) (hf' : f ≠ .resume)
    (hw : runI w (workOn s c t i) = (.ok f, r)) (hr : perfOnly ((s.begun c t i).setThr t th) r.m) :
    onlyThread s (s.issue c t i w) c t (th.complete f) := by
  have e := run_eq (runI_retrying_ok 4 w _ _ _ hw)
  unfold State.issue State.onMach
  dsimp only
  rw [issue_ready h hs, e]
  have hfin : r.m.finishIns t i (.ok f) = (r.m.retired t i f).setThr t (((r.m.retired t i f).thr t).complete f) := by
    cases f <;> first | rfl | exact absurd rfl hf | exact absurd rfl hf'
  obtain ⟨p, n, hp⟩ := perfOnly_trans hr (retired_perfOnly r.m t i f)
  dsimp only
  rw [hfin, hp]
  refine ⟨p, n, ((s.mach c).routine t i (Config.microStart i.op % 7920)).seq, ?_⟩
  simp [State.setChan, State.putMach, State.mach, State.chan, State.ran, State.begun, Mach.setThr, Mach.thr]
/-- An ended attempt that did not retire moves counters and records only (R501). -/
theorem notRetired_perfOnly (m : Mach) (t : Fin 8) (i : Ins) : perfOnly m (m.notRetired t i) := tally_perfOnly _ _ _ _ _
/-- A ready thread's instruction whose work ends in a fault without having changed the slice: the event is recorded, nothing else. -/
theorem issue_fault {s : State} {c : Chan} {t : Fin 8} {i : Ins} {w : IM Flow} {v : BitVec 10} {a : Cell} {r : IS} (h : s.ready c t = true)
    (hs : i.sup = true → (((s.chan c).thr[t]).sup = true)) (hw : runI w (workOn s c t i) = (.error (.fault v a), r))
    (hr : perfOnly (s.begun c t i) r.m) : onlyThread s (s.issue c t i w) c t ((s.thread c t).raiseSync v a i.icell 0#2) := by
  have e := run_eq (runI_retrying_error 4 w _ _ _ hw (by simp))
  unfold State.issue State.onMach
  dsimp only
  rw [issue_ready h hs, e]
  have hp := perfOnly_trans hr (notRetired_perfOnly r.m t i)
  have ht : (r.m.notRetired t i).thr t = s.thread c t := perfOnly_thr hp t
  show onlyThread s (s.putMach { (r.m.notRetired t i).setThr t (((r.m.notRetired t i).thr t).raiseSync v a i.icell 0#2) with c := c }) c t _
  rw [ht]
  exact onlyThread_of hp
/-- A ready thread's instruction that traps: it completes with the thread its work left, and the trap is recorded. -/
theorem issue_trap {s : State} {c : Chan} {t : Fin 8} {i : Ins} {w : IM Flow} {v : BitVec 10} {a : Cell} {th : Thread} {r : IS}
    (h : s.ready c t = true) (hs : i.sup = true → (((s.chan c).thr[t]).sup = true))
    (hw : runI w (workOn s c t i) = (.error (.trap v a), r)) (hr : perfOnly ((s.begun c t i).setThr t th) r.m) :
    onlyThread s (s.issue c t i w) c t ((th.complete .next).raiseSync v a i.icell 1#2) := by
  have e := run_eq (runI_retrying_error 4 w _ _ _ hw (by simp))
  unfold State.issue State.onMach
  dsimp only
  rw [issue_ready h hs, e]
  have hp := perfOnly_trans hr (retired_perfOnly r.m t i .next)
  have ht : (r.m.retired t i .next).thr t = th := by rw [perfOnly_thr hp t, thr_setThr]
  obtain ⟨p, n, hn⟩ := hp
  show onlyThread s (s.putMach { (r.m.retired t i .next).setThr t ((((r.m.retired t i .next).thr t).complete .next).raiseSync v a i.icell 1#2)
    with c := c }) c t _
  rw [ht, hn]
  refine ⟨p, n, ((s.mach c).routine t i (Config.microStart i.op % 7920)).seq, ?_⟩
  simp [State.setChan, State.putMach, State.mach, State.chan, State.ran, State.begun, Mach.setThr]

/-- A ready thread's instruction that meets a reserved cell: d receives the cell, the instruction completes, and the trap of R183 is
recorded. -/
theorem issue_reserved {s : State} {c : Chan} {t : Fin 8} {i : Ins} {w : IM Flow} {v : Cell} {n : Nat} {r : IS} (h : s.ready c t = true)
    (hs : i.sup = true → (((s.chan c).thr[t]).sup = true)) (hw : runI w (workOn s c t i) = (.error (.reserved v n), r))
    (hr : perfOnly (s.begun c t i) r.m) :
    onlyThread s (s.issue c t i w) c t
      (((match i.dest with | some d => (s.thread c t).setReg d v | none => s.thread c t).complete .next).raiseSync 24#10 (fixN n) i.icell 1#2) := by
  have e := run_eq (runI_retrying_error 4 w _ _ _ hw (by simp))
  unfold State.issue State.onMach
  dsimp only
  rw [issue_ready h hs, e]
  have hp := perfOnly_trans hr (retired_perfOnly r.m t i .next)
  have ht : (r.m.retired t i .next).thr t = s.thread c t := perfOnly_thr hp t
  have hfin : r.m.finishIns t i (.error (.reserved v n)) = (r.m.retired t i .next).setThr t
      (((match i.dest with
        | some d => ((r.m.retired t i .next).thr t).setReg d v
        | none => (r.m.retired t i .next).thr t).complete .next).raiseSync 24#10 (fixN n) i.icell 1#2) := rfl
  dsimp only
  rw [hfin, ht]
  exact onlyThread_of hp

end Sys2Proof.Machine
end

