-- ==== Sys2Proof/Laws/Maps.lean ====
section
/-! SUPPORT. Finite maps: what a read finds after a write, and that every operation keeps the keys strictly rising; the same for
stored cells. -/
namespace Sys2Proof.Machine

/-! ### Reading -/

@[simp] theorem mapGet_nil {α : Type} (k : Nat) : mapGet ([] : List (Nat × α)) k = none := rfl
/-- A key below every key of a canonical map is absent. -/
theorem mapGet_below {α : Type} : (m : List (Nat × α)) → (k j : Nat) → (v : α) → mapWf ((j, v) :: m) = true → k ≤ j → mapGet m k = none
  | [], _, _, _, _, _ => rfl
  | (i, w) :: r, k, j, v, h, hk => by
    simp only [mapWf, Bool.and_eq_true, decide_eq_true_eq] at h
    have : i ≠ k := by omega
    simp only [mapGet, this, if_false]
    exact mapGet_below r k i w h.2 (by omega)
@[simp] theorem mapGet_mapPut {α : Type} : (m : List (Nat × α)) → (k : Nat) → (v : α) → mapGet (mapPut m k v) k = some v
  | [], k, v => by simp [mapPut, mapGet]
  | (j, w) :: r, k, v => by
    by_cases h : k < j
    · simp [mapPut, h, mapGet]
    · by_cases h' : k = j
      · simp [mapPut, h', mapGet]
      · have : ¬ j = k := fun e => h' e.symm
        simp [mapPut, h, h', mapGet, this, mapGet_mapPut r k v]
theorem mapGet_mapPut_ne {α : Type} : (m : List (Nat × α)) → (k j : Nat) → (v : α) → j ≠ k → mapGet (mapPut m k v) j = mapGet m j
  | [], k, j, v, h => by
    have : ¬ k = j := fun e => h e.symm
    simp [mapPut, mapGet, this]
  | (i, w) :: r, k, j, v, h => by
    have hk : ¬ k = j := fun e => h e.symm
    by_cases h1 : k < i
    · simp [mapPut, h1, mapGet, hk]
    · by_cases h2 : k = i
      · subst h2
        simp [mapPut, mapGet, hk]
      · simp only [mapPut, h1, h2, if_false, mapGet]
        split
        · rfl
        · exact mapGet_mapPut_ne r k j v h
theorem mapGet_mapDel_ne {α : Type} : (m : List (Nat × α)) → (k j : Nat) → j ≠ k → mapGet (mapDel m k) j = mapGet m j
  | [], _, _, _ => rfl
  | (i, w) :: r, k, j, h => by
    by_cases h1 : i = k
    · subst h1
      have : ¬ i = j := fun e => h e.symm
      simp [mapDel, mapGet, this]
    · simp only [mapDel, h1, if_false, mapGet]
      split
      · rfl
      · exact mapGet_mapDel_ne r k j h
theorem mapGet_mapDel {α : Type} : (m : List (Nat × α)) → (k : Nat) → mapWf m = true → mapGet (mapDel m k) k = none
  | [], _, _ => rfl
  | (i, w) :: r, k, h => by
    by_cases h1 : i = k
    · subst h1
      simp only [mapDel, if_true]
      exact mapGet_below r i i w h (le_refl _)
    · simp only [mapDel, h1, if_false, mapGet]
      refine mapGet_mapDel r k ?_
      cases r with
      | nil => rfl
      | cons x y => simp only [mapWf, Bool.and_eq_true] at h; exact h.2
/-- A map with a default reads back what was set. -/
theorem mapAt_mapSet {α : Type} [DecidableEq α] (d : α) (m : List (Nat × α)) (k : Nat) (v : α) (h : mapWf m = true) :
    mapAt d (mapSet d m k v) k = v := by
  unfold mapSet mapAt
  split
  · rename_i e
    rw [mapGet_mapDel m k h, e]
    rfl
  · simp
theorem mapAt_mapSet_ne {α : Type} [DecidableEq α] (d : α) (m : List (Nat × α)) (k j : Nat) (v : α) (h : j ≠ k) :
    mapAt d (mapSet d m k v) j = mapAt d m j := by
  unfold mapSet mapAt
  split
  · rw [mapGet_mapDel_ne m k j h]
  · rw [mapGet_mapPut_ne m k j v h]

/-! ### Canonical form -/

/-- The tail of a canonical map. -/
theorem mapWf_tail {α : Type} {x : Nat × α} {r : List (Nat × α)} (h : mapWf (x :: r) = true) : mapWf r = true := by
  cases r with
  | nil => rfl
  | cons y z =>
    obtain ⟨j, w⟩ := x
    obtain ⟨k, u⟩ := y
    simp only [mapWf, Bool.and_eq_true] at h
    exact h.2
theorem mapWf_mapPut {α : Type} : (m : List (Nat × α)) → (k : Nat) → (v : α) → mapWf m = true → mapWf (mapPut m k v) = true
  | [], _, _, _ => rfl
  | [(j, w)], k, v, _ => by
    by_cases h : k < j
    · simp [mapPut, h, mapWf]
    · by_cases h' : k = j
      · simp [mapPut, h', mapWf]
      · simp [mapPut, h, h', mapWf]
        omega
  | (j, w) :: (i, u) :: r, k, v, hw => by
    have hj : j < i := by simp only [mapWf, Bool.and_eq_true, decide_eq_true_eq] at hw; exact hw.1
    have ht := mapWf_tail hw
    by_cases h : k < j
    · simp [mapPut, h, mapWf, hj, ht]
    · by_cases h' : k = j
      · subst h'
        simp [mapPut, mapWf, hj, ht]
      · have ih := mapWf_mapPut ((i, u) :: r) k v ht
        simp only [mapPut, h, h', if_false] at ih ⊢
        by_cases h1 : k < i
        · simp only [h1, if_true] at ih ⊢
          simp only [mapWf, Bool.and_eq_true, decide_eq_true_eq]
          exact ⟨by omega, by simpa [mapWf] using ih⟩
        · by_cases h2 : k = i
          · simp only [h2, lt_irrefl, if_false, if_true] at ih ⊢
            simp only [mapWf, Bool.and_eq_true, decide_eq_true_eq]
            exact ⟨hj, ih⟩
          · simp only [h1, h2, if_false] at ih ⊢
            simp only [mapWf, Bool.and_eq_true, decide_eq_true_eq]
            exact ⟨hj, ih⟩
theorem mapWf_mapDel {α : Type} : (m : List (Nat × α)) → (k : Nat) → mapWf m = true → mapWf (mapDel m k) = true
  | [], _, _ => rfl
  | [(j, w)], k, _ => by
    by_cases h : j = k <;> simp [mapDel, h, mapWf]
  | (j, w) :: (i, u) :: r, k, hw => by
    have hj : j < i := by simp only [mapWf, Bool.and_eq_true, decide_eq_true_eq] at hw; exact hw.1
    have ht := mapWf_tail hw
    by_cases h : j = k
    · simp [mapDel, h, ht]
    · have ih := mapWf_mapDel ((i, u) :: r) k ht
      simp only [mapDel, h, if_false] at ih ⊢
      by_cases h1 : i = k
      · simp only [h1, if_true] at ih ⊢
        cases r with
        | nil => rfl
        | cons x y =>
          obtain ⟨p, q⟩ := x
          simp only [mapWf, Bool.and_eq_true, decide_eq_true_eq] at ht ⊢
          exact ⟨by omega, ht.2⟩
      · simp only [h1, if_false] at ih ⊢
        simp only [mapWf, Bool.and_eq_true, decide_eq_true_eq]
        exact ⟨hj, ih⟩
theorem mapWf_mapSet {α : Type} [DecidableEq α] (d : α) (m : List (Nat × α)) (k : Nat) (v : α) (h : mapWf m = true) :
    mapWf (mapSet d m k v) = true := by
  unfold mapSet
  split
  · exact mapWf_mapDel m k h
  · exact mapWf_mapPut m k v h

/-! ### A run of values -/

/-- The canonical form, said of every two entries in order. -/
theorem mapWf_iff_pairwise {α : Type} : (m : List (Nat × α)) → (mapWf m = true ↔ m.Pairwise (fun x y => x.1 < y.1))
  | [] => by simp [mapWf]
  | [x] => by simp [mapWf]
  | (j, v) :: (k, w) :: r => by
    have ih := mapWf_iff_pairwise ((k, w) :: r)
    rw [List.pairwise_cons, ← ih]
    simp only [mapWf, Bool.and_eq_true, decide_eq_true_eq]
    constructor
    · intro h
      refine ⟨fun y hy => ?_, h.2⟩
      rcases List.mem_cons.mp hy with rfl | hy
      · exact h.1
      · exact lt_trans h.1 ((List.pairwise_cons.mp (ih.mp h.2)).1 y hy)
    · exact fun h => ⟨h.1 (k, w) (List.mem_cons_self ..), h.2⟩
theorem mapWf_mapRun {α : Type} (m : List (Nat × α)) (a : Nat) (vs : List α) (h : mapWf m = true) : mapWf (mapRun m a vs) = true := by
  rw [mapWf_iff_pairwise] at h ⊢
  simp only [mapRun, List.pairwise_append, List.mem_append, List.mem_filter, List.mem_map, decide_eq_true_eq, List.pairwise_map]
  have hz : ∀ e ∈ vs.zipIdx, e.2 < vs.length := fun e he => (List.mem_zipIdx' he).1
  refine ⟨⟨h.filter _, ?_, ?_⟩, h.filter _, ?_⟩
  · rw [List.pairwise_iff_getElem]
    intro i j hi hj hij
    simp only [List.getElem_zipIdx]
    omega
  · rintro x ⟨-, hx⟩ y ⟨e, he, rfl⟩
    simp only
    omega
  · rintro x (⟨-, hx⟩ | ⟨e, he, rfl⟩) y ⟨-, hy⟩
    · omega
    · have := hz e he
      simp only
      omega
theorem mapGet_append {α : Type} : (p q : List (Nat × α)) → (k : Nat) → mapGet (p ++ q) k = (mapGet p k).orElse (fun _ => mapGet q k)
  | [], _, _ => rfl
  | (j, v) :: r, q, k => by
    by_cases h : j = k
    · simp [mapGet, h]
    · simp [mapGet, h, mapGet_append r q k]
theorem mapGet_filter {α : Type} (p : Nat → Bool) :
    (m : List (Nat × α)) → (k : Nat) → mapGet (m.filter (fun e => p e.1)) k = if p k then mapGet m k else none
  | [], _ => by simp
  | (j, v) :: r, k => by
    have ih := mapGet_filter p r k
    by_cases hp : p j
    · by_cases h : j = k
      · subst h; simp [hp, mapGet]
      · simp [hp, mapGet, h, ih]
    · by_cases h : j = k
      · subst h; simp [hp, ih]
      · simp [hp, mapGet, h, ih]
theorem mapGet_zipIdx {α : Type} (a : Nat) : (vs : List α) → (n k : Nat) →
    mapGet ((vs.zipIdx n).map (fun e => (a + e.2, e.1))) k = if a + n ≤ k then vs[k - (a + n)]? else none
  | [], n, k => by simp
  | v :: r, n, k => by
    have ih := mapGet_zipIdx a r (n + 1) k
    rw [List.zipIdx_cons, List.map_cons, mapGet, ih]
    by_cases h : a + n = k
    · subst h; simp
    · simp only [h, if_false]
      by_cases h1 : a + (n + 1) ≤ k
      · have h2 : a + n ≤ k := by omega
        have h3 : k - (a + n) = (k - (a + (n + 1))) + 1 := by omega
        simp [h1, h2, h3]
      · have h2 : ¬ a + n ≤ k := by omega
        simp [h1, h2]
/-- What a read finds after a run of values is set from `a` on: the run's own value inside it, what was there before outside. -/
theorem mapGet_mapRun {α : Type} (m : List (Nat × α)) (a : Nat) (vs : List α) (k : Nat) :
    mapGet (mapRun m a vs) k = if a ≤ k ∧ k < a + vs.length then vs[k - a]? else mapGet m k := by
  have hz := mapGet_zipIdx a vs 0 k
  rw [mapRun, mapGet_append, mapGet_append, mapGet_filter (fun i => decide (i < a)), mapGet_filter (fun i => decide (a + vs.length ≤ i)), hz]
  by_cases h1 : k < a
  · have h2 : ¬ a ≤ k := by omega
    have h3 : ¬ a + vs.length ≤ k := by omega
    cases mapGet m k <;> simp [h1, h2, h3]
  · have h2 : a ≤ k := by omega
    by_cases h3 : k < a + vs.length
    · have h4 : ¬ a + vs.length ≤ k := by omega
      have h5 : k - a < vs.length := by omega
      simp [h1, h2, h3, h4, h5]
    · have h4 : a + vs.length ≤ k := by omega
      have h5 : vs[k - a]? = none := by rw [List.getElem?_eq_none_iff]; omega
      simp [h1, h2, h3, h4, h5]

/-! ### Stored cells -/

/-- Every operation that stores a memory cell keeps the canonical form, and touches that cell alone. -/
theorem putMem_wf (m : Mach) (a : Nat) (w : BitVec 40) (h : mapWf m.ch.phys.mem = true) : mapWf (m.putMem a w).ch.phys.mem = true :=
  mapWf_mapPut _ _ _ h
theorem putNear_wf (m : Mach) (o : Nat) (v : Cell) (h : mapWf m.ch.phys.near = true) : mapWf (m.putNear o v).ch.phys.near = true :=
  mapWf_mapPut _ _ _ h
theorem putRun_wf (m : Mach) (a : Nat) (vs : List Cell) (h : mapWf m.ch.phys.mem = true) : mapWf (m.putRun a vs).ch.phys.mem = true :=
  mapWf_mapRun _ _ _ h
/-- A run of cells stored from `a` on touches those cells alone. -/
theorem memBits_putRun_out (m : Mach) (a k : Nat) (vs : List Cell) (h : ¬ (a ≤ k ∧ k < a + vs.length)) :
    (m.putRun a vs).memBits k = m.memBits k := by
  have e : mapGet (m.putRun a vs).ch.phys.mem k = mapGet m.ch.phys.mem k := by
    rw [Mach.putRun, mapGet_mapRun]
    simp [h]
  unfold Mach.memBits
  rw [e]
  rfl
@[simp] theorem memBits_putMem (m : Mach) (a : Nat) (w : BitVec 40) : (m.putMem a w).memBits a = w := by simp [Mach.memBits]
theorem memBits_putMem_ne (m : Mach) (a b : Nat) (w : BitVec 40) (h : b ≠ a) : (m.putMem a w).memBits b = m.memBits b := by
  unfold Mach.memBits
  rw [putMem_mem, mapGet_mapPut_ne _ _ _ _ h]
  rfl
@[simp] theorem nearBits_putNear (m : Mach) (o : Nat) (v : Cell) : (m.putNear o v).nearBits o = (0#2 ++ v : BitVec 34) := by
  simp [Mach.nearBits]
/-- A cell just stored reads clean (R389). -/
@[simp] theorem eccRead_eccWrite (a : Nat) (v : Cell) : eccRead a (eccWrite a v) = (.clean, v) := by
  have hl : (checkBits a v ++ v : BitVec 40).extractLsb' 0 32 = v := by
    apply BitVec.eq_of_getLsbD_eq
    intro i hi
    rw [BitVec.getLsbD_extractLsb']
    show (decide (i < 32) && BitVec.getLsbD (checkBits a v ++ v : BitVec (8 + 32)) (0 + i)) = _
    rw [BitVec.getLsbD_append]
    simp [hi]
  have hh : (checkBits a v ++ v : BitVec 40).extractLsb' 32 8 = checkBits a v := by
    apply BitVec.eq_of_getLsbD_eq
    intro i hi
    rw [BitVec.getLsbD_extractLsb']
    show (decide (i < 8) && BitVec.getLsbD (checkBits a v ++ v : BitVec (8 + 32)) (32 + i)) = _
    rw [BitVec.getLsbD_append]
    simp [hi]
  simp [eccRead, eccWrite, hl, hh]

end Sys2Proof.Machine
end

