-- ==== Sys2Proof/WellFormed.lean ====
section
/-! DEFINITION. Which commands are well formed: every operand the device samples from outside has a shape that the spec gives it. A
meaning is defined for ill-formed commands too; those name nothing a device can see. -/
namespace Sys2Proof

/-- A frame that can be on an interface: CAN FD carries at most 64 bytes (R425), Ethernet 1,518 (R427). -/
def HostFrame.fits (f : HostFrame) : Bool := decide (f.data.length ≤ (if f.iface = 2 then 1518 else 64))

/-- The shape of a command's operands. (DESIGN CHOICE, safe: log 56.) -/
def Instr.wf : Instr → Bool
  | .nop _ t => !Machine.isInstr t.cell || decide (Machine.cellOp t.cell = 0x01)
  | .flxfer _ _ _ _ _ _ reply => decide (reply.length ≤ 768)
  | .monitoringRound o codes => decide (codes.length = if o = 4 then 4 else 8)
  | .stagingQueueArrival _ cls _ _ _ => decide (1#6 ≤ cls) && decide (cls ≤ 0x11#6)
  | .unitCompareMismatch _ unit _ => decide (1#4 ≤ unit) && decide (unit ≤ 8#4)
  | .swcmdInvalid _ op => decide (4#4 ≤ op)
  | .auxDone _ _ reply => decide (reply.length ≤ 16)
  | .hpd _ kind => decide (kind ≠ 3#2)
  | .i2cDone _ _ reply => decide (reply.length ≤ 15)
  | .report _ nodes electrodes noise =>
    decide (nodes.length ≤ 768) && decide (electrodes.length ≤ 56) && decide (noise.length ≤ 24)
  | .frameReception f outcome => f.fits && decide (outcome ≠ 3#2)
  | .squareFailure kind _ _ => kind = 0#4 || kind = 2#4 || kind = 4#4 || kind = 5#4
  | _ => true

/-- The commands that carry an operand whose shape the spec limits; every other command is well formed whatever its operands. -/
def Instr.shaped : Instr → Bool
  | .nop _ _ => true
  | .flxfer _ _ _ _ _ _ _ => true
  | .monitoringRound _ _ => true
  | .stagingQueueArrival _ _ _ _ _ => true
  | .unitCompareMismatch _ _ _ => true
  | .swcmdInvalid _ _ => true
  | .auxDone _ _ _ => true
  | .hpd _ _ => true
  | .i2cDone _ _ _ => true
  | .report _ _ _ _ => true
  | .frameReception _ _ => true
  | .squareFailure _ _ _ => true
  | _ => false

end Sys2Proof
end

