-- ==== Sys2Proof/Laws/PerInstr.lean ====
section
/-! SUPPORT. Every command that carries no limited operand is well formed: one lemma per constructor. -/
namespace Sys2Proof.Laws

/-- A command is well formed unless it carries an operand whose shape the spec limits. -/
def Shape.Statement (i : Instr) : Prop := i.wf = true ∨ i.shaped = true

theorem Shape.nop : ∀ x0 x1, Shape.Statement (.nop x0 x1) := by intros; exact .inr rfl
theorem Shape.mov : ∀ x0 x1 x2 x3, Shape.Statement (.mov x0 x1 x2 x3) := by intros; exact .inl rfl
theorem Shape.movi : ∀ x0 x1 x2 x3, Shape.Statement (.movi x0 x1 x2 x3) := by intros; exact .inl rfl
theorem Shape.ldk : ∀ x0 x1 x2 x3, Shape.Statement (.ldk x0 x1 x2 x3) := by intros; exact .inl rfl
theorem Shape.tagof : ∀ x0 x1 x2 x3, Shape.Statement (.tagof x0 x1 x2 x3) := by intros; exact .inl rfl
theorem Shape.tageq : ∀ x0 x1 x2 x3 x4, Shape.Statement (.tageq x0 x1 x2 x3 x4) := by intros; exact .inl rfl
theorem Shape.tagset : ∀ x0 x1 x2 x3 x4, Shape.Statement (.tagset x0 x1 x2 x3 x4) := by intros; exact .inl rfl
theorem Shape.cdrof : ∀ x0 x1 x2 x3, Shape.Statement (.cdrof x0 x1 x2 x3) := by intros; exact .inl rfl
theorem Shape.iadd : ∀ x0 x1 x2 x3 x4, Shape.Statement (.iadd x0 x1 x2 x3 x4) := by intros; exact .inl rfl
theorem Shape.isub : ∀ x0 x1 x2 x3 x4, Shape.Statement (.isub x0 x1 x2 x3 x4) := by intros; exact .inl rfl
theorem Shape.iaddi : ∀ x0 x1 x2 x3 x4, Shape.Statement (.iaddi x0 x1 x2 x3 x4) := by intros; exact .inl rfl
theorem Shape.opAnd : ∀ x0 x1 x2 x3 x4, Shape.Statement (.opAnd x0 x1 x2 x3 x4) := by intros; exact .inl rfl
theorem Shape.opOr : ∀ x0 x1 x2 x3 x4, Shape.Statement (.opOr x0 x1 x2 x3 x4) := by intros; exact .inl rfl
theorem Shape.opXor : ∀ x0 x1 x2 x3 x4, Shape.Statement (.opXor x0 x1 x2 x3 x4) := by intros; exact .inl rfl
theorem Shape.andi : ∀ x0 x1 x2 x3 x4, Shape.Statement (.andi x0 x1 x2 x3 x4) := by intros; exact .inl rfl
theorem Shape.shl : ∀ x0 x1 x2 x3 x4, Shape.Statement (.shl x0 x1 x2 x3 x4) := by intros; exact .inl rfl
theorem Shape.shr : ∀ x0 x1 x2 x3 x4, Shape.Statement (.shr x0 x1 x2 x3 x4) := by intros; exact .inl rfl
theorem Shape.sar : ∀ x0 x1 x2 x3 x4, Shape.Statement (.sar x0 x1 x2 x3 x4) := by intros; exact .inl rfl
theorem Shape.shli : ∀ x0 x1 x2 x3 x4, Shape.Statement (.shli x0 x1 x2 x3 x4) := by intros; exact .inl rfl
theorem Shape.shri : ∀ x0 x1 x2 x3 x4, Shape.Statement (.shri x0 x1 x2 x3 x4) := by intros; exact .inl rfl
theorem Shape.sari : ∀ x0 x1 x2 x3 x4, Shape.Statement (.sari x0 x1 x2 x3 x4) := by intros; exact .inl rfl
theorem Shape.opEq : ∀ x0 x1 x2 x3 x4 x5, Shape.Statement (.opEq x0 x1 x2 x3 x4 x5) := by intros; exact .inl rfl
theorem Shape.ilt : ∀ x0 x1 x2 x3 x4 x5, Shape.Statement (.ilt x0 x1 x2 x3 x4 x5) := by intros; exact .inl rfl
theorem Shape.ult : ∀ x0 x1 x2 x3 x4 x5, Shape.Statement (.ult x0 x1 x2 x3 x4 x5) := by intros; exact .inl rfl
theorem Shape.ld : ∀ x0 x1 x2 x3 x4, Shape.Statement (.ld x0 x1 x2 x3 x4) := by intros; exact .inl rfl
theorem Shape.ldx : ∀ x0 x1 x2 x3 x4, Shape.Statement (.ldx x0 x1 x2 x3 x4) := by intros; exact .inl rfl
theorem Shape.st : ∀ x0 x1 x2 x3 x4, Shape.Statement (.st x0 x1 x2 x3 x4) := by intros; exact .inl rfl
theorem Shape.stx : ∀ x0 x1 x2 x3 x4, Shape.Statement (.stx x0 x1 x2 x3 x4) := by intros; exact .inl rfl
theorem Shape.cas : ∀ x0 x1 x2 x3 x4, Shape.Statement (.cas x0 x1 x2 x3 x4) := by intros; exact .inl rfl
theorem Shape.ldb : ∀ x0 x1 x2 x3 x4, Shape.Statement (.ldb x0 x1 x2 x3 x4) := by intros; exact .inl rfl
theorem Shape.stb : ∀ x0 x1 x2 x3 x4, Shape.Statement (.stb x0 x1 x2 x3 x4) := by intros; exact .inl rfl
theorem Shape.locof : ∀ x0 x1 x2 x3 x4, Shape.Statement (.locof x0 x1 x2 x3 x4) := by intros; exact .inl rfl
theorem Shape.fence : ∀ x0 x1, Shape.Statement (.fence x0 x1) := by intros; exact .inl rfl
theorem Shape.push : ∀ x0 x1 x2, Shape.Statement (.push x0 x1 x2) := by intros; exact .inl rfl
theorem Shape.pop : ∀ x0 x1 x2, Shape.Statement (.pop x0 x1 x2) := by intros; exact .inl rfl
theorem Shape.ldsp : ∀ x0 x1 x2 x3, Shape.Statement (.ldsp x0 x1 x2 x3) := by intros; exact .inl rfl
theorem Shape.stsp : ∀ x0 x1 x2 x3, Shape.Statement (.stsp x0 x1 x2 x3) := by intros; exact .inl rfl
theorem Shape.addsp : ∀ x0 x1 x2, Shape.Statement (.addsp x0 x1 x2) := by intros; exact .inl rfl
theorem Shape.j : ∀ x0 x1 x2, Shape.Statement (.j x0 x1 x2) := by intros; exact .inl rfl
theorem Shape.call : ∀ x0 x1 x2, Shape.Statement (.call x0 x1 x2) := by intros; exact .inl rfl
theorem Shape.bt : ∀ x0 x1 x2 x3, Shape.Statement (.bt x0 x1 x2 x3) := by intros; exact .inl rfl
theorem Shape.bf : ∀ x0 x1 x2 x3, Shape.Statement (.bf x0 x1 x2 x3) := by intros; exact .inl rfl
theorem Shape.jmpr : ∀ x0 x1 x2, Shape.Statement (.jmpr x0 x1 x2) := by intros; exact .inl rfl
theorem Shape.callr : ∀ x0 x1 x2 x3, Shape.Statement (.callr x0 x1 x2 x3) := by intros; exact .inl rfl
theorem Shape.ret : ∀ x0 x1 x2, Shape.Statement (.ret x0 x1 x2) := by intros; exact .inl rfl
theorem Shape.loop : ∀ x0 x1 x2 x3, Shape.Statement (.loop x0 x1 x2 x3) := by intros; exact .inl rfl
theorem Shape.wait : ∀ x0 x1 x2, Shape.Statement (.wait x0 x1 x2) := by intros; exact .inl rfl
theorem Shape.sig : ∀ x0 x1 x2, Shape.Statement (.sig x0 x1 x2) := by intros; exact .inl rfl
theorem Shape.svc : ∀ x0 x1 x2, Shape.Statement (.svc x0 x1 x2) := by intros; exact .inl rfl
theorem Shape.rete : ∀ x0 x1, Shape.Statement (.rete x0 x1) := by intros; exact .inl rfl
theorem Shape.uenter : ∀ x0 x1 x2, Shape.Statement (.uenter x0 x1 x2) := by intros; exact .inl rfl
theorem Shape.tstart : ∀ x0 x1 x2 x3 x4, Shape.Statement (.tstart x0 x1 x2 x3 x4) := by intros; exact .inl rfl
theorem Shape.thalt : ∀ x0 x1, Shape.Statement (.thalt x0 x1) := by intros; exact .inl rfl
theorem Shape.mfs : ∀ x0 x1 x2 x3, Shape.Statement (.mfs x0 x1 x2 x3) := by intros; exact .inl rfl
theorem Shape.mts : ∀ x0 x1 x2 x3, Shape.Statement (.mts x0 x1 x2 x3) := by intros; exact .inl rfl
theorem Shape.mtsVbase : ∀ x0 x1 x2, Shape.Statement (.mtsVbase x0 x1 x2) := by intros; exact .inl rfl
theorem Shape.wdkick : ∀ x0 x1, Shape.Statement (.wdkick x0 x1) := by intros; exact .inl rfl
theorem Shape.lgread : ∀ x0 x1 x2 x3, Shape.Statement (.lgread x0 x1 x2 x3) := by intros; exact .inl rfl
theorem Shape.lgwrite : ∀ x0 x1 x2 x3 x4, Shape.Statement (.lgwrite x0 x1 x2 x3 x4) := by intros; exact .inl rfl
theorem Shape.flxfer : ∀ x0 x1 x2 x3 x4 x5 x6, Shape.Statement (.flxfer x0 x1 x2 x3 x4 x5 x6) := by intros; exact .inr rfl
theorem Shape.add : ∀ x0 x1 x2 x3 x4, Shape.Statement (.add x0 x1 x2 x3 x4) := by intros; exact .inl rfl
theorem Shape.sub : ∀ x0 x1 x2 x3 x4, Shape.Statement (.sub x0 x1 x2 x3 x4) := by intros; exact .inl rfl
theorem Shape.mul : ∀ x0 x1 x2 x3 x4, Shape.Statement (.mul x0 x1 x2 x3 x4) := by intros; exact .inl rfl
theorem Shape.fdiv : ∀ x0 x1 x2 x3 x4, Shape.Statement (.fdiv x0 x1 x2 x3 x4) := by intros; exact .inl rfl
theorem Shape.quo : ∀ x0 x1 x2 x3 x4, Shape.Statement (.quo x0 x1 x2 x3 x4) := by intros; exact .inl rfl
theorem Shape.rem : ∀ x0 x1 x2 x3 x4, Shape.Statement (.rem x0 x1 x2 x3 x4) := by intros; exact .inl rfl
theorem Shape.neg : ∀ x0 x1 x2 x3, Shape.Statement (.neg x0 x1 x2 x3) := by intros; exact .inl rfl
theorem Shape.addi : ∀ x0 x1 x2 x3 x4, Shape.Statement (.addi x0 x1 x2 x3 x4) := by intros; exact .inl rfl
theorem Shape.numeq : ∀ x0 x1 x2 x3 x4 x5, Shape.Statement (.numeq x0 x1 x2 x3 x4 x5) := by intros; exact .inl rfl
theorem Shape.numlt : ∀ x0 x1 x2 x3 x4 x5, Shape.Statement (.numlt x0 x1 x2 x3 x4 x5) := by intros; exact .inl rfl
theorem Shape.tosf : ∀ x0 x1 x2 x3, Shape.Statement (.tosf x0 x1 x2 x3) := by intros; exact .inl rfl
theorem Shape.tof32 : ∀ x0 x1 x2 x3, Shape.Statement (.tof32 x0 x1 x2 x3) := by intros; exact .inl rfl
theorem Shape.trunc : ∀ x0 x1 x2 x3, Shape.Statement (.trunc x0 x1 x2 x3) := by intros; exact .inl rfl
theorem Shape.fadd : ∀ x0 x1 x2 x3 x4, Shape.Statement (.fadd x0 x1 x2 x3 x4) := by intros; exact .inl rfl
theorem Shape.fsub : ∀ x0 x1 x2 x3 x4, Shape.Statement (.fsub x0 x1 x2 x3 x4) := by intros; exact .inl rfl
theorem Shape.fmul : ∀ x0 x1 x2 x3 x4, Shape.Statement (.fmul x0 x1 x2 x3 x4) := by intros; exact .inl rfl
theorem Shape.fdv : ∀ x0 x1 x2 x3 x4, Shape.Statement (.fdv x0 x1 x2 x3 x4) := by intros; exact .inl rfl
theorem Shape.alloc : ∀ x0 x1 x2 x3 x4, Shape.Statement (.alloc x0 x1 x2 x3 x4) := by intros; exact .inl rfl
theorem Shape.allocl : ∀ x0 x1 x2 x3 x4, Shape.Statement (.allocl x0 x1 x2 x3 x4) := by intros; exact .inl rfl
theorem Shape.alloclBodyFill : ∀ x0 x1, Shape.Statement (.alloclBodyFill x0 x1) := by intros; exact .inl rfl
theorem Shape.zline : ∀ x0 x1 x2 x3, Shape.Statement (.zline x0 x1 x2 x3) := by intros; exact .inl rfl
theorem Shape.car : ∀ x0 x1 x2 x3, Shape.Statement (.car x0 x1 x2 x3) := by intros; exact .inl rfl
theorem Shape.opCdr : ∀ x0 x1 x2 x3, Shape.Statement (.opCdr x0 x1 x2 x3) := by intros; exact .inl rfl
theorem Shape.opCons : ∀ x0 x1 x2 x3 x4, Shape.Statement (.opCons x0 x1 x2 x3 x4) := by intros; exact .inl rfl
theorem Shape.opList : ∀ x0 x1 x2 x3 x4, Shape.Statement (.opList x0 x1 x2 x3 x4) := by intros; exact .inl rfl
theorem Shape.rplacd : ∀ x0 x1 x2 x3, Shape.Statement (.rplacd x0 x1 x2 x3) := by intros; exact .inl rfl
theorem Shape.endp : ∀ x0 x1 x2 x3, Shape.Statement (.endp x0 x1 x2 x3) := by intros; exact .inl rfl
theorem Shape.mac : ∀ x0 x1 x2 x3 x4, Shape.Statement (.mac x0 x1 x2 x3 x4) := by intros; exact .inl rfl
theorem Shape.macs : ∀ x0 x1 x2 x3 x4, Shape.Statement (.macs x0 x1 x2 x3 x4) := by intros; exact .inl rfl
theorem Shape.accz : ∀ x0 x1, Shape.Statement (.accz x0 x1) := by intros; exact .inl rfl
theorem Shape.accget : ∀ x0 x1 x2 x3, Shape.Statement (.accget x0 x1 x2 x3) := by intros; exact .inl rfl
theorem Shape.savel : ∀ x0 x1 x2, Shape.Statement (.savel x0 x1 x2) := by intros; exact .inl rfl
theorem Shape.saveu : ∀ x0 x1, Shape.Statement (.saveu x0 x1) := by intros; exact .inl rfl
theorem Shape.loadl : ∀ x0 x1, Shape.Statement (.loadl x0 x1) := by intros; exact .inl rfl
theorem Shape.loadu : ∀ x0 x1, Shape.Statement (.loadu x0 x1) := by intros; exact .inl rfl
theorem Shape.tlbinv : ∀ x0 x1 x2 x3, Shape.Statement (.tlbinv x0 x1 x2 x3) := by intros; exact .inl rfl
theorem Shape.tlbprobe : ∀ x0 x1 x2 x3, Shape.Statement (.tlbprobe x0 x1 x2 x3) := by intros; exact .inl rfl
theorem Shape.cacheon : ∀ x0 x1 x2, Shape.Statement (.cacheon x0 x1 x2) := by intros; exact .inl rfl
theorem Shape.cacheoff : ∀ x0 x1 x2, Shape.Statement (.cacheoff x0 x1 x2) := by intros; exact .inl rfl
theorem Shape.cinvall : ∀ x0 x1, Shape.Statement (.cinvall x0 x1) := by intros; exact .inl rfl
theorem Shape.crange : ∀ x0 x1 x2 x3 x4, Shape.Statement (.crange x0 x1 x2 x3 x4) := by intros; exact .inl rfl
theorem Shape.rangeEngineDone : ∀ x0, Shape.Statement (.rangeEngineDone x0) := by intros; exact .inl rfl
theorem Shape.rootscan : ∀ x0 x1, Shape.Statement (.rootscan x0 x1) := by intros; exact .inl rfl
theorem Shape.checkpoint : ∀ x0 x1 x2, Shape.Statement (.checkpoint x0 x1 x2) := by intros; exact .inl rfl
theorem Shape.pmread : ∀ x0 x1 x2 x3, Shape.Statement (.pmread x0 x1 x2 x3) := by intros; exact .inl rfl
theorem Shape.eventEntryStack : ∀ x0 x1, Shape.Statement (.eventEntryStack x0 x1) := by intros; exact .inl rfl
theorem Shape.eventEntryShadow : ∀ x0 x1, Shape.Statement (.eventEntryShadow x0 x1) := by intros; exact .inl rfl
theorem Shape.holdWindowExpiry : ∀ x0 x1, Shape.Statement (.holdWindowExpiry x0 x1) := by intros; exact .inl rfl
theorem Shape.stalemate : ∀ x0, Shape.Statement (.stalemate x0) := by intros; exact .inl rfl
theorem Shape.heal : ∀ x0, Shape.Statement (.heal x0) := by intros; exact .inl rfl
theorem Shape.lineFill : ∀ x0 x1 x2, Shape.Statement (.lineFill x0 x1 x2) := by intros; exact .inl rfl
theorem Shape.prefetchArrival : ∀ x0 x1 x2, Shape.Statement (.prefetchArrival x0 x1 x2) := by intros; exact .inl rfl
theorem Shape.writeBufferDrain : ∀ x0 x1, Shape.Statement (.writeBufferDrain x0 x1) := by intros; exact .inl rfl
theorem Shape.turnstileGrant : ∀ x0, Shape.Statement (.turnstileGrant x0) := by intros; exact .inl rfl
theorem Shape.wakeTimerArm : ∀ x0 x1, Shape.Statement (.wakeTimerArm x0 x1) := by intros; exact .inl rfl
theorem Shape.wakeTimerDisarm : ∀ x0 x1, Shape.Statement (.wakeTimerDisarm x0 x1) := by intros; exact .inl rfl
theorem Shape.wakeTimerExpiry : ∀ x0 x1, Shape.Statement (.wakeTimerExpiry x0 x1) := by intros; exact .inl rfl
theorem Shape.fastTimerArm : ∀ x0 x1 x2 x3, Shape.Statement (.fastTimerArm x0 x1 x2 x3) := by intros; exact .inl rfl
theorem Shape.fastTimerDisarm : ∀ x0 x1 x2 x3, Shape.Statement (.fastTimerDisarm x0 x1 x2 x3) := by intros; exact .inl rfl
theorem Shape.fastTimerExpiry : ∀ x0 x1, Shape.Statement (.fastTimerExpiry x0 x1) := by intros; exact .inl rfl
theorem Shape.tblRead : ∀ x0 x1, Shape.Statement (.tblRead x0 x1) := by intros; exact .inl rfl
theorem Shape.pwrstatRead : ∀ x0, Shape.Statement (.pwrstatRead x0) := by intros; exact .inl rfl
theorem Shape.idleEntry : ∀ x0 x1, Shape.Statement (.idleEntry x0 x1) := by intros; exact .inl rfl
theorem Shape.dozeEntry : ∀ x0, Shape.Statement (.dozeEntry x0) := by intros; exact .inl rfl
theorem Shape.sleepEntry : ∀ x0, Shape.Statement (.sleepEntry x0) := by intros; exact .inl rfl
theorem Shape.wake : ∀ x0, Shape.Statement (.wake x0) := by intros; exact .inl rfl
theorem Shape.preWake : ∀ x0, Shape.Statement (.preWake x0) := by intros; exact .inl rfl
theorem Shape.pwrctlOff : ∀ x0 x1, Shape.Statement (.pwrctlOff x0 x1) := by intros; exact .inl rfl
theorem Shape.supplyMonitorWarning : ∀ x0 x1 x2, Shape.Statement (.supplyMonitorWarning x0 x1 x2) := by intros; exact .inl rfl
theorem Shape.supplyMonitorOff : ∀ x0 x1 x2, Shape.Statement (.supplyMonitorOff x0 x1 x2) := by intros; exact .inl rfl
theorem Shape.vtxDriveRestored : ∀ x0, Shape.Statement (.vtxDriveRestored x0) := by intros; exact .inl rfl
theorem Shape.offReturn : ∀ x0, Shape.Statement (.offReturn x0) := by intros; exact .inl rfl
theorem Shape.monitorReadingUpdate : ∀ x0 x1 x2 x3 x4 x5 x6, Shape.Statement (.monitorReadingUpdate x0 x1 x2 x3 x4 x5 x6) := by intros; exact .inl rfl
theorem Shape.referenceClockFault : ∀ x0 x1, Shape.Statement (.referenceClockFault x0 x1) := by intros; exact .inl rfl
theorem Shape.slowClockTrim : ∀ x0 x1 x2, Shape.Statement (.slowClockTrim x0 x1 x2) := by intros; exact .inl rfl
theorem Shape.porReset : Shape.Statement .porReset := .inl rfl
theorem Shape.pinReset : ∀ x0, Shape.Statement (.pinReset x0) := by intros; exact .inl rfl
theorem Shape.releaseOfReset : ∀ x0, Shape.Statement (.releaseOfReset x0) := by intros; exact .inl rfl
theorem Shape.chnEnSample : ∀ x0 x1, Shape.Statement (.chnEnSample x0 x1) := by intros; exact .inl rfl
theorem Shape.ledgerSnapshotRead : ∀ x0, Shape.Statement (.ledgerSnapshotRead x0) := by intros; exact .inl rfl
theorem Shape.strapMeasurement : ∀ x0 x1 x2 x3 x4 x5 x6, Shape.Statement (.strapMeasurement x0 x1 x2 x3 x4 x5 x6) := by intros; exact .inl rfl
theorem Shape.squareStrapMeasurement : ∀ x0 x1 x2 x3 x4 x5, Shape.Statement (.squareStrapMeasurement x0 x1 x2 x3 x4 x5) := by intros; exact .inl rfl
theorem Shape.monitoringRound : ∀ x0 x1, Shape.Statement (.monitoringRound x0 x1) := by intros; exact .inr rfl
theorem Shape.driftctl : ∀ x0 x1, Shape.Statement (.driftctl x0 x1) := by intros; exact .inl rfl
theorem Shape.ledgerScan : ∀ x0, Shape.Statement (.ledgerScan x0) := by intros; exact .inl rfl
theorem Shape.stagingQueueArrival : ∀ x0 x1 x2 x3 x4, Shape.Statement (.stagingQueueArrival x0 x1 x2 x3 x4) := by intros; exact .inr rfl
theorem Shape.ledgerWordWrite : ∀ x0 x1 x2, Shape.Statement (.ledgerWordWrite x0 x1 x2) := by intros; exact .inl rfl
theorem Shape.bootgood : ∀ x0, Shape.Statement (.bootgood x0) := by intros; exact .inl rfl
theorem Shape.pinclr : ∀ x0, Shape.Statement (.pinclr x0) := by intros; exact .inl rfl
theorem Shape.flashDiscovery : ∀ x0 x1 x2 x3, Shape.Statement (.flashDiscovery x0 x1 x2 x3) := by intros; exact .inl rfl
theorem Shape.flashTransactionTimeout : ∀ x0, Shape.Statement (.flashTransactionTimeout x0) := by intros; exact .inl rfl
theorem Shape.slotAttempt : ∀ x0 x1 x2, Shape.Statement (.slotAttempt x0 x1 x2) := by intros; exact .inl rfl
theorem Shape.slotLoad : ∀ x0 x1, Shape.Statement (.slotLoad x0 x1) := by intros; exact .inl rfl
theorem Shape.bootRetry : ∀ x0, Shape.Statement (.bootRetry x0) := by intros; exact .inl rfl
theorem Shape.imageApply : ∀ x0, Shape.Statement (.imageApply x0) := by intros; exact .inl rfl
theorem Shape.firstInstruction : ∀ x0, Shape.Statement (.firstInstruction x0) := by intros; exact .inl rfl
theorem Shape.fullTraining : ∀ x0 x1 x2 x3 x4 x5, Shape.Statement (.fullTraining x0 x1 x2 x3 x4 x5) := by intros; exact .inl rfl
theorem Shape.trainingRetry : ∀ x0, Shape.Statement (.trainingRetry x0) := by intros; exact .inl rfl
theorem Shape.restoreAndVerify : ∀ x0 x1 x2 x3 x4, Shape.Statement (.restoreAndVerify x0 x1 x2 x3 x4) := by intros; exact .inl rfl
theorem Shape.commandIssue : ∀ x0 x1, Shape.Statement (.commandIssue x0 x1) := by intros; exact .inl rfl
theorem Shape.requestComplete : ∀ x0 x1 x2 x3, Shape.Statement (.requestComplete x0 x1 x2 x3) := by intros; exact .inl rfl
theorem Shape.rowIdleClose : ∀ x0 x1 x2, Shape.Statement (.rowIdleClose x0 x1 x2) := by intros; exact .inl rfl
theorem Shape.refresh : ∀ x0 x1, Shape.Statement (.refresh x0 x1) := by intros; exact .inl rfl
theorem Shape.retrainingSlice : ∀ x0 x1 x2, Shape.Statement (.retrainingSlice x0 x1 x2) := by intros; exact .inl rfl
theorem Shape.temperatureRead : ∀ x0 x1 x2, Shape.Statement (.temperatureRead x0 x1 x2) := by intros; exact .inl rfl
theorem Shape.countingWindowBoundary : ∀ x0 x1, Shape.Statement (.countingWindowBoundary x0 x1) := by intros; exact .inl rfl
theorem Shape.patrolScrub : ∀ x0, Shape.Statement (.patrolScrub x0) := by intros; exact .inl rfl
theorem Shape.writeCrcAlert : ∀ x0 x1, Shape.Statement (.writeCrcAlert x0 x1) := by intros; exact .inl rfl
theorem Shape.panic : ∀ x0, Shape.Statement (.panic x0) := by intros; exact .inl rfl
theorem Shape.panicLimit : ∀ x0, Shape.Statement (.panicLimit x0) := by intros; exact .inl rfl
theorem Shape.boundaryDivergence : ∀ x0 x1, Shape.Statement (.boundaryDivergence x0 x1) := by intros; exact .inl rfl
theorem Shape.registerSignature : ∀ x0 x1 x2, Shape.Statement (.registerSignature x0 x1 x2) := by intros; exact .inl rfl
theorem Shape.checkerFault : ∀ x0 x1 x2, Shape.Statement (.checkerFault x0 x1 x2) := by intros; exact .inl rfl
theorem Shape.unitCompareMismatch : ∀ x0 x1 x2, Shape.Statement (.unitCompareMismatch x0 x1 x2) := by intros; exact .inr rfl
theorem Shape.cycleCounterWrap : ∀ x0 x1, Shape.Statement (.cycleCounterWrap x0 x1) := by intros; exact .inl rfl
theorem Shape.slotEnable : ∀ x0 x1 x2, Shape.Statement (.slotEnable x0 x1 x2) := by intros; exact .inl rfl
theorem Shape.slotDisable : ∀ x0 x1, Shape.Statement (.slotDisable x0 x1) := by intros; exact .inl rfl
theorem Shape.youngCycleCommand : ∀ x0 x1, Shape.Statement (.youngCycleCommand x0 x1) := by intros; exact .inl rfl
theorem Shape.fullCycleCommand : ∀ x0 x1, Shape.Statement (.fullCycleCommand x0 x1) := by intros; exact .inl rfl
theorem Shape.regionSet : ∀ x0 x1 x2 x3 x4, Shape.Statement (.regionSet x0 x1 x2 x3 x4) := by intros; exact .inl rfl
theorem Shape.swcmdInvalid : ∀ x0 x1, Shape.Statement (.swcmdInvalid x0 x1) := by intros; exact .inr rfl
theorem Shape.automaticCycleStart : ∀ x0, Shape.Statement (.automaticCycleStart x0) := by intros; exact .inl rfl
theorem Shape.pitchRefill : ∀ x0 x1 x2, Shape.Statement (.pitchRefill x0 x1 x2) := by intros; exact .inl rfl
theorem Shape.logDrain : ∀ x0, Shape.Statement (.logDrain x0) := by intros; exact .inl rfl
theorem Shape.markQueueSpill : ∀ x0, Shape.Statement (.markQueueSpill x0) := by intros; exact .inl rfl
theorem Shape.markEnd : ∀ x0, Shape.Statement (.markEnd x0) := by intros; exact .inl rfl
theorem Shape.sweeperCopy : ∀ x0, Shape.Statement (.sweeperCopy x0) := by intros; exact .inl rfl
theorem Shape.evacuateEnd : ∀ x0, Shape.Statement (.evacuateEnd x0) := by intros; exact .inl rfl
theorem Shape.fixupEnd : ∀ x0, Shape.Statement (.fixupEnd x0) := by intros; exact .inl rfl
theorem Shape.linkTraining : ∀ x0 x1 x2, Shape.Statement (.linkTraining x0 x1 x2) := by intros; exact .inl rfl
theorem Shape.linkTrainingDone : ∀ x0 x1 x2 x3, Shape.Statement (.linkTrainingDone x0 x1 x2 x3) := by intros; exact .inl rfl
theorem Shape.auxTransaction : ∀ x0 x1 x2 x3, Shape.Statement (.auxTransaction x0 x1 x2 x3) := by intros; exact .inl rfl
theorem Shape.auxDone : ∀ x0 x1 x2, Shape.Statement (.auxDone x0 x1 x2) := by intros; exact .inr rfl
theorem Shape.hpd : ∀ x0 x1, Shape.Statement (.hpd x0 x1) := by intros; exact .inr rfl
theorem Shape.verticalStart : ∀ x0, Shape.Statement (.verticalStart x0) := by intros; exact .inl rfl
theorem Shape.underrun : ∀ x0 x1, Shape.Statement (.underrun x0 x1) := by intros; exact .inl rfl
theorem Shape.dctlDirty : ∀ x0, Shape.Statement (.dctlDirty x0) := by intros; exact .inl rfl
theorem Shape.psrEntry : ∀ x0, Shape.Statement (.psrEntry x0) := by intros; exact .inl rfl
theorem Shape.ntcMeasurement : ∀ x0 x1, Shape.Statement (.ntcMeasurement x0 x1) := by intros; exact .inl rfl
theorem Shape.ambientLightPoll : ∀ x0 x1 x2, Shape.Statement (.ambientLightPoll x0 x1 x2) := by intros; exact .inl rfl
theorem Shape.keyScan : ∀ x0 x1, Shape.Statement (.keyScan x0 x1) := by intros; exact .inl rfl
theorem Shape.kevt : ∀ x0, Shape.Statement (.kevt x0) := by intros; exact .inl rfl
theorem Shape.encoderTransition : ∀ x0 x1 x2 x3, Shape.Statement (.encoderTransition x0 x1 x2 x3) := by intros; exact .inl rfl
theorem Shape.gpioEdge : ∀ x0 x1 x2, Shape.Statement (.gpioEdge x0 x1 x2) := by intros; exact .inl rfl
theorem Shape.wakePinEdge : ∀ x0, Shape.Statement (.wakePinEdge x0) := by intros; exact .inl rfl
theorem Shape.buzzerStart : ∀ x0 x1 x2, Shape.Statement (.buzzerStart x0 x1 x2) := by intros; exact .inl rfl
theorem Shape.buzzerStop : ∀ x0 x1, Shape.Statement (.buzzerStop x0 x1) := by intros; exact .inl rfl
theorem Shape.buzzerDurationExpiry : ∀ x0 x1, Shape.Statement (.buzzerDurationExpiry x0 x1) := by intros; exact .inl rfl
theorem Shape.i2cTransaction : ∀ x0 x1 x2 x3, Shape.Statement (.i2cTransaction x0 x1 x2 x3) := by intros; exact .inl rfl
theorem Shape.i2cDone : ∀ x0 x1 x2, Shape.Statement (.i2cDone x0 x1 x2) := by intros; exact .inr rfl
theorem Shape.watchdogEarlyWarning : ∀ x0, Shape.Statement (.watchdogEarlyWarning x0) := by intros; exact .inl rfl
theorem Shape.watchdogExpiry : ∀ x0, Shape.Statement (.watchdogExpiry x0) := by intros; exact .inl rfl
theorem Shape.scanStart : ∀ x0, Shape.Statement (.scanStart x0) := by intros; exact .inl rfl
theorem Shape.scanStop : ∀ x0, Shape.Statement (.scanStop x0) := by intros; exact .inl rfl
theorem Shape.baselineReset : ∀ x0, Shape.Statement (.baselineReset x0) := by intros; exact .inl rfl
theorem Shape.report : ∀ x0 x1 x2 x3, Shape.Statement (.report x0 x1 x2 x3) := by intros; exact .inr rfl
theorem Shape.rawCaptureArm : ∀ x0, Shape.Statement (.rawCaptureArm x0) := by intros; exact .inl rfl
theorem Shape.trpt : ∀ x0, Shape.Statement (.trpt x0) := by intros; exact .inl rfl
theorem Shape.approachRun : ∀ x0 x1, Shape.Statement (.approachRun x0 x1) := by intros; exact .inl rfl
theorem Shape.txpush : ∀ x0 x1, Shape.Statement (.txpush x0 x1) := by intros; exact .inl rfl
theorem Shape.rxpop : ∀ x0, Shape.Statement (.rxpop x0) := by intros; exact .inl rfl
theorem Shape.frameTransmission : ∀ x0 x1, Shape.Statement (.frameTransmission x0 x1) := by intros; exact .inl rfl
theorem Shape.frameReception : ∀ x0 x1, Shape.Statement (.frameReception x0 x1) := by intros; exact .inr rfl
theorem Shape.busOffRecovery : ∀ x0, Shape.Statement (.busOffRecovery x0) := by intros; exact .inl rfl
theorem Shape.phyPoll : ∀ x0 x1 x2, Shape.Statement (.phyPoll x0 x1 x2) := by intros; exact .inl rfl
theorem Shape.unownedRecord : Shape.Statement .unownedRecord := .inl rfl
theorem Shape.lastGasp : ∀ x0, Shape.Statement (.lastGasp x0) := by intros; exact .inl rfl
theorem Shape.squareFailure : ∀ x0 x1 x2, Shape.Statement (.squareFailure x0 x1 x2) := by intros; exact .inr rfl
theorem Shape.mirrorRecordApply : ∀ x0 x1, Shape.Statement (.mirrorRecordApply x0 x1) := by intros; exact .inl rfl
theorem Shape.mirrorAcknowledgement : ∀ x0 x1 x2, Shape.Statement (.mirrorAcknowledgement x0 x1 x2) := by intros; exact .inl rfl
theorem Shape.linkFailure : ∀ x0, Shape.Statement (.linkFailure x0) := by intros; exact .inl rfl
theorem Shape.epochOverdue : ∀ x0, Shape.Statement (.epochOverdue x0) := by intros; exact .inl rfl
theorem Shape.pairBreak : ∀ x0, Shape.Statement (.pairBreak x0) := by intros; exact .inl rfl
theorem Shape.failover : ∀ x0, Shape.Statement (.failover x0) := by intros; exact .inl rfl
theorem Shape.standbyLoss : ∀ x0, Shape.Statement (.standbyLoss x0) := by intros; exact .inl rfl
theorem Shape.joinRequest : ∀ x0, Shape.Statement (.joinRequest x0) := by intros; exact .inl rfl
theorem Shape.copyComplete : ∀ x0, Shape.Statement (.copyComplete x0) := by intros; exact .inl rfl
theorem Shape.samplingCountdownExpiry : ∀ x0 x1, Shape.Statement (.samplingCountdownExpiry x0 x1) := by intros; exact .inl rfl
theorem Shape.tallyRecordWrite : ∀ x0, Shape.Statement (.tallyRecordWrite x0) := by intros; exact .inl rfl
theorem Shape.tlack : ∀ x0 x1, Shape.Statement (.tlack x0 x1) := by intros; exact .inl rfl
theorem Shape.tlclr : ∀ x0, Shape.Statement (.tlclr x0) := by intros; exact .inl rfl
theorem Shape.stamplRead : ∀ x0 x1, Shape.Statement (.stamplRead x0 x1) := by intros; exact .inl rfl
theorem Shape.mcpeakRead : ∀ x0, Shape.Statement (.mcpeakRead x0) := by intros; exact .inl rfl
theorem Shape.windowRegisterWrite : ∀ x0 x1 x2, Shape.Statement (.windowRegisterWrite x0 x1 x2) := by intros; exact .inl rfl
theorem Shape.busIntegration : ∀ x0, Shape.Statement (.busIntegration x0) := by intros; exact .inl rfl
theorem Shape.stuckAlert : ∀ x0 x1, Shape.Statement (.stuckAlert x0 x1) := by intros; exact .inl rfl
theorem Shape.alertRelease : ∀ x0 x1, Shape.Statement (.alertRelease x0 x1) := by intros; exact .inl rfl
theorem Shape.mirrorIdleRecord : ∀ x0, Shape.Statement (.mirrorIdleRecord x0) := by intros; exact .inl rfl

end Sys2Proof.Laws
end

