-- ==== Sys2Proof/Laws/Units.lean ====
section
/-! SUPPORT. Working on one channel with what its commands touch: what goes back into the state when the work is done. -/
namespace Sys2Proof.Machine

theorem putMach_mk (s : State) (c : Chan) (ch : Channel) (sq : Square) (f : Nat) :
    s.putMach { c := c, ch := ch, sq := sq, free := f } = ({ s with square := sq, free := f }).setChan c ch := rfl
theorem putMach_keep (s : State) (c : Chan) (ch : Channel) (f : Nat) :
    s.putMach { c := c, ch := ch, sq := s.square, free := f } = ({ s with free := f }).setChan c ch := rfl
/-- Putting back what was taken out changes nothing. -/
theorem putMach_mach (s : State) (c : Chan) : s.putMach (s.mach c) = s := by
  have h := setChan_chan s c
  simp [State.putMach, State.mach, State.setChan] at *
  rw [h]
/-- Work that changes the channel alone changes nothing else in the device. -/
theorem onMach_channel (s : State) (c : Chan) (f : Mach → Mach) (ch : Channel) (h : f (s.mach c) = { s.mach c with ch := ch }) :
    s.onMach c f = s.setChan c ch := by
  simp only [State.onMach, h]
  rfl

end Sys2Proof.Machine
end

