-- ==== Sys2Proof/Machine/Balls.lean ====
section
/-! DEFINITION. The balls of a channel and the outputs of the central cross: what each shows in reset, halted, unpowered and otherwise
(R40-R43, R127, Tables 2.3 and 2.4). -/
namespace Sys2Proof.Machine

/-- A ball of a channel by its code in Table 2.3, with its number where balls of one code can differ. -/
inductive Ball where
  | dq | dqs | ca | cs | ckT | ckC | alert | memReset | zq
  | mainLink (lane : Fin 4)
  | aux | hpd | flClk | flCs | flData | flReset | tx | rx | shield | keyDrive | keySense | encoder | gpio
  | buzzer (k : Fin 2)
  | blPwm | blEn | blDim | ntc | i2c | panelOk | lockN | faultN | wakeN | rstN | crystal | strap | en
  deriving DecidableEq, Repr
/-- What a ball shows. -/
inductive Level where
  | hiZ
  /-- Hi-Z with the termination off -/
  | hiZNoTerm
  /-- Hi-Z with the internal pull-down -/
  | hiZPd
  | low
  | high
  | ignored
  | idle
  | electricalIdle
  | pullDown
  | pullUp
  /-- pull-up, the level ignored -/
  | pullUpIgnored
  | released
  | zeroVolts
  /-- Hi-Z with the bias current off -/
  | hiZNoBias
  | noPull
  | oscillating
  | stopped
  /-- Hi-Z except during a measurement -/
  | hiZMeasured
  /-- as the devices need it in self-refresh -/
  | selfRefresh
  /-- the 1 kHz square wave of R466 -/
  | heartbeat
  /-- CHn_BL_DIM at 1.2 V × n ÷ 1,023 -/
  | dimmed (n : Nat)
  /-- a pulse train: high for `high` of `period` reference cycles -/
  | pulses (period high : Nat)
  /-- as the unit that owns the ball drives or senses it -/
  | unit
  deriving DecidableEq, Repr
/-- The supply of a ball: 0 VDD, 1 VDDQ, 2 VAON, 3 VIO, 4 VTX of its channel. -/
def Ball.supply : Ball → Fin 5
  | .dq => 1 | .dqs => 1 | .ca => 1 | .cs => 1 | .ckT => 1 | .ckC => 1 | .alert => 1 | .memReset => 1 | .zq => 1
  | .mainLink _ => 1 | .aux => 1 | .hpd => 3
  | .flClk => 2 | .flCs => 2 | .flData => 2 | .flReset => 2
  | .tx => 4 | .rx => 3 | .shield => 4
  | .keyDrive => 3 | .keySense => 3 | .encoder => 3 | .gpio => 3 | .buzzer _ => 3 | .blPwm => 3 | .blEn => 3 | .blDim => 3 | .ntc => 3
  | .i2c => 3 | .panelOk => 3 | .lockN => 3 | .faultN => 3
  | .wakeN => 2 | .rstN => 2 | .crystal => 2 | .strap => 2 | .en => 2
/-- The "In reset" column of Table 2.3, for a channel that is kept off or not. -/
def Ball.inReset (keptOff : Bool) : Ball → Level
  | .dq => .hiZNoTerm | .dqs => .hiZ | .ca => .low | .cs => .high | .ckT => .low | .ckC => .high | .alert => .ignored
  | .memReset => .low | .zq => .idle | .mainLink _ => .electricalIdle | .aux => .hiZ | .hpd => .pullDown
  | .flClk => .low | .flCs => .high | .flData => .hiZPd | .flReset => .low
  | .tx => .hiZ | .rx => .hiZ | .shield => .hiZ | .keyDrive => .hiZ | .keySense => .pullUp | .encoder => .pullUp | .gpio => .hiZPd
  | .buzzer _ => .low | .blPwm => .low | .blEn => .low | .blDim => .zeroVolts | .ntc => .hiZNoBias | .i2c => .released
  | .panelOk => .low | .lockN => .released | .faultN => .low | .wakeN => .pullUpIgnored | .rstN => .pullUp
  | .crystal => if keptOff then .stopped else .oscillating
  | .strap => .hiZMeasured | .en => .noPull
/-- The "Halted" column of Table 2.3, for a channel that locked up or not. -/
def Ball.halted (locked : Bool) : Ball → Level
  | .memReset => .high
  | .lockN => if locked then .low else .released
  | .crystal => .oscillating
  | b => b.inReset false
/-- Whether the unit that owns a ball has taken it since the release of reset (R40); the balls of the display stay in reset while
CHn_DISP is at level 0 (R447). -/
def Channel.took (ch : Channel) : Ball → Bool
  | .dq => ch.life.taken.memory | .dqs => ch.life.taken.memory | .ca => ch.life.taken.memory | .cs => ch.life.taken.memory
  | .ckT => ch.life.taken.memory | .ckC => ch.life.taken.memory | .alert => ch.life.taken.memory
  | .memReset => ch.life.taken.memory | .zq => ch.life.taken.memory
  | .mainLink _ => ch.life.taken.display && ch.dispOn | .aux => ch.life.taken.display && ch.dispOn
  | .hpd => ch.life.taken.display && ch.dispOn
  | .flClk => ch.life.taken.flash | .flCs => ch.life.taken.flash | .flData => ch.life.taken.flash | .flReset => ch.life.taken.flash
  | .tx => ch.life.taken.touch | .rx => ch.life.taken.touch | .shield => ch.life.taken.touch
  | .blPwm => ch.life.taken.backlight | .blEn => ch.life.taken.backlight | .blDim => ch.life.taken.backlight
  | .ntc => ch.life.taken.backlight
  | .keyDrive => ch.life.taken.panel | .keySense => ch.life.taken.panel | .encoder => ch.life.taken.panel | .gpio => ch.life.taken.panel
  | .buzzer _ => ch.life.taken.panel | .panelOk => ch.life.taken.panel
  | .i2c => ch.life.taken.i2c | .wakeN => ch.life.taken.wake
  | .lockN => true | .faultN => true | .rstN => true | .crystal => true | .strap => true | .en => true
/-- Whether a channel is in reset as a whole (R40), the state of POR_N given: the last case of R40 is each ball's own (`took`). -/
def Channel.inReset (ch : Channel) (porN : Bool) : Bool :=
  !porN || !ch.life.rstN || decide (ch.life.cond = .inReset) || decide (ch.life.cond = .off) || decide (ch.life.cond = .keptOff)
/-- Whether a channel is halted (R40). -/
def Channel.isHalted (ch : Channel) : Bool := decide (ch.life.cond = .halted) || decide (ch.life.cond = .lockedUp)
/-- Whether the controller holds the devices in self-refresh: in SLEEP or halted. -/
def Channel.refreshing (ch : Channel) : Bool := ch.mc.selfRef && decide (ch.life.power = .sleep)
/-- The frequency of buzzer k in Hz and its period and high time in reference cycles (R465, R459). -/
def Channel.buzzerWave (ch : Channel) (k : Fin 2) : Nat × Nat :=
  let f := max 100 (min 10000 (bits (winGet ch (bzReg k + 1)) 0 14))
  let p := 25000000 / f
  (p, p * bits (winGet ch (bzReg k)) 0 8 / 256)
/-- What a ball shows that its unit has taken, on a channel neither in reset nor halted. Across the power states it keeps what its unit
was last set to; in SLEEP memory balls carry self-refresh and eDP balls panel self refresh (R41). -/
def Channel.driven (ch : Channel) : Ball → Level
  | .dq => if ch.refreshing then .selfRefresh else .unit
  | .dqs => if ch.refreshing then .selfRefresh else .unit
  | .ca => if ch.refreshing then .selfRefresh else .unit
  | .cs => if ch.refreshing then .selfRefresh else .unit
  | .ckT => if ch.refreshing then .selfRefresh else .unit
  | .ckC => if ch.refreshing then .selfRefresh else .unit
  | .memReset => .high
  | .mainLink l => if ch.framing && decide (l.val < 2 ^ min 2 ch.disp.lanes.toNat) then .unit else .electricalIdle
  | .buzzer k => if bit ch.panel.buz k.val then .pulses (ch.buzzerWave k).1 (ch.buzzerWave k).2 else .low
  | .blPwm => if ch.pwm.2 = 0 then .low else .pulses ch.pwm.1 ch.pwm.2
  | .blEn => if winBit ch 0x14000 0 then .high else .low
  | .blDim => .dimmed ch.dim
  | .panelOk => if ch.panelOk then .heartbeat else .low
  | .lockN => if ch.life.lockN then .released else .low
  | .faultN => if ch.life.faultN then .released else .low
  | .rstN => .pullUp
  | .crystal => .oscillating
  | .strap => .hiZMeasured
  | .en => .noPull
  | .alert => .unit | .zq => .unit | .aux => .unit | .hpd => .unit | .flClk => .unit | .flCs => .unit | .flData => .unit
  | .flReset => .high
  | .tx => .unit | .rx => .unit | .shield => .unit | .keyDrive => .unit | .keySense => .unit | .encoder => .unit | .gpio => .unit
  | .ntc => .unit | .i2c => .unit | .wakeN => .unit
/-- What a ball of the channel shows (R40, R41), the state of POR_N given. -/
def Channel.ball (ch : Channel) (porN : Bool) (b : Ball) : Level :=
  if !bit ch.life.rails b.supply.val then .hiZ
  else if ch.inReset porN then b.inReset (decide (ch.life.cond = .keptOff))
  else if ch.isHalted then b.halted (decide (ch.life.cond = .lockedUp))
  else if ch.took b then ch.driven b
  else b.inReset false
/-- An output of the central cross (Table 2.4). -/
inductive CrossBall where
  | canTxd (bus : Fin 2)
  | rmiiTxen | rmiiTxd0 | rmiiTxd1 | mdc | mdio
  deriving DecidableEq, Repr
/-- What an output of the cross shows: released to Hi-Z without supply, while POR_N is low and while the square has failed, and otherwise
as the square drives it (R43). -/
def Square.output (sq : Square) (_ : CrossBall) : Level := if !sq.powered || !sq.porN || sq.failed then .hiZ else .unit

end Sys2Proof.Machine
end

