-- ==== Sys2Proof/Tests/Slice0.lean ====
section
/-! SUPPORT. Tests: the ill-formed commands that Instr.wf refuses, the worked examples and tables of spec/ on small states, and for every
statement concrete states and operands that meet the hypotheses of each of its clauses together (test_hyps_<statement or claim>). -/
set_option maxRecDepth 100000
set_option Elab.async false
namespace Sys2Proof.Tests
open Sys2Proof Sys2Proof.Machine

/-! ### Small states -/

/-- A channel that runs. -/
def run0 (ch : Channel) : Channel :=
  { ch with life := { ch.life with cond := .running, power := .run, rstN := true, good := true }, mc := { ch.mc with trained := true } }
/-- A thread in supervisor mode. -/
def th0 : Thread := { threadReset with status := .running, pstate := 1#24, spS := loc 0x100#24, pc := 0x40#24 }
def modC (s : State) (c : Chan) (f : Channel → Channel) : State := s.setChan c (f (s.chan c))
def modT (s : State) (c : Chan) (t : Fin 8) (f : Thread → Thread) : State := modC s c (fun ch => { ch with thr := ch.thr.set t (f ch.thr[t]) })
def setR (r : Reg) (v : Cell) (th : Thread) : Thread := { th with regs := th.regs.set r v }
/-- What a state holds once a command has answered. -/
def after (i : Instr) (s : State) : State := match exec i s with | .next s' => s' | _ => s
/-- Thread 0 of channel 0 once a command has answered. -/
def thr (i : Instr) (s : State) : Thread := (after i s).thread 0 0
def cst (k : Nat) : Cell := mkCell tCONST 0#2 (BitVec.ofNat 24 k)

/-- Operands of the arithmetic instructions, in c1 and c2. -/
def pairs : List (Cell × Cell) :=
  let f (i : Int) := fixI i
  [(f 5, f 3), (f (-7), f 2), (f (-8388608), f (-1)), (f 8388607, f 8388607), (f 9, f 0), (f 3, f 4), (f 0, f 0), (raw 0xF0F0F0#24, f 40), (f 0x40, fix 0x800000#24),
   (mkCell tSFLT 0#2 0x3F8000#24, mkCell tSFLT 0#2 0x404000#24), (mkCell tSFLT 1#2 0xBF8000#24, mkCell tSFLT 0#2 0x7FC000#24), (mkCell tSFLT 1#2 0xBF8000#24, f 6), (cNIL, mkCell tCONST 0#2 1#24), (mkCell tCHAR 0#2 65#24, mkCell tRAW 0#2 3#24), (mkCell tFWD 0#2 3#24, f 1), (psn 1#4, f 1), (loc 0x300#24, f 4), (mkCell tCODE 0#2 0x200#24, f 4)]
def opnd (p : Cell × Cell) (ps : Payload) (c : Chan) (t : Fin 8) : State :=
  modT (modC State.reset c run0) c t (fun _ => setR 1 p.1 (setR 2 p.2 (setR 19 (fix 0x123456#24) { th0 with pstate := ps, loopC := 3#24, loopS := 0x20#24, loopE := 0x41#24, acc := 0x12345#56 })))

def arS : List State := (pairs.map (fun p => opnd p 1#24 0 0))  ++ [opnd (fixI 2, fixI 3) 0#24 0 0, opnd (fixI 2, fixI 3) 1#24 1 5] ++
  [(fixI 3, psn 1#4), (fixI 3, mkCell 0x3F#6 0#2 3#24), (mkCell 0x3F#6 0#2 3#24, fixI 3), (fixI 3, cNIL), (mkCell tSFLT 0#2 0x7FC000#24, mkCell tSFLT 0#2 0x3F8000#24), (reta 0x44#24, fixI 1)].map (fun p => opnd p 1#24 0 0) ++
  [3, 1].map (fun k => modT (opnd (fixI 2, fixI 3) 1#24 0 0) 0 0 (fun th => { th with pc := 0x41#24, loopC := BitVec.ofNat 24 k })) ++ [modT (modC State.reset 0 run0) 0 3 (fun _ => th0), opnd (mkCell tCRATE 0#2 0x400#24, fixI 3) 1#24 0 0]
def ar (n : Nat) : State := arS.getD n State.reset

/-- Cells stored in memory, in rising order above what it holds, and cells stored in the near store. -/
def putMem (cells : List (Nat × Cell)) (ch : Channel) : Channel := { ch with phys := { ch.phys with mem := ch.phys.mem ++ cells.map (fun e => (e.1, eccWrite e.1 e.2)) } }
def putNear (cells : List (Nat × Cell)) (ch : Channel) : Channel := { ch with phys := { ch.phys with near := cells.foldl (fun m e => mapPut m e.1 (0#2 ++ e.2 : BitVec 34)) ch.phys.near } }
def hdr (k : BitVec 4) (n : Nat) : Cell := mkCell tHDR 0#2 (k ++ BitVec.ofNat 20 n : BitVec 24)
def mem1 : List (Nat × Cell) :=
  [(4, psn 1#4), (0x100, hdr 0#4 3), (0x101, fixI 7), (0x102, loc 0x120#24), (0x103, mkCell tFWD 0#2 0x130#24),
   (0x120, mkCell tFIX 2#2 9#24), (0x121, fixI 4), (0x130, mkCell tCONS 1#2 0x120#24), (0x131, mkCell tFIX 2#2 3#24), (0x132, mkCell tFIX 0#2 5#24), (0x133, fixI 6), (0x134, mkCell tFIX 3#2 1#24),
   (0x140, hdr 4#4 8), (0x141, fixI 2), (0x142, fixI 77), (0x143, fixI 78), (0x144, mkCell tINSTR 0#2 3#24),
   (0x150, hdr 3#4 3), (0x151, mkCell tCODE 0#2 0x140#24), (0x152, fixI 1), (0x153, fixI 1),
   (0x160, hdr 9#4 3), (0x161, raw 0xC1B2A3#24), (0x162, raw 0x112233#24), (0x163, raw 0x445566#24),
   (0x170, hdr 1#4 3), (0x171, fixI 4), (0x172, raw 0xC1B2A3#24), (0x173, raw 0x112233#24),
   (0x180, hdr 0#4 40), (0x181, psn 1#4), (0x182, mkCell tFIX 1#2 2#24)] ++ (List.range 38).map (fun i => (0x183 + i, fixN i))
def st (a b d : Cell) (ps : Payload) : State :=
  modT (modC State.reset 0 (fun ch => putMem mem1 (run0 ch))) 0 0 (fun _ => setR 1 a (setR 2 b (setR 3 d { th0 with pstate := ps, pc := 0x104#24, spS := loc 0x102#24, spU := loc 0x121#24 })))
def tagged (t : BitVec 6) (p : Payload) : Cell := mkCell t 0#2 p
/-- Memory with a vector, a record, lists, code, a closure, strings and a forward. -/
def meS : List State := [
  st (tagged tVEC 0x100#24) (fixI 0) (fixI 5) 1#24, st (tagged tVEC 0x100#24) (fixI 2) (fixI 300) 1#24, st (tagged tVEC 0x100#24) (fixI 3) (fixI (-1)) 1#24,
  st (tagged tVEC 0x180#24) (fixI 15) (fixI 5) 1#24, st (tagged tVEC 0x180#24) (fixI 14) (fixI 5) 1#24, st (tagged tVEC 0x180#24) (fixI 0) (fixI 5) 1#24,
  st (tagged tCODE 0x140#24) (fixI 1) (fixI 3) 1#24, st (tagged tCLO 0x150#24) (fixI 1) (fixI 2) 1#24,
  st (tagged tCONS 0x130#24) (tagged tCONS 0x132#24) (fixI 5) 1#24, st (tagged tCONS 0x131#24) (fixI 0) (fixI 5) 1#24, st (tagged tCONS 0x132#24) (fixI 1) (fixI 5) 0#24,
  st (tagged tCONS 0x131#24) cNIL (fixI 3) 1#24, st (tagged tCONS 0x130#24) (tagged tCONS 0x131#24) (fixI 3) 1#24,
  st (loc 0x103#24) (fixI 9) (tagged tCONS 0x120#24) 1#24, st (loc 0x181#24) (fixI 9) (fixI 3) 1#24, st (loc 0x120#24) (fixI 9) (fixI 3) 1#24,
  st (tagged tVEC 0x160#24) (fixI 4) (fixI 200) 1#24, st (tagged tSTR 0x170#24) (fixI 3) (fixI 20) 0#24, st cNIL (fixI 0) (fixI 0) 1#24, st (tagged tCONS 0x134#24) (fixI 0) (fixI 0) 1#24, st (mkCell tCONST 0#2 1#24) (fixI 0) (fixI 0) 0#24,
  st (fixI 3) (tagged tCODE 0x140#24) (loc 0x500#24) 1#24, st (fixI 0) (tagged tCODE 0x140#24) (loc 0x500#24) 1#24, st (reta 0x44#24) (fixI 0) (fixI 0) 1#24, st (fixI 768) (fixI 0) (fixI 0) 1#24, st (fixI 0x3) (fixI 0) (fixI 0) 1#24,
  modC (st (fixI 768) (fixI 0) (fixI 0) 1#24) 0 (fun ch => { ch with proc := { ch.proc with pend := [(768, { overrun := 0#8, addr := fix0 })], attr := [(768, 0x030000#24)] } }), modT (st (fixI 3) (tagged tCODE 0x140#24) (loc 0x500#24) 1#24) 0 3 (fun _ => th0)]

def me (n : Nat) : State := meS.getD n State.reset

def tlbe (vpn : Nat) : TlbEntry := { vpn := BitVec.ofNat 14 vpn, asid := 1#8, g := false, idx := BitVec.ofNat 22 vpn, r := true, w := true, x := true, u := true, typ := 0#2, a := true, d := true, ref := true, bad := false }
def tc (l : List (Nat × TlbEntry)) (s : State) : State := modC s 0 (fun ch => { ch with core := ch.core.set 0 { ch.core[0] with tlb := l } })
def slot0 (p : Nat × Nat) (s : State) : State := modC s 0 (fun ch => { ch with sw := { ch.sw with slots := ch.sw.slots.set 0 { slotReset with en := true, asid := 1#8, pitch := [(0, p)], map := [(2, 0x200000#24)], handed := [(2, 1)] } } })
def lines (s : State) : State := modC s 0 (putMem (((List.range 64).map (fun i => (0x20000 + i, fixN i)))))
def alOf (a b d : Cell) (sup : Bool) : State := lines (slot0 (0x20010, 0x20400) (tc [(5, tlbe 0x80), (6, tlbe 3)] (modT (st a b d (if sup then 3#24 else 2#24)) 0 0 (fun th => { th with asid := 1#8 }))))
def alS : List State := [alOf (fixI 3) (fixI 4) (fixI 5) true, alOf (fixI 2) (fixI 4) (fixI 5) true, alOf (fixI 8388607) (fixI 4) (fixI 5) true, alOf (fixI (-8388608)) (fixI (-4)) (fixI 5) false, alOf (tagged tCONS 0x130#24) cNIL (fixI 5) true, alOf (mkCell tFIX 2#2 1#24) cNIL (fixI 5) false]
def wbOf (l : List WbEntry) (s : State) : State := modC s 0 (fun ch => { ch with core := ch.core.set 0 { ch.core[0] with wb := l } })
def ent (l : Nat) (cs : NMap (Cell × Bool)) (t : Fin 8) : WbEntry := { kind := .memory, line := l, cells := cs, threads := thBit t, zline := false, logs := [] }
def wbS : List State := [wbOf [ent 0x10 [(2, fixI 99, true), (3, fixI 98, false)] 0, ent 0x12 [(0, fixI 99, true)] 1, ent 0x10 [(2, loc 4#24, true)] 2] (st (fixI 3) (fixI 4) (fixI 5) 1#24),
  modC (wbOf [ent 0x10 [(2, fixI 99, true), (3, fixI 98, false)] 0] (st (fixI 3) (fixI 4) (fixI 5) 1#24)) 0 (fun ch => { ch with core := ch.core.set 1 ch.core[0], proc := { ch.proc with granted := .core0 } })]

def al (n : Nat) : State := alS.getD n State.reset
def wb (n : Nat) : State := wbS.getD n State.reset

def crate (a : Nat) (link info : Cell) (cells : List Cell) : List (Nat × Cell) := [(a, mkCell tHDR 0#2 0x80001F#24), (a+1, link), (a+2, info)] ++ (List.range 25).map (fun i => (a + 3 + i, cells.getD i fix0))
def modP (s : State) (f : Proc → Proc) : State := modC s 0 (fun ch => { ch with proc := f ch.proc })

def cr : Payload → Cell := tagged tCRATE
def lo : List Cell := (List.range 16).map fixN ++ [reta 0x44#24, fix 1#24, loc 5#24, loc 6#24, fix 7#24, cNIL, fix0, fix0]
def up : List Cell := (List.range 16).map (fun i => fixN (40 + i)) ++ [fix 1#24, fix 0xABCDEF#24, fix 6#24, fix 7#24, fix 0x44#24, fix 0x48#24, fix0, fix0]
def cs (free chain : Cell) (l : List (Nat × Cell)) (sh : Payload := 1#24) : State :=
  modP (modT (modC (st (fixI 3) (fixI 0x10000) (fixI 5) sh) 0 (putMem (crate 0x400 (cr 0x420#24) fix0 [] ++ crate 0x420 cNIL fix0 [] ++ crate 0x440 cNIL (fixN 0) lo ++ crate 0x460 (cr 0x440#24) (fixN 8) up ++ l))) 0 0 (fun th => { th with chain := chain })) (fun p => { p with cfree := free })
def tl (s : State) : State := modC s 0 (fun ch => { ch with core := ch.core.set 0 { ch.core[0] with tlb := [(5, { vpn := 5#14, asid := 1#8, g := false, idx := 3#22, r := true, w := true, x := true, u := true, typ := 0#2, a := true, d := true, ref := true, bad := false }), (6, { vpn := 0#14, asid := 1#8, g := true, idx := 3#22, r := true, w := true, x := true, u := true, typ := 0#2, a := true, d := true, ref := true, bad := false })], utlb := [(0,{ vpn := 0#14, asid := 0#8, g := false, idx := 3#22, r := true, w := true, x := true, u := true, typ := 0#2, a := true, d := true, ref := true, bad := false })] } })
def cline : CLine := { cells := Vector.replicate 16 fix0, bad := 0 }
def cc (s : State) : State := modC s 0 (fun ch => { ch with core := ch.core.map (fun co => { co with icache := { co.icache with frames := [(0, { faddr := 4, ref := true, age := 1, bad := false, lines := [(0, cline), (2, cline)] }), (5, { faddr := 4, ref := false, age := 1, bad := false, lines := [(1, cline)] })], buf := [{line := 0x100, cells := Vector.replicate 16 fix0, stride := false, bad := false }], reqs := [{line := 0x101, cells := Vector.replicate 16 fix0, stride := true, dead := false }] } }), proc := { ch.proc with invd := true } })
def rg (s : State) (l h : Nat) : State := modP (cc s) (fun p => { p with range := some (l, h) })
def ctxS : List State := [cs (cr 0x400#24) (fixI 0) [], cs (cr 0x400#24) (cr 0x440#24) [], cs (cr 0x420#24) (cr 0x460#24) [], cs fix0 (cr 0x460#24) [], cs cNIL (cr 0x460#24) [], cs (cr 0x400#24) cNIL [] 5#24, cs (cr 0x410#24) cNIL [],
  tl (cc (cs (cr 0x400#24) (fixI 0) [])), rg (cs (cr 0x400#24) (fixI 0) []) 3 2, rg (cs (cr 0x400#24) (fixI 0) []) 4 1, rg (cs (cr 0x400#24) (fixI 0) []) 5 100, modT (cs (cr 0x400#24) (fixI 0) []) 0 0 (setR 1 (fixI 0x4000))]
def ctx (n : Nat) : State := ctxS.getD n State.reset

def modWin (s : State) (o : Nat) (v : Payload) : State := modC s 0 (fun ch => winPut ch o v)
def modWins (s : State) (l : List (Nat × Payload)) : State := l.foldl (fun s x => modWin s x.1 x.2) s
def modPair (s : State) (f : Pair → Pair) : State := modC s 0 (fun ch => { ch with pair := f ch.pair })
def modSw (s : State) (f : Sweeper → Sweeper) : State := modC s 0 (fun ch => { ch with sw := f ch.sw })
def modLed (s : State) (f : Ledger → Ledger) : State := modC s 0 (fun ch => { ch with led := f ch.led })
def modLife (s : State) (f : Life → Life) : State := modC s 0 (fun ch => { ch with life := f ch.life })
def modClk (s : State) (f : Clock → Clock) : State := modC s 0 (fun ch => { ch with clk := f ch.clk })
def modBoot (s : State) (f : Boot → Boot) : State := modC s 0 (fun ch => { ch with boot := f ch.boot })
def modMc (s : State) (f : MemCtl → MemCtl) : State := modC s 0 (fun ch => { ch with mc := f ch.mc })
def modDisp (s : State) (f : Disp → Disp) : State := modC s 0 (fun ch => { ch with disp := f ch.disp })
def modPanel (s : State) (f : Panel → Panel) : State := modC s 0 (fun ch => { ch with panel := f ch.panel })
def modTouch (s : State) (f : Touch → Touch) : State := modC s 0 (fun ch => { ch with touch := f ch.touch })
def modPerf (s : State) (f : Perf → Perf) : State := modC s 0 (fun ch => { ch with perf := f ch.perf })
def modStrap (s : State) (n : Fin 8) (f : Pin → Pin) : State := modC s 0 (fun ch => { ch with straps := ch.straps.set n (f ch.straps[n]) })
def modSq (s : State) (f : Square → Square) : State := { s with square := f s.square }
def porUp (s : State) : State := modSq s (fun q => { q with porN := true })
def b0 : State := porUp (st (fixI 3) (fixI 4) (fixI 5) 1#24)

def nearS (k cnt buf : Nat) : State := modC (st (fixI 0x100) (fixI 4) (fixI 5) 1#24) 0 (putNear ([(0x100, fixN (k*256 + 3)), (0x101, fixN 0), (0x102, fixN (cnt*256)), (0x103, fixN buf)] ++ (List.range 8).map (fun i => (0x200 + i, fixN i))))
def ledgerS : List State := [modLed (st (fixI 0x1805) (loc 4#24) cNIL 1#24) (fun l => { l with words := [(5, 0x12345678#32), (0x1805, 0xABCDEF01#32)], flaws := [(7, true)] }),
 modLed (st (fixI 0x8005) (loc 4#24) cNIL 1#24) (fun l => { l with words := [(5, 0x12345678#32), (0x1805, 0xABCDEF01#32)] }), modLed (st (fixI 7) (fixI 4) cNIL 1#24) (fun l => { l with flaws := [(7, true)], staging := List.replicate 13 .pinclr }), st (fixI 0) (fixI 4) cNIL 1#24,st (fixI 1) (fixI 4) cNIL 1#24]
def act (s : State) : State := modWin (modPair s (fun p => { p with role := .active, epoch := 4#24 })) 0x8004 0x800002#24
def ckS : List State := [b0, modSw b0 (fun w => { w with phase := .select }), modPair b0 (fun p => { p with role := .active }), act b0, modLed (act b0) (fun l => { l with staging := [.user 3#11 (fixI 5) true] }), modPair (act b0) (fun p => { p with epoch := 5#24 })]
def evOf (s : State) (attr : Cell) (e : SyncEvent) (f : Thread → Thread) (h : Cell := mkCell tCODE 0#2 0x140#24) : State :=
  modC (modT (modP s (fun p => { p with vbase := 1#24, attr := [(3, cellPay attr)] })) 0 0 (fun th => f { th with sync := some e, spS := loc 0x200#24 })) 0 (putMem [(0x406, h), (0x407, attr)])
def se : SyncEvent := { vector := 3#10, addr := loc 0x77#24, icell := fixN 9, ret := 0x105#24, kind := 1#2 }
def evS : List State := [evOf b0 fix0 se id, evOf b0 (fixN 0x200000) se id, evOf b0 (fixN 0x800000) se id, evOf b0 (fixN 0x220300) se (fun th => { th with shlvl := true, pstate := 5#24, frame := some 0x300#24, hold := some 3#8 }), evOf b0 (fixN 0x220500) se (fun th => { th with frame := some 0x300#24 }), evOf b0 (fixN 0x820500) se id (mkCell tCODE 0#2 0x150#24)]

def rsv (n f : Nat) : Reservation := { slot := 0, first := 2, count := 1, size := n, sel := 0#6, filled := f, failed := false }
def laS : List State := [(1024,0),(1024,63),(1024,64),(1024,65),(1030, 64),(65536,4097),(1024,68)].map (fun x => modSw (modT (modC b0 0 (putMem [])) 0 0 (fun th => setR 1 (fixN x.1) { th with pstate := 3#24, asid := 1#8, resv := some (rsv x.1 x.2) })) (fun w => { w with slots := w.slots.set 0 { slotReset with en := true, asid := 1#8 }, xlate := some (BitVec.ofNat 14 ((0x20000 + 16 * x.2) / 1024), 1#8, 9, 0x300002#24) }))
def frameAt (a : Nat) (v0 v1 v2 v5 : Cell) : List (Nat × Cell) := (List.range 48).map (fun i => (a + i, if i = 0 then v0 else if i = 1 then v1 else if i = 2 then v2 else if i = 5 then v5 else fixN (i + 3)))
def ret (sh : Bool) (v0 v1 v2 v5 : Cell) (ps : Payload) : State := modT (modC b0 0 (putMem (frameAt 0x300 v0 v1 v2 v5))) 0 0 (fun th => { th with frame := some 0x300#24, shlvl := sh, pstate := ps, shRet := 0x99#24, shPst := 1#24, shFrame := some 0x400#24, hold := some 4#8, shOpened := true })
def retS : List State := [b0, ret false (reta 0x44#24) (fixN 1) (fixN 0x300000) cNIL 1#24, ret false (reta 0x44#24) (fixN 9) (fixN 3) (loc 0x400#24) 1#24, ret false (fixN 4) (fixN 9) (fixN 3) (loc 0x400#24) 1#24, ret true fix0 fix0 fix0 fix0 5#24]
def sigS : List State := ([[], [(3,0),(40,0)], [(39,0),(800,0)], [(800,0),(801,0),(41,0)], [(45,0),(802,0)]] : List (List (Nat × Nat))).flatMap (fun l => [0#24, 0x400000#24,0x410000#24].map (fun a => modT (modP b0 (fun p => { p with pend := l.map (fun x => (x.1, { overrun := 0#8, addr := fix0 })), attr := [(40, 0x400000#24), (45, 0x800000#24), (800, a), (801, 0x400000#24), (802, 0x800000#24)] })) 0 1 (fun _ => th0)))
def waitS : List State := ([[], [(3,0)], [(800,0)], [(801,0),(770,0)]] : List (List (Nat × Nat))).flatMap (fun l => [0x800000#24, 4#24, 1#24].map (fun k => modT (modP b0 (fun p => { p with pend := l.map (fun x => (x.1, { overrun := 0#8, addr := fix0 })) })) 0 0 (fun th => { th with status := .waiting k })))
def vtCell (bad : Nat) (v : Cell) (i : Nat) : Cell := if i = 2 * bad + 1 then v else if i = 81 then fixN 0x820500 else fix0
def vt (bad : Nat) (v : Cell) : State := modT (modC b0 0 (fun ch => { ch with phys := { ch.phys with mem := (List.range 2048).map (fun i => (0x800 + i, eccWrite (0x800 + i) (vtCell bad v i))) } })) 0 0 (setR 3 (fixN 2))
def vtS : List State := [vt 5 fix0, vt 5 (fixN 0x100000), vt 6 cNIL, vt 700 (fixN 0xF0FF00), modT b0 0 0 (setR 3 (fix 0x400002#24))]
def hs (old : Cell) : State := modP b0 (fun p => { p with heals := [{ addr := 0x102, va := 0x102#24, slot := 0, old := old, new := 0x130#24, core := 0 }, { addr := 0x103, va := 0x102#24, slot := 0, old := old, new := 0x130#24, core := 0 }] })
def hlS : List State := [hs (loc 0x120#24), hs (loc 0x121#24), hs (mkCell tLOC 1#2 0x120#24)]
def vec16 : Line := Vector.replicate 16 (fixI 3)
def fl (f : Cache → Cache) : State := modC b0 0 (fun ch => { ch with core := ch.core.map (fun co => { co with icache := f co.icache, dcache := f co.dcache }), proc := { ch.proc with range := some (4, 2) } })
def fiS : List State := [fl (fun x => { x with fill := some { line := 0x10, cells := vec16, dead := false } }), fl (fun x => { x with fill := some { line := 0x100, cells := vec16, dead := false } }), fl (fun x => { x with fill := some { line := 0x10, cells := vec16, dead := true } }),
  fl (fun x => { x with reqs := [{ line := 0x10, cells := Vector.replicate 16 fix0, stride := true, dead := false }] }), fl (fun x => { x with reqs := [{ line := 0x10, cells := Vector.replicate 16 fix0, stride := true, dead := true }] }), fl (fun x => { x with reqs := [{ line := 0x140, cells := Vector.replicate 16 fix0, stride := true, dead := true },{ line := 0x10, cells := Vector.replicate 16 fix0, stride := true, dead := false }] }), fl (fun x => { x with reqs := [{ line := 0x10, cells := Vector.replicate 16 fix0, stride := true, dead := false }], buf := (List.range 4).map (fun i => { line := i, stride := false, cells := vec16, bad := false }) })]
def unitS : List State := [nearS 1 5 0x200, nearS 2 5 0x200, nearS 0 5 0x200, nearS 0 7 0x200] ++ ledgerS
def un (n : Nat) : State := unitS.getD n State.reset
def ck (n : Nat) : State := ckS.getD n State.reset
def ev (n : Nat) : State := evS.getD n State.reset
def la (n : Nat) : State := laS.getD n State.reset
def re (n : Nat) : State := retS.getD n State.reset
def sg (n : Nat) : State := sigS.getD n State.reset
def wt (n : Nat) : State := waitS.getD n State.reset
def vc (n : Nat) : State := vtS.getD n State.reset
def hl (n : Nat) : State := hlS.getD n State.reset
def fi (n : Nat) : State := fiS.getD n State.reset

def tm (s : State) (tb cmp per rld : Nat) (armed per' z : Bool) : State := modWins (modClk s (fun k => { k with tb := BitVec.ofNat 48 tb, wake := k.wake.map (fun _ => { armed := armed, cmp := BitVec.ofNat 48 cmp }), fast := k.fast.map (fun _ => { armed := armed, periodic := per', pre := 1#2, loaded := 9#24, zero := z }) }))
   ((List.range 8).flatMap (fun n => [(0x811 + 4*n, BitVec.ofNat 24 cmp), (0x812+4*n, BitVec.ofNat 24 (cmp / 2^24)), (0x813+4*n, BitVec.ofNat 24 per), (0x841+4*n, BitVec.ofNat 24 rld)]))
def stop (s : State) : State := modT s 0 0 (fun th => { th with status := .stopped })
def pw (p : Power) (mx : Nat) (s : State) : State := modWin (modLife (stop s) (fun l => { l with power := p, gated := 3#2 })) 0x400 (BitVec.ofNat 24 mx)
def powS : List State := [tm b0 5 10 0 0 false false true, tm b0 50 10 0 7 true false false, tm b0 50 0x3000010 100 7 true true false, tm b0 0x3000020 0x3000010 100 0 true true true,
  stop b0, modLife (stop b0) (fun l => { l with gated := 2#2 }), pw .idle 1 b0, pw .idle 2 (modC b0 0 (fun ch => { ch with core := ch.core.map (fun co => { co with icache := { co.icache with frames := [(0, { faddr := 4, ref := true, age := 1, bad := false, lines := [] }), (5, { faddr := 4, ref := false, age := 1, bad := false, lines := [] })], reqs := [{ line := 9, cells := Vector.replicate 16 fix0, stride := true, dead := false }] } }) })),
  pw .doze 2 b0, pw .doze 2 (tm b0 5 100 0 0 true false true), pw .doze 2 (modPair b0 (fun p => { p with role := .alone })), pw .sleep 2 (modC b0 0 (fun ch => { ch with proc := { ch.proc with pend := [(64, { overrun := 0#8, addr := fix0 })] } })), pw .sleep 2 (modClk b0 (fun k => { k with tb := 98#48, wake := k.wake.set 3 { armed := true, cmp := 100#48 } })),
  modLife b0 (fun l => { l with cond := .inReset }), modLife b0 (fun l => { l with cond := .sampling }), modLife b0 (fun l => { l with cond := .off, offCause := some .brownout }), modLife b0 (fun l => { l with cond := .off, offCause := some .thermal }),modLife b0 (fun l => { l with cond := .off, offCause := some .request }),
  modPerf (modClk b0 (fun k => { k with wdRun := true, wdCount := 3277 })) (fun p => { p with counts := [(3, 5#48)] }),
  modClk b0 (fun k => { k with wdRun := true, wdCount := 2457 }), modClk b0 (fun k => { k with wdRun := true, wdCount := 2458 }),
  modWins (modStrap (modTouch b0 (fun t => { t with vtxf := true })) 6 (fun p => { p with level := 3#3 })) [(0x403, 1#24), (0x10000, 0x1000#24)], modClk b0 (fun k => { k with warn := 0x3F#6, sticky := 3#6 })]
def pw0 (n : Nat) : State := powS.getD n State.reset

def pinD (n : Nat) (l : List (Nat × Nat)) (p : Pin) (i : Nat) : Pin := { p with decided := decide (i < n), level := BitVec.ofNat 3 (mapAt 0 l i) }
def samp (n : Nat) (l : List (Nat × Nat)) (h : Option (BitVec 3)) (d7 : Bool := false) : State := modC b0 0 (fun ch => { ch with life := { ch.life with cond := .sampling, en := some true }, led := { ch.led with snapRead := true, scan := true }, straps := Vector.ofFn (fun i : Fin 8 => { pinD n l ch.straps[i] i.val with hist := h, decided := decide (i.val < n) || (d7 && i = 7) }) })
def sqs (n : Nat) (h : Option (BitVec 3)) : State := modSq b0 (fun q => { q with porN := true, led := { q.led with snapRead := true }, straps := Vector.ofFn (fun i : Fin 4 => { q.straps[i] with decided := decide (i.val < n), hist := h }) })
def drift (s : State) : State := modC s 0 (fun ch => { ch with straps := ch.straps.map (fun p => { p with status := 1#2, decided := true }) })
def snap0 : State := modC (samp 0 [] none) 0 (fun ch => { ch with led := { ch.led with snapRead := false, words := [(0, 0x3F000001#32), (1, 0x12345678#32)] } })
def strapS : List State := [samp 0 [] none, samp 1 [(0,3)] (some 2#3), samp 3 [(0,3),(1,1),(2,2)] (some 3#3), samp 7 [] none, samp 7 [(0,1),(2,1)] none, samp 4 [(0,1),(2,1)] (some 5#3), samp 5 [(0,1),(2,1)] (some 7#3), sqs 0 none, sqs 2 (some 1#3), sqs 3 (some 6#3), b0, drift b0, snap0, modWins (drift b0) [(0x18, 1#24), (0x19, 7#24)]]
def sp (n : Nat) : State := strapS.getD n State.reset

/-- The little-endian bytes of a number. -/
def le (k n : Nat) : List Byte := (List.range k).map (fun i => BitVec.ofNat 8 (n / 256 ^ i))
/-- An image of a code section of 64 cells and a vector table of zeros, with the code section's CRC and the header's CRC. -/
def img (crc hcrc : Nat) : List Byte :=
  [le 4 0x504C4855, le 2 1, le 2 2, [0x2600, 5, 0x104, 0x200, 0, 0].flatMap (le 4), le 32 0x00fd148eba8af2fa10a580f5022493a67e3b83c23445b59865345857b9944ce6, List.replicate 188 0#8,
    le 4 hcrc, [1, 0x500, 256, 0x100, crc, 0, 0, 0, 3, 0x600, 8192, 0x800, 0xD8F49994].flatMap (le 4), List.replicate 972 0#8,
    (List.replicate 64 7).flatMap (le 4), List.replicate 8192 0#8].flatten
/-- The image, and the image with a wrong CRC of its code section. -/
def imgOk : List Byte := img 0xD2D7BA42 0x657CC7B6
def imgSect : List Byte := img 0xD2D7BA43 0xBD984FA3

def bt (s : State) (f : Boot → Boot) : State := modBoot (modLife s (fun l => { l with cond := .booting })) f
def img2 : Image := imageOf imgOk
def strip4 (n : Nat) (s : State) : State := modStrap s 4 (fun p => { p with level := BitVec.ofNat 3 n })
def porUpSq : Square := b0.square
def bootS : List State := [bt b0 id, strip4 3 (bt b0 id), bt b0 (fun b => { b with round := [1#32] }), bt b0 (fun b => { b with stage := .attempt, order := [1], flash := some (64#16, 0) }), modLed (bt b0 (fun b => { b with stage := .attempt, order := [1, 0], flash := some (64#16, 0), att1 := 15#4 })) (fun l => { l with scan := false }),
  modLed (bt b0 (fun b => { b with stage := .attempt, order := [0], flash := some (64#16, 0), att1 := 15#4 })) (fun l => { l with scan := false }),
  bt b0 (fun b => { b with stage := .load, order := [1], flash := some (64#16, 0) }), bt b0 (fun b => { b with stage := .load, order := [1], flash := some (64#16, 0), second := true }), bt b0 (fun b => { b with stage := .load, order := [1], slot := 1, flash := some (0#16, 0) }),
  bt b0 (fun b => { b with stage := .failed }), bt b0 (fun b => { b with stage := .passed, image := some img2 }), modLife (bt b0 (fun b => { b with stage := .applied, image := some img2 })) (fun l => { l with cond := .booting, alone46 := true }),
  { modBoot (modC (modC (bt b0 (fun b => { b with stage := .load, order := [1], flash := some (64#16, 0) })) 1 run0) 0 (fun ch => ch)) id with square := { porUpSq with straps := (porUpSq).straps.map (fun p => { p with decided := true, level := 1#3 }) } }]
def bo (n : Nat) : State := bootS.getD n State.reset

def er (n : Nat) : Staged := .error (BitVec.ofNat 6 n) false true 3#8 77#24 0xDEADBEEF#32
def op (s : State) (f : Ledger → Ledger) : State := modLed s (fun l => f { l with scan := false })
def ledS : List State := [b0, op b0 (fun l => { l with staging := [er 5, er 6] }), op b0 (fun l => { l with staging := [er 5, .pinclr], seq := 0xFFFFFF#24, newest := 7#24 }), op b0 (fun l => { l with staging := List.replicate 16 (er 3), lostTotal := 0xFFFFFF#24 }), op b0 (fun l => { l with staging := List.replicate 16 (er 3), lost := [(1, 255#8)] }),
  op b0 (fun l => { l with job := some { kind := .entry, seq := some 5#24, todo := [(0x800, 3#32), (0x801, 4#32)] } }), op b0 (fun l => { l with job := some { kind := .entry, seq := some 5#24, todo := [(0x801, 0#32)] } }),  op b0 (fun l => { l with job := some { kind := .entry, seq := none, todo := [(0x1801, 9#32)] } }),
  modBoot b0 (fun b => { b with slot := 1, att0 := 3#4, att1 := 2#4 }), modBoot b0 (fun b => { b with good := true }), modLed b0 (fun l => { l with scan := true, snapRead := true, words := (List.range 3).flatMap (fun i => let o := 0x500 + 4 * i; let w := [BitVec.ofNat 32 (0x14000010 + i), 5#32, 6#32]; [(o, (w.getD 0 0#32)), (o+1, (w.getD 1 0#32)), (o+2, (w.getD 2 0#32)), (o+3, crcWords w)]) }), modLed b0 (fun l => { l with scan := true, snapRead := true })]
def lg (n : Nat) : State := ledS.getD n State.reset

def rq (l : Nat) (k : ReqKind) (stg : ReqStage) (e : List (Fin 16 × BitVec 2)) : PoolReq := { line := l, src := .turnstile, kind := k, hint := 0#2, age := 511, spec := false, stage := stg, left := 0, errs := e, prior := [] }
def pool (l : List PoolReq) : State := modMc b0 (fun m => { m with pool := l })
def bk (r : Option (BitVec 16)) (idle : Nat) : Bank := { row := r, pred := 1#2, leftOpen := true, idle := idle, raa := 5, toCol := 0, toPre := 0, toAct := 0 }
def sb (s : State) (f : SubCh → SubCh) : State := modMc s (fun m => { m with sub := m.sub.map f })
def trn (s : State) : State := modLed (modMc (modLife s (fun l => { l with cond := .booting })) (fun m => { m with trained := false })) (fun l => { l with scan := false })
def rst (s : State) : State := modLed s (fun l => { l with words := [(0x800, 0x94000000#32), (0xBFF, 0xCF7D5BE5#32)] })
def mcS : List State := [b0, trn b0, modMc (trn b0) (fun m => { m with trainFail := some (false, 3#4), linkCount := 0xFFF#12 }), rst (trn b0)] ++
  [.read, .scrub, .write, .merge, .rewrite].flatMap (fun k => [pool [rq 0x10 k .waiting []], sb (pool [rq 0x10 k .waiting []]) (fun x => { x with banks := [(0, bk (some 0#16) 3)] }), pool [rq 0x10 k .issued []], pool [rq 0x10 k .issued [(3,0)]], pool [rq 0x4000013 k .issued [], rq 7 .read .waiting []], sb (pool [rq 0x4000010 k .waiting []]) (fun x => { x with banks := [(0, bk (some 3#16) 3)] })]) ++
  [sb b0 (fun x => { x with banks := [(0, bk (some 0#16) 300),(5, bk (some 2#16) 255),(7, bk none 400)], dist := [(3, (5#16, 9))], slfail := 255#8, hot := true, cool := 30, scrub := 5 }), sb b0 (fun x => { x with hot := true, cool := 31, lane := 4, scrub := 0x3FFFFFF }),
   sb b0 (fun x => { x with open_ := [{ line := 0x10, alerts := 0#2, left := 3 }] }), sb b0 (fun x => { x with open_ := [{ line := 0x10, alerts := 2#2, left := 3 }], owed := 1#2 }), sb b0 (fun x => { x with stuck := true }),
   modMc b0 (fun m => { m with panic := true }), modWins (modDisp (modStrap b0 7 (fun p => { p with level := 4#3 })) (fun d => { d with dlres := 0#3 })) [(0xC000, 1#24)]]
def mc (n : Nat) : State := mcS.getD n State.reset

def setSlot (s : State) (n : Fin 8) (f : Slot → Slot) : State := modSw s (fun w => { w with slots := w.slots.set n (f w.slots[n]) })
def awk (s : State) : State := modT s 0 0 (fun th => { th with status := .running })
def rmap (l : List (Nat × Payload)) (s : State) : State := modC (modP s (fun p => { p with regmap := 2#24 })) 0 (putMem ([0x800, 0xB00].flatMap (fun a => (List.range 256).map (fun i => (a + i, fix (mapAt 0#24 l i))))))
def ml : List (Nat × Payload) := [(0, 0xC00000#24), (3, 0xA00000#24), (5, 0xD00000#24)]
def ml2 : List (Nat × Payload) := [(0, 0xC00000#24), (3, 0x200000#24), (5, 0xD00000#24)]
def enS (l : List (Nat × Payload)) (s : State) : State := setSlot s 0 (fun x => { x with en := true, asid := 1#8, side := 0x10#22, map := l })
def scS : List State := [b0, setSlot (rmap ml b0) 0 (fun x => { x with side := 0x10#22 }), setSlot (rmap ml2 b0) 0 (fun x => { x with side := 0x10#22 }), setSlot (setSlot (rmap ml b0) 0 (fun x => { x with side := 0x10#22 })) 3 (fun x => { x with en := true, asid := 5#8 }),
  enS ml (rmap ml b0), setSlot (modWin (enS (ml ++ (List.range 247).map (fun i => (i + 6, 0x200000#24))) (rmap ml b0)) 0x2000 0x600#24) 0 (fun x => { x with logovf := true }), modSw (enS ml b0) (fun w => { w with phase := .mark }),
  enS [(2, 0x200000#24), (4, 0x280000#24)] b0, setSlot (enS [(2, 0x200000#24), (4, 0x280000#24)] b0) 0 (fun x => { x with handed := [(2, 64), (4, 7)] }), setSlot (enS [(2, 0x200000#24), (4, 0x280000#24)] b0) 0 (fun x => { x with handed := [(2, 64), (4, 7)], pitch := [(0, (5, 10))] })]
def sc (n : Nat) : State := scS.getD n State.reset

def x0 (s : State) : State := setSlot (modP s (fun p => { p with regmap := 2#24, hatbase := 0x20#24, hatsize := 8#24, ptbase := 0x30#24 })) 0 (fun x => { x with en := true, asid := 1#8, side := 0x10#22, map := [(2, 0x600000#24), (3, 0x280000#24), (4, 0x200000#24)] })
def pagesAt (v : Cell) : List (Nat × Cell) := [(0x2401, v), (0x80AF, fixN 9), (0x80EE, fixN 11), (0xC024, fix 0x010080#24), (0xC025, fix 0xB00003#24), (0xC026, fix 0#24), (0xC02C, fix 0x0100C0#24), (0xC02D, fix 0xB00003#24), (0xC02E, fix 0#24)]
def syS : List State := [modC (modSw (x0 b0) (fun w => { w with logHead := 5#10, logOcc := 3#11 })) 0 (fun ch => putMem [(0x4000 + 0x80000 + 3, raw 5#24)] (putNear [(0xF402, raw 0x35#24)] ch)),
  modC (modSw (x0 b0) (fun w => { w with logHead := 5#10, logOcc := 3#11, phase := .mark })) 0 (fun ch => putMem [(0x4000 + 0x80000 + 3, raw 5#24)] (putNear [(0xF402, raw 0x3A#24)] ch)),
  modWins (modSw (x0 b0) (fun w => { w with phase := .roots, queue := (List.range 4096).map fixN })) [(0x2005, 4#24), (0x2006, 1#24)], modWins (modSw (x0 b0) (fun w => { w with phase := .mark, spilled := 16, queue := (List.range 4100).map fixN })) [(0x2005, 4#24), (0x2006, 1#24)],
  setSlot (modSw (x0 b0) (fun w => { w with phase := .mark, planned := true })) 0 (fun x => { x with map := [(5, 0x200000#24)] }),
  modC (modSw (x0 b0) (fun w => { w with phase := .evacuate, copy := some { src := 0x20000, len := 4, k := 1, dst := 0x30010 } })) 0 (putMem (pagesAt (mkCell tVEC 2#2 0x050010#24))),
  modC (modSw (x0 b0) (fun w => { w with phase := .evacuate, copy := some { src := 0x20000, len := 4, k := 1, dst := 0x30010 } })) 0 (putMem (pagesAt (mkCell tVEC 1#2 0x020010#24))),
  modSw (x0 b0) (fun w => { w with phase := .evacuate }), modT (modSw (x0 b0) (fun w => { w with phase := .evacuate })) 0 3 (fun _ => th0),
  modWin (modSw (x0 b0) (fun w => { w with phase := .fixup, planned := true, toSpace := [3, 4], toBlocks := [0x40000], marks := [0x500, 0x501] })) 0x2000 1#24, modSw (x0 b0) (fun w => { w with phase := .fixup, planned := true, toSpace := [3], toBlocks := [], marks := [] })]
def sy (n : Nat) : State := syS.getD n State.reset

def lv (s : State) (n : Fin 8) (l : BitVec 3) : State := modStrap s n (fun p => { p with level := l, decided := true })
def d0 : State := lv b0 7 4#3
def fr (s : State) : State := modWins (modDisp s (fun d => { d with dlres := 0#3, hpd := true, unchanged := 5, planes := d.planes.map (fun p => { p with ctl := 0xFF01#24 }) })) [(0xC000, 0xFFFFFF#24), (0xC00A, 0x800004#24), (0xC405, 0x123456#24), (0xC400, 7#24)]
def diS : List State := [b0, d0, modDisp d0 (fun d => { d with aux := some (1#2, 2#4) }), modDisp d0 (fun d => { d with aux := some (0#2, 2#4) }), modDisp d0 (fun d => { d with psr := true, unchanged := 9 }), modWin (modDisp d0 (fun d => { d with psr := true, hpd := true })) 0xC000 0xFFFFFF#24,
  modDisp d0 (fun d => { d with training := some (2#2, 2#2), hpd := true, timing := d.timing.set 0 100#24 }), modDisp d0 (fun d => { d with training := some (2#2, 2#2), hpd := true, timing := d.timing.set 0 0x3FFFF#24 }), modWin (modDisp d0 (fun d => { d with training := some (3#2, 1#2) })) 0xC000 0xFFFFFF#24, fr d0, modDisp (fr d0) (fun d => { d with psr := true }), modWin (modDisp d0 (fun d => { d with aux := some (2#2, 2#4) })) 0xC000 0xFFFFFF#24]
def p0 (kdeb : Nat) : State := modWins b0 [(0x14000, 0xFFFFFF#24), (0x14006, 100#24), (0x14007, 50#24), (0x14008, 1000#24), (0x14009, 0x800000#24), (0x1400A, 0x801234#24), (0x16000, 0x030071#24 ||| 0x000700#24 ||| BitVec.ofNat 24 (kdeb * 4096)), (0x1600C, 0xFF#24), (0x16015, 0xFFFF#24), (0x403, 2#24), (0x1601D, 8#24), (0x18000, 0x100#24)]
def pnS : List State := [p0 0, p0 3, modPanel (p0 3) (fun p => { p with disagree := [(9, 2)] }), modPanel (p0 3) (fun p => { p with disagree := [(9, 1)], keys := 0x200#64 }), modPanel (p0 1) (fun p => { p with keyq := List.replicate 16 (true, 3) }), modPanel (p0 1) (fun p => { p with keyq := [(true, 3), (false, 4)], limit := 4095#12 }),
  modWin (p0 1) 0x14006 10#24, modPanel (p0 1) (fun p => { p with i2c := some 0#4 }), modPanel (p0 1) (fun p => { p with i2c := some 2#4 }), modPanel (p0 1) (fun p => { p with gpin := 0xAA#8, enc := p.enc.map (fun _ => { a := true, b := false, count := 0xFFFF#16, err := 255#8 }) }), modPanel (p0 1) (fun p => { p with enc := p.enc.map (fun _ => { a := true, b := true, count := 0#16, err := 2#8 }) }), b0]
def tc0 : State := modWins (lv b0 6 3#3) [(0x10000, 0x102#24), (0x10005, 0x064064#24), (0x10006, 0x032064#24), (0x10007, 5#24), (0x1000B, 0x820064#24)]
def ct (i : Nat) (e : BitVec 2) : Contact := { id := i, evt := e, glove := false, x := 100, y := 200, area := 4, peak := 100 }
def tr (s : State) : State := modTouch s (fun t => { t with run := true, fresh := true, thr1 := 0x064064#24, thr2 := 0x032064#24, track := 5#24, contacts := [ct 0 1#2, ct 3 2#2, ct 5 3#2], seq := 0xFFFFFF#24, base := [(0, 5#16)] })
def noScan (s : State) : State := modWin s 0x10000 0x100#24
def touS : List State := [tc0, modTouch tc0 (fun t => { t with vtxf := true }), tr tc0, modTouch (tr tc0) (fun t => { t with water := true, filmX := true, appr := true }), noScan tc0, modTouch (noScan tc0) (fun t => { t with aReady := true, aBase := 50#24 }), modTouch (noScan tc0) (fun t => { t with aReady := true, aRuns := 1, aBase := 50#24 }), modTouch (noScan tc0) (fun t => { t with aReady := true, aRuns := 5, aBase := 50#24, appr := true })]
def di (n : Nat) : State := diS.getD n State.reset
def pn (n : Nat) : State := pnS.getD n State.reset
def tou (n : Nat) : State := touS.getD n State.reset

def hf (i : Fin 3) (n : Nat) (com : Bool) : HostFrame := { iface := i, committed := com, sqe := true, ide := false, fdf := false, brs := false, rtr := false, ident := 5#29, seqpos := 4#11, data := List.replicate n 7#8 }
def sqOn (s : State) : State := modSq s (fun q => { q with porN := true, straps := Vector.ofFn (fun i : Fin 4 => { q.straps[i] with decided := true, level := if i = 0 then 0#3 else 1#3 }), eth := { q.eth with link := true } })
def modPort (s : State) (k : Fin 4) (f : Port → Port) : State := modSq s (fun q => { q with ports := q.ports.set k (f q.ports[k]) })
def flt (i : Fin 4) : Filter := { iface := i, value := 0#64, mask := 0#64 }
def fltNo (i : Fin 4) : Filter := { iface := i, value := 0xFFFFFFFFFFFFFFFF#64, mask := 0xFFFFFFFFFFFFFFFF#64 }
def q0 : State := sqOn b0
def mb (s : State) (k : Nat) (c0 c1 c2 : Payload) : State := modWins s [(0x20800 + 512 * k, c0), (0x20801 + 512 * k, c1), (0x20802 + 512 * k, c2), (0x20803+512*k, 0x112233#24)]
def rxf (n : Nat) : RxFrame := { frame := hf 2 60 false, filter := n, replay := false, time := 3#24 }
def txf (i : Fin 3) : TxFrame := { frame := hf i 60 true, held := false, mark := none }
def txc (i : Fin 3) : TxFrame := { frame := hf i 8 true, held := false, mark := none }
def mbs : List State := [mb (mb q0 0 0x000008#24 5#24 0#24) 1 0x20003C#24 5#24 0#24, mb (mb q0 0 0x800040#24 5#24 0#24) 1 0xA0003C#24 5#24 0#24, mb q0 0 0x900050#24 5#24 6#24, mb q0 0 0x100008#24 5#24 6#24, mb q0 0 0xC00008#24 5#24 6#24]
def rxs (s : State) (l : List Filter) (n h : Nat) : State := modPort s 0 (fun p => { p with filters := l, ring := (List.range n).map rxf, handover := (List.range h).map rxf, rpgap := 9#24 })
def poS : List State := [b0] ++ mbs ++ mbs.map (fun s => modPort s 0 (fun p => { p with queue := List.replicate 64 (txf 2) })) ++ mbs.map (fun s => modPort (modPair s (fun p => { p with role := .active })) 0 (fun p => { p with seqI := 32767#16, seqC := 0xFFFF#16 })) ++
 [rxs q0 [fltNo 2, flt 2, flt 2] 0 0, rxs q0 [fltNo 2, flt 3] 1 0, rxs q0 [flt 2] 64 0, modWin (rxs q0 [flt 2] 63 1) 0x20001 0xFF#24, modWin (rxs q0 [flt 2] 64 1) 0x20001 0xFF#24, modWin (rxs q0 [flt 2] 64 0) 0x20001 0xFF#24, modPair (rxs q0 [flt 2] 3 0) (fun p => { p with role := .active }), modLife (rxs q0 [flt 2] 3 0) (fun l => { l with cond := .held }),
  modSq q0 (fun q => { q with can := q.can.map (fun k => { k with pexc := 255#8 }) }), modSq q0 (fun q => { q with can := q.can.map (fun k => { k with state := .off }), unowned := 0xFFFFFF#24 })]
def tx1 (e : TxFrame) (l : Bool) : State := modWin (modSq (modPort q0 0 (fun p => { p with queue := [e] })) (fun q => { q with eth := { q.eth with link := l } })) 0x20001 0xFF#24
def sqS : List State := [tx1 (txf 2) true, tx1 (txf 2) false, tx1 (txc 0) true, tx1 (txc 1) true, modSq (tx1 (txc 0) true) (fun q => { q with can := q.can.map (fun k => { k with tec := 125, rec_ := 3 }) }), modSq (tx1 (txc 0) true) (fun q => { q with can := q.can.map (fun k => { k with tec := 5, waiting := true, state := .off }) }),
  modSq q0 (fun q => { q with unownedNow := 77 }), modLife (modPort q0 0 (fun p => { p with armed := true, gasp := #v[some (hf 0 8 false), none, some (hf 2 60 false)], queue := [txf 2] })) (fun l => { l with cond := .halted }),
  modWin (modPort q0 1 (fun p => { p with queue := [txf 2], ring := [rxf 3], replay := [], wasFull := true })) 0x20001 0xFF#24]
def po (n : Nat) : State := poS.getD n State.reset
def sq (n : Nat) : State := sqS.getD n State.reset

def pr (s : State) : State := modSq (sqOn s) (fun q => { q with straps := Vector.ofFn (fun i : Fin 4 => { q.straps[i] with decided := true, level := 1#3 }) })
def modP2 (s : State) (k : Chan) (f : Pair → Pair) : State := modC s k (fun ch => { ch with pair := f ch.pair })
def sby (buf : List (BitVec 24 × MirrorRec)) (ap : Nat) (r0 r1 : Role) : State := modP2 (modC (modP2 (pr b0) 0 (fun p => { p with role := r0, linkUp := true, undo := [(5, 6#32)] })) 1 (fun ch => run0 ch)) 1 (fun p => { p with role := r1, linkUp := true, buf := buf, applied := ap })
def swap (s : State) : State := { s with chans := #v[s.chan 1, s.chan 0, s.chan 2, s.chan 3] }
def bufs : List (List (BitVec 24 × MirrorRec)) := [[(4#24, .idle)], [(4#24, .store 0x10 [(3, fixI 99)]), (5#24, .idle)], [(4#24, .commit 7#24 [(3#11, fixI 5)]), (5#24, .idle)], [], [(4#24, .commit 7#24 [])], [(4#24, .copy 0x10 (Vector.replicate 16 fix0))]]
def undo0 (s : State) : State := modP2 s 0 (fun p => { p with undo := [] })
def lead (s : State) : State := modWins (modClk s (fun k => { k with tb := 5000#48 })) [(0x8001, 7#24)]
def img3 : Image := { entry := 0x104#24, stack := 0x200#24, vpage := 2, digest := [], patch := none, attr := [], setup := none, cal := none }
def pairS : List State := bufs.map (fun b => sby b 0 .standby .active) ++ bufs.map (fun b => sby b 1 .standby .active) ++ [sby (bufs.getD 1 []) 0 .joining .joiningActive, sby (bufs.getD 5 []) 0 .joining .joiningActive] ++
  bufs.map (fun b => lead (swap (sby b 1 .standby .active))) ++ bufs.map (fun b => lead (swap (sby b 0 .joining .joiningActive))) ++ [modP2 (lead (swap (sby [] 0 .standby .active))) 0 (fun p => { p with backSince := some 4935 }), modP2 (lead (swap (sby [] 0 .standby .active))) 0 (fun p => { p with lastCommit := 4990 }),
   modC (lead (swap (sby (bufs.getD 1 []) 0 .standby .active))) 1 (fun ch => { ch with life := { ch.life with cond := .halted } }),
   modP2 (modLife (sby [] 0 .joining .alone) (fun l => { l with cond := .booting })) 0 (fun p => { p with linkUp := false }),
   modBoot (modC (modP2 (modLife (sby [] 0 .standby .active) (fun l => { l with cond := .standby })) 0 (fun p => { p with undo := [(0x102, fixI 5)], epoch := 6#24 })) 1 (fun ch => { ch with life := { ch.life with cond := .halted } })) (fun b => { b with image := some img3 })]
def tq (n : Nat) (st : Bool) (h : Nat) : State := modPerf (modWins b0 [(0x1800, 0xC00000#24)]) (fun p => { p with queue := [(true, #v[fixI 1, fixI 2, fixI 3, fixI 4]), (false, #v[fixI 1, fixI 2, fixI 3, fixI 4])], count := n, stopped := st, head := BitVec.ofNat 9 h })
def perfS : List State := [b0, tq 5 false 7, tq 511 false 511, tq 512 true 3, tq 510 false 511, tq 40 true 3, modLed b0 (fun l => { l with items := [.counts], counts := { l.counts with wrap0 := 0xFFFFFF#24 } }), modClk b0 (fun k => { k with sticky := 0x3F#6 })]
def pa (n : Nat) : State := pairS.getD n State.reset
def pf (n : Nat) : State := perfS.getD n State.reset

def issS : List State := [modT b0 0 0 (fun th => { th with pstate := 0#24 }), modPerf (modWins (modT b0 0 0 (fun th => { th with pstate := 2#24 })) [(0x1800, 0xFFFFFF#24),(0x1801, 0xFFFFFF#24)]) (fun p => { p with marked := 3#2 }), modT b0 0 0 (fun th => { th with sync := some { vector := 3#10, addr := fix0, icell := fix0, ret := 0#24, kind := 0#2 } }), modLife b0 (fun l => { l with cond := .halted })] ++ [fix 0x20000000#24, mkCell tPSN 0#2 1#24, mkCell tRETA 0#2 1#24, mkCell 0x3F#6 0#2 3#24].flatMap (fun v => [modT b0 0 0 (setR 1 v), modT b0 0 0 (setR 2 v)])
def iss (n : Nat) : State := issS.getD n State.reset

def accS : List State := [0x7FFFFFFFFFFFFF#56, 0x80000000000000#56, 5#56].flatMap (fun a => [(4194304, 4194304), (-4194304, 4194304), (3, 5)].map (fun x => modT b0 0 0 (fun th => setR 1 (fixI x.1) (setR 2 (fixI x.2) { th with acc := a }))))
def ac (n : Nat) : State := accS.getD n State.reset
/-- Thread 0 with a root request of the sweeper, in and out of its space. -/
def root (ph : Phase) (asid : BitVec 8) (f : Option VAddr) : State :=
  modSw (modT b0 0 0 (fun th => { th with rootReq := true, rootPend := false, asid := asid, frame := f })) (fun w => { w with phase := ph, slots := w.slots.set 0 { slotReset with en := true, asid := 1#8 } })
def roS : List State := [root .roots 2#8 none, root .roots 1#8 none, root .fixup 1#8 none]
def ro (n : Nat) : State := roS.getD n State.reset
/-- Channel 0 out of waiting times: retries, windows, monitoring, stale threads, pre-wake, self-refresh. -/
def old (s : State) : State := modSq (modClk (modMc (modBoot s (fun b => { b with waited := 327680 })) (fun m => { m with waited := 327680, retryWait := true, sub := m.sub.map (fun x => { x with winLen := 5, winAge := 7 }) }))
  (fun k => { k with monWait := 1966080, staleFor := 256 })) (fun q => { q with monWait := 1966080, straps := q.straps.map (fun p => { p with decided := true }) })
def waS : List State := [old b0, old (mc 2), old (bo 9), old (drift b0), old (sp 13), modLife (modClk b0 (fun k => { k with tb := 98#48, wake := k.wake.set 3 { armed := true, cmp := 100#48 } })) (fun l => { l with preWake := true, power := .idle, gated := 3#2 }),
  modMc (pw .sleep 2 b0) (fun m => { m with selfRef := true, pool := [rq 0x10 .read .waiting []] }), bt b0 (fun b => { b with stage := .attempt, flash := some (64#16, 0) }), modClk (wt 1) (fun k => { k with staleFor := 256 }), { b0 with pending := [.dctlDirty 0, .porReset] }, modLed (un 4) (fun l => { l with flaws := [(0x1805, false)] })]
def wa (n : Nat) : State := waS.getD n State.reset
def noFrame (s : State) : State := modT s 0 0 (fun th => { th with frame := none })
def rxS : List State := retS ++ [ret false (reta 0x44#24) (fixN 1) (psn 1#4) cNIL 1#24, ret false (reta 0x44#24) (fixN 1) (fixN 3) (fixN 5) 1#24, ret false (reta 0x44#24) (loc 3#24) (fixN 3) cNIL 1#24, ret true fix0 fix0 (psn 2#4) fix0 5#24, noFrame (ret true fix0 fix0 fix0 fix0 5#24)]
def rx (n : Nat) : State := rxS.getD n State.reset
def frameOf (n : Nat) (i : Nat) : Cell := (rx n).cell 0 (0x300 + i)
def slow (s : State) : State := sb s (fun x => { x with banks := (List.range 32).map (fun i => (i, { bk none 3 with toAct := 9, toPre := 9, toCol := 9 })) })
def mxS : List State := [slow (mc 4), slow (mc 5), sb (mc 5) (fun x => { x with toBus := 4 })]
def mx (n : Nat) : State := mxS.getD n State.reset
/-- The words of a control store with two patch words and two patch points. -/
def pat : Patch := { words := [(0, 0x123456#112), (3, 7#112)], points := [(0, (5#13, 9#10)), (2, (100#13, 3#10))], ident := 0x1234#16 }
def flipped (u : Nat) : CStore := { patchStore none with flips := [(u, 0x10000000000000000000000000000#116)] }
def coS : List State := [0x1F10, 0x1F3B, 7920].map (fun u => modC b0 0 (fun ch => { ch with core := ch.core.map (fun co => { co with store := flipped u }) })) ++
  [0x1F10, 7920 + 3].map (fun u => modC (ar 0) 0 (fun ch => { ch with core := ch.core.map (fun co => { co with checker := flipped u }) })) ++
  [0#24, 0x400000#24, 0x800000#24].map (fun a => modC (evOf b0 fix0 { se with vector := 32#10, addr := fix 0x800010#24, kind := 3#2 } id) 0 (fun ch => { ch with core := ch.core.map (fun co => { co with entryDiff := true }), proc := { ch.proc with attr := [(32, a)] } }))
def co (n : Nat) : State := coS.getD n State.reset
/-! ### What the witnesses use -/

/-- No thread waits, said without a mask. -/
theorem noWait {s : State} {c : Chan} (h : ∀ t : Fin 8, (s.thread c t).mask? = none) :
    ∀ (t : Fin 8) (k : Payload), (s.thread c t).status ≠ ThStatus.waiting k := by
  intro t k hk
  have := h t
  simp [Thread.mask?, hk] at this

/-- Whether a thread stands still, or waits with a mask that no pending signal ends. -/
def standsStill (s : State) (c : Chan) (u : Fin 8) : Bool :=
  match (s.thread c u).status with
  | .stopped => true
  | .waiting k => bit k 23 = false && (s.chan c).proc.pend.all (fun e => e.1 < 768 || bit k ((e.1 - 768) / 16) = false)
  | .running => false

theorem noneEnds {s : State} {c : Chan} (h : ∀ u : Fin 8, standsStill s c u = true) :
    ∀ (u : Fin 8), (s.thread c u).status = ThStatus.stopped ∨ ∃ k, (s.thread c u).status = ThStatus.waiting k ∧ bit k 23 = false ∧
      ∀ e ∈ (s.chan c).proc.pend, e.1 < 768 ∨ bit k ((e.1 - 768) / 16) = false := by
  intro u
  have := h u
  unfold standsStill at this
  split at this
  · exact .inl ‹_›
  · rename_i k hk
    simp only [Bool.and_eq_true, decide_eq_true_eq, List.all_eq_true, Bool.or_eq_true] at this
    exact .inr ⟨k, hk, this.1, this.2⟩
  · cases this

/-- The running CRC-32 after each 512 zero bytes, worked out with Python's zlib. -/
def zeroCrcs : List (BitVec 32) := [0xFFFFFFFF#32, 0x4D558A87#32, 0x104A50D1#32, 0x93E31E81#32, 0x0E174561#32, 0x0C8EE9B5#32, 0x9819367B#32, 0xC47D7783#32, 0x38E3FFEE#32, 0x6AF3D782#32, 0x94C33195#32, 0x4625821D#32, 0x35013CC0#32, 0xE110EF8A#32, 0xCF6EC82B#32, 0x928D0F03#32, 0x270B666B#32]
theorem crcBytes_append (c : BitVec 32) (a b : List Byte) : crcBytes c (a ++ b) = crcBytes (crcBytes c a) b := by
  induction a generalizing c with
  | nil => rfl
  | cons x r ih => exact ih _
/-- Running CRCs, each of k zero bytes after the one before. -/
theorem crc_chunks (cs : List (BitVec 32)) (k m : Nat) (h : ∀ i < m, crcBytes (cs.getD i 0) (List.replicate k 0#8) = cs.getD (i + 1) 0) :
    ∀ n, n ≤ m → crcBytes (cs.getD 0 0) (List.replicate (n * k) 0#8) = cs.getD n 0
  | 0, _ => by simp [crcBytes]
  | n + 1, hn => by
    rw [Nat.succ_mul, List.replicate_add, crcBytes_append, crc_chunks cs k m h n (by omega)]
    exact h n (by omega)
theorem zeroCrcs_eq : crcBytes 0xFFFFFFFF#32 (List.replicate (16 * 512) 0#8) = zeroCrcs.getD 16 0 :=
  crc_chunks zeroCrcs 512 16 (by decide +kernel) 16 (Nat.le_refl _)
/-- The running CRC-32 after 0x94000000 and after each 511 zero bytes of the 1,022 words that follow it, worked out with Python's zlib. -/
def wordCrcs : List (BitVec 32) := [0x29D977BE#32, 0xF7D0B9DE#32, 0xCEE43106#32, 0x0518669B#32, 0x4892350A#32, 0x1A0A695D#32, 0x8C8B37DD#32, 0xBFB888D7#32, 0x3082A41A#32]
theorem training_crc : crcWords (0x94000000#32 :: List.replicate 1022 0#32) = 0xCF7D5BE5#32 := by
  have h : (0x94000000#32 :: List.replicate 1022 0#32).flatMap wordBytes = wordBytes 0x94000000#32 ++ List.replicate (8 * 511) 0#8 := by decide +kernel
  have h0 : crcBytes 0xFFFFFFFF#32 (wordBytes 0x94000000#32) = wordCrcs.getD 0 0 := by decide +kernel
  rw [crcWords, h, crc32, crcBytes_append, h0, crc_chunks wordCrcs 511 8 (by decide +kernel) 8 (Nat.le_refl _)]
  decide +kernel
/-- The newer copy of the training item where copy A alone is valid. -/
theorem training_item {l : Ledger} (va : l.validAt 0x800 1024 (fun k => k = 0x25#6) = true) (vb : l.validAt (0x800 + 1024) 1024 (fun k => k = 0x25#6) = false) :
    l.item false .training = some (l.wordsAt 0x801 1022) := by
  have hn : l.newestCopy false .training = some 0x800 := by
    show (if (l.validAt 0x800 1024 (fun k => k = 0x25#6) && l.validAt (0x800 + 1024) 1024 (fun k => k = 0x25#6)) = true
      then _ else if l.validAt 0x800 1024 (fun k => k = 0x25#6) = true then some 0x800 else _) = _
    rw [va, vb]; rfl
  rw [Ledger.item, hn]; rfl
/-- A training record whose commit word is right and whose levels are the straps' is restorable. -/
theorem mc_restorable : ((mc 3).chan 0).restorable = true := by
  have hw : ((mc 3).chan 0).led.wordsAt 0x800 1023 = 0x94000000#32 :: List.replicate 1022 0#32 := by decide +kernel
  have hl : ((mc 3).chan 0).led.word (0x800 + 1024 - 1) = 0xCF7D5BE5#32 := by decide +kernel
  have hk : decide ((((mc 3).chan 0).led.word 0x800).extractLsb' 26 6 = 0x25#6) = true := by decide +kernel
  have hr : (upFrom 0x800 1024).all (fun i => !((mc 3).chan 0).led.unreadable i && !((mc 3).chan 0).led.worn.contains i) = true := by decide +kernel
  have va : ((mc 3).chan 0).led.validAt 0x800 1024 (fun k => k = 0x25#6) = true := by
    rw [Ledger.validAt, hk, hr, hl, show 1024 - 1 = 1023 from rfl, hw, training_crc]; rfl
  have vb : ((mc 3).chan 0).led.validAt (0x800 + 1024) 1024 (fun k => k = 0x25#6) = false := by decide +kernel
  have hi : ((mc 3).chan 0).led.item false .training = some (((mc 3).chan 0).led.wordsAt 0x801 1022) := training_item va vb
  rw [Channel.restorable, hi]
  decide +kernel
/-- The sections of `imgOk` hold what their CRCs say. -/
theorem imgOk_loads {m : Mach} (load : Bool) (hm : 0x1000 ≤ m.ch.memCells - 0x400000) : (m.loadSections imgOk load 0 (sections imgOk)).1 = none := by
  have hs : sections imgOk = [⟨1, 0x500, 256, 0x100, 0xD2D7BA42#32⟩, ⟨3, 0x600, 8192, 0x800, 0xD8F49994#32⟩] := by decide +kernel
  have h1 : crc32 (slice imgOk 0x500 256) = 0xD2D7BA42#32 := by decide +kernel
  have l1 : (slice imgOk 0x500 256).length = 256 := by decide +kernel
  have hz : slice imgOk 0x600 8192 = List.replicate (16 * 512) 0#8 := by decide +kernel
  have h2 : crc32 (slice imgOk 0x600 8192) = 0xD8F49994#32 := by rw [hz, crc32, zeroCrcs_eq]; decide +kernel
  have l2 : (slice imgOk 0x600 8192).length = 8192 := by rw [hz, List.length_replicate]
  have ha : (attrCells (slice imgOk 0x600 8192)).all attrCellOk = true := by rw [hz]; decide +kernel
  have hc (x : Mach) (a : Nat) (vs : List Cell) : (x.loadCells a vs).ch.memCells = x.ch.memCells := rfl
  have k1 : ¬ m.ch.memCells - 0x400000 < 0x100 + 64 := by omega
  have k2 : ¬ m.ch.memCells - 0x400000 < 0x800 + 2048 := by omega
  rw [hs]
  cases load <;> simp [Mach.loadSections, Sect.isCells, hc, h1, l1, h2, l2, ha, k1, k2]

/-- A run of keys is found where it stands. -/
theorem mapGet_run {α : Type} (g : Nat → α) (a : Nat) : ∀ n s k, s ≤ k → k < s + n → mapGet ((List.range' s n).map (fun i => (a + i, g i))) (a + k) = some (g k)
  | 0, _, _, _, _ => by omega
  | n + 1, s, k, h, h' => by
    rw [List.range'_succ, List.map_cons, mapGet]
    split
    · rename_i e; rw [show s = k by omega]
    · rename_i e
      exact mapGet_run g a n (s + 1) k (by omega) (by omega)
theorem vt_place (k : Nat) (h : k < 2048) (bad : Nat) (v : Cell) : ((vt bad v).chan 0).place (0x800 + k) = .memory := by
  have h1 : ((vt bad v).chan 0).pair.inPair = false := rfl
  have h2 : ((vt bad v).chan 0).memCells = 0x80000000 := by rfl
  rw [Channel.place, Channel.undoArea, h1, h2]
  simp; omega
theorem vt_cell (k : Nat) (h : k < 2048) (bad : Nat) (v : Cell) : (vt bad v).cell 0 (0x800 + k) = vtCell bad v k := by
  have hm : ((vt bad v).mach 0).ch.phys.mem = (List.range 2048).map (fun i => (0x800 + i, eccWrite (0x800 + i) (vtCell bad v i))) := rfl
  have hp : ((vt bad v).mach 0).ch.place (0x800 + k) = .memory := vt_place k h bad v
  rw [State.cell, Mach.peek, hp]
  show (eccRead (0x800 + k) (((vt bad v).mach 0).memBits (0x800 + k))).2 = _
  rw [Mach.memBits, hm, List.range_eq_range', mapGet_run _ _ 2048 0 k (by omega) (by omega)]
  simp
/-- The attribute cells of a table all of whose cells are FIX 0 but the bad one and vector 40's. -/
theorem vt_attrs (bad : Nat) (v : Cell) (p : Cell → Prop) (h : ∀ w < 1024, p (vtCell bad v (2 * w + 1))) :
    ∀ w < 1024, p ((vt bad v).cell 0 (2 * 1024 + 2 * w + 1)) := by
  intro w hw
  have := vt_cell (2 * w + 1) (by omega) bad v
  rw [show 2 * 1024 + 2 * w + 1 = 0x800 + (2 * w + 1) by omega, this]
  exact h w hw

/-- A stored word with a parity bit flipped fails parity. -/
theorem flip_fails (d : BitVec 112) : parityOk (withParity d ^^^ 0x10000000000000000000000000000#116) = false := by
  have hx : (withParity d ^^^ 0x10000000000000000000000000000#116).setWidth 112 = d := by
    rw [withParity, BitVec.setWidth_xor, BitVec.setWidth_append]
    simp
  rw [parityOk, hx, decide_eq_false_iff_not]
  intro h
  have := congrArg (withParity d ^^^ ·) h
  simp at this
theorem flipped_fails {u : Nat} (h : u < 8192) : parityOk ((flipped u).word u) = false := by
  have e : (flipped u).word u = withParity (romData u) ^^^ 0x10000000000000000000000000000#116 := by
    simp [CStore.word, flipped, mapAt, mapGet, h]
  rw [e, flip_fails]
theorem bad_0 : parityOk (((co 0).chan 0).core[coreOf 0].store.word (7936 + 16)) = false ∨ parityOk (((co 0).chan 0).core[coreOf 0].checker.word (7936 + 16)) = false :=
  .inl (by
    have h : ((co 0).chan 0).core[coreOf 0].store = flipped 7952 := by decide +kernel
    rw [h]; exact flipped_fails (by decide))
theorem bad_1 : parityOk (((co 1).chan 0).core[coreOf 0].store.word (7936 + 59)) = false ∨ parityOk (((co 1).chan 0).core[coreOf 0].checker.word (7936 + 59)) = false :=
  .inl (by
    have h : ((co 1).chan 0).core[coreOf 0].store = flipped 7995 := by decide +kernel
    rw [h]; exact flipped_fails (by decide))
/-- A side area lies in memory. -/
theorem side_place {ch : Channel} {x : Nat} (h : ch.pair.inPair = false ∧ ch.memCells = 0x80000000 ∧ x * 1024 + 540672 ≤ 0x80000000) :
    ∀ i < 540672, ch.place (x * 1024 + i) = Place.memory := by
  intro i hi
  rw [Channel.place, Channel.undoArea, h.1, h.2.1]
  simp; omega
theorem takes_second : (po 16).takes 0 (hf 2 60 false) 1 :=
  ⟨by decide +kernel, [fltNo 2], flt 2, [flt 2], by decide +kernel⟩
theorem takes_first : (po 18).takes 0 (hf 2 60 false) 0 :=
  ⟨by decide +kernel, [], flt 2, [], by decide +kernel⟩
/-- Cells found one by one are found. -/
theorem held_of {s : State} {a : Payload} {n : Nat} (v : Nat → Cell) (va : Nat → VAddr)
    (h : ∀ i < n, s.found 0 0 (a + BitVec.ofNat 24 i) = some (va i, v i)) : ∀ i < n, ∃ x, s.found 0 0 (a + BitVec.ofNat 24 i) = some (x, v i) :=
  fun i hi => ⟨_, h i hi⟩
theorem held_1 : ∀ i < 46, ∃ va, (rx 1).found 0 0 (768#24 + BitVec.ofNat 24 i) = some (va, frameOf 1 i) :=
  held_of (frameOf 1) (fun i => 768#24 + BitVec.ofNat 24 i) (by decide +kernel)
theorem held_3 : ∀ i < 46, ∃ va, (rx 3).found 0 0 (768#24 + BitVec.ofNat 24 i) = some (va, frameOf 3 i) :=
  held_of (frameOf 3) (fun i => 768#24 + BitVec.ofNat 24 i) (by decide +kernel)
theorem held_4 : ∀ i < 22, ∃ va, (rx 4).found 0 0 (768#24 + BitVec.ofNat 24 i) = some (va, frameOf 4 i) :=
  held_of (frameOf 4) (fun i => 768#24 + BitVec.ofNat 24 i) (by decide +kernel)
theorem held_5 : ∀ i < 46, ∃ va, (rx 5).found 0 0 (768#24 + BitVec.ofNat 24 i) = some (va, frameOf 5 i) :=
  held_of (frameOf 5) (fun i => 768#24 + BitVec.ofNat 24 i) (by decide +kernel)
theorem held_6 : ∀ i < 46, ∃ va, (rx 6).found 0 0 (768#24 + BitVec.ofNat 24 i) = some (va, frameOf 6 i) :=
  held_of (frameOf 6) (fun i => 768#24 + BitVec.ofNat 24 i) (by decide +kernel)
theorem held_7 : ∀ i < 46, ∃ va, (rx 7).found 0 0 (768#24 + BitVec.ofNat 24 i) = some (va, frameOf 7 i) :=
  held_of (frameOf 7) (fun i => 768#24 + BitVec.ofNat 24 i) (by decide +kernel)
theorem held_8 : ∀ i < 22, ∃ va, (rx 8).found 0 0 (768#24 + BitVec.ofNat 24 i) = some (va, frameOf 8 i) :=
  held_of (frameOf 8) (fun i => 768#24 + BitVec.ofNat 24 i) (by decide +kernel)
/-! ### Hypotheses met together -/

theorem test_hyps_IdleStepCountsOnePeriod :
    (b0.pending = []) := by
  and_intros <;> decide +kernel
theorem test_hyps_noIssueAtAnEventBoundaryClaim :
    ((Instr.nop 0 ⟨0, mkCell tINSTR 0#2 65536#24⟩).issuedBy = some (0, 0) ∧ (State.reset.mach 0).canIssue 0 = false) := by
  and_intros <;> decide +kernel
theorem test_hyps_privilegeFaultInUserCodeClaim :
    ((Instr.rete 0 0).issuedBy = some (0, 0) ∧ (Instr.rete 0 0).supCell = some 272302080#32 ∧ (ar 18).ready 0 0 = true ∧ ((ar 18).thread 0 0).sup = false) := by
  and_intros <;> decide +kernel
theorem test_hyps_movesAndTagsClaim :
    (b0.ready 0 0 = true ∧ cellTag (mkCell tINSTR 0#2 65536#24) = tINSTR ∧ cellPay (mkCell tINSTR 0#2 65536#24) = 65536#24) ∧
    (b0.ready 0 0 = true ∧ cellTag (fixI 3) ≠ tINSTR) ∧
    (b0.ready 0 0 = true ∧ cellTag (mkCell tINSTR 0#2 16711680#24) = tINSTR ∧ isInstr (mkCell tINSTR 0#2 16711680#24) = false) ∧
    (b0.ready 0 0 = true) ∧
    (b0.ready 0 0 = true ∧ (b0.thread 0 0).has 1 anyTag = true) := by
  and_intros <;> decide +kernel
theorem test_hyps_retaggingClaim :
    (b0.ready 0 0 = true ∧ (b0.thread 0 0).has 1 anyTag = true ∧ (openTag 0#6 = true ∧ openTag (cellTag ((b0.thread 0 0).reg 1)) = true ∨ 0#6 = tCONST ∧ openTag (cellTag ((b0.thread 0 0).reg 1)) = true ∧ cellPay ((b0.thread 0 0).reg 1) ≤ 3#24 ∨ isUP 0#6 = true ∧ isUP (cellTag ((b0.thread 0 0).reg 1)) = true ∨ (isPtr 0#6 = true ∨ 0#6 = tINSTR ∨ 0#6 = tHDR ∨ 0#6 = tFREE) ∧ (b0.thread 0 0).sup = true ∧ cellTag ((b0.thread 0 0).reg 1) = tFIX)) ∧
    (b0.ready 0 0 = true ∧ (b0.thread 0 0).has 1 anyTag = true ∧ ¬(openTag 63#6 = true ∧ openTag (cellTag ((b0.thread 0 0).reg 1)) = true ∨ 63#6 = tCONST ∧ openTag (cellTag ((b0.thread 0 0).reg 1)) = true ∧ cellPay ((b0.thread 0 0).reg 1) ≤ 3#24 ∨ isUP 63#6 = true ∧ isUP (cellTag ((b0.thread 0 0).reg 1)) = true ∨ (isPtr 63#6 = true ∨ 63#6 = tINSTR ∨ 63#6 = tHDR ∨ 63#6 = tFREE) ∧ (b0.thread 0 0).sup = true ∧ cellTag ((b0.thread 0 0).reg 1) = tFIX)) := by
  and_intros <;> decide +kernel
theorem test_hyps_FixArithmetic :
    (b0.ready 0 0 = true ∧ (b0.thread 0 0).has 1 fixTag = true ∧ (b0.thread 0 0).has 1 fixTag = true ∧ -8388608 ≤ (b0.thread 0 0).int 1 + (b0.thread 0 0).int 1 ∧ (b0.thread 0 0).int 1 + (b0.thread 0 0).int 1 ≤ 8388607) ∧
    ((ar 2).ready 0 0 = true ∧ ((ar 2).thread 0 0).has 1 fixTag = true ∧ ((ar 2).thread 0 0).has 1 fixTag = true ∧ ¬(-8388608 ≤ ((ar 2).thread 0 0).int 1 + ((ar 2).thread 0 0).int 1 ∧ ((ar 2).thread 0 0).int 1 + ((ar 2).thread 0 0).int 1 ≤ 8388607)) ∧
    (b0.ready 0 0 = true ∧ (b0.thread 0 0).has 1 fixTag = true ∧ (b0.thread 0 0).has 1 fixTag = true ∧ -8388608 ≤ (b0.thread 0 0).int 1 - (b0.thread 0 0).int 1 ∧ (b0.thread 0 0).int 1 - (b0.thread 0 0).int 1 ≤ 8388607) ∧
    ((ar 2).ready 0 0 = true ∧ ((ar 2).thread 0 0).has 3 fixTag = true ∧ ((ar 2).thread 0 0).has 1 fixTag = true ∧ ¬(-8388608 ≤ ((ar 2).thread 0 0).int 3 - ((ar 2).thread 0 0).int 1 ∧ ((ar 2).thread 0 0).int 3 - ((ar 2).thread 0 0).int 1 ≤ 8388607)) ∧
    (b0.ready 0 0 = true ∧ (b0.thread 0 0).has 1 fixTag = true ∧ (b0.thread 0 0).has 1 fixTag = true ∧ -8388608 ≤ (b0.thread 0 0).int 1 + (0#6).toInt ∧ (b0.thread 0 0).int 1 + (0#6).toInt ≤ 8388607) ∧
    ((ar 2).ready 0 0 = true ∧ ((ar 2).thread 0 0).has 1 fixTag = true ∧ ((ar 2).thread 0 0).has 1 fixTag = true ∧ ¬(-8388608 ≤ ((ar 2).thread 0 0).int 1 + (32#6).toInt ∧ ((ar 2).thread 0 0).int 1 + (32#6).toInt ≤ 8388607)) := by
  and_intros <;> decide +kernel
theorem test_hyps_BitOperations :
    (b0.ready 0 0 = true ∧ (b0.thread 0 0).has 1 isBits = true ∧ (b0.thread 0 0).has 1 isBits = true ∧ cellTag ((b0.thread 0 0).reg 1) = cellTag ((b0.thread 0 0).reg 1)) ∧
    ((ar 7).ready 0 0 = true ∧ ((ar 7).thread 0 0).has 1 isBits = true ∧ ((ar 7).thread 0 0).has 2 isBits = true ∧ cellTag (((ar 7).thread 0 0).reg 1) ≠ cellTag (((ar 7).thread 0 0).reg 2)) ∧
    (b0.ready 0 0 = true ∧ (b0.thread 0 0).has 1 isBits = true ∧ (b0.thread 0 0).has 1 fixTag = true ∧ 0 ≤ (b0.thread 0 0).int 1) ∧
    ((ar 1).ready 0 0 = true ∧ ((ar 1).thread 0 0).has 1 isBits = true ∧ ((ar 1).thread 0 0).has 1 fixTag = true ∧ ((ar 1).thread 0 0).int 1 < 0) ∧
    (b0.ready 0 0 = true ∧ (b0.thread 0 0).has 1 isBits = true) := by
  and_intros <;> decide +kernel
theorem test_hyps_Comparisons :
    (b0.ready 0 0 = true ∧ (b0.thread 0 0).has 1 anyTag = true ∧ (b0.thread 0 0).has 1 anyTag = true) ∧
    (b0.ready 0 0 = true ∧ (b0.thread 0 0).has 1 fixTag = true ∧ (b0.thread 0 0).has 1 fixTag = true) ∧
    (b0.ready 0 0 = true ∧ (b0.thread 0 0).has 1 isBits = true ∧ (b0.thread 0 0).has 1 isBits = true ∧ cellTag ((b0.thread 0 0).reg 1) = cellTag ((b0.thread 0 0).reg 1)) := by
  and_intros <;> decide +kernel
theorem test_hyps_OperandChecksInOrder :
    ((ar 15).ready 0 0 = true ∧ cellTag (((ar 15).thread 0 0).reg 1) = tPSN) ∧
    ((ar 21).ready 0 0 = true ∧ isReserved (((ar 21).thread 0 0).reg 2) = true) ∧
    ((wa 10).ready 0 0 = true ∧ cellTag (((wa 10).thread 0 0).reg 2) ≠ tPSN ∧ isReserved (((wa 10).thread 0 0).reg 2) = false ∧ cellTag (((wa 10).thread 0 0).reg 2) ≠ tFIX) ∧
    ((ar 15).ready 0 0 = true ∧ ((ar 15).thread 0 0).has 2 fixTag = true ∧ cellTag (((ar 15).thread 0 0).reg 1) = tPSN) ∧
    ((ar 21).ready 0 0 = true ∧ ((ar 21).thread 0 0).has 1 fixTag = true ∧ isReserved (((ar 21).thread 0 0).reg 2) = true) ∧
    ((wa 10).ready 0 0 = true ∧ ((wa 10).thread 0 0).has 1 fixTag = true ∧ cellTag (((wa 10).thread 0 0).reg 2) ≠ tPSN ∧ isReserved (((wa 10).thread 0 0).reg 2) = false ∧ cellTag (((wa 10).thread 0 0).reg 2) ≠ tFIX) := by
  and_intros <;> decide +kernel
theorem test_hyps_genericOnFixClaim :
    (b0.ready 0 0 = true ∧ (b0.thread 0 0).has 1 fixTag = true ∧ (b0.thread 0 0).has 1 fixTag = true ∧ -8388608 ≤ (b0.thread 0 0).int 1 + (b0.thread 0 0).int 1 ∧ (b0.thread 0 0).int 1 + (b0.thread 0 0).int 1 ≤ 8388607) ∧
    (b0.ready 0 0 = true ∧ (b0.thread 0 0).has 1 fixTag = true ∧ (b0.thread 0 0).has 1 fixTag = true ∧ -8388608 ≤ (b0.thread 0 0).int 1 - (b0.thread 0 0).int 1 ∧ (b0.thread 0 0).int 1 - (b0.thread 0 0).int 1 ≤ 8388607) ∧
    (b0.ready 0 0 = true ∧ (b0.thread 0 0).has 1 fixTag = true ∧ (b0.thread 0 0).has 1 fixTag = true ∧ -8388608 ≤ (b0.thread 0 0).int 1 * (b0.thread 0 0).int 1 ∧ (b0.thread 0 0).int 1 * (b0.thread 0 0).int 1 ≤ 8388607) ∧
    (b0.ready 0 0 = true ∧ (b0.thread 0 0).has 1 fixTag = true ∧ (b0.thread 0 0).has 1 fixTag = true) ∧
    (b0.ready 0 0 = true ∧ (b0.thread 0 0).has 1 fixTag = true ∧ -8388608 ≤ -(b0.thread 0 0).int 1 ∧ -(b0.thread 0 0).int 1 ≤ 8388607) ∧
    (b0.ready 0 0 = true ∧ (b0.thread 0 0).has 1 fixTag = true ∧ -8388608 ≤ (b0.thread 0 0).int 1 + (0#6).toInt ∧ (b0.thread 0 0).int 1 + (0#6).toInt ≤ 8388607) ∧
    (b0.ready 0 0 = true ∧ (b0.thread 0 0).has 1 fixTag = true) := by
  and_intros <;> decide +kernel
theorem test_hyps_quotientAndRemainderClaim :
    (b0.ready 0 0 = true ∧ (b0.thread 0 0).has 1 fixTag = true ∧ (b0.thread 0 0).has 1 fixTag = true ∧ (b0.thread 0 0).int 1 ≠ 0 ∧ ¬((b0.thread 0 0).int 1 = -8388608 ∧ (b0.thread 0 0).int 1 = -1)) ∧
    (b0.ready 0 0 = true ∧ (b0.thread 0 0).has 1 fixTag = true ∧ (b0.thread 0 0).has 0 fixTag = true ∧ (b0.thread 0 0).int 0 = 0) := by
  and_intros <;> decide +kernel
theorem test_hyps_ShortFloats :
    ((ar 9).ready 0 0 = true ∧ (((ar 9).thread 0 0).has 1 fun g ↦ decide (g = tSFLT)) = true ∧ (((ar 9).thread 0 0).has 1 fun g ↦ decide (g = tSFLT)) = true) ∧
    ((ar 10).ready 0 0 = true ∧ (((ar 10).thread 0 0).has 2 fun g ↦ decide (g = tSFLT)) = true ∧ (((ar 10).thread 0 0).has 1 fun g ↦ decide (g = tSFLT)) = true ∧ sfltVal (((ar 10).thread 0 0).pay 2) = Fl.nan) := by
  and_intros <;> decide +kernel
theorem test_hyps_Accumulator :
    (b0.ready 0 0 = true ∧ (b0.thread 0 0).has 1 fixTag = true ∧ (b0.thread 0 0).has 1 fixTag = true ∧ (-36028797018963968 ≤ if true = true then (b0.thread 0 0).acc.toInt - (b0.thread 0 0).int 1 * (b0.thread 0 0).int 1 else (b0.thread 0 0).acc.toInt + (b0.thread 0 0).int 1 * (b0.thread 0 0).int 1) ∧ (if true = true then (b0.thread 0 0).acc.toInt - (b0.thread 0 0).int 1 * (b0.thread 0 0).int 1 else (b0.thread 0 0).acc.toInt + (b0.thread 0 0).int 1 * (b0.thread 0 0).int 1) ≤ 36028797018963967) ∧
    ((ac 0).ready 0 0 = true ∧ ((ac 0).thread 0 0).has 1 fixTag = true ∧ ((ac 0).thread 0 0).has 1 fixTag = true ∧ ((if false = true then ((ac 0).thread 0 0).acc.toInt - ((ac 0).thread 0 0).int 1 * ((ac 0).thread 0 0).int 1 else ((ac 0).thread 0 0).acc.toInt + ((ac 0).thread 0 0).int 1 * ((ac 0).thread 0 0).int 1) < -36028797018963968 ∨ 36028797018963967 < if false = true then ((ac 0).thread 0 0).acc.toInt - ((ac 0).thread 0 0).int 1 * ((ac 0).thread 0 0).int 1 else ((ac 0).thread 0 0).acc.toInt + ((ac 0).thread 0 0).int 1 * ((ac 0).thread 0 0).int 1)) ∧
    (b0.ready 0 0 = true) ∧
    (b0.ready 0 0 = true ∧ 0#6 ≤ 32#6 ∧ -8388608 ≤ ((b0.thread 0 0).acc.toInt + if 0#6 = 0#6 then 0 else 2 ^ ((0#6).toNat - 1)) / 2 ^ (0#6).toNat ∧ ((b0.thread 0 0).acc.toInt + if 0#6 = 0#6 then 0 else 2 ^ ((0#6).toNat - 1)) / 2 ^ (0#6).toNat ≤ 8388607) ∧
    (b0.ready 0 0 = true ∧ 32#6 < 63#6) := by
  and_intros <;> decide +kernel
theorem test_hyps_loopSetupClaim :
    (b0.ready 0 0 = true ∧ (b0.thread 0 0).has 1 fixTag = true ∧ 0 ≤ (b0.thread 0 0).int 1 ∧ 1#11 ≠ 0#11) ∧
    ((ar 1).ready 0 0 = true ∧ ((ar 1).thread 0 0).has 1 fixTag = true ∧ ((ar 1).thread 0 0).int 1 < 0) ∧
    (b0.ready 0 0 = true ∧ (b0.thread 0 0).has 1 fixTag = true ∧ 0 ≤ (b0.thread 0 0).int 1 ∧ 0#11 = 0#11) := by
  and_intros <;> decide +kernel
theorem test_hyps_loopEndStepClaim :
    ((ar 26).ready 0 0 = true ∧ ((ar 26).thread 0 0).inShadow = false ∧ ((ar 26).thread 0 0).pc = ((ar 26).thread 0 0).loopE ∧ 1#24 < ((ar 26).thread 0 0).loopC) ∧
    ((ar 27).ready 0 0 = true ∧ ((ar 27).thread 0 0).inShadow = false ∧ ((ar 27).thread 0 0).pc = ((ar 27).thread 0 0).loopE ∧ ((ar 27).thread 0 0).loopC = 1#24) ∧
    ((ar 26).ready 0 0 = true ∧ ((ar 26).thread 0 0).inShadow = false ∧ ((ar 26).thread 0 0).pc = ((ar 26).thread 0 0).loopE ∧ ((ar 26).thread 0 0).loopC ≠ 0#24) ∧
    (b0.ready 0 0 = true ∧ (b0.thread 0 0).inShadow = false ∧ ((b0.thread 0 0).pc ≠ (b0.thread 0 0).loopE ∨ (b0.thread 0 0).loopC = 0#24)) := by
  and_intros <;> decide +kernel
theorem test_hyps_SignalsAndWaiting :
    (b0.ready 0 0 = true) ∧
    ((me 24).ready 0 0 = true ∧ ((me 24).thread 0 0).has 1 fixTag = true ∧ 768 ≤ ((me 24).thread 0 0).int 1 ∧ ((me 24).thread 0 0).int 1 ≤ 1023 ∧ mapGet ((me 24).chan 0).proc.pend (BitVec.toNat (((me 24).thread 0 0).pay 1)) = none) ∧
    ((me 26).ready 0 0 = true ∧ ((me 26).thread 0 0).has 1 fixTag = true ∧ 768 ≤ ((me 26).thread 0 0).int 1 ∧ ((me 26).thread 0 0).int 1 ≤ 1023 ∧ mapGet ((me 26).chan 0).proc.pend (BitVec.toNat (((me 26).thread 0 0).pay 1)) = some { overrun := 0#8, addr := 0#32 }) ∧
    (b0.ready 0 0 = true ∧ (b0.thread 0 0).has 1 fixTag = true ∧ ((b0.thread 0 0).int 1 < 768 ∨ 1023 < (b0.thread 0 0).int 1)) ∧
    (b0.ready 0 0 = true ∧ (b0.thread 0 0).has 1 fixTag = true ∧ (b0.thread 0 0).pay 1 ≠ 0#24 ∧ bits ((b0.thread 0 0).pay 1) 16 7 = 0 ∧ (b0.thread 0 0).rootReq = false) ∧
    (b0.ready 0 0 = true ∧ (b0.thread 0 0).has 0 fixTag = true ∧ ((b0.thread 0 0).pay 0 = 0#24 ∨ bits ((b0.thread 0 0).pay 0) 16 7 ≠ 0)) := by
  and_intros <;> decide +kernel
theorem test_hyps_ReadSpecialRegisters :
    (b0.ready 0 0 = true ∧ (0#11, true, 260#32) ∈ (b0.thread 0 0).specials 0 ++ (b0.chan 0).proc.specials ∧ ((0#11, true, 260#32).2.1 = false ∨ (b0.thread 0 0).sup = true)) ∧
    ((ar 18).ready 0 0 = true ∧ (0#11, true, 64#32) ∈ ((ar 18).thread 0 0).specials 0 ++ ((ar 18).chan 0).proc.specials ∧ (0#11, true, 64#32).2.1 = true ∧ ((ar 18).thread 0 0).sup = false) ∧
    (b0.ready 0 0 = true ∧ (42#11 ≤ 42#11 ∨ 42#11 = 7#11 ∨ 42#11 = 11#11 ∨ 15#11 ≤ 42#11 ∧ 42#11 < 32#11)) := by
  and_intros <;> decide +kernel
theorem test_hyps_transfersClaim :
    (b0.ready 0 0 = true) ∧
    (b0.ready 0 0 = true ∧ (b0.thread 0 0).has 1 anyTag = true) ∧
    ((ar 25).ready 0 0 = true ∧ (((ar 25).thread 0 0).has 1 fun g ↦ decide (g = tRETA)) = true) := by
  and_intros <;> decide +kernel
theorem test_hyps_codeTransfersClaim :
    ((me 6).plain 0 0 = true ∧ cellTag (((me 6).thread 0 0).reg 1) = tCODE ∧ (me 6).entryAt 0 0 (((me 6).thread 0 0).reg 1) = some 324#24) ∧
    ((me 6).plain 0 0 = true ∧ cellTag (((me 6).thread 0 0).reg 1) = tCODE ∧ (me 6).entryAt 0 0 (((me 6).thread 0 0).reg 1) = some 324#24 ∧ ((me 6).thread 0 0).sup = true) ∧
    ((me 7).plain 0 0 = true ∧ cellTag (((me 7).thread 0 0).reg 1) = tCLO ∧ (me 7).headerAt 0 0 (((me 7).thread 0 0).reg 1) = some 405798915#32 ∧ 1 ≤ hdrSize 405798915#32 ∧ cellTag 872415552#32 = tCODE ∧ (me 7).entryAt 0 0 872415552#32 = some 324#24 ∧ (me 7).found 0 0 (cellPay (((me 7).thread 0 0).reg 1) + 1#24) = some (337#24, 872415552#32)) := by
  and_intros <;> decide +kernel
theorem test_hyps_threadsAndModesClaim :
    ((ar 19).ready 1 5 = true ∧ ((ar 19).thread 1 5).sup = true ∧ 5 ≠ 0 ∧ ((ar 19).chan 1).core[coreOf 5].wb = []) ∧
    (b0.ready 0 0 = true ∧ (b0.thread 0 0).sup = true ∧ 0 = 0) ∧
    (b0.ready 0 0 = true ∧ (b0.thread 0 0).sup = true ∧ (b0.thread 0 0).rootReq = false) ∧
    ((ro 0).ready 0 0 = true ∧ ((ro 0).thread 0 0).sup = true ∧ ((ro 0).thread 0 0).rootReq = true ∧ ((ro 0).mach 0).rootSpace ((ro 0).thread 0 0) = false) ∧
    ((ro 0).ready 0 0 = true ∧ ((ro 0).thread 0 0).sup = true ∧ ((ro 0).thread 0 0).rootReq = true ∧ ((ro 0).chan 0).sw.phase = Phase.roots ∧ (((ro 0).thread 0 0).shlvl = true ∨ ((ro 0).thread 0 0).frame = none)) ∧
    ((ar 25).ready 0 0 = true ∧ ((ar 25).thread 0 0).sup = true ∧ (((ar 25).thread 0 0).has 1 fun g ↦ decide (g = tRETA)) = true) := by
  and_intros <;> decide +kernel
theorem test_hyps_startThreadClaim :
    ((me 21).plain 0 0 = true ∧ ((me 21).thread 0 0).sup = true ∧ (((me 21).thread 0 0).has 3 fun g ↦ decide (g = tLOC)) = true ∧ ((me 21).thread 0 0).has 1 fixTag = true ∧ (((me 21).thread 0 0).has 2 fun g ↦ decide (g = tCODE)) = true ∧ (me 21).entryAt 0 0 (((me 21).thread 0 0).reg 2) = some 324#24 ∧ ((me 21).thread 0 0).int 1 = (↑(↑3 : ℕ) : ℤ) ∧ 3 ≠ 0 ∧ ((me 21).thread 0 3).status = ThStatus.stopped) ∧
    ((me 21).plain 0 0 = true ∧ ((me 21).thread 0 0).sup = true ∧ (((me 21).thread 0 0).has 3 fun g ↦ decide (g = tLOC)) = true ∧ ((me 21).thread 0 0).has 0 fixTag = true ∧ (((me 21).thread 0 0).has 2 fun g ↦ decide (g = tCODE)) = true ∧ (((me 21).thread 0 0).int 0 < 1 ∨ 7 < ((me 21).thread 0 0).int 0)) ∧
    ((me 27).plain 0 0 = true ∧ ((me 27).thread 0 0).sup = true ∧ (((me 27).thread 0 0).has 3 fun g ↦ decide (g = tLOC)) = true ∧ ((me 27).thread 0 0).has 1 fixTag = true ∧ (((me 27).thread 0 0).has 2 fun g ↦ decide (g = tCODE)) = true ∧ ((me 27).thread 0 0).int 1 = (↑(↑3 : ℕ) : ℤ) ∧ 3 ≠ 0 ∧ ((me 27).thread 0 3).status ≠ ThStatus.stopped) := by
  and_intros <;> decide +kernel
theorem test_hyps_ListReads :
    ((me 8).plain 0 0 = true ∧ cellTag (((me 8).thread 0 0).reg 1) = tCONS ∧ (me 8).found 0 0 (cellPay (((me 8).thread 0 0).reg 1)) = some (304#24, 553648416#32) ∧ cellTag 553648416#32 ≠ tPSN ∧ cellCdr 553648416#32 = 1#2) ∧
    ((me 9).plain 0 0 = true ∧ cellTag (((me 9).thread 0 0).reg 1) = tCONS ∧ (me 9).found 0 0 (cellPay (((me 9).thread 0 0).reg 1)) = some (305#24, 33554435#32) ∧ cellTag 33554435#32 ≠ tPSN ∧ cellCdr 33554435#32 = 2#2) ∧
    ((me 8).plain 0 0 = true ∧ cellTag (((me 8).thread 0 0).reg 2) = tCONS ∧ (me 8).found 0 0 (cellPay (((me 8).thread 0 0).reg 2)) = some (306#24, 5#32) ∧ cellTag 5#32 ≠ tPSN ∧ cellCdr 5#32 = 0#2 ∧ (me 8).found 0 0 (306#24 + 1#24) = some (307#24, 6#32) ∧ loadable 6#32 = true) ∧
    ((wa 10).plain 0 0 = true ∧ cellTag (((wa 10).thread 0 0).reg 3) = tCONST ∧ cellPay (((wa 10).thread 0 0).reg 3) = 0#24) ∧
    ((me 8).plain 0 0 = true ∧ cellTag (((me 8).thread 0 0).reg 1) = tCONS) ∧
    ((me 8).plain 0 0 = true ∧ cellTag (((me 8).thread 0 0).reg 1) = tCONS ∧ (me 8).found 0 0 (cellPay (((me 8).thread 0 0).reg 1)) = some (304#24, 553648416#32) ∧ loadable 553648416#32 = true ∧ cellCdr 553648416#32 ≠ 3#2) ∧
    ((me 19).plain 0 0 = true ∧ cellTag (((me 19).thread 0 0).reg 1) = tCONS ∧ (me 19).found 0 0 (cellPay (((me 19).thread 0 0).reg 1)) = some (308#24, 50331649#32) ∧ cellTag 50331649#32 ≠ tPSN ∧ cellCdr 50331649#32 = 3#2) ∧
    (b0.plain 0 0 = true ∧ ((b0.thread 0 0).has 1 fun g ↦ decide (g ≠ tCONS) && decide (g ≠ tPSN) && (decide (g ≠ tCONST) || !isNil ((b0.thread 0 0).reg 1))) = true) := by
  and_intros <;> decide +kernel
theorem test_hyps_loadsClaim :
    ((me 0).plain 0 0 = true ∧ ((me 0).thread 0 0).has 1 isPtr = true ∧ (cellTag (((me 0).thread 0 0).reg 1) = tCRATE → ((me 0).thread 0 0).sup = true) ∧ (me 0).fieldAt 0 0 (((me 0).thread 0 0).reg 1) (0#6).toNat false = some 256#24 ∧ (me 0).found 0 0 256#24 = some (256#24, 402653187#32) ∧ loadable 402653187#32 = true) ∧
    ((me 0).plain 0 0 = true ∧ ((me 0).thread 0 0).has 1 isHdrp = true ∧ (cellTag (((me 0).thread 0 0).reg 1) = tCRATE → ((me 0).thread 0 0).sup = true) ∧ ((me 0).thread 0 0).has 2 fixTag = true ∧ (me 0).indexAt 0 0 (((me 0).thread 0 0).reg 1) (((me 0).thread 0 0).int 2) = some 257#24 ∧ (me 0).found 0 0 257#24 = some (257#24, 7#32) ∧ loadable 7#32 = true) ∧
    ((me 16).plain 0 0 = true ∧ (((me 16).thread 0 0).has 1 fun g ↦ decide (g = tSTR) || decide (g = tVEC)) = true ∧ ((me 16).thread 0 0).has 2 fixTag = true ∧ ((me 16).found 0 0 354#24 = some (354#24, 1343300147#32) ∧ loadable 1343300147#32 = true) ∧ (me 16).byteAt 0 0 (((me 16).thread 0 0).reg 1) (((me 16).thread 0 0).int 2) = some (354#24, 1)) ∧
    (b0.plain 0 0 = true ∧ 1#11 ≠ 0#11 ∧ 259#24 = (b0.thread 0 0).pc - BitVec.setWidth 24 1#11 ∧ (b0.found 0 0 259#24 = some (304#24, 553648416#32) ∧ loadable 553648416#32 = true) ∧ cellTag 553648416#32 ≠ tINSTR ∧ cellTag 553648416#32 ≠ tHDR ∧ cellTag 553648416#32 ≠ tFREE) ∧
    (b0.plain 0 0 = true ∧ cellTag (b0.thread 0 0).sp = tLOC ∧ 258#24 = cellPay (b0.thread 0 0).sp ∧ b0.found 0 0 258#24 = some (258#24, 1073742112#32) ∧ loadable 1073742112#32 = true) ∧
    (b0.plain 0 0 = true ∧ cellTag (b0.thread 0 0).sp = tLOC ∧ 258#24 = cellPay (b0.thread 0 0).sp + BitVec.setWidth 24 0#11 ∧ b0.found 0 0 258#24 = some (258#24, 1073742112#32) ∧ loadable 1073742112#32 = true) ∧
    ((me 8).plain 0 0 = true ∧ cellTag (((me 8).thread 0 0).reg 1) = tCONS ∧ 304#24 = cellPay (((me 8).thread 0 0).reg 1) ∧ ((me 8).found 0 0 304#24 = some (304#24, 553648416#32) ∧ loadable 553648416#32 = true) ∧ cellCdr 553648416#32 ≠ 3#2) := by
  and_intros <;> decide +kernel
theorem test_hyps_addressesClaim :
    ((me 8).plain 0 0 = true ∧ ((me 8).thread 0 0).has 0 fixTag = true ∧ ((me 8).thread 0 0).pay 0 = 0#24 ∧ cellTag (((me 8).thread 0 0).reg 1) = tCONS) ∧
    ((me 8).plain 0 0 = true ∧ ((me 8).thread 0 0).has 3 fixTag = true ∧ ((me 8).thread 0 0).pay 3 ≠ 0#24 ∧ cellTag (((me 8).thread 0 0).reg 1) = tCONS) ∧
    ((me 0).plain 0 0 = true ∧ ((me 0).thread 0 0).has 2 fixTag = true ∧ ((me 0).thread 0 0).has 1 isHdrp = true ∧ (cellTag (((me 0).thread 0 0).reg 1) = tCRATE → ((me 0).thread 0 0).sup = true) ∧ (me 0).indexAt 0 0 (((me 0).thread 0 0).reg 1) (((me 0).thread 0 0).int 2) = some 257#24) ∧
    (b0.plain 0 0 = true ∧ cellTag (b0.thread 0 0).sp = tLOC) := by
  and_intros <;> decide +kernel
theorem test_hyps_checkedStoreClaim :
    ((wa 10).plain 0 0 = true ∧ ((wa 10).thread 0 0).has 1 anyTag = true ∧ (((wa 10).thread 0 0).sup || !userSealed (cellTag (((wa 10).thread 0 0).reg 1))) = true ∧ (cellTag (((wa 10).thread 0 0).reg 2) = tCONS ∨ cellTag (((wa 10).thread 0 0).reg 2) = tLOC) ∧ ((wa 10).mach 0).logAction ((wa 10).thread 0 0) (4#24) (((wa 10).thread 0 0).reg 1) = [] ∧ (wa 10).chase 0 0 needW 8 (cellPay (((wa 10).thread 0 0).reg 2)) = some (4#24, 4)) := by
  and_intros <;> decide +kernel
theorem test_hyps_byteStoreClaim :
    ((me 16).plain 0 0 = true ∧ ((me 16).thread 0 0).has 2 fixTag = true ∧ (((me 16).thread 0 0).has 1 fun g ↦ decide (g = tSTR) || decide (g = tVEC)) = true ∧ ((me 16).thread 0 0).has 2 fixTag = true ∧ 0 ≤ ((me 16).thread 0 0).int 2 ∧ ((me 16).thread 0 0).int 2 ≤ 255 ∧ (me 16).byteAt 0 0 (((me 16).thread 0 0).reg 1) (((me 16).thread 0 0).int 2) = some (354#24, 1) ∧ (me 16).chase 0 0 needRW 8 354#24 = some (354#24, 354) ∧ loadable ((me 16).cell 0 354) = true) ∧
    ((me 1).plain 0 0 = true ∧ ((me 1).thread 0 0).has 3 fixTag = true ∧ (((me 1).thread 0 0).has 1 fun g ↦ decide (g = tSTR) || decide (g = tVEC)) = true ∧ ((me 1).thread 0 0).has 2 fixTag = true ∧ (((me 1).thread 0 0).int 3 < 0 ∨ 255 < ((me 1).thread 0 0).int 3)) := by
  and_intros <;> decide +kernel
theorem test_hyps_compareAndSwapClaim :
    ((wa 10).plain 0 0 = true ∧ ((wa 10).thread 0 0).has 1 anyTag = true ∧ (cellTag (((wa 10).thread 0 0).reg 2) = tCONS ∨ cellTag (((wa 10).thread 0 0).reg 2) = tLOC) ∧ (wa 10).chase 0 0 needRW 8 (cellPay (((wa 10).thread 0 0).reg 2)) = some (4#24, 4) ∧ isReserved ((wa 10).cell 0 4) = false ∧ ((wa 10).thread 0 0).has 1 anyTag = true ∧ (((wa 10).thread 0 0).sup || !userSealed (cellTag (((wa 10).thread 0 0).reg 1))) = true ∧ ((wa 10).mach 0).logAction ((wa 10).thread 0 0) (4#24) (((wa 10).thread 0 0).reg 1) = [] ∧ cellTag ((wa 10).cell 0 4) = tPSN) ∧
    ((me 8).plain 0 0 = true ∧ ((me 8).thread 0 0).has 3 anyTag = true ∧ (cellTag (((me 8).thread 0 0).reg 2) = tCONS ∨ cellTag (((me 8).thread 0 0).reg 2) = tLOC) ∧ (me 8).chase 0 0 needRW 8 (cellPay (((me 8).thread 0 0).reg 2)) = some (306#24, 306) ∧ isReserved ((me 8).cell 0 306) = false ∧ ((me 8).thread 0 0).has 1 anyTag = true ∧ (((me 8).thread 0 0).sup || !userSealed (cellTag (((me 8).thread 0 0).reg 1))) = true ∧ ((me 8).mach 0).logAction ((me 8).thread 0 0) (306#24) (((me 8).thread 0 0).reg 1) = [] ∧ cellTag ((me 8).cell 0 306) ≠ tPSN ∧ cellTag ((me 8).cell 0 306) = cellTag (((me 8).thread 0 0).reg 3) ∧ cellPay ((me 8).cell 0 306) = ((me 8).thread 0 0).pay 3) ∧
    ((me 8).plain 0 0 = true ∧ ((me 8).thread 0 0).has 1 anyTag = true ∧ (cellTag (((me 8).thread 0 0).reg 1) = tCONS ∨ cellTag (((me 8).thread 0 0).reg 1) = tLOC) ∧ (me 8).chase 0 0 needRW 8 (cellPay (((me 8).thread 0 0).reg 1)) = some (304#24, 304) ∧ isReserved ((me 8).cell 0 304) = false ∧ ((me 8).thread 0 0).has 1 anyTag = true ∧ (((me 8).thread 0 0).sup || !userSealed (cellTag (((me 8).thread 0 0).reg 1))) = true ∧ ((me 8).mach 0).logAction ((me 8).thread 0 0) (304#24) (((me 8).thread 0 0).reg 1) = [] ∧ cellTag ((me 8).cell 0 304) ≠ tPSN ∧ ¬(cellTag ((me 8).cell 0 304) = cellTag (((me 8).thread 0 0).reg 1) ∧ cellPay ((me 8).cell 0 304) = ((me 8).thread 0 0).pay 1)) := by
  and_intros <;> decide +kernel
theorem test_hyps_replaceCdrClaim :
    ((me 8).plain 0 0 = true ∧ cellTag (((me 8).thread 0 0).reg 2) = tCONS ∧ isReserved 5#32 = false ∧ (me 8).found 0 0 (cellPay (((me 8).thread 0 0).reg 2)) = some (306#24, 5#32) ∧ cellTag 5#32 ≠ tPSN ∧ ((me 8).thread 0 0).has 1 anyTag = true ∧ (((me 8).thread 0 0).sup || !userSealed (cellTag (((me 8).thread 0 0).reg 1))) = true ∧ cellCdr 5#32 = 0#2 ∧ ((me 8).mach 0).logAction ((me 8).thread 0 0) (307#24) (((me 8).thread 0 0).reg 1) = [] ∧ (me 8).chase 0 0 needW 8 (306#24 + 1#24) = some (307#24, 307)) ∧
    ((me 11).plain 0 0 = true ∧ cellTag (((me 11).thread 0 0).reg 1) = tCONS ∧ isReserved 33554435#32 = false ∧ (me 11).found 0 0 (cellPay (((me 11).thread 0 0).reg 1)) = some (305#24, 33554435#32) ∧ cellTag 33554435#32 ≠ tPSN ∧ ((me 11).thread 0 0).has 2 anyTag = true ∧ (((me 11).thread 0 0).sup || !userSealed (cellTag (((me 11).thread 0 0).reg 2))) = true ∧ (cellCdr 33554435#32 = 2#2 ∧ cellTag (((me 11).thread 0 0).reg 2) = tCONST ∧ cellPay (((me 11).thread 0 0).reg 2) = 0#24 ∨ cellCdr 33554435#32 = 1#2 ∧ cellTag (((me 11).thread 0 0).reg 2) = tCONS ∧ cellPay (((me 11).thread 0 0).reg 2) = 305#24 + 1#24)) := by
  and_intros <;> decide +kernel
theorem test_hyps_WriteBufferDrains :
    (((wb 0).chan 0).life.cond = Cond.running ∧ ((wb 0).chan 0).life.power ≠ Power.sleep ∧ ((wb 0).mach 0).heldBack = false ∧ plainEntry ((wb 0).chan 0) { kind := WbKind.memory, line := 16, cells := [(2, 99#32, true), (3, 98#32, false)], threads := 1#8, zline := false, logs := [] } = true ∧ ((wb 0).chan 0).core[0].wb = [{ kind := WbKind.memory, line := 16, cells := [(2, 99#32, true), (3, 98#32, false)], threads := 1#8, zline := false, logs := [] }, { kind := WbKind.memory, line := 18, cells := [(0, 99#32, true)], threads := 2#8, zline := false, logs := [] }, { kind := WbKind.memory, line := 16, cells := [(2, 1073741828#32, true)], threads := 4#8, zline := false, logs := [] }] ∧ (Instr.writeBufferDrain 0 0 = Instr.writeBufferDrain 0 0 ∨ Instr.writeBufferDrain 0 0 = Instr.turnstileGrant 0 ∧ (((wb 0).chan 0).proc.granted = if 0 = 0 then Agent.unitPort else Agent.core0) ∧ (List.filter (fun q ↦ decide (q.src = ReqSrc.turnstile)) ((wb 0).chan 0).mc.pool).length < 896)) := by
  and_intros <;> decide +kernel
theorem test_hyps_FenceDrains :
    ((b0.chan 0).proc.dcen = false ∧ b0.ready 0 0 = true ∧ (b0.chan 0).core[coreOf 0].wb.all (plainEntry (b0.chan 0)) = true) := by
  and_intros <;> decide +kernel
theorem test_hyps_allocationsClaim :
    (b0.plain 0 0 = true ∧ (b0.thread 0 0).has 1 fixTag = true ∧ (↑(selSizes 0#6).1 : ℤ) ≤ (b0.thread 0 0).int 1 ∧ (b0.thread 0 0).int 1 ≤ (↑(selSizes 0#6).2 : ℤ) ∧ selKind 0#6 = some 0#4) ∧
    (b0.plain 0 0 = true ∧ (b0.thread 0 0).has 1 fixTag = true) ∧
    ((ar 2).plain 0 0 = true ∧ ((ar 2).thread 0 0).has 1 fixTag = true ∧ ((ar 2).thread 0 0).has 1 fixTag = true ∧ (((ar 2).thread 0 0).int 1 + ((ar 2).thread 0 0).int 1 < -8388608 ∨ 8388607 < ((ar 2).thread 0 0).int 1 + ((ar 2).thread 0 0).int 1)) ∧
    ((wa 10).plain 0 0 = true ∧ ((wa 10).thread 0 0).has 1 fixTag = true ∧ ((wa 10).thread 0 0).has 1 fixTag = true ∧ (((wa 10).thread 0 0).int 1 * ((wa 10).thread 0 0).int 1 < -8388608 ∨ 8388607 < ((wa 10).thread 0 0).int 1 * ((wa 10).thread 0 0).int 1)) ∧
    (b0.plain 0 0 = true ∧ (b0.thread 0 0).has 1 anyTag = true ∧ (b0.thread 0 0).has 1 anyTag = true ∧ ((b0.thread 0 0).sup || !userSealed (cellTag ((b0.thread 0 0).reg 1)) && !userSealed (cellTag ((b0.thread 0 0).reg 1))) = true) ∧
    (b0.plain 0 0 = true ∧ 1#6 ≤ 1#6 ∧ 1#6 ≤ 16#6 ∧ (↑1 : ℕ) + (1#6).toNat ≤ 32 ∧ (∀ i < (1#6).toNat, (b0.thread 0 0).has (Fin.ofNat 32 ((↑1 : ℕ) + i)) anyTag = true) ∧ ((b0.thread 0 0).sup || (List.map (fun i ↦ (b0.thread 0 0).reg (Fin.ofNat 32 ((↑1 : ℕ) + i))) (List.range (1#6).toNat)).all fun v ↦ !userSealed (cellTag v)) = true) := by
  and_intros <;> decide +kernel
theorem test_hyps_allocationNeedsManagedSpaceClaim :
    (b0.ready 0 0 = true ∧ (b0.thread 0 0).te = false ∧ (b0.thread 0 0).resv = none ∧ (b0.thread 0 0).sup = true ∧ (b0.thread 0 0).has 1 anyTag = true ∧ (b0.thread 0 0).has 1 anyTag = true) := by
  and_intros <;> decide +kernel
theorem test_hyps_LargeAllocation :
    ((la 3).plain 0 0 = true ∧ ((la 3).thread 0 0).resv = some (rsv 1024 65) ∧ ((la 3).mach 0).spaceOf ((la 3).thread 0 0) = some (rsv 1024 65).slot ∧ (rsv 1024 65).failed = false ∧ fillLines (rsv 1024 65).size ≤ (rsv 1024 65).filled ∧ (selKind 0#6).isSome = true ∧ 0#6 ≠ 2#6 ∧ 0#6 ≠ 3#6 ∧ 0#6 ≠ 6#6 ∧ (rsv 1024 65).sel = 0#6 ∧ ((la 3).thread 0 0).has 1 fixTag = true ∧ 1024 ≤ ((la 3).thread 0 0).int 1 ∧ ((la 3).thread 0 0).int 1 ≤ 1048575 ∧ (↑(rsv 1024 65).size : ℤ) = ((la 3).thread 0 0).int 1) ∧
    (((la 0).chan 0).life.cond = Cond.running ∧ ((la 0).chan 0).life.power = Power.run ∧ bit (3145730#24) 1 = true ∧ bit (3145730#24) 20 = true ∧ bit (3145730#24) 21 = true ∧ flType 3145730#24 ≠ 2#2 ∧ ((la 0).thread 0 0).resv = some (rsv 1024 0) ∧ (rsv 1024 0).failed = false ∧ (rsv 1024 0).filled < fillLines (rsv 1024 0).size ∧ ((la 0).chan 0).sw.xlate = some (BitVec.ofNat 14 ((rsv 1024 0).lineVa (rsv 1024 0).filled / 1024), ((la 0).chan 0).sw.slots[(rsv 1024 0).slot].asid, 9, 3145730#24) ∧ 9216 = ((la 0).chan 0).pageBase 9 + (rsv 1024 0).lineVa (rsv 1024 0).filled % 1024 ∧ ((la 0).chan 0).place 9216 = Place.memory) := by
  and_intros <;> decide +kernel
theorem test_hyps_bufferedStoresClaim :
    ((me 0).plain 0 0 = true ∧ ((me 0).thread 0 0).has 1 anyTag = true ∧ ((me 0).thread 0 0).has 1 isHdrp = true ∧ storable ((me 0).thread 0 0).sup (((me 0).thread 0 0).reg 1) ((me 0).headerAt 0 0 (((me 0).thread 0 0).reg 1)) (((me 0).thread 0 0).reg 1) = true ∧ (me 0).fieldAt 0 0 (((me 0).thread 0 0).reg 1) (1#6).toNat true = some 257#24 ∧ (me 0).reach 0 0 (257#24) needW = some 257) ∧
    ((me 0).plain 0 0 = true ∧ ((me 0).thread 0 0).has 1 anyTag = true ∧ ((me 0).thread 0 0).has 1 isHdrp = true ∧ storable ((me 0).thread 0 0).sup (((me 0).thread 0 0).reg 1) ((me 0).headerAt 0 0 (((me 0).thread 0 0).reg 1)) (((me 0).thread 0 0).reg 1) = true ∧ ((me 0).thread 0 0).has 2 fixTag = true ∧ (me 0).indexAt 0 0 (((me 0).thread 0 0).reg 1) (((me 0).thread 0 0).int 2) = some 257#24 ∧ (me 0).reach 0 0 (257#24) needW = some 257) ∧
    (b0.plain 0 0 = true ∧ (b0.thread 0 0).has 1 anyTag = true ∧ cellTag (b0.thread 0 0).sp = tLOC ∧ ((b0.thread 0 0).sup || !userSealed (cellTag ((b0.thread 0 0).reg 1))) = true ∧ 257#24 = cellPay (b0.thread 0 0).sp - 1#24 ∧ b0.reach 0 0 (257#24) needW = some 257) ∧
    (b0.plain 0 0 = true ∧ (b0.thread 0 0).has 1 anyTag = true ∧ cellTag (b0.thread 0 0).sp = tLOC ∧ ((b0.thread 0 0).sup || !userSealed (cellTag ((b0.thread 0 0).reg 1))) = true ∧ 258#24 = cellPay (b0.thread 0 0).sp + BitVec.setWidth 24 0#11 ∧ b0.reach 0 0 (258#24) needW = some 258) := by
  and_intros <;> decide +kernel
theorem test_hyps_zeroLineClaim :
    ((me 3).plain 0 0 = true ∧ (((me 3).thread 0 0).has 1 fun g ↦ decide (g = tVEC) || decide (g = tREC) || isUP g) = true ∧ (me 3).headerAt 0 0 (((me 3).thread 0 0).reg 1) = some 402653224#32 ∧ ((me 3).thread 0 0).has 2 fixTag = true ∧ 0 ≤ ((me 3).thread 0 0).int 2 ∧ ((me 3).thread 0 0).int 2 + 15 < (↑(hdrSize 402653224#32) : ℤ) ∧ bits (((me 3).thread 0 0).pay 1 + 1#24 + ((me 3).thread 0 0).pay 2) 0 4 = 0 ∧ (me 3).reach 0 0 (((me 3).thread 0 0).pay 1 + 1#24 + ((me 3).thread 0 0).pay 2) needW = some 400) ∧
    ((me 0).plain 0 0 = true ∧ (((me 0).thread 0 0).has 1 fun g ↦ decide (g = tVEC) || decide (g = tREC) || isUP g) = true ∧ (me 0).headerAt 0 0 (((me 0).thread 0 0).reg 1) = some 402653187#32 ∧ ((me 0).thread 0 0).has 2 fixTag = true ∧ (((me 0).thread 0 0).int 2 < 0 ∨ (↑(hdrSize 402653187#32) : ℤ) ≤ ((me 0).thread 0 0).int 2 + 15 ∨ bits (((me 0).thread 0 0).pay 1 + 1#24 + ((me 0).thread 0 0).pay 2) 0 4 ≠ 0)) := by
  and_intros <;> decide +kernel
theorem test_hyps_saveHalvesClaim :
    (cellTag ((ctx 0).chan 0).proc.cfree = tCRATE ∧ bits (cellPay ((ctx 0).chan 0).proc.cfree) 0 5 = 0 ∧ (ctx 0).plain 0 0 = true ∧ ((ctx 0).thread 0 0).sup = true ∧ ((ctx 0).thread 0 0).shb = false ∧ (ctx 0).reach 0 0 (cellPay ((ctx 0).chan 0).proc.cfree) needW = some 1024 ∧ (ctx 0).cell 0 1024 = 411041823#32 ∧ 1#11 ≠ 0#11) ∧
    (cellTag ((ctx 0).chan 0).proc.cfree = tCRATE ∧ bits (cellPay ((ctx 0).chan 0).proc.cfree) 0 5 = 0 ∧ (ctx 0).plain 0 0 = true ∧ ((ctx 0).thread 0 0).sup = true ∧ ((ctx 0).thread 0 0).shb = false ∧ (ctx 0).reach 0 0 (cellPay ((ctx 0).chan 0).proc.cfree) needW = some 1024 ∧ (ctx 0).cell 0 1024 = 411041823#32) := by
  and_intros <;> decide +kernel
theorem test_hyps_crateFaultsClaim :
    (b0.ready 0 0 = true ∧ (b0.thread 0 0).sup = true ∧ 1#11 ≠ 0#11 ∧ (b0.thread 0 0).shb = false ∧ ((b0.chan 0).proc.cfree = fix0 ∨ (b0.chan 0).proc.cfree = cNIL)) ∧
    ((rx 4).ready 0 0 = true ∧ ((rx 4).thread 0 0).sup = true ∧ 1#11 ≠ 0#11 ∧ ((rx 4).thread 0 0).shb = true) := by
  and_intros <;> decide +kernel
theorem test_hyps_LoadHalves :
    ((ctx 1).plain 0 0 = true ∧ ((ctx 1).thread 0 0).sup = true ∧ ((ctx 1).thread 0 0).shb = false ∧ cellTag ((ctx 1).thread 0 0).chain = tCRATE ∧ bits (cellPay ((ctx 1).thread 0 0).chain) 0 5 = 0 ∧ ((ctx 1).mach 0).logAction ((ctx 1).thread 0 0) (cellPay ((ctx 1).thread 0 0).chain + 1#24) (if cellTag ((ctx 1).chan 0).proc.cfree = tFIX then cNIL else ((ctx 1).chan 0).proc.cfree) = [] ∧ (ctx 1).reach 0 0 (cellPay ((ctx 1).thread 0 0).chain) needRW = some 1088 ∧ (ctx 1).cell 0 1088 = 411041823#32 ∧ cellTag ((ctx 1).cell 0 (1088 + 2)) = tFIX ∧ bit (cellPay ((ctx 1).cell 0 (1088 + 2))) 3 = false ∧ cellTag ((ctx 1).cell 0 (1088 + 3 + 16)) = tRETA ∧ cellTag ((ctx 1).cell 0 (1088 + 3 + 17)) = tFIX ∧ cellPay ((ctx 1).cell 0 (1088 + 3 + 17)) &&& 16777197#24 = 1#24 ∧ (cellTag ((ctx 1).cell 0 (1088 + 3 + 18)) = tLOC ∨ cellTag ((ctx 1).cell 0 (1088 + 3 + 18)) = tFIX ∧ cellPay ((ctx 1).cell 0 (1088 + 3 + 18)) = 0#24) ∧ cellTag ((ctx 1).cell 0 (1088 + 3 + 19)) = tLOC ∧ cellTag ((ctx 1).cell 0 (1088 + 3 + 20)) = tFIX ∧ cellPay ((ctx 1).cell 0 (1088 + 3 + 20)) ≤ 255#24 ∧ (cellTag ((ctx 1).cell 0 (1088 + 3 + 21)) = tLOC ∨ isNil ((ctx 1).cell 0 (1088 + 3 + 21)) = true) ∧ cellTag ((ctx 1).cell 0 (1088 + 3 + 22)) = tFIX ∧ cellPay ((ctx 1).cell 0 (1088 + 3 + 22)) = 0#24) ∧
    ((ctx 2).plain 0 0 = true ∧ ((ctx 2).thread 0 0).sup = true ∧ ((ctx 2).thread 0 0).shb = false ∧ cellTag ((ctx 2).thread 0 0).chain = tCRATE ∧ bits (cellPay ((ctx 2).thread 0 0).chain) 0 5 = 0 ∧ ((ctx 2).mach 0).logAction ((ctx 2).thread 0 0) (cellPay ((ctx 2).thread 0 0).chain + 1#24) (if cellTag ((ctx 2).chan 0).proc.cfree = tFIX then cNIL else ((ctx 2).chan 0).proc.cfree) = [] ∧ (ctx 2).reach 0 0 (cellPay ((ctx 2).thread 0 0).chain) needRW = some 1120 ∧ (ctx 2).cell 0 1120 = 411041823#32 ∧ cellTag ((ctx 2).cell 0 (1120 + 2)) = tFIX ∧ bit (cellPay ((ctx 2).cell 0 (1120 + 2))) 3 = true) := by
  and_intros <;> decide +kernel
theorem test_hyps_LookasideInstructions :
    (b0.ready 0 0 = true ∧ (b0.thread 0 0).sup = true) ∧
    (b0.ready 0 0 = true ∧ (b0.thread 0 0).sup = true ∧ (b0.thread 0 0).has 1 fixTag = true ∧ bits ((b0.thread 0 0).pay 1) 14 2 = 0) ∧
    (b0.ready 0 0 = true ∧ (b0.thread 0 0).sup = true ∧ (b0.thread 0 0).has 1 fixTag = true ∧ bits ((b0.thread 0 0).pay 1) 14 2 = 0 ∧ (b0.chan 0).proc.hatsize = 0#24) ∧
    ((ar 1).ready 0 0 = true ∧ ((ar 1).thread 0 0).sup = true ∧ ((ar 1).thread 0 0).has 1 fixTag = true ∧ bits (((ar 1).thread 0 0).pay 1) 14 2 ≠ 0) ∧
    (b0.ready 0 0 = true ∧ (b0.thread 0 0).sup = true ∧ 3#6 < 4#6) := by
  and_intros <;> decide +kernel
theorem test_hyps_cacheInstructionsClaim :
    ((ctx 7).ready 0 0 = true ∧ ((ctx 7).thread 0 0).sup = true ∧ (1#6 = 1#6 ∨ 1#6 = 2#6 ∨ 1#6 = 3#6) ∧ ((ctx 7).chan 0).proc.invd = true) ∧
    (b0.ready 0 0 = true ∧ (b0.thread 0 0).sup = true ∧ (1#6 = 1#6 ∨ 1#6 = 2#6 ∨ 1#6 = 3#6) ∧ (b0.chan 0).proc.invd = false) ∧
    (b0.ready 0 0 = true ∧ (b0.thread 0 0).sup = true ∧ (1#6 = 1#6 ∨ 1#6 = 2#6 ∨ 1#6 = 3#6) ∧ (b0.chan 0).core[0].wb = [] ∧ (b0.chan 0).core[1].wb = []) ∧
    (b0.ready 0 0 = true ∧ (b0.thread 0 0).sup = true) ∧
    (b0.ready 0 0 = true ∧ (b0.thread 0 0).sup = true ∧ (0#6 = 0#6 ∨ 3#6 < 0#6)) := by
  and_intros <;> decide +kernel
theorem test_hyps_rangeEngineClaim :
    ((ctx 8).ready 0 0 = true ∧ ((ctx 8).thread 0 0).sup = true ∧ ((ctx 8).thread 0 0).has 1 fixTag = true ∧ 0 ≤ ((ctx 8).thread 0 0).int 1 ∧ ((ctx 8).thread 0 0).has 1 fixTag = true ∧ 1 ≤ ((ctx 8).thread 0 0).int 1 ∧ ((ctx 8).thread 0 0).int 1 + ((ctx 8).thread 0 0).int 1 ≤ (↑((ctx 8).chan 0).memPages : ℤ) ∧ ((ctx 8).chan 0).proc.range.isSome = true) ∧
    (b0.ready 0 0 = true ∧ (b0.thread 0 0).sup = true ∧ (b0.thread 0 0).has 1 fixTag = true ∧ 0 ≤ (b0.thread 0 0).int 1 ∧ (b0.thread 0 0).has 1 fixTag = true ∧ 1 ≤ (b0.thread 0 0).int 1 ∧ (b0.thread 0 0).int 1 + (b0.thread 0 0).int 1 ≤ (↑(b0.chan 0).memPages : ℤ) ∧ (b0.chan 0).proc.range = none ∧ mapWf (b0.chan 0).win = true) ∧
    (((ctx 8).chan 0).life.cond = Cond.running ∧ ((ctx 8).chan 0).life.power ≠ Power.sleep ∧ ((ctx 8).chan 0).proc.range = some (3, 2)) := by
  and_intros <;> decide +kernel
theorem test_hyps_UnitInstructions :
    (b0.ready 0 0 = true ∧ (b0.thread 0 0).sup = true) ∧
    (b0.ready 0 0 = true ∧ (b0.thread 0 0).sup = true ∧ (↑2 : ℕ) % 2 = 0 ∧ (b0.thread 0 0).has 2 fixTag = true ∧ (b0.thread 0 0).pay 2 ≤ 255#24 ∧ counted (BitVec.toNat ((b0.thread 0 0).pay 2)) = true) ∧
    (b0.ready 0 0 = true ∧ (b0.thread 0 0).sup = true ∧ (b0.thread 0 0).has 1 fixTag = true ∧ bits ((b0.thread 0 0).pay 1) 16 8 = 0 ∧ bit ((b0.thread 0 0).pay 1) 14 = false ∧ bits ((b0.thread 0 0).pay 1) 0 14 < 8192 ∧ mapGet (b0.chan 0).led.flaws (bits ((b0.thread 0 0).pay 1) 0 14) = none) ∧
    ((wa 10).ready 0 0 = true ∧ ((wa 10).thread 0 0).sup = true ∧ ((wa 10).thread 0 0).has 1 fixTag = true ∧ bits (((wa 10).thread 0 0).pay 1) 16 8 = 0 ∧ bit (((wa 10).thread 0 0).pay 1) 14 = false ∧ bits (((wa 10).thread 0 0).pay 1) 0 14 < 8192 ∧ mapGet ((wa 10).chan 0).led.flaws (bits (((wa 10).thread 0 0).pay 1) 0 14) = some false) ∧
    ((un 6).ready 0 0 = true ∧ ((un 6).thread 0 0).sup = true ∧ ((un 6).thread 0 0).has 1 fixTag = true ∧ bits (((un 6).thread 0 0).pay 1) 16 8 = 0 ∧ bit (((un 6).thread 0 0).pay 1) 14 = false ∧ bits (((un 6).thread 0 0).pay 1) 0 14 < 8192 ∧ mapGet ((un 6).chan 0).led.flaws (bits (((un 6).thread 0 0).pay 1) 0 14) = some true) ∧
    ((ctx 11).ready 0 0 = true ∧ ((ctx 11).thread 0 0).sup = true ∧ ((ctx 11).thread 0 0).has 1 fixTag = true ∧ bits (((ctx 11).thread 0 0).pay 1) 16 8 = 0 ∧ bit (((ctx 11).thread 0 0).pay 1) 14 = true ∧ bits (((ctx 11).thread 0 0).pay 1) 0 14 < 2048 ∧ mapGet (ctx 11).square.led.flaws (bits (((ctx 11).thread 0 0).pay 1) 0 14) = none) ∧
    (b0.ready 0 0 = true ∧ (b0.thread 0 0).sup = true ∧ (b0.thread 0 0).has 1 fixTag = true ∧ (b0.thread 0 0).pay 1 ≤ 2047#24 ∧ (b0.thread 0 0).has 1 userTag = true ∧ (b0.chan 0).led.staging.length ≤ 12) ∧
    ((un 6).ready 0 0 = true ∧ ((un 6).thread 0 0).sup = true ∧ ((un 6).thread 0 0).has 1 fixTag = true ∧ ((un 6).thread 0 0).pay 1 ≤ 2047#24 ∧ ((un 6).thread 0 0).has 1 userTag = true ∧ 12 < ((un 6).chan 0).led.staging.length) := by
  and_intros <;> decide +kernel
theorem test_hyps_FlashTransfer :
    (((un 0).chan 0).pair.role = Role.independent ∧ (un 0).plain 0 0 = true ∧ ((un 0).thread 0 0).sup = true ∧ ((un 0).thread 0 0).has 1 fixTag = true ∧ BitVec.toNat (((un 0).thread 0 0).pay 1) + 4 ≤ 65536 ∧ (∀ i < 4, cellTag ((un 0).cell 0 (2147483648 + BitVec.toNat (((un 0).thread 0 0).pay 1) + i)) = tFIX) ∧ bits (cellPay ((un 0).cell 0 (2147483648 + BitVec.toNat (((un 0).thread 0 0).pay 1) + 2))) 8 16 ≤ 768 ∧ BitVec.toNat (cellPay ((un 0).cell 0 (2147483648 + BitVec.toNat (((un 0).thread 0 0).pay 1) + 3))) + (bits (cellPay ((un 0).cell 0 (2147483648 + BitVec.toNat (((un 0).thread 0 0).pay 1) + 2))) 8 16 + 2) / 3 ≤ 65536 ∧ (un 0).nearClean 0 (BitVec.toNat (((un 0).thread 0 0).pay 1)) 4 ∧ bits (cellPay ((un 0).cell 0 (2147483648 + BitVec.toNat (((un 0).thread 0 0).pay 1) + 0))) 8 8 = 1) ∧
    (((un 1).chan 0).pair.role = Role.independent ∧ (un 1).plain 0 0 = true ∧ ((un 1).thread 0 0).sup = true ∧ ((un 1).thread 0 0).has 1 fixTag = true ∧ BitVec.toNat (((un 1).thread 0 0).pay 1) + 4 ≤ 65536 ∧ (∀ i < 4, cellTag ((un 1).cell 0 (2147483648 + BitVec.toNat (((un 1).thread 0 0).pay 1) + i)) = tFIX) ∧ bits (cellPay ((un 1).cell 0 (2147483648 + BitVec.toNat (((un 1).thread 0 0).pay 1) + 2))) 8 16 ≤ 768 ∧ BitVec.toNat (cellPay ((un 1).cell 0 (2147483648 + BitVec.toNat (((un 1).thread 0 0).pay 1) + 3))) + (bits (cellPay ((un 1).cell 0 (2147483648 + BitVec.toNat (((un 1).thread 0 0).pay 1) + 2))) 8 16 + 2) / 3 ≤ 65536 ∧ (un 1).nearClean 0 (BitVec.toNat (((un 1).thread 0 0).pay 1)) 4 ∧ bits (cellPay ((un 1).cell 0 (2147483648 + BitVec.toNat (((un 1).thread 0 0).pay 1) + 0))) 8 8 = 2 ∧ (un 1).nearClean 0 (BitVec.toNat (cellPay ((un 1).cell 0 (2147483648 + BitVec.toNat (((un 1).thread 0 0).pay 1) + 3)))) ((bits (cellPay ((un 1).cell 0 (2147483648 + BitVec.toNat (((un 1).thread 0 0).pay 1) + 2))) 8 16 + 2) / 3)) ∧
    (((un 2).chan 0).pair.role = Role.independent ∧ (un 2).plain 0 0 = true ∧ ((un 2).thread 0 0).sup = true ∧ ((un 2).thread 0 0).has 1 fixTag = true ∧ BitVec.toNat (((un 2).thread 0 0).pay 1) + 4 ≤ 65536 ∧ (∀ i < 4, cellTag ((un 2).cell 0 (2147483648 + BitVec.toNat (((un 2).thread 0 0).pay 1) + i)) = tFIX) ∧ bits (cellPay ((un 2).cell 0 (2147483648 + BitVec.toNat (((un 2).thread 0 0).pay 1) + 2))) 8 16 ≤ 768 ∧ BitVec.toNat (cellPay ((un 2).cell 0 (2147483648 + BitVec.toNat (((un 2).thread 0 0).pay 1) + 3))) + (bits (cellPay ((un 2).cell 0 (2147483648 + BitVec.toNat (((un 2).thread 0 0).pay 1) + 2))) 8 16 + 2) / 3 ≤ 65536 ∧ (un 2).nearClean 0 (BitVec.toNat (((un 2).thread 0 0).pay 1)) 4 ∧ bits (cellPay ((un 2).cell 0 (2147483648 + BitVec.toNat (((un 2).thread 0 0).pay 1) + 0))) 8 8 = 0) ∧
    (((un 2).chan 0).pair.role = Role.independent ∧ (un 2).plain 0 0 = true ∧ ((un 2).thread 0 0).sup = true ∧ ((un 2).thread 0 0).has 1 fixTag = true ∧ BitVec.toNat (((un 2).thread 0 0).pay 1) + 4 ≤ 65536 ∧ (∀ i < 4, cellTag ((un 2).cell 0 (2147483648 + BitVec.toNat (((un 2).thread 0 0).pay 1) + i)) = tFIX) ∧ bits (cellPay ((un 2).cell 0 (2147483648 + BitVec.toNat (((un 2).thread 0 0).pay 1) + 2))) 8 16 ≤ 768 ∧ BitVec.toNat (cellPay ((un 2).cell 0 (2147483648 + BitVec.toNat (((un 2).thread 0 0).pay 1) + 3))) + (bits (cellPay ((un 2).cell 0 (2147483648 + BitVec.toNat (((un 2).thread 0 0).pay 1) + 2))) 8 16 + 2) / 3 ≤ 65536 ∧ (un 2).nearClean 0 (BitVec.toNat (((un 2).thread 0 0).pay 1)) 4 ∧ bits (cellPay ((un 2).cell 0 (2147483648 + BitVec.toNat (((un 2).thread 0 0).pay 1) + 0))) 8 8 = 0 ∧ (le 5 0x504030201).length = bits (cellPay ((un 2).cell 0 (2147483648 + BitVec.toNat (((un 2).thread 0 0).pay 1) + 2))) 8 16) := by
  and_intros <;> first | decide +kernel | (unfold State.nearClean; decide +kernel)
theorem test_hyps_checkpointRefusalsClaim :
    ((ro 2).ready 0 0 = true ∧ ((ro 2).thread 0 0).sup = true ∧ (((ro 2).chan 0).sw.phase = Phase.select ∨ ((ro 2).chan 0).sw.phase = Phase.evacuate ∨ ((ro 2).chan 0).sw.phase = Phase.fixup)) ∧
    (b0.ready 0 0 = true ∧ (b0.thread 0 0).sup = true ∧ ¬((b0.chan 0).sw.phase = Phase.select ∨ (b0.chan 0).sw.phase = Phase.evacuate ∨ (b0.chan 0).sw.phase = Phase.fixup) ∧ (b0.chan 0).pair.role = Role.independent) ∧
    ((ck 2).ready 0 0 = true ∧ ((ck 2).thread 0 0).sup = true ∧ ¬(((ck 2).chan 0).sw.phase = Phase.select ∨ ((ck 2).chan 0).sw.phase = Phase.evacuate ∨ ((ck 2).chan 0).sw.phase = Phase.fixup) ∧ ((ck 2).chan 0).pair.role = Role.active ∧ bit (winGet ((ck 2).chan 0) 32772) 23 = false) := by
  and_intros <;> decide +kernel
theorem test_hyps_checkpointCapturesClaim :
    (((ck 3).chan 0).pair.role = Role.active ∧ bit (winGet ((ck 3).chan 0) 32772) 23 = true ∧ ((ck 3).chan 0).core[0].wb = [] ∧ ((ck 3).chan 0).core[1].wb = [] ∧ (∀ (u : Fin 8), ((ck 3).thread 0 u).sync = none ∧ ((ck 3).thread 0 u).lz = false ∧ ((ck 3).thread 0 u).resv = none ∧ ((ck 3).chan 0).sw.slots[u].pitch = []) ∧ (∀ i < 864, ((ck 3).chan 0).place ((bits (winGet ((ck 3).chan 0) 32772) 0 22 + (((ck 3).chan 0).pair.lastEpoch + 1#24).toNat % 2) * 1024 + i) = Place.memory) ∧ (ck 3).plain 0 0 = true ∧ ((ck 3).thread 0 0).sup = true) := by
  and_intros <;> decide +kernel
theorem test_hyps_SignalSelection :
    ((b0.thread 0 0).status = ThStatus.running ∧ (b0.thread 0 0).hold = none ∧ (b0.thread 0 0).inShadow = false ∧ (b0.thread 0 0).rootPend = false) := by
  and_intros <;> decide +kernel
theorem test_hyps_EventEntries :
    (((ev 1).chan 0).life.cond = Cond.running ∧ ((ev 1).chan 0).life.power = Power.run ∧ ((ev 1).chan 0).proc.dcen = false ∧ ((ev 1).chan 0).sw.phase = Phase.idle ∧ ((ev 1).chan 0).core[coreOf 0].asMade = true ∧ ((ev 1).chan 0).core[coreOf 0].entryDiff = false ∧ ((ev 1).thread 0 0).status = ThStatus.running ∧ ((ev 1).thread 0 0).te = false ∧ ((ev 1).chan 0).core[coreOf 0].wb = [] ∧ ((ev 1).thread 0 0).sync = some { vector := 3#10, addr := 1073741943#32, icell := 9#32, ret := 261#24, kind := 1#2 } ∧ ((ev 1).chan 0).place (bits ((ev 1).chan 0).proc.vbase 0 22 * 1024 + 2 * ({ vector := 3#10, addr := 1073741943#32, icell := 9#32, ret := 261#24, kind := 1#2 } : SyncEvent).vector.toNat) = Place.memory ∧ cellTag ((ev 1).cell 0 (bits ((ev 1).chan 0).proc.vbase 0 22 * 1024 + 2 * ({ vector := 3#10, addr := 1073741943#32, icell := 9#32, ret := 261#24, kind := 1#2 } : SyncEvent).vector.toNat)) = tCODE ∧ (ev 1).entryAt 0 0 ((ev 1).cell 0 (bits ((ev 1).chan 0).proc.vbase 0 22 * 1024 + 2 * ({ vector := 3#10, addr := 1073741943#32, icell := 9#32, ret := 261#24, kind := 1#2 } : SyncEvent).vector.toNat)) = some 324#24 ∧ attrSave (((ev 1).chan 0).proc.attrOf ({ vector := 3#10, addr := 1073741943#32, icell := 9#32, ret := 261#24, kind := 1#2 } : SyncEvent).vector.toNat) = true ∧ ((ev 1).thread 0 0).shb = false) ∧
    (((ev 0).chan 0).life.cond = Cond.running ∧ ((ev 0).chan 0).life.power = Power.run ∧ ((ev 0).chan 0).proc.dcen = false ∧ ((ev 0).chan 0).sw.phase = Phase.idle ∧ ((ev 0).chan 0).core[coreOf 0].asMade = true ∧ ((ev 0).chan 0).core[coreOf 0].entryDiff = false ∧ ((ev 0).thread 0 0).status = ThStatus.running ∧ ((ev 0).thread 0 0).te = false ∧ ((ev 0).chan 0).core[coreOf 0].wb = [] ∧ ((ev 0).thread 0 0).sync = some { vector := 3#10, addr := 1073741943#32, icell := 9#32, ret := 261#24, kind := 1#2 } ∧ ((ev 0).chan 0).place (bits ((ev 0).chan 0).proc.vbase 0 22 * 1024 + 2 * ({ vector := 3#10, addr := 1073741943#32, icell := 9#32, ret := 261#24, kind := 1#2 } : SyncEvent).vector.toNat) = Place.memory ∧ cellTag ((ev 0).cell 0 (bits ((ev 0).chan 0).proc.vbase 0 22 * 1024 + 2 * ({ vector := 3#10, addr := 1073741943#32, icell := 9#32, ret := 261#24, kind := 1#2 } : SyncEvent).vector.toNat)) = tCODE ∧ (ev 0).entryAt 0 0 ((ev 0).cell 0 (bits ((ev 0).chan 0).proc.vbase 0 22 * 1024 + 2 * ({ vector := 3#10, addr := 1073741943#32, icell := 9#32, ret := 261#24, kind := 1#2 } : SyncEvent).vector.toNat)) = some 324#24 ∧ ¬(attrSave (((ev 0).chan 0).proc.attrOf ({ vector := 3#10, addr := 1073741943#32, icell := 9#32, ret := 261#24, kind := 1#2 } : SyncEvent).vector.toNat) = true ∧ ((ev 0).thread 0 0).shb = false) ∧ cellTag ((ev 0).thread 0 0).spS = tLOC ∧ 48#24 ≤ cellPay ((ev 0).thread 0 0).spS) := by
  and_intros <;> decide +kernel
theorem test_hyps_ReturnFromEvent :
    (b0.plain 0 0 = true ∧ (b0.thread 0 0).sup = true ∧ (b0.thread 0 0).shlvl = false ∧ (b0.thread 0 0).frame = none) ∧
    ((rx 5).plain 0 0 = true ∧ ((rx 5).thread 0 0).sup = true ∧ ((rx 5).thread 0 0).shlvl = false ∧ ((rx 5).thread 0 0).frame = some 768#24 ∧ (∀ i < 46, ∃ va, (rx 5).found 0 0 (768#24 + BitVec.ofNat 24 i) = some (va, frameOf 5 i)) ∧ ∃ i < 46, cellTag (frameOf 5 i) = tPSN) ∧
    ((rx 3).plain 0 0 = true ∧ ((rx 3).thread 0 0).sup = true ∧ ((rx 3).thread 0 0).shlvl = false ∧ ((rx 3).thread 0 0).frame = some 768#24 ∧ (∀ i < 46, ∃ va, (rx 3).found 0 0 (768#24 + BitVec.ofNat 24 i) = some (va, frameOf 3 i)) ∧ (∀ i < 46, cellTag (frameOf 3 i) ≠ tPSN) ∧ cellTag (frameOf 3 0) ≠ tRETA) ∧
    ((rx 6).plain 0 0 = true ∧ ((rx 6).thread 0 0).sup = true ∧ ((rx 6).thread 0 0).shlvl = false ∧ ((rx 6).thread 0 0).frame = some 768#24 ∧ (∀ i < 46, ∃ va, (rx 6).found 0 0 (768#24 + BitVec.ofNat 24 i) = some (va, frameOf 6 i)) ∧ (∀ i < 46, cellTag (frameOf 6 i) ≠ tPSN) ∧ cellTag (frameOf 6 0) = tRETA ∧ cellTag (frameOf 6 1) = tFIX ∧ bits (cellPay (frameOf 6 1)) 5 19 = 0 ∧ bit (cellPay (frameOf 6 1)) 2 = ((rx 6).thread 0 0).shb ∧ cellTag (frameOf 6 5) ≠ tLOC ∧ ¬(cellTag (frameOf 6 5) = tCONST ∧ cellPay (frameOf 6 5) = 0#24)) ∧
    ((rx 7).plain 0 0 = true ∧ ((rx 7).thread 0 0).sup = true ∧ ((rx 7).thread 0 0).shlvl = false ∧ ((rx 7).thread 0 0).frame = some 768#24 ∧ (∀ i < 46, ∃ va, (rx 7).found 0 0 (768#24 + BitVec.ofNat 24 i) = some (va, frameOf 7 i)) ∧ (∀ i < 46, cellTag (frameOf 7 i) ≠ tPSN) ∧ cellTag (frameOf 7 0) = tRETA ∧ (cellTag (frameOf 7 1) ≠ tFIX ∨ bits (cellPay (frameOf 7 1)) 5 19 ≠ 0 ∨ bit (cellPay (frameOf 7 1)) 2 ≠ ((rx 7).thread 0 0).shb)) ∧
    ((rx 1).plain 0 0 = true ∧ ((rx 1).thread 0 0).sup = true ∧ ((rx 1).thread 0 0).shlvl = false ∧ ((rx 1).thread 0 0).frame = some 768#24 ∧ (∀ i < 46, ∃ va, (rx 1).found 0 0 (768#24 + BitVec.ofNat 24 i) = some (va, frameOf 1 i)) ∧ (∀ i < 46, cellTag (frameOf 1 i) ≠ tPSN) ∧ cellTag (frameOf 1 0) = tRETA ∧ cellTag (frameOf 1 1) = tFIX ∧ bits (cellPay (frameOf 1 1)) 5 19 = 0 ∧ bit (cellPay (frameOf 1 1)) 2 = ((rx 1).thread 0 0).shb ∧ (cellTag (frameOf 1 5) = tLOC ∨ cellTag (frameOf 1 5) = tCONST ∧ cellPay (frameOf 1 5) = 0#24)) ∧
    ((rx 8).plain 0 0 = true ∧ ((rx 8).thread 0 0).sup = true ∧ ((rx 8).thread 0 0).shlvl = true ∧ ((rx 8).thread 0 0).frame = some 768#24 ∧ (∀ i < 22, ∃ va, (rx 8).found 0 0 (768#24 + BitVec.ofNat 24 i) = some (va, frameOf 8 i)) ∧ ∃ i < 22, cellTag (frameOf 8 i) = tPSN) ∧
    ((rx 9).plain 0 0 = true ∧ ((rx 9).thread 0 0).sup = true ∧ ((rx 9).thread 0 0).shlvl = true ∧ ((rx 9).thread 0 0).frame = none) ∧
    ((rx 4).plain 0 0 = true ∧ ((rx 4).thread 0 0).sup = true ∧ ((rx 4).thread 0 0).shlvl = true ∧ ((rx 4).thread 0 0).frame = some 768#24 ∧ (∀ i < 22, ∃ va, (rx 4).found 0 0 (768#24 + BitVec.ofNat 24 i) = some (va, frameOf 4 i)) ∧ ∀ i < 22, cellTag (frameOf 4 i) ≠ tPSN) := by
  and_intros <;> first | with_reducible exact held_1 | with_reducible exact held_3 | with_reducible exact held_4 | with_reducible exact held_5 | with_reducible exact held_6 | with_reducible exact held_7 | with_reducible exact held_8 | decide +kernel
theorem test_hyps_writeSpecialRegistersClaim :
    (b0.ready 0 0 = true ∧ (b0.thread 0 0).has 1 fixTag = true) ∧
    (b0.ready 0 0 = true ∧ (b0.thread 0 0).has 1 fixTag = true ∧ 0 ≤ (b0.thread 0 0).int 1) ∧
    ((ar 1).ready 0 0 = true ∧ ((ar 1).thread 0 0).has 1 fixTag = true ∧ ((ar 1).thread 0 0).int 1 < 0) ∧
    ((wa 10).ready 0 0 = true ∧ (((wa 10).thread 0 0).has 2 fun g ↦ decide (g = tLOC)) = true) ∧
    ((wa 10).ready 0 0 = true ∧ ((wa 10).thread 0 0).sup = true ∧ (((wa 10).thread 0 0).has 2 fun g ↦ decide (g = tLOC)) = true) ∧
    ((ar 29).ready 0 0 = true ∧ ((ar 29).thread 0 0).sup = true ∧ (((ar 29).thread 0 0).has 1 fun g ↦ decide (g = tCRATE)) = true) ∧
    (b0.ready 0 0 = true ∧ (b0.thread 0 0).sup = true ∧ (b0.thread 0 0).has 1 fixTag = true ∧ (b0.thread 0 0).pay 1 ≤ 255#24) ∧
    ((wa 10).ready 0 0 = true ∧ ((wa 10).thread 0 0).sup = true ∧ ((wa 10).thread 0 0).has 1 fixTag = true ∧ 255#24 < ((wa 10).thread 0 0).pay 1) ∧
    (b0.ready 0 0 = true ∧ (b0.thread 0 0).sup = true ∧ (b0.thread 0 0).has 1 fixTag = true) ∧
    (b0.ready 0 0 = true ∧ (b0.thread 0 0).sup = true ∧ (b0.thread 0 0).has 1 fixTag = true ∧ (b0.thread 0 0).pay 1 < 4194304#24) ∧
    (b0.ready 0 0 = true ∧ (b0.thread 0 0).sup = true ∧ (b0.thread 0 0).has 0 fixTag = true ∧ (b0.thread 0 0).pay 0 ≤ 62464#24 ∧ BitVec.extractLsb' 0 10 ((b0.thread 0 0).pay 0) = 0#10) ∧
    (b0.ready 0 0 = true ∧ (b0.thread 0 0).sup = true ∧ (b0.thread 0 0).has 0 fixTag = true ∧ ((b0.thread 0 0).pay 0 = 0#24 ∨ 10#24 ≤ (b0.thread 0 0).pay 0 ∧ (b0.thread 0 0).pay 0 ≤ 22#24)) ∧
    ((ar 18).ready 0 0 = true ∧ ((ar 18).thread 0 0).sup = false) ∧
    (b0.ready 0 0 = true) := by
  and_intros <;> decide +kernel
theorem test_hyps_vectorTableLoadClaim :
    ((vc 0).plain 0 0 = true ∧ ((vc 0).thread 0 0).sup = true ∧ ((vc 0).thread 0 0).has 3 fixTag = true ∧ bits (((vc 0).thread 0 0).pay 3) 22 2 = 0 ∧ bits (((vc 0).thread 0 0).pay 3) 0 22 * 1024 + 2048 ≤ ((vc 0).chan 0).memCells ∧ (∀ i < 2048, ((vc 0).chan 0).place (bits (((vc 0).thread 0 0).pay 3) 0 22 * 1024 + i) = Place.memory) ∧ ∀ v < 1024, cellTag ((vc 0).cell 0 (bits (((vc 0).thread 0 0).pay 3) 0 22 * 1024 + 2 * v + 1)) = tFIX ∧ bit (cellPay ((vc 0).cell 0 (bits (((vc 0).thread 0 0).pay 3) 0 22 * 1024 + 2 * v + 1))) 20 = false ∧ bits (cellPay ((vc 0).cell 0 (bits (((vc 0).thread 0 0).pay 3) 0 22 * 1024 + 2 * v + 1))) 0 8 = 0 ∧ ¬(8 ≤ attrThread (cellPay ((vc 0).cell 0 (bits (((vc 0).thread 0 0).pay 3) 0 22 * 1024 + 2 * v + 1))) ∧ attrThread (cellPay ((vc 0).cell 0 (bits (((vc 0).thread 0 0).pay 3) 0 22 * 1024 + 2 * v + 1))) ≤ 14)) ∧
    ((ar 1).plain 0 0 = true ∧ ((ar 1).thread 0 0).sup = true ∧ ((ar 1).thread 0 0).has 1 fixTag = true ∧ bits (((ar 1).thread 0 0).pay 1) 22 2 ≠ 0) := by
  and_intros <;> first | exact vt_attrs 5 fix0 (fun x => cellTag x = tFIX ∧ bit (cellPay x) 20 = false ∧ bits (cellPay x) 0 8 = 0 ∧ ¬(8 ≤ attrThread (cellPay x) ∧ attrThread (cellPay x) ≤ 14)) (by decide +kernel) | decide +kernel
theorem test_hyps_windowsAndStalemateClaim :
    (((wa 8).chan 0).life.cond = Cond.running ∧ mapGet ((wa 8).chan 0).proc.pend 39 = none ∧ (∀ (u : Fin 8), ((wa 8).thread 0 u).status = ThStatus.stopped ∨ ∃ k, ((wa 8).thread 0 u).status = ThStatus.waiting k ∧ bit k 23 = false ∧ ∀ e ∈ ((wa 8).chan 0).proc.pend, e.1 < 768 ∨ bit k ((e.1 - 768) / 16) = false) ∧ 256 ≤ ((wa 8).chan 0).clk.staleFor) ∧
    ((b0.chan 0).clk.staleFor < 256) ∧
    (((wt 0).thread 0 0).status = ThStatus.waiting 8388608#24 ∧ bit (8388608#24) 23 = true) := by
  and_intros <;> first | exact noneEnds (by decide +kernel) | decide +kernel
theorem test_hyps_fillsAndPrefetchesClaim :
    ((((fi 0).chan 0).core[0].cache true).fill = some { line := 16, cells := vec16, dead := false }) ∧
    ((((fi 4).chan 0).core[0].cache true).reqs = [{ line := 16, cells := (Vector.replicate 16 0#32), stride := true, dead := true }] ∧ (({ line := 16, cells := (Vector.replicate 16 0#32), stride := true, dead := true } : PfReq).dead || match ((fi 4).chan 0).proc.range with | some (p, n) => decide (p ≤ ({ line := 16, cells := (Vector.replicate 16 0#32), stride := true, dead := true } : PfReq).line / 64) && decide (({ line := 16, cells := (Vector.replicate 16 0#32), stride := true, dead := true } : PfReq).line / 64 < p + n) | none => false) = true) ∧
    ((((fi 3).chan 0).core[0].cache true).reqs = [{ line := 16, cells := (Vector.replicate 16 0#32), stride := true, dead := false }] ∧ (({ line := 16, cells := (Vector.replicate 16 0#32), stride := true, dead := false } : PfReq).dead || match ((fi 3).chan 0).proc.range with | some (p, n) => decide (p ≤ ({ line := 16, cells := (Vector.replicate 16 0#32), stride := true, dead := false } : PfReq).line / 64) && decide (({ line := 16, cells := (Vector.replicate 16 0#32), stride := true, dead := false } : PfReq).line / 64 < p + n) | none => false) = false) := by
  and_intros <;> decide +kernel
theorem test_hyps_healsClaim :
    (((hl 0).chan 0).life.cond = Cond.running ∧ ((hl 0).chan 0).life.power ≠ Power.sleep ∧ ((hl 0).chan 0).sw.phase.marking = false ∧ ((hl 0).chan 0).place ({ addr := 258, va := 258#24, slot := 0, old := 1073742112#32, new := 304#24, core := 0 } : HealReq).addr = Place.memory ∧ ((hl 0).mach 0).logs ({ addr := 258, va := 258#24, slot := 0, old := 1073742112#32, new := 304#24, core := 0 } : HealReq).slot ({ addr := 258, va := 258#24, slot := 0, old := 1073742112#32, new := 304#24, core := 0 } : HealReq).va (withPay ((hl 0).cell 0 ({ addr := 258, va := 258#24, slot := 0, old := 1073742112#32, new := 304#24, core := 0 } : HealReq).addr) ({ addr := 258, va := 258#24, slot := 0, old := 1073742112#32, new := 304#24, core := 0 } : HealReq).new) = false ∧ ((hl 0).chan 0).proc.heals = [{ addr := 258, va := 258#24, slot := 0, old := 1073742112#32, new := 304#24, core := 0 }, { addr := 259, va := 258#24, slot := 0, old := 1073742112#32, new := 304#24, core := 0 }]) := by
  and_intros <;> decide +kernel
theorem test_hyps_Timers :
    ((pw0 0).awake 0 ∧ ((pw0 0).chan 0).clk.tb < winGet ((pw0 0).chan 0) (2066 + 4 * (↑0 : ℕ)) ++ winGet ((pw0 0).chan 0) (2065 + 4 * (↑0 : ℕ))) ∧
    (b0.awake 0 ∧ winGet (b0.chan 0) (2066 + 4 * (↑0 : ℕ)) ++ winGet (b0.chan 0) (2065 + 4 * (↑0 : ℕ)) ≤ (b0.chan 0).clk.tb ∧ winGet (b0.chan 0) (2067 + 4 * (↑0 : ℕ)) = 0#24) ∧
    ((pw0 3).awake 0 ∧ winGet ((pw0 3).chan 0) (2066 + 4 * (↑0 : ℕ)) ++ winGet ((pw0 3).chan 0) (2065 + 4 * (↑0 : ℕ)) ≤ ((pw0 3).chan 0).clk.tb ∧ winGet ((pw0 3).chan 0) (2067 + 4 * (↑0 : ℕ)) ≠ 0#24) ∧
    (b0.awake 0) ∧
    (((pw0 1).chan 0).life.cond = Cond.running ∧ ((pw0 1).chan 0).clk.wake[0].armed = true ∧ ((pw0 1).chan 0).clk.wake[0].cmp ≤ ((pw0 1).chan 0).clk.tb) ∧
    ((b0.chan 0).life.cond = Cond.running ∧ ((b0.chan 0).clk.wake[0].armed = false ∨ (b0.chan 0).clk.tb < (b0.chan 0).clk.wake[0].cmp)) ∧
    (((pw0 1).chan 0).life.cond = Cond.running ∧ ((pw0 1).chan 0).life.power ≠ Power.sleep ∧ ((pw0 1).chan 0).clk.fast[0].armed = true) ∧
    ((b0.chan 0).life.cond = Cond.running ∧ (b0.chan 0).clk.fast[0].armed = false) := by
  and_intros <;> decide +kernel
theorem test_hyps_PowerStates :
    (b0.awake 0) ∧
    (b0.awake 0 ∧ ∀ (t : Fin 8), coreOf t = 1 → (b0.thread 0 t).status ≠ ThStatus.running ∧ (b0.thread 0 t).sync = none ∧ (b0.mach 0).signalFor t = none) ∧
    (((pw0 6).chan 0).life.cond = Cond.running ∧ ((pw0 6).chan 0).life.power = Power.idle ∧ 1 ≤ bits (winGet ((pw0 6).chan 0) 1024) 0 2 ∧ (∀ (i : Fin 8), ((pw0 6).chan 0).clk.wake[i].armed = true → ((pw0 6).chan 0).clk.tb.toNat + 1 < ((pw0 6).chan 0).clk.wake[i].cmp.toNat) ∧ (((pw0 6).chan 0).life.preWake = false ∨ ∀ (i : Fin 8), ((pw0 6).chan 0).clk.wake[i].armed = true → ((pw0 6).chan 0).clk.tb.toNat + 3 < ((pw0 6).chan 0).clk.wake[i].cmp.toNat) ∧ (((pw0 6).mach 0).fastWithin [0, 1, 2, 3, 4, 5, 6, 7]).1 = false ∧ ((pw0 6).chan 0).core[0].wb = [] ∧ ((pw0 6).chan 0).core[1].wb = []) ∧
    (((wa 5).chan 0).life.preWake = true ∧ ¬∀ (i : Fin 8), ((wa 5).chan 0).clk.wake[i].armed = true → ((wa 5).chan 0).clk.tb.toNat + 3 < ((wa 5).chan 0).clk.wake[i].cmp.toNat) ∧
    (((pw0 8).chan 0).life.cond = Cond.running ∧ ((pw0 8).chan 0).life.power = Power.doze ∧ 2 ≤ bits (winGet ((pw0 8).chan 0) 1024) 0 2 ∧ (∀ (n : Fin 8), ((pw0 8).chan 0).clk.fast[n].armed = false) ∧ (∀ (i : Fin 8), ((pw0 8).chan 0).clk.wake[i].armed = true → ((pw0 8).chan 0).clk.tb.toNat + 63 < ((pw0 8).chan 0).clk.wake[i].cmp.toNat) ∧ ((pw0 8).chan 0).sw.phase = Phase.idle ∧ ((pw0 8).chan 0).sw.starting = false ∧ ((pw0 8).chan 0).proc.range = none ∧ ((pw0 8).chan 0).framing = false ∧ bit (winGet ((pw0 8).chan 0) 65536) 1 = false ∧ ((pw0 8).chan 0).touch.run = false ∧ ((pw0 8).chan 0).panel.i2c = none ∧ ((pw0 8).chan 0).mc.pool = [] ∧ ((pw0 8).chan 0).pair.role ≠ Role.active ∧ ((pw0 8).chan 0).pair.role ≠ Role.standby ∧ ((pw0 8).chan 0).perf.queue = []) ∧
    ((b0.chan 0).mc.selfRef = false) ∧
    (((wa 6).chan 0).mc.selfRef = true) ∧
    (((pw0 11).chan 0).life.cond = Cond.running ∧ ((pw0 11).chan 0).life.power ≠ Power.run ∧ ((pw0 11).chan 0).proc.pend ≠ []) ∧
    (((pw0 12).chan 0).life.cond = Cond.running ∧ ((pw0 12).chan 0).life.power = Power.sleep ∧ ¬∀ (i : Fin 8), ((pw0 12).chan 0).clk.wake[i].armed = true → ((pw0 12).chan 0).clk.tb.toNat + 3 < ((pw0 12).chan 0).clk.wake[i].cmp.toNat) := by
  and_intros <;> decide +kernel
theorem test_hyps_ResetsAndOff :
    (b0.square.porN = true ∧ (b0.chan 0).life.rstN = true) ∧
    ((b0.chan 1).life.cond = Cond.inReset) ∧
    ((pw0 14).square.straps[0].decided = false ∧ ((pw0 14).chan 0).life.cond = Cond.sampling ∧ ((pw0 14).chan 0).life.en = none) ∧
    (((pw0 18).chan 0).life.cond = Cond.running ∧ ((pw0 18).chan 0).clk.wdRun = true ∧ 3277 * 2 ^ ((pw0 18).chan 0).straps[5].level.toNat ≤ ((pw0 18).chan 0).clk.wdCount) ∧
    ((((pw0 15).chan 0).life.offCause = some OffCause.brownout ∨ ((pw0 15).chan 0).life.offCause = some OffCause.thermal) ∧ (∀ (rail : Fin 5), rail ≠ 4 ∨ ((pw0 15).chan 0).straps[6].level ≠ 0#3 → bit ((pw0 15).chan 0).clk.warn (↑rail : ℕ) = false) ∧ ((pw0 15).chan 0).clk.mon[5].toInt ≤ 110) ∧
    (b0.awake 0 ∧ 0#8 ≠ 90#8) ∧
    (b0.awake 0) := by
  and_intros <;> decide +kernel
theorem test_hyps_MonitorsAndChecks :
    ((b0.chan 0).led.staging.length < 16 ∧ (b0.chan 0).life.cond = Cond.running ∧ (0 ≠ 4 ∨ (b0.chan 0).straps[6].level ≠ 0#3) ∧ mapGet (b0.chan 0).clk.lastRec (↑0 : ℕ) = none ∧ bit (b0.chan 0).clk.warn (↑0 : ℕ) = false ∧ levelKind 0 (warnLimits 0) 0#16 0#4) ∧
    ((b0.chan 0).led.staging.length < 16 ∧ (b0.chan 0).life.cond = Cond.running ∧ (0 ≠ 4 ∨ (b0.chan 0).straps[6].level ≠ 0#3) ∧ mapGet (b0.chan 0).clk.lastRec (↑0 : ℕ) = none ∧ levelKind 0 (offLimits 0) 0#16 0#4 ∧ 0 ≠ 4) ∧
    (((pw0 21).chan 0).led.staging.length < 16 ∧ ((pw0 21).chan 0).life.cond = Cond.running ∧ (4 ≠ 4 ∨ ((pw0 21).chan 0).straps[6].level ≠ 0#3) ∧ mapGet ((pw0 21).chan 0).clk.lastRec (↑4 : ℕ) = none ∧ levelKind 4 (offLimits 4) 0#16 0#4 ∧ 4 = 4) ∧
    (((pw0 21).chan 0).led.staging.length < 16 ∧ ((pw0 21).chan 0).life.cond = Cond.running ∧ ((pw0 21).chan 0).touch.vtxf = true ∧ bit ((pw0 21).chan 0).clk.warn 4 = false) ∧
    ((b0.chan 0).led.staging.length < 16 ∧ (b0.chan 0).life.cond = Cond.running) ∧
    ((b0.chan 0).led.staging.length < 16 ∧ (b0.chan 0).life.cond = Cond.running ∧ mapGet (b0.chan 0).clk.lastRec 6 = none ∧ (0#16 < 650#16 ∨ 880#16 < 0#16 ∨ (b0.chan 0).life.power ≠ Power.sleep)) ∧
    ((b0.chan 0).led.staging.length < 16 ∧ (b0.chan 0).life.cond = Cond.running ∧ (b0.chan 0).life.power ≠ Power.sleep) ∧
    (((pw0 18).chan 0).led.staging.length < 16 ∧ ((pw0 18).chan 0).life.cond = Cond.running ∧ ((pw0 18).chan 0).clk.wdRun = true ∧ ((pw0 18).chan 0).clk.wdWarned = false ∧ 3 * (3277 * 2 ^ ((pw0 18).chan 0).straps[5].level.toNat) / 4 ≤ ((pw0 18).chan 0).clk.wdCount) ∧
    ((b0.chan 0).led.staging.length < 16 ∧ (b0.chan 0).life.cond = Cond.running ∧ (b0.chan 0).life.power = Power.run ∧ bit (b0.chan 0).life.gated (↑0 : ℕ) = false ∧ ({ b0.mach 0 with ch := b0.chan 0 } : Mach).quench.ch.led.staging.length < 16) ∧
    ((b0.chan 0).led.staging.length < 16 ∧ (b0.chan 0).life.cond = Cond.running ∧ (b0.chan 0).life.power = Power.run ∧ bit (b0.chan 0).life.gated (↑0 : ℕ) = false) ∧
    ((b0.chan 0).led.staging.length < 16 ∧ (b0.chan 0).life.cond = Cond.running ∧ 1#4 ≤ 1#4 ∧ 1#4 ≤ 8#4 ∧ ({ b0.mach 0 with ch := b0.chan 0 } : Mach).quench.ch.led.staging.length < 16) := by
  and_intros <;> first | decide +kernel | (unfold levelKind; decide +kernel)
theorem test_hyps_Straps :
    (((sp 0).chan 0).life.cond = Cond.sampling ∧ ((sp 0).chan 0).life.en = some true ∧ ((sp 0).chan 0).led.snapRead = true ∧ ((sp 0).chan 0).led.staging.length < 16 ∧ ((sp 0).chan 0).mc.trainFail = none ∧ (∀ (k : Chan), k ≠ 0 → ((sp 0).chan k).life.cond = Cond.sampling → ((sp 0).chan k).allDecided = true → ((sp 0).chan k).straps[0].source ≠ 5#3) ∧ ∀ (j : Fin 8), ((sp 0).chan 0).straps[j].decided = decide (j < 0)) ∧
    ((sp 7).square.porN = true ∧ (sp 7).square.failed = false ∧ (sp 7).square.led.snapRead = true ∧ (sp 7).square.straps[0].decided = false ∧ ∀ j : Fin 4, j < 0 → (sp 7).square.straps[j].decided = true) ∧
    (mapWf (b0.chan 0).win = true ∧ (b0.chan 0).life.cond = Cond.running ∧ (b0.chan 0).clk.monWait < 1966080) ∧
    (mapWf ((wa 0).chan 0).win = true ∧ ((wa 0).chan 0).life.cond = Cond.running ∧ 1966080 ≤ ((wa 0).chan 0).clk.monWait) ∧
    ((wa 0).square.failed = false ∧ (∀ (pin : Fin 4), (wa 0).square.straps[pin].decided = true) ∧ 1966080 ≤ (wa 0).square.monWait) ∧
    (mapWf (b0.chan 0).win = true ∧ b0.awake 0) ∧
    (((sp 12).chan 0).life.cond = Cond.sampling ∧ ((sp 12).chan 0).led.snapRead = false) ∧
    (b0.square.led.snapRead = false) := by
  and_intros <;> decide +kernel
theorem test_hyps_LedgerWriter :
    ((b0.chan 0).life.cond ≠ Cond.inReset ∧ 1#6 ≤ 1#6 ∧ 1#6 ≤ 17#6 ∧ 1#6 ≠ 15#6 ∧ (b0.chan 0).led.staging.length < 16) ∧
    (((lg 3).chan 0).life.cond ≠ Cond.inReset ∧ 1#6 ≤ 1#6 ∧ 1#6 ≤ 17#6 ∧ 1#6 ≠ 15#6 ∧ 16 ≤ ((lg 3).chan 0).led.staging.length) ∧
    (((lg 1).chan 0).life.cond ≠ Cond.inReset ∧ ((lg 1).chan 0).life.offCause ≠ some OffCause.request ∧ (((lg 1).chan 0).led.scan = false ∧ ((lg 1).chan 0).led.stopped = false ∧ ((lg 1).chan 0).led.suspended = none ∧ ((lg 1).chan 0).led.lockReq = none) ∧ ((lg 1).chan 0).led.job = none ∧ ((lg 1).chan 0).led.items = [] ∧ ((lg 1).chan 0).led.staging = [Staged.error (5#6) false true 3#8 77#24 3735928559#32, Staged.error (6#6) false true 3#8 77#24 3735928559#32]) ∧
    (((lg 5).chan 0).life.cond ≠ Cond.inReset ∧ ((lg 5).chan 0).life.offCause ≠ some OffCause.request ∧ (((lg 5).chan 0).led.scan = false ∧ ((lg 5).chan 0).led.stopped = false ∧ ((lg 5).chan 0).led.suspended = none ∧ ((lg 5).chan 0).led.lockReq = none) ∧ ((lg 5).chan 0).led.job = some { kind := JobKind.entry, todo := [(2048, 3#32), (2049, 4#32)], seq := some 5#24 }) ∧
    (b0.awake 0 ∧ (b0.chan 0).boot.good = false) ∧
    ((lg 9).awake 0 ∧ ((lg 9).chan 0).boot.good = true) ∧
    (b0.awake 0 ∧ (b0.chan 0).led.staging.length < 16) ∧
    (((sp 0).chan 0).led.scan = true ∧ ((sp 0).chan 0).led.snapRead = true) := by
  and_intros <;> decide +kernel
theorem test_hyps_BootSequence :
    (((wa 1).chan 0).led.staging.length < 15 ∧ ((wa 1).chan 0).life.cond = Cond.booting ∧ ((wa 1).chan 0).boot.stage = BootStage.discover ∧ 64#16 ≤ 64#16 ∧ 64#16 ≤ 2048#16 ∧ ((wa 1).chan 0).straps[4].level.toNat ≤ (↑0 : ℕ) ∧ bit 1#6 (↑0 : ℕ) = true ∧ ∀ (j : Fin 6), ((wa 1).chan 0).straps[4].level.toNat ≤ (↑j : ℕ) → j < 0 → bit 1#6 (↑j : ℕ) = false) ∧
    (((wa 1).chan 0).led.staging.length < 15 ∧ ((wa 1).chan 0).life.cond = Cond.booting ∧ ((wa 1).chan 0).boot.stage = BootStage.discover ∧ ((wa 1).chan 0).boot.prev = none) ∧
    (((bo 6).chan 0).led.staging.length < 15 ∧ ((bo 6).chan 0).life.cond = Cond.booting ∧ ((bo 6).chan 0).boot.stage = BootStage.load ∧ ((bo 6).chan 0).boot.prev = none ∧ ((bo 6).chan 0).boot.order ≠ []) ∧
    (((wa 7).chan 0).led.staging.length < 15 ∧ ((wa 7).chan 0).life.cond = Cond.booting ∧ ((wa 7).chan 0).boot.stage = BootStage.attempt ∧ ((wa 7).chan 0).boot.prev = none ∧ ((wa 7).chan 0).boot.order = [] ∧ ((wa 7).chan 0).boot.gone = 0#2) ∧
    (((bo 4).chan 0).led.staging.length < 15 ∧ ((bo 4).chan 0).life.cond = Cond.booting ∧ ((bo 4).chan 0).boot.stage = BootStage.attempt ∧ ((bo 4).chan 0).led.scan = false ∧ ((bo 4).chan 0).boot.gone = 0#2 ∧ ((bo 4).chan 0).boot.prev = none ∧ (((bo 4).chan 0).boot.order = [1, 0] ∨ ((bo 4).chan 0).boot.order = [] ∧ ((bo 4).chan 0).boot.known = false ∧ 1 = 0 ∧ [0] = [1])) ∧
    (((bo 6).chan 0).led.staging.length < 15 ∧ ((bo 6).chan 0).life.cond = Cond.booting ∧ ((bo 6).chan 0).boot.stage = BootStage.load ∧ ((bo 6).chan 0).mc.trained = true ∧ ((bo 6).chan 0).led.owes Item.boot = false ∧ ((bo 6).chan 0).boot.prev = none ∧ ((bo 6).chan 0).boot.order ≠ [] ∧ sound [] ((bo 6).chan 0).boot.slotSize ((bo 6).chan 0).memCells = false) ∧
    (((bo 12).chan 0).led.staging.length < 15 ∧ ((bo 12).chan 0).life.cond = Cond.booting ∧ ((bo 12).chan 0).boot.stage = BootStage.load ∧ ((bo 12).chan 0).mc.trained = true ∧ ((bo 12).chan 0).led.owes Item.boot = false ∧ ((bo 12).chan 0).boot.prev = none ∧ ((bo 12).chan 0).boot.order ≠ [] ∧ (bo 12).joins 0 = true ∧ ((bo 12).chan 0).boot.second = false ∧ sound imgOk ((bo 12).chan 0).boot.slotSize ((bo 12).chan 0).memCells = true ∧ (((bo 12).mach 0).loadSections imgOk false 0 (sections imgOk)).1 = none) ∧
    (((bo 6).chan 0).led.staging.length < 15 ∧ ((bo 6).chan 0).life.cond = Cond.booting ∧ ((bo 6).chan 0).boot.stage = BootStage.load ∧ ((bo 6).chan 0).mc.trained = true ∧ ((bo 6).chan 0).led.owes Item.boot = false ∧ ((bo 6).chan 0).boot.prev = none ∧ ((bo 6).chan 0).boot.order ≠ [] ∧ (bo 6).joins 0 = false ∧ ((bo 6).chan 0).boot.second = false ∧ sound imgOk ((bo 6).chan 0).boot.slotSize ((bo 6).chan 0).memCells = true ∧ (((bo 6).mach 0).loadSections imgOk true 0 (sections imgOk)).1 = none) ∧
    (((bo 6).chan 0).led.staging.length < 15 ∧ ((bo 6).chan 0).life.cond = Cond.booting ∧ ((bo 6).chan 0).boot.stage = BootStage.load ∧ ((bo 6).chan 0).mc.trained = true ∧ ((bo 6).chan 0).led.owes Item.boot = false ∧ ((bo 6).chan 0).boot.prev = none ∧ ((bo 6).chan 0).boot.order ≠ [] ∧ (bo 6).joins 0 = false ∧ ((bo 6).chan 0).boot.second = false ∧ sound imgSect ((bo 6).chan 0).boot.slotSize ((bo 6).chan 0).memCells = true ∧ (((bo 6).mach 0).loadSections imgSect true 0 (sections imgSect)).1 = some 0) ∧
    (((wa 2).chan 0).led.staging.length < 15 ∧ ((wa 2).chan 0).life.cond = Cond.booting ∧ ((wa 2).chan 0).boot.stage = BootStage.failed ∧ 327680 ≤ ((wa 2).chan 0).boot.waited) ∧
    (((wa 7).chan 0).led.staging.length < 15 ∧ ((wa 7).chan 0).life.cond = Cond.booting ∧ ((wa 7).chan 0).boot.waited < 327680) ∧
    (((bo 10).chan 0).led.staging.length < 15 ∧ ((bo 10).chan 0).life.cond = Cond.booting ∧ ((bo 10).chan 0).boot.stage = BootStage.passed ∧ ((bo 10).chan 0).led.owes Item.boot = false ∧ (bo 10).partner 0 = none ∧ ((bo 10).chan 0).boot.image = some img2) ∧
    (((bo 11).chan 0).led.staging.length < 15 ∧ ((bo 11).chan 0).life.cond = Cond.booting ∧ ((bo 11).chan 0).boot.stage = BootStage.applied ∧ ((bo 11).chan 0).pair.role ≠ Role.standby ∧ ((bo 11).chan 0).pair.role ≠ Role.joining ∧ ((bo 11).chan 0).boot.image = some img2) := by
  and_intros <;> first | with_reducible exact imgOk_loads true (by decide +kernel) | with_reducible exact imgOk_loads false (by decide +kernel) | decide +kernel
theorem test_hyps_MemoryController :
    (((mc 1).chan 0).life.cond = Cond.booting ∧ ((mc 1).chan 0).mc.trained = false ∧ ((mc 1).chan 0).led.scan = false ∧ ((mc 1).chan 0).mc.retryWait = false ∧ ((mc 1).chan 0).restorable = false ∧ 0#4 = 0#4) ∧
    (((mc 1).chan 0).life.cond = Cond.booting ∧ ((mc 1).chan 0).mc.trained = false ∧ ((mc 1).chan 0).led.scan = false ∧ ((mc 1).chan 0).mc.retryWait = false ∧ ((mc 1).chan 0).restorable = false ∧ ((mc 1).chan 0).led.staging.length < 16 ∧ 1#4 ≠ 0#4 ∧ ((mc 1).chan 0).mc.trainFail ≠ some (true, 1#4)) ∧
    (((mc 3).chan 0).life.cond = Cond.booting ∧ ((mc 3).chan 0).mc.trained = false ∧ ((mc 3).chan 0).led.scan = false ∧ ((mc 3).chan 0).restorable = true ∧ ((mc 3).chan 0).mc.restoreFailed = false) ∧
    (327680 ≤ ((wa 0).chan 0).mc.waited) ∧
    ((b0.chan 0).mc.waited < 327680) ∧
    ((((mc 4).chan 0).mc.trained = true ∧ ((mc 4).chan 0).life.cond = Cond.running ∧ ((mc 4).chan 0).life.power ≠ Power.sleep) ∧ ((mc 4).chan 0).mc.unread = false ∧ ((mc 4).chan 0).nextScan = none ∧ ((mc 4).chan 0).mc.pool = [(rq 16 ReqKind.read ReqStage.waiting [])] ∧ (rq 16 ReqKind.read ReqStage.waiting []).stage = ReqStage.waiting ∧ (false = true → ((mc 4).chan 0).hasB = true) ∧ ((mc 4).chan 0).mc.sub[if false = true then 1 else 0].owed = 0#2 ∧ ((mc 4).chan 0).mc.sub[if false = true then 1 else 0].toCmd ≤ 1 ∧ (((mc 4).chan 0).subOf (rq 16 ReqKind.read ReqStage.waiting []).line = if false = true then 1 else 0) ∧ ((mc 4).chan 0).mc.sub[if false = true then 1 else 0].open_ = [] ∧ (((mc 4).chan 0).mc.sub[if false = true then 1 else 0].bank (((mc 4).chan 0).spot (rq 16 ReqKind.read ReqStage.waiting []).line).2).row = none ∧ (((mc 4).chan 0).mc.sub[if false = true then 1 else 0].bank (((mc 4).chan 0).spot (rq 16 ReqKind.read ReqStage.waiting []).line).2).toAct ≤ 1) ∧
    ((((mc 5).chan 0).mc.trained = true ∧ ((mc 5).chan 0).life.cond = Cond.running ∧ ((mc 5).chan 0).life.power ≠ Power.sleep) ∧ ((mc 5).chan 0).mc.unread = false ∧ ((mc 5).chan 0).nextScan = none ∧ ((mc 5).chan 0).mc.pool = [(rq 16 ReqKind.read ReqStage.waiting [])] ∧ (rq 16 ReqKind.read ReqStage.waiting []).stage = ReqStage.waiting ∧ (false = true → ((mc 5).chan 0).hasB = true) ∧ ((mc 5).chan 0).mc.sub[if false = true then 1 else 0].owed = 0#2 ∧ ((mc 5).chan 0).mc.sub[if false = true then 1 else 0].toCmd ≤ 1 ∧ (((mc 5).chan 0).subOf (rq 16 ReqKind.read ReqStage.waiting []).line = if false = true then 1 else 0) ∧ ((mc 5).chan 0).mc.sub[if false = true then 1 else 0].open_ = [] ∧ (((mc 5).chan 0).mc.sub[if false = true then 1 else 0].bank (((mc 5).chan 0).spot (rq 16 ReqKind.read ReqStage.waiting []).line).2).row = some (((mc 5).chan 0).spot (rq 16 ReqKind.read ReqStage.waiting []).line).1 ∧ (((mc 5).chan 0).mc.sub[if false = true then 1 else 0].bank (((mc 5).chan 0).spot (rq 16 ReqKind.read ReqStage.waiting []).line).2).toCol ≤ 1 ∧ ((mc 5).chan 0).mc.sub[if false = true then 1 else 0].toBus ≤ 1 ∧ (rq 16 ReqKind.read ReqStage.waiting []).left ≤ 1 ∧ ((rq 16 ReqKind.read ReqStage.waiting []).kind = ReqKind.read ∨ (rq 16 ReqKind.read ReqStage.waiting []).kind = ReqKind.scrub ∨ (rq 16 ReqKind.read ReqStage.waiting []).kind = ReqKind.write)) ∧
    ((((mx 0).chan 0).mc.trained = true ∧ ((mx 0).chan 0).life.cond = Cond.running ∧ ((mx 0).chan 0).life.power ≠ Power.sleep) ∧ ((mx 0).chan 0).mc.unread = false ∧ ((mx 0).chan 0).nextScan = none ∧ ((mx 0).chan 0).mc.pool = [(rq 16 ReqKind.read ReqStage.waiting [])] ∧ (rq 16 ReqKind.read ReqStage.waiting []).stage = ReqStage.waiting ∧ (false = true → ((mx 0).chan 0).hasB = true) ∧ ((mx 0).chan 0).mc.sub[if false = true then 1 else 0].owed = 0#2 ∧ ((mx 0).chan 0).mc.sub[if false = true then 1 else 0].toCmd ≤ 1 ∧ (((mx 0).chan 0).subOf (rq 16 ReqKind.read ReqStage.waiting []).line = if false = true then 1 else 0) ∧ ((mx 0).chan 0).mc.sub[if false = true then 1 else 0].open_ = [] ∧ ((((mx 0).chan 0).mc.sub[if false = true then 1 else 0].bank (((mx 0).chan 0).spot (rq 16 ReqKind.read ReqStage.waiting []).line).2).row = none → 1 < (((mx 0).chan 0).mc.sub[if false = true then 1 else 0].bank (((mx 0).chan 0).spot (rq 16 ReqKind.read ReqStage.waiting []).line).2).toAct) ∧ (∀ (row : BitVec 16), (((mx 0).chan 0).mc.sub[if false = true then 1 else 0].bank (((mx 0).chan 0).spot (rq 16 ReqKind.read ReqStage.waiting []).line).2).row = some row → row ≠ (((mx 0).chan 0).spot (rq 16 ReqKind.read ReqStage.waiting []).line).1 → 1 < (((mx 0).chan 0).mc.sub[if false = true then 1 else 0].bank (((mx 0).chan 0).spot (rq 16 ReqKind.read ReqStage.waiting []).line).2).toPre) ∧ ((((mx 0).chan 0).mc.sub[if false = true then 1 else 0].bank (((mx 0).chan 0).spot (rq 16 ReqKind.read ReqStage.waiting []).line).2).row = some (((mx 0).chan 0).spot (rq 16 ReqKind.read ReqStage.waiting []).line).1 → 1 < (((mx 0).chan 0).mc.sub[if false = true then 1 else 0].bank (((mx 0).chan 0).spot (rq 16 ReqKind.read ReqStage.waiting []).line).2).toCol ∨ 1 < ((mx 0).chan 0).mc.sub[if false = true then 1 else 0].toBus ∨ 1 < (rq 16 ReqKind.read ReqStage.waiting []).left)) ∧
    ((((mc 6).chan 0).mc.trained = true ∧ ((mc 6).chan 0).life.cond = Cond.running ∧ ((mc 6).chan 0).life.power ≠ Power.sleep) ∧ ((mc 6).chan 0).mc.queued = [] ∧ (rq 16 ReqKind.read ReqStage.issued []).stage = ReqStage.issued ∧ (rq 16 ReqKind.read ReqStage.issued []).left = 0 ∧ (rq 16 ReqKind.read ReqStage.issued []).errs = [] ∧ (rq 16 ReqKind.read ReqStage.issued []).age < 512 ∧ ((mc 6).chan 0).mc.pool = [(rq 16 ReqKind.read ReqStage.issued [])] ∧ (((mc 6).chan 0).subOf (rq 16 ReqKind.read ReqStage.issued []).line = if false = true then 1 else 0) ∧ ((rq 16 ReqKind.read ReqStage.issued []).kind = ReqKind.read ∨ (rq 16 ReqKind.read ReqStage.issued []).kind = ReqKind.scrub)) ∧
    ((((mc 18).chan 0).mc.trained = true ∧ ((mc 18).chan 0).life.cond = Cond.running ∧ ((mc 18).chan 0).life.power ≠ Power.sleep) ∧ ((mc 18).chan 0).mc.queued = [] ∧ (rq 16 ReqKind.write ReqStage.issued []).stage = ReqStage.issued ∧ (rq 16 ReqKind.write ReqStage.issued []).left = 0 ∧ (rq 16 ReqKind.write ReqStage.issued []).errs = [] ∧ (rq 16 ReqKind.write ReqStage.issued []).age < 512 ∧ ((mc 18).chan 0).mc.pool = [(rq 16 ReqKind.write ReqStage.issued [])] ∧ (((mc 18).chan 0).subOf (rq 16 ReqKind.write ReqStage.issued []).line = if false = true then 1 else 0) ∧ ((rq 16 ReqKind.write ReqStage.issued []).kind = ReqKind.write ∨ (rq 16 ReqKind.write ReqStage.issued []).kind = ReqKind.merge)) ∧
    ((((mc 34).chan 0).mc.trained = true ∧ ((mc 34).chan 0).life.cond = Cond.running ∧ ((mc 34).chan 0).life.power ≠ Power.sleep) ∧ (((mc 34).chan 0).mc.sub[if true = true then 1 else 0].bank (↑0 : ℕ)).row.isSome = true ∧ 256 ≤ (((mc 34).chan 0).mc.sub[if true = true then 1 else 0].bank (↑0 : ℕ)).idle) ∧
    (((b0.chan 0).mc.trained = true ∧ (b0.chan 0).life.cond = Cond.running ∧ (b0.chan 0).life.power ≠ Power.sleep) ∧ (b0.chan 0).mc.pool = [] ∧ (true = true → (b0.chan 0).hasB = true)) ∧
    ((b0.chan 0).mc.trained = true ∧ (b0.chan 0).life.cond = Cond.running ∧ (b0.chan 0).life.power ≠ Power.sleep) ∧
    (((b0.chan 0).mc.trained = true ∧ (b0.chan 0).life.cond = Cond.running ∧ (b0.chan 0).life.power ≠ Power.sleep) ∧ (true = true → (b0.chan 0).hasB = true)) ∧
    (((wa 0).chan 0).mc.sub[if true = true then 1 else 0].winLen ≤ ((wa 0).chan 0).mc.sub[if true = true then 1 else 0].winAge) ∧
    ((b0.chan 0).mc.sub[if true = true then 1 else 0].winAge < (b0.chan 0).mc.sub[if true = true then 1 else 0].winLen) ∧
    ((((mc 36).chan 0).mc.trained = true ∧ ((mc 36).chan 0).life.cond = Cond.running ∧ ((mc 36).chan 0).life.power ≠ Power.sleep) ∧ ((mc 36).chan 0).mc.sub[if true = true then 1 else 0].stuck = false ∧ ((mc 36).chan 0).mc.sub[if true = true then 1 else 0].open_ = [{ line := 16, alerts := 0#2, left := 3 }] ∧ ({ line := 16, alerts := 0#2, left := 3 } : OpenWrite).alerts ≠ 2#2) ∧
    ((((mc 37).chan 0).mc.trained = true ∧ ((mc 37).chan 0).life.cond = Cond.running ∧ ((mc 37).chan 0).life.power ≠ Power.sleep) ∧ ((mc 37).chan 0).mc.sub[if true = true then 1 else 0].stuck = false ∧ ((mc 37).chan 0).mc.sub[if true = true then 1 else 0].open_ = [{ line := 16, alerts := 2#2, left := 3 }] ∧ ({ line := 16, alerts := 2#2, left := 3 } : OpenWrite).alerts = 2#2 ∧ ∀ i < 16, ((mc 37).chan 0).place (({ line := 16, alerts := 2#2, left := 3 } : OpenWrite).line * 16 + i) = Place.memory) ∧
    (((b0.chan 0).mc.trained = true ∧ (b0.chan 0).life.cond = Cond.running ∧ (b0.chan 0).life.power ≠ Power.sleep) ∧ (b0.chan 0).led.staging.length < 16 ∧ (true = true → (b0.chan 0).hasB = true) ∧ (b0.chan 0).mc.sub[if true = true then 1 else 0].stuck = false) ∧
    (((mc 40).chan 0).life.cond = Cond.running ∧ ((mc 40).chan 0).life.power ≠ Power.sleep ∧ ((mc 40).chan 0).framing = true ∧ ((mc 40).chan 0).mc.panic = false ∧ ((mc 40).chan 0).mc.panicHeld = false) ∧
    (((mc 39).chan 0).mc.panic = true) ∧
    (b0.awake 0) := by
  and_intros <;> first | with_reducible exact mc_restorable | (intro r h _; exact absurd (h.symm.trans (by decide +kernel)) (Option.some_ne_none r)) | decide +kernel
theorem test_hyps_SweeperCommands :
    (b0.awake 0 ∧ (b0.chan 0).sw.phase = Phase.idle ∧ (b0.chan 0).sw.starting = false) ∧
    ((sc 1).awake 0 ∧ (((sc 1).chan 0).sw.phase = Phase.idle ∧ ((sc 1).chan 0).sw.starting = false) ∧ ((sc 1).chan 0).sw.slots[0].en = false ∧ (∀ r < 256, ((sc 1).chan 0).place (bits ((sc 1).chan 0).proc.regmap 0 22 * 1024 + 256 * (↑0 : ℕ) + r) = Place.memory ∧ cellTag ((sc 1).cell 0 (bits ((sc 1).chan 0).proc.regmap 0 22 * 1024 + 256 * (↑0 : ℕ) + r)) = tFIX ∧ have e := cellPay ((sc 1).cell 0 (bits ((sc 1).chan 0).proc.regmap 0 22 * 1024 + 256 * (↑0 : ℕ) + r)); (entryKind e = 0 ∨ entryKind e = 5 ∨ entryKind e = 6) ∧ bits e 16 3 = 0 ∧ bits e 0 8 = 0) ∧ ((sc 1).chan 0).place (((sc 1).chan 0).sw.slots[0].side.toNat * 1024) = Place.memory ∧ ((sc 1).chan 0).place (((sc 1).chan 0).sw.slots[0].side.toNat * 1024 + 127) = Place.memory ∧ ∀ (u : Fin 8), ((sc 1).chan 0).sw.slots[u].en = true → ((sc 1).chan 0).sw.slots[u].asid ≠ 0#8) ∧
    ((sc 3).awake 0 ∧ (((sc 3).chan 0).sw.phase = Phase.idle ∧ ((sc 3).chan 0).sw.starting = false) ∧ ((sc 3).chan 0).sw.slots[3].en = true ∧ ((sc 3).chan 0).core[0].wb = [] ∧ ((sc 3).chan 0).core[1].wb = [] ∧ ((sc 3).chan 0).proc.heals = [] ∧ (∀ (t : Fin 8) (k : Payload), ((sc 3).thread 0 t).status ≠ ThStatus.waiting k) ∧ (∀ i < 540672, ((sc 3).chan 0).place (((sc 3).chan 0).sw.slots[3].side.toNat * 1024 + i) = Place.memory) ∧ ∀ e ∈ ((sc 3).chan 0).sw.slots[3].pitch, e.2.2 ≤ 16777216) ∧
    (b0.awake 0 ∧ ((b0.chan 0).sw.phase = Phase.idle ∧ (b0.chan 0).sw.starting = false) ∧ (b0.chan 0).sw.slots[0].en = false) ∧
    ((ro 0).awake 0 ∧ ¬(((ro 0).chan 0).sw.phase = Phase.idle ∧ ((ro 0).chan 0).sw.starting = false)) ∧
    ((sc 3).awake 0 ∧ (((sc 3).chan 0).sw.phase = Phase.idle ∧ ((sc 3).chan 0).sw.starting = false) ∧ ((sc 3).chan 0).sw.slots[3].en = true ∧ ¬regionMay (((sc 3).chan 0).sw.slots[3].entry (0#8).toNat) (0#3).toNat true) ∧
    ((sc 3).awake 0 ∧ (((sc 3).chan 0).sw.phase = Phase.idle ∧ ((sc 3).chan 0).sw.starting = false) ∧ ((sc 3).chan 0).sw.slots[3].en = true ∧ mapWf ((sc 3).chan 0).sw.slots[3].map = true ∧ ((sc 3).chan 0).place (bits ((sc 3).chan 0).proc.regmap 0 22 * 1024 + 256 * (↑3 : ℕ) + (0#8).toNat) = Place.memory ∧ regionMay (((sc 3).chan 0).sw.slots[3].entry (0#8).toNat) (5#3).toNat false ∧ (entryKind (((sc 3).chan 0).sw.slots[3].entry (0#8).toNat) ≠ (5#3).toNat ∨ entryRoot (((sc 3).chan 0).sw.slots[3].entry (0#8).toNat) ≠ false)) ∧
    (b0.awake 0 ∧ 4#4 ≤ 4#4) ∧
    (((sc 5).chan 0).life.cond = Cond.running ∧ ((sc 5).chan 0).life.power = Power.run ∧ ((sc 5).mach 0).heldBack = false ∧ (((sc 5).chan 0).sw.phase = Phase.idle ∧ ((sc 5).chan 0).sw.starting = false) ∧ bits (winGet ((sc 5).chan 0) 8192) 8 8 ≠ 0 ∧ (((sc 5).chan 0).core[0].wb = [] ∧ ((sc 5).chan 0).core[1].wb = [] ∧ ((sc 5).chan 0).proc.heals = [] ∧ (∀ (t : Fin 8) (k : Payload), ((sc 5).thread 0 t).status ≠ ThStatus.waiting k) ∧ (∀ i < 540672, ((sc 5).chan 0).place (((sc 5).chan 0).sw.slots[0].side.toNat * 1024 + i) = Place.memory) ∧ ∀ e ∈ ((sc 5).chan 0).sw.slots[0].pitch, e.2.2 ≤ 16777216) ∧ ((sc 5).chan 0).sw.slots[0].en = true ∧ (∀ u : Fin 8, u < 0 → ((sc 5).chan 0).sw.slots[u].en = false) ∧ ((sc 5).chan 0).sw.slots[0].freeCount ≤ bits (winGet ((sc 5).chan 0) 8192) 8 8) ∧
    (((sc 5).chan 0).life.cond = Cond.running ∧ ((sc 5).chan 0).life.power = Power.run ∧ ((sc 5).mach 0).heldBack = false ∧ (((sc 5).chan 0).sw.phase = Phase.idle ∧ ((sc 5).chan 0).sw.starting = false) ∧ 6 < 256 ∧ 0 < 64 ∧ ((sc 5).chan 0).sw.slots[0].en = true ∧ entryKind (((sc 5).chan 0).sw.slots[0].entry 6) = 1 ∧ mapAt 0 ((sc 5).chan 0).sw.slots[0].handed 6 = 0 ∧ (∀ q < 6, entryKind (((sc 5).chan 0).sw.slots[0].entry q) = 1 → 64 ≤ mapAt 0 ((sc 5).chan 0).sw.slots[0].handed q) ∧ mapAt (0, 0) ((sc 5).chan 0).sw.slots[0].pitch (↑0 : ℕ) = (0, 0)) := by
  and_intros <;> first | exact noWait (by decide +kernel) | with_reducible exact side_place (by decide +kernel) | decide +kernel | (unfold regionMay; decide +kernel)
theorem test_hyps_SweeperCycle :
    (((sy 0).chan 0).life.cond = Cond.running ∧ ((sy 0).chan 0).life.power = Power.run ∧ ((sy 0).mach 0).heldBack = false ∧ ((sy 0).chan 0).sw.logOcc ≠ 0#11 ∧ 62466 = BitVec.toNat ((sy 0).chan 0).proc.nearbase + (((sy 0).chan 0).sw.logHead.toNat + 1024 - ((sy 0).chan 0).sw.logOcc.toNat) % 1024 ∧ 62466 < 65536 ∧ (sy 0).nearClean 0 62466 1 ∧ ((sy 0).chan 0).sw.slots[0].en = true ∧ (sy 0).cell 0 (2147483648 + 62466) = raw 53#24 ∧ bits (53#24) 18 3 = 0 ∧ bits (53#24) 21 3 = (↑0 : ℕ) ∧ 540675 = ((sy 0).chan 0).sw.slots[0].side.toNat * 1024 + 524288 + bits (53#24) 4 14 ∧ ((sy 0).chan 0).place 540675 = Place.memory) ∧
    (((sy 2).chan 0).life.cond = Cond.running ∧ ((sy 2).chan 0).life.power = Power.run ∧ ((sy 2).mach 0).heldBack = false ∧ (((sy 2).chan 0).sw.phase = Phase.roots ∨ ((sy 2).chan 0).sw.phase = Phase.mark) ∧ 4096 ≤ ((sy 2).chan 0).sw.queue.length ∧ ((sy 2).chan 0).sw.spilled % 16 = 0 ∧ ((sy 2).chan 0).sw.spilled + 16 ≤ bits (winGet ((sy 2).chan 0) 8198) 0 12 * 1024 ∧ ((sy 2).chan 0).place (bits (winGet ((sy 2).chan 0) 8197) 0 22 * 1024 + ((sy 2).chan 0).sw.spilled) = Place.memory) ∧
    (((sy 4).chan 0).life.cond = Cond.running ∧ ((sy 4).chan 0).life.power = Power.run ∧ ((sy 4).mach 0).heldBack = false ∧ ((sy 4).chan 0).sw.phase = Phase.mark ∧ ((sy 4).chan 0).sw.planned = true ∧ ((sy 4).chan 0).sw.queue = [] ∧ ((sy 4).chan 0).sw.spilled = 0 ∧ ((sy 4).chan 0).sw.work = [] ∧ 5 < 256 ∧ mapAt 0 ((sy 4).chan 0).sw.live 5 = 0 ∧ ((sy 4).chan 0).place (bits ((sy 4).chan 0).proc.regmap 0 22 * 1024 + 256 * (↑((sy 4).chan 0).sw.slot : ℕ) + 5) = Place.memory ∧ ((sy 4).chan 0).sw.slots[((sy 4).chan 0).sw.slot].map = [(5, 2097152#24)] ∧ entryKind 2097152#24 = 1 ∧ entryNew 2097152#24 = false) ∧
    (((sy 5).chan 0).life.cond = Cond.running ∧ ((sy 5).chan 0).life.power = Power.run ∧ ((sy 5).mach 0).heldBack = false ∧ ((sy 5).chan 0).sw.phase = Phase.evacuate ∧ ((sy 5).chan 0).sw.xlate = none ∧ ((sy 5).chan 0).sw.copy = some { src := 131072, len := 4, k := 1, dst := 196624 } ∧ ({ src := 131072, len := 4, k := 1, dst := 196624 } : CopyJob).k + 1 < ({ src := 131072, len := 4, k := 1, dst := 196624 } : CopyJob).len ∧ (sy 5).paged 0 (BitVec.ofNat 14 ((({ src := 131072, len := 4, k := 1, dst := 196624 } : CopyJob).src + ({ src := 131072, len := 4, k := 1, dst := 196624 } : CopyJob).k) / 1024)) ((sy 5).chan 0).sw.slots[((sy 5).chan 0).sw.slot].asid 9 32943 49188 ∧ (sy 5).paged 0 (BitVec.ofNat 14 ((({ src := 131072, len := 4, k := 1, dst := 196624 } : CopyJob).dst + ({ src := 131072, len := 4, k := 1, dst := 196624 } : CopyJob).k) / 1024)) ((sy 5).chan 0).sw.slots[((sy 5).chan 0).sw.slot].asid 11 33006 49196 ∧ 9217 = 9 * 1024 + (({ src := 131072, len := 4, k := 1, dst := 196624 } : CopyJob).src + ({ src := 131072, len := 4, k := 1, dst := 196624 } : CopyJob).k) % 1024 ∧ (isPtrOrFwd ((sy 5).cell 0 9217) = true → entryKind (((sy 5).chan 0).sw.slots[((sy 5).chan 0).sw.slot].entry (bits (cellPay ((sy 5).cell 0 9217)) 16 8)) ≠ 1 ∧ entryKind (((sy 5).chan 0).sw.slots[((sy 5).chan 0).sw.slot].entry (bits (cellPay ((sy 5).cell 0 9217)) 16 8)) ≠ 3) ∧ 11281 = 11 * 1024 + (({ src := 131072, len := 4, k := 1, dst := 196624 } : CopyJob).dst + ({ src := 131072, len := 4, k := 1, dst := 196624 } : CopyJob).k) % 1024 ∧ 9217 ≠ 11281 ∧ ∀ a ∈ [9217, 11281], a ∉ [32943, 49188, 49188 + 1, 49188 + 2, 33006, 49196, 49196 + 1, 49196 + 2]) ∧
    (((sy 7).chan 0).life.cond = Cond.running ∧ ((sy 7).chan 0).life.power = Power.run ∧ ((sy 7).mach 0).heldBack = false ∧ ((sy 7).chan 0).sw.phase = Phase.evacuate ∧ ((sy 7).chan 0).sw.copy = none ∧ ((sy 7).chan 0).sw.todo = [] ∧ ((sy 7).chan 0).sw.work = [] ∧ ((sy 7).chan 0).sw.toBlocks = [] ∧ ((sy 7).chan 0).sw.toEnd ≤ ((sy 7).chan 0).sw.toNext ∧ ∀ (t : Fin 8) (k : Payload), ((sy 7).thread 0 t).status ≠ ThStatus.waiting k) ∧
    (((sy 9).chan 0).life.cond = Cond.running ∧ ((sy 9).chan 0).life.power = Power.run ∧ ((sy 9).mach 0).heldBack = false ∧ ((sy 9).chan 0).sw.phase = Phase.fixup ∧ ((sy 9).chan 0).sw.planned = true ∧ ((sy 9).chan 0).sw.work = [] ∧ (((sy 9).chan 0).sw.full = true ∨ ((sy 9).chan 0).sw.lost = false ∨ ((sy 9).chan 0).sw.whole = true) ∧ mapWf ((sy 9).chan 0).sw.slots[((sy 9).chan 0).sw.slot].map = true ∧ (∀ e ∈ ((sy 9).chan 0).sw.slots[((sy 9).chan 0).sw.slot].map, e.1 < 256) ∧ (∀ r ∈ ((sy 9).chan 0).sw.toSpace, r < 256) ∧ (∀ a ∈ ((sy 9).chan 0).sw.marks, ((sy 9).chan 0).place a = Place.memory) ∧ ∀ r < 256, ((sy 9).chan 0).place (bits ((sy 9).chan 0).proc.regmap 0 22 * 1024 + 256 * (↑((sy 9).chan 0).sw.slot : ℕ) + r) = Place.memory) := by
  and_intros <;> first | exact noWait (by decide +kernel) | decide +kernel | (unfold State.nearClean; decide +kernel)
theorem test_hyps_DisplayEngine :
    ((mc 40).awake 0 ∧ ((mc 40).chan 0).dispOn = true) ∧
    ((mc 40).awake 0 ∧ ((mc 40).chan 0).dispOn = true ∧ ((mc 40).chan 0).disp.aux = none) ∧
    ((di 2).awake 0 ∧ ((di 2).chan 0).dispOn = true ∧ ((di 2).chan 0).disp.aux ≠ none) ∧
    ((mc 40).awake 0 ∧ ((mc 40).chan 0).dispOn = true ∧ ((mc 40).chan 0).disp.psr = false) ∧
    ((di 4).awake 0 ∧ ((di 4).chan 0).dispOn = true ∧ ((di 4).chan 0).disp.psr = true) ∧
    (¬((wa 6).chan 0).life.power ≠ Power.sleep) ∧
    (((di 6).chan 0).life.cond = Cond.running ∧ ((di 6).chan 0).life.power ≠ Power.sleep ∧ ((di 6).chan 0).disp.training = some (2#2, 2#2) ∧ 0#2 ≤ 2#2 ∧ 0#2 ≤ (dispCeiling ((di 6).chan 0).straps[7].level.toNat).2 ∧ 0#2 ≤ 2#2 ∧ 0#2 ≤ (dispCeiling ((di 6).chan 0).straps[7].level.toNat).1 ∧ (((di 6).chan 0).disp.hpd = false → 0#3 = 1#3) ∧ (((di 6).chan 0).disp.hpd = true → 0#3 = 0#3 ∨ 0#3 = 4#3 → (linkRate 0#2 0#2 * 8 < bits ((di 6).chan 0).disp.timing[0] 0 18 * 240 → 0#3 = 4#3) ∧ (¬linkRate 0#2 0#2 * 8 < bits ((di 6).chan 0).disp.timing[0] 0 18 * 240 → 0#3 = 0#3)) ∧ (((di 6).chan 0).disp.hpd = true → 0#3 ≠ 0#3 → 0#3 ≠ 4#3 → 0#3 = 0#3)) ∧
    (((di 2).chan 0).life.cond = Cond.running ∧ ((di 2).chan 0).life.power ≠ Power.sleep ∧ ((di 2).chan 0).disp.aux = some (1#2, 2#4) ∧ (bit (1#2) 0 = false ∨ 1#2 ≠ 0#2)) ∧
    (((di 2).chan 0).life.cond = Cond.running ∧ ((di 2).chan 0).life.power ≠ Power.sleep ∧ ((di 2).chan 0).disp.aux = some (1#2, 2#4) ∧ bit (1#2) 0 = true) ∧
    (((mc 40).chan 0).life.cond = Cond.running ∧ ((mc 40).chan 0).dispOn = true) ∧
    (((mc 40).chan 0).life.cond = Cond.running ∧ ((mc 40).chan 0).dispOn = true ∧ ((mc 40).chan 0).disp.psr = false) ∧
    (((di 4).chan 0).life.cond = Cond.running ∧ ((di 4).chan 0).dispOn = true ∧ ((di 4).chan 0).disp.psr = true) ∧
    ((b0.chan 0).life.cond = Cond.running ∧ (b0.chan 0).disp.aux = none) ∧
    (((mc 40).chan 0).life.cond = Cond.running ∧ ((mc 40).chan 0).life.power ≠ Power.sleep ∧ ((mc 40).chan 0).framing = true) ∧
    (((di 9).chan 0).life.cond = Cond.running ∧ ((di 9).chan 0).life.power ≠ Power.sleep ∧ ((di 9).chan 0).framing = true ∧ 1#4 ≠ 0#4 ∧ ∀ (p : Fin 4), bit 1#4 (↑p : ℕ) = true → bit ((di 9).chan 0).disp.planes[p].ctl 0 = true) ∧
    (((di 9).chan 0).life.cond = Cond.running ∧ ((di 9).chan 0).life.power ≠ Power.sleep ∧ ((di 9).chan 0).framing = true ∧ bit (winGet ((di 9).chan 0) 49162) 23 = true ∧ 1 ≤ bits (winGet ((di 9).chan 0) 49162) 0 8 ∧ bits (winGet ((di 9).chan 0) 49162) 0 8 ≤ ((di 9).chan 0).disp.unchanged) := by
  and_intros <;> decide +kernel
theorem test_hyps_PanelUnits :
    ((b0.chan 0).life.cond = Cond.running ∧ (0#10 < 4#10 → 4095 = bits (winGet (b0.chan 0) 81928) 0 12) ∧ (4#10 ≤ 0#10 → (bits (winGet (b0.chan 0) 81926) 0 10 ≤ bits (winGet (b0.chan 0) 81927) 0 10 ∨ bits (winGet (b0.chan 0) 81926) 0 10 ≤ (0#10).toNat → 4095 = 4095) ∧ (bits (winGet (b0.chan 0) 81927) 0 10 < bits (winGet (b0.chan 0) 81926) 0 10 → (0#10).toNat ≤ bits (winGet (b0.chan 0) 81927) 0 10 → 4095 = bits (winGet (b0.chan 0) 81928) 0 12) ∧ (bits (winGet (b0.chan 0) 81927) 0 10 < (0#10).toNat → (0#10).toNat < bits (winGet (b0.chan 0) 81926) 0 10 → 4095 = bits (winGet (b0.chan 0) 81928) 0 12 + (4095 - bits (winGet (b0.chan 0) 81928) 0 12) * ((0#10).toNat - bits (winGet (b0.chan 0) 81927) 0 10) / (bits (winGet (b0.chan 0) 81926) 0 10 - bits (winGet (b0.chan 0) 81927) 0 10)))) ∧
    (((pn 0).chan 0).life.cond = Cond.running ∧ bit (winGet ((pn 0).chan 0) 81929) 23 = true ∧ ((pn 0).chan 0).life.power ≠ Power.sleep ∧ ((pn 0).chan 0).panel.i2c = none) ∧
    (((pn 1).chan 0).life.cond = Cond.running ∧ bit (winGet ((pn 1).chan 0) 90112) 0 = true ∧ (↑0 : ℕ) / 8 ≤ bits (winGet ((pn 1).chan 0) 90112) 4 3 ∧ (↑0 : ℕ) % 8 ≤ bits (winGet ((pn 1).chan 0) 90112) 8 3 ∧ (((pn 1).chan 0).panel.disagree = if 0 = 0 then [] else [((↑0 : ℕ), 0)]) ∧ 0 + 1 < max 1 (bits (winGet ((pn 1).chan 0) 90112) 12 4)) ∧
    (((pn 0).chan 0).life.cond = Cond.running ∧ bit (winGet ((pn 0).chan 0) 90112) 0 = true ∧ (↑0 : ℕ) / 8 ≤ bits (winGet ((pn 0).chan 0) 90112) 4 3 ∧ (↑0 : ℕ) % 8 ≤ bits (winGet ((pn 0).chan 0) 90112) 8 3 ∧ (((pn 0).chan 0).panel.disagree = if 0 = 0 then [] else [((↑0 : ℕ), 0)]) ∧ max 1 (bits (winGet ((pn 0).chan 0) 90112) 12 4) ≤ 0 + 1 ∧ ((pn 0).chan 0).panel.keyq.length < 16) ∧
    (((pn 4).chan 0).life.cond = Cond.running ∧ bit (winGet ((pn 4).chan 0) 90112) 0 = true ∧ (↑0 : ℕ) / 8 ≤ bits (winGet ((pn 4).chan 0) 90112) 4 3 ∧ (↑0 : ℕ) % 8 ≤ bits (winGet ((pn 4).chan 0) 90112) 8 3 ∧ (((pn 4).chan 0).panel.disagree = if 0 = 0 then [] else [((↑0 : ℕ), 0)]) ∧ max 1 (bits (winGet ((pn 4).chan 0) 90112) 12 4) ≤ 0 + 1 ∧ 16 ≤ ((pn 4).chan 0).panel.keyq.length) ∧
    (((pn 0).chan 0).life.cond = Cond.running ∧ bit (winGet ((pn 0).chan 0) 90124) (↑0 : ℕ) = true ∧ ((pn 0).chan 0).panel.enc[0].a ≠ true ∧ ((pn 0).chan 0).panel.enc[0].b ≠ true) ∧
    (((pn 0).chan 0).life.cond = Cond.running ∧ bit (winGet ((pn 0).chan 0) 90124) (↑0 : ℕ) = true ∧ (((pn 0).chan 0).panel.enc[0].a = true ↔ ((pn 0).chan 0).panel.enc[0].b ≠ false) ∧ ((((pn 0).chan 0).panel.enc[0].a, ((pn 0).chan 0).panel.enc[0].b, true, false) ∈ [(false, false, true, false), (true, false, true, true), (true, true, false, true), (false, true, false, false)] → 1#16 = ((pn 0).chan 0).panel.enc[0].count + 1#16) ∧ ((((pn 0).chan 0).panel.enc[0].a, ((pn 0).chan 0).panel.enc[0].b, true, false) ∉ [(false, false, true, false), (true, false, true, true), (true, true, false, true), (false, true, false, false)] → 1#16 = ((pn 0).chan 0).panel.enc[0].count - 1#16)) ∧
    ((b0.chan 0).life.cond = Cond.running ∧ bit (b0.chan 0).panel.gpin (↑0 : ℕ) = false) ∧
    ((b0.chan 0).life.cond = Cond.running ∧ bit (b0.chan 0).panel.gpin (↑0 : ℕ) ≠ true) ∧
    ((b0.chan 0).life.cond = Cond.running) ∧
    ((b0.chan 0).life.cond = Cond.running ∧ winGet (b0.chan 0) (90138 + 3 * (↑0 : ℕ)) = 0#24) ∧
    (((pn 0).chan 0).life.cond = Cond.running ∧ winGet ((pn 0).chan 0) (90138 + 3 * (↑1 : ℕ)) ≠ 0#24) ∧
    (((pn 7).chan 0).life.cond = Cond.running ∧ ((pn 7).chan 0).life.power ≠ Power.sleep ∧ ((pn 7).chan 0).panel.i2c = some 0#4 ∧ (0#3 ≠ 0#3 ∨ 0#4 = 0#4)) ∧
    (((pn 8).chan 0).life.cond = Cond.running ∧ ((pn 8).chan 0).life.power ≠ Power.sleep ∧ ((pn 8).chan 0).panel.i2c = some 2#4) ∧
    ((pn 4).awake 0 ∧ ((pn 4).chan 0).panel.keyq = List.replicate 16 (true, 3)) ∧
    (b0.awake 0 ∧ (b0.chan 0).panel.keyq = []) ∧
    (b0.awake 0) ∧
    (b0.awake 0 ∧ (b0.chan 0).panel.i2c = none) ∧
    ((pn 7).awake 0 ∧ ((pn 7).chan 0).panel.i2c ≠ none) := by
  and_intros <;> decide +kernel
theorem test_hyps_TouchFrontEnd :
    (((tou 0).chan 0).touchOn = true ∧ (tou 0).awake 0 ∧ mapWf ((tou 0).chan 0).win = true ∧ ((tou 0).chan 0).touch.vtxf = false) ∧
    (((pw0 21).chan 0).touchOn = true ∧ (pw0 21).awake 0 ∧ mapWf ((pw0 21).chan 0).win = true ∧ ((pw0 21).chan 0).touch.vtxf = true) ∧
    (((pw0 21).chan 0).touchOn = true ∧ (pw0 21).awake 0 ∧ mapWf ((pw0 21).chan 0).win = true) ∧
    (((tou 2).chan 0).touchOn = true ∧ ((tou 2).chan 0).life.cond = Cond.running ∧ ((tou 2).chan 0).life.power ≠ Power.sleep ∧ ((tou 2).chan 0).touch.run = true ∧ ((tou 2).chan 0).touch.fresh = true ∧ ((tou 2).chan 0).touch.calBase = [] ∧ ((tou 2).chan 0).touch.vtxCal = 0#16 ∧ ((tou 2).chan 0).touch.glove = false ∧ 0 < bits ((tou 2).chan 0).touch.thr1 0 12 ∧ 0 < bits ((tou 2).chan 0).touch.thr2 0 12 ∧ 0 < bits ((tou 2).chan 0).touch.thr2 12 12) ∧
    (((tou 4).chan 0).touchOn = true ∧ ((tou 4).chan 0).life.cond = Cond.running ∧ bit (winGet ((tou 4).chan 0) (65536 + 11)) 23 = true ∧ bit (winGet ((tou 4).chan 0) (65536 + 0)) 1 = false ∧ ((tou 4).chan 0).touch.run = false ∧ 0 < bits (winGet ((tou 4).chan 0) (65536 + 11)) 0 16 ∧ ((tou 4).chan 0).touch.aReady = false) ∧
    (((tou 5).chan 0).touchOn = true ∧ ((tou 5).chan 0).life.cond = Cond.running ∧ bit (winGet ((tou 5).chan 0) (65536 + 11)) 23 = true ∧ bit (winGet ((tou 5).chan 0) (65536 + 0)) 1 = false ∧ ((tou 5).chan 0).touch.run = false ∧ 0 < bits (winGet ((tou 5).chan 0) (65536 + 11)) 0 16 ∧ ((tou 5).chan 0).touch.aReady = true ∧ BitVec.toNat ((tou 5).chan 0).touch.aBase + bits (winGet ((tou 5).chan 0) (65536 + 11)) 0 16 ≤ (150#24).toNat) ∧
    (((tou 5).chan 0).touchOn = true ∧ ((tou 5).chan 0).life.cond = Cond.running ∧ bit (winGet ((tou 5).chan 0) (65536 + 11)) 23 = true ∧ bit (winGet ((tou 5).chan 0) (65536 + 0)) 1 = false ∧ ((tou 5).chan 0).touch.run = false ∧ 0 < bits (winGet ((tou 5).chan 0) (65536 + 11)) 0 16 ∧ ((tou 5).chan 0).touch.aReady = true ∧ (149#24).toNat < BitVec.toNat ((tou 5).chan 0).touch.aBase + bits (winGet ((tou 5).chan 0) (65536 + 11)) 0 16 ∧ BitVec.toNat ((tou 5).chan 0).touch.aBase * 2 + bits (winGet ((tou 5).chan 0) (65536 + 11)) 0 16 ≤ 2 * (149#24).toNat) := by
  and_intros <;> decide +kernel
theorem test_hyps_PortQueues :
    ((wa 10).awake 0 ∧ (¬((wa 10).square.up = true ∧ descOk (wa 10).square (winGet ((wa 10).chan 0) (133120 + 512 * (↑0 : ℕ) + 0)) (winGet ((wa 10).chan 0) (133120 + 512 * (↑0 : ℕ) + 1)) (winGet ((wa 10).chan 0) (133120 + 512 * (↑0 : ℕ) + 2)) (unpack3 (List.map (fun i ↦ winGet ((wa 10).chan 0) (133120 + 512 * (↑0 : ℕ) + i)) (upFrom 3 506))) = true ∧ (wa 10).square.ifOff (Machine.frameOf (winGet ((wa 10).chan 0) (133120 + 512 * (↑0 : ℕ) + 0)) (winGet ((wa 10).chan 0) (133120 + 512 * (↑0 : ℕ) + 1)) (winGet ((wa 10).chan 0) (133120 + 512 * (↑0 : ℕ) + 2)) (unpack3 (List.map (fun i ↦ winGet ((wa 10).chan 0) (133120 + 512 * (↑0 : ℕ) + i)) (upFrom 3 506)))).iface = false) ∨ (Machine.frameOf (winGet ((wa 10).chan 0) (133120 + 512 * (↑0 : ℕ) + 0)) (winGet ((wa 10).chan 0) (133120 + 512 * (↑0 : ℕ) + 1)) (winGet ((wa 10).chan 0) (133120 + 512 * (↑0 : ℕ) + 2)) (unpack3 (List.map (fun i ↦ winGet ((wa 10).chan 0) (133120 + 512 * (↑0 : ℕ) + i)) (upFrom 3 506)))).committed = false ∧ ((wa 10).chan 0).pair.role = Role.active ∧ 32767 ≤ ((wa 10).square.ports[0].seqI - (wa 10).square.ports[0].snap.seqI).toNat)) ∧
    ((po 6).awake 0 ∧ 64 ≤ (po 6).square.ports[0].queue.length ∧ ((po 6).square.up = true ∧ descOk (po 6).square (winGet ((po 6).chan 0) (133120 + 512 * (↑0 : ℕ) + 0)) (winGet ((po 6).chan 0) (133120 + 512 * (↑0 : ℕ) + 1)) (winGet ((po 6).chan 0) (133120 + 512 * (↑0 : ℕ) + 2)) (unpack3 (List.map (fun i ↦ winGet ((po 6).chan 0) (133120 + 512 * (↑0 : ℕ) + i)) (upFrom 3 506))) = true ∧ (po 6).square.ifOff (Machine.frameOf (winGet ((po 6).chan 0) (133120 + 512 * (↑0 : ℕ) + 0)) (winGet ((po 6).chan 0) (133120 + 512 * (↑0 : ℕ) + 1)) (winGet ((po 6).chan 0) (133120 + 512 * (↑0 : ℕ) + 2)) (unpack3 (List.map (fun i ↦ winGet ((po 6).chan 0) (133120 + 512 * (↑0 : ℕ) + i)) (upFrom 3 506)))).iface = false) ∧ ¬((Machine.frameOf (winGet ((po 6).chan 0) (133120 + 512 * (↑0 : ℕ) + 0)) (winGet ((po 6).chan 0) (133120 + 512 * (↑0 : ℕ) + 1)) (winGet ((po 6).chan 0) (133120 + 512 * (↑0 : ℕ) + 2)) (unpack3 (List.map (fun i ↦ winGet ((po 6).chan 0) (133120 + 512 * (↑0 : ℕ) + i)) (upFrom 3 506)))).committed = false ∧ ((po 6).chan 0).pair.role = Role.active ∧ 32767 ≤ ((po 6).square.ports[0].seqI - (po 6).square.ports[0].snap.seqI).toNat)) ∧
    (b0.awake 0 ∧ b0.square.ports[0].queue.length < 64 ∧ (b0.square.up = true ∧ descOk b0.square (winGet (b0.chan 0) (133120 + 512 * (↑0 : ℕ) + 0)) (winGet (b0.chan 0) (133120 + 512 * (↑0 : ℕ) + 1)) (winGet (b0.chan 0) (133120 + 512 * (↑0 : ℕ) + 2)) (unpack3 (List.map (fun i ↦ winGet (b0.chan 0) (133120 + 512 * (↑0 : ℕ) + i)) (upFrom 3 506))) = true ∧ b0.square.ifOff (Machine.frameOf (winGet (b0.chan 0) (133120 + 512 * (↑0 : ℕ) + 0)) (winGet (b0.chan 0) (133120 + 512 * (↑0 : ℕ) + 1)) (winGet (b0.chan 0) (133120 + 512 * (↑0 : ℕ) + 2)) (unpack3 (List.map (fun i ↦ winGet (b0.chan 0) (133120 + 512 * (↑0 : ℕ) + i)) (upFrom 3 506)))).iface = false) ∧ ¬((Machine.frameOf (winGet (b0.chan 0) (133120 + 512 * (↑0 : ℕ) + 0)) (winGet (b0.chan 0) (133120 + 512 * (↑0 : ℕ) + 1)) (winGet (b0.chan 0) (133120 + 512 * (↑0 : ℕ) + 2)) (unpack3 (List.map (fun i ↦ winGet (b0.chan 0) (133120 + 512 * (↑0 : ℕ) + i)) (upFrom 3 506)))).committed = false ∧ (b0.chan 0).pair.role = Role.active ∧ 32767 ≤ (b0.square.ports[0].seqI - b0.square.ports[0].snap.seqI).toNat)) ∧
    (b0.awake 0 ∧ b0.square.ports[0].ring = []) ∧
    ((po 17).awake 0 ∧ (po 17).square.ports[0].replay = [] ∧ (po 17).square.ports[0].ring = [rxf 0] ∧ (po 17).square.ports[0].handover = []) ∧
    ((po 19).awake 0 ∧ (po 19).square.ports[0].replay = [] ∧ (po 19).square.ports[0].ring = rxf 0 :: List.map rxf (List.range' 1 62) ∧ (List.map rxf (List.range' 1 62)).length < 64 ∧ (po 19).square.ports[0].handover = [rxf 0]) ∧
    ((po 16).square.up = true ∧ (po 16).square.ifOff (hf 2 60 false).iface = false ∧ (hf 2 60 false).iface = 2 ∧ (po 16).square.eth.link = true ∧ rxOk (hf 2 60 false) = true ∧ (∀ (k : Chan), k ≠ 0 → (po 16).passes k (hf 2 60 false)) ∧ (po 16).square.ports[0].handover = [] ∧ (po 16).takes 0 (hf 2 60 false) 1 ∧ (po 16).square.ports[0].ring.length < 64 ∧ ((po 16).chan 0).pair.role ≠ Role.active) ∧
    ((po 18).square.up = true ∧ (po 18).square.ifOff (hf 2 60 false).iface = false ∧ (hf 2 60 false).iface = 2 ∧ (po 18).square.eth.link = true ∧ rxOk (hf 2 60 false) = true ∧ (∀ (k : Chan), k ≠ 0 → (po 18).passes k (hf 2 60 false)) ∧ (po 18).square.ports[0].handover = [] ∧ (po 18).takes 0 (hf 2 60 false) 0 ∧ 64 ≤ (po 18).square.ports[0].ring.length) ∧
    ((po 1).square.up = true ∧ (po 1).square.ifOff (hf 2 60 false).iface = false ∧ (hf 2 60 false).iface = 2 ∧ (po 1).square.eth.link = true ∧ rxOk (hf 2 60 false) = true ∧ ∀ (k : Chan), (po 1).passes k (hf 2 60 false)) ∧
    ((po 1).square.up = true ∧ (po 1).square.ifOff (hf 2 60 false).iface = false ∧ (hf 2 60 false).iface = 2 ∧ (po 1).square.eth.link = true) ∧
    ((po 1).square.up = true ∧ (po 1).square.ifOff (hf 2 60 false).iface = false ∧ (hf 2 60 false).iface = 2 ∧ (po 1).square.eth.link = true ∧ rxOk (hf 2 60 false) = true ∧ (po 1).square.led.staging.length < 16) ∧
    (b0.square.up = true ∧ b0.square.ifOff (hf 0 8 true).iface = false ∧ (↑(hf 0 8 true).iface : ℕ) = (↑0 : ℕ) ∧ b0.square.can[0].state ≠ BusState.off ∧ b0.square.can[0].waiting = false) := by
  with_reducible and_intros <;> first | decide +kernel | (unfold State.passes; decide +kernel) | (unfold State.awake; decide +kernel) | with_reducible exact takes_first | with_reducible exact takes_second
theorem test_hyps_SquareUnits :
    ((sq 0).square.up = true ∧ (sq 0).square.ports[0].gaspDue = [] ∧ (∀ (k : Chan), k ≠ 0 → (sq 0).square.ports[k].queue = [] ∧ (sq 0).square.ports[k].gaspDue = []) ∧ (sq 0).square.ports[0].queue = [txf 2] ∧ (txf 2).held = false ∧ (sq 0).square.ifOff (txf 2).frame.iface = false ∧ (txf 2).frame.iface = 2 ∧ (sq 0).square.eth.link = true ∧ ∀ (k : Chan), k ≠ 0 → (sq 0).passes k (txf 2).frame) ∧
    ((sq 0).square.up = true ∧ (sq 0).square.ports[0].gaspDue = [] ∧ (∀ (k : Chan), k ≠ 0 → (sq 0).square.ports[k].queue = [] ∧ (sq 0).square.ports[k].gaspDue = []) ∧ (sq 0).square.ports[0].queue = [txf 2] ∧ (txf 2).held = false ∧ (sq 0).square.ifOff (txf 2).frame.iface = false ∧ (txf 2).frame.iface = 2 ∧ (sq 0).square.eth.link = true ∧ (1#2 = 1#2 ∨ 1#2 = 2#2 ∧ (sq 0).square.eth.full = true)) ∧
    ((sq 0).square.up = true ∧ (sq 0).square.ports[0].gaspDue = [] ∧ (∀ (k : Chan), k ≠ 0 → (sq 0).square.ports[k].queue = [] ∧ (sq 0).square.ports[k].gaspDue = []) ∧ (sq 0).square.ports[0].queue = [txf 2] ∧ (txf 2).held = false ∧ (sq 0).square.ifOff (txf 2).frame.iface = false ∧ (txf 2).frame.iface = 2 ∧ (sq 0).square.led.staging.length < 16) ∧
    ((sq 0).square.up = true ∧ (sq 0).square.ports[0].gaspDue = [] ∧ (∀ (k : Chan), k ≠ 0 → (sq 0).square.ports[k].queue = [] ∧ (sq 0).square.ports[k].gaspDue = []) ∧ (sq 0).square.ports[0].queue = [txf 2] ∧ (txf 2).held = false ∧ (sq 0).square.ifOff (txf 2).frame.iface = false ∧ (txf 2).frame.iface = 2 ∧ 2#2 ≠ 3#2 ∧ ((sq 0).square.eth.link = false ∨ 2#2 = 2#2 ∧ (sq 0).square.eth.full = false)) ∧
    ((sq 2).square.up = true ∧ (sq 2).square.ports[0].gaspDue = [] ∧ (∀ (k : Chan), k ≠ 0 → (sq 2).square.ports[k].queue = [] ∧ (sq 2).square.ports[k].gaspDue = []) ∧ (sq 2).square.ports[0].queue = [txc 0] ∧ (txc 0).held = false ∧ (sq 2).square.ifOff (txc 0).frame.iface = false ∧ (txc 0).frame.iface = 0 ∧ (↑0 : ℕ) = (↑0 : ℕ) ∧ (sq 2).square.can[0].state = BusState.active ∧ (sq 2).square.can[0].waiting = false) ∧
    ((sq 2).square.up = true ∧ (sq 2).square.ports[0].gaspDue = [] ∧ (∀ (k : Chan), k ≠ 0 → (sq 2).square.ports[k].queue = [] ∧ (sq 2).square.ports[k].gaspDue = []) ∧ (sq 2).square.ports[0].queue = [txc 0] ∧ (txc 0).held = false ∧ (sq 2).square.ifOff (txc 0).frame.iface = false ∧ (txc 0).frame.iface = 0 ∧ (↑0 : ℕ) = (↑0 : ℕ) ∧ (sq 2).square.can[0].state = BusState.active ∧ (sq 2).square.can[0].waiting = false ∧ (sq 2).square.led.staging.length < 16) ∧
    ((sq 2).square.up = true ∧ (sq 2).square.ports[0].gaspDue = [] ∧ (∀ (k : Chan), k ≠ 0 → (sq 2).square.ports[k].queue = [] ∧ (sq 2).square.ports[k].gaspDue = []) ∧ (sq 2).square.ports[0].queue = [txc 0] ∧ (txc 0).held = false ∧ (sq 2).square.ifOff (txc 0).frame.iface = false ∧ (txc 0).frame.iface = 0 ∧ (↑0 : ℕ) = (↑0 : ℕ) ∧ (sq 2).square.can[0].state = BusState.active ∧ (sq 2).square.can[0].waiting = false ∧ (sq 2).square.can[0].tec + 8 ≤ 127 ∧ (sq 2).square.can[0].rec_ ≤ 127) ∧
    ((sq 2).square.up = true ∧ (sq 2).square.ports[0].gaspDue = [] ∧ (∀ (k : Chan), k ≠ 0 → (sq 2).square.ports[k].queue = [] ∧ (sq 2).square.ports[k].gaspDue = []) ∧ (sq 2).square.ports[0].queue = [txc 0] ∧ (txc 0).held = false ∧ (sq 2).square.ifOff (txc 0).frame.iface = false ∧ (txc 0).frame.iface = 0 ∧ (↑0 : ℕ) = (↑0 : ℕ) ∧ (sq 2).square.can[0].state = BusState.active ∧ (sq 2).square.can[0].waiting = false ∧ (sq 2).square.can[0].tec ≤ 127 ∧ (sq 2).square.can[0].rec_ ≤ 127 ∧ ∀ (x : Chan), x ≠ 0 → (sq 2).passes x (txc 0).frame) ∧
    (b0.square.up = true) ∧
    ((po 25).square.up = true ∧ (po 25).square.canOff = false ∧ (po 25).square.can[0].state = BusState.off) ∧
    ((bo 12).square.up = true ∧ (bo 12).square.ifOff 2 = false) ∧
    ((sq 6).square.up = true ∧ (sq 6).square.unownedNow ≠ 0 ∧ (sq 6).square.led.staging.length < 16) ∧
    ((sq 7).square.up = true ∧ (sq 7).square.ports[0].armed = true ∧ ((sq 7).chan 0).life.cond ≠ Cond.running) ∧
    (b0.square.up = true ∧ b0.square.led.staging.length < 16 ∧ (0#4 = 0#4 ∨ 0#4 = 2#4 ∨ 0#4 = 5#4)) ∧
    (b0.square.up = true ∧ 4#4 = 4#4 ∧ (if true = true then 2900 else 700) ≤ (3000#16).toNat ∧ (3000#16).toNat ≤ if true = true then 3700 else 920) ∧
    (b0.square.up = true ∧ 4#4 = 4#4 ∧ b0.square.led.staging.length < 15 ∧ (((800#16).toNat < if true = true then 2900 else 700) ∨ (if true = true then 3700 else 920) < (800#16).toNat)) := by
  and_intros <;> first | decide +kernel | (unfold State.passes; decide +kernel)
theorem test_hyps_Pairing :
    (1 ≠ 0 ∧ (pa 0).leader 0 = some 1) ∧
    (1 ≠ 0 ∧ (pa 0).leader 0 = some 1 ∧ ((pa 0).chan 1).pair.buf[((pa 0).chan 1).pair.applied]? = some (4#24, MirrorRec.idle)) ∧
    (1 ≠ 0 ∧ (pa 1).leader 0 = some 1 ∧ ((pa 1).chan 0).pair.role = Role.standby ∧ (∀ i < 16, ((pa 1).chan 0).place (16 * 16 + i) = Place.memory) ∧ 3 < 16 ∧ ((pa 1).chan 1).pair.buf[((pa 1).chan 1).pair.applied]? = some (4#24, MirrorRec.store 16 [(3, 99#32)])) ∧
    (1 ≠ 0 ∧ (pa 2).leader 0 = some 1 ∧ ((pa 2).chan 1).pair.applied = 0 ∧ ((pa 2).chan 0).pair.role = Role.standby ∧ (pa 2).square.up = true ∧ ((pa 2).chan 1).pair.buf = [(4#24, MirrorRec.commit 7#24 [(3#11, 5#32)]), (5#24, MirrorRec.idle)]) ∧
    (1 ≠ 0 ∧ (pa 14).follower 0 = some 1 ∧ ((pa 14).chan 0).life.cond = Cond.running ∧ ((pa 14).chan 0).pair.buf = [(4#24, MirrorRec.idle)]) ∧
    (1 ≠ 0 ∧ (pa 14).follower 0 = some 1 ∧ ((pa 14).chan 0).life.cond = Cond.running ∧ ((pa 14).chan 0).pair.applied = 1 ∧ ((pa 14).chan 1).pair.undo.length < 1572864 ∧ (∀ (e : BitVec 24) (w : List (BitVec 11 × Cell)), MirrorRec.idle ≠ MirrorRec.commit e w) ∧ ((pa 14).chan 0).pair.buf = [(4#24, MirrorRec.idle)]) ∧
    (1 ≠ 0 ∧ (pa 18).follower 0 = some 1 ∧ ((pa 18).chan 0).life.cond = Cond.running ∧ ((pa 18).chan 0).pair.applied = 1 ∧ ((pa 18).chan 0).pair.role = Role.active ∧ ((pa 18).chan 0).pair.buf = [(4#24, MirrorRec.commit 7#24 [])]) ∧
    (1 ≠ 0 ∧ (pa 26).follower 0 = some 1 ∧ ((pa 26).chan 0).life.cond = Cond.running ∧ ((pa 26).chan 0).pair.backSince = some 4935 ∧ 4935 + 65 ≤ ((pa 26).chan 0).clk.tb.toNat) ∧
    (1 ≠ 0 ∧ (pa 14).follower 0 = some 1 ∧ ((pa 14).chan 0).life.cond = Cond.running ∧ ((pa 14).chan 0).pair.ready = false ∧ ((pa 14).chan 0).life.power ≠ Power.sleep) ∧
    (1 ≠ 0 ∧ (pa 17).follower 0 = some 1 ∧ ((pa 17).chan 0).pair.buf = []) ∧
    (1 ≠ 0 ∧ (pa 14).follower 0 = some 1 ∧ ((pa 14).chan 0).pair.buf ≠ [] ∧ ((pa 14).chan 0).healthy = true) ∧
    (1 ≠ 0 ∧ ((pa 14).chan 0).life.cond = Cond.running ∧ (((pa 14).chan 0).pair.role = Role.active ∨ ((pa 14).chan 0).pair.role = Role.joiningActive) ∧ ((pa 14).mach 0).heldBack = false) ∧
    (1 ≠ 0 ∧ ((pa 28).chan 0).life.cond = Cond.running ∧ (((pa 28).chan 0).pair.role = Role.active ∨ ((pa 28).chan 0).pair.role = Role.joiningActive) ∧ (pa 28).partner 0 = some 1 ∧ ((pa 28).chan 1).healthy = false) ∧
    (1 ≠ 0 ∧ ((pa 27).chan 0).life.cond = Cond.running ∧ ((pa 27).chan 0).pair.role = Role.active ∧ ((pa 27).chan 0).clk.tb.toNat < ((pa 27).chan 0).pair.lastCommit + 1638) ∧
    (1 ≠ 0 ∧ ((pa 14).chan 0).life.cond = Cond.running ∧ ((pa 14).chan 0).pair.role = Role.active ∧ ((pa 14).chan 0).pair.lastCommit + 1638 ≤ ((pa 14).chan 0).clk.tb.toNat ∧ ((pa 14).chan 0).led.staging.length < 16) ∧
    (1 ≠ 0 ∧ (pa 29).partner 0 = some 1 ∧ ((pa 29).chan 0).life.cond = Cond.booting ∧ ((pa 29).chan 0).pair.role = Role.joining ∧ ((pa 29).chan 1).life.cond = Cond.running ∧ ((pa 29).chan 1).pair.role = Role.alone) ∧
    (1 ≠ 0 ∧ (pa 30).partner 0 = some 1 ∧ ((pa 30).chan 0).pair.role = Role.standby ∧ ((pa 30).chan 0).pair.linkUp = true ∧ ((pa 30).chan 1).healthy = false ∧ ((pa 30).chan 0).pair.formation = true ∧ ((pa 30).chan 0).boot.image = some { entry := 260#24, stack := 512#24, vpage := 2, digest := [], patch := none, attr := [], setup := none, cal := none } ∧ ((pa 30).chan 0).place 258 = Place.memory ∧ (∀ j < 16, ((pa 30).chan 0).place (258 / 16 * 16 + j) = Place.memory) ∧ ((pa 30).chan 0).pair.undo = [(258, 5#32)]) := by
  and_intros <;> first | exact fun _ _ h => by cases h | decide +kernel
theorem test_hyps_PerformanceAndWindow :
    ((b0.chan 0).life.cond = Cond.running) ∧
    (((pf 1).chan 0).life.cond = Cond.running ∧ bit (winGet ((pf 1).chan 0) 6144) 23 = true ∧ ((pf 1).chan 0).life.power ≠ Power.sleep) ∧
    (((pf 3).chan 0).life.cond = Cond.running ∧ ((pf 3).chan 0).life.power ≠ Power.sleep ∧ ((pf 3).chan 0).perf.queue = [(true, #v[1#32, 2#32, 3#32, 4#32]), (false, #v[1#32, 2#32, 3#32, 4#32])] ∧ ((pf 3).chan 0).perf.stopped = true) ∧
    (((pf 1).chan 0).life.cond = Cond.running ∧ ((pf 1).chan 0).life.power ≠ Power.sleep ∧ ((pf 1).chan 0).perf.queue = [(true, #v[1#32, 2#32, 3#32, 4#32]), (false, #v[1#32, 2#32, 3#32, 4#32])] ∧ ((pf 1).chan 0).perf.stopped = false ∧ ((pf 1).chan 0).perf.count < 511 ∧ 2147483648 + BitVec.toNat ((pf 1).chan 0).proc.nearbase + 1024 + 4 * ((pf 1).chan 0).perf.head.toNat + 4 ≤ 2147549184) ∧
    (b0.awake 0 ∧ 1 ≤ (1#10).toNat ∧ (1#10).toNat ≤ 512) ∧
    (b0.awake 0) ∧
    (b0.awake 0 ∧ (104 ≤ (106496#18).toNat / 1024 ∧ (106496#18).toNat / 1024 < 128 ∨ 192 ≤ (106496#18).toNat / 1024 ∨ (106496#18).toNat / 1024 = 3)) ∧
    (b0.awake 0 ∧ (1027#18).toNat = 1027) ∧
    (b0.awake 0 ∧ (1028#18).toNat = 1028) ∧
    (b0.awake 0 ∧ (2064 ≤ (2065#18).toNat ∧ (2065#18).toNat < 2096 ∧ (2065#18).toNat % 4 ≠ 0 ∨ 2112 ≤ (2065#18).toNat ∧ (2065#18).toNat < 2144 ∧ (2065#18).toNat % 4 = 1)) ∧
    (b0.awake 0 ∧ (5120#18).toNat = 5120) ∧
    (b0.awake 0 ∧ (32769#18).toNat = 32769) ∧
    (b0.awake 0 ∧ (32772#18).toNat = 32772) := by
  and_intros <;> decide +kernel
theorem test_hyps_ControlStores :
    (0 < 116) ∧
    (0 < 4) ∧
    (0 < 1024 ∧ mapWf pat.words = true ∧ mapGet pat.words 0 = some 1193046#112 ∧ 1193046#112 ≠ 0#112) ∧
    (0 < 1024 ∧ mapWf ({ words := [], points := [], ident := 0#16 } : Patch).words = true ∧ (mapGet ({ words := [], points := [], ident := 0#16 } : Patch).words 0 = none ∨ mapGet ({ words := [], points := [], ident := 0#16 } : Patch).words 0 = some 0#112)) ∧
    (7920 ≤ 7920) ∧
    (5 < 7920 ∧ (∀ e ∈ ([] : NMap (BitVec 13 × BitVec 10)), e.2.1 ≠ 5#13) ∧ (patchStore (some pat)).pts = [] ++ [(0, 5#13, 9#10), (2, 100#13, 3#10)]) ∧
    (((co 0).mach 0).canIssue 0 = true ∧ ((co 0).thread 0 0).te = false ∧ (parityOk (((co 0).chan 0).core[coreOf 0].store.word (7936 + 16)) = false ∨ parityOk (((co 0).chan 0).core[coreOf 0].checker.word (7936 + 16)) = false)) ∧
    (((co 1).mach 0).canIssue 0 = true ∧ ((co 1).thread 0 0).te = false ∧ (parityOk (((co 1).chan 0).core[coreOf 0].store.word (7936 + 59)) = false ∨ parityOk (((co 1).chan 0).core[coreOf 0].checker.word (7936 + 59)) = false)) ∧
    (((co 2).mach 0).canIssue 0 = true ∧ ((co 2).thread 0 0).te = false ∧ ((co 2).thread 0 0).lz = false ∧ (mapAt (0#116) ((co 2).chan 0).core[coreOf 0].store.flips (7936 + 96) = 0#116 ∧ mapAt (0#116) ((co 2).chan 0).core[coreOf 0].checker.flips (7936 + 96) = 0#116) ∧ (parityOk (((co 2).chan 0).core[coreOf 0].store.word (7920 + tagClass (((co 2).thread 0 0).reg 1))) = false ∨ parityOk (((co 2).chan 0).core[coreOf 0].checker.word (7920 + tagClass (((co 2).thread 0 0).reg 1))) = false)) ∧
    (((co 5).chan 0).life.cond = Cond.running ∧ ((co 5).chan 0).life.power = Power.run ∧ ((co 5).chan 0).led.staging.length < 16 ∧ ((co 5).thread 0 0).status = ThStatus.running ∧ ((co 5).chan 0).core[coreOf 0].entryDiff = true ∧ ((co 5).thread 0 0).sync = some { vector := 32#10, addr := 8388624#32, icell := 9#32, ret := 261#24, kind := 3#2 } ∧ ({ vector := 32#10, addr := 8388624#32, icell := 9#32, ret := 261#24, kind := 3#2 } : SyncEvent).vector = 32#10) := by
  and_intros <;> first | with_reducible exact bad_0 | with_reducible exact bad_1 | decide +kernel

/-! ### Witnesses worked by hand -/


/-- A state with a command at the front of its queue. -/
def queued : State := { b0 with pending := [.movi 0 0 3 5#11] }
theorem test_hyps_StepRunsFrontCommand : queued.pending = [.movi 0 0 3 5#11] := rfl
theorem test_hyps_StepKeepsStorageWf : queued.storageWf = true ∧ ∃ s', step queued = .next s' := ⟨by decide +kernel, _, rfl⟩
theorem test_hyps_InstructionsKeepToTheirChannel : (Instr.movi 0 0 3 5#11).issuedBy = some (0, 0) ∧ queued.chan 0 = b0.chan 0 ∧ queued.square = b0.square ∧ queued.free = b0.free :=
  ⟨by decide, rfl, rfl, rfl⟩

/-! ### Ill-formed commands -/

theorem test_wf_flxfer : Instr.wf (.flxfer 0 0 1 2 false false (List.replicate 769 0#8)) = false := by decide +kernel
theorem test_wf_monitoringRound : Instr.wf (.monitoringRound 0 [5#16]) = false := by decide +kernel
theorem test_wf_stagingQueueArrival : Instr.wf (.stagingQueueArrival 0 0x12#6 false false 0#32) = false := by decide +kernel
theorem test_wf_unitCompareMismatch : Instr.wf (.unitCompareMismatch 0 9#4 false) = false := by decide +kernel
theorem test_wf_swcmdInvalid : Instr.wf (.swcmdInvalid 0 3#4) = false := by decide +kernel
theorem test_wf_auxDone : Instr.wf (.auxDone 0 0#2 (List.replicate 17 0#8)) = false := by decide +kernel
theorem test_wf_hpd : Instr.wf (.hpd 0 3#2) = false := by decide +kernel
theorem test_wf_i2cDone : Instr.wf (.i2cDone 0 0#3 (List.replicate 16 0#8)) = false := by decide +kernel
theorem test_wf_report : Instr.wf (.report 0 (List.replicate 769 0#16) [] []) = false := by decide +kernel
theorem test_wf_frameReception : Instr.wf (.frameReception (hf 0 65 true) 0#2) = false := by decide +kernel
theorem test_wf_squareFailure : Instr.wf (.squareFailure 1#4 false 0#16) = false := by decide +kernel
theorem test_wf_accepts : Instr.wf (.frameReception (hf 2 60 true) 0#2) = true ∧ Instr.wf (.nop 0 ⟨0, mkCell tINSTR 0#2 0x010000#24⟩) = true := by decide +kernel

/-! ### The spec's worked examples and tables -/

/-- A channel 0 that runs, memory holding some cells, and thread 0 in supervisor mode with some registers. -/
def ws (cells : List (Nat × Cell)) (regs : List (Reg × Cell)) (f : Thread → Thread) : State :=
  modT (modC State.reset 0 (fun ch => putMem cells (run0 ch))) 0 0 (fun _ => f (regs.foldl (fun th r => setR r.1 r.2 th) th0))
/-- Register d of thread 0 after a command. -/
def reg (i : Instr) (s : State) (d : Reg) : Cell := (thr i s).reg d
/-- The fault recorded after a command: vector and ADDR. -/
def fault (i : Instr) (s : State) : Option (BitVec 10 × Cell) := (thr i s).sync.map (fun e => (e.vector, e.addr))
/-- Commands one after the other. -/
def afterAll (l : List Instr) (s : State) : State := l.foldl (fun s i => after i s) s

/-- R163, R164: the cells of 3.25 and −0.1. -/
theorem test_sflt_cells : toSflt (.fin false 325 100 0) = 0x40A000#24 ∧ toSflt (.fin true 1 10 0) = 0xBB999A#24 := by decide +kernel
/-- R171: "Haul", bytes 0 to 3. -/
theorem test_ldb_haul : (List.range 5).map (fun k => let s := ws [(0x100, 0x18100003#32), (0x101, 4#32), (0x102, 0x50756148#32), (0x103, 0x5000006C#32)] [(1, tagged tSTR 0x100#24), (2, fixN k)] id;
      (reg (.ldb 0 0 3 1 2) s 3, fault (.ldb 0 0 3 1 2) s)) =
    [(0x48#32, none), (0x61#32, none), (0x75#32, none), (0x6C#32, none), (fix0, some (4#10, fixN 1))] := by decide +kernel
/-- R160: the lists (1 2 3) and (5 6 . 9) of chapter 07. -/
def lists : List (Nat × Cell) := [(0x12340, 0x01000001#32), (0x12341, 0x01000002#32), (0x12342, 0x02000003#32), (0x12343, 0x4C000001#32), (0x12344, 0x01000005#32), (0x12345, 0x00000006#32), (0x12346, 0x00000009#32), (0x12347, 0x4C000001#32)]
theorem test_cdr_lists : [0x12340, 0x12341, 0x12342, 0x12344, 0x12345].map (fun (x : Nat) => reg (.opCdr 0 0 3 1) (ws lists [(1, tagged tCONS (BitVec.ofNat 24 x))] id) 3) =
    [0x20012341#32, 0x20012342#32, 0x0C000000#32, 0x20012345#32, 9#32] := by decide +kernel
theorem test_car_keeps_cdr : reg (.car 0 0 3 1) (ws lists [(1, 0x20012340#32)] id) 3 = 0x01000001#32 := by decide +kernel
/-- R191: the instruction cells of chapter 08. -/
theorem test_cells_of_instructions : cellA 0x21 3 7 2 false = 0x102119C4#32 ∧ cellA 0x10 5 5 3 false = 0x10102946#32 := by decide +kernel
/-- The patch section of the worked example of chapter 10: patch words 0x123 and 0x456 here, then the JUMP to 0x0A3D. -/
def patchBytes : List Byte :=
  [1, 0].flatMap (le 1) ++ [0x31, 3, 1].flatMap (le 2) ++ le 8 0 ++ le 4 0x80000A3C ++ List.replicate 252 0#8 ++ [0x123, 0x456, 0x0947A00000000000000000000000].flatMap (le 16)
/-- R138, R238, R253, R254: the section is accepted, its identifier, point and words are read, the JUMP's parity bits are 1, and the point redirects. -/
theorem test_patch_example : let p := patchOf patchBytes
    p.ident = 0x31#16 ∧ p.points = [(0, (0x0A3C#13, 0#10))] ∧ mapGet p.words 2 = some 0x0947A00000000000000000000000#112 ∧
    withParity 0x0947A00000000000000000000000#112 = 0xF0947A00000000000000000000000#116 ∧
    (patchStore (some p)).redirect 0x0A3C = 8192 ∧ (patchStore (some p)).redirect 0x0A3D = 0x0A3D := by decide +kernel
/-- R248, Table 10.4: the tag-class row of FIX, and of a poison operand. -/
theorem test_class_rows : (List.range 16).map (fun cb => bits (classRow 0) (4 * cb) 4) = [0, 1, 10, 10, 10, 9, 10, 10, 10, 10, 4, 10, 9, 10, 13, 14] ∧
    bits (classRow 14) 0 64 = 0xBBBBBBBBBBBBBBBB ∧ bits (classRow 10) 40 4 = 8 := by decide +kernel
/-- R191, R192, R247: the worked cells are instructions, one with v = 1 where it is not defined, opcode 0x00 and an unassigned opcode are not. -/
theorem test_assigned : [0x102119C4#32, 0x10102946#32, 0x102119C5#32, 0x10000000#32, 0x10FF0000#32].map isInstr = [true, true, false, false, false] := by decide +kernel
/-- R207: LOOP at 0x4013, then the instruction at LOOPE in a pass that is not the last, and in the last. -/
theorem test_loop : let s := ws [] [(4, fixN 10)] (fun th => { th with pc := 0x4013#24 })
    let t := thr (.loop 0 0 4 3#11) s
    (t.loopS, t.loopE, t.loopC, t.pc) = (0x4014#24, 0x4016#24, 10#24, 0x4014#24) ∧
    [7, 1].map (fun (k : Nat) => let t := thr (.iaddi 0 0 2 2 1#6) (ws [] [(2, fixN 3)] (fun th => { th with pc := 0x4016#24, loopS := 0x4014#24, loopE := 0x4016#24, loopC := BitVec.ofNat 24 k }))
      (t.loopC, t.pc, t.reg 2)) = [(6#24, 0x4014#24, fixN 4), (0#24, 0x4017#24, fixN 4)] := by decide +kernel
/-- R225: ADD c3, c1, c2 of 8,000,000 and 500,000 delivers a BOX, and SUB with it a FIX. -/
def boxS : State := modC (tc [(5, tlbe 0xC6)] (ws ((List.range 16).map (fun i => (0x31A40 + i, raw 7#24))) [(1, 0x007A1200#32), (2, 0x0007A120#32), (5, fixN 200000)] (fun th => { th with pstate := 3#24, asid := 1#8 }))) 0
  (fun ch => { ch with sw := { ch.sw with slots := ch.sw.slots.set 0 { slotReset with en := true, asid := 1#8, pitch := [(0, (0x31A40, 0x31C00))], map := [(3, 0x200000#24)] } } })
theorem test_add_box : let s := after (.add 0 0 3 1 2) boxS
    (s.thread 0 0).reg 3 = 0x38031A40#32 ∧ (List.range 4).map (fun i => s.seen 0 0 (0x31A40 + i)) = [0x18500002#32, 0x50000000#32, 0x5081B320#32, 0x4C000001#32] ∧
    mapGet ((s.chan 0).sw.slots[0]).pitch 0 = some (0x31A44, 0x31C00) ∧ reg (.sub 0 0 4 3 5) s 4 = 0x007EA5E0#32 := by decide +kernel
/-- R234: RPLACD c6, c9 on the compact list, with the pitch top at 0x31A44. -/
theorem test_rplacd : let s := after (.rplacd 0 0 6 9) (modC (tc [(5, tlbe 0xC6), (6, tlbe 0x48)] (ws (lists ++ (List.range 8).map (fun i => (0x12348 + i, fix0)) ++ (List.range 16).map (fun i => (0x31A40 + i, raw 7#24))) [(6, 0x20012340#32), (9, fixN 9)] (fun th => { th with pstate := 3#24, asid := 1#8 }))) 0
      (fun ch => { ch with sw := { ch.sw with slots := ch.sw.slots.set 0 { slotReset with en := true, asid := 1#8, pitch := [(0, (0x31A44, 0x31C00))], map := [(3, 0x200000#24), (1, 0x200000#24)] } } }))
    (s.seen 0 0 0x31A44, s.seen 0 0 0x31A45, s.seen 0 0 0x12340, s.seen 0 0 0x12341) = (fixN 1, fixN 9, 0x1D031A44#32, 0x01000002#32) ∧ reg (.car 0 0 3 6) s 3 = fixN 1 ∧ reg (.opCdr 0 0 3 6) s 3 = fixN 9 := by decide +kernel
/-- R236: MAC, MACS and ACCGET at the end of the accumulator's range. -/
def accX : State := ws [] [(1, fixN 0x400000), (2, fixN 0x400000)] (fun th => { th with acc := 0x7FF00000000000#56 })
theorem test_mac : let t := thr (.mac 0 0 1 2 false) accX
    (t.acc, bit t.pstate 4, t.sync.map (fun e => e.vector)) = (0x80000000000000#56, true, some 26#10) := by decide +kernel
theorem test_macs : let t := thr (.macs 0 0 1 2 false) accX
    (t.acc, bit t.pstate 4, t.sync.isNone) = (0x7FFFFFFFFFFFFF#56, true, true) := by decide +kernel
theorem test_accget : reg (.accget 0 0 3 24#6) (ws [] [] (fun th => { th with acc := 0x40000000#56 })) 3 = fixN 64 := by decide +kernel
/-- The example's interrupted context of chapter 11, with translation off: wake timer 0 pending at vector 64, PRIO 2, HOLD 4. -/
def evX : State := modP (ws (((List.range 48).map (fun i => (0x7ED0 + i, raw 7#24)))) [(0, fixN 40), (15, fixN 55), (20, fixN 60)] (fun th => { th with pc := 0x5213#24, pstate := 0#24, spS := 0x40007F00#32, loopC := 4#24 }))
  (fun p => { p with pend := [(64, { overrun := 0#8, addr := fix0 })], attr := [(64, 0x800400#24)], vbase := 0#24 })
theorem test_signal_entry : let s := after (.eventEntryStack 0 0) (modC evX 0 (fun ch => { ch with phys := { ch.phys with mem := [(0x80, eccWrite 0x80 (tagged tCODE 0x3000#24)), (0x81, eccWrite 0x81 (fixN 0x800400)), (0x3000, eccWrite 0x3000 0x18400003#32), (0x3001, eccWrite 0x3001 (fixN 0))] ++ ch.phys.mem } }))
    [0, 1, 2, 3, 4, 5, 8, 23].map (fun i => s.seen 0 0 (0x7ED0 + i)) = [0x14005213#32, fixN 0, 0x00280040#32, fixN 0, fixN 0, cNIL, fixN 40, fixN 55] ∧
    (let t := s.thread 0 0; (t.spS, t.frame, t.pstate, t.hold, t.pc) = (0x40007ED0#32, some 0x7ED0#24, 0x9#24, some 4#8, 0x3002#24)) ∧ (s.chan 0).proc.pend = [] := by decide +kernel
/-- Chapter 12: SAVEU then SAVEL 6 on the free list 0xE000, 0xE020, 0xE040. -/
def crates : List (Nat × Cell) := (List.range 3).flatMap (fun k => [(0xE000 + 32 * k, 0x1880001F#32), (0xE001 + 32 * k, if k = 2 then cNIL else tagged tCRATE (BitVec.ofNat 24 (0xE020 + 32 * k))), (0xE002 + 32 * k, fix0)] ++ (List.range 29).map (fun i => (0xE003 + 32 * k + i, fix0)))
theorem test_saveu_savel : let s := afterAll [.saveu 0 1, .savel 0 1 6#11] (modP (modT (ws crates [] id) 0 1 (fun _ => { th0 with pc := 0x6100#24, chain := cNIL })) (fun p => { p with cfree := 0x4800E000#32 }))
    ((s.chan 0).proc.cfree, (s.thread 0 1).chain) = (0x4800E040#32, 0x4800E020#32) ∧
    [0xE001, 0xE002, 0xE021, 0xE022, 0xE033].map (s.seen 0 1) = [cNIL, fixN 9, 0x4800E000#32, fixN 1, 0x14006107#32] := by decide +kernel
/-- R294: the anchor of VPN 0x123 in ASID 5 with HATSIZE 12. -/
theorem test_anchor : anchorOf 0x123#14 5#8 12 = 0x1C6 := by decide +kernel
/-- Chapter 13: a load of virtual cell 0x048C15 reaches physical cell 0x01200015 once the mapping has moved. -/
theorem test_walk : let s : State := modP (ws ([(0x6801C0, 0x6801C6, [fixN 0x4800]), (0x712000, 0x712000, [fixN 0x50123, fixN 0x80000B, fixN 0x800000]), (0x1200010, 0x1200015, [fixN 77])].flatMap (fun x => (List.range 16).map (fun i => (x.1 + i, if x.2.1 ≤ x.1 + i then x.2.2.getD (x.1 + i - x.2.1) fix0 else fix0)))) [(1, loc 0x048C15#24)] (fun th => { th with pstate := 3#24, asid := 5#8 })) (fun p => { p with ptbase := 0x1C00#24, hatbase := 0x1A00#24, hatsize := 12#24 });
    reg (.ld 0 0 3 1 0#6) s 3 = fixN 77 ∧ (after (.ld 0 0 3 1 0#6) s).cell 0 0x712001 = fixN 0xA0000B := by decide +kernel
/-- R389: the check bits of FIX 1 at address 3, a flipped data bit, a flipped check bit and a misdirected read. -/
theorem test_ecc : checkBits 3 1#32 = 1#8 ∧ eccRead 3 0x0100000001#40 = (.clean, 1#32) ∧ eccRead 3 0x0100000000#40 = (.correctable, 1#32) ∧
    eccRead 3 0x0000000001#40 = (.correctable, 1#32) ∧ (eccRead 2 0x0100000001#40).1 = .uncorrectable := by decide +kernel
/-- Chapter 03: the rows of the CH2_POLICY example. -/
theorem test_straps : let p (h : Option (BitVec 3)) : Pin := { hist := h, decided := false, level := 0#3, source := 0#3, status := 0#2, rlevel := 0#3, raw := 0#10 }
    let d (h : Option (BitVec 3)) (k : BitVec 10) : BitVec 3 × BitVec 3 := let x := ((p h).decide 3 (classify k)).1; (x.level, x.source)
    [d none 319#10, d (some 3#3) 352#10, d (some 3#3) 412#10, d (some 3#3) 453#10] = [(3#3, 0#3), (3#3, 2#3), (3#3, 3#3), (4#3, 1#3)] ∧ statusOf (classify 345#10) 3#3 = 1#2 := by decide +kernel
/-- R364, R365: cell 0x12345678 under CHn_MAP level 0 and level 2. -/
theorem test_mapping : let ch (m : BitVec 3) : Channel := (modStrap (modStrap State.reset 0 (fun p => { p with level := 0#3 })) 2 (fun p => { p with level := m })).chan 0
    (ch 0#3).split 0x12345678 = (false, 0x12345678) ∧ (ch 0#3).rowOf 0x12345678 = 0x48D1#16 ∧ (ch 0#3).bankOf 0x12345678 = 8 ∧
    (ch 2#3).split 0x12345678 = (true, 0x091A2B38) ∧ (ch 2#3).rowOf 0x091A2B38 = 0x2468#16 ∧ (ch 2#3).bankOf 0x091A2B38 = 5 := by decide +kernel
/-- R401: epoch 0x000005 is newer than 0xFFFFF0 (chapter 23), and 0x001F41 than 0x001F40 (chapter 18). -/
theorem test_newer_epoch : newer 0x000005#24 0xFFFFF0#24 = true ∧ newer 0xFFFFF0#24 0x000005#24 = false ∧ newer 0x1F41#24 0x1F40#24 = true := by decide +kernel
/-- R459, R460: the backlight example of chapter 20. -/
theorem test_backlight : let s := after (.ntcMeasurement 0 275#10) (modWins b0 [(0x14000, 7#24), (0x14001, 20000#24), (0x14002, 3500#24), (0x14003, 800#24), (0x14006, 400#24), (0x14007, 150#24), (0x14008, 1024#24)])
    ((s.chan 0).panel.limit, (s.chan 0).pwm, (s.chan 0).dim) = (2559#12, (1250, 781), 499) := by decide +kernel
/-- R477: the contact of chapter 21. -/
theorem test_contact : let g : Img := { t := 32, r := 24, raw := [], base := [], delta := [(24 * 11 + 6, 6), (24 * 11 + 7, 14), (24 * 11 + 8, 5), (24 * 12 + 6, 10), (24 * 12 + 7, 31), (24 * 12 + 8, 9), (24 * 13 + 6, 3), (24 * 13 + 7, 12), (24 * 13 + 8, 4), (768 + 12, 42), (807, 38)] }
    g.peak 20 12 7 = true ∧ g.accepts 20 30 false false (12, 7) = true ∧ (let k := { g.contact 20 true 0 (12, 7) with evt := 1#2 }
      (upFrom 0x40 4).map (contactCell [k]) = [0xB00000#24, 0xBF0#24, 0x6FD#24, 0x04001F#24]) := by decide +kernel
/-- CRC-32 and SHA-256 of their published check inputs. -/
theorem test_crc32 : crc32 [0x31#8, 0x32#8, 0x33#8, 0x34#8, 0x35#8, 0x36#8, 0x37#8, 0x38#8, 0x39#8] = 0xCBF43926#32 := by decide +kernel
theorem test_sha256 : (sha256 [0x61#8, 0x62#8, 0x63#8]).take 4 = [0xBA#8, 0x78#8, 0x16#8, 0xBF#8] := by decide +kernel

/-! ### Instructions -/

/-- R197: the overflow of IADD. -/
theorem test_iadd : reg (.iadd 0 0 3 1 2) (ws [] [(1, fixI 5), (2, fixI (-7))] id) 3 = fixI (-2) ∧ fault (.iadd 0 0 3 1 2) (ws [] [(1, fixI 8388607), (2, fixI 1)] id) = some (5#10, fix0) := by decide +kernel
theorem test_isub : reg (.isub 0 0 3 1 2) (ws [] [(1, fixI 5), (2, fixI 7)] id) 3 = fixI (-2) := by decide +kernel
theorem test_iaddi_signed : reg (.iaddi 0 0 3 1 0x3F#6) (ws [] [(1, fixI 5)] id) 3 = fixI 4 := by decide +kernel
theorem test_movi_signed : reg (.movi 0 0 3 0x7FF#11) (ws [] [] id) 3 = fixI (-1) := by decide +kernel
theorem test_mov_whole_cell : reg (.mov 0 0 3 1) (ws [] [(1, 0x01000001#32)] id) 3 = 0x01000001#32 := by decide +kernel
theorem test_tagset_clears_cdr : reg (.tagset 0 0 3 1 tRAW) (ws [] [(1, 0x01000007#32)] id) 3 = raw 7#24 := by decide +kernel
theorem test_tagset_reta : fault (.tagset 0 0 3 1 tRETA) (ws [] [(1, fixN 7)] id) = some (3#10, fixN 0) := by decide +kernel
theorem test_sar : reg (.sar 0 0 3 1 2) (ws [] [(1, fixI (-8)), (2, fixN 30)] id) 3 = fixI (-1) := by decide +kernel
theorem test_shl_negative : fault (.shl 0 0 3 1 2) (ws [] [(1, fixN 1), (2, fixI (-1))] id) = some (4#10, fixN 1) := by decide +kernel
theorem test_ilt_v : reg (.ilt 0 0 3 1 2 true) (ws [] [(1, fixI (-1)), (2, fixN 1)] id) 3 = cNIL ∧ reg (.ult 0 0 3 1 2 false) (ws [] [(1, fixI (-1)), (2, fixN 1)] id) 3 = cNIL := by decide +kernel
theorem test_poison_operand : fault (.iadd 0 0 3 1 2) (ws [] [(1, fixN 1), (2, psn 1#4)] id) = some (6#10, fixN 1) := by decide +kernel
/-- R199: the index bounds of LDX, and a field store. -/
theorem test_ldx_bounds : let s (k : Int) := ws [(0x100, hdr 0#4 2), (0x101, fixN 7), (0x102, fixN 8)] [(1, tagged tVEC 0x100#24), (2, fixI k)] id
    reg (.ldx 0 0 3 1 2) (s 1) 3 = fixN 8 ∧ fault (.ldx 0 0 3 1 2) (s 2) = some (4#10, fixN 1) := by decide +kernel
theorem test_st_keeps_cdr : (after (.st 0 0 2 1 1#6) (ws [(0x100, hdr 0#4 2), (0x101, 0x01000007#32)] [(1, tagged tVEC 0x100#24), (2, 0x02000009#32)] id)).seen 0 0 0x101 = 0x01000009#32 := by decide +kernel
/-- R201: CAS on equality, and on a cell that differs. -/
theorem test_cas : let s (d : Cell) := ws ((List.range 16).map (fun i => (0x100 + i, 0x01000007#32))) [(1, loc 0x100#24), (2, fixN 9), (3, d)] id
    (let u := after (.cas 0 0 3 1 2) (s (fixN 7)); (u.cell 0 0x100, (u.thread 0 0).reg 3) = (0x01000009#32, 0x01000007#32)) ∧
    (let u := after (.cas 0 0 3 1 2) (s (fixN 8)); (u.cell 0 0x100, (u.thread 0 0).reg 3) = (0x01000007#32, 0x01000007#32)) := by decide +kernel
theorem test_push_pop : let s := after (.push 0 0 2) (ws ((List.range 16).map (fun i => (0xF0 + i, fix0))) [(2, fixN 9)] id)
    (s.thread 0 0).spS = loc 0xFF#24 ∧ s.seen 0 0 0xFF = fixN 9 ∧ reg (.pop 0 0 3) s 3 = fixN 9 := by decide +kernel
theorem test_call : let t := thr (.call 0 0 0xFFF0#16) (ws [] [] id)
    (t.reg 15, t.pc) = (reta 0x41#24, 0x30#24) := by decide +kernel
theorem test_callr_closure : let t := thr (.callr 0 0 3 1) (ws [(0x140, hdr 4#4 3), (0x141, fixN 2), (0x150, hdr 3#4 1), (0x151, tagged tCODE 0x140#24)] [(1, tagged tCLO 0x150#24)] id)
    (t.reg 3, t.reg 14, t.pc) = (reta 0x41#24, tagged tCLO 0x150#24, 0x144#24) := by decide +kernel
theorem test_svc : (thr (.svc 0 0 5#11) (ws [] [] id)).sync.map (fun e => (e.vector, e.addr, e.kind)) = some (27#10, fixN 5, 1#2) := by decide +kernel
theorem test_privilege : (thr (.wdkick 0 0) (ws [] [] (fun th => { th with pstate := 0#24 }))).sync.map (fun e => e.vector) = some 2#10 := by decide +kernel
/-- R220, R222, R223: −8,388,608 ÷ −1 needs a box, division by zero, a NaN compare. -/
theorem test_quo_rem : reg (.quo 0 0 3 1 2) (ws [] [(1, fixI (-7)), (2, fixN 2)] id) 3 = fixI (-3) ∧ reg (.rem 0 0 3 1 2) (ws [] [(1, fixI (-7)), (2, fixN 2)] id) 3 = fixI (-1) ∧
    fault (.quo 0 0 3 1 2) (ws [] [(1, fixN 7), (2, fixN 0)] id) = some (4#10, fixN 1) := by decide +kernel
theorem test_add_sflt : reg (.add 0 0 3 1 2) (ws [] [(1, 0x0440A000#32), (2, fixN 1)] id) 3 = mkCell tSFLT 0#2 0x411000#24 := by decide +kernel
theorem test_numeq_nan : reg (.numeq 0 0 3 1 2 true) (ws [] [(1, mkCell tSFLT 0#2 0x7FC000#24), (2, fixN 1)] id) 3 = cT := by decide +kernel

/-! ### Units -/

/-- R263: a second raise counts as an overrun. -/
theorem test_sig_overrun : let s := afterAll [.sig 0 0 1, .sig 0 0 1] (modP (ws [] [(1, fixN 800)] id) (fun p => { p with attr := [(800, 0x030000#24)] }))
    (mapGet (s.chan 0).proc.pend 800).map (fun e => e.overrun) = some 1#8 := by decide +kernel
/-- R88: the seventeenth entry is lost and counted. -/
theorem test_ledger_queue : let s := afterAll (List.replicate 17 (.stagingQueueArrival 0 2#6 false false 0x123#32)) (modLed b0 (fun l => { l with staging := [] }))
    ((s.chan 0).led.staging.length, (s.chan 0).led.lostTotal) = (16, 1#24) := by decide +kernel
/-- Discovery happens in the boot sequence only. -/
theorem test_no_slot_without_flash : (after (.flashDiscovery 0 true 32#16 1#6) b0).chan 0 = b0.chan 0 := by decide +kernel
/-- R497: TLACK frees the oldest records. -/
theorem test_tlack : ((after (.tlack 0 5#10) (modPerf b0 (fun p => { p with count := 36 }))).chan 0).perf.count = 31 := by decide +kernel
/-- A step takes the front command. -/
theorem test_step : (match step { b0 with pending := [.movi 0 0 3 5#11, .nop 0 ⟨0, mkCell tINSTR 0#2 0x010000#24⟩] } with | .next s => ((s.thread 0 0).reg 3, s.pending.length) | _ => (fix0, 0)) = (fixN 5, 1) := by decide +kernel

end Sys2Proof.Tests
end

section
/-! SIG, SVC and WAIT (R210, R211, R213): the ends of an instruction that Laws/Issue.lean leaves out, then one lemma per case. -/
namespace Sys2Proof.Machine

/-! ### Operands and signals -/

@[simp] theorem thr_begun (s : State) (c : Chan) (t : Fin 8) (i : Ins) : (s.begun c t i).thr t = s.thread c t := rfl
/-- Writing back the thread that was read changes nothing. -/
@[simp] theorem setThr_thr (m : Mach) (t : Fin 8) : m.setThr t (m.thr t) = m := by simp [Mach.setThr, Mach.thr]
@[simp] theorem begun_proc (s : State) (c : Chan) (t : Fin 8) (i : Ins) : (s.begun c t i).ch.proc = (s.chan c).proc := rfl
/-- An operand that a claim's `has` admits is read as the work begins (R194 step 3). -/
theorem runI_operand_has {s : State} {c : Chan} {t : Fin 8} {i : Ins} {code : Nat} {r : Reg} {ok : BitVec 6 → Bool}
    (h : (s.thread c t).has r ok = true) :
    runI (operand code r ok) (workOn s c t i) = (.ok ((s.thread c t).reg r), workOn s c t i) := by
  simp only [Thread.has, Bool.and_eq_true, decide_eq_true_eq, Bool.not_eq_true'] at h
  obtain ⟨⟨hpsn, hres⟩, htag⟩ := h
  exact runI_operand_ok code r ok _ _ (by rw [thr_begun]) hpsn hres htag
/-- A nonnegative FIX is its payload read as a number. -/
theorem toNat_fixInt {p : Payload} (h : 0 ≤ fixInt p) : (fixInt p).toNat = p.toNat :=
  BitVec.toNat_toInt_of_msb p (by simpa [BitVec.msb_eq_toInt, fixInt] using h)
theorem raiseP_of_none {p : Proc} {v : Nat} {a : Cell} (h : mapGet p.pend v = none) :
    raiseP p v a = { p with pend := mapPut p.pend v { overrun := 0#8, addr := a } } := by
  unfold raiseP
  rw [h]
theorem raiseP_of_some {p : Proc} {v : Nat} {a : Cell} {q : Pend} (h : mapGet p.pend v = some q) :
    raiseP p v a = { p with pend := mapPut p.pend v { q with overrun := satInc q.overrun } } := by
  unfold raiseP
  rw [h]

/-! ### Ends of an instruction -/

section
variable {s : State} {c : Chan} {t : Fin 8} {i : Ins} {w : IM Flow} {r : IS}

/-- Where a ready thread's work completes, the slice it left is finished and put back. -/
theorem issue_completed {f : Flow} (h : s.ready c t = true) (hs : i.sup = true → (((s.chan c).thr[t]).sup = true))
    (hw : runI w (workOn s c t i) = (.ok f, r)) : s.issue c t i w = s.putMach { r.m.finishIns t i (.ok f) with c := c } := by
  unfold State.issue State.onMach
  dsimp only
  rw [issue_ready h hs, run_eq (runI_retrying_ok 4 w _ _ _ hw)]
/-- Work that leaves its thread standing at its address (R210) changes the thread alone, and nothing retires. -/
theorem issue_stay {th : Thread} (h : s.ready c t = true) (hs : i.sup = true → (((s.chan c).thr[t]).sup = true))
    (hw : runI w (workOn s c t i) = (.ok .stay, r)) (hr : perfOnly ((s.begun c t i).setThr t th) r.m) :
    onlyThread s (s.issue c t i w) c t (th.complete .stay) := by
  have hfin : r.m.finishIns t i (.ok .stay) = r.m.setThr t ((r.m.thr t).complete .stay) := rfl
  have hthr : r.m.thr t = th := by rw [perfOnly_thr hr, thr_setThr]
  obtain ⟨p, n, hm⟩ := hr
  rw [issue_completed h hs hw, hfin, hthr, hm]
  refine ⟨p, n, ((s.mach c).routine t i (Config.microStart i.op % 7920)).seq, ?_⟩
  simp [State.setChan, State.putMach, State.mach, State.ran, State.begun, Mach.setThr]
/-- Work that completes having changed the channel's processor state alone (its signals, R263): the instruction leaves that state, and its
thread completed. -/
theorem issue_done_proc {p : Proc} (h : s.ready c t = true) (hs : i.sup = true → (((s.chan c).thr[t]).sup = true))
    (hw : runI w (workOn s c t i) = (.ok .next, r)) (hr : perfOnly { s.begun c t i with ch.proc := p } r.m) :
    onlyThread (s.setChan c { s.chan c with proc := p }) (s.issue c t i w) c t ((s.thread c t).complete .next) := by
  have hfin : r.m.finishIns t i (.ok .next)
      = (r.m.retired t i .next).setThr t (((r.m.retired t i .next).thr t).complete .next) := rfl
  have hp := perfOnly_trans hr (retired_perfOnly r.m t i .next)
  have hthr : (r.m.retired t i .next).thr t = s.thread c t := perfOnly_thr hp t
  obtain ⟨pf, n, hm⟩ := hp
  rw [issue_completed h hs hw, hfin, hthr, hm]
  refine ⟨pf, n, ((s.mach c).routine t i (Config.microStart i.op % 7920)).seq, ?_⟩
  simp [State.setChan, State.putMach, State.mach, State.chan, State.ran, State.begun, Mach.setThr]

end

/-! ### The three instructions -/

section
variable {s : State} {c : Chan} {t : Fin 8} {a : Reg}

/-- SVC completes, then traps with imm11 in ADDR (R213). -/
theorem svc_traps (imm : BitVec 11) (h : s.ready c t = true) :
    completes (.svc c t imm) s c t
      (((s.thread c t).complete .next).raiseSync 27#10 (fix (imm.setWidth 24)) (cellL 0x3A 0 imm) 1#2) := by
  refine ⟨_, rfl, issue_trap h (by simp [iL, iDL]) (r := workOn s c t (iL 0x3A imm)) ?_ ?_⟩
  · rw [runI_bind_ok (runI_commit_nil ..)]
    rfl
  · rw [← thr_begun s c t (iL 0x3A imm), setThr_thr]
    exact perfOnly_refl _
/-- SIG of a number from 768 to 1023 raises that signal with ADDR FIX 0 on its own channel, and completes (R211, R263). -/
theorem sig_raises (h : s.ready c t = true) (ha : (s.thread c t).has a fixTag = true) (hlo : 768 ≤ (s.thread c t).int a)
    (hhi : (s.thread c t).int a ≤ 1023) :
    leaves (.sig c t a) s c t { s.chan c with proc := raiseP (s.chan c).proc ((s.thread c t).pay a).toNat fix0 }
      ((s.thread c t).complete .next) := by
  have hn : ((s.thread c t).int a).toNat = ((s.thread c t).pay a).toNat := toNat_fixInt (by unfold Thread.int at hlo; omega)
  refine ⟨_, rfl, issue_done_proc h (by simp [iA]) ?_ (perfOnly_refl _)
    (r := { workOn s c t (iA 0x39 a) with m := (s.begun c t (iA 0x39 a)).raise ((s.thread c t).pay a).toNat fix0 })⟩
  rw [runI_bind_ok (runI_operand_has ha), ← hn]
  unfold Thread.int at hlo hhi ⊢
  simp [runI_bind, runI_commit_nil, Mach.raise, Int.not_lt.mpr hlo, Int.not_lt.mpr hhi]
/-- SIG of any other number raises the operand range fault (R211). -/
theorem sig_faults (h : s.ready c t = true) (ha : (s.thread c t).has a fixTag = true)
    (hout : (s.thread c t).int a < 768 ∨ 1023 < (s.thread c t).int a) :
    faults (.sig c t a) s c t 4#10 (fixN 0) (cellA 0x39 0 a 0 false) := by
  refine ⟨_, rfl, issue_fault h (by simp [iA]) ?_ (perfOnly_refl _) (r := workOn s c t (iA 0x39 a))⟩
  rw [runI_bind_ok (runI_operand_has ha)]
  unfold Thread.int at hout
  simp [runI_bind, hout]
/-- WAIT with a proper mask and no root request outstanding leaves the thread waiting, its window closed (R210). -/
theorem wait_waits (h : s.ready c t = true) (ha : (s.thread c t).has a fixTag = true) (hz : (s.thread c t).pay a ≠ 0#24)
    (hres : bits ((s.thread c t).pay a) 16 7 = 0) (hroot : (s.thread c t).rootReq = false) :
    completes (.wait c t a) s c t
      { s.thread c t with status := .waiting ((s.thread c t).pay a), hold := none, inShadow := false } := by
  let th := { s.thread c t with status := .waiting ((s.thread c t).pay a), hold := none }
  refine ⟨_, rfl, issue_stay (th := th) h (by simp [iA]) ?_ (perfOnly_refl _)
    (r := { workOn s c t (iA 0x38 a) with m := (s.begun c t (iA 0x38 a)).setThr t th })⟩
  rw [runI_bind_ok (runI_operand_has ha)]
  unfold Thread.pay at hz hres
  simp [runI_bind, runI_commit_nil, th, Thread.pay, hz, hres, hroot]
/-- WAIT with an empty mask or a reserved bit set raises the operand range fault (R210). -/
theorem wait_faults (h : s.ready c t = true) (ha : (s.thread c t).has a fixTag = true)
    (hbad : (s.thread c t).pay a = 0#24 ∨ bits ((s.thread c t).pay a) 16 7 ≠ 0) :
    faults (.wait c t a) s c t 4#10 (fixN 0) (cellA 0x38 0 a 0 false) := by
  refine ⟨_, rfl, issue_fault h (by simp [iA]) ?_ (perfOnly_refl _) (r := workOn s c t (iA 0x38 a))⟩
  rw [runI_bind_ok (runI_operand_has ha)]
  unfold Thread.pay at hbad
  simp [runI_bind, hbad.symm]

end

/-- Settles O18: each clause is one of the lemmas above; the two cases of a raise are those of `raiseP`. -/
theorem signalsAndWaiting : Obligations.SignalsAndWaiting := by
  intro s c t a imm h
  refine ⟨svc_traps imm h, fun ha =>
    ⟨fun hlo hhi => ⟨fun hnone => ?_, fun q hq => ?_⟩, sig_faults h ha, wait_waits h ha, wait_faults h ha⟩⟩
  · rw [← raiseP_of_none hnone]
    exact sig_raises h ha hlo hhi
  · rw [← raiseP_of_some hq]
    exact sig_raises h ha hlo hhi

end Sys2Proof.Machine
end

section
/-! CDR of a list cell whose tag is reserved (R160, R183, R231): the case in which it does not deliver the cdr. -/
namespace Sys2Proof.Machine

/-! ### What an access leaves of its thread -/

/-- The thread a plain access names is the thread its channel then holds. -/
theorem onlyAccess_thread {s s' : State} {c : Chan} {t : Fin 8} {th : Thread} {wb : List WbEntry} (h : onlyAccess s s' c t th wb) :
    s'.thread c t = th := by
  obtain ⟨-, p, n, q, mc, led, pend, ph, tlb, ag, rfl⟩ := h
  simp [State.thread, State.ran]
/-- The fault or trap recorded on thread t of channel c once a command has answered (R265). -/
def eventAfter (i : Instr) (s : State) (c : Chan) (t : Fin 8) : Option SyncEvent :=
  match exec i s with
  | .next s' => (s'.thread c t).sync
  | _ => none
/-- An instruction that ends as a plain access has recorded what its thread says. -/
theorem accesses_eventAfter {i : Instr} {s : State} {c : Chan} {t : Fin 8} {th : Thread} {wb : List WbEntry}
    (h : accesses i s c t th wb) : eventAfter i s c t = th.sync := by
  obtain ⟨s', hexec, haccess⟩ := h
  simp only [eventAfter, hexec, onlyAccess_thread haccess]

/-! ### A reserved list cell -/

/-- A list cell with the reserved tag 0x3F and CDR NEXT. -/
def reservedListCell : Cell := mkCell 0x3F#6 1#2 7#24
/-- Channel 0 after reset, running, with the reserved list cell at 0x120, and thread 0 in supervisor mode with a CONS to it in c1. -/
def reservedListState : State :=
  let ch := State.reset.chan 0
  State.reset.setChan 0 { ch with
    life := { ch.life with cond := .running, power := .run, rstN := true, good := true }
    mc := { ch.mc with trained := true }
    phys := { ch.phys with mem := [(0x120, eccWrite 0x120 reservedListCell)] }
    thr := ch.thr.set 0 { (ch.thr[0] : Thread).setReg 1 (mkCell tCONS 0#2 0x120#24) with status := .running, pstate := 1#24 } }

/-- The state meets what the claim asks of a list cell with CDR NEXT, with no event recorded beforehand. -/
theorem reservedListState_reaches :
    reservedListState.plain 0 0 = true ∧ cellTag ((reservedListState.thread 0 0).reg 1) = tCONS ∧
    reservedListState.found 0 0 (cellPay ((reservedListState.thread 0 0).reg 1)) = some (0x120#24, reservedListCell) ∧
    (reservedListState.thread 0 0).sync = none := by
  and_intros <;> decide +kernel
/-- CDR of that list cell takes the reserved tag trap with operand code 3 (R183). -/
theorem opCdr_reservedListCell_traps :
    (eventAfter (.opCdr 0 0 3 1) reservedListState 0 0).map (fun e => (e.vector, e.addr, e.kind)) = some (24#10, fixN 3, 1#2) := by
  decide +kernel

/-- Refutes O22: the clauses on CDR shut out PSN alone. A list cell whose tag is reserved and whose CDR is NEXT meets their hypotheses, yet CDR
takes the reserved tag trap (R183), where the claim has it deliver a CONS to the next cell and record no event. -/
theorem not_listReads : ¬ Obligations.ListReads := by
  intro h
  obtain ⟨hplain, hcons, hfound, hquiet⟩ := reservedListState_reaches
  obtain ⟨hcdr, -⟩ := h reservedListState 0 0 3 1 0x120#24 0#24 reservedListCell fix0 hplain
  obtain ⟨hnext, -⟩ := hcdr hcons hfound (by decide)
  have hevent := accesses_eventAfter (hnext (by decide))
  have hsync : eventAfter (.opCdr 0 0 3 1) reservedListState 0 0 = none := hevent.trans hquiet
  have htrap := opCdr_reservedListCell_traps
  simp [hsync] at htrap

end Sys2Proof.Machine
end

section
/-! Page 0x06's records, and the window registers that keep the fields of what is stored (R28, R78, R492-R500). -/
namespace Sys2Proof.Machine

/-! ### When a command of a running channel takes effect -/

theorem programs_of_awake {s : State} {c : Chan} (h : s.awake c) : (s.mach c).programs = true := by
  obtain ⟨hcond, hpower⟩ := h
  simp [Mach.programs, hcond, hpower]
theorem fastOn_of_running {m : Mach} (hcond : m.ch.life.cond = .running) (hpower : m.ch.life.power ≠ .sleep) : m.fastOn = true := by
  simp [Mach.fastOn, hcond, hpower]
/-- An awake channel's program reaches its window. -/
theorem program_awake {s : State} {c : Chan} (f : Mach → Mach) (h : s.awake c) : s.program c f = s.putMach { f (s.mach c) with c := c } := by
  simp only [State.program, State.onMach, programs_of_awake h, if_true]
/-- A program's access that changes the channel alone changes nothing else in the device. -/
theorem program_channel {s : State} {c : Chan} {f : Mach → Mach} {x : Channel} (h : s.awake c) (hf : f (s.mach c) = { s.mach c with ch := x }) :
    s.program c f = s.setChan c x := by
  rw [program_awake f h, hf]
  rfl

/-! ### Stores of cells to near store -/

/-- Near store with a run of clean cells stored from an offset up. -/
def nearRun (near : NMap (BitVec 34)) (o : Nat) : List Cell → NMap (BitVec 34)
  | [] => near
  | v :: r => nearRun (mapPut near o (0#2 ++ v : BitVec 34)) (o + 1) r

/-- Unmarked cells written at consecutive positions change the cells of near store, and nothing else. -/
theorem nearCells_run (base p : Nat) (vs : List Cell) (m : Mach) :
    m.nearCells base ((upFrom p vs.length).zip (vs.map (fun v => (v, false)))) =
      { m with ch.phys.near := nearRun m.ch.phys.near (base + p) vs } := by
  induction vs generalizing p m with
  | nil => rfl
  | cons v r ih =>
    show (m.putNear (base + p) v).nearCells base ((upFrom (p + 1) r.length).zip (r.map (fun v => (v, false)))) = _
    rw [ih]
    rfl
theorem mapGet_nearRun_out (vs : List Cell) (near : NMap (BitVec 34)) (o k : Nat) (h : k < o ∨ o + vs.length ≤ k) :
    mapGet (nearRun near o vs) k = mapGet near k := by
  induction vs generalizing near o with
  | nil => rfl
  | cons v r ih =>
    rw [List.length_cons] at h
    rw [nearRun, ih _ _ (by omega), mapGet_mapPut_ne _ _ _ _ (by omega)]
theorem mapGet_nearRun_in (vs : List Cell) (near : NMap (BitVec 34)) (o i : Nat) (h : i < vs.length) :
    mapGet (nearRun near o vs) (o + i) = some (0#2 ++ vs[i] : BitVec 34) := by
  induction vs generalizing near o i with
  | nil => exact absurd h (Nat.not_lt_zero i)
  | cons v r ih =>
    cases i with
    | zero => exact (mapGet_nearRun_out _ _ _ _ (.inl (Nat.lt_succ_self o))).trans (mapGet_mapPut near o _)
    | succ i =>
      rw [nearRun, show o + (i + 1) = o + 1 + i by omega, ih _ _ i (by simpa using h), List.getElem_cons_succ]

/-! ### What an address reads -/

/-- The near-store range lies above every memory size, the undo area with it (R26, R402). -/
theorem place_near (ch : Channel) {a : Nat} (hlo : 0x80000000 ≤ a) (hhi : a < 0x80010000) : ch.place a = .near := by
  have hmem : ch.memCells ≤ 0x80000000 := by
    unfold Channel.memCells
    split <;> omega
  have hundo : ch.undoArea a = false := by
    simp only [Channel.undoArea, Bool.and_eq_false_iff, decide_eq_false_iff_not]
    omega
  rw [Channel.place, hundo, if_neg (by decide), if_neg (by omega), if_pos (by simp [hlo, hhi])]
/-- An address that lies where it lay, over the same stored bits, reads as it did. -/
theorem peek_congr {m n : Mach} {a : Nat} (hplace : n.ch.place a = m.ch.place a) (hmem : n.memBits a = m.memBits a)
    (hnear : n.nearBits (a - 0x80000000) = m.nearBits (a - 0x80000000)) : n.peek a = m.peek a := by
  unfold Mach.peek
  rw [hplace, hmem, hnear]
/-- A clean near-store cell reads as the cell stored. -/
theorem nearRead_clean (v : Cell) : nearRead (0#2 ++ v : BitVec 34) = (.clean, v) := by
  have hcode : (0#2 ++ v : BitVec 34).extractLsb' 32 2 = 0#2 := BitVec.extractLsb'_append_eq_left
  have hcell : (0#2 ++ v : BitVec 34).extractLsb' 0 32 = v := BitVec.extractLsb'_append_eq_right
  simp [nearRead, hcode, hcell]
theorem peek_near {m : Mach} {o : Nat} {v : Cell} (ho : o < 0x10000) (h : mapGet m.ch.phys.near o = some (0#2 ++ v : BitVec 34)) :
    m.peek (0x80000000 + o) = v := by
  unfold Mach.peek
  rw [place_near m.ch (by omega) (by omega)]
  simp only [Mach.nearBits, Nat.add_sub_cancel_left, h, Option.getD_some, nearRead_clean]

/-! ### The write of a record (R495, R496, R498) -/

/-- The near-store offset of the record at HEAD: NEARBASE + 1,024 + 4 × HEAD (R495). -/
def Mach.headOffset (m : Mach) : Nat := m.ch.proc.nearbase.toNat + 1024 + 4 * m.ch.perf.head.toNat

/-- Between m and n only a near-store run of a record's cells, HEAD and COUNT with the performance counters, the retransmit buffer of the
mirror stream, and the processor's signals and last grant have changed. -/
def recordWritten (m n : Mach) (cells : Vector Cell 4) : Prop :=
  ∃ (counts : NMap (BitVec 48)) (buf : List (BitVec 24 × MirrorRec)) (seq : BitVec 24) (proc : Proc),
    n = { m with ch := { m.ch with
      phys := { m.ch.phys with near := nearRun m.ch.phys.near m.headOffset cells.toList }
      pair := { m.ch.pair with buf := buf, nextSeq := seq }
      proc := proc
      perf := { m.ch.perf with counts := counts, head := m.ch.perf.head + 1#9, count := m.ch.perf.count + 1 } } }

/-- Entering the mirror stream moves its buffer and a performance counter only (R405, R409). -/
theorem mirrorStore_frame (m : Mach) (base : Nat) (cells : NMap (Cell × Bool)) :
    ∃ (counts : NMap (BitVec 48)) (buf : List (BitVec 24 × MirrorRec)) (seq : BitVec 24),
      m.mirrorStore base cells = { m with ch := { m.ch with
        perf := { m.ch.perf with counts := counts }, pair := { m.ch.pair with buf := buf, nextSeq := seq } } } := by
  unfold Mach.mirrorStore Mach.sendMirror
  split
  · exact ⟨_, _, _, rfl⟩
  · exact ⟨m.ch.perf.counts, m.ch.pair.buf, m.ch.pair.nextSeq, rfl⟩
theorem raiseIf_eq (m : Mach) (en : Bool) (v : Nat) (addr : Cell) :
    m.raiseIf en v addr = { m with ch.proc := if en then raiseP m.ch.proc v addr else m.ch.proc } := by
  cases en <;> rfl
/-- What is written over the performance unit hides a count in it. -/
theorem bumpIf_withPerf (m : Mach) (b : Bool) (e : Nat) (p : Perf) : { m.bumpIf b e with ch.perf := p } = { m with ch.perf := p } := by
  cases b <;> rfl
/-- A signal raised is pending (R263). -/
theorem pending_raiseP (p : Proc) (v : Nat) (addr : Cell) : (mapGet (raiseP p v addr).pend v).isSome = true := by
  unfold raiseP
  split <;> simp
/-- The unit port's step that writes a record's cells at HEAD. -/
theorem nearStep_record (m : Mach) (cells : Vector Cell 4) :
    let a := 0x80000000 + m.ch.proc.nearbase.toNat + 1024 + 4 * m.ch.perf.head.toNat
    ∃ (counts : NMap (BitVec 48)) (buf : List (BitVec 24 × MirrorRec)) (seq : BitVec 24),
      m.nearStep .unitPort (a / 16) ((upFrom (a % 16) 4).zip (cells.toList.map (fun v => (v, false)))) =
        { m with ch := { m.ch with
          phys := { m.ch.phys with near := nearRun m.ch.phys.near m.headOffset cells.toList }
          pair := { m.ch.pair with buf := buf, nextSeq := seq }
          proc := { m.ch.proc with granted := .unitPort }
          perf := { m.ch.perf with counts := counts } } } := by
  intro a
  have hrun := nearCells_run (a / 16 * 16 - 0x80000000) (a % 16) cells.toList { m with ch.proc.granted := .unitPort }
  rw [Vector.length_toList, show a / 16 * 16 - 0x80000000 + a % 16 = m.headOffset by unfold Mach.headOffset; omega] at hrun
  unfold Mach.nearStep
  rw [hrun]
  obtain ⟨counts, buf, seq, h⟩ := mirrorStore_frame
    { m with ch.proc.granted := .unitPort, ch.phys.near := nearRun m.ch.phys.near m.headOffset cells.toList } (a / 16 * 16)
    ((upFrom (a % 16) 4).zip (cells.toList.map (fun v => (v, false))))
  exact ⟨counts, buf, seq, h⟩
/-- With fewer than 511 records unread, a write moves HEAD and COUNT by one and stops nothing; a sample raises vector 91 where enabled. -/
theorem putRecord_written (m : Mach) (sample : Bool) (cells : Vector Cell 4) (hcount : m.ch.perf.count < 511) :
    recordWritten m (m.putRecord sample cells) cells ∧
      (sample = true → bit m.ch.smpctl 22 = true → (mapGet (m.putRecord sample cells).ch.proc.pend 91).isSome = true) := by
  obtain ⟨counts, buf, seq, hstep⟩ := nearStep_record m cells
  have hfull : decide (512 ≤ m.ch.perf.count) = false := by simp; omega
  have hnot : decide (m.ch.perf.count + 1 = 512) = false := by simp; omega
  unfold Mach.putRecord
  dsimp only at hstep ⊢
  rw [hstep]
  simp only [bumpIf_withPerf, raiseIf_eq, hfull, hnot, Bool.and_false, Bool.false_and, Bool.or_false, Bool.false_eq_true, if_false]
  refine ⟨⟨counts, buf, seq, _, rfl⟩, fun hsample henabled => ?_⟩
  rw [if_pos]
  · exact pending_raiseP _ _ _
  · rw [hsample, Bool.true_and]
    exact henabled
/-- The oldest queued record is written, where the buffer is not stopped. -/
theorem tallyWrite_cons {m : Mach} {sample : Bool} {cells : Vector Cell 4} {rest : List (Bool × Vector Cell 4)}
    (hq : m.ch.perf.queue = (sample, cells) :: rest) (hstop : m.ch.perf.stopped = false) :
    m.tallyWrite = ({ m with ch.perf.queue := rest }).putRecord sample cells := by
  simp only [Mach.tallyWrite, hq, hstop, Bool.false_eq_true, if_false]
/-- No record is written while the buffer is stopped. -/
theorem tallyWrite_stopped {m : Mach} (hstop : m.ch.perf.stopped = true) : m.tallyWrite = m := by
  unfold Mach.tallyWrite
  split
  · rfl
  · rw [if_pos hstop]
theorem recordWritten_fields {m n : Mach} {cells : Vector Cell 4} (h : recordWritten m n cells) :
    n.c = m.c ∧ n.ch.thr = m.ch.thr ∧ n.ch.perf.queue = m.ch.perf.queue ∧ n.ch.perf.head = m.ch.perf.head + 1#9 ∧
      n.ch.perf.count = m.ch.perf.count + 1 ∧ n.ch.perf.stopped = m.ch.perf.stopped := by
  obtain ⟨counts, buf, seq, proc, rfl⟩ := h
  exact ⟨rfl, rfl, rfl, rfl, rfl, rfl⟩
/-- Each cell of a record written reads as the record gives it. -/
theorem peek_record {m n : Mach} {cells : Vector Cell 4} (h : recordWritten m n cells) (hend : m.headOffset + 4 ≤ 0x10000) (i : Fin 4) :
    n.peek (0x80000000 + m.headOffset + i.val) = cells[i] := by
  obtain ⟨counts, buf, seq, proc, rfl⟩ := h
  rw [Nat.add_assoc]
  have hget := mapGet_nearRun_in cells.toList m.ch.phys.near m.headOffset i.val (by simp)
  rw [Vector.getElem_toList] at hget
  exact peek_near (by omega) hget
/-- Every cell but those of the record written reads as before. -/
theorem peek_record_out {m n : Mach} {cells : Vector Cell 4} (h : recordWritten m n cells) {b : Nat}
    (hb : b < 0x80000000 + m.headOffset ∨ 0x80000000 + m.headOffset + 4 ≤ b) : n.peek b = m.peek b := by
  obtain ⟨counts, buf, seq, proc, rfl⟩ := h
  have hpos : 0 < m.headOffset := by unfold Mach.headOffset; omega
  refine peek_congr rfl rfl ?_
  unfold Mach.nearBits
  rw [mapGet_nearRun_out _ _ _ _ (by rw [Vector.length_toList]; omega)]

/-! ### The commands of the performance unit -/

section
variable {s : State} {c : Chan}

/-- The saturating count of the model is the one the claims name. -/
theorem satInc_eq_upTo {w : Nat} (p : BitVec w) : satInc p = upTo p := by
  have hlast : p = BitVec.allOnes w ↔ p.toNat + 1 = 2 ^ w := by
    have := Nat.two_pow_pos w
    rw [← BitVec.toNat_inj, BitVec.toNat_allOnes]
    omega
  simp only [satInc, upTo, hlast]
/-- A wrap of a core's cycle counter is counted in the counts record, which is requested (R78, R492). -/
theorem cycleCounterWrap_counts (hcond : (s.chan c).life.cond = .running) (k : Fin 2) :
    let l := (s.chan c).led
    turnsTo (.cycleCounterWrap c k) s c { s.chan c with led := { l with
      counts := (if k = 0 then { l.counts with wrap0 := upTo l.counts.wrap0 } else { l.counts with wrap1 := upTo l.counts.wrap1 })
      items := if Item.counts ∈ l.items then l.items else l.items ++ [.counts] } } := by
  refine congrArg _ (onMach_channel s c _ _ ?_)
  simp only [Mach.cycleWrap, mach_ch, hcond, if_true, Mach.count, Ledger.request, satInc_eq_upTo, List.contains_iff_mem]
  split <;> rfl
/-- An expired countdown marks the next selected instruction of the core (R500). -/
theorem samplingCountdownExpiry_marks (hcond : (s.chan c).life.cond = .running) (hpower : (s.chan c).life.power ≠ .sleep)
    (hon : bit (winGet (s.chan c) 0x1800) 23 = true) (k : Fin 2) :
    turnsTo (.samplingCountdownExpiry c k) s c { s.chan c with
      perf := { (s.chan c).perf with marked := setBit (s.chan c).perf.marked k.val true } } := by
  refine congrArg _ (onMach_channel s c _ _ ?_)
  have hgo : ((s.mach c).fastOn && bit (s.mach c).ch.smpctl 23) = true := by
    rw [fastOn_of_running hcond hpower, Bool.true_and]
    exact hon
  exact if_pos hgo
/-- While the buffer is stopped, no record takes its step (R496). -/
theorem tallyRecordWrite_stopped (hstop : (s.chan c).perf.stopped = true) : exec (.tallyRecordWrite c) s = .next s := by
  refine congrArg _ (onMach_id s c _ ?_)
  rw [tallyWrite_stopped hstop, ite_self]
/-- Where the buffer is not stopped, the command writes the oldest queued record. -/
theorem tallyRecordWrite_writes {sample : Bool} {cells : Vector Cell 4} {rest : List (Bool × Vector Cell 4)}
    (hcond : (s.chan c).life.cond = .running) (hpower : (s.chan c).life.power ≠ .sleep)
    (hq : (s.chan c).perf.queue = (sample, cells) :: rest) (hstop : (s.chan c).perf.stopped = false) :
    exec (.tallyRecordWrite c) s =
      .next (s.onMach c (fun m => ({ m with ch.perf.queue := rest }).putRecord sample cells)) := by
  have hf : (if (s.mach c).fastOn then (s.mach c).tallyWrite else s.mach c)
      = ({ s.mach c with ch.perf.queue := rest }).putRecord sample cells := by
    rw [if_pos (fastOn_of_running hcond hpower), tallyWrite_cons hq hstop]
  show Host.Outcome.next (s.putMach { (if (s.mach c).fastOn then (s.mach c).tallyWrite else s.mach c) with c := c }) = _
  rw [hf]
  rfl
/-- TLACK of a number within 1 to 512 marks so many records as read (R497). -/
theorem tlack_frees (h : s.awake c) (n : BitVec 10) (hlo : 1 ≤ n.toNat) (hhi : n.toNat ≤ 512) :
    let p := (s.chan c).perf
    turnsTo (.tlack c n) s c { s.chan c with
      perf := { p with count := p.count - n.toNat, stopped := p.stopped && decide (512 ≤ p.count - n.toNat) } } := by
  refine congrArg _ (program_channel h ?_)
  have hn : max 1 (min 512 n.toNat) = n.toNat := by omega
  have hstop (k : Nat) : (!decide (k < 512)) = decide (512 ≤ k) := by simp [← decide_not]
  simp only [Mach.tlack, hn, hstop]
  rfl
/-- A read of STAMPL captures WRAP for its thread (R494). -/
theorem stamplRead_captures (h : s.awake c) (t : Fin 8) :
    ∃ w : BitVec 8, exec (.stamplRead c t) s = .next (({ s with free := s.free + 1 }).setChan c
      { s.chan c with thr := (s.chan c).thr.set t { s.thread c t with stampCap := some (w.setWidth 24) } }) :=
  ⟨_, congrArg _ ((program_awake _ h).trans rfl)⟩

/-! ### Stores to window registers -/

@[simp] theorem cellPay_fix (v : Payload) : cellPay (fix v) = v := BitVec.extractLsb'_append_eq_right
/-- A store to a page of no unit reaches nothing (R28). -/
theorem windowWrite_unallocated {o : BitVec 18} (v : Payload) (hp : pageAllocated (o.toNat / 1024) = false) :
    exec (.windowRegisterWrite c o v) s = .next s := by
  refine congrArg _ (onMach_id s c _ ?_)
  simp only [hp, Bool.false_eq_true, if_false, ite_self]
/-- A store to a page of a unit ends as the page's registers take it. -/
theorem windowWrite_turnsTo {o : BitVec 18} {n : Nat} {v : Payload} {x : Channel} (h : s.awake c) (hn : o.toNat = n)
    (hp : pageAllocated (n / 1024) = true) (hx : (s.mach c).winStore n (fix v) = { s.mach c with ch := x }) :
    turnsTo (.windowRegisterWrite c o v) s c x := by
  refine congrArg _ (program_channel h ?_)
  rw [hn, if_pos hp, hx]

end

section
variable (m : Mach) {n : Nat} (v : Payload)

/-- The watchdog page takes no store. -/
theorem winStore_watchdog (hn : n / 1024 = 3) : m.winStore n (fix v) = m := by
  rw [Mach.winStore, hn]
  rfl
/-- PWREV keeps its two enables (Table 5.8). -/
theorem winStore_pwrev : m.winStore 0x0403 (fix v) = { m with ch := (winPut m.ch 0x0403 (v &&& 3#24)).taking 1 } := by
  simp only [Mach.winStore, cellPay_fix]
  rfl
/-- A 1 stored over a sticky bit of SUPSTAT clears it (Table 5.8). -/
theorem winStore_supstat : m.winStore 0x0404 (fix v) =
    { m with ch := Channel.taking { m.ch with clk := { m.ch.clk with sticky := m.ch.clk.sticky &&& ~~~(v.extractLsb' 8 6) } } 1 } := by
  simp only [Mach.winStore, cellPay_fix]
  rfl
/-- A store to the timers' page is one to a timer register. -/
theorem winStore_timerPage (hlo : 0x0800 ≤ n) (hhi : n < 0x0C00) : m.winStore n (fix v) = m.timerStore n v := by
  have hn : n / 1024 = 2 := by omega
  simp only [Mach.winStore, cellPay_fix, hn]
  rfl
/-- The values of a timer's registers, its control register apart, are kept as stored (Table 5.9). -/
theorem winStore_timer (hn : (0x0810 ≤ n ∧ n < 0x0830 ∧ n % 4 ≠ 0) ∨ (0x0840 ≤ n ∧ n < 0x0860 ∧ n % 4 = 1)) :
    m.winStore n (fix v) = { m with ch := winPut m.ch n v } := by
  rw [winStore_timerPage m v (by omega) (by omega), Mach.timerStore]
  rcases hn with ⟨hlo, hhi, hoff⟩ | ⟨hlo, hhi, hoff⟩
  · rw [dif_pos ⟨hlo, hhi⟩]
    exact if_neg hoff
  · rw [dif_neg (by omega), dif_pos ⟨hlo, hhi⟩]
    simp only [hoff]
/-- CCTL keeps its six bits (Table 14.7). -/
theorem winStore_cctl : m.winStore 0x1400 (fix v) = { m with ch := winPut m.ch 0x1400 (v &&& 0x3F#24) } := by
  simp only [Mach.winStore, cellPay_fix]
  rfl
/-- PRCTL keeps its three bits (Table 18.5). -/
theorem winStore_prctl : m.winStore 0x8001 (fix v) = { m with ch := winPut m.ch 0x8001 (v &&& 7#24) } := by
  simp only [Mach.winStore, cellPay_fix]
  rfl
/-- CKBASE keeps every bit but CKBUSY's (Table 18.5). -/
theorem winStore_ckbase : m.winStore 0x8004 (fix v) = { m with ch := winPut m.ch 0x8004 (v &&& 0xBFFFFF#24) } := by
  simp only [Mach.winStore, cellPay_fix]
  rfl

end

/-- A record written at HEAD: what the state then holds, which cells read otherwise, and the signal a sample raises (R495, R496, R501). -/
theorem tallyRecordWrite_record {s : State} {c : Chan} {sample : Bool} {cells : Vector Cell 4} {rest : List (Bool × Vector Cell 4)}
    (hcond : (s.chan c).life.cond = .running) (hpower : (s.chan c).life.power ≠ .sleep)
    (hq : (s.chan c).perf.queue = (sample, cells) :: rest) (hstop : (s.chan c).perf.stopped = false) (hcount : (s.chan c).perf.count < 511) :
    ∃ n : Mach, recordWritten { s.mach c with ch.perf.queue := rest } n cells ∧ exec (.tallyRecordWrite c) s = .next (s.putMach n) ∧
      (sample = true → bit (winGet (s.chan c) 0x1800) 22 = true → (mapGet n.ch.proc.pend 91).isSome = true) := by
  obtain ⟨hwritten, hsample⟩ := putRecord_written { s.mach c with ch.perf.queue := rest } sample cells hcount
  refine ⟨_, hwritten, ?_, hsample⟩
  have hwrites : exec (.tallyRecordWrite c) s = .next (s.putMach
      { ({ s.mach c with ch.perf.queue := rest }).putRecord sample cells with c := c }) :=
    tallyRecordWrite_writes hcond hpower hq hstop
  obtain ⟨counts, buf, seq, proc, hn⟩ := hwritten
  rw [hwrites, hn]
  rfl
/-- A slice put back is the slice of its channel. -/
theorem mach_putMach (s : State) {n : Mach} {c : Chan} (h : n.c = c) : (s.putMach n).mach c = n := by
  subst h
  simp [State.mach]

/-! ### The claim -/

/-- Settles O59: each clause is one of the lemmas above; a record written is read back at HEAD and leaves every other cell. -/
theorem performanceAndWindow : Obligations.PerformanceAndWindow := by
  intro s c
  refine ⟨fun hcond => ⟨cycleCounterWrap_counts hcond, fun k hon hpower => samplingCountdownExpiry_marks hcond hpower hon k, ?_⟩,
    fun hawake => ⟨tlack_frees hawake, congrArg _ (program_channel hawake rfl), stamplRead_captures hawake, ?_⟩⟩
  · intro sample cells rest hpower hq
    refine ⟨tallyRecordWrite_stopped, fun hstop hcount hend => ?_⟩
    obtain ⟨n, hwritten, hexec, hsample⟩ := tallyRecordWrite_record hcond hpower hq hstop hcount
    obtain ⟨hc, hthr, hqueue, hhead, hcnt, hstopped⟩ := recordWritten_fields hwritten
    have hmach : (s.putMach n).mach c = n := mach_putMach s hc
    have hchan : (s.putMach n).chan c = n.ch := congrArg Mach.ch hmach
    have hoffset : 0x80000000 + (s.chan c).proc.nearbase.toNat + 1024 + 4 * (s.chan c).perf.head.toNat
        = 0x80000000 + ({ s.mach c with ch.perf.queue := rest } : Mach).headOffset := by
      simp only [Mach.headOffset, mach_ch]
      omega
    rw [hoffset] at hend ⊢
    refine ⟨s.putMach n, hexec, fun k hk => chan_putMach_ne s n k (hc ▸ hk), ?_⟩
    rw [hchan]
    refine ⟨hthr, hqueue, hhead, hcnt, hstopped.trans hstop, fun i => ?_, fun b hb => ?_, hsample⟩
    · rw [State.cell, hmach, peek_record hwritten (by omega)]
    · rw [State.cell, hmach, peek_record_out hwritten hb]
      rfl
  · intro o v
    refine ⟨?_, fun hn => ?_, fun hn => ?_, fun hn => ?_, fun hn => ?_, fun hn => ?_, fun hn => ?_⟩
    · rintro (hn | hn | hn)
      · exact windowWrite_unallocated v (by simp [pageAllocated]; omega)
      · exact windowWrite_unallocated v (by simp [pageAllocated]; omega)
      · have hsame := windowWrite_turnsTo hawake rfl (by rw [hn]; rfl) (winStore_watchdog (s.mach c) v hn)
        exact Eq.trans hsame (congrArg _ (setChan_chan s c))
    · rw [hn]
      exact windowWrite_turnsTo hawake hn rfl (winStore_pwrev _ v)
    · exact windowWrite_turnsTo hawake hn rfl (winStore_supstat _ v)
    · exact windowWrite_turnsTo hawake rfl (by simp [pageAllocated]; omega) (winStore_timer _ v hn)
    · rw [hn]
      exact windowWrite_turnsTo hawake hn rfl (winStore_cctl _ v)
    · rw [hn]
      exact windowWrite_turnsTo hawake hn rfl (winStore_prctl _ v)
    · rw [hn]
      exact windowWrite_turnsTo hawake hn rfl (winStore_ckbase _ v)

end Sys2Proof.Machine
end

section
/-! The queue, reset, and what every instruction of a thread has in common (R22, R194, R245). -/
namespace Sys2Proof.Machine

/-! ### Steps and reset -/

/-- Settles O1: with a command waiting, the step's match takes its second branch. -/
theorem stepRunsFrontCommand : Obligations.StepRunsFrontCommand := by
  intro s i r h
  rw [step, h]

/-- Settles O6: every arm of `exec`, and the idle period, answers a next state. -/
theorem everyStepAnswers : Obligations.EveryStepAnswers := by
  intro s
  cases h : s.pending with
  | nil => exact ⟨s.tick, by rw [step, h]⟩
  | cons i r =>
    have hexec : ∃ s', exec i { s with pending := r } = .next s' := by cases i <;> exact ⟨_, rfl⟩
    rwa [step, h]

/-- After reset every channel stands as a reset with cause POR leaves it. -/
theorem chan_reset (c : Chan) : State.reset.chan c = channelReset 1#6 := Vector.getElem_replicate ..
/-- Thread 0 runs in supervisor mode after reset, the others are stopped. -/
theorem thread_reset (c : Chan) (t : Fin 8) :
    State.reset.thread c t = { threadReset with pstate := if t = 0 then 1#24 else 0#24, status := if t = 0 then .running else .stopped } := by
  rw [State.thread, chan_reset]
  revert t
  decide
theorem reg_threadReset (r : Reg) : threadReset.reg r = fix0 := Vector.getElem_replicate ..
/-- A window register nothing has written reads its value at power-up. -/
theorem winGet_of_nil {ch : Channel} (h : ch.win = []) (o : Nat) : winGet ch o = winReset o := by
  rw [winGet, h, mapGet_nil, Option.getD_none]

/-- Settles O3: each field of the reset state is read off `channelReset` and `threadReset`. -/
theorem resetState : Obligations.ResetState := by
  refine ⟨rfl, fun c => ?_⟩
  rw [chan_reset]
  refine ⟨rfl, fun t => ?_, by decide, winGet_of_nil rfl, rfl, rfl, rfl⟩
  rw [thread_reset]
  exact ⟨rfl, reg_threadReset, rfl, rfl, rfl, rfl, rfl, rfl, rfl, rfl, rfl, rfl, rfl, rfl, rfl⟩

/-- Settles O5: nothing is stored at reset. -/
theorem resetStorageWf : Obligations.ResetStorageWf := by
  unfold Obligations.ResetStorageWf State.storageWf
  simp only [chan_reset]
  rfl

/-! ### An idle period -/

theorem chan_tick (s : State) (c : Chan) : s.tick.chan c = (s.chan c).tick := Vector.getElem_map ..
/-- A condition that counts is none of the three in which the timebase stands (R112). -/
theorem ticks_iff (k : Cond) : k.ticks = true ↔ ¬ (k = .inReset ∨ k = .keptOff ∨ k = .off) := by cases k <;> decide
theorem ite_succ (n : Nat) (b : Prop) [Decidable b] : (if b then n + 1 else n) = n + (if b then 1 else 0) := by split <;> rfl
/-- What a period adds to a channel's clock. -/
theorem clk_tick (ch : Channel) : ch.tick.clk = if ch.life.cond = .inReset ∨ ch.life.cond = .keptOff ∨ ch.life.cond = .off then ch.clk
    else { ch.clk with
      tb := ch.clk.tb + 1#48
      wdCount := ch.clk.wdCount + (if ch.clk.wdRun then 1 else 0)
      monWait := ch.clk.monWait + (if ch.life.cond = .running then 1 else 0)
      staleFor := if ch.stalemated then ch.clk.staleFor + 1 else 0 } := by
  by_cases h : ch.life.cond = .inReset ∨ ch.life.cond = .keptOff ∨ ch.life.cond = .off
  · have hn : ¬ ch.life.cond.ticks = true := fun ht => (ticks_iff _).mp ht h
    rw [if_pos h, Channel.tick, if_neg hn]
  · rw [if_neg h, Channel.tick, if_pos ((ticks_iff _).mpr h), Clock.tick]
    simp only [decide_eq_true_eq, ite_succ ch.clk.wdCount, ite_succ ch.clk.monWait]
/-- What a period changes of a memory controller. -/
theorem mc_tick (ch : Channel) : ch.tick.mc = { ch.mc with
    panic := false, panicHeld := false, waited := ch.mc.waited + 1
    sub := if ch.mc.trained = true ∧ ch.life.power ≠ .sleep then ch.mc.sub.map (fun x => { x with winAge := x.winAge + 1 }) else ch.mc.sub } := by
  by_cases h : ch.mc.trained = true ∧ ch.life.power ≠ .sleep
  · have hon : (ch.mc.trained && decide (ch.life.power ≠ .sleep)) = true := by rw [h.1, decide_eq_true h.2]; rfl
    rw [if_pos h, Channel.tick, hon]
    rfl
  · have hoff : (ch.mc.trained && decide (ch.life.power ≠ .sleep)) = false := by
      rwa [Bool.eq_false_iff, ne_eq, Bool.and_eq_true, decide_eq_true_eq]
    have hid : ch.mc.sub.map (fun x => x) = ch.mc.sub := Vector.map_id' _
    conv_rhs => rw [if_neg h, ← hid]
    rw [Channel.tick, hoff]
    rfl

/-- Settles O2: with an empty queue the step is `State.tick`, told channel by channel. -/
theorem idleStepCountsOnePeriod : Obligations.IdleStepCountsOnePeriod := by
  intro s h
  refine ⟨s.tick, by rw [step, h], h, rfl, fun c => ?_⟩
  rw [chan_tick]
  exact ⟨clk_tick _, rfl, mc_tick _, rfl, rfl, rfl, rfl, rfl, rfl⟩

/-! ### Every instruction is work on its own channel's slice -/

theorem issue_of_cannot {m : Mach} {t : Fin 8} (i : Ins) (w : IM Flow) (h : m.canIssue t = false) : m.issue t i w = m := by
  simp [Mach.issue, h]
/-- Every instruction but NOP issues a fixed form and work, whatever the state. -/
theorem exec_issue_of_issuedBy {i : Instr} {c : Chan} {t : Fin 8} (h : i.issuedBy = some (c, t)) :
    (∃ ins w, ∀ s, exec i s = .next (s.issue c t ins w)) ∨ ∃ v, i = .nop c ⟨t, v⟩ := by
  cases i <;> cases h <;> first | exact .inl ⟨_, _, fun _ => rfl⟩ | exact .inr ⟨_, rfl⟩
/-- Every instruction of a thread is work on the slice of its channel, and leaves the slice alone where the thread cannot issue. -/
theorem exec_onMach_of_issuedBy {i : Instr} {c : Chan} {t : Fin 8} (h : i.issuedBy = some (c, t)) :
    ∃ f : Mach → Mach, (∀ s, exec i s = .next (s.onMach c f)) ∧ ∀ m, m.canIssue t = false → f m = m := by
  rcases exec_issue_of_issuedBy h with ⟨ins, w, hexec⟩ | ⟨v, rfl⟩
  · exact ⟨_, hexec, fun m => issue_of_cannot ins w⟩
  · exact ⟨_, fun _ => rfl, fun m hm => by simp [Mach.issueCell, hm]⟩

/-- Settles O7: an instruction is one function of its channel's slice, put back in the state. -/
theorem instructionsKeepToTheirChannel : Obligations.InstructionsKeepToTheirChannel := by
  intro i c t h s u hchan hsquare hfree
  obtain ⟨f, hexec, -⟩ := exec_onMach_of_issuedBy h
  have hslice : u.mach c = s.mach c := by simp only [State.mach, hchan, hsquare, hfree]
  refine ⟨_, _, hexec s, hexec u, fun k hk => chan_onMach_ne s c k f hk, rfl, ?_, ?_, ?_⟩
  · rw [chan_onMach, chan_onMach, hslice]
  · rw [onMach_eq, onMach_eq, hslice]
  · rw [onMach_eq, onMach_eq, hslice]

/-- The supervisor instructions issue as such, with the cell Table 8.11 and its like give them (R247). -/
theorem exec_issue_of_supCell {i : Instr} {c : Chan} {t : Fin 8} {v : Cell} (h : i.issuedBy = some (c, t)) (hv : i.supCell = some v) :
    ∃ ins w, ins.sup = true ∧ ins.icell = v ∧ ∀ s, exec i s = .next (s.issue c t ins w) := by
  cases i <;> cases h <;> cases hv <;> exact ⟨_, _, rfl, rfl, fun _ => rfl⟩
/-- What a ready thread's slice meets on the way to the dispatch entry (R247). -/
theorem ready_dispatch {s : State} {c : Chan} {t : Fin 8} (h : s.ready c t = true) (i : Ins) :
    (s.mach c).canIssue t = true ∧ (s.mach c).microCheck (coreOf t) = s.mach c ∧
      ((s.mach c).core (coreOf t)).dispatch i = .go i.sup (Config.microStart i.op % 7920) := by
  unfold State.ready at h
  simp only [Bool.and_eq_true, Bool.not_eq_true'] at h
  obtain ⟨⟨⟨hissue, hmade⟩, hmicro⟩, -⟩ := h
  exact ⟨hissue, microCheck_clean hmicro, if_pos hmade⟩
/-- A supervisor instruction in user code records the privilege fault and changes nothing else (R194 step 2). -/
theorem issue_privileged {s : State} {c : Chan} {t : Fin 8} {i : Ins} (w : IM Flow) (h : s.ready c t = true) (hsup : i.sup = true)
    (huser : (s.thread c t).sup = false) : s.issue c t i w =
      s.setChan c { s.chan c with thr := (s.chan c).thr.set t ((s.thread c t).raiseSync 2#10 fix0 i.icell 0#2) } := by
  obtain ⟨hissue, hmicro, hgo⟩ := ready_dispatch h i
  have huser' : ((s.mach c).thr t).sup = false := huser
  have hslice : (s.mach c).issue t i w
      = (s.mach c).setThr t ((s.thread c t).raiseSync 2#10 fix0 i.icell 0#2) := by
    unfold Mach.issue
    simp only [hissue, hmicro, ite_self, hgo, hsup, huser']
    rfl
  rw [State.issue, State.onMach, hslice]
  rfl

/-- Settles O8: an instruction that cannot issue leaves its slice alone, and one that lacks the privilege ends at its dispatch entry. -/
theorem notItsOwnEffect : Obligations.NotItsOwnEffect := by
  refine ⟨fun i c t s h hno => ?_, fun i s c t ic h hcell hready huser => ?_⟩
  · obtain ⟨f, hexec, hkeep⟩ := exec_onMach_of_issuedBy h
    rw [hexec, onMach_id s c f (hkeep _ hno)]
  · obtain ⟨ins, w, hsup, rfl, hexec⟩ := exec_issue_of_supCell h hcell
    rw [hexec, issue_privileged w hready hsup huser]

end Sys2Proof.Machine
end

section
/-! Storage stays canonical (R1, R159): each operation of the model keeps memory, near store and window registers one entry per address, in
rising order. One lemma per operation, named after it: `f_canon` of a slice or a channel, `f_stateCanon` of a device, `f_keeps` of an
instruction's work, `f_sweepKeeps` of the sweeper's. -/
namespace Sys2Proof.Machine

/-- The storage of a channel stands in canonical form. -/
def Channel.Canon (ch : Channel) : Prop := mapWf ch.phys.mem = true ∧ mapWf ch.phys.near = true ∧ mapWf ch.win = true
/-- The storage of a slice's channel stands in canonical form. -/
def Mach.Canon (m : Mach) : Prop := m.ch.Canon
/-- The storage of every channel stands in canonical form. -/
def State.Canon (s : State) : Prop := ∀ c : Chan, (s.chan c).Canon
/-- An instruction's work keeps the canonical form, however it ends. -/
def Keeps {α : Type} (w : IM α) : Prop := ∀ st : IS, st.m.Canon → (runI w st).2.m.Canon
/-- The sweeper's work keeps the canonical form, however it ends. -/
def SweepKeeps {α : Type} (w : SM α) : Prop := ∀ m : Mach, m.Canon → (m.sweep w).2.Canon

theorem storageWf_iff (s : State) : s.storageWf = true ↔ s.Canon := by
  simp only [State.storageWf, List.all_cons, List.all_nil, Bool.and_true, Bool.and_eq_true, and_assoc]
  constructor
  · rintro ⟨a1, a2, a3, b1, b2, b3, c1, c2, c3, d1, d2, d3⟩ c
    fin_cases c
    · exact ⟨a1, a2, a3⟩
    · exact ⟨b1, b2, b3⟩
    · exact ⟨c1, c2, c3⟩
    · exact ⟨d1, d2, d3⟩
  · intro h
    obtain ⟨⟨a1, a2, a3⟩, ⟨b1, b2, b3⟩, ⟨c1, c2, c3⟩, d1, d2, d3⟩ := And.intro (h 0) (And.intro (h 1) (And.intro (h 2) (h 3)))
    exact ⟨a1, a2, a3, b1, b2, b3, c1, c2, c3, d1, d2, d3⟩

/-! ### Choices and pairs -/

theorem ite_canon {c : Prop} [Decidable c] {a b : Mach} (ha : a.Canon) (hb : b.Canon) : (if c then a else b).Canon := by split <;> assumption
theorem ite_canonS {c : Prop} [Decidable c] {a b : State} (ha : a.Canon) (hb : b.Canon) : (if c then a else b).Canon := by
  split <;> assumption
theorem ite_snd_canon {α : Type} {c : Prop} [Decidable c] {p q : α × Mach} (hp : p.2.Canon) (hq : q.2.Canon) : (if c then p else q).2.Canon := by
  split <;> assumption
theorem pair_canon {α : Type} {a : α} {m : Mach} (h : m.Canon) : (a, m).2.Canon := h
theorem snd_canon {α : Type} {p : α × Mach} {a : α} {m : Mach} (e : p = (a, m)) (h : p.2.Canon) : m.Canon := by subst e; exact h
theorem mid_canon {α β : Type} {p : α × Mach × β} {a : α} {m : Mach} {b : β} (e : p = (a, m, b)) (h : p.2.1.Canon) : m.Canon := by
  subst e; exact h
theorem foldl_canon {α : Type} {f : Mach → α → Mach} (hf : ∀ m a, m.Canon → (f m a).Canon) {xs : List α} {m : Mach} (h : m.Canon) :
    (xs.foldl f m).Canon := by
  induction xs generalizing m with
  | nil => exact h
  | cons x r ih => exact ih (hf _ _ h)
theorem iterN_snd_canon {α : Type} {f : Nat → α × Mach → α × Mach} (hf : ∀ i r, r.2.Canon → (f i r).2.Canon) {i n : Nat} {r : α × Mach}
    (h : r.2.Canon) : (iterN f i n r).2.Canon := by
  induction n generalizing i r with
  | zero => exact h
  | succ n ih => exact ih (hf _ _ h)
theorem iterN_canon {f : Nat → Mach → Mach} (hf : ∀ i m, m.Canon → (f i m).Canon) {i n : Nat} {m : Mach}
    (h : m.Canon) : (iterN f i n m).Canon := by
  induction n generalizing i m with
  | zero => exact h
  | succ n ih => exact ih (hf _ _ h)

/-! ### Sequences of an instruction's work -/

theorem bind_keeps {α β : Type} {w : IM α} {f : α → IM β} (hw : Keeps w) (hf : ∀ a, Keeps (f a)) : Keeps (w >>= f) := by
  intro st h
  rw [runI_bind]
  have hs := hw st h
  rcases h' : runI w st with ⟨e | a, s⟩ <;> rw [h'] at hs
  · exact hs
  · exact hf a s hs
theorem pure_keeps {α : Type} {a : α} : Keeps (pure a) := fun _ h => h
theorem throw_keeps {α : Type} {e : Exit} : Keeps (throw e : IM α) := fun _ h => h
theorem get_keeps : Keeps (get : IM IS) := fun _ h => h
theorem tryCatch_keeps {α : Type} {w : IM α} {f : Exit → IM α} (hw : Keeps w) (hf : ∀ a, Keeps (f a)) : Keeps (tryCatch w f) := by
  intro st h
  rw [runI_tryCatch]
  have hs := hw st h
  rcases h' : runI w st with ⟨e | a, s⟩ <;> rw [h'] at hs
  · exact hf e s hs
  · exact hs
theorem ite_keeps {α : Type} {c : Prop} [Decidable c] {a b : IM α} (ha : Keeps a) (hb : Keeps b) : Keeps (if c then a else b) := by
  split <;> assumption
/-- A check before the rest of the work. -/
theorem check_keeps {α : Type} {c : Prop} [Decidable c] {w : IM PUnit} {k : PUnit → IM α} (hw : Keeps w) (hk : ∀ u, Keeps (k u)) :
    Keeps (if c then w >>= k else k ⟨⟩) := ite_keeps (bind_keeps hw hk) (hk _)
theorem modify_keeps {f : IS → IS} (hf : ∀ s, (f s).m = s.m) : Keeps (modify f : IM Unit) := fun st h => (hf st).symm ▸ h
theorem modM_keeps {f : Mach → Mach} (hf : ∀ m, m.Canon → (f m).Canon) : Keeps (modM f) := fun st h => hf st.m h
theorem useM_keeps {α : Type} {f : Mach → α × Mach} (hf : ∀ m, m.Canon → (f m).2.Canon) : Keeps (useM f) := fun st h => hf st.m h
theorem modT_keeps {f : Thread → Thread} : Keeps (modT f) := fun _ h => h
theorem getM_keeps : Keeps getM := fun _ h => h
theorem me_keeps : Keeps me := fun _ h => h
theorem getT_keeps : Keeps getT := fun _ h => h
theorem myCore_keeps : Keeps myCore := fun _ h => h
theorem fault_keeps {α : Type} {v : BitVec 10} {a : Cell} : Keeps (fault v a : IM α) := throw_keeps
theorem faultTY_keeps {α : Type} {n : Nat} : Keeps (faultTY n : IM α) := throw_keeps
theorem faultOR_keeps {α : Type} {n : Nat} : Keeps (faultOR n : IM α) := throw_keeps
theorem faultPO_keeps {α : Type} {n : Nat} : Keeps (faultPO n : IM α) := throw_keeps
theorem faultAL_keeps {α : Type} {n : Nat} : Keeps (faultAL n : IM α) := throw_keeps
theorem faultIL_keeps {α : Type} : Keeps (faultIL : IM α) := throw_keeps
theorem faultOV_keeps {α : Type} : Keeps (faultOV : IM α) := throw_keeps
theorem runAt_canon {α : Type} {m : Mach} {t : Fin 8} {w : IM α} (h : m.Canon) (hw : Keeps w) : (m.runAt t w).2.1.Canon :=
  hw { m := m, t := t, used := [], fwds := 0, last := 0 } h
theorem run_canon {α : Type} {m : Mach} {t : Fin 8} {w : IM α} (h : m.Canon) (hw : Keeps w) : (m.run t w).2.Canon := runAt_canon h hw

/-! ### Sequences of the sweeper's work -/

theorem sweep_bind {α β : Type} (w : SM α) (f : α → SM β) (m : Mach) :
    m.sweep (w >>= f) = match m.sweep w with | (.ok a, m) => m.sweep (f a) | (.error e, m) => (.error e, m) := by
  show StateT.run (StateT.bind w (ExceptT.bindCont f)) m = _
  simp only [StateT.run, StateT.bind, Mach.sweep]
  show (match w m with | (a, m) => ExceptT.bindCont f a m) = match w m with | (.ok a, m) => f a m | (.error e, m) => (.error e, m)
  rcases w m with ⟨e | a, s⟩ <;> rfl
theorem bind_sweepKeeps {α β : Type} {w : SM α} {f : α → SM β} (hw : SweepKeeps w) (hf : ∀ a, SweepKeeps (f a)) : SweepKeeps (w >>= f) := by
  intro m h
  rw [sweep_bind]
  have hs := hw m h
  rcases h' : m.sweep w with ⟨e | a, s⟩ <;> rw [h'] at hs
  · exact hs
  · exact hf a s hs
theorem pure_sweepKeeps {α : Type} {a : α} : SweepKeeps (pure a) := fun _ h => h
theorem throw_sweepKeeps {α : Type} {e : BitVec 10} : SweepKeeps (throw e : SM α) := fun _ h => h
theorem get_sweepKeeps : SweepKeeps (get : SM Mach) := fun _ h => h
theorem ite_sweepKeeps {α : Type} {c : Prop} [Decidable c] {a b : SM α} (ha : SweepKeeps a) (hb : SweepKeeps b) :
    SweepKeeps (if c then a else b) := by split <;> assumption
theorem check_sweepKeeps {α : Type} {c : Prop} [Decidable c] {w : SM PUnit} {k : PUnit → SM α} (hw : SweepKeeps w)
    (hk : ∀ u, SweepKeeps (k u)) : SweepKeeps (if c then w >>= k else k ⟨⟩) := ite_sweepKeeps (bind_sweepKeeps hw hk) (hk _)
theorem swMod_sweepKeeps {f : Mach → Mach} (hf : ∀ m, m.Canon → (f m).Canon) : SweepKeeps (swMod f) := fun m h => hf m h
theorem swUse_sweepKeeps {α : Type} {f : Mach → α × Mach} (hf : ∀ m, m.Canon → (f m).2.Canon) : SweepKeeps (swUse f) := fun m h => hf m h
theorem sweep_canon {α : Type} {m : Mach} {w : SM α} (h : m.Canon) (hw : SweepKeeps w) : (m.sweep w).2.Canon := hw m h

/-! ### Devices, channels and what is stored -/

theorem chan_canon {s : State} {c : Chan} (h : s.Canon) : (s.chan c).Canon := h c
theorem mach_canon {s : State} {c : Chan} (h : s.Canon) : (s.mach c).Canon := h c
theorem chans_set_canon {s : State} {c : Chan} {ch : Channel} (h : s.Canon) (hch : ch.Canon) (d : Chan) : (s.chans.set c ch)[d].Canon := by
  rw [Fin.getElem_fin, Vector.getElem_set]
  split
  · exact hch
  · exact h d
theorem setChan_stateCanon {s : State} {c : Chan} {ch : Channel} (h : s.Canon) (hch : ch.Canon) : (s.setChan c ch).Canon := chans_set_canon h hch
theorem onMach_stateCanon {s : State} {c : Chan} {f : Mach → Mach} (h : s.Canon) (hf : ∀ m, m.Canon → (f m).Canon) : (s.onMach c f).Canon :=
  chans_set_canon h (hf _ (mach_canon h))
theorem winPut_canon {ch : Channel} {o : Nat} {v : Payload} (h : ch.Canon) : (winPut ch o v).Canon := by
  obtain ⟨hmem, hnear, hwin⟩ := h
  refine ⟨hmem, hnear, ?_⟩
  unfold winPut
  dsimp only
  split
  · exact mapWf_mapDel _ _ hwin
  · exact mapWf_mapPut _ _ _ hwin
theorem putMem_canon {m : Mach} {a : Nat} {w : BitVec 40} (h : m.Canon) : (m.putMem a w).Canon := by
  obtain ⟨hmem, hnear, hwin⟩ := h
  exact ⟨putMem_wf m a w hmem, hnear, hwin⟩
theorem putRun_canon {m : Mach} {a : Nat} {vs : List Cell} (h : m.Canon) : (m.putRun a vs).Canon := by
  obtain ⟨hmem, hnear, hwin⟩ := h
  exact ⟨putRun_wf m a vs hmem, hnear, hwin⟩
theorem putNear_canon {m : Mach} {o : Nat} {c : Cell} (h : m.Canon) : (m.putNear o c).Canon := by
  obtain ⟨hmem, hnear, hwin⟩ := h
  exact ⟨hmem, putNear_wf m o c hnear, hwin⟩
/-- A channel with nothing stored and every window register at its value at power-up. -/
theorem canon_of_empty {ch : Channel} (hmem : ch.phys.mem = []) (hnear : ch.phys.near = []) (hwin : ch.win = []) : ch.Canon := by
  rw [Channel.Canon, hmem, hnear, hwin]
  exact ⟨rfl, rfl, rfl⟩
theorem forget_canon {m : Mach} {g : Nat} (h : m.Canon) : ({ m with ch.phys.mem := [], ch.phys.memGen := g } : Mach).Canon := by
  obtain ⟨-, hnear, hwin⟩ := h
  exact ⟨rfl, hnear, hwin⟩
/-! An update of other fields than memory, near store and window registers. -/

section
variable {c : Chan} {sq : Square} {free : Nat} {life : Life} {clk : Clock} {straps : Vector Pin 8} {boot : Boot} {thr : Vector Thread 8}
  {seq : Vector MicroSeq 8} {core : Vector Core 2} {proc : Proc} {sw : Sweeper} {mc : MemCtl} {led : Ledger} {pair : Pair}
  {perf : Perf} {disp : Disp} {panel : Panel} {touch : Touch}
theorem upd_canon {m : Mach} (h : m.Canon) : Mach.Canon (Mach.mk c (Channel.mk life clk straps boot m.ch.win thr seq core proc m.ch.phys
    sw mc led pair perf disp panel touch) sq free) := h
theorem updChannel_canon {ch : Channel} (h : ch.Canon) : Channel.Canon (Channel.mk life clk straps boot ch.win thr seq core proc ch.phys
    sw mc led pair perf disp panel touch) := h
theorem mk_canon {ch : Channel} (h : ch.Canon) : Mach.Canon (Mach.mk c ch sq free) := h
theorem sq_canon {m : Mach} (h : m.Canon) : Mach.Canon (Mach.mk c m.ch sq free) := h
theorem ch_canon {m : Mach} (h : m.Canon) : m.ch.Canon := h
theorem upd_stateCanon {s : State} {pending : List Instr} (h : s.Canon) : State.Canon (State.mk s.chans sq free pending) := h
end

theorem doReset_canon {ch : Channel} {cause : BitVec 6} : (ch.doReset cause).Canon := canon_of_empty rfl rfl rfl


/-! ### Channels, threads, events and records -/

theorem setThr_canon {m : Mach} {t : Fin 8} {th : Thread} (h : m.Canon) : (m.setThr t th).Canon := upd_canon h
theorem setCore_canon {m : Mach} {k : Fin 2} {co : Core} (h : m.Canon) : (m.setCore k co).Canon := upd_canon h
theorem bump_canon {m : Mach} {n : Nat} (h : m.Canon) : (m.bump n).Canon := upd_canon h
theorem bumpBy_canon {m : Mach} {n k : Nat} (h : m.Canon) : (m.bumpBy n k).Canon := upd_canon h
theorem bumpC_canon {m : Mach} {e : Nat} (h : m.Canon) : (m.bumpC e).Canon := bump_canon h
theorem bumpT_canon {m : Mach} {t : Fin 8} {e : Nat} (h : m.Canon) : (m.bumpT t e).Canon := bump_canon h
theorem bumpTIf_canon {m : Mach} {b : Bool} {t : Fin 8} {e : Nat} (h : m.Canon) : (m.bumpTIf b t e).Canon := ite_canon (bumpT_canon h) h
theorem bumpIf_canon {m : Mach} {b : Bool} {e : Nat} (h : m.Canon) : (m.bumpIf b e).Canon := ite_canon (bumpC_canon h) h
theorem raise_canon {m : Mach} {v : Nat} {addr : Cell} (h : m.Canon) : (m.raise v addr).Canon := upd_canon h
theorem raiseIf_canon {m : Mach} {en : Bool} {v : Nat} {addr : Cell} (h : m.Canon) : (m.raiseIf en v addr).Canon :=
  ite_canon (raise_canon h) h
theorem report_canon {m : Mach} {cls : BitVec 6} {spec flag : Bool} {detail : BitVec 32} (h : m.Canon) :
    (m.report cls spec flag detail).Canon := raiseIf_canon (upd_canon (bumpIf_canon h))

/-! ### The request pool -/

theorem reportCe_canon {m : Mach} {a : Nat} {spec scrub : Bool} (h : m.Canon) : (m.reportCe a spec scrub).Canon :=
  ite_canon (report_canon (upd_canon (bumpC_canon h))) (raiseIf_canon (upd_canon (report_canon (upd_canon (bumpC_canon h)))))
theorem reportUe_canon {m : Mach} {a : Nat} {spec scrub refused : Bool} (h : m.Canon) : (m.reportUe a spec scrub refused).Canon :=
  ite_canon (report_canon (upd_canon (bumpC_canon h))) (raiseIf_canon (report_canon (upd_canon (bumpC_canon h))))
theorem reportLink_canon {m : Mach} {sub : Bool} {kind : BitVec 3} {low : BitVec 28} {spec : Bool} (h : m.Canon) :
    (m.reportLink sub kind low spec).Canon := report_canon (upd_canon h)
theorem reportErrs_canon {m : Mach} {line : Nat} {spec scrub : Bool} {xs : List (Fin 16 × BitVec 2)} (h : m.Canon) :
    (m.reportErrs line spec scrub xs).Canon := by
  induction xs generalizing m with
  | nil => exact h
  | cons x r ih => exact ih (ite_canon (reportCe_canon h) (reportUe_canon h))
theorem rewriteCells_canon {m : Mach} {line : Nat} {xs : List (Fin 16)} (h : m.Canon) : (m.rewriteCells line xs).Canon := by
  induction xs generalizing m with
  | nil => exact h
  | cons x r ih => exact ih (ite_canon (putMem_canon h) h)
theorem finish_canon {m : Mach} {r : PoolReq} {strobeMissing again : Bool} (h : m.Canon) : (m.finish r strobeMissing again).Canon :=
  ite_canon (rewriteCells_canon (ite_canon (upd_canon h) h))
    (ite_canon (ite_canon
    (ite_canon (upd_canon (bumpBy_canon (reportLink_canon (ite_canon (upd_canon h) h))))
    (raiseIf_canon (upd_canon (bumpBy_canon (reportLink_canon (ite_canon (upd_canon h) h))))))
    (reportErrs_canon (reportLink_canon (ite_canon (upd_canon h) h)))) (reportErrs_canon (ite_canon (upd_canon h) h)))
theorem arriveBank_canon {m : Mach} {line : Nat} (h : m.Canon) : (m.arriveBank line).Canon := upd_canon h
theorem unwrite_canon {m : Mach} {xs : List (Nat × BitVec 40)} (h : m.Canon) : (m.unwrite xs).Canon := by
  induction xs generalizing m with
  | nil => exact h
  | cons x r ih => exact ih (putMem_canon h)
theorem finishAll_canon {m : Mach} {xs : List PoolReq} (h : m.Canon) : (m.finishAll xs).Canon := by
  induction xs generalizing m with
  | nil => exact h
  | cons x r ih => exact ih (finish_canon h)
theorem takeBack_canon {m : Mach} {xs : List PoolReq} (h : m.Canon) : (m.takeBack xs).Canon := by
  induction xs generalizing m with
  | nil => exact h
  | cons x r ih => exact ih (unwrite_canon h)
theorem quench_canon {m : Mach} (h : m.Canon) : m.quench.Canon := upd_canon (takeBack_canon (finishAll_canon h))
theorem mergeCells_canon {m : Mach} {line : Nat} {cells : NMap (Cell × Bool)} {xs : List (Fin 16)} (h : m.Canon) :
    (m.mergeCells line cells xs).Canon := by
  induction xs generalizing m with
  | nil => exact h
  | cons x r ih =>
    unfold Mach.mergeCells
    dsimp only
    refine ih ?_
    split
    · exact putMem_canon h
    · exact putMem_canon h
    · exact ite_canon (putMem_canon h) h

/-! ### The scheduler of the memory controller -/

theorem setSub_canon {m : Mach} {sub : Bool} {v : SubCh} (h : m.Canon) : (m.setSub sub v).Canon := upd_canon h
theorem activate_canon {m : Mach} {sub : Bool} {b : Nat} {row : BitVec 16} (h : m.Canon) : (m.activate sub b row).Canon :=
  ite_canon (upd_canon (bumpC_canon (setSub_canon (ite_snd_canon (sq_canon (setSub_canon h)) (setSub_canon h)))))
    (setSub_canon (ite_snd_canon (sq_canon (setSub_canon h)) (setSub_canon h)))
theorem column_canon {m : Mach} {sub : Bool} {e : McCand} (h : m.Canon) : (m.column sub e).Canon := setSub_canon (upd_canon h)
theorem issueFor_canon {m : Mach} {sub : Bool} {e : McCand} (h : m.Canon) : (m.issueFor sub e).Canon := by
  unfold Mach.issueFor
  dsimp only
  refine ite_canon (column_canon h) ?_
  split
  · exact activate_canon h
  · exact setSub_canon h
theorem mcClock_canon {m : Mach} {sub : Bool} (h : m.Canon) : (m.mcClock sub).Canon := setSub_canon (upd_canon h)
theorem doRefresh_canon {m : Mach} {sub : Bool} (h : m.Canon) : (m.doRefresh sub).Canon := bumpC_canon (setSub_canon h)
theorem commandIssue_canon {m : Mach} {sub : Bool} (h : m.Canon) : (m.commandIssue sub).Canon := by
  unfold Mach.commandIssue
  dsimp only
  refine ite_canon h
    (ite_canon (mcClock_canon h) (ite_canon (setSub_canon (doRefresh_canon (mcClock_canon h))) (ite_canon (mcClock_canon h) ?_)))
  split
  · exact issueFor_canon (mcClock_canon h)
  · exact mcClock_canon h
theorem admitQueued_canon {m : Mach} {n : Nat} (h : m.Canon) : (m.admitQueued n).Canon := by
  induction n generalizing m with
  | zero => exact h
  | succ n ih =>
    unfold Mach.admitQueued
    dsimp only
    split
    · exact h
    · exact ite_canon (ih (upd_canon (arriveBank_canon h))) h
theorem complete_canon {m : Mach} {r : PoolReq} {strobeMissing again : Bool} (h : m.Canon) : (m.complete r strobeMissing again).Canon :=
  admitQueued_canon (ite_canon (upd_canon (finish_canon h)) (finish_canon h))
theorem takeIssued_canon {m m' : Mach} {sub : Bool} {r : PoolReq} (h : m.Canon) (e : m.takeIssued sub = some (r, m')) : m'.Canon := by
  unfold Mach.takeIssued at e
  split at e
  · cases e
    exact upd_canon h
  · nomatch e
theorem requestComplete_canon {m : Mach} {sub strobeMissing again : Bool} (h : m.Canon) :
    (m.requestComplete sub strobeMissing again).Canon := by
  unfold Mach.requestComplete
  refine ite_canon h ?_
  split
  · exact h
  next e =>
    have hm := takeIssued_canon h e
    exact ite_canon (complete_canon hm) (setSub_canon (complete_canon hm))
theorem memoryClock_canon {m : Mach} (h : m.Canon) : m.memoryClock.Canon :=
  requestComplete_canon (requestComplete_canon (commandIssue_canon (commandIssue_canon h)))
theorem awaitEntry_canon {m : Mach} {src : ReqSrc} {n : Nat} (h : m.Canon) : (m.awaitEntry src n).Canon := by
  induction n generalizing m with
  | zero => exact h
  | succ n ih => exact ite_canon h (ih (memoryClock_canon h))
theorem poolAdd_canon {m : Mach} {r : PoolReq} (h : m.Canon) : (m.poolAdd r).Canon := by
  unfold Mach.poolAdd
  dsimp only
  refine upd_canon (arriveBank_canon (ite_canon (ite_canon h (awaitEntry_canon (upd_canon h))) ?_))
  split
  · exact finish_canon (upd_canon (ite_canon h (awaitEntry_canon (upd_canon h))))
  · exact ite_canon h (awaitEntry_canon (upd_canon h))
theorem poolQueue_canon {m : Mach} {r : PoolReq} (h : m.Canon) : (m.poolQueue r).Canon := admitQueued_canon (upd_canon h)

/-! ### Lines and near-store cells -/

theorem lineRead_canon {m : Mach} {line : Nat} {src : ReqSrc} {kind : ReqKind} {hint : BitVec 2} {spec : Bool} (h : m.Canon) :
    (m.lineRead line src kind hint spec).2.Canon := poolAdd_canon h
theorem lineWrite_canon {m : Mach} {line : Nat} {cells : NMap (Cell × Bool)} {hint : BitVec 2} (h : m.Canon) :
    (m.lineWrite line cells hint).Canon := poolAdd_canon (mergeCells_canon h)
theorem turn_canon {m : Mach} {ag : Agent} {line : Nat} (h : m.Canon) : (m.turn ag line).Canon := by
  unfold Mach.turn
  dsimp only
  split
  · exact mk_canon (updChannel_canon (updChannel_canon (ch_canon h)))
  · exact mk_canon (updChannel_canon (updChannel_canon (ch_canon h)))
  · exact upd_canon h
theorem turnRead_canon {m : Mach} {ag : Agent} {line : Nat} {hint : BitVec 2} {spec : Bool} (h : m.Canon) :
    (m.turnRead ag line hint spec).2.Canon := lineRead_canon (turn_canon h)
theorem turnWrite_canon {m : Mach} {ag : Agent} {line : Nat} {cells : NMap (Cell × Bool)} (h : m.Canon) :
    (m.turnWrite ag line cells).Canon := lineWrite_canon (turn_canon h)
theorem nearError_canon {m : Mach} {o : Nat} {unc : Bool} (h : m.Canon) : (m.nearError o unc).Canon :=
  raiseIf_canon (report_canon (mk_canon (winPut_canon (ch_canon h))))
theorem nearFetch_canon {m : Mach} {o : Nat} (h : m.Canon) : (m.nearFetch o).2.Canon := by
  unfold Mach.nearFetch
  dsimp only
  split
  · exact h
  · exact nearError_canon (putNear_canon h)
  · exact nearError_canon h
theorem nearStore_canon {m : Mach} {o : Nat} {v : Cell} {marked : Bool} (h : m.Canon) : (m.nearStore o v marked).Canon :=
  ite_canon (putNear_canon (ite_canon h (nearError_canon h))) (putNear_canon h)

/-! ### Straps -/

theorem putPin_canon {m : Mach} {i : Fin 8} {p : Pin} {cause : BitVec 3} (h : m.Canon) : (m.putPin i p cause).Canon :=
  ite_canon (upd_canon h) (report_canon (upd_canon h))
theorem combination_canon {m : Mach} (h : m.Canon) : m.combination.Canon := ite_canon (putPin_canon h) h
theorem hold_canon {m : Mach} {why : BitVec 32} (h : m.Canon) : (m.hold why).Canon := report_canon (upd_canon h)
theorem startBoot_canon {m : Mach} {paired alone : Bool} (h : m.Canon) : (m.startBoot paired alone).Canon := upd_canon h
theorem decideStart_stateCanon {s : State} {c : Chan} (h : s.Canon) : (s.decideStart c).Canon := by
  unfold State.decideStart
  dsimp only
  refine ite_canonS
    (ite_canonS (setChan_stateCanon h (updChannel_canon (chan_canon h)))
    (ite_canonS (onMach_stateCanon h fun _ hm => hold_canon hm) ?_)) h
  split
  · exact onMach_stateCanon h fun _ hm => startBoot_canon hm
  · exact ite_canonS (onMach_stateCanon h fun _ hm => startBoot_canon hm)
      (ite_canonS h
      (ite_canonS (onMach_stateCanon h fun _ hm => startBoot_canon hm)
      (ite_canonS (onMach_stateCanon h fun _ hm => startBoot_canon hm) (onMach_stateCanon h fun _ hm => hold_canon hm))))
theorem decideBoth_stateCanon {s : State} {c : Chan} (h : s.Canon) : (s.decideBoth c).Canon := by
  unfold State.decideBoth
  dsimp only
  split
  · exact decideStart_stateCanon (decideStart_stateCanon (decideStart_stateCanon h))
  · exact decideStart_stateCanon h
theorem decideAll_stateCanon {s : State} (h : s.Canon) : s.decideAll.Canon :=
  decideStart_stateCanon
    (decideStart_stateCanon (decideStart_stateCanon (decideStart_stateCanon (decideStart_stateCanon (decideStart_stateCanon h)))))
theorem monitorPins_canon {m : Mach} {n : Nat} {xs : List (BitVec 16)} (h : m.Canon) : (m.monitorPins n xs).Canon := by
  induction xs generalizing m n with
  | nil => exact h
  | cons x r ih =>
    unfold Mach.monitorPins
    dsimp only
    split
    · exact ih (ite_canon (upd_canon h) (raiseIf_canon (report_canon (upd_canon h))))
    · exact h
theorem drift_canon {m : Mach} (h : m.Canon) : m.drift.Canon := raiseIf_canon h
theorem drifts_canon {m : Mach} {n : Nat} (h : m.Canon) : (m.drifts n).Canon := by
  induction n generalizing m with
  | zero => exact h
  | succ n ih => exact ih (drift_canon h)
theorem onAll_stateCanon {s : State} {f : Mach → Mach} (h : s.Canon) (hf : ∀ (a : Mach), a.Canon → (f a).Canon) : (s.onAll f).Canon :=
  onMach_stateCanon
    (onMach_stateCanon (onMach_stateCanon (onMach_stateCanon h fun _ hm => hf _ hm) fun _ hm => hf _ hm) fun _ hm => hf _ hm) fun _ hm =>
    hf _ hm
theorem putDriftctl_canon {m : Mach} {v : Payload} (h : m.Canon) : (m.putDriftctl v).Canon :=
  raiseIf_canon (mk_canon (winPut_canon (ch_canon h)))
theorem takePage_canon {m : Mach} {p : Nat} (h : m.Canon) : (m.takePage p).Canon := upd_canon h
theorem programStore_stateCanon {s : State} {c : Chan} {p : Nat} {f : Mach → Mach} (h : s.Canon)
    (hf : ∀ (a : Mach), a.Canon → (f a).Canon) : (s.programStore c p f).Canon :=
  onMach_stateCanon h fun _ hm => ite_canon (hf _ (takePage_canon hm)) hm
theorem program_stateCanon {s : State} {c : Chan} {f : Mach → Mach} (h : s.Canon) (hf : ∀ (a : Mach), a.Canon → (f a).Canon) :
    (s.program c f).Canon := onMach_stateCanon h fun _ hm => ite_canon (hf _ hm) hm

/-! ### Power, reset and timers -/

theorem stopAll_canon {m : Mach} {cond : Cond} (h : m.Canon) : (m.stopAll cond).Canon := upd_canon (quench_canon h)
theorem halt_canon {m : Mach} (h : m.Canon) : m.halt.Canon := stopAll_canon h
theorem reset_canon {m : Mach} {cause : BitVec 6} : (m.reset cause).Canon := mk_canon doReset_canon
theorem enterOff_canon {m : Mach} {why : OffCause} : (m.enterOff why).Canon := canon_of_empty rfl rfl rfl
theorem pwrOff_canon {m : Mach} {key : BitVec 8} (h : m.Canon) : (m.pwrOff key).Canon := ite_canon enterOff_canon h
theorem pinReset_canon {m : Mach} (h : m.Canon) : m.pinReset.Canon := ite_canon h (ite_canon (upd_canon h) (upd_canon reset_canon))
theorem release_canon {m : Mach} (h : m.Canon) : m.release.Canon := ite_canon (upd_canon h) (upd_canon h)
theorem monitorRecord_canon {m : Mach} {rail : BitVec 4} {flag : Bool} {kind : BitVec 4} {reading : BitVec 16} (h : m.Canon) :
    (m.monitorRecord rail flag kind reading).Canon := ite_canon (report_canon (upd_canon h)) h
theorem sense_canon {m : Mach} {rail : Fin 6} {reading : BitVec 16} (h : m.Canon) : (m.sense rail reading).Canon :=
  ite_canon (upd_canon (ite_canon h (upd_canon h))) (ite_canon h (upd_canon h))
theorem supplyWarning_canon {m : Mach} {rail : Fin 6} {reading : BitVec 16} (h : m.Canon) : (m.supplyWarning rail reading).Canon := by
  unfold Mach.supplyWarning
  dsimp only
  split
  · exact sense_canon h
  · exact ite_canon (sense_canon h) (raiseIf_canon (monitorRecord_canon (upd_canon (sense_canon h))))
theorem senseAll_canon {m : Mach} {mon : Vector (BitVec 16) 6} {xs : List (Fin 6)} (h : m.Canon) : (m.senseAll mon xs).Canon := by
  induction xs generalizing m with
  | nil => exact h
  | cons x r ih => exact ih (sense_canon h)
theorem readings_canon {m : Mach} {mon : Vector (BitVec 16) 6} (h : m.Canon) : (m.readings mon).Canon :=
  senseAll_canon (mk_canon (updChannel_canon (updChannel_canon (ch_canon h))))
theorem offReturn_canon {m : Mach} (h : m.Canon) : m.offReturn.Canon := by
  unfold Mach.offReturn
  dsimp only
  split
  · exact ite_canon reset_canon h
  · exact ite_canon reset_canon h
  · exact h
theorem clockFault_canon {m : Mach} {count : BitVec 16} (h : m.Canon) : (m.clockFault count).Canon :=
  ite_canon (halt_canon (monitorRecord_canon h)) h
theorem readTbl_canon {m : Mach} {t : Fin 8} (h : m.Canon) : (m.readTbl t).2.Canon := setThr_canon h
theorem setWakeT_canon {m : Mach} {n : Fin 8} {w : WakeTimer} (h : m.Canon) : (m.setWakeT n w).Canon := upd_canon h
theorem wakeFire_canon {m : Mach} {n : Fin 8} (h : m.Canon) : (m.wakeFire n).Canon :=
  ite_canon (raise_canon (upd_canon (setWakeT_canon h))) h
theorem wakeArm_canon {m : Mach} {n : Fin 8} (h : m.Canon) : (m.wakeArm n).Canon := wakeFire_canon (setWakeT_canon h)
theorem wakeDisarm_canon {m : Mach} {n : Fin 8} (h : m.Canon) : (m.wakeDisarm n).Canon := setWakeT_canon h
theorem setFastT_canon {m : Mach} {n : Fin 8} {f : FastTimer} (h : m.Canon) : (m.setFastT n f).Canon := upd_canon h
theorem fastArm_canon {m : Mach} {n : Fin 8} {pre : BitVec 2} {periodic : Bool} (h : m.Canon) : (m.fastArm n pre periodic).Canon :=
  setFastT_canon h
theorem fastDisarm_canon {m : Mach} {n : Fin 8} {pre : BitVec 2} {periodic : Bool} (h : m.Canon) : (m.fastDisarm n pre periodic).Canon :=
  setFastT_canon (ite_snd_canon (sq_canon h) h)
theorem readCnt_canon {m : Mach} {n : Fin 8} (h : m.Canon) : (m.readCnt n).2.Canon := ite_snd_canon (sq_canon h) h
theorem fastExpiry_canon {m : Mach} {n : Fin 8} (h : m.Canon) : (m.fastExpiry n).Canon := ite_canon (raise_canon (setFastT_canon h)) h
theorem readPwrstat_canon {m : Mach} (h : m.Canon) : m.readPwrstat.2.Canon := upd_canon h
theorem setPower_canon {m : Mach} {p : Power} {n : BitVec 2} (h : m.Canon) : (m.setPower p n).Canon := upd_canon h
theorem wdEarly_canon {m : Mach} (h : m.Canon) : m.wdEarly.Canon := ite_canon (report_canon (raise_canon (upd_canon h))) h

/-! ### Ledger records -/

theorem request_canon {m : Mach} {i : Item} (h : m.Canon) : (m.request i).Canon := upd_canon h
theorem count_canon {m : Mach} {f : Counts → Counts} (h : m.Canon) : (m.count f).Canon := upd_canon h
theorem scanEnd_canon {m : Mach} (h : m.Canon) : m.scanEnd.Canon :=
  ite_canon (count_canon (upd_canon (raiseIf_canon (upd_canon h)))) (upd_canon (raiseIf_canon (upd_canon h)))
theorem pinclr_canon {m : Mach} (h : m.Canon) : m.pinclr.Canon := ite_canon (upd_canon h) h
theorem sendMirror_canon {m : Mach} {r : MirrorRec} (h : m.Canon) : (m.sendMirror r).Canon := ite_canon (upd_canon (bumpC_canon h)) h
theorem bootgood_canon {m : Mach} (h : m.Canon) : m.bootgood.Canon :=
  ite_canon h (ite_canon
    (sendMirror_canon
    (report_canon (ite_canon (request_canon (request_canon (upd_canon h))) (sq_canon (request_canon (request_canon (upd_canon h)))))))
    (report_canon (ite_canon (request_canon (request_canon (upd_canon h))) (sq_canon (request_canon (request_canon (upd_canon h)))))))
theorem wdExpiry_canon {m : Mach} (h : m.Canon) : m.wdExpiry.Canon :=
  ite_canon reset_canon h

/-! ### The touch front end -/

theorem touchRaise_canon {m : Mach} {v : Nat} {addr : Cell} (h : m.Canon) : (m.touchRaise v addr).Canon := raiseIf_canon h
theorem setScan_canon {m : Mach} {b : Bool} (h : m.Canon) : (m.setScan b).Canon := mk_canon (winPut_canon (ch_canon h))
theorem applyCal_canon {m : Mach} {cal : Option (List Byte)} (h : m.Canon) : (m.applyCal cal).Canon := by
  unfold Mach.applyCal
  dsimp only
  split
  · exact upd_canon h
  · exact ite_canon (upd_canon h) (mk_canon (winPut_canon (winPut_canon (winPut_canon (winPut_canon (updChannel_canon (ch_canon h)))))))
theorem latchTouch_canon {m : Mach} (h : m.Canon) : m.latchTouch.Canon := upd_canon h
theorem scanStart_canon {m : Mach} (h : m.Canon) : m.scanStart.Canon := ite_canon h (upd_canon (latchTouch_canon (setScan_canon h)))
theorem scanStop_canon {m : Mach} (h : m.Canon) : m.scanStop.Canon := ite_canon (setScan_canon h) h
theorem baselineReset_canon {m : Mach} (h : m.Canon) : m.baselineReset.Canon := ite_canon (upd_canon h) h
theorem rawArm_canon {m : Mach} (h : m.Canon) : m.rawArm.Canon := ite_canon (mk_canon (winPut_canon (ch_canon h))) h
theorem winFill_canon {ch : Channel} {o : Nat} {xs : List (Nat × Payload)} (h : ch.Canon) : (winFill ch o xs).Canon := by
  induction xs generalizing ch with
  | nil => exact h
  | cons x r ih => exact ih (winPut_canon h)
theorem capture_canon {m : Mach} {g : Img} (h : m.Canon) : (m.capture g).Canon :=
  ite_canon (touchRaise_canon (mk_canon (winPut_canon (winFill_canon (winFill_canon (winFill_canon (ch_canon (sq_canon h)))))))) h
theorem overflow_canon {m : Mach} {n : Nat} (h : m.Canon) : (m.overflow n).Canon := by
  induction n generalizing m with
  | zero => exact h
  | succ n ih => exact ih (touchRaise_canon (upd_canon h))
theorem vtxRatio_canon {m : Mach} (h : m.Canon) : m.vtxRatio.2.Canon := ite_snd_canon h (ite_snd_canon (sq_canon h) h)
theorem touchReport_canon {m : Mach} {nodes electrodes noise : List (BitVec 16)} (h : m.Canon) :
    (m.touchReport nodes electrodes noise).Canon :=
  ite_canon h (latchTouch_canon
    (capture_canon
    (bumpC_canon
    (ite_canon (touchRaise_canon
    (ite_canon (touchRaise_canon
    (ite_canon (touchRaise_canon (overflow_canon (upd_canon (sq_canon (vtxRatio_canon h)))))
    (overflow_canon (upd_canon (sq_canon (vtxRatio_canon h))))))
    (ite_canon (touchRaise_canon (overflow_canon (upd_canon (sq_canon (vtxRatio_canon h)))))
    (overflow_canon (upd_canon (sq_canon (vtxRatio_canon h)))))))
    (ite_canon (touchRaise_canon
    (ite_canon (touchRaise_canon (overflow_canon (upd_canon (sq_canon (vtxRatio_canon h)))))
    (overflow_canon (upd_canon (sq_canon (vtxRatio_canon h))))))
    (ite_canon (touchRaise_canon (overflow_canon (upd_canon (sq_canon (vtxRatio_canon h)))))
    (overflow_canon (upd_canon (sq_canon (vtxRatio_canon h))))))))))
theorem readTrpt_canon {m : Mach} (h : m.Canon) : m.readTrpt.2.Canon := ite_snd_canon (upd_canon h) h
theorem approach_canon {m : Mach} {sum : BitVec 24} (h : m.Canon) : (m.approach sum).Canon :=
  ite_canon h (ite_canon (touchRaise_canon (upd_canon (bumpC_canon h))) (upd_canon (bumpC_canon h)))
theorem vtxFault_canon {m : Mach} (h : m.Canon) : m.vtxFault.Canon := ite_canon h (touchRaise_canon (upd_canon (setScan_canon h)))
theorem vtxRestored_canon {m : Mach} (h : m.Canon) : m.vtxRestored.Canon := ite_canon (touchRaise_canon (upd_canon h)) h
theorem supplyOff_canon {m : Mach} {rail : Fin 6} {reading : BitVec 16} (h : m.Canon) : (m.supplyOff rail reading).Canon := by
  unfold Mach.supplyOff
  dsimp only
  split
  · exact sense_canon h
  · exact ite_canon (sense_canon h) (ite_canon (vtxFault_canon (monitorRecord_canon (sense_canon h))) enterOff_canon)
theorem touchLoad_canon {m : Mach} {o : Nat} (h : m.Canon) : (m.touchLoad o).2.Canon :=
  ite_snd_canon h
    (ite_snd_canon h
    (ite_snd_canon h
    (ite_snd_canon (readTrpt_canon h) (ite_snd_canon h (ite_snd_canon h (ite_snd_canon h (ite_snd_canon h (ite_snd_canon h h))))))))
theorem touchStore_canon {m : Mach} {o : Nat} {v : Payload} (h : m.Canon) : (m.touchStore o v).Canon :=
  ite_canon h (ite_canon
    (ite_canon (scanStart_canon
    (ite_canon (baselineReset_canon (mk_canon (winPut_canon (ch_canon h)))) (mk_canon (winPut_canon (ch_canon h)))))
    (ite_canon (scanStop_canon
    (ite_canon (baselineReset_canon (mk_canon (winPut_canon (ch_canon h)))) (mk_canon (winPut_canon (ch_canon h)))))
    (ite_canon (baselineReset_canon (mk_canon (winPut_canon (ch_canon h)))) (mk_canon (winPut_canon (ch_canon h))))))
    (ite_canon (mk_canon (winPut_canon (ch_canon h)))
    (ite_canon (mk_canon (winPut_canon (ch_canon h)))
    (ite_canon (mk_canon (winPut_canon (ch_canon h)))
    (ite_canon (mk_canon (winPut_canon (ch_canon h)))
    (ite_canon (mk_canon (winPut_canon (ch_canon h)))
    (ite_canon (mk_canon (winPut_canon (ch_canon (ite_canon (upd_canon h) h))))
    (ite_canon (ite_canon (rawArm_canon h) (mk_canon (winPut_canon (ch_canon h)))) h))))))))

/-! ### Boot -/

theorem loadCells_canon {m : Mach} {a : Nat} {vs : List Cell} (h : m.Canon) : (m.loadCells a vs).Canon := putRun_canon h
theorem loadSections_canon {m : Mach} {img : List Byte} {load : Bool} {n : Nat} {xs : List Sect} (h : m.Canon) :
    (m.loadSections img load n xs).2.Canon := by
  induction xs generalizing m n with
  | nil => exact h
  | cons x r ih => exact ite_snd_canon (ite_canon (loadCells_canon h) h) (ih (ite_canon (loadCells_canon h) h))
theorem bootRecord_canon {m : Mach} {d : BitVec 32} (h : m.Canon) : (m.bootRecord d).Canon :=
  ite_canon (report_canon (upd_canon h)) (upd_canon h)
theorem bootFlush_canon {m : Mach} {xs : List (BitVec 32)} (h : m.Canon) : (m.bootFlush xs).Canon := by
  induction xs generalizing m with
  | nil => exact h
  | cons x r ih => exact ih (report_canon h)
theorem roundFailed_canon {m : Mach} (h : m.Canon) : m.roundFailed.Canon := upd_canon (ite_canon (bootFlush_canon h) h)
theorem slotFailed_canon {m : Mach} {result : BitVec 3} {sect : Nat} (h : m.Canon) : (m.slotFailed result sect).Canon := by
  unfold Mach.slotFailed
  dsimp only
  split
  · exact roundFailed_canon (bootRecord_canon h)
  · exact upd_canon (bootRecord_canon h)
theorem noFlash_canon {m : Mach} (h : m.Canon) : m.noFlash.Canon := roundFailed_canon (bootRecord_canon (bootRecord_canon h))
theorem discover_canon {m : Mach} {found : Bool} {density : BitVec 16} {modes : BitVec 6} (h : m.Canon) :
    (m.discover found density modes).Canon := by
  unfold Mach.discover
  dsimp only
  refine ite_canon ?_ h
  split
  · exact ite_canon (mk_canon (updChannel_canon (updChannel_canon (ch_canon h)))) (noFlash_canon (upd_canon h))
  · exact noFlash_canon (upd_canon h)
theorem headerTimeout_canon {m : Mach} (h : m.Canon) : m.headerTimeout.Canon :=
  ite_canon (roundFailed_canon (upd_canon (bootRecord_canon (ite_snd_canon (sq_canon h) h))))
    (upd_canon (bootRecord_canon (ite_snd_canon (sq_canon h) h)))
theorem flashTimeout_canon {m : Mach} (h : m.Canon) : m.flashTimeout.Canon := by
  unfold Mach.flashTimeout
  refine ite_canon ?_ h
  split
  · exact noFlash_canon h
  · exact ite_canon (headerTimeout_canon h) h
  · exact slotFailed_canon h
  · exact h
theorem attempt_canon {m : Mach} {h0 h1 : List Byte} (h : m.Canon) : (m.attempt h0 h1).Canon := by
  unfold Mach.attempt
  dsimp only
  refine ite_canon ?_ h
  split
  · exact h
  · exact bootRecord_canon (request_canon (upd_canon h))
theorem slotPassed_canon {m : Mach} {img : List Byte} (h : m.Canon) : (m.slotPassed img).Canon :=
  ite_canon (report_canon (upd_canon (ite_canon (bootFlush_canon h) h))) (upd_canon (ite_canon (bootFlush_canon h) h))
theorem slotLoad_canon {m : Mach} {join : Bool} {img : List Byte} (h : m.Canon) : (m.slotLoad join img).Canon := by
  unfold Mach.slotLoad
  refine ite_canon (ite_canon (slotFailed_canon h) ?_) h
  split
  · exact slotFailed_canon (snd_canon ‹_› (loadSections_canon h))
  · have hm := snd_canon ‹_› (loadSections_canon h)
    exact ite_canon (slotFailed_canon hm) (ite_canon (slotFailed_canon hm) (slotPassed_canon hm))
theorem setPort_canon {m : Mach} {p : Port} (h : m.Canon) : (m.setPort p).Canon := sq_canon h
theorem applyImage_canon {m : Mach} {i : Image} {setup : Bool} (h : m.Canon) : (m.applyImage i setup).Canon :=
  applyCal_canon (ite_canon (setPort_canon (upd_canon h)) (upd_canon h))
theorem takeRole_canon {m : Mach} {r : Role} {epoch : BitVec 24} (h : m.Canon) : (m.takeRole r epoch).Canon :=
  report_canon (request_canon (upd_canon h))
theorem goAlone_canon {m : Mach} (h : m.Canon) : m.goAlone.Canon := upd_canon h
theorem form_stateCanon {s : State} {c p : Chan} (h : s.Canon) : (s.form c p).Canon :=
  ite_canonS (onMach_stateCanon (onMach_stateCanon h fun _ hm => takeRole_canon hm) fun _ hm => takeRole_canon hm)
    (onMach_stateCanon (onMach_stateCanon h fun _ hm => goAlone_canon hm) fun _ hm => hold_canon hm)
theorem imageApply_canon {m : Mach} (h : m.Canon) : m.imageApply.Canon := by
  unfold Mach.imageApply
  dsimp only
  split
  · exact h
  · exact ite_canon (mk_canon (updChannel_canon (updChannel_canon (ch_canon (applyImage_canon h))))) (upd_canon (applyImage_canon h))
theorem imageApply_stateCanon {s : State} {c : Chan} (h : s.Canon) : (s.imageApply c).Canon := by
  unfold State.imageApply
  dsimp only
  refine ite_canonS h ?_
  split
  · exact onMach_stateCanon h fun _ hm => ite_canon (imageApply_canon hm) hm
  · exact ite_canonS (onMach_stateCanon h fun _ hm => ite_canon (imageApply_canon hm) hm)
      (ite_canonS (ite_canonS (onMach_stateCanon h fun _ hm => upd_canon (applyImage_canon hm))
      (onMach_stateCanon h fun _ hm => hold_canon hm))
      (ite_canonS (onMach_stateCanon (onMach_stateCanon h fun _ hm => goAlone_canon hm) fun _ hm => ite_canon (imageApply_canon hm) hm)
      (ite_canonS (onMach_stateCanon (form_stateCanon h) fun _ hm => ite_canon (imageApply_canon hm) hm) h)))
theorem firstInstruction_canon {m : Mach} (h : m.Canon) : m.firstInstruction.Canon := by
  unfold Mach.firstInstruction
  dsimp only
  split
  · exact h
  · exact ite_canon (setPort_canon (upd_canon h)) h

/-! ### The display -/

theorem dispRaise_canon {m : Mach} {v : Nat} {addr : Cell} (h : m.Canon) : (m.dispRaise v addr).Canon := raiseIf_canon h
theorem psrExit_canon {m : Mach} (h : m.Canon) : m.psrExit.Canon := ite_canon (dispRaise_canon (upd_canon h)) h
theorem dispChange_canon {m : Mach} (h : m.Canon) : m.dispChange.Canon := upd_canon (psrExit_canon h)
theorem scanOff_canon {m : Mach} (h : m.Canon) : m.scanOff.Canon := upd_canon h
theorem psrEntry_canon {m : Mach} (h : m.Canon) : m.psrEntry.Canon :=
  ite_canon (dispRaise_canon (upd_canon (scanOff_canon (bumpC_canon h)))) h
theorem linkStart_canon {m : Mach} {rate lanes : BitVec 2} (h : m.Canon) : (m.linkStart rate lanes).Canon :=
  ite_canon (upd_canon (mk_canon (winPut_canon (ch_canon (scanOff_canon h))))) h
theorem linkDone_canon {m : Mach} {result : BitVec 3} {lanes rate : BitVec 2} (h : m.Canon) : (m.linkDone result lanes rate).Canon := by
  unfold Mach.linkDone
  dsimp only
  split
  · exact h
  · exact dispRaise_canon (upd_canon h)
theorem auxStart_canon {m : Mach} {op : BitVec 2} {mot : Bool} {len : BitVec 4} (h : m.Canon) : (m.auxStart op mot len).Canon :=
  ite_canon (mk_canon (updChannel_canon (winPut_canon (ch_canon h)))) h
theorem putBytes3_canon {ch : Channel} {o : Nat} {xs : List Payload} (h : ch.Canon) : (putBytes3 ch o xs).Canon := by
  induction xs generalizing ch o with
  | nil => exact h
  | cons x r ih => exact ih (winPut_canon h)
theorem auxDone_canon {m : Mach} {result : BitVec 2} {reply : List Byte} (h : m.Canon) : (m.auxDone result reply).Canon := by
  unfold Mach.auxDone
  dsimp only
  split
  · exact h
  · exact dispRaise_canon (upd_canon (ite_canon (mk_canon (putBytes3_canon (ch_canon h))) h))
theorem hpdEvent_canon {m : Mach} {kind : BitVec 2} (h : m.Canon) : (m.hpdEvent kind).Canon :=
  ite_canon h (dispRaise_canon
    (ite_canon (ite_canon (upd_canon (scanOff_canon h)) (ite_canon (upd_canon h) h))
    (psrExit_canon (ite_canon (upd_canon (scanOff_canon h)) (ite_canon (upd_canon h) h)))))
theorem scanRead_canon {m : Mach} {q : ScanPos} (h : m.Canon) : (m.scanRead q).Canon :=
  ite_canon (upd_canon h) (mk_canon (updChannel_canon (winPut_canon (ch_canon (lineRead_canon (bumpC_canon (upd_canon h)))))))
theorem scanOut_canon {m : Mach} (h : m.Canon) : m.scanOut.Canon := by
  unfold Mach.scanOut
  refine ite_canon ?_ h
  split
  · exact h
  · exact ite_canon (scanRead_canon h) h
theorem scanRest_canon {m : Mach} {n : Nat} (h : m.Canon) : (m.scanRest n).Canon := by
  induction n generalizing m with
  | zero => exact scanOff_canon h
  | succ n ih =>
    unfold Mach.scanRest
    split
    · exact scanOff_canon h
    · exact ih (scanRead_canon h)
theorem verticalStart_canon {m : Mach} (h : m.Canon) : m.verticalStart.Canon :=
  ite_canon (dispRaise_canon (upd_canon (bumpC_canon (scanRest_canon h)))) h
theorem underrun_canon {m : Mach} {planes : BitVec 4} (h : m.Canon) : (m.underrun planes).Canon :=
  ite_canon (dispRaise_canon (mk_canon (winPut_canon (ch_canon (bumpC_canon h))))) h
theorem dispRead_canon {m : Mach} {o : Nat} (h : m.Canon) : (m.dispRead o).2.Canon := ite_snd_canon (sq_canon h) h
theorem planeStore_canon {m : Mach} {o : Nat} {v : Payload} (h : m.Canon) : (m.planeStore o v).Canon :=
  dispChange_canon (mk_canon (updChannel_canon (winPut_canon (ch_canon h))))
theorem dispStore_canon {m : Mach} {o : Nat} {v : Payload} (h : m.Canon) : (m.dispStore o v).Canon :=
  ite_canon h (ite_canon (dispChange_canon (mk_canon (winPut_canon (ch_canon (ite_canon h (scanOff_canon h))))))
    (ite_canon (ite_canon (linkStart_canon h) (mk_canon (winPut_canon (ch_canon h))))
    (ite_canon (dispChange_canon (mk_canon (winPut_canon (ch_canon h))))
    (ite_canon (dispChange_canon (mk_canon (winPut_canon (ch_canon h))))
    (ite_canon (mk_canon (winPut_canon (ch_canon h)))
    (ite_canon (mk_canon (winPut_canon (ch_canon (ite_canon h (psrExit_canon h)))))
    (ite_canon (mk_canon (winPut_canon (ch_canon h)))
    (ite_canon (planeStore_canon h)
    (ite_canon (mk_canon (winPut_canon (ch_canon h)))
    (ite_canon (ite_canon (auxStart_canon h) (mk_canon (winPut_canon (ch_canon h))))
    (ite_canon (mk_canon (winPut_canon (ch_canon h))) (ite_canon (dispChange_canon (mk_canon (winPut_canon (ch_canon h)))) h))))))))))))

/-! ### Panel units -/

theorem ntcMeasured_canon {m : Mach} {code : BitVec 10} (h : m.Canon) : (m.ntcMeasured code).Canon :=
  ite_canon h (ite_canon (raiseIf_canon (ite_canon (raiseIf_canon (upd_canon h)) (upd_canon h)))
    (ite_canon (raiseIf_canon (upd_canon h)) (upd_canon h)))
theorem alsPoll_canon {m : Mach} {ok : Bool} {value : BitVec 16} (h : m.Canon) : (m.alsPoll ok value).Canon :=
  ite_canon (ite_canon (raiseIf_canon (mk_canon (winPut_canon (ch_canon h)))) (mk_canon (winPut_canon (ch_canon h)))) h
theorem keyEvent_canon {m : Mach} {press : Bool} {k : Fin 64} (h : m.Canon) : (m.keyEvent press k).Canon :=
  ite_canon (ite_canon (raiseIf_canon (upd_canon h)) (upd_canon h)) (raiseIf_canon h)
theorem scanKeys_canon {m : Mach} {pressed : BitVec 64} {n n' : Nat} (h : m.Canon) : (m.scanKeys pressed n n').Canon := by
  induction n' generalizing m n with
  | zero => exact h
  | succ n ih =>
    exact ih (ite_canon h (ite_canon (upd_canon h) (ite_canon (keyEvent_canon (upd_canon h)) (upd_canon h))))
theorem readKevt_canon {m : Mach} (h : m.Canon) : m.readKevt.2.Canon := by
  unfold Mach.readKevt
  dsimp only
  split
  · exact h
  · exact upd_canon h
theorem encoderMove_canon {m : Mach} {e : Fin 4} {a b : Bool} (h : m.Canon) : (m.encoderMove e a b).Canon :=
  ite_canon h (ite_canon (upd_canon h) (raiseIf_canon (upd_canon h)))
theorem gpioEdge_canon {m : Mach} {pin : Fin 8} {level : Bool} (h : m.Canon) : (m.gpioEdge pin level).Canon :=
  ite_canon h (raiseIf_canon (upd_canon h))
theorem buzzerStart_canon {m : Mach} {k : Fin 2} {duty : BitVec 8} (h : m.Canon) : (m.buzzerStart k duty).Canon :=
  mk_canon (updChannel_canon (winPut_canon (ch_canon h)))
theorem buzzerStop_canon {m : Mach} {k : Fin 2} (h : m.Canon) : (m.buzzerStop k).Canon := upd_canon h
theorem i2cStart_canon {m : Mach} {addr : BitVec 7} {wlen rlen : BitVec 4} (h : m.Canon) : (m.i2cStart addr wlen rlen).Canon :=
  ite_canon (mk_canon (updChannel_canon (winPut_canon (ch_canon h)))) h
theorem i2cDone_canon {m : Mach} {result : BitVec 3} {reply : List Byte} (h : m.Canon) : (m.i2cDone result reply).Canon := by
  unfold Mach.i2cDone
  dsimp only
  split
  · exact h
  · exact raiseIf_canon (upd_canon (ite_canon (mk_canon (putBytes3_canon (ch_canon h))) h))
theorem panelLoad_canon {m : Mach} {o : Nat} (h : m.Canon) : (m.panelLoad o).2.Canon := by
  unfold Mach.panelLoad
  dsimp only
  refine ite_snd_canon h (ite_snd_canon h (ite_snd_canon (readKevt_canon h) (ite_snd_canon h ?_)))
  split
  · exact h
  · exact ite_snd_canon h (ite_snd_canon h (ite_snd_canon h h))
theorem panelStore_canon {m : Mach} {o : Nat} {v : Payload} (h : m.Canon) : (m.panelStore o v).Canon :=
  ite_canon (ite_canon (buzzerStart_canon h) (buzzerStop_canon (mk_canon (winPut_canon (ch_canon h)))))
    (ite_canon (ite_canon (i2cStart_canon h) (ite_canon h (mk_canon (winPut_canon (ch_canon h)))))
    (ite_canon h (mk_canon (winPut_canon (ch_canon h)))))

/-! ### The memory controller -/

theorem trainDone_canon {m : Mach} {rfmA rfmB : Bool} (h : m.Canon) : (m.trainDone rfmA rfmB).Canon := upd_canon h
theorem fullTraining_canon {m : Mach} {sub : Bool} {failStep : BitVec 4} {temp : BitVec 8} {rfmA rfmB : Bool} (h : m.Canon) :
    (m.fullTraining sub failStep temp rfmA rfmB).Canon :=
  ite_canon h (ite_canon (request_canon (trainDone_canon (upd_canon (forget_canon h)))) (upd_canon (ite_canon h (reportLink_canon h))))
theorem restoreVerify_canon {m : Mach} {pass : Bool} {line : BitVec 32} {rfmA rfmB : Bool} (h : m.Canon) :
    (m.restoreVerify pass line rfmA rfmB).Canon :=
  ite_canon h (ite_canon (upd_canon (trainDone_canon h)) (upd_canon (reportLink_canon h)))
theorem windowEnd_canon {m : Mach} {sub : Bool} (h : m.Canon) : (m.windowEnd sub).Canon := ite_canon h (setSub_canon h)
theorem rowIdleClose_canon {m : Mach} {sub : Bool} {bank : Fin 32} (h : m.Canon) : (m.rowIdleClose sub bank).Canon :=
  ite_canon (setSub_canon h) h
theorem refresh_canon {m : Mach} {sub : Bool} (h : m.Canon) : (m.refresh sub).Canon :=
  ite_canon h (ite_canon (setSub_canon h) (doRefresh_canon h))
theorem slice_canon {m : Mach} {sub ok : Bool} (h : m.Canon) : (m.slice sub ok).Canon :=
  ite_canon h (ite_canon (bumpC_canon (setSub_canon h)) (reportLink_canon (bumpC_canon (setSub_canon h))))
theorem heat_canon {m : Mach} {sub : Bool} {t : BitVec 8} (h : m.Canon) : (m.heat sub t).Canon := ite_canon h (setSub_canon h)
theorem scrubOne_canon {m : Mach} {sub : Bool} (h : m.Canon) : (m.scrubOne sub).Canon :=
  ite_canon h (bumpC_canon (poolQueue_canon (ite_canon (upd_canon (setSub_canon h)) (setSub_canon h))))
theorem poisonLine_canon {m : Mach} {line : Nat} {xs : List (Fin 16)} (h : m.Canon) : (m.poisonLine line xs).Canon := by
  induction xs generalizing m with
  | nil => exact h
  | cons x r ih => exact ih (putMem_canon h)
theorem reissue_canon {m : Mach} {sub : Bool} {xs : List OpenWrite} (h : m.Canon) : (m.reissue sub xs).2.Canon := by
  induction xs generalizing m with
  | nil => exact h
  | cons x r ih =>
    exact ite_snd_canon (ih (raiseIf_canon (reportLink_canon (poisonLine_canon h)))) (ih (bumpC_canon h))
theorem crcAlert_canon {m : Mach} {sub : Bool} (h : m.Canon) : (m.crcAlert sub).Canon := ite_canon h (setSub_canon (reissue_canon h))
theorem stuckAlert_canon {m : Mach} {sub : Bool} (h : m.Canon) : (m.stuckAlert sub).Canon :=
  ite_canon h (reportLink_canon (setSub_canon h))
theorem panicOn_canon {m : Mach} (h : m.Canon) : m.panicOn.Canon := ite_canon (upd_canon h) h
theorem panicLimit_canon {m : Mach} (h : m.Canon) : m.panicLimit.Canon := ite_canon (upd_canon h) h
theorem readPeak_canon {m : Mach} (h : m.Canon) : m.readPeak.2.Canon := upd_canon h
theorem mcLoad_canon {m : Mach} {o : Nat} (h : m.Canon) : (m.mcLoad o).2.Canon := by
  unfold Mach.mcLoad
  dsimp only
  split
  · exact h
  · exact h
  · exact readPeak_canon h
  · exact h
  · exact h
  · exact h
  · exact h
  · exact h
  · exact h
  · exact h
  · exact h
  · exact h
  · exact h
  · exact h
  · exact h
  · exact h
  · exact h
  · exact h
theorem mcStore_canon {m : Mach} {o : Nat} {p : Payload} (h : m.Canon) : (m.mcStore o p).Canon :=
  ite_canon (mk_canon (winPut_canon (ch_canon h))) h

/-! ### The host port -/

theorem portRaise_canon {m : Mach} {v : Nat} {addr : Cell} (h : m.Canon) : (m.portRaise v addr).Canon := raiseIf_canon h
theorem portRaiseAll_stateCanon {s : State} {v : Nat} {addr : Cell} (h : s.Canon) : (s.portRaiseAll v addr).Canon :=
  onAll_stateCanon h fun _ hm => ite_canon (portRaise_canon hm) hm
theorem txpush_canon {m : Mach} {s : Fin 8} (h : m.Canon) : (m.txpush s).2.Canon :=
  ite_snd_canon h (ite_snd_canon h (ite_snd_canon h (ite_snd_canon h (ite_snd_canon (setPort_canon h) (bumpC_canon (setPort_canon h))))))
theorem enterRing_canon {m : Mach} {v : RxFrame} (h : m.Canon) : (m.enterRing v).Canon := bumpC_canon (raise_canon (setPort_canon h))
theorem feed_canon {m : Mach} {n : Nat} (h : m.Canon) : (m.feed n).Canon := by
  induction n generalizing m with
  | zero => exact h
  | succ n ih =>
    unfold Mach.feed
    dsimp only
    split
    · exact h
    · exact ite_canon h
        (ite_canon (setPort_canon (portRaise_canon (enterRing_canon (setPort_canon h)))) (ih (enterRing_canon (setPort_canon h))))
theorem accept_canon {m : Mach} {f : HostFrame} {k : Nat} (h : m.Canon) : (m.accept f k).Canon :=
  ite_canon (setPort_canon h)
    (ite_canon (bumpC_canon (portRaise_canon (setPort_canon h)))
    (enterRing_canon (ite_canon h (ite_canon (setPort_canon h) (setPort_canon h)))))
theorem offer_stateCanon {s : State} {f : HostFrame} {c : Chan} (h : s.Canon) : (s.offer f c).Canon := by
  unfold State.offer
  refine onMach_stateCanon h fun m hm => ?_
  split
  · exact accept_canon hm
  · exact hm
theorem offerAll_stateCanon {s : State} {f : HostFrame} {xs : List Chan} (h : s.Canon) : (s.offerAll f xs).Canon := by
  induction xs generalizing s with
  | nil => exact h
  | cons x r ih => exact ih (offer_stateCanon h)
theorem rxpop_canon {m : Mach} (h : m.Canon) : m.rxpop.2.Canon := by
  unfold Mach.rxpop
  dsimp only
  split
  · exact h
  · exact feed_canon (setPort_canon h)
theorem receive_stateCanon {s : State} {f : HostFrame} {outcome : BitVec 2} (h : s.Canon) : (s.receive f outcome).Canon :=
  ite_canonS h
    (ite_canonS (ite_canonS h
    (ite_canonS (upd_stateCanon h) (ite_canonS (upd_stateCanon h) (ite_canonS (offerAll_stateCanon h) (upd_stateCanon h)))))
    (ite_canonS h
    (ite_canonS (upd_stateCanon h)
    (ite_canonS h
    (ite_canonS (upd_stateCanon (upd_stateCanon h))
    (ite_canonS (offerAll_stateCanon (upd_stateCanon h)) (upd_stateCanon (upd_stateCanon h))))))))
theorem setCan_stateCanon {s : State} {b : Fin 2} {k : Can} (h : s.Canon) : (s.setCan b k).Canon :=
  ite_canonS (upd_stateCanon h) (portRaiseAll_stateCanon (upd_stateCanon h))
theorem freed_canon {m : Mach} {p : Port} (h : m.Canon) : (m.freed p).Canon := raiseIf_canon (setPort_canon h)
theorem sent_stateCanon {s : State} {c : Chan} {f : HostFrame} {p : Port} (h : s.Canon) : (s.sent c f p).Canon :=
  offerAll_stateCanon (onMach_stateCanon h fun _ hm => bumpC_canon (freed_canon hm))
theorem transmit_stateCanon {s : State} {i : Fin 3} {outcome : BitVec 2} (h : s.Canon) : (s.transmit i outcome).Canon := by
  unfold State.transmit
  dsimp only
  refine ite_canonS h ?_
  split
  · exact h
  · exact ite_canonS (onMach_stateCanon (upd_stateCanon (upd_stateCanon h)) fun _ hm => freed_canon hm)
      (ite_canonS (ite_canonS (sent_stateCanon (upd_stateCanon h))
      (ite_canonS (upd_stateCanon (upd_stateCanon h))
      (onMach_stateCanon (upd_stateCanon (upd_stateCanon h)) fun _ hm => raiseIf_canon (freed_canon hm))))
      (ite_canonS (sent_stateCanon (setCan_stateCanon (upd_stateCanon h)))
      (ite_canonS (upd_stateCanon h)
      (ite_canonS (onMach_stateCanon (setCan_stateCanon (upd_stateCanon h)) fun _ hm => raiseIf_canon hm)
      (setCan_stateCanon (upd_stateCanon h))))))
theorem lastGasp_canon {m : Mach} (h : m.Canon) : m.lastGasp.Canon := ite_canon (setPort_canon h) h
theorem squareFail_stateCanon {s : State} {kind : BitVec 4} {rail : Bool} {reading : BitVec 16} (h : s.Canon) :
    (s.squareFail kind rail reading).Canon := ite_canonS h (onAll_stateCanon (upd_stateCanon h) fun _ hm => ite_canon (raise_canon hm) hm)
theorem portLoad_canon {m : Mach} {o : Nat} (h : m.Canon) : (m.portLoad o).2.Canon := by
  unfold Mach.portLoad
  refine ite_snd_canon ?_ (ite_snd_canon ?_ (ite_snd_canon (ite_snd_canon h h) h))
  · generalize o - 0x20000 = k
    split
    case h_7 => exact rxpop_canon h
    case h_16 =>
      split
      · exact txpush_canon h
      · exact h
    all_goals exact h
  · generalize o - 0x20400 = j
    split
    · exact h
    · exact sq_canon h
theorem portStore_canon {m : Mach} {o : Nat} {v : Payload} (h : m.Canon) : (m.portStore o v).Canon :=
  ite_canon (mk_canon (winPut_canon (ch_canon h)))
    (ite_canon (setPort_canon h) (ite_canon (setPort_canon h) (ite_canon (mk_canon (winPut_canon (ch_canon h))) h)))

/-! ### Mirror records -/

theorem mirrorStore_canon {m : Mach} {base : Nat} {cells : NMap (Cell × Bool)} (h : m.Canon) : (m.mirrorStore base cells).Canon :=
  ite_canon (sendMirror_canon h) h
theorem mirrorByte_canon {m : Mach} {a : Nat} {j : Fin 3} {b : Byte} (h : m.Canon) : (m.mirrorByte a j b).Canon := sendMirror_canon h

/-! ### Caches -/

theorem setCache_canon {m : Mach} {k : Fin 2} {dc : Bool} {c : Cache} (h : m.Canon) : (m.setCache k dc c).Canon := setCore_canon h
theorem storeStep_canon {m : Mach} {ag : Agent} {l : Nat} {cells : NMap (Cell × Bool)} (h : m.Canon) : (m.storeStep ag l cells).Canon :=
  setCore_canon (setCore_canon h)
theorem memPlace_canon {m : Mach} {ag : Agent} {l : Nat} {cells : NMap (Cell × Bool)} (h : m.Canon) : (m.memPlace ag l cells).Canon :=
  storeStep_canon (turnWrite_canon h)
theorem memStep_canon {m : Mach} {ag : Agent} {l : Nat} {cells : NMap (Cell × Bool)} (h : m.Canon) : (m.memStep ag l cells).Canon :=
  mirrorStore_canon (memPlace_canon h)
theorem nearCells_canon {m : Mach} {base : Nat} {xs : NMap (Cell × Bool)} (h : m.Canon) : (m.nearCells base xs).Canon := by
  induction xs generalizing m with
  | nil => exact h
  | cons x r ih => exact ih (nearStore_canon h)
theorem nearStep_canon {m : Mach} {ag : Agent} {l : Nat} {cells : NMap (Cell × Bool)} (h : m.Canon) : (m.nearStep ag l cells).Canon :=
  mirrorStore_canon (nearCells_canon (upd_canon h))
theorem cellStep_canon {m : Mach} {ag : Agent} {a : Nat} {v : Cell} {marked : Bool} (h : m.Canon) : (m.cellStep ag a v marked).Canon := by
  unfold Mach.cellStep
  split
  · exact memStep_canon h
  · exact nearStep_canon h
  · exact h
theorem cacheError_canon {m : Mach} {k : Fin 2} {unit : BitVec 3} {line : Nat} (h : m.Canon) : (m.cacheError k unit line).Canon :=
  raiseIf_canon (report_canon (mk_canon (winPut_canon (ch_canon (bump_canon h)))))
theorem dropBadWays_canon {m : Mach} {k : Fin 2} {dc : Bool} {l : Nat} {xs : List Nat} (h : m.Canon) :
    (m.dropBadWays k dc l xs).Canon := by
  induction xs generalizing m with
  | nil => exact h
  | cons x r ih =>
    unfold Mach.dropBadWays
    dsimp only
    split
    · exact ite_canon (ih (cacheError_canon (setCache_canon h))) (ih h)
    · exact ih h
theorem settleFill_canon {m : Mach} {k : Fin 2} {dc : Bool} (h : m.Canon) : (m.settleFill k dc).Canon := by
  unfold Mach.settleFill
  dsimp only
  split
  · exact h
  · exact setCache_canon h
theorem prefetch_canon {m : Mach} {k : Fin 2} {dc : Bool} {l : Nat} {stride : Bool} (h : m.Canon) : (m.prefetch k dc l stride).Canon :=
  ite_canon h (setCache_canon (turnRead_canon (ite_canon (bump_canon h) h)))
theorem nextLine_canon {m : Mach} {k : Fin 2} {dc : Bool} {l : Nat} (h : m.Canon) : (m.nextLine k dc l).Canon :=
  ite_canon (prefetch_canon h) h
theorem setFill_canon {m : Mach} {k : Fin 2} {dc : Bool} {l : Nat} {cells : Line} (h : m.Canon) : (m.setFill k dc l cells).Canon :=
  setCache_canon h
theorem missFill_canon {m : Mach} {k : Fin 2} {dc : Bool} {l : Nat} (h : m.Canon) : (m.missFill k dc l).2.Canon :=
  nextLine_canon (setFill_canon (turnRead_canon h))
theorem missRead_canon {m : Mach} {k : Fin 2} {dc : Bool} {l : Nat} (h : m.Canon) : (m.missRead k dc l).2.Canon := by
  unfold Mach.missRead
  dsimp only
  split
  · exact ite_snd_canon (missFill_canon (cacheError_canon (setCache_canon h))) (setCache_canon h)
  · split
    · exact nextLine_canon (setFill_canon (setCache_canon h))
    · exact missFill_canon h
theorem cacheLine_canon {m : Mach} {k : Fin 2} {dc : Bool} {a : Nat} (h : m.Canon) : (m.cacheLine k dc a).2.Canon := by
  unfold Mach.cacheLine
  dsimp only
  split
  · exact ite_snd_canon (missRead_canon (cacheError_canon (setCache_canon (dropBadWays_canon (settleFill_canon h)))))
      (setCache_canon (dropBadWays_canon (settleFill_canon h)))
  · exact missRead_canon (dropBadWays_canon (settleFill_canon h))
theorem memFetch_canon {m : Mach} {k : Fin 2} {a : Nat} {cached : Bool} (h : m.Canon) : (m.memFetch k a cached).2.Canon :=
  ite_snd_canon (cacheLine_canon h) (turnRead_canon h)

/-! ### Performance monitoring -/

theorem readCounter_canon {m : Mach} {n : Nat} (h : m.Canon) : (m.readCounter n).2.Canon := ite_snd_canon h (sq_canon h)
theorem cycleWrap_canon {m : Mach} {k : Fin 2} (h : m.Canon) : (m.cycleWrap k).Canon := ite_canon (count_canon h) h
theorem readStamp_canon {m : Mach} {t : Fin 8} (h : m.Canon) : (m.readStamp t).2.Canon := setThr_canon (sq_canon h)
theorem loseRecord_canon {m : Mach} (h : m.Canon) : m.loseRecord.Canon := upd_canon (bumpC_canon h)
theorem queueRecord_canon {m : Mach} {sample : Bool} {cells : Vector Cell 4} (h : m.Canon) : (m.queueRecord sample cells).Canon :=
  ite_canon (loseRecord_canon h) (upd_canon h)
theorem tallyRecord_canon {m : Mach} {t : Fin 8} {pc icell : VAddr} (h : m.Canon) : (m.tallyRecord t pc icell).Canon :=
  ite_canon (queueRecord_canon (sq_canon (sq_canon h))) (sq_canon (sq_canon h))
theorem sampleRecord_canon {m : Mach} {t : Fin 8} {pc icell : VAddr} {retired : Bool} (h : m.Canon) :
    (m.sampleRecord t pc icell retired).Canon := queueRecord_canon (bumpC_canon (sq_canon (sq_canon (sq_canon h))))
theorem unmark_canon {m : Mach} {k : Fin 2} (h : m.Canon) : (m.unmark k).Canon := upd_canon h
theorem tally_canon {m : Mach} {t : Fin 8} {pc icell : VAddr} {retired : Bool} (h : m.Canon) : (m.tally t pc icell retired).Canon :=
  ite_canon (ite_canon (sampleRecord_canon (unmark_canon (ite_canon (tallyRecord_canon h) h)))
    (unmark_canon (ite_canon (tallyRecord_canon h) h))) (ite_canon (tallyRecord_canon h) h)
theorem sampleMark_canon {m : Mach} {k : Fin 2} (h : m.Canon) : (m.sampleMark k).Canon := ite_canon (upd_canon h) h
theorem putRecord_canon {m : Mach} {sample : Bool} {cells : Vector Cell 4} (h : m.Canon) : (m.putRecord sample cells).Canon :=
  raiseIf_canon (raiseIf_canon (raiseIf_canon (upd_canon (bumpIf_canon (nearStep_canon h)))))
theorem tallyWrite_canon {m : Mach} (h : m.Canon) : m.tallyWrite.Canon := by
  unfold Mach.tallyWrite
  dsimp only
  split
  · exact h
  · exact ite_canon h (putRecord_canon (upd_canon h))
theorem tallyDrain_canon {m : Mach} (h : m.Canon) : m.tallyDrain.Canon :=
  tallyWrite_canon (tallyWrite_canon (tallyWrite_canon (tallyWrite_canon h)))
theorem tlack_canon {m : Mach} {n : BitVec 10} (h : m.Canon) : (m.tlack n).Canon := upd_canon h
theorem tlclr_canon {m : Mach} (h : m.Canon) : m.tlclr.Canon := upd_canon h
theorem perfLoad_canon {m : Mach} {t : Fin 8} {o : Nat} (h : m.Canon) : (m.perfLoad t o).2.Canon := by
  unfold Mach.perfLoad
  dsimp only
  refine ite_snd_canon h (ite_snd_canon h (ite_snd_canon h (ite_snd_canon (readStamp_canon h) (ite_snd_canon ?_ h))))
  split
  · exact setThr_canon h
  · exact sq_canon h
theorem perfStore_canon {m : Mach} {o : Nat} {v : Payload} (h : m.Canon) : (m.perfStore o v).Canon :=
  ite_canon (mk_canon (winPut_canon (ch_canon h)))
    (ite_canon (mk_canon (winPut_canon (ch_canon h)))
    (ite_canon (mk_canon (winPut_canon (ch_canon h))) (ite_canon (tlack_canon h) (ite_canon (ite_canon (tlclr_canon h) h) h))))

/-! ### Address spaces of the sweeper -/

theorem setSlot_canon {m : Mach} {s : Fin 8} {v : Slot} (h : m.Canon) : (m.setSlot s v).Canon := upd_canon h
theorem clearMarks_canon {m : Mach} {xs : List Nat} (h : m.Canon) : (m.clearMarks xs).Canon := by
  induction xs generalizing m with
  | nil => exact h
  | cons x r ih => exact ih (cellStep_canon h)
theorem swStop_canon {m : Mach} {s : Fin 8} (h : m.Canon) : (m.swStop s).Canon := raiseIf_canon (upd_canon h)
theorem swLeave_canon {m : Mach} {cause : BitVec 3} (h : m.Canon) : (m.swLeave cause).Canon := raiseIf_canon (upd_canon (bumpC_canon h))
theorem mirrorEntry_canon {m : Mach} {s : Fin 8} {r : Nat} {e : Payload} (h : m.Canon) : (m.mirrorEntry s r e).Canon := by
  unfold Mach.mirrorEntry
  dsimp only
  split
  · exact cellStep_canon h
  · split
    · exact h
    · exact swLeave_canon (setSlot_canon (clearMarks_canon h))
    · exact swLeave_canon (setSlot_canon (clearMarks_canon h))
    · exact swLeave_canon (setSlot_canon (clearMarks_canon h))
    · exact swStop_canon h
theorem setRegion_canon {m : Mach} {s : Fin 8} {r : Nat} {e : Payload} (h : m.Canon) : (m.setRegion s r e).Canon :=
  mirrorEntry_canon (raiseIf_canon (setSlot_canon h))
theorem unlessEnded_canon {m : Mach} {p : Phase} {f : Mach → Mach} (h : m.Canon) (hf : ∀ (a : Mach), a.Canon → (f a).Canon) :
    (m.unlessEnded p f).Canon := ite_canon (hf _ h) h
theorem setRegions_canon {m : Mach} {s : Fin 8} {e : Payload} {xs : List Nat} (h : m.Canon) : (m.setRegions s e xs).Canon := by
  induction xs generalizing m with
  | nil => exact h
  | cons x r ih => exact unlessEnded_canon (setRegion_canon h) fun _ hm => ih hm
theorem clearNew_canon {m : Mach} {s : Fin 8} {xs : List (Nat × Payload)} (h : m.Canon) : (m.clearNew s xs).Canon := by
  induction xs generalizing m with
  | nil => exact h
  | cons x r ih => exact unlessEnded_canon (ite_canon (setRegion_canon h) h) fun _ hm => ih hm
theorem swAbandon_canon {m : Mach} {cause : BitVec 3} (h : m.Canon) : (m.swAbandon cause).Canon :=
  swLeave_canon (clearNew_canon (clearMarks_canon h))
theorem swError_canon {m : Mach} {s : Fin 8} (h : m.Canon) : (m.swError s).Canon := by
  unfold Mach.swError
  split
  · exact swAbandon_canon h
  · exact swAbandon_canon h
  · exact swAbandon_canon h
  · exact h
  · exact swStop_canon h
theorem setOvf_canon {m : Mach} {s : Fin 8} (h : m.Canon) : (m.setOvf s).Canon := setSlot_canon h
theorem logLost_canon {m : Mach} {s : Fin 8} (h : m.Canon) : (m.logLost s).Canon :=
  ite_canon (swAbandon_canon (raiseIf_canon (setOvf_canon (bumpC_canon h)))) (upd_canon (raiseIf_canon (setOvf_canon (bumpC_canon h))))
theorem logStep_canon {m : Mach} {ag : Agent} {s : Fin 8} {e : Payload} (h : m.Canon) : (m.logStep ag s e).Canon :=
  ite_canon (logLost_canon h) (upd_canon (bumpC_canon (nearStep_canon h)))
theorem logSteps_canon {m : Mach} {ag : Agent} {xs : List (Fin 8 × BitVec 24)} (h : m.Canon) : (m.logSteps ag xs).Canon := by
  induction xs generalizing m with
  | nil => exact h
  | cons x r ih => exact ih (logStep_canon h)
theorem spillLine_canon {m : Mach} (h : m.Canon) : m.spillLine.Canon := by
  unfold Mach.spillLine
  dsimp only
  refine ite_canon (swAbandon_canon h) ?_
  split
  · exact upd_canon (bumpC_canon (memStep_canon h))
  · exact swError_canon h
theorem pushMark_canon {m : Mach} {v : Cell} (h : m.Canon) : (m.pushMark v).Canon :=
  ite_canon (upd_canon (ite_canon h (spillLine_canon h))) (ite_canon h (spillLine_canon h))
theorem pushAll_canon {m : Mach} {s : Fin 8} {xs : List Cell} (h : m.Canon) : (m.pushAll s xs).Canon := by
  induction xs generalizing m with
  | nil => exact h
  | cons x r ih => exact ih (ite_canon (pushMark_canon h) h)

/-! ### Translation -/

theorem walkRead_canon {m : Mach} {ag : Agent} {a : Nat} {nearOk : Bool} (h : m.Canon) : (m.walkRead ag a nearOk).2.Canon := by
  unfold Mach.walkRead
  dsimp only
  split
  · exact turnRead_canon h
  · exact ite_snd_canon (nearFetch_canon h) h
  · exact h
theorem walkEntry_canon {m : Mach} {ag : Agent} {i : Nat} (h : m.Canon) : (m.walkEntry ag i).2.Canon := by
  unfold Mach.walkEntry
  dsimp only
  split
  · exact turnRead_canon h
  · exact h
theorem searchFrom_canon {m : Mach} {ag : Agent} {vpn : BitVec 14} {s : BitVec 8} {gOnly : Bool} {p : Payload} {n : Nat} (h : m.Canon) :
    (m.searchFrom ag vpn s gOnly p n).2.Canon := by
  induction n generalizing m p with
  | zero => exact ite_snd_canon h (ite_snd_canon h h)
  | succ n ih =>
    unfold Mach.searchFrom
    dsimp only
    refine ite_snd_canon h (ite_snd_canon h ?_)
    split
    · exact snd_canon ‹_› (walkEntry_canon h)
    · have hm := snd_canon ‹_› (walkEntry_canon h)
      exact ite_snd_canon hm (ih hm)
theorem search_canon {m : Mach} {ag : Agent} {vpn : BitVec 14} {s : BitVec 8} {gOnly : Bool} (h : m.Canon) :
    (m.search ag vpn s gOnly).2.Canon := by
  unfold Mach.search
  split
  · exact snd_canon ‹_› (walkRead_canon h)
  · exact searchFrom_canon (snd_canon ‹_› (walkRead_canon h))
theorem walk_canon {m : Mach} {ag : Agent} {vpn : BitVec 14} {asid : BitVec 8} (h : m.Canon) : (m.walk ag vpn asid).2.Canon := by
  unfold Mach.walk
  dsimp only
  refine ite_snd_canon h ?_
  split
  · have hm := snd_canon ‹_› (ite_snd_canon (search_canon (search_canon h)) (search_canon h))
    exact ite_snd_canon hm hm
  · exact ite_snd_canon (search_canon (search_canon h)) (search_canon h)
theorem tlbLookup_canon {m : Mach} {k : Fin 2} {vpn : BitVec 14} {asid : BitVec 8} (h : m.Canon) : (m.tlbLookup k vpn asid).2.Canon := by
  unfold Mach.tlbLookup
  dsimp only
  refine ite_snd_canon (report_canon (setCore_canon h)) ?_
  split
  · split
    · exact setCore_canon h
    · exact h
  · exact h
theorem tlbInsert_canon {m : Mach} {k : Fin 2} {e : TlbEntry} (h : m.Canon) : (m.tlbInsert k e).Canon := setCore_canon h
theorem microCheck_canon {m : Mach} {k : Fin 2} (h : m.Canon) : (m.microCheck k).Canon := by
  unfold Mach.microCheck
  exact foldl_canon (fun _ _ hm => report_canon hm) (ite_canon h (setCore_canon h))
theorem adWrite_canon {m : Mach} {ag : Agent} {i : Nat} {write : Bool} (h : m.Canon) : (m.adWrite ag i write).2.Canon := by
  unfold Mach.adWrite
  dsimp only
  split
  · exact ite_snd_canon (turnRead_canon h) (ite_snd_canon (cellStep_canon (turnRead_canon h)) (turnRead_canon h))
  · exact h
theorem adUpdate_canon {m : Mach} {k : Fin 2} {e : TlbEntry} {write : Bool} (h : m.Canon) : (m.adUpdate k e write).2.Canon := by
  unfold Mach.adUpdate
  dsimp only
  refine ite_snd_canon h ?_
  split
  · exact setCore_canon (adWrite_canon h)
  · exact setCore_canon (adWrite_canon h)

/-! ### The sweeper's commands -/

theorem swResult_canon {m : Mach} {r : BitVec 2} (h : m.Canon) : (m.swResult r).Canon := upd_canon h
theorem readMapLines_canon {m : Mach} {s : Fin 8} (h : m.Canon) : (m.readMapLines s).Canon :=
  turnRead_canon
    (turnRead_canon
    (turnRead_canon
    (turnRead_canon
    (turnRead_canon
    (turnRead_canon
    (turnRead_canon
    (turnRead_canon
    (turnRead_canon
    (turnRead_canon (turnRead_canon (turnRead_canon (turnRead_canon (turnRead_canon (turnRead_canon (turnRead_canon h)))))))))))))))
theorem clearStep_canon {m : Mach} {line : Nat} (h : m.Canon) : (m.clearStep line).Canon :=
  sendMirror_canon (storeStep_canon (poolAdd_canon (turn_canon h)))
theorem clearSide_canon {m : Mach} {s : Fin 8} (h : m.Canon) : (m.clearSide s).Canon :=
  iterN_canon (fun _ _ hm => clearStep_canon hm) (putRun_canon h)
theorem slotEnable_canon {m : Mach} {s : Fin 8} {asid : BitVec 8} (h : m.Canon) : (m.slotEnable s asid).Canon := by
  unfold Mach.slotEnable
  dsimp only
  refine ite_canon h ?_
  split
  · exact swResult_canon (setSlot_canon h)
  · exact ite_canon (swResult_canon (readMapLines_canon (setSlot_canon h)))
      (ite_canon (swStop_canon (readMapLines_canon (setSlot_canon h)))
      (swResult_canon (setSlot_canon (clearSide_canon (readMapLines_canon (setSlot_canon h))))))
theorem slotDisable_canon {m : Mach} {s : Fin 8} {asid : BitVec 8} (h : m.Canon) : (m.slotDisable s asid).Canon :=
  ite_canon (setSlot_canon h) h
theorem acceptCycle_canon {m : Mach} {s : Fin 8} {full : Bool} (h : m.Canon) : (m.acceptCycle s full).Canon := upd_canon (bumpC_canon h)
theorem cycleCmd_canon {m : Mach} {s : Fin 8} {full : Bool} (h : m.Canon) : (m.cycleCmd s full).Canon :=
  ite_canon (swResult_canon h) (ite_canon (swResult_canon h) (acceptCycle_canon (swResult_canon h)))
theorem regionSet_canon {m : Mach} {s : Fin 8} {region : BitVec 8} {kind : BitVec 3} {root : Bool} (h : m.Canon) :
    (m.regionSet s region kind root).Canon :=
  ite_canon (swResult_canon h) (ite_canon (ite_canon (swResult_canon h) (setRegion_canon (swResult_canon h))) (swResult_canon h))
theorem swcmd_canon {m : Mach} {v : Payload} (h : m.Canon) : (m.swcmd v).Canon :=
  ite_canon h (ite_canon (cycleCmd_canon h) (ite_canon (cycleCmd_canon h) (ite_canon (regionSet_canon h) (swResult_canon h))))
theorem swStore_canon {m : Mach} {o : Nat} {v : Payload} (h : m.Canon) : (m.swStore o v).Canon :=
  ite_canon h (ite_canon (mk_canon (winPut_canon (ch_canon h)))
    (ite_canon (swcmd_canon h)
    (ite_canon h
    (ite_canon (mk_canon (winPut_canon (ch_canon h)))
    (ite_canon (mk_canon (winPut_canon (ch_canon h)))
    (ite_canon (mk_canon (winPut_canon (ch_canon h)))
    (ite_canon (ite_canon (ite_canon (slotEnable_canon h) (slotDisable_canon h)) (ite_canon (setSlot_canon h) h)) h)))))))

/-! ### Window registers -/

theorem powerLoad_canon {m : Mach} {o : Nat} (h : m.Canon) : (m.powerLoad o).2.Canon := by
  unfold Mach.powerLoad
  dsimp only
  refine ite_snd_canon (readPwrstat_canon h) (ite_snd_canon h (ite_snd_canon h ?_))
  split
  · exact h
  · exact ite_snd_canon h h
theorem powerStore_canon {m : Mach} {o : Nat} {v : Payload} (h : m.Canon) : (m.powerStore o v).Canon :=
  ite_canon (ite_canon (pwrOff_canon h) (mk_canon (winPut_canon (ch_canon h))))
    (ite_canon (mk_canon (winPut_canon (ch_canon h))) (ite_canon (upd_canon h) h))
theorem timerLoad_canon {m : Mach} {t : Fin 8} {o : Nat} (h : m.Canon) : (m.timerLoad t o).2.Canon := by
  unfold Mach.timerLoad
  dsimp only
  refine ite_snd_canon (readTbl_canon h) (ite_snd_canon ?_ ?_)
  · split
    · exact h
    · exact h
  · split
    · exact h
    · split
      · split
        · exact h
        · exact h
        · exact readCnt_canon h
        · exact h
      · exact h
theorem timerStore_canon {m : Mach} {o : Nat} {v : Payload} (h : m.Canon) : (m.timerStore o v).Canon := by
  unfold Mach.timerStore
  dsimp only
  split
  · exact ite_canon (ite_canon (wakeArm_canon h) (wakeDisarm_canon h)) (mk_canon (winPut_canon (ch_canon h)))
  · split
    · split
      · exact ite_canon (fastArm_canon h) (fastDisarm_canon h)
      · exact mk_canon (winPut_canon (ch_canon h))
      · exact h
    · exact h
theorem ledgerStore_canon {m : Mach} {o : Nat} {v : Payload} (h : m.Canon) : (m.ledgerStore o v).Canon :=
  ite_canon (ite_canon
    (bootgood_canon (ite_canon (pinclr_canon (mk_canon (winPut_canon (ch_canon h)))) (mk_canon (winPut_canon (ch_canon h)))))
    (ite_canon (pinclr_canon (mk_canon (winPut_canon (ch_canon h)))) (mk_canon (winPut_canon (ch_canon h))))) h
theorem cacheStore_canon {m : Mach} {o : Nat} {v : Payload} (h : m.Canon) : (m.cacheStore o v).Canon :=
  ite_canon (mk_canon (winPut_canon (ch_canon h))) h
theorem pairStore_canon {m : Mach} {o : Nat} {v : Payload} (h : m.Canon) : (m.pairStore o v).Canon :=
  ite_canon (mk_canon (winPut_canon (ch_canon h))) (ite_canon (mk_canon (winPut_canon (ch_canon h))) h)
theorem asFix_canon {r : Payload × Mach} (h : r.2.Canon) : (asFix r).2.Canon := h
theorem winLoad_canon {m : Mach} {t : Fin 8} {o : Nat} (h : m.Canon) : (m.winLoad t o).2.Canon :=
  ite_snd_canon h
    (ite_snd_canon (asFix_canon (powerLoad_canon h))
    (ite_snd_canon (asFix_canon (timerLoad_canon h))
    (ite_snd_canon h
    (ite_snd_canon h
    (ite_snd_canon h
    (ite_snd_canon (asFix_canon (perfLoad_canon h))
    (ite_snd_canon h
    (ite_snd_canon (asFix_canon (mcLoad_canon h))
    (ite_snd_canon h
    (ite_snd_canon (asFix_canon (dispRead_canon h))
    (ite_snd_canon (asFix_canon (touchLoad_canon h)) (ite_snd_canon (asFix_canon (panelLoad_canon h)) (portLoad_canon h)))))))))))))
theorem winStore_canon {m : Mach} {o : Nat} {c : Cell} (h : m.Canon) : (m.winStore o c).Canon :=
  ite_canon (ite_canon (putDriftctl_canon (takePage_canon h)) (takePage_canon h))
    (ite_canon (powerStore_canon (takePage_canon h))
    (ite_canon (timerStore_canon (takePage_canon h))
    (ite_canon (takePage_canon h)
    (ite_canon (ledgerStore_canon (takePage_canon h))
    (ite_canon (cacheStore_canon (takePage_canon h))
    (ite_canon (perfStore_canon (takePage_canon h))
    (ite_canon (swStore_canon (takePage_canon h))
    (ite_canon (mcStore_canon (takePage_canon h))
    (ite_canon (pairStore_canon (takePage_canon h))
    (ite_canon (dispStore_canon (takePage_canon h))
    (ite_canon (touchStore_canon (takePage_canon h))
    (ite_canon (panelStore_canon (takePage_canon h)) (portStore_canon (takePage_canon h))))))))))))))

/-! ### The write buffer -/

theorem drainEntry_canon {m : Mach} {k : Fin 2} {e : WbEntry} (h : m.Canon) : (m.drainEntry k e).Canon := by
  unfold Mach.drainEntry
  dsimp only
  split
  · exact ite_canon (setCache_canon (bump_canon (memStep_canon (logSteps_canon (bump_canon h)))))
      (memStep_canon (logSteps_canon (bump_canon h)))
  · exact nearStep_canon (logSteps_canon (bump_canon h))
  · split
    · exact winStore_canon (upd_canon (bump_canon (logSteps_canon (bump_canon h))))
    · exact logSteps_canon (bump_canon h)
theorem drainOne_canon {m : Mach} {k : Fin 2} (h : m.Canon) : (m.drainOne k).Canon := by
  unfold Mach.drainOne
  dsimp only
  split
  · exact h
  · exact drainEntry_canon (setCore_canon h)
theorem drainN_canon {m : Mach} {k : Fin 2} {n : Nat} (h : m.Canon) : (m.drainN k n).Canon := by
  induction n generalizing m with
  | zero => exact h
  | succ n ih => exact ih (drainOne_canon h)
theorem drainLine_canon {m : Mach} {k : Fin 2} {l : Nat} (h : m.Canon) : (m.drainLine k l).Canon := drainN_canon h
theorem drainThread_canon {m : Mach} {t : Fin 8} (h : m.Canon) : (m.drainThread t).Canon := drainN_canon h
theorem drainAll_canon {m : Mach} (h : m.Canon) : m.drainAll.Canon := drainN_canon (drainN_canon h)
theorem wbPush_canon {m : Mach} {k : Fin 2} {e : WbEntry} (h : m.Canon) : (m.wbPush k e).Canon :=
  setCore_canon (ite_canon h (drainOne_canon h))
theorem wbAdd_canon {m : Mach} {t : Fin 8} {kind : WbKind} {line : Nat} {cells : NMap (Cell × Bool)} {zl : Bool}
    {logs : List (Fin 8 × BitVec 24)} (h : m.Canon) : (m.wbAdd t kind line cells zl logs).Canon := by
  unfold Mach.wbAdd
  dsimp only
  split
  · exact ite_canon (setCore_canon (bump_canon h)) (wbPush_canon h)
  · exact wbPush_canon h

/-! ### Accesses of an instruction -/

theorem lookaside_keeps {va : VAddr} : Keeps (lookaside va) := by
  unfold lookaside
  dsimp only
  refine bind_keeps myCore_keeps fun v => bind_keeps getT_keeps fun v1 =>
    bind_keeps (useM_keeps fun _ hm => tlbLookup_canon hm) fun v2 => ?_
  split
  · exact pure_keeps
  · exact throw_keeps
  · refine bind_keeps (useM_keeps fun _ hm => walk_canon hm) fun v2 => ?_
    split
    · exact bind_keeps (modM_keeps fun _ hm => tlbInsert_canon hm) fun _ => pure_keeps
    · exact fault_keeps
    · exact fault_keeps
    · exact fault_keeps
theorem xlateAs_keeps {sup : Bool} {va : VAddr} {need : Need} {hand : Bool} : Keeps (xlateAs sup va need hand) :=
  bind_keeps getT_keeps fun _ => bind_keeps (modify_keeps fun _ => rfl) fun _ =>
    ite_keeps (bind_keeps lookaside_keeps fun _ => bind_keeps (modify_keeps fun _ => rfl) fun _ => check_keeps fault_keeps fun _ =>
    check_keeps faultTY_keeps fun _ => bind_keeps getM_keeps fun _ => check_keeps fault_keeps fun _ =>
    bind_keeps (modify_keeps fun _ => rfl) fun _ => pure_keeps)
    (ite_keeps (bind_keeps getM_keeps fun _ => ite_keeps pure_keeps fault_keeps) pure_keeps)
theorem xlate_keeps {va : VAddr} {need : Need} {hand : Bool} : Keeps (xlate va need hand) := bind_keeps getT_keeps fun _ => xlateAs_keeps
theorem commitList_keeps {xs : List (TlbEntry × Bool × VAddr)} : Keeps (commitList xs) := by
  induction xs with
  | nil => exact pure_keeps
  | cons x r ih =>
    unfold commitList
    refine bind_keeps myCore_keeps fun v => bind_keeps me_keeps fun v1 =>
      bind_keeps (modM_keeps fun _ hm => ite_canon hm (drainThread_canon hm)) fun v2 =>
      bind_keeps (useM_keeps fun _ hm => adUpdate_canon hm) fun v3 => ?_
    split
    · exact ih
    · exact throw_keeps
    · exact fault_keeps
theorem commit_keeps : Keeps commit := bind_keeps get_keeps fun _ => bind_keeps (modify_keeps fun _ => rfl) fun _ => commitList_keeps
theorem commitLate_keeps {xs : List (TlbEntry × Bool × VAddr)} : Keeps (commitLate xs) := by
  induction xs with
  | nil => exact pure_keeps
  | cons x r ih =>
    unfold commitLate
    refine bind_keeps myCore_keeps fun v => bind_keeps (useM_keeps fun _ hm => adUpdate_canon hm) fun v1 => ?_
    split
    · exact ih
    · exact fault_keeps
    · exact fault_keeps
theorem xlateLate_keeps {va : VAddr} {need : Need} : Keeps (xlateLate va need) :=
  bind_keeps (modify_keeps fun _ => rfl) fun _ => bind_keeps xlate_keeps fun _ => bind_keeps get_keeps fun _ =>
    bind_keeps (modify_keeps fun _ => rfl) fun _ => bind_keeps commitLate_keeps fun _ => pure_keeps
theorem readCell_keeps {v : Xl} : Keeps (readCell v) := by
  unfold readCell
  refine bind_keeps myCore_keeps fun v1 => bind_keeps (modM_keeps fun _ hm => drainLine_canon hm) fun v2 =>
    bind_keeps getM_keeps fun m => ?_
  split
  · exact useM_keeps fun _ hm => nearFetch_canon hm
  · exact useM_keeps fun _ hm => memFetch_canon hm
  · exact pure_keeps
theorem tableRead_canon {m : Mach} {k : Fin 2} {a : Nat} (h : m.Canon) : (m.tableRead k a).2.Canon := by
  unfold Mach.tableRead
  dsimp only
  split
  · exact nearFetch_canon (drainLine_canon h)
  · exact memFetch_canon (drainLine_canon h)
  · exact drainLine_canon h
theorem stepRead_keeps {v : Xl} : Keeps (stepRead v) := by
  unfold stepRead
  dsimp only
  refine bind_keeps myCore_keeps fun v1 => bind_keeps getM_keeps fun m => ?_
  split
  · exact useM_keeps fun _ hm => nearFetch_canon hm
  · exact useM_keeps fun _ hm => turnRead_canon hm
  · exact pure_keeps
theorem readFwdBy_keeps {rd : Xl → IM Cell} {va : VAddr} {need : Need} {n : Nat} {x : Xl} (hf : ∀ x, Keeps (rd x)) :
    Keeps (readFwdBy rd va need n x) := by
  induction n generalizing va x with
  | zero => exact bind_keeps (hf _) fun _ => check_keeps faultTY_keeps fun _ => pure_keeps
  | succ n ih =>
    exact bind_keeps (hf _) fun _ =>
      ite_keeps (bind_keeps (modify_keeps fun _ => rfl) fun _ => bind_keeps xlate_keeps fun _ => ih) pure_keeps
theorem readFwd_keeps {va : VAddr} {need : Need} {n : Nat} {v : Xl} : Keeps (readFwd va need n v) :=
  readFwdBy_keeps fun _ => readCell_keeps
theorem readAt_keeps {va : VAddr} {need : Need} : Keeps (readAt va need) := bind_keeps xlate_keeps fun _ => readFwd_keeps
theorem headerOf_keeps {p : Cell} : Keeps (headerOf p) :=
  bind_keeps readAt_keeps fun _ => check_keeps faultPO_keeps fun _ => check_keeps faultTY_keeps fun _ =>
    check_keeps faultTY_keeps fun _ => pure_keeps
theorem checkLoaded_keeps {v : Cell} : Keeps (checkLoaded v) :=
  check_keeps faultPO_keeps fun _ => ite_keeps (bind_keeps commit_keeps fun _ => throw_keeps) pure_keeps
theorem loadBarrier_keeps {va : VAddr} {a : Nat} {v : Cell} : Keeps (loadBarrier va a v) :=
  bind_keeps get_keeps fun _ =>
    ite_keeps (tryCatch_keeps
    (bind_keeps readAt_keeps fun _ => bind_keeps get_keeps fun _ => bind_keeps (modify_keeps fun _ => rfl) fun _ =>
    ite_keeps pure_keeps pure_keeps) fun _ => bind_keeps get_keeps fun _ => bind_keeps (modify_keeps fun _ => rfl) fun _ =>
    pure_keeps) pure_keeps
theorem postHeal_keeps {h : Healing} : Keeps (postHeal h) := by
  unfold postHeal
  dsimp only
  split
  · exact pure_keeps
  · refine bind_keeps me_keeps fun v => bind_keeps (modM_keeps fun _ hm => bumpBy_canon (bumpT_canon hm)) fun v1 => ?_
    split
    · exact modM_keeps fun _ hm => upd_canon (bump_canon hm)
    · exact pure_keeps
theorem bufStore_keeps {v' : Xl} {v : Cell} {marked : Bool} {logs : List (Fin 8 × BitVec 24)} : Keeps (bufStore v' v marked logs) :=
  bind_keeps me_keeps fun _ => modM_keeps fun _ hm => wbAdd_canon hm
theorem snapAct_canon {m : Mach} {t sl : Fin 8} {old : Cell} (h : m.Canon) : (m.snapAct t sl old).Canon :=
  pushAll_canon (ite_canon (bumpT_canon h) h)
theorem snapshot_keeps {v : Xl} : Keeps (snapshot v) := by
  unfold snapshot
  refine bind_keeps get_keeps fun v1 => ?_
  split
  · exact ite_keeps (bind_keeps readCell_keeps fun _ => modM_keeps fun _ hm => snapAct_canon hm) pure_keeps
  · exact pure_keeps
theorem countLogs_keeps {t : Fin 8} {logs : List (Fin 8 × BitVec 24)} : Keeps (countLogs t logs) :=
  ite_keeps pure_keeps (modM_keeps fun _ hm => bumpT_canon hm)
theorem stepActions_keeps {va : VAddr} {old v : Cell} : Keeps (stepActions va old v) := by
  unfold stepActions
  dsimp only
  refine bind_keeps get_keeps fun v1 => bind_keeps countLogs_keeps fun v2 =>
    bind_keeps (modM_keeps fun _ hm => logSteps_canon hm) fun v3 => ?_
  split
  · exact modM_keeps fun _ hm => snapAct_canon hm
  · exact pure_keeps
theorem targetsEvac_keeps {va : VAddr} : Keeps (targetsEvac va) := by
  unfold targetsEvac
  refine bind_keeps get_keeps fun v => ?_
  split
  · exact pure_keeps
  · exact pure_keeps
theorem checkedStore_keeps {va : VAddr} {v : Cell} {marked counted : Bool} {n : Nat} {v' : Xl} :
    Keeps (checkedStore va v marked counted n v') := by
  induction n generalizing va v' with
  | zero =>
    exact bind_keeps stepRead_keeps fun _ => check_keeps faultTY_keeps fun _ => bind_keeps get_keeps fun _ =>
      bind_keeps stepActions_keeps fun _ => modM_keeps fun _ hm => cellStep_canon (bumpTIf_canon hm)
  | succ n ih =>
    exact bind_keeps me_keeps fun _ => bind_keeps (modM_keeps fun _ hm => drainThread_canon hm) fun _ =>
      bind_keeps stepRead_keeps fun _ =>
      ite_keeps (bind_keeps (modM_keeps fun _ hm => bumpTIf_canon hm) fun _ => bind_keeps xlateLate_keeps fun _ => ih)
      (bind_keeps get_keeps fun _ => bind_keeps stepActions_keeps fun _ => modM_keeps fun _ hm => cellStep_canon (bumpTIf_canon hm))
theorem barrierStore_keeps {va : VAddr} {v' : Xl} {v : Cell} {marked always : Bool} : Keeps (barrierStore va v' v marked always) :=
  bind_keeps targetsEvac_keeps fun _ =>
    ite_keeps checkedStore_keeps
    (bind_keeps get_keeps fun _ => bind_keeps countLogs_keeps fun _ => bind_keeps snapshot_keeps fun _ => bufStore_keeps)

/-! ### Issue -/

theorem lockup_canon {m : Mach} {t : Fin 8} {cause : BitVec 4} {vector : BitVec 10} {access : Nat} (h : m.Canon) :
    (m.lockup t cause vector access).Canon := upd_canon (stopAll_canon h)
theorem xlateCells_keeps {xs : List (VAddr × Cell)} : Keeps (xlateCells xs) := by
  induction xs with
  | nil => exact pure_keeps
  | cons x r ih => exact bind_keeps xlateAs_keeps fun _ => bind_keeps ih fun _ => pure_keeps
theorem writeCells_keeps {xs : List (VAddr × Cell × Xl)} : Keeps (writeCells xs) := by
  induction xs with
  | nil => exact pure_keeps
  | cons x r ih => exact bind_keeps barrierStore_keeps fun _ => ih
theorem pushCells_keeps {a : VAddr} {vs : List Cell} : Keeps (pushCells a vs) :=
  bind_keeps xlateCells_keeps fun _ => bind_keeps commit_keeps fun _ => writeCells_keeps
theorem retrying_keeps {α : Type} {n : Nat} {v : IM α} (hw : Keeps v) : Keeps (retrying n v) := by
  induction n generalizing v with
  | zero => exact hw
  | succ n ih =>
    unfold retrying
    refine tryCatch_keeps hw fun v1 => ?_
    split
    · exact bind_keeps (modify_keeps fun _ => rfl) fun _ => ih hw
    · exact throw_keeps
theorem fillUpper_keeps : Keeps fillUpper := by
  unfold fillUpper
  dsimp only
  refine bind_keeps getT_keeps fun v => bind_keeps me_keeps fun v1 =>
    ite_keeps (bind_keeps (retrying_keeps pushCells_keeps) fun _ => bind_keeps modT_keeps fun _ => modM_keeps fun _ hm =>
    bumpT_canon hm) ?_
  split
  · exact bind_keeps (retrying_keeps pushCells_keeps) fun _ => bind_keeps modT_keeps fun _ => modM_keeps fun _ hm => bumpT_canon hm
  · exact bind_keeps modT_keeps fun _ => modM_keeps fun _ hm => bumpT_canon hm
theorem controlCheck_canon {m : Mach} {t : Fin 8} {i : Ins} {u : Nat} {resumable : Bool} (h : m.Canon) :
    (m.controlCheck t i u resumable).Canon := setThr_canon (bumpTIf_canon h)
theorem reportControl_canon {m : Mach} {flag : Bool} {k : Fin 2} {u : BitVec 14} (h : m.Canon) : (m.reportControl flag k u).Canon :=
  report_canon h
theorem retired_canon {m : Mach} {t : Fin 8} {i : Ins} {f : Flow} (h : m.Canon) : (m.retired t i f).Canon :=
  bumpTIf_canon
    (bumpTIf_canon
    (bumpTIf_canon (bumpTIf_canon (bumpTIf_canon (bumpTIf_canon (bumpTIf_canon (bumpT_canon (ite_canon h (tally_canon h)))))))))
theorem notRetired_canon {m : Mach} {t : Fin 8} {i : Ins} (h : m.Canon) : (m.notRetired t i).Canon := tally_canon h
theorem finishIns_canon {m : Mach} {t : Fin 8} {i : Ins} {v : Except Exit Flow} (h : m.Canon) : (m.finishIns t i v).Canon := by
  unfold Mach.finishIns
  dsimp only
  split
  · exact setThr_canon h
  · exact h
  · exact setThr_canon (retired_canon h)
  · exact setThr_canon (notRetired_canon h)
  · exact setThr_canon (notRetired_canon h)
  · exact setThr_canon (retired_canon h)
  · exact setThr_canon (retired_canon h)
  · exact h
  · exact lockup_canon h
theorem partWork_canon {m : Mach} {t : Fin 8} {w : IM Flow} (h : m.Canon) (hw : Keeps w) : (m.partWork t w).Canon := by
  unfold Mach.partWork
  dsimp only
  refine ite_canon (sq_canon h) ?_
  split
  · exact snd_canon ‹_› (run_canon (sq_canon h) (retrying_keeps hw))
  · exact sq_canon h
theorem runIns_canon {m : Mach} {t : Fin 8} {i : Ins} {start : Nat} {w : IM Flow} (h : m.Canon) (hw : Keeps w) :
    (m.runIns t i start w).Canon := by
  unfold Mach.runIns
  dsimp only
  split
  · exact finishIns_canon (run_canon (upd_canon h) (retrying_keeps hw))
  · exact ite_canon (controlCheck_canon (partWork_canon (upd_canon h) hw)) (controlCheck_canon (upd_canon h))
  · refine ite_canon (finishIns_canon (run_canon (upd_canon h) (retrying_keeps hw))) (ite_canon (finishIns_canon (upd_canon h)) ?_)
    split
    · exact finishIns_canon (snd_canon ‹_› (run_canon (upd_canon h) (retrying_keeps hw)))
    · exact finishIns_canon (snd_canon ‹_› (run_canon (upd_canon h) (retrying_keeps hw)))
theorem issue_canon {m : Mach} {t : Fin 8} {i : Ins} {w : IM Flow} (h : m.Canon) (hw : Keeps w) : (m.issue t i w).Canon := by
  unfold Mach.issue
  dsimp only
  refine ite_canon h ?_
  split
  · exact controlCheck_canon (ite_canon (microCheck_canon h) h)
  · exact setThr_canon (ite_canon (microCheck_canon h) h)
  · refine ite_canon (setThr_canon (ite_canon (microCheck_canon h) h)) (ite_canon ?_ (runIns_canon (ite_canon (microCheck_canon h) h) hw))
    split
    · exact runIns_canon (mid_canon ‹_› (runAt_canon (ite_canon (microCheck_canon h) h) fillUpper_keeps)) hw
    · exact lockup_canon (mid_canon ‹_› (runAt_canon (ite_canon (microCheck_canon h) h) fillUpper_keeps))
theorem issue_stateCanon {s : State} {c : Chan} {t : Fin 8} {i : Ins} {w : IM Flow} (h : s.Canon) (hw : Keeps w) :
    (s.issue c t i w).Canon := onMach_stateCanon h fun _ hm => issue_canon hm hw

/-! ### Operands -/

theorem operand_keeps {code : Nat} {r : Reg} {ok : BitVec 6 → Bool} : Keeps (operand code r ok) :=
  bind_keeps getT_keeps fun _ => check_keeps faultPO_keeps fun _ => check_keeps throw_keeps fun _ => check_keeps faultTY_keeps fun _ =>
    pure_keeps
theorem bitsPair_keeps {a b : Reg} : Keeps (bitsPair a b) :=
  bind_keeps operand_keeps fun _ => bind_keeps operand_keeps fun _ => check_keeps faultTY_keeps fun _ => pure_keeps
theorem setD_keeps {d : Reg} {v : Cell} : Keeps (setD d v) := modT_keeps
theorem fieldTarget_keeps {p : Cell} {k : Nat} {store : Bool} : Keeps (fieldTarget p k store) :=
  ite_keeps (check_keeps faultOR_keeps fun _ => pure_keeps)
    (ite_keeps (check_keeps faultOR_keeps fun _ => pure_keeps)
    (bind_keeps headerOf_keeps fun _ => check_keeps faultOR_keeps fun _ => pure_keeps))
theorem indexTarget_keeps {p : Cell} {i : ℤ} : Keeps (indexTarget p i) :=
  ite_keeps (check_keeps faultOR_keeps fun _ => pure_keeps)
    (bind_keeps headerOf_keeps fun _ => check_keeps faultOR_keeps fun _ => pure_keeps)
theorem limitCrate_keeps {p : Cell} : Keeps (limitCrate p) := bind_keeps getT_keeps fun _ => ite_keeps faultTY_keeps pure_keeps
theorem limitStore_keeps {p : Cell} {tg : Target} {v : Cell} {code : Nat} : Keeps (limitStore p tg v code) := by
  unfold limitStore
  dsimp only
  refine bind_keeps getT_keeps fun v1 => check_keeps faultTY_keeps fun u => check_keeps faultTY_keeps fun u1 => ?_
  split
  · exact check_keeps faultTY_keeps fun _ => ite_keeps faultTY_keeps pure_keeps
  · exact pure_keeps
theorem codeEntry_keeps {p : Cell} : Keeps (codeEntry p) :=
  bind_keeps readAt_keeps fun _ => check_keeps faultPO_keeps fun _ => check_keeps faultTY_keeps fun _ => bind_keeps readAt_keeps fun _ =>
    bind_keeps checkLoaded_keeps fun _ => check_keeps faultTY_keeps fun _ => pure_keeps
theorem stackPtr_keeps : Keeps stackPtr := bind_keeps getT_keeps fun _ => check_keeps faultTY_keeps fun _ => pure_keeps

/-! ### Allocation -/

theorem noteMark_canon {m : Mach} {a : Nat} (h : m.Canon) : (m.noteMark a).Canon := ite_canon h (upd_canon h)
theorem setMark_canon {m : Mach} {s : Fin 8} {a : Nat} (h : m.Canon) : (m.setMark s a).Canon := by
  unfold Mach.setMark
  dsimp only
  split
  · exact noteMark_canon (cellStep_canon h)
  · exact swError_canon h
theorem writeCard_canon {m : Mach} {s : Fin 8} {a : Nat} {on : Bool} (h : m.Canon) : (m.writeCard s a on).Canon := by
  unfold Mach.writeCard
  dsimp only
  split
  · exact cellStep_canon h
  · exact swError_canon h
theorem blackPairs_canon {m : Mach} {s : Fin 8} {a n : Nat} (h : m.Canon) : (m.blackPairs s a n).Canon := by
  induction n generalizing m a with
  | zero => exact h
  | succ n ih => exact unlessEnded_canon (setMark_canon h) fun _ hm => ih hm
theorem addLive_canon {m : Mach} {r n : Nat} (h : m.Canon) : (m.addLive r n).Canon := upd_canon h
theorem blackRange_canon {m : Mach} {s : Fin 8} {a b : Nat} (h : m.Canon) : (m.blackRange s a b).Canon :=
  unlessEnded_canon (blackPairs_canon h) fun _ hm => addLive_canon hm
theorem handOut_canon {m : Mach} {s : Fin 8} {a : Nat} {take : Bool} (h : m.Canon) : (m.handOut s a take).Canon :=
  ite_canon (blackRange_canon (setSlot_canon (ite_canon (setRegion_canon h) h))) (setSlot_canon (ite_canon (setRegion_canon h) h))
theorem setPitch_canon {m : Mach} {s t : Fin 8} {p : Nat × Nat} (h : m.Canon) : (m.setPitch s t p).Canon := setSlot_canon h
theorem returnResv_canon {m : Mach} {t : Fin 8} (h : m.Canon) : (m.returnResv t).Canon := by
  unfold Mach.returnResv
  dsimp only
  split
  · exact h
  · exact setThr_canon (setRegions_canon h)
theorem requestAlloc_keeps {n : Nat} : Keeps (requestAlloc n) := by
  unfold requestAlloc
  dsimp only
  refine bind_keeps me_keeps fun v => bind_keeps (modM_keeps fun _ hm => returnResv_canon hm) fun v1 => bind_keeps get_keeps fun v2 => ?_
  split
  · exact faultAL_keeps
  · split
    · exact bind_keeps (modM_keeps fun _ hm => bumpC_canon (bumpT_canon hm)) fun _ => faultAL_keeps
    · exact check_keeps (modM_keeps fun _ hm => bumpT_canon hm) fun _ => pure_keeps
theorem xlatePlan_keeps {p : Plan} : Keeps (xlatePlan p) := by
  unfold xlatePlan
  refine bind_keeps xlate_keeps fun v => ?_
  split
  · exact pure_keeps
  · exact bind_keeps xlate_keeps fun _ => pure_keeps
theorem initCells_keeps {v : Xl} {n : Nat} {xs : List Cell} : Keeps (initCells v n xs) := by
  induction xs generalizing n with
  | nil => exact pure_keeps
  | cons x r ih => exact bind_keeps bufStore_keeps fun _ => ih
theorem carryAlloc_keeps {p : Plan} {v : Xl × Option Xl} {cells : List Cell} : Keeps (carryAlloc p v cells) := by
  unfold carryAlloc
  dsimp only
  refine bind_keeps me_keeps fun v1 => ?_
  split
  · refine bind_keeps (modM_keeps fun _ hm => bumpC_canon (handOut_canon hm)) fun v2 => ?_
    split
    · exact bind_keeps initCells_keeps fun _ => bind_keeps (modM_keeps fun _ hm => setPitch_canon hm) fun _ => initCells_keeps
    · exact bind_keeps (modM_keeps fun _ hm => setPitch_canon hm) fun _ => initCells_keeps
  · split
    · exact bind_keeps initCells_keeps fun _ => bind_keeps (modM_keeps fun _ hm => setPitch_canon hm) fun _ => initCells_keeps
    · exact bind_keeps (modM_keeps fun _ hm => setPitch_canon hm) fun _ => initCells_keeps
theorem allocObject_keeps {cells : List Cell} : Keeps (allocObject cells) :=
  bind_keeps requestAlloc_keeps fun _ => bind_keeps xlatePlan_keeps fun _ => bind_keeps commit_keeps fun _ =>
    bind_keeps carryAlloc_keeps fun _ => pure_keeps
theorem deliverInt_keeps {d : Reg} {i : ℤ} : Keeps (deliverInt d i) := by
  unfold deliverInt
  split
  · exact faultOV_keeps
  · exact bind_keeps commit_keeps fun _ => bind_keeps setD_keeps fun _ => pure_keeps
  · exact bind_keeps allocObject_keeps fun _ => bind_keeps me_keeps fun _ => bind_keeps (modM_keeps fun _ hm => bumpT_canon hm) fun _ =>
      bind_keeps setD_keeps fun _ => pure_keeps

/-! ### The sweeper's accesses -/

theorem swWalk_sweepKeeps {vpn : BitVec 14} {asid : BitVec 8} : SweepKeeps (swWalk vpn asid) := by
  unfold swWalk
  dsimp only
  refine bind_sweepKeeps (swUse_sweepKeeps fun _ hm => walk_canon hm) fun v => ?_
  split
  · exact bind_sweepKeeps (swMod_sweepKeeps fun _ hm => upd_canon hm) fun _ => pure_sweepKeeps
  · exact throw_sweepKeeps
  · exact throw_sweepKeeps
  · exact throw_sweepKeeps
theorem swPage_sweepKeeps {vpn : BitVec 14} {asid : BitVec 8} : SweepKeeps (swPage vpn asid) := by
  unfold swPage
  refine bind_sweepKeeps get_sweepKeeps fun m => ?_
  split
  · exact ite_sweepKeeps pure_sweepKeeps swWalk_sweepKeeps
  · exact swWalk_sweepKeeps
theorem swXlateOnce_sweepKeeps {s : Fin 8} {va : Nat} {rd wr : Bool} : SweepKeeps (swXlateOnce s va rd wr) := by
  unfold swXlateOnce
  dsimp only
  refine bind_sweepKeeps get_sweepKeeps fun m => bind_sweepKeeps swPage_sweepKeeps fun v => check_sweepKeeps throw_sweepKeeps fun u =>
    bind_sweepKeeps get_sweepKeeps fun m1 => bind_sweepKeeps get_sweepKeeps fun m2 => check_sweepKeeps throw_sweepKeeps fun u1 =>
    ite_sweepKeeps (bind_sweepKeeps (swUse_sweepKeeps fun _ hm => adWrite_canon hm) fun v1 => ?_) pure_sweepKeeps
  split
  · exact bind_sweepKeeps (swMod_sweepKeeps fun _ hm => upd_canon hm) fun _ => pure_sweepKeeps
  · exact bind_sweepKeeps (swMod_sweepKeeps fun _ hm => upd_canon hm) fun _ => pure_sweepKeeps
  · exact throw_sweepKeeps
theorem swXlateN_sweepKeeps {s : Fin 8} {va : Nat} {rd wr : Bool} {n : Nat} : SweepKeeps (swXlateN s va rd wr n) := by
  induction n with
  | zero => exact throw_sweepKeeps
  | succ n ih =>
    unfold swXlateN
    refine bind_sweepKeeps swXlateOnce_sweepKeeps fun v => ?_
    split
    · exact pure_sweepKeeps
    · exact ih
theorem swXlate_sweepKeeps {s : Fin 8} {va : Nat} {rd wr : Bool} : SweepKeeps (swXlate s va rd wr) := swXlateN_sweepKeeps
theorem sweepTry_canon {α : Type} {m : Mach} {w : SM α} (h : m.Canon) (hw : SweepKeeps w) : (m.sweepTry w).2.Canon := by
  unfold Mach.sweepTry
  dsimp only
  split
  · exact snd_canon ‹_› (sweep_canon h hw)
  · exact upd_canon (snd_canon ‹_› (sweep_canon h hw))
theorem physRead_canon {m : Mach} {ag : Agent} {a : Nat} (h : m.Canon) : (m.physRead ag a).2.Canon := by
  unfold Mach.physRead
  dsimp only
  split
  · exact nearFetch_canon h
  · exact turnRead_canon h
  · exact h
theorem swRead_sweepKeeps {s : Fin 8} {va : Nat} : SweepKeeps (swRead s va) :=
  bind_sweepKeeps swXlate_sweepKeeps fun _ => swUse_sweepKeeps fun _ hm => physRead_canon hm
theorem swWrite_sweepKeeps {s : Fin 8} {va : Nat} {v : Cell} : SweepKeeps (swWrite s va v) :=
  bind_sweepKeeps swXlate_sweepKeeps fun _ => swMod_sweepKeeps fun _ hm => cellStep_canon hm
theorem swSwap_sweepKeeps {s : Fin 8} {va : Nat} {v : Cell} : SweepKeeps (swSwap s va v) :=
  bind_sweepKeeps swXlate_sweepKeeps fun _ => swMod_sweepKeeps fun _ hm => cellStep_canon hm
theorem swWriteLine_sweepKeeps {s : Fin 8} {va : Nat} {vs : List Cell} : SweepKeeps (swWriteLine s va vs) := by
  unfold swWriteLine
  dsimp only
  refine bind_sweepKeeps swXlate_sweepKeeps fun v => swMod_sweepKeeps fun m hm => ?_
  split
  · exact nearStep_canon hm
  · exact memStep_canon hm
  · exact hm
theorem swListLen_sweepKeeps {s : Fin 8} {n i k : Nat} : SweepKeeps (swListLen s n i k) := by
  induction n generalizing i k with
  | zero => exact pure_sweepKeeps
  | succ n ih =>
    exact bind_sweepKeeps swRead_sweepKeeps fun _ => ite_sweepKeeps pure_sweepKeeps (ite_sweepKeeps ih pure_sweepKeeps)
theorem swExtent_sweepKeeps {s : Fin 8} {va stop : Nat} : SweepKeeps (swExtent s va stop) :=
  bind_sweepKeeps swRead_sweepKeeps fun _ =>
    ite_sweepKeeps pure_sweepKeeps (ite_sweepKeeps pure_sweepKeeps (bind_sweepKeeps swListLen_sweepKeeps fun _ => pure_sweepKeeps))
theorem swFindIn_sweepKeeps {s : Fin 8} {a stop n n' : Nat} : SweepKeeps (swFindIn s a stop n n') := by
  induction n generalizing n' with
  | zero => exact pure_sweepKeeps
  | succ n ih =>
    exact ite_sweepKeeps pure_sweepKeeps (bind_sweepKeeps swExtent_sweepKeeps fun _ => ite_sweepKeeps pure_sweepKeeps ih)
theorem fillStep_canon {m : Mach} {t : Fin 8} {r : Reservation} (h : m.Canon) : (m.fillStep t r).2.Canon := by
  unfold Mach.fillStep
  dsimp only
  split
  · exact setThr_canon (snd_canon ‹_› (sweepTry_canon h swWriteLine_sweepKeeps))
  · exact setThr_canon (snd_canon ‹_› (sweepTry_canon h swWriteLine_sweepKeeps))

/-! ### Events -/

theorem selectEvent_canon {m m' : Mach} {t : Fin 8} {e : Entry} (h : m.Canon) (he : m.selectEvent t = some (e, m')) : m'.Canon := by
  unfold Mach.selectEvent at he
  dsimp only at he
  split at he
  · obtain ⟨-, rfl⟩ := Prod.mk.inj (Option.some.inj he)
    exact setThr_canon h
  · split at he
    · nomatch he
    · have hb := ite_canon (c := (m.thr t).mask?.isSome) (bumpT_canon (t := t) (e := 4 + t.val % 4) h) h
      split at he
      · obtain ⟨-, rfl⟩ := Prod.mk.inj (Option.some.inj he)
        exact setThr_canon hb
      · obtain ⟨-, rfl⟩ := Prod.mk.inj (Option.some.inj he)
        exact upd_canon (setThr_canon hb)
theorem handlerCell_canon {m : Mach} {t : Fin 8} {v : Nat} (h : m.Canon) : (m.handlerCell t v).2.Canon := tableRead_canon h
theorem asStep_keeps {α : Type} {cause : Exit → BitVec 4} {w : IM α} (hw : Keeps w) : Keeps (asStep cause w) := by
  unfold asStep
  refine tryCatch_keeps hw fun v => ?_
  split
  · exact throw_keeps
  · exact throw_keeps
theorem handlerEntry_keeps {h : Cell} : Keeps (handlerEntry h) :=
  check_keeps throw_keeps fun _ => bind_keeps (asStep_keeps (bind_keeps xlateAs_keeps fun _ => pure_keeps)) fun _ =>
    asStep_keeps codeEntry_keeps
theorem asPush_keeps {α : Type} {w : IM α} (hw : Keeps w) : Keeps (asPush w) := asStep_keeps hw
theorem asSupervisor_canon {α : Type} {m : Mach} {t : Fin 8} {w : IM α} (h : m.Canon) (hw : Keeps w) : (m.asSupervisor t w).2.Canon := by
  unfold Mach.asSupervisor
  dsimp only
  split
  · exact setThr_canon (runAt_canon (setThr_canon h) hw)
  · exact setThr_canon (runAt_canon (setThr_canon h) hw)
theorem entryRecord_canon {m : Mach} {t : Fin 8} {e : Entry} {failed : Bool} (h : m.Canon) : (m.entryRecord t e failed).Canon :=
  ite_canon (reportControl_canon h) h
theorem entryFails_canon {m : Mach} {t : Fin 8} {e : Entry} {cause : BitVec 4} {access : Nat} (h : m.Canon) :
    (m.entryFails t e cause access).Canon := lockup_canon (entryRecord_canon h)
theorem entryWords_canon {m m' : Mach} {t : Fin 8} {e : Entry} {shadow : Bool} (h : m.Canon) (he : m.entryWords t e shadow = some m') :
    m'.Canon := by
  unfold Mach.entryWords at he
  split at he
  · cases he
    exact entryFails_canon h
  · split at he
    · cases he
      exact lockup_canon (reportControl_canon h)
    · nomatch he
theorem countEntry_canon {m : Mach} {t : Fin 8} {e : Entry} {shadow : Bool} (h : m.Canon) : (m.countEntry t e shadow).Canon :=
  ite_canon (bumpT_canon
    (ite_canon (bumpT_canon (bumpT_canon (bumpT_canon (bumpT_canon (upd_canon h)))))
    (bumpT_canon (bumpT_canon (bumpT_canon (upd_canon h))))))
    (ite_canon (bumpT_canon (bumpT_canon (bumpT_canon (bumpT_canon (upd_canon h)))))
    (bumpT_canon (bumpT_canon (bumpT_canon (upd_canon h)))))
theorem enterStack_canon {m : Mach} {t : Fin 8} {e : Entry} (h : m.Canon) : (m.enterStack t e).Canon := by
  unfold Mach.enterStack
  split
  next hw => exact entryWords_canon h hw
  · refine ite_canon (entryFails_canon h) (ite_canon (entryFails_canon (handlerCell_canon h)) ?_)
    dsimp only
    split
    all_goals
      have hm := snd_canon ‹_› (asSupervisor_canon (handlerCell_canon h) (retrying_keeps (bind_keeps handlerEntry_keeps fun _ =>
        bind_keeps (asPush_keeps xlateCells_keeps) fun _ => bind_keeps (asPush_keeps pushCells_keeps) fun _ => pure_keeps)))
    · exact entryFails_canon hm
    · exact setThr_canon (countEntry_canon (entryRecord_canon hm))
theorem enterShadow_canon {m : Mach} {t : Fin 8} {e : Entry} (h : m.Canon) : (m.enterShadow t e).Canon := by
  unfold Mach.enterShadow
  split
  next hw => exact entryWords_canon h hw
  · refine ite_canon (entryFails_canon (handlerCell_canon h)) ?_
    dsimp only
    split
    all_goals
      have hm := snd_canon ‹_› (asSupervisor_canon (handlerCell_canon h) (retrying_keeps (bind_keeps handlerEntry_keeps fun _ =>
        bind_keeps (asPush_keeps commit_keeps) fun _ => pure_keeps)))
    · exact entryFails_canon hm
    · exact setThr_canon (countEntry_canon (entryRecord_canon hm))
theorem eventEntryStack_canon {m : Mach} {t : Fin 8} (h : m.Canon) : (m.eventEntryStack t).Canon := by
  unfold Mach.eventEntryStack
  refine ite_canon h ?_
  split
  · exact h
  next e => exact ite_canon h (enterStack_canon (selectEvent_canon h e))
theorem eventEntryShadow_canon {m : Mach} {t : Fin 8} (h : m.Canon) : (m.eventEntryShadow t).Canon := by
  unfold Mach.eventEntryShadow
  refine ite_canon h ?_
  split
  · exact h
  next e => exact ite_canon (enterShadow_canon (selectEvent_canon h e)) h
theorem reteFail_keeps {α : Type} {code : Nat} : Keeps (reteFail code : IM α) := fault_keeps
theorem frameRead_keeps {f : VAddr} {n n' : Nat} : Keeps (frameRead f n n') := by
  induction n' generalizing n with
  | zero => exact pure_keeps
  | succ n ih =>
    exact bind_keeps (tryCatch_keeps readAt_keeps fun _ => throw_keeps) fun _ => check_keeps reteFail_keeps fun _ =>
      bind_keeps loadBarrier_keeps fun _ => bind_keeps ih fun _ => pure_keeps
theorem postAll_keeps {xs : List (Cell × Healing)} : Keeps (postAll xs) := by
  induction xs with
  | nil => exact pure_keeps
  | cons x r ih => exact bind_keeps postHeal_keeps fun _ => ih
theorem reteStack_keeps {f : VAddr} : Keeps (reteStack f) :=
  bind_keeps getT_keeps fun _ => bind_keeps frameRead_keeps fun _ =>
    ite_keeps (bind_keeps pure_keeps fun _ => check_keeps reteFail_keeps fun _ => check_keeps reteFail_keeps fun _ =>
    check_keeps reteFail_keeps fun _ => bind_keeps commit_keeps fun _ => bind_keeps postAll_keeps fun _ =>
    bind_keeps postAll_keeps fun _ => bind_keeps modT_keeps fun _ => pure_keeps)
    (bind_keeps frameRead_keeps fun _ => check_keeps reteFail_keeps fun _ => check_keeps reteFail_keeps fun _ =>
    check_keeps reteFail_keeps fun _ => bind_keeps commit_keeps fun _ => bind_keeps postAll_keeps fun _ =>
    bind_keeps postAll_keeps fun _ => bind_keeps modT_keeps fun _ => pure_keeps)
theorem reteShadow_keeps : Keeps reteShadow := by
  unfold reteShadow
  dsimp only
  refine bind_keeps getT_keeps fun v =>
    ite_keeps (bind_keeps pure_keeps fun _ => bind_keeps commit_keeps fun _ => bind_keeps postAll_keeps fun _ =>
    bind_keeps modT_keeps fun _ => pure_keeps) ?_
  split
  · exact bind_keeps frameRead_keeps fun _ => bind_keeps commit_keeps fun _ => bind_keeps postAll_keeps fun _ =>
      bind_keeps modT_keeps fun _ => pure_keeps
  · exact bind_keeps reteFail_keeps fun _ => bind_keeps commit_keeps fun _ => bind_keeps postAll_keeps fun _ =>
      bind_keeps modT_keeps fun _ => pure_keeps
theorem stalemate_canon {m : Mach} (h : m.Canon) : m.stalemate.Canon := ite_canon (raise_canon (upd_canon h)) h
theorem heal_canon {m : Mach} (h : m.Canon) : m.heal.Canon := by
  unfold Mach.heal
  dsimp only
  split
  · exact h
  · exact ite_canon
      (cellStep_canon (pushAll_canon (ite_canon (logStep_canon (physRead_canon (upd_canon h))) (physRead_canon (upd_canon h)))))
      (bump_canon (physRead_canon (upd_canon h)))
theorem healAll_canon {m : Mach} {n : Nat} (h : m.Canon) : (m.healAll n).Canon := by
  induction n generalizing m with
  | zero => exact h
  | succ n ih => exact ih (heal_canon h)
theorem prefetchArrival_canon {m : Mach} {k : Fin 2} {dc : Bool} (h : m.Canon) : (m.prefetchArrival k dc).Canon := by
  unfold Mach.prefetchArrival
  dsimp only
  split
  · exact h
  · exact ite_canon (setCache_canon h) (setCache_canon (setCache_canon h))

/-! ### System instructions and units -/

theorem tlbInvalidate_canon {m : Mach} {p : TlbEntry → Bool} (h : m.Canon) : (m.tlbInvalidate p).Canon :=
  upd_canon (setCore_canon (setCore_canon h))
theorem clearCaches_canon {m : Mach} {i d : Bool} (h : m.Canon) : (m.clearCaches i d).Canon := setCore_canon (setCore_canon h)
theorem clearStrides_canon {m : Mach} (h : m.Canon) : m.clearStrides.Canon := upd_canon h
theorem rangeDone_canon {m : Mach} (h : m.Canon) : m.rangeDone.Canon :=
  ite_canon h (raiseIf_canon (upd_canon (setCore_canon (setCore_canon h))))
theorem forwardOf_canon {m : Mach} {v : Cell} (h : m.Canon) : (m.forwardOf v).2.Canon := by
  unfold Mach.forwardOf
  dsimp only
  refine ite_snd_canon ?_ h
  split
  · exact snd_canon ‹_› (sweepTry_canon h swRead_sweepKeeps)
  · exact snd_canon ‹_› (sweepTry_canon h swRead_sweepKeeps)
theorem serveCell_canon {m : Mach} {v : Cell} (h : m.Canon) : (m.serveCell v).2.Canon := by
  unfold Mach.serveCell
  refine ite_snd_canon h ?_
  split
  · exact pushMark_canon h
  · split
    · exact snd_canon ‹_› (forwardOf_canon h)
    · exact snd_canon ‹_› (forwardOf_canon h)
  · exact h
theorem serveCells_canon {m : Mach} {xs : List Cell} (h : m.Canon) : (m.serveCells xs).2.Canon := by
  induction xs generalizing m with
  | nil => exact h
  | cons x r ih => exact ih (serveCell_canon h)
theorem rootRead_keeps {va : VAddr} : Keeps (rootRead va) :=
  bind_keeps xlateAs_keeps fun _ => bind_keeps commit_keeps fun _ => readCell_keeps
theorem rootWrite_keeps {va : VAddr} {w : Cell} : Keeps (rootWrite va w) :=
  bind_keeps xlateAs_keeps fun _ => bind_keeps commit_keeps fun _ => bind_keeps myCore_keeps fun _ => modM_keeps fun _ hm =>
    cellStep_canon hm
theorem serveFrame_keeps {f : VAddr} {n n' : Nat} : Keeps (serveFrame f n n') := by
  induction n' generalizing n with
  | zero => exact pure_keeps
  | succ n ih =>
    exact bind_keeps
      (tryCatch_keeps
      (bind_keeps (retrying_keeps rootRead_keeps) fun _ => bind_keeps (useM_keeps fun _ hm => serveCell_canon hm) fun _ =>
      ite_keeps (retrying_keeps rootWrite_keeps) pure_keeps) fun _ => modify_keeps fun _ => rfl) fun _ => ih
theorem serveRoot_canon {m : Mach} {t : Fin 8} (h : m.Canon) : (m.serveRoot t).Canon := by
  unfold Mach.serveRoot
  dsimp only
  refine setThr_canon (ite_canon ?_ h)
  split
  · exact run_canon (setThr_canon (serveCells_canon (serveCells_canon (serveCells_canon h)))) serveFrame_keeps
  · exact setThr_canon (serveCells_canon (serveCells_canon (serveCells_canon h)))
theorem leaveDoze_canon {m : Mach} (h : m.Canon) : m.leaveDoze.Canon := ite_canon (upd_canon h) h
theorem raiseRoots_canon {m : Mach} {xs : List (Fin 8)} (h : m.Canon) : (m.raiseRoots xs).Canon := by
  induction xs generalizing m with
  | nil => exact h
  | cons x r ih =>
    unfold Mach.raiseRoots
    dsimp only
    refine ih ?_
    split
    · exact h
    · exact setThr_canon h
    · exact serveRoot_canon (leaveDoze_canon h)

/-! ### The sweeper's cycle -/

theorem ovfAll_canon {m : Mach} {xs : List (Fin 8)} (h : m.Canon) : (m.ovfAll xs).Canon := by
  induction xs generalizing m with
  | nil => exact h
  | cons x r ih => exact ih (ite_canon (raiseIf_canon (setOvf_canon h)) h)
theorem logDrain_canon {m : Mach} (h : m.Canon) : m.logDrain.Canon :=
  ite_canon h (ite_canon (ovfAll_canon (upd_canon (upd_canon (nearFetch_canon h))))
    (ite_canon (writeCard_canon (upd_canon (nearFetch_canon h))) (upd_canon (nearFetch_canon h))))
theorem logDrainN_canon {m : Mach} {n : Nat} (h : m.Canon) : (m.logDrainN n).Canon := by
  induction n generalizing m with
  | zero => exact h
  | succ n ih => exact ih (logDrain_canon h)
theorem retirePitch_canon {m : Mach} {s t : Fin 8} (h : m.Canon) : (m.retirePitch s t).Canon := by
  unfold Mach.retirePitch
  dsimp only
  refine ite_canon ?_ h
  split
  · exact setPitch_canon (snd_canon ‹_› (sweepTry_canon h swWrite_sweepKeeps))
  · exact swError_canon (setPitch_canon (snd_canon ‹_› (sweepTry_canon h swWrite_sweepKeeps)))
theorem retireIn_canon {m : Mach} {s : Fin 8} {p : Nat → Bool} {xs : List (Fin 8)} (h : m.Canon) : (m.retireIn s p xs).Canon := by
  induction xs generalizing m with
  | nil => exact h
  | cons x r ih => exact unlessEnded_canon (ite_canon (retirePitch_canon h) h) fun _ hm => ih hm
theorem pitchRefill_canon {m : Mach} {s t : Fin 8} (h : m.Canon) : (m.pitchRefill s t).Canon := by
  unfold Mach.pitchRefill
  refine ite_canon h ?_
  split
  · exact bumpC_canon h
  · exact bumpC_canon (setPitch_canon (handOut_canon (retirePitch_canon h)))
theorem blackPitches_canon {m : Mach} {s : Fin 8} {xs : List (Fin 8)} (h : m.Canon) : (m.blackPitches s xs).Canon := by
  induction xs generalizing m with
  | nil => exact h
  | cons x r ih => exact unlessEnded_canon (ite_canon (blackRange_canon h) h) fun _ hm => ih hm
theorem beginRoots_canon {m : Mach} (h : m.Canon) : m.beginRoots.Canon :=
  ite_canon (healAll_canon (drainAll_canon h))
    (unlessEnded_canon (blackPitches_canon (upd_canon (healAll_canon (drainAll_canon h)))) fun _ hm => raiseRoots_canon hm)
theorem startCycle_canon {m : Mach} {s : Fin 8} {full : Bool} (h : m.Canon) : (m.startCycle s full).Canon :=
  ite_canon (beginRoots_canon (cycleCmd_canon h)) (cycleCmd_canon h)
theorem autoCycle_canon {m : Mach} (h : m.Canon) : m.autoCycle.Canon := by
  unfold Mach.autoCycle
  refine ite_canon h ?_
  split
  · exact h
  · exact beginRoots_canon (acceptCycle_canon h)
theorem swBlock_sweepKeeps {s : Fin 8} {stop n n' : Nat} : SweepKeeps (swBlock s stop n n') := by
  induction n generalizing n' with
  | zero => exact pure_sweepKeeps
  | succ n ih =>
    exact ite_sweepKeeps pure_sweepKeeps (bind_sweepKeeps swExtent_sweepKeeps fun _ => bind_sweepKeeps ih fun _ => pure_sweepKeeps)
theorem swTarget_sweepKeeps {s : Fin 8} {v : Cell} : SweepKeeps (swTarget s v) := by
  unfold swTarget
  dsimp only
  refine bind_sweepKeeps get_sweepKeeps fun m =>
    ite_sweepKeeps (bind_sweepKeeps swRead_sweepKeeps fun _ => pure_sweepKeeps) (ite_sweepKeeps pure_sweepKeeps (ite_sweepKeeps ?_ ?_))
  · refine bind_sweepKeeps swExtent_sweepKeeps fun v1 => bind_sweepKeeps pure_sweepKeeps fun v2 => ?_
    split
    · exact pure_sweepKeeps
    · exact bind_sweepKeeps swRead_sweepKeeps fun _ => pure_sweepKeeps
  · refine bind_sweepKeeps swFindIn_sweepKeeps fun v1 => ?_
    split
    · exact pure_sweepKeeps
    · exact bind_sweepKeeps swRead_sweepKeeps fun _ => pure_sweepKeeps
theorem cardsOf_canon {m : Mach} {s : Fin 8} {xs : List Nat} (h : m.Canon) : (m.cardsOf s xs).2.Canon := by
  induction xs generalizing m with
  | nil => exact h
  | cons x r ih => exact ih (physRead_canon h)
theorem beginMark_canon {m : Mach} (h : m.Canon) : m.beginMark.Canon := by
  refine ite_canon (upd_canon h) ?_
  split
  · exact upd_canon (cardsOf_canon (logDrainN_canon (upd_canon h)))
  · exact cardsOf_canon (logDrainN_canon (upd_canon h))
theorem takeEntry_canon {m : Mach} {v : Cell} (h : m.Canon) : (m.takeEntry v).Canon := by
  unfold Mach.takeEntry
  dsimp only
  refine ite_canon h ?_
  split
  · exact swError_canon (snd_canon ‹_› (sweepTry_canon h swTarget_sweepKeeps))
  · exact snd_canon ‹_› (sweepTry_canon h swTarget_sweepKeeps)
  · have hm := snd_canon ‹_› (sweepTry_canon h swTarget_sweepKeeps)
    exact ite_canon hm
      (ite_canon (upd_canon (bumpC_canon (addLive_canon (setMark_canon hm)))) (bumpC_canon (addLive_canon (setMark_canon hm))))
theorem scanCell_canon {m : Mach} {st n : Nat} {rest : List Work} (h : m.Canon) : (m.scanCell st n rest).Canon := by
  unfold Mach.scanCell
  dsimp only
  split
  · exact swError_canon (snd_canon ‹_› (sweepTry_canon (upd_canon h) swRead_sweepKeeps))
  · exact pushAll_canon (snd_canon ‹_› (sweepTry_canon (upd_canon h) swRead_sweepKeeps))
theorem unspill_canon {m : Mach} (h : m.Canon) : m.unspill.Canon := upd_canon (turnRead_canon h)
theorem markUnit_canon {m : Mach} (h : m.Canon) : m.markUnit.Canon := by
  unfold Mach.markUnit
  dsimp only
  split
  · exact scanCell_canon h
  · exact upd_canon h
  · split
    · exact takeEntry_canon (upd_canon h)
    · exact ite_canon (unspill_canon h) h
theorem selectPhase_canon {m : Mach} (h : m.Canon) : m.selectPhase.Canon := by
  unfold Mach.selectPhase
  dsimp only
  refine unlessEnded_canon (setRegions_canon (upd_canon h)) fun m1 hm => ?_
  split
  · exact swAbandon_canon hm
  · exact unlessEnded_canon (setRegions_canon hm) fun _ hm1 => unlessEnded_canon (setRegions_canon hm1) fun _ hm2 =>
      unlessEnded_canon (retireIn_canon hm2) fun _ hm3 => upd_canon (setSlot_canon hm3)
theorem markEnd_canon {m : Mach} (h : m.Canon) : m.markEnd.Canon := ite_canon (selectPhase_canon h) h
theorem findTodo_canon {m : Mach} {xs : List Work} (h : m.Canon) : (m.findTodo xs).Canon := by
  induction xs generalizing m with
  | nil => exact upd_canon h
  | cons x r ih =>
    cases x
    case block b i =>
      unfold Mach.findTodo
      dsimp only
      split
      next e => exact swError_canon (snd_canon e (sweepTry_canon h swBlock_sweepKeeps))
      next e =>
        have hm := snd_canon e (sweepTry_canon h swBlock_sweepKeeps)
        exact ite_canon (ih hm) (upd_canon hm)
    all_goals exact ih h
theorem closeBlock_canon {m : Mach} (h : m.Canon) : m.closeBlock.Canon := by
  unfold Mach.closeBlock
  dsimp only
  refine ite_canon ?_ h
  split
  · exact snd_canon ‹_› (sweepTry_canon h swWrite_sweepKeeps)
  · exact swError_canon (snd_canon ‹_› (sweepTry_canon h swWrite_sweepKeeps))
theorem placeCopy_canon {m : Mach} {src n : Nat} (h : m.Canon) : (m.placeCopy src n).Canon := by
  unfold Mach.placeCopy
  dsimp only
  refine upd_canon (ite_canon h ?_)
  split
  · exact closeBlock_canon h
  · exact upd_canon (closeBlock_canon h)
theorem copyCell_canon {m : Mach} {j : CopyJob} (h : m.Canon) : (m.copyCell j).Canon := by
  unfold Mach.copyCell
  dsimp only
  split
  all_goals
    have hm := snd_canon ‹_› (sweepTry_canon h (bind_sweepKeeps swRead_sweepKeeps fun _ =>
      bind_sweepKeeps swWrite_sweepKeeps fun _ => pure_sweepKeeps))
  · exact swError_canon hm
  · refine unlessEnded_canon (ite_canon (writeCard_canon hm) hm) fun m1 hm1 => ?_
    split
    next e => exact swError_canon (snd_canon e (sweepTry_canon hm1 swSwap_sweepKeeps))
    next e =>
      have hm2 := snd_canon e (sweepTry_canon hm1 swSwap_sweepKeeps)
      exact ite_canon (upd_canon (bumpC_canon hm2)) (upd_canon (setMark_canon (bumpC_canon hm2)))
theorem copyUnit_canon {m : Mach} (h : m.Canon) : m.copyUnit.Canon := by
  unfold Mach.copyUnit
  dsimp only
  refine ite_canon h ?_
  split
  · exact copyCell_canon h
  · split
    · exact ite_canon (findTodo_canon h) h
    · split
      · exact copyCell_canon (placeCopy_canon (upd_canon (ite_canon (findTodo_canon h) h)))
      · exact placeCopy_canon (upd_canon (ite_canon (findTodo_canon h) h))
theorem closeBlocks_canon {m : Mach} {used : Nat → Bool} {xs : List Nat} (h : m.Canon) : (m.closeBlocks used xs).Canon := by
  induction xs generalizing m with
  | nil => exact h
  | cons x r ih =>
    unfold Mach.closeBlocks
    dsimp only
    refine unlessEnded_canon (ite_canon ?_ h) fun _ hm => ih hm
    split
    · exact snd_canon ‹_› (sweepTry_canon h swWrite_sweepKeeps)
    · exact swError_canon (snd_canon ‹_› (sweepTry_canon h swWrite_sweepKeeps))
theorem evacuateEnd_canon {m : Mach} (h : m.Canon) : m.evacuateEnd.Canon :=
  ite_canon h (ite_canon (findTodo_canon h)
    (unlessEnded_canon (closeBlock_canon (findTodo_canon h)) fun _ hm => unlessEnded_canon (closeBlocks_canon hm) fun _ hm1 =>
    raiseRoots_canon (upd_canon hm1)))
theorem swFix_sweepKeeps {s : Fin 8} {va : Nat} : SweepKeeps (swFix s va) :=
  bind_sweepKeeps swRead_sweepKeeps fun _ => bind_sweepKeeps get_sweepKeeps fun _ =>
    ite_sweepKeeps (bind_sweepKeeps swRead_sweepKeeps fun _ => ite_sweepKeeps swSwap_sweepKeeps pure_sweepKeeps) pure_sweepKeeps
theorem swFixCard_sweepKeeps {s : Fin 8} {n n' : Nat} : SweepKeeps (swFixCard s n n') := by
  induction n generalizing n' with
  | zero => exact pure_sweepKeeps
  | succ n ih =>
    exact bind_sweepKeeps swFix_sweepKeeps fun _ => bind_sweepKeeps swRead_sweepKeeps fun _ => bind_sweepKeeps get_sweepKeeps fun _ =>
      bind_sweepKeeps ih fun _ => pure_sweepKeeps
theorem beginFix_canon {m : Mach} (h : m.Canon) : m.beginFix.Canon :=
  unlessEnded_canon (ite_snd_canon (logDrainN_canon h) (cardsOf_canon (logDrainN_canon h))) fun _ hm => upd_canon hm
theorem takeWhole_canon {m : Mach} (h : m.Canon) : m.takeWhole.Canon := upd_canon h
theorem fixUnit_canon {m : Mach} (h : m.Canon) : m.fixUnit.Canon := by
  unfold Mach.fixUnit
  dsimp only
  split
  · exact ite_canon (takeWhole_canon h) h
  · split
    · split
      · exact swError_canon (snd_canon ‹_› (sweepTry_canon (upd_canon h) swFix_sweepKeeps))
      · have hm := snd_canon ‹_› (sweepTry_canon (upd_canon h) swFix_sweepKeeps)
        exact ite_canon hm (unlessEnded_canon hm fun _ hm1 => upd_canon hm1)
    · split
      · exact swError_canon (snd_canon ‹_› (sweepTry_canon (upd_canon h) swFixCard_sweepKeeps))
      · exact writeCard_canon (snd_canon ‹_› (sweepTry_canon (upd_canon h) swFixCard_sweepKeeps))
    · split
      · exact swError_canon (snd_canon ‹_› (sweepTry_canon (upd_canon h) swBlock_sweepKeeps))
      · exact unlessEnded_canon (snd_canon ‹_› (sweepTry_canon (upd_canon h) swBlock_sweepKeeps)) fun _ hm1 => upd_canon hm1
    · refine ite_canon (upd_canon h) ?_
      split
      · exact swError_canon (snd_canon ‹_› (sweepTry_canon (upd_canon h) swRead_sweepKeeps))
      · exact unlessEnded_canon (snd_canon ‹_› (sweepTry_canon (upd_canon h) swRead_sweepKeeps)) fun _ hm1 => upd_canon hm1
theorem fixupEnd_canon {m : Mach} (h : m.Canon) : m.fixupEnd.Canon :=
  ite_canon h (unlessEnded_canon (setRegions_canon h) fun _ hm => unlessEnded_canon (setRegions_canon hm) fun _ hm1 =>
    unlessEnded_canon (clearNew_canon hm1) fun _ hm2 => raiseIf_canon (upd_canon (bumpC_canon (setSlot_canon (clearMarks_canon hm2)))))
theorem sweepUnit_canon {m : Mach} (h : m.Canon) : m.sweepUnit.Canon := by
  unfold Mach.sweepUnit
  dsimp only
  split
  · exact ite_canon (beginRoots_canon h) (logDrain_canon h)
  · exact ite_canon (logDrain_canon h) (beginMark_canon h)
  · exact ite_canon (logDrain_canon h) (markUnit_canon h)
  · exact ite_canon (copyUnit_canon h) (logDrain_canon h)
  · exact ite_canon (logDrain_canon h) (ite_canon (beginFix_canon h) (ite_canon (logDrain_canon h) (fixUnit_canon h)))
  · exact logDrain_canon h
theorem portLine_canon {m : Mach} {l : Nat} (h : m.Canon) : (m.portLine l).2.Canon :=
  ite_snd_canon (turnRead_canon h)
    (nearFetch_canon
    (nearFetch_canon
    (nearFetch_canon
    (nearFetch_canon
    (nearFetch_canon
    (nearFetch_canon
    (nearFetch_canon
    (nearFetch_canon
    (nearFetch_canon
    (nearFetch_canon
    (nearFetch_canon (nearFetch_canon (nearFetch_canon (nearFetch_canon (nearFetch_canon (nearFetch_canon h))))))))))))))))
theorem copyLineStep_canon {m : Mach} (h : m.Canon) : m.copyLineStep.Canon := upd_canon (sendMirror_canon (portLine_canon h))
theorem unitStep_canon {m : Mach} (h : m.Canon) : m.unitStep.Canon := ite_canon (tallyWrite_canon h) (ite_canon (copyLineStep_canon h) h)
theorem agentStep_canon {m : Mach} {v : Agent} (h : m.Canon) : (m.agentStep v).Canon := by
  unfold Mach.agentStep
  split
  · exact drainOne_canon h
  · exact drainOne_canon h
  · exact sweepUnit_canon h
  · exact unitStep_canon h
theorem grant_canon {m : Mach} (h : m.Canon) : m.grant.Canon := by
  unfold Mach.grant
  dsimp only
  refine ite_canon h ?_
  split
  · exact h
  · exact agentStep_canon (upd_canon h)

/-! ### Sleep and wake -/

theorem idleEntry_canon {m : Mach} {k : Fin 2} (h : m.Canon) : (m.idleEntry k).Canon :=
  ite_canon (ite_canon (setPower_canon (upd_canon h)) (upd_canon h)) h
theorem dropLookaside_canon {m : Mach} (h : m.Canon) : m.dropLookaside.Canon := setCore_canon (setCore_canon h)
theorem powerWays_canon {m : Mach} {p : Nat → Bool} (h : m.Canon) : (m.powerWays p).Canon :=
  clearStrides_canon (setCore_canon (setCore_canon h))
theorem fastWithin_canon {m : Mach} {xs : List (Fin 8)} (h : m.Canon) : (m.fastWithin xs).2.Canon := by
  induction xs generalizing m with
  | nil => exact h
  | cons x r ih => exact ih (ite_snd_canon (sq_canon h) h)
theorem enterSelfRefresh_canon {m : Mach} (h : m.Canon) : m.enterSelfRefresh.Canon := upd_canon h
theorem leaveSelfRefresh_canon {m : Mach} (h : m.Canon) : m.leaveSelfRefresh.Canon :=
  ite_canon (upd_canon (ite_canon (doRefresh_canon (ite_canon (doRefresh_canon h) h)) (ite_canon (doRefresh_canon h) h))) h
theorem toRun_canon {m : Mach} (h : m.Canon) : m.toRun.Canon := upd_canon (leaveSelfRefresh_canon (bumpIf_canon h))
theorem dozeEntry_canon {m : Mach} (h : m.Canon) : m.dozeEntry.Canon :=
  ite_canon (ite_canon (toRun_canon (drainAll_canon (ite_canon (fastWithin_canon h) h)))
    (bumpBy_canon (bumpC_canon (setPower_canon (powerWays_canon (drainAll_canon (ite_canon (fastWithin_canon h) h)))))))
    (ite_canon (fastWithin_canon h) h)
theorem sleepEntry_canon {m : Mach} (h : m.Canon) : m.sleepEntry.Canon :=
  ite_canon (ite_canon (toRun_canon (tallyDrain_canon h))
    (enterSelfRefresh_canon (bumpBy_canon (bumpC_canon (setPower_canon (dropLookaside_canon (powerWays_canon (tallyDrain_canon h)))))))) h
theorem wakeUp_canon {m : Mach} (h : m.Canon) : m.wakeUp.Canon := ite_canon (toRun_canon h) h
theorem preWakeUp_canon {m : Mach} (h : m.Canon) : m.preWakeUp.Canon := ite_canon (upd_canon (leaveSelfRefresh_canon (bumpC_canon h))) h

/-! ### Checking -/

theorem checkHalt_canon {m : Mach} {cls : BitVec 6} {core : BitVec 1} {mech : BitVec 3} {unit : BitVec 4} (h : m.Canon) :
    (m.checkHalt cls core mech unit).Canon := report_canon (halt_canon (sq_canon h))
theorem signature_canon {m : Mach} {k : Fin 2} {same : Bool} (h : m.Canon) : (m.signature k same).Canon :=
  ite_canon (ite_canon (bumpC_canon h) (checkHalt_canon (bumpC_canon h))) h

/-! ### Context saves -/

theorem crateAt_keeps {p : Cell} {need : Need} : Keeps (crateAt p need) :=
  check_keeps faultTY_keeps fun _ => bind_keeps xlateAs_keeps fun _ => bind_keeps (modify_keeps fun _ => rfl) fun _ =>
    check_keeps faultTY_keeps fun _ => bind_keeps readCell_keeps fun _ => check_keeps faultTY_keeps fun _ => pure_keeps
theorem crateCell_keeps {v : Xl} {i : Nat} : Keeps (crateCell v i) := readCell_keeps
theorem crateWrite_keeps {a : VAddr} {v : Xl} {n : Nat} {xs : List Cell} : Keeps (crateWrite a v n xs) := by
  induction xs generalizing n with
  | nil => exact pure_keeps
  | cons x r ih => exact bind_keeps barrierStore_keeps fun _ => ih
theorem drainMine_keeps : Keeps drainMine := bind_keeps me_keeps fun _ => modM_keeps fun _ hm => drainThread_canon hm
theorem setChain_keeps {v : Cell} : Keeps (setChain v) := modT_keeps
theorem saveHalf_keeps {half : Nat} {cells : Thread → List Cell} {fillFirst : IM Unit} (hw : Keeps fillFirst) :
    Keeps (saveHalf half cells fillFirst) :=
  bind_keeps me_keeps fun _ => bind_keeps getM_keeps fun _ => check_keeps fault_keeps fun _ => bind_keeps crateAt_keeps fun _ =>
    bind_keeps crateCell_keeps fun _ => bind_keeps get_keeps fun _ => bind_keeps (modify_keeps fun _ => rfl) fun _ =>
    bind_keeps hw fun _ => bind_keeps (modify_keeps fun _ => rfl) fun _ => bind_keeps commit_keeps fun _ =>
    bind_keeps drainMine_keeps fun _ => bind_keeps (modM_keeps fun _ hm => upd_canon hm) fun _ => bind_keeps getT_keeps fun _ =>
    bind_keeps crateWrite_keeps fun _ => bind_keeps crateWrite_keeps fun _ => bind_keeps setChain_keeps fun _ => pure_keeps
theorem noShadow_keeps : Keeps noShadow := bind_keeps getT_keeps fun _ => ite_keeps faultIL_keeps pure_keeps
theorem chainCrate_keeps {half : Bool} : Keeps (chainCrate half) :=
  bind_keeps getT_keeps fun _ => bind_keeps crateAt_keeps fun _ => bind_keeps crateCell_keeps fun _ => check_keeps faultTY_keeps fun _ =>
    pure_keeps
theorem savedCells_keeps {a : VAddr} {v : Xl} {n n' : Nat} : Keeps (savedCells a v n n') := by
  induction n' generalizing n with
  | zero => exact pure_keeps
  | succ n ih =>
    exact bind_keeps crateCell_keeps fun _ => bind_keeps loadBarrier_keeps fun _ => bind_keeps ih fun _ => pure_keeps
theorem postHeals_keeps {xs : List (Cell × Healing)} : Keeps (postHeals xs) := by
  induction xs with
  | nil => exact pure_keeps
  | cons x r ih => exact bind_keeps postHeal_keeps fun _ => ih
theorem popCrate_keeps {a : VAddr} {v : Xl} : Keeps (popCrate a v) :=
  bind_keeps crateCell_keeps fun _ => bind_keeps crateWrite_keeps fun _ => bind_keeps drainMine_keeps fun _ =>
    bind_keeps getM_keeps fun _ => bind_keeps crateWrite_keeps fun _ => bind_keeps drainMine_keeps fun _ =>
    bind_keeps (modM_keeps fun _ hm => upd_canon hm) fun _ => setChain_keeps
theorem control_keeps {v : Cell} {ok : Bool} : Keeps (control v ok) :=
  check_keeps faultPO_keeps fun _ => ite_keeps faultTY_keeps pure_keeps

/-! ### Control instructions -/

theorem wBranch_keeps {d : Reg} {off : BitVec 11} {onNil : Bool} : Keeps (wBranch d off onNil) :=
  bind_keeps operand_keeps fun _ => bind_keeps commit_keeps fun _ => ite_keeps (bind_keeps getT_keeps fun _ => pure_keeps) pure_keeps
theorem readAttrs_canon {m : Mach} {k : Fin 2} {b v n : Nat} (h : m.Canon) : (m.readAttrs k b v n).2.Canon := by
  induction n generalizing m v with
  | zero => exact h
  | succ n ih =>
    unfold Mach.readAttrs
    dsimp only
    refine ite_snd_canon ?_ (tableRead_canon h)
    split
    · exact snd_canon ‹_› (ih (tableRead_canon h))
    · exact snd_canon ‹_› (ih (tableRead_canon h))
theorem loadVbase_canon {m : Mach} {k : Fin 2} {p : Payload} (h : m.Canon) : (m.loadVbase k p).2.Canon := by
  unfold Mach.loadVbase
  dsimp only
  refine ite_snd_canon ?_ h
  split
  · exact upd_canon (snd_canon ‹_› (readAttrs_canon h))
  · exact snd_canon ‹_› (readAttrs_canon h)
theorem swForget_canon {m : Mach} (h : m.Canon) : m.swForget.Canon := upd_canon h
theorem sregWrite_canon {m : Mach} {t : Fin 8} {n : Nat} {v : Cell} (h : m.Canon) : (m.sregWrite t n v).Canon :=
  ite_canon (setThr_canon h)
    (ite_canon (setThr_canon h)
    (ite_canon (setThr_canon h)
    (ite_canon (setThr_canon h)
    (ite_canon (setThr_canon h)
    (ite_canon (setThr_canon h)
    (ite_canon (setThr_canon h)
    (ite_canon (setThr_canon h)
    (ite_canon (setThr_canon h)
    (ite_canon (setThr_canon h)
    (ite_canon (setThr_canon h)
    (ite_canon (upd_canon h)
    (ite_canon (swForget_canon (upd_canon h))
    (ite_canon (swForget_canon (upd_canon h))
    (ite_canon (swForget_canon (upd_canon h)) (ite_canon (upd_canon h) (ite_canon (upd_canon h) h))))))))))))))))
theorem wMts_keeps {t : Fin 8} {d : Reg} {n : Nat} : Keeps (wMts t d n) := by
  unfold wMts
  dsimp only
  split
  · exact faultIL_keeps
  · exact check_keeps faultIL_keeps fun _ => bind_keeps getT_keeps fun _ => check_keeps fault_keeps fun _ =>
      bind_keeps getT_keeps fun _ => check_keeps faultPO_keeps fun _ => check_keeps throw_keeps fun _ =>
      check_keeps faultTY_keeps fun _ =>
      ite_keeps (bind_keeps (useM_keeps fun _ hm => loadVbase_canon hm) fun _ => check_keeps faultOR_keeps fun _ =>
      bind_keeps commit_keeps fun _ => pure_keeps)
      (check_keeps faultOR_keeps fun _ => bind_keeps commit_keeps fun _ =>
      bind_keeps (modM_keeps fun _ hm => sregWrite_canon hm) fun _ => pure_keeps)

/-! ### Generic arithmetic -/

theorem genCheck_keeps {code : Nat} {v : Cell} : Keeps (genCheck code v) :=
  check_keeps faultPO_keeps fun _ => ite_keeps throw_keeps pure_keeps
theorem genDispatch_keeps {v y : Cell} : Keeps (genDispatch v y) :=
  bind_keeps genCheck_keeps fun _ => bind_keeps genCheck_keeps fun _ => check_keeps faultTY_keeps fun _ =>
    check_keeps faultTY_keeps fun _ => ite_keeps throw_keeps pure_keeps
theorem boxBody_keeps {p : Cell} {k : Nat} : Keeps (boxBody p k) :=
  bind_keeps readAt_keeps fun _ => bind_keeps checkLoaded_keeps fun _ => pure_keeps
theorem numVal_keeps {v : Cell} : Keeps (numVal v) :=
  ite_keeps pure_keeps
    (ite_keeps pure_keeps
    (bind_keeps headerOf_keeps fun _ => bind_keeps boxBody_keeps fun _ => bind_keeps boxBody_keeps fun _ =>
    ite_keeps pure_keeps pure_keeps))
theorem deliverS_keeps {d : Reg} {f : Fl} : Keeps (deliverS d f) :=
  bind_keeps commit_keeps fun _ => bind_keeps setD_keeps fun _ => pure_keeps
theorem deliverF_keeps {d : Reg} {f : Fl} : Keeps (deliverF d f) :=
  bind_keeps allocObject_keeps fun _ => bind_keeps me_keeps fun _ => bind_keeps (modM_keeps fun _ hm => bumpT_canon hm) fun _ =>
    bind_keeps setD_keeps fun _ => pure_keeps
theorem wArith_keeps {d : Reg} {v y : Cell} {fi : ℤ → ℤ → ℤ} {ff : Fl → Fl → Fl} : Keeps (wArith d v y fi ff) := by
  unfold wArith
  refine bind_keeps genDispatch_keeps fun v1 => bind_keeps numVal_keeps fun v2 => bind_keeps numVal_keeps fun v3 => ?_
  split
  · exact deliverInt_keeps
  · exact ite_keeps deliverF_keeps deliverS_keeps
theorem regCell_keeps {r : Reg} : Keeps (regCell r) := bind_keeps getT_keeps fun _ => pure_keeps
theorem needInt_keeps {u : Num} : Keeps (needInt u) := by
  unfold needInt
  split
  · exact pure_keeps
  · exact faultTY_keeps
theorem wQuo_keeps {d a b : Reg} {f : ℤ → ℤ → ℤ} : Keeps (wQuo d a b f) :=
  bind_keeps regCell_keeps fun _ => bind_keeps regCell_keeps fun _ => bind_keeps genDispatch_keeps fun _ =>
    check_keeps faultTY_keeps fun _ => check_keeps faultTY_keeps fun _ => check_keeps faultOR_keeps fun _ =>
    bind_keeps numVal_keeps fun _ => bind_keeps needInt_keeps fun _ => bind_keeps numVal_keeps fun _ => bind_keeps needInt_keeps fun _ =>
    check_keeps faultOR_keeps fun _ => deliverInt_keeps
theorem wCompare_keeps {d a b : Reg} {v : Bool} {fi : ℤ → ℤ → Bool} {ff : Fl → Fl → Bool} : Keeps (wCompare d a b v fi ff) :=
  bind_keeps regCell_keeps fun _ => bind_keeps regCell_keeps fun _ => bind_keeps genDispatch_keeps fun _ =>
    bind_keeps numVal_keeps fun _ => bind_keeps numVal_keeps fun _ => bind_keeps commit_keeps fun _ => bind_keeps setD_keeps fun _ =>
    pure_keeps
theorem wShort_keeps {d a b : Reg} {f : Fl → Fl → Fl} : Keeps (wShort d a b f) :=
  bind_keeps operand_keeps fun _ => bind_keeps operand_keeps fun _ => deliverS_keeps

/-! ### Loads and stores -/

theorem prefetchLine_canon {m : Mach} {th : Thread} {k : Fin 2} {va : VAddr} (h : m.Canon) : (m.prefetchLine th k va).2.Canon := by
  unfold Mach.prefetchLine
  dsimp only
  refine ite_snd_canon ?_ h
  split
  · exact snd_canon ‹_› (tlbLookup_canon h)
  · exact snd_canon ‹_› (tlbLookup_canon h)
theorem train_keeps {va : VAddr} {typ : BitVec 2} : Keeps (train va typ) := by
  unfold train
  dsimp only
  refine bind_keeps get_keeps fun v => ite_keeps (bind_keeps modT_keeps fun v1 => ?_) pure_keeps
  split
  · refine bind_keeps (useM_keeps fun _ hm => prefetchLine_canon hm) fun v2 => ?_
    split
    · exact modM_keeps fun _ hm => prefetch_canon hm
    · exact pure_keeps
  · exact pure_keeps
theorem deliverLoad_keeps {d : Reg} {r : Cell × VAddr × Xl} : Keeps (deliverLoad d r) :=
  bind_keeps loadBarrier_keeps fun _ => bind_keeps checkLoaded_keeps fun _ => bind_keeps commit_keeps fun _ =>
    bind_keeps postHeal_keeps fun _ => setD_keeps
theorem loadTarget_keeps {d : Reg} {tg : Target} : Keeps (loadTarget d tg) := by
  have hwin : ∀ (t : Fin 8) (k : Fin 2) (o : Nat), Keeps (useM fun m => ({ m with ch.proc.granted := coreAgent k }).winLoad t o) :=
    fun _ _ _ => useM_keeps fun _ hm => winLoad_canon (upd_canon hm)
  unfold loadTarget
  exact bind_keeps xlate_keeps fun _ => ite_keeps
    (bind_keeps me_keeps fun t => bind_keeps commit_keeps fun _ => bind_keeps (modM_keeps fun _ hm => drainThread_canon hm) fun _ =>
      bind_keeps myCore_keeps fun k => bind_keeps (hwin t k _) fun _ => setD_keeps)
    (bind_keeps readFwd_keeps fun _ => bind_keeps deliverLoad_keeps fun _ => train_keeps)
theorem storeTarget_keeps {tg : Target} {v : Cell} {always : Bool} : Keeps (storeTarget tg v always) :=
  bind_keeps xlate_keeps fun _ => bind_keeps commit_keeps fun _ => ite_keeps bufStore_keeps barrierStore_keeps
theorem stepWrite_keeps {va : VAddr} {v' : Xl} {old v : Cell} : Keeps (stepWrite va v' old v) :=
  bind_keeps get_keeps fun _ => bind_keeps stepActions_keeps fun _ => modM_keeps fun _ hm => cellStep_canon hm
theorem byteTarget_keeps {p : Cell} {i : ℤ} : Keeps (byteTarget p i) :=
  bind_keeps headerOf_keeps fun _ =>
    ite_keeps (bind_keeps readAt_keeps fun _ => check_keeps faultPO_keeps fun _ => check_keeps faultTY_keeps fun _ =>
    check_keeps faultOR_keeps fun _ => pure_keeps) (check_keeps faultTY_keeps fun _ => check_keeps faultOR_keeps fun _ => pure_keeps)
theorem byteMem_canon {m : Mach} {k : Fin 2} {a : Nat} {j : Fin 3} {b : Nat} (h : m.Canon) : (m.byteMem k a j b).2.Canon := by
  have h1 : Mach.Canon { m with ch.proc.granted := coreAgent k } := upd_canon h
  unfold Mach.byteMem
  generalize ({ m with ch.proc.granted := coreAgent k } : Mach) = m1 at h1 ⊢
  dsimp only
  split
  · exact pair_canon (reportUe_canon (setCache_canon (mirrorByte_canon (memPlace_canon h1))))
  · refine ite_snd_canon (ite_canon h1 (lineWrite_canon h1)) (ite_snd_canon (pair_canon h1) (ite_snd_canon (pair_canon h1) (pair_canon ?_)))
    exact ite_canon (reportCe_canon (mirrorByte_canon (memPlace_canon h1))) (mirrorByte_canon (memPlace_canon h1))
theorem byteNear_canon {m : Mach} {k : Fin 2} {a : Nat} {j : Fin 3} {b : Nat} (h : m.Canon) : (m.byteNear k a j b).2.Canon :=
  ite_snd_canon (nearFetch_canon (upd_canon h))
    (ite_snd_canon (nearFetch_canon (upd_canon h))
    (ite_snd_canon (nearFetch_canon (upd_canon h)) (mirrorByte_canon (nearStore_canon (nearFetch_canon (upd_canon h))))))
theorem byteStep_keeps {j : Fin 3} {b n : Nat} {x : Xl} : Keeps (byteStep j b n x) := by
  induction n generalizing x with
  | zero =>
    unfold byteStep
    refine bind_keeps me_keeps fun _ => bind_keeps (modM_keeps fun _ hm => drainThread_canon hm) fun _ =>
      bind_keeps (useM_keeps fun _ hm => ite_snd_canon (byteNear_canon hm) (byteMem_canon hm)) fun r => ?_
    cases r with
    | done => exact pure_keeps
    | poison => exact faultPO_keeps
    | reserved v => exact throw_keeps
    | fwd v => exact faultTY_keeps
  | succ n ih =>
    unfold byteStep
    refine bind_keeps me_keeps fun _ => bind_keeps (modM_keeps fun _ hm => drainThread_canon hm) fun _ =>
      bind_keeps (useM_keeps fun _ hm => ite_snd_canon (byteNear_canon hm) (byteMem_canon hm)) fun r => ?_
    cases r with
    | done => exact pure_keeps
    | poison => exact faultPO_keeps
    | reserved v => exact throw_keeps
    | fwd v => exact bind_keeps xlateLate_keeps fun _ => ih
theorem stackStore_keeps {va : VAddr} {v : Cell} : Keeps (stackStore va v) :=
  bind_keeps getT_keeps fun _ => check_keeps faultTY_keeps fun _ => bind_keeps xlate_keeps fun _ => bind_keeps commit_keeps fun _ =>
    barrierStore_keeps

/-! ### Lists -/

theorem placeLarge_canon {m : Mach} {t s : Fin 8} {size : Nat} {sel : BitVec 6} {first : Nat} (h : m.Canon) :
    (m.placeLarge t s size sel first).Canon := setThr_canon (setRegions_canon h)
theorem markLarge_canon {m : Mach} {r : Reservation} (h : m.Canon) : (m.markLarge r).Canon := ite_canon (setMark_canon h) h
theorem wAllocl_keeps {d a : Reg} {imm : BitVec 6} : Keeps (wAllocl d a imm) := by
  unfold wAllocl
  dsimp only
  refine check_keeps faultIL_keeps fun u => bind_keeps operand_keeps fun v => check_keeps faultOR_keeps fun u1 =>
    check_keeps faultOR_keeps fun u2 => bind_keeps get_keeps fun v1 => ite_keeps ?_ ?_
  · refine bind_keeps (modM_keeps fun _ hm => returnResv_canon hm) fun v2 => ?_
    split
    · refine bind_keeps faultAL_keeps fun v3 => bind_keeps getT_keeps fun v4 => ?_
      split
      · exact pure_keeps
      · refine bind_keeps (modM_keeps fun _ hm => markLarge_canon hm) fun v5 => ite_keeps ?_ ?_
        · refine bind_keeps (useM_keeps fun _ hm => fillStep_canon hm) fun v6 => ?_
          split
          · refine bind_keeps fault_keeps fun v6 => bind_keeps getT_keeps fun v7 => ?_
            split
            · exact pure_keeps
            · exact ite_keeps pure_keeps
                (bind_keeps commit_keeps fun _ => bind_keeps modT_keeps fun _ => bind_keeps setD_keeps fun _ => pure_keeps)
          · refine bind_keeps getT_keeps fun v6 => ?_
            split
            · exact pure_keeps
            · exact ite_keeps pure_keeps
                (bind_keeps commit_keeps fun _ => bind_keeps modT_keeps fun _ => bind_keeps setD_keeps fun _ => pure_keeps)
        · refine bind_keeps getT_keeps fun v6 => ?_
          split
          · exact pure_keeps
          · exact ite_keeps pure_keeps
              (bind_keeps commit_keeps fun _ => bind_keeps modT_keeps fun _ => bind_keeps setD_keeps fun _ => pure_keeps)
    · refine bind_keeps getM_keeps fun m => ?_
      split
      · refine bind_keeps faultAL_keeps fun v3 => bind_keeps getT_keeps fun v4 => ?_
        split
        · exact pure_keeps
        · refine bind_keeps (modM_keeps fun _ hm => markLarge_canon hm) fun v5 => ite_keeps ?_ ?_
          · refine bind_keeps (useM_keeps fun _ hm => fillStep_canon hm) fun v6 => ?_
            split
            · refine bind_keeps fault_keeps fun v6 => bind_keeps getT_keeps fun v7 => ?_
              split
              · exact pure_keeps
              · exact ite_keeps pure_keeps
                  (bind_keeps commit_keeps fun _ => bind_keeps modT_keeps fun _ => bind_keeps setD_keeps fun _ => pure_keeps)
            · refine bind_keeps getT_keeps fun v6 => ?_
              split
              · exact pure_keeps
              · exact ite_keeps pure_keeps
                  (bind_keeps commit_keeps fun _ => bind_keeps modT_keeps fun _ => bind_keeps setD_keeps fun _ => pure_keeps)
          · refine bind_keeps getT_keeps fun v6 => ?_
            split
            · exact pure_keeps
            · exact ite_keeps pure_keeps
                (bind_keeps commit_keeps fun _ => bind_keeps modT_keeps fun _ => bind_keeps setD_keeps fun _ => pure_keeps)
      · refine bind_keeps (modM_keeps fun _ hm => placeLarge_canon hm) fun v3 => bind_keeps getT_keeps fun v4 => ?_
        split
        · exact pure_keeps
        · refine bind_keeps (modM_keeps fun _ hm => markLarge_canon hm) fun v5 => ite_keeps ?_ ?_
          · refine bind_keeps (useM_keeps fun _ hm => fillStep_canon hm) fun v6 => ?_
            split
            · refine bind_keeps fault_keeps fun v6 => bind_keeps getT_keeps fun v7 => ?_
              split
              · exact pure_keeps
              · exact ite_keeps pure_keeps
                  (bind_keeps commit_keeps fun _ => bind_keeps modT_keeps fun _ => bind_keeps setD_keeps fun _ => pure_keeps)
            · refine bind_keeps getT_keeps fun v6 => ?_
              split
              · exact pure_keeps
              · exact ite_keeps pure_keeps
                  (bind_keeps commit_keeps fun _ => bind_keeps modT_keeps fun _ => bind_keeps setD_keeps fun _ => pure_keeps)
          · refine bind_keeps getT_keeps fun v6 => ?_
            split
            · exact pure_keeps
            · exact ite_keeps pure_keeps
                (bind_keeps commit_keeps fun _ => bind_keeps modT_keeps fun _ => bind_keeps setD_keeps fun _ => pure_keeps)
  · refine bind_keeps getT_keeps fun v2 => ?_
    split
    · exact pure_keeps
    · refine bind_keeps (modM_keeps fun _ hm => markLarge_canon hm) fun v3 => ite_keeps ?_ ?_
      · refine bind_keeps (useM_keeps fun _ hm => fillStep_canon hm) fun v4 => ?_
        split
        · refine bind_keeps fault_keeps fun v4 => bind_keeps getT_keeps fun v5 => ?_
          split
          · exact pure_keeps
          · exact ite_keeps pure_keeps
              (bind_keeps commit_keeps fun _ => bind_keeps modT_keeps fun _ => bind_keeps setD_keeps fun _ => pure_keeps)
        · refine bind_keeps getT_keeps fun v4 => ?_
          split
          · exact pure_keeps
          · exact ite_keeps pure_keeps
              (bind_keeps commit_keeps fun _ => bind_keeps modT_keeps fun _ => bind_keeps setD_keeps fun _ => pure_keeps)
      · refine bind_keeps getT_keeps fun v4 => ?_
        split
        · exact pure_keeps
        · exact ite_keeps pure_keeps
            (bind_keeps commit_keeps fun _ => bind_keeps modT_keeps fun _ => bind_keeps setD_keeps fun _ => pure_keeps)
theorem alloclBodyFill_canon {m : Mach} {t : Fin 8} (h : m.Canon) : (m.alloclBodyFill t).Canon := by
  unfold Mach.alloclBodyFill
  split
  · exact ite_canon (fillStep_canon h) h
  · exact h
theorem readLine_keeps {v : Xl} {n : Nat} : Keeps (readLine v n) := by
  induction n generalizing v with
  | zero => exact pure_keeps
  | succ n ih => exact bind_keeps readCell_keeps fun _ => bind_keeps ih fun _ => pure_keeps
theorem listOperand_keeps {a : Reg} : Keeps (listOperand a) :=
  bind_keeps operand_keeps fun _ => check_keeps faultTY_keeps fun _ => pure_keeps
theorem listCheck_keeps {v : Cell} : Keeps (listCheck v) := bind_keeps checkLoaded_keeps fun _ => ite_keeps faultTY_keeps pure_keeps
theorem listCell_keeps {p : Cell} : Keeps (listCell p) := bind_keeps readAt_keeps fun _ => bind_keeps listCheck_keeps fun _ => pure_keeps
theorem limitSource_keeps {v : Cell} {code : Nat} : Keeps (limitSource v code) :=
  bind_keeps getT_keeps fun _ => ite_keeps faultTY_keeps pure_keeps
theorem listSources_keeps {xs : List Nat} : Keeps (listSources xs) := by
  induction xs with
  | nil => exact pure_keeps
  | cons x r ih => exact bind_keeps operand_keeps fun _ => bind_keeps ih fun _ => pure_keeps
theorem limitSources_keeps {xs : List Cell} : Keeps (limitSources xs) := by
  induction xs with
  | nil => exact pure_keeps
  | cons x r ih => exact bind_keeps limitSource_keeps fun _ => ih
theorem installFwd_keeps {va : VAddr} {v : Xl} {old : Cell} {y : VAddr} : Keeps (installFwd va v old y) :=
  bind_keeps me_keeps fun _ => bind_keeps (modM_keeps fun _ hm => drainThread_canon hm) fun _ => bind_keeps stepWrite_keeps fun _ =>
    modM_keeps fun _ hm => bumpT_canon hm
theorem wMac_keeps {a b : Reg} {v sat : Bool} : Keeps (wMac a b v sat) :=
  bind_keeps operand_keeps fun _ => bind_keeps operand_keeps fun _ => bind_keeps commit_keeps fun _ => bind_keeps getT_keeps fun _ =>
    ite_keeps (bind_keeps modT_keeps fun _ => pure_keeps)
    (bind_keeps me_keeps fun _ => bind_keeps (modM_keeps fun _ hm => bumpT_canon hm) fun _ => bind_keeps modT_keeps fun _ =>
    ite_keeps pure_keeps throw_keeps)

/-! ### Moves and integer arithmetic -/

theorem issueCell_canon {m : Mach} {t : Fin 8} {w : Cell} (h : m.Canon) : (m.issueCell t w).Canon :=
  ite_canon h (ite_canon (finishIns_canon h)
    (ite_canon (ite_canon (issue_canon h (bind_keeps commit_keeps fun _ => pure_keeps)) h)
    (ite_canon (finishIns_canon h) (issue_canon h (bind_keeps commit_keeps fun _ => pure_keeps)))))
theorem wUnary_keeps {d a : Reg} {ok : BitVec 6 → Bool} {f : Cell → Cell} : Keeps (wUnary d a ok f) :=
  bind_keeps operand_keeps fun _ => bind_keeps commit_keeps fun _ => bind_keeps setD_keeps fun _ => pure_keeps
theorem deliverFix_keeps {d : Reg} {i : ℤ} : Keeps (deliverFix d i) :=
  check_keeps faultOV_keeps fun _ => bind_keeps commit_keeps fun _ => bind_keeps setD_keeps fun _ => pure_keeps
theorem wIntOp_keeps {d a b : Reg} {f : ℤ → ℤ → ℤ} : Keeps (wIntOp d a b f) :=
  bind_keeps operand_keeps fun _ => bind_keeps operand_keeps fun _ => deliverFix_keeps
theorem wBitOp_keeps {d a b : Reg} {f : Payload → Payload → Payload} : Keeps (wBitOp d a b f) :=
  bind_keeps bitsPair_keeps fun _ => bind_keeps commit_keeps fun _ => bind_keeps setD_keeps fun _ => pure_keeps
theorem wBitImm_keeps {d a : Reg} {f : Payload → Payload} : Keeps (wBitImm d a f) :=
  bind_keeps operand_keeps fun _ => bind_keeps commit_keeps fun _ => bind_keeps setD_keeps fun _ => pure_keeps
theorem wShift_keeps {d a b : Reg} {f : Payload → Nat → Payload} : Keeps (wShift d a b f) :=
  bind_keeps operand_keeps fun _ => bind_keeps operand_keeps fun _ => check_keeps faultOR_keeps fun _ => bind_keeps commit_keeps fun _ =>
    bind_keeps setD_keeps fun _ => pure_keeps

/-! ### Unit instructions -/

theorem flBlock_canon {m : Mach} {o : Nat} (h : m.Canon) : (m.flBlock o).2.Canon :=
  ite_snd_canon h
    (ite_snd_canon (nearFetch_canon (nearFetch_canon (nearFetch_canon (nearFetch_canon h))))
    (nearFetch_canon (nearFetch_canon (nearFetch_canon (nearFetch_canon h)))))
theorem flData_canon {m : Mach} {b : FlBlock} (h : m.Canon) : (m.flData b).2.Canon := by
  unfold Mach.flData
  exact iterN_snd_canon (f := fun o r => (r.1 ++ [cellPay (r.2.nearFetch o).1], (r.2.nearFetch o).2)) (fun _ _ hr => nearFetch_canon hr) h
theorem flStore_canon {m : Mach} {o : Nat} {xs : List Payload} (h : m.Canon) : (m.flStore o xs).Canon := by
  induction xs generalizing m o with
  | nil => exact h
  | cons x r ih => exact ih (cellStep_canon h)
theorem flxfer_canon {m : Mach} {b : FlBlock} {timedOut standbyFailed : Bool} {reply : List Byte} (h : m.Canon) :
    (m.flxfer b timedOut standbyFailed reply).2.Canon :=
  ite_snd_canon (ite_snd_canon h (flStore_canon h))
    (ite_canon (sendMirror_canon (ite_snd_canon (flData_canon h) h)) (ite_snd_canon (flData_canon h) h))
theorem physLines_canon {m : Mach} {k : Fin 2} {a n : Nat} {xs : List Cell} (h : m.Canon) : (m.physLines k a n xs).Canon := by
  induction n generalizing m a xs with
  | zero => exact h
  | succ n ih =>
    unfold Mach.physLines
    dsimp only
    refine ih ?_
    split
    · exact memStep_canon h
    · exact nearStep_canon h
    · exact h
theorem reachBoundaries_canon {m : Mach} {me : Fin 8} {xs : List (Fin 8)} (h : m.Canon) : (m.reachBoundaries me xs).Canon := by
  induction xs generalizing m with
  | nil => exact h
  | cons x r ih => exact ih (ite_canon (eventEntryShadow_canon (eventEntryStack_canon h)) h)
theorem fillAll_canon {m : Mach} {xs : List (Fin 8)} (h : m.Canon) : (m.fillAll xs).Canon := by
  induction xs generalizing m with
  | nil => exact h
  | cons x r ih =>
    unfold Mach.fillAll
    refine ih (ite_canon ?_ h)
    split
    · exact mid_canon ‹_› (runAt_canon h fillUpper_keeps)
    · exact lockup_canon (mid_canon ‹_› (runAt_canon h fillUpper_keeps))
theorem retireAll_canon {m : Mach} {xs : List (Fin 8)} (h : m.Canon) : (m.retireAll xs).Canon := by
  induction xs generalizing m with
  | nil => exact h
  | cons x r ih => exact ih (retireIn_canon h)
theorem returnAll_canon {m : Mach} {xs : List (Fin 8)} (h : m.Canon) : (m.returnAll xs).Canon := by
  induction xs generalizing m with
  | nil => exact h
  | cons x r ih => exact ih (returnResv_canon h)
theorem capture2_canon {m : Mach} {t : Fin 8} {d : Reg} (h : m.Canon) : (m.capture2 t d).Canon :=
  setPort_canon (sendMirror_canon (physLines_canon (drainAll_canon (returnAll_canon (retireAll_canon h)))))

/-! ### Pairs -/

theorem withdraw_canon {m : Mach} {kind : BitVec 4} : (m.withdraw kind).Canon := report_canon (mk_canon (canon_of_empty rfl rfl rfl))
theorem loseStandby_canon {m : Mach} {why : Nat} (h : m.Canon) : (m.loseStandby why).Canon :=
  raise_canon (report_canon (setPort_canon (request_canon (upd_canon h))))
theorem logUndo_canon {m : Mach} {xs : List Nat} (h : m.Canon) : (m.logUndo xs).Canon := by
  induction xs generalizing m with
  | nil => exact h
  | cons x r ih => exact ih (upd_canon h)
theorem logUndoIf_canon {m : Mach} {as : List Nat} (h : m.Canon) : (m.logUndoIf as).Canon := ite_canon (logUndo_canon h) h
theorem portWrite_canon {m : Mach} {l : Nat} {cells : NMap Cell} (h : m.Canon) : (m.portWrite l cells).Canon := by
  unfold Mach.portWrite
  dsimp only
  split
  · exact memStep_canon h
  · exact nearStep_canon h
  · exact h
theorem mergeByte_canon {m : Mach} {a : Nat} {j : Fin 3} {b : Byte} (h : m.Canon) : (m.mergeByte a j b).Canon := by
  unfold Mach.mergeByte
  dsimp only
  split
  · split
    · exact reportUe_canon (memStep_canon h)
    · exact ite_canon h (ite_canon (reportCe_canon (memStep_canon h)) (memStep_canon h))
  · exact ite_canon (nearFetch_canon h) (nearStep_canon (nearFetch_canon h))
  · exact h
theorem epochRecord_canon {m : Mach} (h : m.Canon) : m.epochRecord.Canon := ite_canon (request_canon (upd_canon h)) h
theorem commitHere_canon {m : Mach} {e : BitVec 24} {words : List (BitVec 11 × Cell)} (h : m.Canon) : (m.commitHere e words).Canon :=
  ite_canon (report_canon (request_canon (mk_canon (updChannel_canon (updChannel_canon (ch_canon h)))))) (epochRecord_canon (upd_canon h))
theorem applyRecord_canon {m : Mach} {v : MirrorRec} (h : m.Canon) : (m.applyRecord v).Canon := by
  unfold Mach.applyRecord
  dsimp only
  split
  · exact portWrite_canon (logUndoIf_canon h)
  · exact mergeByte_canon (logUndoIf_canon h)
  · exact portWrite_canon h
  · exact commitHere_canon h
  · exact request_canon (upd_canon h)
  · exact h
  · exact h
theorem applyNext_stateCanon {s : State} {c a : Chan} (h : s.Canon) : (s.applyNext c a).Canon := by
  unfold State.applyNext
  dsimp only
  split
  · exact h
  · split
    · exact ite_canonS
        (onMach_stateCanon
        (onMach_stateCanon
        (onMach_stateCanon (onMach_stateCanon h fun _ hm => applyRecord_canon hm) fun _ hm => upd_canon hm) fun _ hm =>
        mk_canon (winPut_canon (ch_canon hm))) fun _ hm => setPort_canon hm)
        (onMach_stateCanon
        (onMach_stateCanon (onMach_stateCanon h fun _ hm => applyRecord_canon hm) fun _ hm => upd_canon hm) fun _ hm =>
        mk_canon (winPut_canon (ch_canon hm)))
    · exact onMach_stateCanon (onMach_stateCanon h fun _ hm => applyRecord_canon hm) fun _ hm => upd_canon hm
theorem commitAcked_canon {m : Mach} {e : BitVec 24} {n : Nat} (h : m.Canon) : (m.commitAcked e n).Canon :=
  ite_canon (report_canon (request_canon (upd_canon (raiseIf_canon (upd_canon (bumpC_canon h))))))
    (epochRecord_canon (raiseIf_canon (upd_canon (bumpC_canon h))))
theorem ackRecords_canon {m : Mach} {xs : List (BitVec 24 × MirrorRec)} (h : m.Canon) : (m.ackRecords xs).Canon := by
  induction xs generalizing m with
  | nil => exact h
  | cons x r ih =>
    unfold Mach.ackRecords
    split
    · exact h
    next e => cases e; exact ih (commitAcked_canon h)
    next e => cases e; exact ih h
theorem occupancy_canon {m : Mach} {occ : Nat} (h : m.Canon) : (m.occupancy occ).Canon := raiseIf_canon (upd_canon h)
theorem acked_canon {m : Mach} {seq : BitVec 24} {occ : Nat} (h : m.Canon) : (m.acked seq occ).Canon :=
  occupancy_canon (ackRecords_canon (upd_canon h))
theorem nacked_canon {m : Mach} (h : m.Canon) : m.nacked.Canon := upd_canon (bumpBy_canon h)
theorem epochOverdue_canon {m : Mach} (h : m.Canon) : m.epochOverdue.Canon := ite_canon (raiseIf_canon (report_canon (upd_canon h))) h
theorem settleStream_stateCanon {s : State} {c a : Chan} {n : Nat} (h : s.Canon) : (s.settleStream c a n).Canon := by
  induction n generalizing s with
  | zero => exact h
  | succ n ih =>
    unfold State.settleStream
    dsimp only
    refine ih (onMach_stateCanon (applyNext_stateCanon h) fun m hm => ?_)
    split
    · exact acked_canon hm
    · exact hm
theorem copyLine_stateCanon {s : State} {c a : Chan} {n : Nat} (h : s.Canon) : (s.copyLine c a n).Canon :=
  onMach_stateCanon
    (onMach_stateCanon (onMach_stateCanon h fun _ _ => upd_canon (portLine_canon (mach_canon h))) fun _ hm => bumpC_canon hm) fun _ hm =>
    applyRecord_canon hm
theorem rollBack_canon {m : Mach} {xs : List (Nat × Cell)} (h : m.Canon) : (m.rollBack xs).Canon := by
  induction xs generalizing m with
  | nil => exact h
  | cons x r ih => exact ih (cellStep_canon h)
theorem readCells_canon {m : Mach} {a n : Nat} (h : m.Canon) : (m.readCells a n).2.Canon := by
  induction n generalizing m a with
  | zero => exact h
  | succ n ih => exact ih (physRead_canon h)
theorem restoreSlot_canon {m : Mach} {s : Fin 8} {ctl side : Payload} (h : m.Canon) : (m.restoreSlot s ctl side).Canon :=
  ite_canon (setSlot_canon (readMapLines_canon (setSlot_canon h))) (setSlot_canon h)
theorem restoreSlots_canon {m : Mach} {ctl side : Nat → Payload} {xs : List (Fin 8)} (h : m.Canon) :
    (m.restoreSlots ctl side xs).Canon := by
  induction xs generalizing m with
  | nil => exact h
  | cons x r ih => exact ih (restoreSlot_canon h)
theorem restoreSweep_canon {m : Mach} {stat : Payload} (h : m.Canon) : (m.restoreSweep stat).Canon :=
  ite_canon (swAbandon_canon (mk_canon (updChannel_canon (updChannel_canon (ch_canon h)))))
    (ite_canon (mk_canon (updChannel_canon (updChannel_canon (ch_canon h)))) (upd_canon h))
theorem putWins_canon {m : Mach} {xs : List (Nat × Payload)} (h : m.Canon) : (m.putWins xs).Canon := by
  induction xs generalizing m with
  | nil => exact h
  | cons x r ih => exact ih (mk_canon (winPut_canon (ch_canon h)))
theorem restore_canon {m : Mach} {cs : List Cell} (h : m.Canon) : (m.restore cs).Canon :=
  restoreSweep_canon (upd_canon (restoreSlots_canon (upd_canon (putWins_canon (upd_canon (loadVbase_canon h))))))
theorem committed_canon {m m' : Mach} (h : m.Canon) (e : m.committed = some m') : m'.Canon := by
  unfold Mach.committed at e
  split at e
  · split at e
    · cases e
      exact upd_canon h
    · cases e
      exact h
  · dsimp only at e
    split at e
    · cases e
      exact restore_canon (readCells_canon (upd_canon (clearStrides_canon (clearCaches_canon h))))
    · nomatch e
theorem recover_canon {m m' : Mach} (h : m.Canon) (e : m.recover = some m') : m'.Canon := committed_canon (rollBack_canon (upd_canon h)) e
theorem becomeActive_canon {m : Mach} (h : m.Canon) : m.becomeActive.Canon :=
  raise_canon (report_canon (count_canon (request_canon (upd_canon h))))
theorem handOver_stateCanon {s : State} {a c : Chan} (h : s.Canon) : (s.handOver a c).Canon :=
  ite_canonS (onMach_stateCanon (onMach_stateCanon h fun _ hm => setPort_canon hm) fun _ hm => feed_canon (setPort_canon hm)) h
theorem failed_canon {m : Mach} (h : m.Canon) : m.failed.Canon := ite_canon (upd_canon h) h
theorem failover_stateCanon {s : State} {c a : Chan} (h : s.Canon) : (s.failover c a).Canon := by
  have hs : (s.onMach a fun m => m.lastGasp.failed).Canon := onMach_stateCanon h fun _ hm => failed_canon (lastGasp_canon hm)
  unfold State.failover
  dsimp only
  refine ite_canonS (onMach_stateCanon hs fun _ _ => reset_canon) ?_
  split
  · exact onMach_stateCanon hs fun _ _ => reset_canon
  next e =>
    have hr := recover_canon (mach_canon hs) e
    exact handOver_stateCanon (onMach_stateCanon (onMach_stateCanon hs fun _ _ => hr) fun _ hm => becomeActive_canon hm)

/-! ### Commands -/

/-- Every state a command answers has canonical storage. -/
def Out.Canon (o : Out) : Prop := ∀ s, o = .next s → s.Canon
theorem next_canon {s : State} (h : s.Canon) : Out.Canon (.next s) := fun _ e => by cases e; exact h
theorem execLdk_canon {c : Chan} {t : Fin 8} {d : Reg} {imm : BitVec 11} {s : State} (h : s.Canon) : Out.Canon (execLdk c t d imm s) :=
  next_canon (issue_stateCanon h
    (check_keeps faultOR_keeps fun _ => bind_keeps getT_keeps fun _ => bind_keeps readAt_keeps fun _ =>
    bind_keeps checkLoaded_keeps fun _ => check_keeps faultTY_keeps fun _ => bind_keeps commit_keeps fun _ =>
    bind_keeps setD_keeps fun _ => pure_keeps))
theorem execTagset_canon {c : Chan} {t : Fin 8} {d a : Reg} {imm : BitVec 6} {s : State} (h : s.Canon) :
    Out.Canon (execTagset c t d a imm s) :=
  next_canon (issue_stateCanon h
    (bind_keeps operand_keeps fun _ => bind_keeps getT_keeps fun _ => check_keeps faultTY_keeps fun _ => bind_keeps commit_keeps fun _ =>
    bind_keeps setD_keeps fun _ => pure_keeps))
theorem execOpEq_canon {c : Chan} {t : Fin 8} {d a b : Reg} {v : Bool} {s : State} (h : s.Canon) : Out.Canon (execOpEq c t d a b v s) :=
  next_canon (issue_stateCanon h
    (bind_keeps operand_keeps fun _ => bind_keeps operand_keeps fun _ => bind_keeps commit_keeps fun _ => bind_keeps setD_keeps fun _ =>
    pure_keeps))
theorem execIlt_canon {c : Chan} {t : Fin 8} {d a b : Reg} {v : Bool} {s : State} (h : s.Canon) : Out.Canon (execIlt c t d a b v s) :=
  next_canon (issue_stateCanon h
    (bind_keeps operand_keeps fun _ => bind_keeps operand_keeps fun _ => bind_keeps commit_keeps fun _ => bind_keeps setD_keeps fun _ =>
    pure_keeps))
theorem execUlt_canon {c : Chan} {t : Fin 8} {d a b : Reg} {v : Bool} {s : State} (h : s.Canon) : Out.Canon (execUlt c t d a b v s) :=
  next_canon (issue_stateCanon h
    (bind_keeps bitsPair_keeps fun _ => bind_keeps commit_keeps fun _ => bind_keeps setD_keeps fun _ => pure_keeps))
theorem execLd_canon {c : Chan} {t : Fin 8} {d a : Reg} {imm : BitVec 6} {s : State} (h : s.Canon) : Out.Canon (execLd c t d a imm s) :=
  next_canon (issue_stateCanon h
    (bind_keeps operand_keeps fun _ => bind_keeps fieldTarget_keeps fun _ => bind_keeps limitCrate_keeps fun _ =>
    bind_keeps loadTarget_keeps fun _ => pure_keeps))
theorem execLdx_canon {c : Chan} {t : Fin 8} {d a b : Reg} {s : State} (h : s.Canon) : Out.Canon (execLdx c t d a b s) :=
  next_canon (issue_stateCanon h
    (bind_keeps operand_keeps fun _ => bind_keeps operand_keeps fun _ => bind_keeps indexTarget_keeps fun _ =>
    bind_keeps limitCrate_keeps fun _ => bind_keeps loadTarget_keeps fun _ => pure_keeps))
theorem execSt_canon {c : Chan} {t : Fin 8} {d a : Reg} {imm : BitVec 6} {s : State} (h : s.Canon) : Out.Canon (execSt c t d a imm s) :=
  next_canon (issue_stateCanon h
    (bind_keeps operand_keeps fun _ => bind_keeps operand_keeps fun _ => bind_keeps fieldTarget_keeps fun _ =>
    bind_keeps limitStore_keeps fun _ => bind_keeps storeTarget_keeps fun _ => pure_keeps))
theorem execStx_canon {c : Chan} {t : Fin 8} {d a b : Reg} {s : State} (h : s.Canon) : Out.Canon (execStx c t d a b s) :=
  next_canon (issue_stateCanon h
    (bind_keeps operand_keeps fun _ => bind_keeps operand_keeps fun _ => bind_keeps operand_keeps fun _ =>
    bind_keeps indexTarget_keeps fun _ => bind_keeps limitStore_keeps fun _ => bind_keeps storeTarget_keeps fun _ => pure_keeps))
theorem execCas_canon {c : Chan} {t : Fin 8} {d a b : Reg} {s : State} (h : s.Canon) : Out.Canon (execCas c t d a b s) :=
  next_canon (issue_stateCanon h
    (bind_keeps operand_keeps fun _ => bind_keeps operand_keeps fun _ => bind_keeps operand_keeps fun _ => bind_keeps me_keeps fun _ =>
    bind_keeps (modM_keeps fun _ hm => drainThread_canon hm) fun _ => bind_keeps xlate_keeps fun _ =>
    bind_keeps (readFwdBy_keeps fun _ => stepRead_keeps) fun _ => bind_keeps getT_keeps fun _ => check_keeps faultTY_keeps fun _ =>
    check_keeps checkLoaded_keeps fun _ => bind_keeps loadBarrier_keeps fun _ => bind_keeps commit_keeps fun _ =>
    bind_keeps (modM_keeps fun _ hm => drainThread_canon hm) fun _ =>
    ite_keeps (bind_keeps stepWrite_keeps fun _ => bind_keeps setD_keeps fun _ => pure_keeps)
    (ite_keeps (bind_keeps stepWrite_keeps fun _ => bind_keeps postHeal_keeps fun _ => bind_keeps setD_keeps fun _ => pure_keeps)
    (bind_keeps (modM_keeps fun _ hm => bumpT_canon hm) fun _ => bind_keeps postHeal_keeps fun _ => bind_keeps setD_keeps fun _ =>
    pure_keeps))))
theorem execLdb_canon {c : Chan} {t : Fin 8} {d a b : Reg} {s : State} (h : s.Canon) : Out.Canon (execLdb c t d a b s) :=
  next_canon (issue_stateCanon h
    (bind_keeps operand_keeps fun _ => bind_keeps operand_keeps fun _ => bind_keeps byteTarget_keeps fun _ =>
    bind_keeps xlate_keeps fun _ => bind_keeps readFwd_keeps fun _ => bind_keeps checkLoaded_keeps fun _ =>
    bind_keeps commit_keeps fun _ => bind_keeps setD_keeps fun _ => bind_keeps train_keeps fun _ => pure_keeps))
theorem execStb_canon {c : Chan} {t : Fin 8} {d a b : Reg} {s : State} (h : s.Canon) : Out.Canon (execStb c t d a b s) :=
  next_canon (issue_stateCanon h
    (bind_keeps operand_keeps fun _ => bind_keeps operand_keeps fun _ => bind_keeps operand_keeps fun _ =>
    check_keeps faultOR_keeps fun _ => bind_keeps byteTarget_keeps fun _ => bind_keeps xlate_keeps fun _ =>
    bind_keeps commit_keeps fun _ => bind_keeps byteStep_keeps fun _ => pure_keeps))
theorem execLocof_canon {c : Chan} {t : Fin 8} {d a b : Reg} {s : State} (h : s.Canon) : Out.Canon (execLocof c t d a b s) :=
  next_canon (issue_stateCanon h
    (bind_keeps operand_keeps fun _ => bind_keeps operand_keeps fun _ =>
    ite_keeps (check_keeps faultOR_keeps fun _ => bind_keeps commit_keeps fun _ => bind_keeps setD_keeps fun _ => pure_keeps)
    (bind_keeps indexTarget_keeps fun _ => bind_keeps limitCrate_keeps fun _ => bind_keeps commit_keeps fun _ =>
    bind_keeps setD_keeps fun _ => pure_keeps)))
theorem execFence_canon {c : Chan} {t : Fin 8} {s : State} (h : s.Canon) : Out.Canon (execFence c t s) :=
  next_canon (issue_stateCanon h
    (bind_keeps commit_keeps fun _ => bind_keeps me_keeps fun _ => bind_keeps (modM_keeps fun _ hm => drainThread_canon hm) fun _ =>
    pure_keeps))
theorem execPush_canon {c : Chan} {t : Fin 8} {d : Reg} {s : State} (h : s.Canon) : Out.Canon (execPush c t d s) :=
  next_canon (issue_stateCanon h
    (bind_keeps operand_keeps fun _ => bind_keeps stackPtr_keeps fun _ => bind_keeps stackStore_keeps fun _ =>
    bind_keeps modT_keeps fun _ => pure_keeps))
theorem execPop_canon {c : Chan} {t : Fin 8} {d : Reg} {s : State} (h : s.Canon) : Out.Canon (execPop c t d s) :=
  next_canon (issue_stateCanon h
    (bind_keeps stackPtr_keeps fun _ => bind_keeps readAt_keeps fun _ => bind_keeps deliverLoad_keeps fun _ =>
    bind_keeps modT_keeps fun _ => pure_keeps))
theorem execLdsp_canon {c : Chan} {t : Fin 8} {d : Reg} {imm : BitVec 11} {s : State} (h : s.Canon) : Out.Canon (execLdsp c t d imm s) :=
  next_canon (issue_stateCanon h
    (bind_keeps stackPtr_keeps fun _ => bind_keeps readAt_keeps fun _ => bind_keeps deliverLoad_keeps fun _ => pure_keeps))
theorem execStsp_canon {c : Chan} {t : Fin 8} {d : Reg} {imm : BitVec 11} {s : State} (h : s.Canon) : Out.Canon (execStsp c t d imm s) :=
  next_canon (issue_stateCanon h
    (bind_keeps operand_keeps fun _ => bind_keeps stackPtr_keeps fun _ => bind_keeps stackStore_keeps fun _ => pure_keeps))
theorem execAddsp_canon {c : Chan} {t : Fin 8} {imm : BitVec 11} {s : State} (h : s.Canon) : Out.Canon (execAddsp c t imm s) :=
  next_canon (issue_stateCanon h
    (bind_keeps stackPtr_keeps fun _ => bind_keeps commit_keeps fun _ => bind_keeps modT_keeps fun _ => pure_keeps))
theorem execCall_canon {c : Chan} {t : Fin 8} {off : BitVec 16} {s : State} (h : s.Canon) : Out.Canon (execCall c t off s) :=
  next_canon (issue_stateCanon h
    (bind_keeps commit_keeps fun _ => bind_keeps getT_keeps fun _ => bind_keeps setD_keeps fun _ => pure_keeps))
theorem execJmpr_canon {c : Chan} {t : Fin 8} {a : Reg} {s : State} (h : s.Canon) : Out.Canon (execJmpr c t a s) :=
  next_canon (issue_stateCanon h
    (bind_keeps operand_keeps fun _ => bind_keeps codeEntry_keeps fun _ => bind_keeps commit_keeps fun _ => pure_keeps))
theorem execCallr_canon {c : Chan} {t : Fin 8} {d a : Reg} {s : State} (h : s.Canon) : Out.Canon (execCallr c t d a s) :=
  next_canon (issue_stateCanon h
    (bind_keeps operand_keeps fun _ => bind_keeps getT_keeps fun _ =>
    ite_keeps (bind_keeps codeEntry_keeps fun _ => bind_keeps commit_keeps fun _ => bind_keeps setD_keeps fun _ => pure_keeps)
    (bind_keeps headerOf_keeps fun _ => check_keeps faultTY_keeps fun _ => bind_keeps readAt_keeps fun _ =>
    bind_keeps checkLoaded_keeps fun _ => check_keeps faultTY_keeps fun _ => bind_keeps codeEntry_keeps fun _ =>
    bind_keeps commit_keeps fun _ => bind_keeps setD_keeps fun _ => bind_keeps setD_keeps fun _ => pure_keeps)))
theorem execLoop_canon {c : Chan} {t : Fin 8} {d : Reg} {off : BitVec 11} {s : State} (h : s.Canon) : Out.Canon (execLoop c t d off s) :=
  next_canon (issue_stateCanon h
    (bind_keeps operand_keeps fun _ => check_keeps faultOR_keeps fun _ => check_keeps faultOR_keeps fun _ =>
    bind_keeps commit_keeps fun _ => bind_keeps getT_keeps fun _ => bind_keeps modT_keeps fun _ => ite_keeps pure_keeps pure_keeps))
theorem execWait_canon {c : Chan} {t : Fin 8} {a : Reg} {s : State} (h : s.Canon) : Out.Canon (execWait c t a s) :=
  next_canon (issue_stateCanon h
    (bind_keeps operand_keeps fun _ => check_keeps faultOR_keeps fun _ => bind_keeps commit_keeps fun _ => bind_keeps modT_keeps fun _ =>
    bind_keeps getT_keeps fun _ => check_keeps (modM_keeps fun _ hm => serveRoot_canon hm) fun _ => pure_keeps))
theorem execSig_canon {c : Chan} {t : Fin 8} {a : Reg} {s : State} (h : s.Canon) : Out.Canon (execSig c t a s) :=
  next_canon (issue_stateCanon h
    (bind_keeps operand_keeps fun _ => check_keeps faultOR_keeps fun _ => bind_keeps commit_keeps fun _ =>
    bind_keeps (modM_keeps fun _ hm => raise_canon hm) fun _ => pure_keeps))
theorem execRete_canon {c : Chan} {t : Fin 8} {s : State} (h : s.Canon) : Out.Canon (execRete c t s) := by
  refine next_canon (issue_stateCanon h (bind_keeps getT_keeps fun v => ite_keeps reteShadow_keeps ?_))
  split
  · exact reteStack_keeps
  · exact reteFail_keeps
theorem execUenter_canon {c : Chan} {t : Fin 8} {a : Reg} {s : State} (h : s.Canon) : Out.Canon (execUenter c t a s) :=
  next_canon (issue_stateCanon h
    (bind_keeps operand_keeps fun _ =>
    ite_keeps (bind_keeps pure_keeps fun _ => bind_keeps commit_keeps fun _ => bind_keeps modT_keeps fun _ => pure_keeps)
    (bind_keeps codeEntry_keeps fun _ => bind_keeps commit_keeps fun _ => bind_keeps modT_keeps fun _ => pure_keeps)))
theorem execTstart_canon {c : Chan} {t : Fin 8} {d a b : Reg} {s : State} (h : s.Canon) : Out.Canon (execTstart c t d a b s) :=
  next_canon (issue_stateCanon h
    (bind_keeps operand_keeps fun _ => bind_keeps operand_keeps fun _ => bind_keeps operand_keeps fun _ =>
    check_keeps faultOR_keeps fun _ => bind_keeps getM_keeps fun _ => check_keeps faultOR_keeps fun _ =>
    bind_keeps codeEntry_keeps fun _ => bind_keeps commit_keeps fun _ => bind_keeps getT_keeps fun _ =>
    bind_keeps (modM_keeps fun _ hm => setThr_canon (upd_canon hm)) fun _ => pure_keeps))
theorem execThalt_canon {c : Chan} {t : Fin 8} {s : State} (h : s.Canon) : Out.Canon (execThalt c t s) :=
  next_canon (issue_stateCanon h
    (check_keeps faultIL_keeps fun _ => bind_keeps commit_keeps fun _ =>
    bind_keeps (modM_keeps fun _ hm => drainThread_canon hm) fun _ => bind_keeps modT_keeps fun _ => pure_keeps))
theorem execMfs_canon {c : Chan} {t : Fin 8} {d : Reg} {imm : BitVec 11} {s : State} (h : s.Canon) : Out.Canon (execMfs c t d imm s) := by
  refine next_canon (issue_stateCanon h ?_)
  split
  · exact faultIL_keeps
  · exact bind_keeps getT_keeps fun _ => check_keeps fault_keeps fun _ => bind_keeps commit_keeps fun _ => bind_keeps getM_keeps fun _ =>
      bind_keeps setD_keeps fun _ => pure_keeps
theorem execWdkick_canon {c : Chan} {t : Fin 8} {s : State} (h : s.Canon) : Out.Canon (execWdkick c t s) :=
  next_canon (issue_stateCanon h (bind_keeps commit_keeps fun _ => bind_keeps (modM_keeps fun _ hm => upd_canon hm) fun _ => pure_keeps))
theorem lgread_canon {m : Mach} {p : Payload} {r : Cell × Mach} (h : m.Canon) (e : m.lgread p = some r) : r.2.Canon := by
  unfold Mach.lgread at e
  dsimp only at e
  generalize (if bit p 14 then m.sq.led else m.ch.led) = l at e
  generalize (if bit p 14 then 2048 else 8192) = size at e
  split at e
  · exact absurd e nofun
  · split at e
    · rw [← Option.some.inj e]
      exact ite_canon (sq_canon h) (report_canon h)
    · rw [← Option.some.inj e]
      exact upd_canon h
    · rw [← Option.some.inj e]
      exact h
theorem execLgread_canon {c : Chan} {t : Fin 8} {d a : Reg} {s : State} (h : s.Canon) : Out.Canon (execLgread c t d a s) := by
  refine next_canon (issue_stateCanon h (bind_keeps operand_keeps fun _ => bind_keeps getM_keeps fun _ => ?_))
  split
  · exact faultOR_keeps
  · refine bind_keeps commit_keeps fun _ => bind_keeps (modM_keeps fun _ hm => ?_) fun _ => bind_keeps setD_keeps fun _ => pure_keeps
    split
    next e => exact lgread_canon hm e
    · exact hm
theorem execLgwrite_canon {c : Chan} {t : Fin 8} {d a b : Reg} {s : State} (h : s.Canon) : Out.Canon (execLgwrite c t d a b s) :=
  next_canon (issue_stateCanon h
    (bind_keeps operand_keeps fun _ => bind_keeps operand_keeps fun _ => check_keeps faultOR_keeps fun _ =>
    bind_keeps commit_keeps fun _ => bind_keeps getM_keeps fun _ =>
    ite_keeps (bind_keeps (modM_keeps fun _ hm => upd_canon hm) fun _ => bind_keeps setD_keeps fun _ => pure_keeps)
    (bind_keeps setD_keeps fun _ => pure_keeps)))
theorem execFlxfer_canon {c : Chan} {t : Fin 8} {d a : Reg} {timedOut standbyFailed : Bool} {reply : List Byte} {s : State}
    (h : s.Canon) : Out.Canon (execFlxfer c t d a timedOut standbyFailed reply s) := by
  refine next_canon
    (issue_stateCanon h
    (bind_keeps operand_keeps fun v => bind_keeps (modM_keeps fun _ hm => drainThread_canon hm) fun v1 =>
    bind_keeps (useM_keeps fun _ hm => flBlock_canon hm) fun v2 => ?_))
  split
  · exact faultOR_keeps
  · exact bind_keeps commit_keeps fun _ => bind_keeps (useM_keeps fun _ hm => flxfer_canon hm) fun _ => bind_keeps setD_keeps fun _ =>
      pure_keeps
theorem execAdd_canon {c : Chan} {t : Fin 8} {d a b : Reg} {s : State} (h : s.Canon) : Out.Canon (execAdd c t d a b s) :=
  next_canon (issue_stateCanon h (bind_keeps regCell_keeps fun _ => bind_keeps regCell_keeps fun _ => wArith_keeps))
theorem execSub_canon {c : Chan} {t : Fin 8} {d a b : Reg} {s : State} (h : s.Canon) : Out.Canon (execSub c t d a b s) :=
  next_canon (issue_stateCanon h (bind_keeps regCell_keeps fun _ => bind_keeps regCell_keeps fun _ => wArith_keeps))
theorem execMul_canon {c : Chan} {t : Fin 8} {d a b : Reg} {s : State} (h : s.Canon) : Out.Canon (execMul c t d a b s) :=
  next_canon (issue_stateCanon h (bind_keeps regCell_keeps fun _ => bind_keeps regCell_keeps fun _ => wArith_keeps))
theorem execFdiv_canon {c : Chan} {t : Fin 8} {d a b : Reg} {s : State} (h : s.Canon) : Out.Canon (execFdiv c t d a b s) :=
  next_canon (issue_stateCanon h
    (bind_keeps regCell_keeps fun _ => bind_keeps regCell_keeps fun _ => bind_keeps genDispatch_keeps fun _ =>
    bind_keeps numVal_keeps fun _ => bind_keeps numVal_keeps fun _ => ite_keeps deliverF_keeps deliverS_keeps))
theorem execNeg_canon {c : Chan} {t : Fin 8} {d a : Reg} {s : State} (h : s.Canon) : Out.Canon (execNeg c t d a s) := by
  refine next_canon
    (issue_stateCanon h (bind_keeps regCell_keeps fun v => bind_keeps genDispatch_keeps fun v1 => bind_keeps numVal_keeps fun v2 => ?_))
  split
  · exact deliverInt_keeps
  · exact deliverS_keeps
  · exact deliverF_keeps
theorem execTosf_canon {c : Chan} {t : Fin 8} {d a : Reg} {s : State} (h : s.Canon) : Out.Canon (execTosf c t d a s) := by
  refine next_canon
    (issue_stateCanon h (bind_keeps regCell_keeps fun v => bind_keeps genDispatch_keeps fun v1 => bind_keeps numVal_keeps fun v2 => ?_))
  split
  · exact deliverS_keeps
  · exact deliverS_keeps
  · exact deliverS_keeps
theorem execTof32_canon {c : Chan} {t : Fin 8} {d a : Reg} {s : State} (h : s.Canon) : Out.Canon (execTof32 c t d a s) := by
  refine next_canon
    (issue_stateCanon h (bind_keeps regCell_keeps fun v => bind_keeps genDispatch_keeps fun v1 => bind_keeps numVal_keeps fun v2 => ?_))
  split
  · exact deliverF_keeps
  · exact deliverF_keeps
  · exact deliverF_keeps
theorem execTrunc_canon {c : Chan} {t : Fin 8} {d a : Reg} {s : State} (h : s.Canon) : Out.Canon (execTrunc c t d a s) := by
  refine next_canon (issue_stateCanon h (bind_keeps regCell_keeps fun _ => bind_keeps genDispatch_keeps fun _ => ?_))
  dsimp only
  refine bind_keeps numVal_keeps fun v => ?_
  split
  · exact bind_keeps commit_keeps fun _ => bind_keeps setD_keeps fun _ => pure_keeps
  all_goals
    split
    · exact faultOV_keeps
    · exact deliverInt_keeps
theorem execAlloc_canon {c : Chan} {t : Fin 8} {d a : Reg} {imm : BitVec 6} {s : State} (h : s.Canon) :
    Out.Canon (execAlloc c t d a imm s) :=
  next_canon (issue_stateCanon h
    (check_keeps faultIL_keeps fun _ => bind_keeps operand_keeps fun _ => check_keeps faultOR_keeps fun _ =>
    bind_keeps allocObject_keeps fun _ => bind_keeps setD_keeps fun _ => pure_keeps))
theorem execZline_canon {c : Chan} {t : Fin 8} {a b : Reg} {s : State} (h : s.Canon) : Out.Canon (execZline c t a b s) := by
  refine next_canon
    (issue_stateCanon h
    (bind_keeps operand_keeps fun v => bind_keeps operand_keeps fun v1 => bind_keeps headerOf_keeps fun v2 =>
    check_keeps faultOR_keeps fun u => bind_keeps xlate_keeps fun v3 => bind_keeps commit_keeps fun v4 => bind_keeps get_keeps fun v5 =>
    ?_))
  split
  · exact ite_keeps
      (bind_keeps readLine_keeps fun _ => bind_keeps (modM_keeps fun _ hm => pushAll_canon hm) fun _ =>
      bind_keeps (modM_keeps fun _ hm => wbAdd_canon hm) fun _ => pure_keeps)
      (bind_keeps (modM_keeps fun _ hm => wbAdd_canon hm) fun _ => pure_keeps)
  · exact bind_keeps (modM_keeps fun _ hm => wbAdd_canon hm) fun _ => pure_keeps
theorem execCar_canon {c : Chan} {t : Fin 8} {d a : Reg} {s : State} (h : s.Canon) : Out.Canon (execCar c t d a s) :=
  next_canon (issue_stateCanon h
    (bind_keeps listOperand_keeps fun _ =>
    ite_keeps (bind_keeps commit_keeps fun _ => bind_keeps setD_keeps fun _ => pure_keeps)
    (bind_keeps listCell_keeps fun _ => bind_keeps deliverLoad_keeps fun _ => bind_keeps train_keeps fun _ => pure_keeps)))
theorem execOpCdr_canon {c : Chan} {t : Fin 8} {d a : Reg} {s : State} (h : s.Canon) : Out.Canon (execOpCdr c t d a s) :=
  next_canon (issue_stateCanon h
    (bind_keeps listOperand_keeps fun _ =>
    ite_keeps (bind_keeps commit_keeps fun _ => bind_keeps setD_keeps fun _ => pure_keeps)
    (bind_keeps listCell_keeps fun _ =>
    ite_keeps (bind_keeps commit_keeps fun _ => bind_keeps setD_keeps fun _ => bind_keeps train_keeps fun _ => pure_keeps)
    (ite_keeps (bind_keeps commit_keeps fun _ => bind_keeps setD_keeps fun _ => bind_keeps train_keeps fun _ => pure_keeps)
    (bind_keeps readAt_keeps fun _ => bind_keeps checkLoaded_keeps fun _ => bind_keeps commit_keeps fun _ =>
    bind_keeps setD_keeps fun _ => bind_keeps train_keeps fun _ => pure_keeps)))))
theorem execOpCons_canon {c : Chan} {t : Fin 8} {d a b : Reg} {s : State} (h : s.Canon) : Out.Canon (execOpCons c t d a b s) :=
  next_canon (issue_stateCanon h
    (bind_keeps operand_keeps fun _ => bind_keeps operand_keeps fun _ => bind_keeps limitSource_keeps fun _ =>
    bind_keeps limitSource_keeps fun _ => bind_keeps allocObject_keeps fun _ => bind_keeps setD_keeps fun _ => pure_keeps))
theorem execOpList_canon {c : Chan} {t : Fin 8} {d a : Reg} {imm : BitVec 6} {s : State} (h : s.Canon) :
    Out.Canon (execOpList c t d a imm s) :=
  next_canon (issue_stateCanon h
    (check_keeps faultIL_keeps fun _ => bind_keeps listSources_keeps fun _ => check_keeps faultOR_keeps fun _ =>
    bind_keeps limitSources_keeps fun _ => bind_keeps allocObject_keeps fun _ => bind_keeps setD_keeps fun _ => pure_keeps))
theorem execRplacd_canon {c : Chan} {t : Fin 8} {a b : Reg} {s : State} (h : s.Canon) : Out.Canon (execRplacd c t a b s) :=
  next_canon (issue_stateCanon h
    (bind_keeps operand_keeps fun _ => bind_keeps operand_keeps fun _ => bind_keeps readAt_keeps fun _ =>
    bind_keeps limitSource_keeps fun _ => bind_keeps listCheck_keeps fun _ =>
    ite_keeps (bind_keeps xlate_keeps fun _ => bind_keeps commit_keeps fun _ => bind_keeps checkedStore_keeps fun _ => pure_keeps)
    (ite_keeps (bind_keeps commit_keeps fun _ => pure_keeps)
    (bind_keeps xlate_keeps fun _ => bind_keeps requestAlloc_keeps fun _ => bind_keeps xlatePlan_keeps fun _ =>
    bind_keeps commit_keeps fun _ => bind_keeps carryAlloc_keeps fun _ => bind_keeps installFwd_keeps fun _ => pure_keeps))))
theorem execEndp_canon {c : Chan} {t : Fin 8} {d a : Reg} {s : State} (h : s.Canon) : Out.Canon (execEndp c t d a s) :=
  next_canon (issue_stateCanon h
    (bind_keeps listOperand_keeps fun _ => bind_keeps commit_keeps fun _ => bind_keeps setD_keeps fun _ => pure_keeps))
theorem execAccget_canon {c : Chan} {t : Fin 8} {d : Reg} {imm : BitVec 6} {s : State} (h : s.Canon) :
    Out.Canon (execAccget c t d imm s) :=
  next_canon (issue_stateCanon h (check_keeps faultOR_keeps fun _ => bind_keeps getT_keeps fun _ => deliverInt_keeps))
theorem execSavel_canon {c : Chan} {t : Fin 8} {imm : BitVec 11} {s : State} (h : s.Canon) : Out.Canon (execSavel c t imm s) :=
  next_canon (issue_stateCanon h
    (bind_keeps noShadow_keeps fun _ => check_keeps faultOR_keeps fun _ =>
    saveHalf_keeps (bind_keeps getT_keeps fun _ => ite_keeps (tryCatch_keeps fillUpper_keeps fun _ => throw_keeps) pure_keeps)))
theorem execLoadl_canon {c : Chan} {t : Fin 8} {s : State} (h : s.Canon) : Out.Canon (execLoadl c t s) :=
  next_canon (issue_stateCanon h
    (bind_keeps noShadow_keeps fun _ => bind_keeps chainCrate_keeps fun _ => bind_keeps savedCells_keeps fun _ =>
    bind_keeps getT_keeps fun _ => bind_keeps control_keeps fun _ => bind_keeps control_keeps fun _ => bind_keeps control_keeps fun _ =>
    bind_keeps control_keeps fun _ => bind_keeps control_keeps fun _ => bind_keeps control_keeps fun _ =>
    bind_keeps control_keeps fun _ => bind_keeps commit_keeps fun _ => bind_keeps postHeals_keeps fun _ =>
    bind_keeps popCrate_keeps fun _ => bind_keeps modT_keeps fun _ => pure_keeps))
theorem execLoadu_canon {c : Chan} {t : Fin 8} {s : State} (h : s.Canon) : Out.Canon (execLoadu c t s) :=
  next_canon (issue_stateCanon h
    (bind_keeps noShadow_keeps fun _ => bind_keeps chainCrate_keeps fun _ => bind_keeps savedCells_keeps fun _ =>
    bind_keeps commit_keeps fun _ => bind_keeps postHeals_keeps fun _ => bind_keeps popCrate_keeps fun _ =>
    bind_keeps modT_keeps fun _ => pure_keeps))
theorem execTlbinv_canon {c : Chan} {t : Fin 8} {a : Reg} {imm : BitVec 6} {s : State} (h : s.Canon) :
    Out.Canon (execTlbinv c t a imm s) :=
  next_canon (issue_stateCanon h
    (check_keeps faultIL_keeps fun _ =>
    ite_keeps (bind_keeps operand_keeps fun _ => check_keeps faultOR_keeps fun _ => bind_keeps commit_keeps fun _ =>
    bind_keeps getT_keeps fun _ => bind_keeps (modM_keeps fun _ hm => tlbInvalidate_canon hm) fun _ => pure_keeps)
    (bind_keeps commit_keeps fun _ => bind_keeps getT_keeps fun _ => bind_keeps (modM_keeps fun _ hm => tlbInvalidate_canon hm) fun _ =>
    pure_keeps)))
theorem execTlbprobe_canon {c : Chan} {t : Fin 8} {d a : Reg} {s : State} (h : s.Canon) : Out.Canon (execTlbprobe c t d a s) := by
  refine next_canon
    (issue_stateCanon h
    (bind_keeps operand_keeps fun v => check_keeps faultOR_keeps fun u => bind_keeps (useM_keeps fun _ hm => walk_canon hm) fun v1 => ?_))
  split
  · exact bind_keeps commit_keeps fun _ => bind_keeps setD_keeps fun _ => pure_keeps
  · exact bind_keeps commit_keeps fun _ => bind_keeps setD_keeps fun _ => pure_keeps
  · exact fault_keeps
  · exact fault_keeps
theorem execCacheon_canon {c : Chan} {t : Fin 8} {imm : BitVec 6} {s : State} (h : s.Canon) : Out.Canon (execCacheon c t imm s) :=
  next_canon (issue_stateCanon h
    (check_keeps faultOR_keeps fun _ => bind_keeps getM_keeps fun _ => check_keeps fault_keeps fun _ => bind_keeps commit_keeps fun _ =>
    bind_keeps (modM_keeps fun _ hm => upd_canon hm) fun _ => pure_keeps))
theorem execCacheoff_canon {c : Chan} {t : Fin 8} {imm : BitVec 6} {s : State} (h : s.Canon) : Out.Canon (execCacheoff c t imm s) :=
  next_canon (issue_stateCanon h
    (check_keeps faultOR_keeps fun _ => bind_keeps commit_keeps fun _ =>
    bind_keeps (modM_keeps fun _ hm => upd_canon (clearCaches_canon (ite_canon (drainAll_canon hm) hm))) fun _ => pure_keeps))
theorem execCinvall_canon {c : Chan} {t : Fin 8} {s : State} (h : s.Canon) : Out.Canon (execCinvall c t s) :=
  next_canon (issue_stateCanon h
    (bind_keeps commit_keeps fun _ => bind_keeps (modM_keeps fun _ hm => upd_canon (clearStrides_canon (clearCaches_canon hm))) fun _ =>
    pure_keeps))
theorem execCrange_canon {c : Chan} {t : Fin 8} {d a b : Reg} {s : State} (h : s.Canon) : Out.Canon (execCrange c t d a b s) :=
  next_canon (issue_stateCanon h
    (bind_keeps operand_keeps fun _ => bind_keeps operand_keeps fun _ => bind_keeps getM_keeps fun _ =>
    check_keeps faultOR_keeps fun _ => check_keeps faultOR_keeps fun _ => bind_keeps commit_keeps fun _ => bind_keeps getM_keeps fun _ =>
    ite_keeps (bind_keeps setD_keeps fun _ => pure_keeps)
    (bind_keeps (modM_keeps fun _ hm => mk_canon (winPut_canon (winPut_canon (updChannel_canon (ch_canon hm))))) fun _ =>
    bind_keeps setD_keeps fun _ => pure_keeps)))
theorem execRootscan_canon {c : Chan} {t : Fin 8} {s : State} (h : s.Canon) : Out.Canon (execRootscan c t s) :=
  next_canon (issue_stateCanon h
    (bind_keeps commit_keeps fun _ => bind_keeps getT_keeps fun _ => check_keeps (modM_keeps fun _ hm => serveRoot_canon hm) fun _ =>
    pure_keeps))
theorem execCheckpoint_canon {c : Chan} {t : Fin 8} {d : Reg} {s : State} (h : s.Canon) : Out.Canon (execCheckpoint c t d s) := by
  refine next_canon (issue_stateCanon h (bind_keeps getM_keeps fun m => ?_))
  split
  · exact bind_keeps commit_keeps fun _ => bind_keeps setD_keeps fun _ => pure_keeps
  · exact bind_keeps commit_keeps fun _ => bind_keeps (modM_keeps fun _ hm => fillAll_canon (reachBoundaries_canon hm)) fun _ =>
      bind_keeps getM_keeps fun _ =>
      ite_keeps pure_keeps (bind_keeps (modM_keeps fun _ hm => capture2_canon hm) fun _ => bind_keeps setD_keeps fun _ => pure_keeps)
theorem execPmread_canon {c : Chan} {t : Fin 8} {d a : Reg} {s : State} (h : s.Canon) : Out.Canon (execPmread c t d a s) :=
  next_canon (issue_stateCanon h
    (check_keeps faultIL_keeps fun _ => bind_keeps operand_keeps fun _ => check_keeps faultOR_keeps fun _ =>
    bind_keeps commit_keeps fun _ => bind_keeps (useM_keeps fun _ hm => readCounter_canon hm) fun _ => bind_keeps setD_keeps fun _ =>
    bind_keeps setD_keeps fun _ => pure_keeps))
theorem execChnEnSample_canon {c : Chan} {level : Bool} {s : State} (h : s.Canon) : Out.Canon (execChnEnSample c level s) :=
  next_canon (ite_canonS (decideBoth_stateCanon (setChan_stateCanon h (updChannel_canon (chan_canon h)))) h)
theorem execLedgerSnapshotRead_canon {o : Fin 5} {s : State} (h : s.Canon) : Out.Canon (execLedgerSnapshotRead o s) := by
  refine next_canon ?_
  split
  · exact onMach_stateCanon h fun _ hm => ite_canon (upd_canon hm) hm
  · exact ite_canonS (upd_stateCanon h) (upd_stateCanon h)
theorem execStrapMeasurement_canon {c : Chan} {pin : Fin 8} {phase0 c0 c1 c2 c3 : BitVec 10} {s : State} (h : s.Canon) :
    Out.Canon (execStrapMeasurement c pin phase0 c0 c1 c2 c3 s) :=
  next_canon (ite_canonS (decideBoth_stateCanon (onMach_stateCanon h fun _ hm => combination_canon (putPin_canon hm))) h)
theorem execMonitoringRound_canon {o : Fin 5} {codes : List (BitVec 16)} {s : State} (h : s.Canon) :
    Out.Canon (execMonitoringRound o codes s) := by
  refine next_canon ?_
  split
  · exact onMach_stateCanon h fun _ hm => ite_canon (mk_canon (winPut_canon (ch_canon (monitorPins_canon (upd_canon hm))))) hm
  · exact ite_canonS h (onAll_stateCanon (upd_stateCanon h) fun _ hm => drifts_canon hm)
theorem execLedgerScan_canon {o : Fin 5} {s : State} (h : s.Canon) : Out.Canon (execLedgerScan o s) := by
  refine next_canon ?_
  split
  · exact onMach_stateCanon h fun _ hm => ite_canon (scanEnd_canon hm) hm
  · exact ite_canonS (upd_stateCanon h) h
theorem execStagingQueueArrival_canon {o : Fin 5} {cls : BitVec 6} {spec flag : Bool} {detail : BitVec 32} {s : State} (h : s.Canon) :
    Out.Canon (execStagingQueueArrival o cls spec flag detail s) := by
  refine next_canon (ite_canonS h ?_)
  split
  · exact onMach_stateCanon h fun _ hm => ite_canon hm (report_canon hm)
  · exact ite_canonS h (upd_stateCanon h)
theorem execLedgerWordWrite_canon {o : Fin 5} {firstOk secondOk : Bool} {s : State} (h : s.Canon) :
    Out.Canon (execLedgerWordWrite o firstOk secondOk s) := by
  refine next_canon ?_
  split
  · exact onMach_stateCanon h fun _ hm =>
      ite_canon (raiseIf_canon (raiseIf_canon (upd_canon (bumpIf_canon (ite_snd_canon hm (sq_canon hm)))))) hm
  · exact ite_canonS h (upd_stateCanon h)
theorem execFirstInstruction_canon {c : Chan} {s : State} (h : s.Canon) : Out.Canon (execFirstInstruction c s) :=
  next_canon (onMach_stateCanon h fun _ hm => ite_canon (raise_canon (firstInstruction_canon hm)) (firstInstruction_canon hm))
theorem execMirrorRecordApply_canon {c : Chan} {crcOk : Bool} {s : State} (h : s.Canon) :
    Out.Canon (execMirrorRecordApply c crcOk s) := by
  refine next_canon ?_
  split
  · exact ite_canonS (applyNext_stateCanon h) h
  · exact h
theorem execMirrorAcknowledgement_canon {c : Chan} {seq : BitVec 24} {negative : Bool} {s : State} (h : s.Canon) :
    Out.Canon (execMirrorAcknowledgement c seq negative s) := by
  refine next_canon ?_
  split
  · exact ite_canonS h (onMach_stateCanon h fun _ hm => ite_canon (nacked_canon hm) (acked_canon hm))
  · exact h
theorem execLinkFailure_canon {c : Chan} {s : State} (h : s.Canon) : Out.Canon (execLinkFailure c s) := by
  refine next_canon ?_
  split
  · exact ite_canonS h
      (ite_canonS (onMach_stateCanon (onMach_stateCanon h fun _ _ => withdraw_canon) fun _ hm => loseStandby_canon hm)
      (failover_stateCanon h))
  · exact h
theorem execPairBreak_canon {c : Chan} {s : State} (h : s.Canon) : Out.Canon (execPairBreak c s) := by
  refine next_canon ?_
  split
  · exact ite_canonS (onMach_stateCanon (onMach_stateCanon h fun _ _ => withdraw_canon) fun _ hm => loseStandby_canon hm) h
  · exact h
theorem execFailover_canon {c : Chan} {s : State} (h : s.Canon) : Out.Canon (execFailover c s) := by
  refine next_canon ?_
  split
  · exact ite_canonS (failover_stateCanon h) h
  · exact h
theorem execStandbyLoss_canon {c : Chan} {s : State} (h : s.Canon) : Out.Canon (execStandbyLoss c s) := by
  refine next_canon ?_
  split
  · exact ite_canonS (onMach_stateCanon h fun _ hm => loseStandby_canon hm) h
  · exact h
theorem execJoinRequest_canon {c : Chan} {s : State} (h : s.Canon) : Out.Canon (execJoinRequest c s) := by
  refine next_canon ?_
  split
  · exact ite_canonS (onMach_stateCanon (onMach_stateCanon h fun _ hm => upd_canon hm) fun _ hm => upd_canon hm) h
  · exact h
theorem iterN_stateCanon {f : Nat → State → State} (hf : ∀ i s, s.Canon → (f i s).Canon) {i n : Nat} {s : State} (h : s.Canon) :
    (iterN f i n s).Canon := by
  induction n generalizing i s with
  | zero => exact h
  | succ n ih => exact ih (hf _ _ h)
theorem execCopyComplete_canon {c : Chan} {s : State} (h : s.Canon) : Out.Canon (execCopyComplete c s) := by
  refine next_canon ?_
  split
  · refine ite_canonS (onMach_stateCanon ?_ fun _ hm => upd_canon hm) h
    exact iterN_stateCanon (fun _ _ hs => copyLine_stateCanon hs) (settleStream_stateCanon h)
  · exact h
theorem exec_canon {s : State} (h : s.Canon) (i : Instr) : Out.Canon (exec i s) := by
  cases i with
  | nop c t => exact next_canon (onMach_stateCanon h fun _ hm => issueCell_canon hm)
  | mov c t d a => exact next_canon (issue_stateCanon h wUnary_keeps)
  | movi c t d imm => exact next_canon (issue_stateCanon h (bind_keeps commit_keeps fun _ => bind_keeps setD_keeps fun _ => pure_keeps))
  | ldk c t d imm => exact execLdk_canon h
  | tagof c t d a => exact next_canon (issue_stateCanon h wUnary_keeps)
  | tageq c t d a imm => exact next_canon (issue_stateCanon h wUnary_keeps)
  | tagset c t d a imm => exact execTagset_canon h
  | cdrof c t d a => exact next_canon (issue_stateCanon h wUnary_keeps)
  | iadd c t d a b => exact next_canon (issue_stateCanon h wIntOp_keeps)
  | isub c t d a b => exact next_canon (issue_stateCanon h wIntOp_keeps)
  | iaddi c t d a imm => exact next_canon (issue_stateCanon h (bind_keeps operand_keeps fun _ => deliverFix_keeps))
  | opAnd c t d a b => exact next_canon (issue_stateCanon h wBitOp_keeps)
  | opOr c t d a b => exact next_canon (issue_stateCanon h wBitOp_keeps)
  | opXor c t d a b => exact next_canon (issue_stateCanon h wBitOp_keeps)
  | andi c t d a imm => exact next_canon (issue_stateCanon h wBitImm_keeps)
  | shl c t d a b => exact next_canon (issue_stateCanon h wShift_keeps)
  | shr c t d a b => exact next_canon (issue_stateCanon h wShift_keeps)
  | sar c t d a b => exact next_canon (issue_stateCanon h wShift_keeps)
  | shli c t d a imm => exact next_canon (issue_stateCanon h wBitImm_keeps)
  | shri c t d a imm => exact next_canon (issue_stateCanon h wBitImm_keeps)
  | sari c t d a imm => exact next_canon (issue_stateCanon h wBitImm_keeps)
  | opEq c t d a b v => exact execOpEq_canon h
  | ilt c t d a b v => exact execIlt_canon h
  | ult c t d a b v => exact execUlt_canon h
  | ld c t d a imm => exact execLd_canon h
  | ldx c t d a b => exact execLdx_canon h
  | st c t d a imm => exact execSt_canon h
  | stx c t d a b => exact execStx_canon h
  | cas c t d a b => exact execCas_canon h
  | ldb c t d a b => exact execLdb_canon h
  | stb c t d a b => exact execStb_canon h
  | locof c t d a b => exact execLocof_canon h
  | fence c t => exact execFence_canon h
  | push c t d => exact execPush_canon h
  | pop c t d => exact execPop_canon h
  | ldsp c t d imm => exact execLdsp_canon h
  | stsp c t d imm => exact execStsp_canon h
  | addsp c t imm => exact execAddsp_canon h
  | j c t off => exact next_canon (issue_stateCanon h (bind_keeps commit_keeps fun _ => bind_keeps getT_keeps fun _ => pure_keeps))
  | call c t off => exact execCall_canon h
  | bt c t d off => exact next_canon (issue_stateCanon h wBranch_keeps)
  | bf c t d off => exact next_canon (issue_stateCanon h wBranch_keeps)
  | jmpr c t a => exact execJmpr_canon h
  | callr c t d a => exact execCallr_canon h
  | ret c t a => exact next_canon (issue_stateCanon h (bind_keeps operand_keeps fun _ => bind_keeps commit_keeps fun _ => pure_keeps))
  | loop c t d off => exact execLoop_canon h
  | wait c t a => exact execWait_canon h
  | sig c t a => exact execSig_canon h
  | svc c t imm => exact next_canon (issue_stateCanon h (bind_keeps commit_keeps fun _ => throw_keeps))
  | rete c t => exact execRete_canon h
  | uenter c t a => exact execUenter_canon h
  | tstart c t d a b => exact execTstart_canon h
  | thalt c t => exact execThalt_canon h
  | mfs c t d imm => exact execMfs_canon h
  | mts c t d imm => exact next_canon (issue_stateCanon h wMts_keeps)
  | mtsVbase c t d => exact next_canon (issue_stateCanon h wMts_keeps)
  | wdkick c t => exact execWdkick_canon h
  | lgread c t d a => exact execLgread_canon h
  | lgwrite c t d a b => exact execLgwrite_canon h
  | flxfer c t d a timedOut standbyFailed reply => exact execFlxfer_canon h
  | add c t d a b => exact execAdd_canon h
  | sub c t d a b => exact execSub_canon h
  | mul c t d a b => exact execMul_canon h
  | fdiv c t d a b => exact execFdiv_canon h
  | quo c t d a b => exact next_canon (issue_stateCanon h wQuo_keeps)
  | rem c t d a b => exact next_canon (issue_stateCanon h wQuo_keeps)
  | neg c t d a => exact execNeg_canon h
  | addi c t d a imm => exact next_canon (issue_stateCanon h (bind_keeps regCell_keeps fun _ => wArith_keeps))
  | numeq c t d a b v => exact next_canon (issue_stateCanon h wCompare_keeps)
  | numlt c t d a b v => exact next_canon (issue_stateCanon h wCompare_keeps)
  | tosf c t d a => exact execTosf_canon h
  | tof32 c t d a => exact execTof32_canon h
  | trunc c t d a => exact execTrunc_canon h
  | fadd c t d a b => exact next_canon (issue_stateCanon h wShort_keeps)
  | fsub c t d a b => exact next_canon (issue_stateCanon h wShort_keeps)
  | fmul c t d a b => exact next_canon (issue_stateCanon h wShort_keeps)
  | fdv c t d a b => exact next_canon (issue_stateCanon h wShort_keeps)
  | alloc c t d a imm => exact execAlloc_canon h
  | allocl c t d a imm => exact next_canon (issue_stateCanon h wAllocl_keeps)
  | alloclBodyFill c t => exact next_canon (onMach_stateCanon h fun _ hm => alloclBodyFill_canon hm)
  | zline c t a b => exact execZline_canon h
  | car c t d a => exact execCar_canon h
  | opCdr c t d a => exact execOpCdr_canon h
  | opCons c t d a b => exact execOpCons_canon h
  | opList c t d a imm => exact execOpList_canon h
  | rplacd c t a b => exact execRplacd_canon h
  | endp c t d a => exact execEndp_canon h
  | mac c t a b v => exact next_canon (issue_stateCanon h wMac_keeps)
  | macs c t a b v => exact next_canon (issue_stateCanon h wMac_keeps)
  | accz c t => exact next_canon (issue_stateCanon h (bind_keeps commit_keeps fun _ => bind_keeps modT_keeps fun _ => pure_keeps))
  | accget c t d imm => exact execAccget_canon h
  | savel c t imm => exact execSavel_canon h
  | saveu c t => exact next_canon (issue_stateCanon h (bind_keeps noShadow_keeps fun _ => saveHalf_keeps pure_keeps))
  | loadl c t => exact execLoadl_canon h
  | loadu c t => exact execLoadu_canon h
  | tlbinv c t a imm => exact execTlbinv_canon h
  | tlbprobe c t d a => exact execTlbprobe_canon h
  | cacheon c t imm => exact execCacheon_canon h
  | cacheoff c t imm => exact execCacheoff_canon h
  | cinvall c t => exact execCinvall_canon h
  | crange c t d a b => exact execCrange_canon h
  | rangeEngineDone c => exact next_canon (onMach_stateCanon h fun _ hm => rangeDone_canon hm)
  | rootscan c t => exact execRootscan_canon h
  | checkpoint c t d => exact execCheckpoint_canon h
  | pmread c t d a => exact execPmread_canon h
  | eventEntryStack c t => exact next_canon (onMach_stateCanon h fun _ hm => eventEntryStack_canon hm)
  | eventEntryShadow c t => exact next_canon (onMach_stateCanon h fun _ hm => eventEntryShadow_canon hm)
  | holdWindowExpiry c t => exact next_canon (onMach_stateCanon h fun _ hm => setThr_canon hm)
  | stalemate c => exact next_canon (onMach_stateCanon h fun _ hm => stalemate_canon hm)
  | heal c => exact next_canon (onMach_stateCanon h fun _ hm => ite_canon (heal_canon hm) hm)
  | lineFill c k dcache => exact next_canon (onMach_stateCanon h fun _ hm => settleFill_canon hm)
  | prefetchArrival c k dcache => exact next_canon (onMach_stateCanon h fun _ hm => prefetchArrival_canon hm)
  | writeBufferDrain c k => exact next_canon (onMach_stateCanon h fun _ hm => ite_canon (drainOne_canon hm) hm)
  | turnstileGrant c => exact next_canon (onMach_stateCanon h fun _ hm => grant_canon hm)
  | wakeTimerArm c n => exact next_canon (program_stateCanon h fun _ hm => wakeArm_canon hm)
  | wakeTimerDisarm c n => exact next_canon (program_stateCanon h fun _ hm => wakeDisarm_canon hm)
  | wakeTimerExpiry c n => exact next_canon (onMach_stateCanon h fun _ hm => ite_canon (wakeFire_canon hm) hm)
  | fastTimerArm c n pre periodic => exact next_canon (program_stateCanon h fun _ hm => fastArm_canon hm)
  | fastTimerDisarm c n pre periodic => exact next_canon (program_stateCanon h fun _ hm => fastDisarm_canon hm)
  | fastTimerExpiry c n => exact next_canon (onMach_stateCanon h fun _ hm => fastExpiry_canon hm)
  | tblRead c t => exact next_canon (program_stateCanon h fun _ hm => readTbl_canon hm)
  | pwrstatRead c => exact next_canon (program_stateCanon h fun _ hm => readPwrstat_canon hm)
  | idleEntry c k => exact next_canon (onMach_stateCanon h fun _ hm => idleEntry_canon hm)
  | dozeEntry c => exact next_canon (onMach_stateCanon h fun _ hm => dozeEntry_canon hm)
  | sleepEntry c => exact next_canon (onMach_stateCanon h fun _ hm => sleepEntry_canon hm)
  | wake c => exact next_canon (onMach_stateCanon h fun _ hm => wakeUp_canon hm)
  | preWake c => exact next_canon (onMach_stateCanon h fun _ hm => preWakeUp_canon hm)
  | pwrctlOff c key => exact next_canon (program_stateCanon h fun _ hm => pwrOff_canon hm)
  | supplyMonitorWarning c rail reading => exact next_canon (onMach_stateCanon h fun _ hm => supplyWarning_canon hm)
  | supplyMonitorOff c rail reading => exact next_canon (onMach_stateCanon h fun _ hm => supplyOff_canon hm)
  | vtxDriveRestored c => exact next_canon (onMach_stateCanon h fun _ hm => vtxRestored_canon hm)
  | offReturn c => exact next_canon (onMach_stateCanon h fun _ hm => offReturn_canon hm)
  | monitorReadingUpdate c vdd vddq vaon vio vtx tj => exact next_canon (onMach_stateCanon h fun _ hm => readings_canon hm)
  | referenceClockFault c count => exact next_canon (onMach_stateCanon h fun _ hm => clockFault_canon hm)
  | slowClockTrim c trim tj => exact next_canon (onMach_stateCanon h fun _ hm => ite_canon (upd_canon hm) hm)
  | pinReset c => exact next_canon (onMach_stateCanon h fun _ hm => pinReset_canon hm)
  | releaseOfReset c => exact next_canon (onMach_stateCanon h fun _ hm => release_canon hm)
  | chnEnSample c level => exact execChnEnSample_canon h
  | ledgerSnapshotRead o => exact execLedgerSnapshotRead_canon h
  | strapMeasurement c pin phase0 c0 c1 c2 c3 => exact execStrapMeasurement_canon h
  | squareStrapMeasurement pin phase0 c0 c1 c2 c3 => exact next_canon (ite_canonS (decideAll_stateCanon (upd_stateCanon h)) h)
  | monitoringRound o codes => exact execMonitoringRound_canon h
  | driftctl c value => exact next_canon (program_stateCanon h fun _ hm => putDriftctl_canon hm)
  | ledgerScan o => exact execLedgerScan_canon h
  | stagingQueueArrival o cls spec flag detail => exact execStagingQueueArrival_canon h
  | ledgerWordWrite o firstOk secondOk => exact execLedgerWordWrite_canon h
  | bootgood c => exact next_canon (program_stateCanon h fun _ hm => bootgood_canon hm)
  | pinclr c => exact next_canon (program_stateCanon h fun _ hm => pinclr_canon hm)
  | flashDiscovery c found density modes => exact next_canon (onMach_stateCanon h fun _ hm => discover_canon hm)
  | flashTransactionTimeout c => exact next_canon (onMach_stateCanon h fun _ hm => flashTimeout_canon hm)
  | slotAttempt c hdr0 hdr1 => exact next_canon (onMach_stateCanon h fun _ hm => attempt_canon hm)
  | slotLoad c image => exact next_canon (onMach_stateCanon h fun _ hm => slotLoad_canon hm)
  | bootRetry c => exact next_canon (onMach_stateCanon h fun _ hm => ite_canon (upd_canon hm) hm)
  | imageApply c => exact next_canon (imageApply_stateCanon h)
  | firstInstruction c => exact execFirstInstruction_canon h
  | fullTraining c sub failStep temp rfmA rfmB => exact next_canon (onMach_stateCanon h fun _ hm => fullTraining_canon hm)
  | trainingRetry c => exact next_canon (onMach_stateCanon h fun _ hm => ite_canon (upd_canon hm) hm)
  | restoreAndVerify c pass line rfmA rfmB => exact next_canon (onMach_stateCanon h fun _ hm => restoreVerify_canon hm)
  | commandIssue c sub => exact next_canon (onMach_stateCanon h fun _ hm => commandIssue_canon (scanOut_canon hm))
  | requestComplete c sub strobeMissing again => exact next_canon (onMach_stateCanon h fun _ hm => requestComplete_canon hm)
  | rowIdleClose c sub bank => exact next_canon (onMach_stateCanon h fun _ hm => rowIdleClose_canon hm)
  | refresh c sub => exact next_canon (onMach_stateCanon h fun _ hm => refresh_canon hm)
  | retrainingSlice c okA okB => exact next_canon (onMach_stateCanon h fun _ hm => ite_canon (slice_canon (slice_canon hm)) hm)
  | temperatureRead c tA tB => exact next_canon (onMach_stateCanon h fun _ hm => ite_canon (upd_canon (heat_canon (heat_canon hm))) hm)
  | countingWindowBoundary c sub => exact next_canon (onMach_stateCanon h fun _ hm => windowEnd_canon hm)
  | patrolScrub c => exact next_canon (onMach_stateCanon h fun _ hm => ite_canon (scrubOne_canon (scrubOne_canon hm)) hm)
  | writeCrcAlert c sub => exact next_canon (onMach_stateCanon h fun _ hm => crcAlert_canon hm)
  | panic c => exact next_canon (onMach_stateCanon h fun _ hm => panicOn_canon hm)
  | panicLimit c => exact next_canon (onMach_stateCanon h fun _ hm => panicLimit_canon hm)
  | boundaryDivergence c k => exact next_canon (onMach_stateCanon h fun _ hm => ite_canon (checkHalt_canon hm) hm)
  | registerSignature c k same => exact next_canon (onMach_stateCanon h fun _ hm => signature_canon hm)
  | checkerFault c k parity => exact next_canon (onMach_stateCanon h fun _ hm => ite_canon (checkHalt_canon hm) hm)
  | unitCompareMismatch c unit crossCheck => exact next_canon (onMach_stateCanon h fun _ hm => ite_canon (checkHalt_canon hm) hm)
  | cycleCounterWrap c k => exact next_canon (onMach_stateCanon h fun _ hm => cycleWrap_canon hm)
  | slotEnable c s asid => exact next_canon (program_stateCanon h fun _ hm => slotEnable_canon hm)
  | slotDisable c s => exact next_canon (program_stateCanon h fun _ hm => slotDisable_canon hm)
  | youngCycleCommand c s => exact next_canon (program_stateCanon h fun _ hm => startCycle_canon hm)
  | fullCycleCommand c s => exact next_canon (program_stateCanon h fun _ hm => startCycle_canon hm)
  | regionSet c s region kind root => exact next_canon (program_stateCanon h fun _ hm => regionSet_canon hm)
  | swcmdInvalid c op => exact next_canon (program_stateCanon h fun _ hm => ite_canon (swResult_canon hm) hm)
  | automaticCycleStart c => exact next_canon (onMach_stateCanon h fun _ hm => autoCycle_canon hm)
  | pitchRefill c s t => exact next_canon (onMach_stateCanon h fun _ hm => pitchRefill_canon hm)
  | logDrain c => exact next_canon (onMach_stateCanon h fun _ hm => ite_canon (logDrain_canon hm) hm)
  | markQueueSpill c => exact next_canon (onMach_stateCanon h fun _ hm => ite_canon (spillLine_canon hm) hm)
  | markEnd c => exact next_canon (onMach_stateCanon h fun _ hm => markEnd_canon hm)
  | sweeperCopy c => exact next_canon (onMach_stateCanon h fun _ hm => ite_canon (copyUnit_canon hm) hm)
  | evacuateEnd c => exact next_canon (onMach_stateCanon h fun _ hm => evacuateEnd_canon hm)
  | fixupEnd c => exact next_canon (onMach_stateCanon h fun _ hm => fixupEnd_canon hm)
  | linkTraining c rate lanes => exact next_canon (programStore_stateCanon h fun _ hm => linkStart_canon hm)
  | linkTrainingDone c result lanes rate => exact next_canon (onMach_stateCanon h fun _ hm => ite_canon (linkDone_canon hm) hm)
  | auxTransaction c op mot len => exact next_canon (programStore_stateCanon h fun _ hm => auxStart_canon hm)
  | auxDone c result reply => exact next_canon (onMach_stateCanon h fun _ hm => ite_canon (auxDone_canon hm) hm)
  | hpd c kind => exact next_canon (onMach_stateCanon h fun _ hm => hpdEvent_canon hm)
  | verticalStart c => exact next_canon (onMach_stateCanon h fun _ hm => verticalStart_canon hm)
  | underrun c planes => exact next_canon (onMach_stateCanon h fun _ hm => underrun_canon hm)
  | dctlDirty c => exact next_canon (programStore_stateCanon h fun _ hm => ite_canon (dispChange_canon hm) hm)
  | psrEntry c => exact next_canon (onMach_stateCanon h fun _ hm => psrEntry_canon hm)
  | ntcMeasurement c code => exact next_canon (onMach_stateCanon h fun _ hm => ntcMeasured_canon hm)
  | ambientLightPoll c ok value => exact next_canon (onMach_stateCanon h fun _ hm => alsPoll_canon hm)
  | keyScan c pressed => exact next_canon (onMach_stateCanon h fun _ hm => ite_canon (scanKeys_canon hm) hm)
  | kevt c => exact next_canon (program_stateCanon h fun _ hm => readKevt_canon hm)
  | encoderTransition c e a b => exact next_canon (onMach_stateCanon h fun _ hm => encoderMove_canon hm)
  | gpioEdge c pin level => exact next_canon (onMach_stateCanon h fun _ hm => gpioEdge_canon hm)
  | wakePinEdge c => exact next_canon (onMach_stateCanon h fun _ hm => raiseIf_canon hm)
  | buzzerStart c k duty => exact next_canon (programStore_stateCanon h fun _ hm => buzzerStart_canon hm)
  | buzzerStop c k => exact next_canon (programStore_stateCanon h fun _ hm => buzzerStop_canon hm)
  | buzzerDurationExpiry c k => exact next_canon (onMach_stateCanon h fun _ hm => ite_canon (buzzerStop_canon hm) hm)
  | i2cTransaction c addr wlen rlen => exact next_canon (programStore_stateCanon h fun _ hm => i2cStart_canon hm)
  | i2cDone c result reply => exact next_canon (onMach_stateCanon h fun _ hm => ite_canon (i2cDone_canon hm) hm)
  | watchdogEarlyWarning c => exact next_canon (onMach_stateCanon h fun _ hm => wdEarly_canon hm)
  | watchdogExpiry c => exact next_canon (onMach_stateCanon h fun _ hm => wdExpiry_canon hm)
  | scanStart c => exact next_canon (programStore_stateCanon h fun _ hm => scanStart_canon hm)
  | scanStop c => exact next_canon (programStore_stateCanon h fun _ hm => scanStop_canon hm)
  | baselineReset c => exact next_canon (programStore_stateCanon h fun _ hm => baselineReset_canon hm)
  | report c nodes electrodes noise => exact next_canon (onMach_stateCanon h fun _ hm => touchReport_canon hm)
  | rawCaptureArm c => exact next_canon (programStore_stateCanon h fun _ hm => rawArm_canon hm)
  | trpt c => exact next_canon (program_stateCanon h fun _ hm => readTrpt_canon hm)
  | approachRun c sum => exact next_canon (onMach_stateCanon h fun _ hm => approach_canon hm)
  | txpush c s => exact next_canon (program_stateCanon h fun _ hm => txpush_canon hm)
  | rxpop c => exact next_canon (program_stateCanon h fun _ hm => rxpop_canon hm)
  | frameTransmission i outcome => exact next_canon (transmit_stateCanon h)
  | frameReception f outcome => exact next_canon (receive_stateCanon h)
  | busOffRecovery bus => exact next_canon (ite_canonS (setCan_stateCanon h) h)
  | phyPoll link fast full => exact next_canon (ite_canonS h (ite_canonS (upd_stateCanon h) (portRaiseAll_stateCanon (upd_stateCanon h))))
  | lastGasp c => exact next_canon (onMach_stateCanon h fun _ hm => lastGasp_canon hm)
  | squareFailure kind rail reading => exact next_canon (squareFail_stateCanon h)
  | mirrorRecordApply c crcOk => exact execMirrorRecordApply_canon h
  | mirrorAcknowledgement c seq negative => exact execMirrorAcknowledgement_canon h
  | linkFailure c => exact execLinkFailure_canon h
  | epochOverdue c => exact next_canon (onMach_stateCanon h fun _ hm => epochOverdue_canon hm)
  | pairBreak c => exact execPairBreak_canon h
  | failover c => exact execFailover_canon h
  | standbyLoss c => exact execStandbyLoss_canon h
  | joinRequest c => exact execJoinRequest_canon h
  | copyComplete c => exact execCopyComplete_canon h
  | samplingCountdownExpiry c k => exact next_canon (onMach_stateCanon h fun _ hm => sampleMark_canon hm)
  | tallyRecordWrite c => exact next_canon (onMach_stateCanon h fun _ hm => ite_canon (tallyWrite_canon hm) hm)
  | tlack c n => exact next_canon (program_stateCanon h fun _ hm => tlack_canon hm)
  | tlclr c => exact next_canon (program_stateCanon h fun _ hm => tlclr_canon hm)
  | stamplRead c t => exact next_canon (program_stateCanon h fun _ hm => readStamp_canon hm)
  | mcpeakRead c => exact next_canon (program_stateCanon h fun _ hm => readPeak_canon hm)
  | windowRegisterWrite c offset value => exact next_canon (program_stateCanon h fun _ hm => ite_canon (winStore_canon hm) hm)
  | busIntegration bus => exact next_canon (ite_canonS (upd_stateCanon h) h)
  | stuckAlert c sub => exact next_canon (onMach_stateCanon h fun _ hm => stuckAlert_canon hm)
  | alertRelease c sub => exact next_canon (onMach_stateCanon h fun _ hm => setSub_canon hm)
  | mirrorIdleRecord c => exact next_canon (onMach_stateCanon h fun _ hm => ite_canon (sendMirror_canon hm) hm)
  | porReset => exact next_canon (upd_stateCanon (onAll_stateCanon h fun _ _ => reset_canon))
  | unownedRecord => exact next_canon (ite_canonS (upd_stateCanon h) h)

/-! ### Steps -/

theorem tick_canon {ch : Channel} (h : ch.Canon) : ch.tick.Canon := by
  unfold Channel.tick
  exact h
theorem step_canon {s : State} (h : s.Canon) : Out.Canon (step s) := by
  unfold step
  split
  · exact next_canon fun c => by rw [chan_tick]; exact tick_canon (h c)
  · exact exec_canon (upd_stateCanon h) _

/-- Settles O4: each operation a step is made of keeps the canonical form. -/
theorem stepKeepsStorageWf : Obligations.StepKeepsStorageWf := fun s s' h e => (storageWf_iff s').mpr (step_canon ((storageWf_iff s).mp h) s' e)

end Sys2Proof.Machine
end

section
/-! How an instruction that ends in its own thread ends, and the moves, tag readers, integer and bit operations (R157, R194, R197, R198). -/
namespace Sys2Proof.Machine

/-! ### Instructions that write registers and nothing else -/

section
variable {s : State} {c : Chan} {t : Fin 8} {i : Ins} {w : IM Flow} {ins : Instr}

/-- The slice in which the work began, once its thread has become th. -/
def wrote (s : State) (c : Chan) (t : Fin 8) (i : Ins) (th : Thread) : IS := { workOn s c t i with m := (s.begun c t i).setThr t th }
/-- COMMIT and a write of d, with no translation collected (R246). -/
theorem runI_deliver (d : Reg) (v : Cell) :
    runI (do commit; setD d v; return Flow.next) (workOn s c t i) = (.ok .next, wrote s c t i ((s.thread c t).setReg d v)) := rfl
/-- A check that fails. -/
theorem runI_check_fails {α : Type} {p : Prop} [Decidable p] {x : IM PUnit} {k : PUnit → IM α} {st : IS} (h : p) :
    runI (if p then x >>= k else k ⟨⟩) st = runI (x >>= k) st := by rw [if_pos h]
/-- A check that passes. -/
theorem runI_check_passes {α : Type} {p : Prop} [Decidable p] {x : IM PUnit} {k : PUnit → IM α} {st : IS} (h : ¬ p) :
    runI (if p then x >>= k else k ⟨⟩) st = runI (k ⟨⟩) st := by rw [if_neg h]
/-- An instruction whose work leaves its thread as th completes with it. -/
theorem completes_of_run {th : Thread} {f : Flow} (hex : exec ins s = .next (s.issue c t i w)) (h : s.ready c t = true)
    (hs : i.sup = true → (s.thread c t).sup = true) (hf : f ≠ .stay) (hf' : f ≠ .resume)
    (hw : runI w (workOn s c t i) = (.ok f, wrote s c t i th)) : completes ins s c t (th.complete f) :=
  ⟨_, hex, issue_done h hs hf hf' hw (perfOnly_refl _)⟩
/-- An instruction whose work does nothing completes with its thread. -/
theorem completes_of_idle {f : Flow} (hex : exec ins s = .next (s.issue c t i w)) (h : s.ready c t = true)
    (hs : i.sup = true → (s.thread c t).sup = true) (hf : f ≠ .stay) (hf' : f ≠ .resume)
    (hw : runI w (workOn s c t i) = (.ok f, workOn s c t i)) : completes ins s c t ((s.thread c t).complete f) := by
  refine ⟨_, hex, issue_done h hs hf hf' hw ?_⟩
  rw [← thr_begun s c t i, setThr_thr]
  exact perfOnly_refl _
/-- An instruction whose work ends with COMMIT and a write of d delivers what it writes. -/
theorem delivers_of_run {d : Reg} {v : Cell} (hex : exec ins s = .next (s.issue c t i w)) (h : s.ready c t = true)
    (hs : i.sup = true → (s.thread c t).sup = true)
    (hw : runI w (workOn s c t i) = runI (do commit; setD d v; return Flow.next) (workOn s c t i)) : delivers ins s c t d v :=
  completes_of_run hex h hs nofun nofun (hw.trans (runI_deliver d v))
/-- An instruction whose work ends in a fault, having changed nothing. -/
theorem faults_of_run {v : BitVec 10} {a ic : Cell} (hex : exec ins s = .next (s.issue c t i w)) (h : s.ready c t = true)
    (hs : i.sup = true → (s.thread c t).sup = true) (hic : i.icell = ic)
    (hw : runI w (workOn s c t i) = (.error (.fault v a), workOn s c t i)) : faults ins s c t v a ic :=
  hic ▸ ⟨_, hex, issue_fault h hs hw (perfOnly_refl _)⟩
/-- An instruction whose work meets a reserved cell: d receives it, and the trap of R183 follows completion. -/
theorem reserved_of_run {d : Reg} {v ic : Cell} {n : Nat} (hex : exec ins s = .next (s.issue c t i w)) (h : s.ready c t = true)
    (hs : i.sup = true → (s.thread c t).sup = true) (hic : i.icell = ic) (hd : i.dest = some d)
    (hw : runI w (workOn s c t i) = (.error (.reserved v n), workOn s c t i)) :
    completes ins s c t ((((s.thread c t).setReg d v).complete .next).raiseSync 24#10 (fixN n) ic 1#2) := by
  have hres := issue_reserved h hs hw (perfOnly_refl _)
  rw [hd, hic] at hres
  exact ⟨_, hex, hres⟩
/-- Once an operand has passed its checks the work goes on with it. -/
theorem runI_operand_bind {α : Type} {code : Nat} {r : Reg} {ok : BitVec 6 → Bool} {k : Cell → IM α} (h : (s.thread c t).has r ok = true) :
    runI (operand code r ok >>= k) (workOn s c t i) = runI (k ((s.thread c t).reg r)) (workOn s c t i) := runI_bind_ok (runI_operand_has h)

end

/-! ### Moves and tags -/

/-- Changing one thread of a channel's slice in which only counters and records differ. -/
theorem onlyThread_of_mach {s : State} {c : Chan} {t : Fin 8} {n : Mach} {th : Thread} (h : perfOnly (s.mach c) n) :
    onlyThread s (s.putMach { n.setThr t th with c := c }) c t th := by
  obtain ⟨p, k, rfl⟩ := h
  refine ⟨p, k, (s.chan c).seq[t], ?_⟩
  simp [State.setChan, State.putMach, State.mach, State.chan, State.ran, Mach.setThr]
/-- An instruction that faults before it is dispatched: the event is recorded, nothing else. -/
theorem finishIns_faults (s : State) (c : Chan) (t : Fin 8) (i : Ins) (v : BitVec 10) (a : Cell) :
    onlyThread s (s.onMach c fun m => m.finishIns t i (.error (.fault v a))) c t ((s.thread c t).raiseSync v a i.icell 0#2) := by
  have hp := notRetired_perfOnly (s.mach c) t i
  have hthr : ((s.mach c).notRetired t i).thr t = s.thread c t := perfOnly_thr hp t
  show onlyThread s (s.putMach { ((s.mach c).notRetired t i).setThr t ((((s.mach c).notRetired t i).thr t).raiseSync v a i.icell 0#2)
    with c := c }) c t _
  rw [hthr]
  exact onlyThread_of_mach hp

section
variable {s : State} {c : Chan} {t : Fin 8}

theorem canIssue_of_ready (h : s.ready c t = true) : (s.mach c).canIssue t = true := by
  unfold State.ready at h
  simp only [Bool.and_eq_true] at h
  obtain ⟨⟨⟨hcan, -⟩, -⟩, -⟩ := h
  exact hcan
theorem asMade_of_ready (h : s.ready c t = true) : ((s.mach c).core (coreOf t)).asMade = true := by
  unfold State.ready at h
  simp only [Bool.and_eq_true] at h
  obtain ⟨⟨⟨-, hmade⟩, -⟩, -⟩ := h
  exact hmade
theorem lz_of_ready (h : s.ready c t = true) : (s.thread c t).lz = false := by
  unfold State.ready at h
  simp only [Bool.and_eq_true, Bool.not_eq_true'] at h
  exact h.2
/-- The word of NOP. -/
theorem eq_nop {w : Cell} (htag : cellTag w = tINSTR) (hpay : cellPay w = 0x010000#24) : cellOp w = 0x01 ∧ isInstr w = true := by
  have hop : cellOp w = ((cellPay w).extractLsb' 16 8).toNat := by
    unfold cellOp bits cellPay
    congr 1
    ext i hi
    simp
  have hlow : w.setWidth 16 = (cellPay w).setWidth 16 := by
    unfold cellPay
    ext i hi
    simp
    omega
  rw [hpay] at hop hlow
  refine ⟨hop, ?_⟩
  unfold isInstr
  rw [hlow, hop, htag]
  decide
theorem exec_nop_cell {w : Cell} (h : s.ready c t = true) (htag : cellTag w = tINSTR) (hpay : cellPay w = 0x010000#24) :
    exec (.nop c ⟨t, w⟩) s = .next (s.issue c t (iN 0x01) (do commit; return .next)) := by
  obtain ⟨hop, hinstr⟩ := eq_nop htag hpay
  show Host.Outcome.next (s.onMach c fun m => m.issueCell t w) = _
  unfold State.onMach Mach.issueCell
  dsimp only
  simp [canIssue_of_ready h, htag, hop, hinstr, State.issue, State.onMach]
theorem nop_completes {w : Cell} (h : s.ready c t = true) (htag : cellTag w = tINSTR) (hpay : cellPay w = 0x010000#24) :
    completes (.nop c ⟨t, w⟩) s c t ((s.thread c t).complete .next) :=
  completes_of_idle (exec_nop_cell h htag hpay) h nofun nofun nofun rfl
/-- A fetched cell that is not INSTR (R174). -/
theorem nop_faults_of_tag {w : Cell} (h : s.ready c t = true) (htag : cellTag w ≠ tINSTR) :
    faults (.nop c ⟨t, w⟩) s c t 7#10 (fix (s.thread c t).pc) w := by
  have hexec : exec (.nop c ⟨t, w⟩) s = .next (s.onMach c fun m => m.finishIns t { iN (cellOp w) with icell := w }
      (.error (.fault 7#10 (fix (s.thread c t).pc)))) := by
    show Host.Outcome.next (s.onMach c fun m => m.issueCell t w) = _
    unfold State.onMach Mach.issueCell
    dsimp only
    simp [canIssue_of_ready h, htag]
    rfl
  exact ⟨_, hexec, finishIns_faults s c t _ _ _⟩
/-- An INSTR cell that is no instruction of the table (R191, R192). -/
theorem nop_faults_of_word {w : Cell} (h : s.ready c t = true) (htag : cellTag w = tINSTR) (hw : isInstr w = false) :
    faults (.nop c ⟨t, w⟩) s c t 1#10 fix0 w := by
  have hexec : exec (.nop c ⟨t, w⟩) s = .next (s.onMach c fun m => m.finishIns t { iN (cellOp w) with icell := w }
      (.error (.fault 1#10 fix0))) := by
    show Host.Outcome.next (s.onMach c fun m => m.issueCell t w) = _
    unfold State.onMach Mach.issueCell
    dsimp only
    simp [canIssue_of_ready h, htag, hw, asMade_of_ready h]
  exact ⟨_, hexec, finishIns_faults s c t _ _ _⟩

end

section
variable {s : State} {c : Chan} {t : Fin 8} {d a b : Reg} {imm : BitVec 6}

/-- An instruction that delivers a function of its one operand. -/
theorem wUnary_delivers {ins : Instr} {i : Ins} {ok : BitVec 6 → Bool} {f : Cell → Cell}
    (hex : exec ins s = .next (s.issue c t i (wUnary d a ok f))) (h : s.ready c t = true) (hs : i.sup = true → (s.thread c t).sup = true)
    (ha : (s.thread c t).has a ok = true) : delivers ins s c t d (f ((s.thread c t).reg a)) :=
  delivers_of_run hex h hs (runI_operand_bind ha)
theorem truth_eq (p : Bool) : truth p = if p = true then cT else cNIL := rfl
theorem mov_delivers (h : s.ready c t = true) (ha : (s.thread c t).has a anyTag = true) :
    delivers (.mov c t d a) s c t d ((s.thread c t).reg a) := wUnary_delivers (f := id) rfl h nofun ha
theorem tagof_delivers (h : s.ready c t = true) (ha : (s.thread c t).has a anyTag = true) :
    delivers (.tagof c t d a) s c t d (fix ((cellTag ((s.thread c t).reg a)).setWidth 24)) :=
  wUnary_delivers (f := fun v => fix ((cellTag v).setWidth 24)) rfl h nofun ha
theorem cdrof_delivers (h : s.ready c t = true) (ha : (s.thread c t).has a anyTag = true) :
    delivers (.cdrof c t d a) s c t d (fix ((cellCdr ((s.thread c t).reg a)).setWidth 24)) :=
  wUnary_delivers (f := fun v => fix ((cellCdr v).setWidth 24)) rfl h nofun ha
theorem tageq_delivers (h : s.ready c t = true) (ha : (s.thread c t).has a anyTag = true) :
    delivers (.tageq c t d a imm) s c t d (if cellTag ((s.thread c t).reg a) = imm then cT else cNIL) := by
  have hdel : delivers (.tageq c t d a imm) s c t d (truth (cellTag ((s.thread c t).reg a) = imm)) :=
    wUnary_delivers (f := fun v => truth (cellTag v = imm)) rfl h nofun ha
  simpa [truth] using hdel
theorem movi_delivers {imm : BitVec 11} (h : s.ready c t = true) : delivers (.movi c t d imm) s c t d (fix (imm.signExtend 24)) :=
  delivers_of_run rfl h nofun rfl
theorem movesAndTags : movesAndTagsClaim := by
  intro s c t h th
  exact ⟨fun _ => nop_completes h, fun _ => nop_faults_of_tag h, fun _ => nop_faults_of_word h, fun _ _ => movi_delivers h,
    fun d a ha => ⟨mov_delivers h ha, tagof_delivers h ha, cdrof_delivers h ha, fun _ => tageq_delivers h ha⟩⟩

/-! ### Retagging (Table 7.2) -/

/-- Where Table 7.2 allows a retag, tag by tag. -/
theorem retagOk_iff (sup : Bool) (v : Cell) (g : BitVec 6) : retagOk sup v g = true ↔
    (openTag g = true ∧ openTag (cellTag v) = true) ∨ (g = tCONST ∧ openTag (cellTag v) = true ∧ cellPay v ≤ 3#24) ∨
    (isUP g = true ∧ isUP (cellTag v) = true) ∨
    ((isPtr g = true ∨ g = tINSTR ∨ g = tHDR ∨ g = tFREE) ∧ sup = true ∧ cellTag v = tFIX) := by
  have hopen (g : BitVec 6) : plainTag g = openTag g := rfl
  have hrows : ∀ (g : BitVec 6) (p q u f : Bool),
      (if openTag g then p else if g = tCONST then p && q else if isUP g then u || f
        else if isPtr g || g = tINSTR || g = tHDR || g = tFREE then f else false) =
      (openTag g && p || decide (g = tCONST) && (p && q) || isUP g && u || (isPtr g || g = tINSTR || g = tHDR || g = tFREE) && f) := by
    decide
  unfold retagOk
  dsimp only
  rw [hopen, hopen]
  rw [hrows]
  simp [or_assoc]
theorem tagset_delivers (h : s.ready c t = true) (ha : (s.thread c t).has a anyTag = true)
    (hok : retagOk (s.thread c t).sup ((s.thread c t).reg a) imm = true) :
    delivers (.tagset c t d a imm) s c t d (mkCell imm 0#2 (cellPay ((s.thread c t).reg a))) := by
  refine delivers_of_run rfl h nofun ?_
  rw [runI_operand_bind ha, runI_bind_ok (runI_getT _), thr_begun]
  exact runI_check_passes (by simp [hok])
theorem tagset_faults (h : s.ready c t = true) (ha : (s.thread c t).has a anyTag = true)
    (hok : ¬ retagOk (s.thread c t).sup ((s.thread c t).reg a) imm = true) :
    faults (.tagset c t d a imm) s c t 3#10 fix0 (cellI 0x07 d a imm) := by
  refine faults_of_run rfl h nofun rfl ?_
  rw [runI_operand_bind ha, runI_bind_ok (runI_getT _), thr_begun, runI_check_fails (by simp [hok])]
  rfl
theorem retagging : retaggingClaim := by
  intro s c t d a imm h ha v ok
  have hok : retagOk (s.thread c t).sup v imm = true ↔ ok := retagOk_iff _ _ _
  exact ⟨fun hyes => tagset_delivers h ha (hok.mpr hyes), fun hno => tagset_faults h ha (mt hok.mp hno)⟩

/-- Settles O9: a lemma for each instruction and each ending. -/
theorem tagMovesAndRetagging : Obligations.TagMovesAndRetagging := ⟨movesAndTags, retagging⟩

/-! ### Integers -/

theorem inFix_iff (i : Int) : inFix i = true ↔ -8388608 ≤ i ∧ i ≤ 8388607 := by simp [inFix]
/-- The exact result, or the overflow fault (R197). -/
theorem runI_deliverFix_fits {i : Ins} {n : Int} (hn : inFix n = true) :
    runI (deliverFix d n) (workOn s c t i) = runI (do commit; setD d (fixI n); return Flow.next) (workOn s c t i) := by
  unfold deliverFix
  exact runI_check_passes (by simp [hn])
theorem runI_deliverFix_overflows {i : Ins} {n : Int} (hn : ¬ inFix n = true) :
    runI (deliverFix d n) (workOn s c t i) = (.error (.fault 5#10 fix0), workOn s c t i) := by
  unfold deliverFix
  rw [runI_check_fails (by simp [hn])]
  rfl
/-- An instruction whose work delivers an integer as FIX. -/
theorem fix_delivers_or_overflows {ins : Instr} {i : Ins} {w : IM Flow} {ic : Cell} {n : Int} (hex : exec ins s = .next (s.issue c t i w))
    (h : s.ready c t = true) (hs : i.sup = true → (s.thread c t).sup = true) (hic : i.icell = ic)
    (hw : runI w (workOn s c t i) = runI (deliverFix d n) (workOn s c t i)) :
    if -8388608 ≤ n ∧ n ≤ 8388607 then delivers ins s c t d (fix (BitVec.ofInt 24 n)) else faults ins s c t 5#10 fix0 ic := by
  split
  next hn => exact delivers_of_run hex h hs (hw.trans (runI_deliverFix_fits ((inFix_iff n).mpr hn)))
  next hn => exact faults_of_run hex h hs hic (hw.trans (runI_deliverFix_overflows (mt (inFix_iff n).mp hn)))
theorem runI_wIntOp {i : Ins} {f : Int → Int → Int} (ha : (s.thread c t).has a fixTag = true) (hb : (s.thread c t).has b fixTag = true) :
    runI (wIntOp d a b f) (workOn s c t i) = runI (deliverFix d (f ((s.thread c t).int a) ((s.thread c t).int b))) (workOn s c t i) := by
  unfold wIntOp
  rw [runI_operand_bind ha, runI_operand_bind hb]
  rfl

/-- Settles O10: each of the three delivers its integer through `deliverFix`. -/
theorem fixArithmetic : Obligations.FixArithmetic := by
  intro s c t d a b imm h th ha hb
  exact ⟨fix_delivers_or_overflows rfl h nofun rfl (runI_wIntOp ha hb), fix_delivers_or_overflows rfl h nofun rfl (runI_wIntOp ha hb),
    fix_delivers_or_overflows rfl h nofun rfl (runI_operand_bind ha)⟩

/-! ### Bits and shifts -/

theorem runI_bitsPair {α : Type} {i : Ins} {k : Cell × Cell → IM α} (ha : (s.thread c t).has a isBits = true)
    (hb : (s.thread c t).has b isBits = true) (hab : cellTag ((s.thread c t).reg a) = cellTag ((s.thread c t).reg b)) :
    runI (bitsPair a b >>= k) (workOn s c t i) = runI (k ((s.thread c t).reg a, (s.thread c t).reg b)) (workOn s c t i) := by
  refine runI_bind_ok ?_
  unfold bitsPair
  rw [runI_operand_bind ha, runI_operand_bind hb]
  exact runI_check_passes (by simp [hab])
theorem runI_bitsPair_fails {α : Type} {i : Ins} {k : Cell × Cell → IM α} (ha : (s.thread c t).has a isBits = true)
    (hb : (s.thread c t).has b isBits = true) (hab : cellTag ((s.thread c t).reg a) ≠ cellTag ((s.thread c t).reg b)) :
    runI (bitsPair a b >>= k) (workOn s c t i) = (.error (.fault 3#10 (fixN 1)), workOn s c t i) := by
  refine runI_bind_error ?_
  unfold bitsPair
  rw [runI_operand_bind ha, runI_operand_bind hb, runI_check_fails hab]
  rfl
theorem wBitOp_delivers {ins : Instr} {i : Ins} {f : Payload → Payload → Payload}
    (hex : exec ins s = .next (s.issue c t i (wBitOp d a b f))) (h : s.ready c t = true) (hs : i.sup = true → (s.thread c t).sup = true)
    (ha : (s.thread c t).has a isBits = true) (hb : (s.thread c t).has b isBits = true)
    (hab : cellTag ((s.thread c t).reg a) = cellTag ((s.thread c t).reg b)) :
    delivers ins s c t d (mkCell (cellTag ((s.thread c t).reg a)) 0#2 (f ((s.thread c t).pay a) ((s.thread c t).pay b))) :=
  delivers_of_run hex h hs (runI_bitsPair ha hb hab)
theorem wBitImm_delivers {ins : Instr} {i : Ins} {f : Payload → Payload}
    (hex : exec ins s = .next (s.issue c t i (wBitImm d a f))) (h : s.ready c t = true) (hs : i.sup = true → (s.thread c t).sup = true)
    (ha : (s.thread c t).has a isBits = true) :
    delivers ins s c t d (mkCell (cellTag ((s.thread c t).reg a)) 0#2 (f ((s.thread c t).pay a))) :=
  delivers_of_run hex h hs (runI_operand_bind ha)
theorem wShift_delivers {ins : Instr} {i : Ins} {f : Payload → Nat → Payload}
    (hex : exec ins s = .next (s.issue c t i (wShift d a b f))) (h : s.ready c t = true) (hs : i.sup = true → (s.thread c t).sup = true)
    (ha : (s.thread c t).has a isBits = true) (hb : (s.thread c t).has b fixTag = true) (hn : 0 ≤ (s.thread c t).int b) :
    delivers ins s c t d (mkCell (cellTag ((s.thread c t).reg a)) 0#2 (f ((s.thread c t).pay a) ((s.thread c t).pay b).toNat)) := by
  refine delivers_of_run hex h hs ?_
  unfold wShift
  rw [runI_operand_bind ha, runI_operand_bind hb]
  exact runI_check_passes (Int.not_lt.mpr hn)
theorem wShift_faults {ins : Instr} {i : Ins} {ic : Cell} {f : Payload → Nat → Payload}
    (hex : exec ins s = .next (s.issue c t i (wShift d a b f))) (h : s.ready c t = true) (hs : i.sup = true → (s.thread c t).sup = true)
    (hic : i.icell = ic) (ha : (s.thread c t).has a isBits = true) (hb : (s.thread c t).has b fixTag = true)
    (hn : (s.thread c t).int b < 0) : faults ins s c t 4#10 (fixN 1) ic := by
  refine faults_of_run hex h hs hic ?_
  unfold wShift
  rw [runI_operand_bind ha, runI_operand_bind hb]
  exact runI_check_fails hn
/-- A shift by 24 or more leaves no bit. -/
theorem shl24_eq (p : Payload) (n : Nat) : shl24 p n = if 24 ≤ n then 0#24 else p <<< n := by
  unfold shl24
  split
  next hn => exact BitVec.shiftLeft_eq_zero hn
  · rfl
theorem shr24_eq (p : Payload) (n : Nat) : shr24 p n = if 24 ≤ n then 0#24 else p >>> n := by
  unfold shr24
  split
  next hn => exact BitVec.ushiftRight_eq_zero hn
  · rfl
/-- An arithmetic shift by 24 or more leaves copies of bit 23. -/
theorem sar24_eq (p : Payload) (n : Nat) :
    sar24 p n = if 24 ≤ n then (if bit p 23 then 0xFFFFFF#24 else 0#24) else p.sshiftRight n := by
  unfold sar24 bit
  split
  next hn =>
    have hmsb : p.getLsbD 23 = p.msb := (BitVec.msb_eq_getLsbD_last p).symm
    ext i hi
    rw [hmsb, BitVec.getElem_sshiftRight, dif_neg (by omega)]
    cases p.msb
    · simp
    · exact (BitVec.getElem_allOnes i hi).symm
  · rfl
/-- A nonnegative amount is 24 or more as an integer just where its payload is. -/
theorem le_int_iff {r : Reg} (hn : 0 ≤ (s.thread c t).int r) : 24 ≤ (s.thread c t).int r ↔ 24 ≤ ((s.thread c t).pay r).toNat := by
  have e : ((s.thread c t).int r).toNat = ((s.thread c t).pay r).toNat := toNat_fixInt hn
  omega

/-- Settles O11: each instruction is one of three shapes of work; the shifts' results are those of `shl24_eq`, `shr24_eq`, `sar24_eq`. -/
theorem bitOperations : Obligations.BitOperations := by
  intro s c t d a b imm h
  dsimp only
  intro ha
  refine ⟨fun hb hab => ?_, fun hb hab => faults_of_run rfl h nofun rfl (runI_bitsPair_fails ha hb hab), fun hb hn => ?_,
    fun hb hn => ?_, ?_, ?_, ?_, ?_⟩
  · exact ⟨wBitOp_delivers (f := (· &&& ·)) rfl h nofun ha hb hab, wBitOp_delivers (f := (· ||| ·)) rfl h nofun ha hb hab,
      wBitOp_delivers (f := (· ^^^ ·)) rfl h nofun ha hb hab⟩
  · simp only [le_int_iff hn, ← shl24_eq, ← shr24_eq, ← sar24_eq]
    exact ⟨wShift_delivers (f := shl24) rfl h nofun ha hb hn, wShift_delivers (f := shr24) rfl h nofun ha hb hn,
      wShift_delivers (f := sar24) rfl h nofun ha hb hn⟩
  · exact ⟨wShift_faults rfl h nofun rfl ha hb hn, wShift_faults rfl h nofun rfl ha hb hn, wShift_faults rfl h nofun rfl ha hb hn⟩
  · exact wBitImm_delivers (f := (· &&& imm.setWidth 24)) rfl h nofun ha
  · rw [← shl24_eq]
    exact wBitImm_delivers (f := (shl24 · imm.toNat)) rfl h nofun ha
  · rw [← shr24_eq]
    exact wBitImm_delivers (f := (shr24 · imm.toNat)) rfl h nofun ha
  · rw [← sar24_eq]
    exact wBitImm_delivers (f := (sar24 · imm.toNat)) rfl h nofun ha

/-! ### Comparisons -/

theorem sameValue_eq (v w : Cell) : sameValue v w = decide (cellTag v = cellTag w ∧ cellPay v = cellPay w) := by simp [sameValue]

/-- Settles O12: the three deliver the truth of their comparison, inverted where v is set. -/
theorem comparisons : Obligations.Comparisons := by
  intro s c t d a b v h th res
  refine ⟨fun ha hb => ?_, fun ha hb => ?_, fun ha hb hab => ?_⟩
  · refine delivers_of_run (i := iDAB 0x1D d a b v) rfl h nofun ?_
    rw [runI_operand_bind ha, runI_operand_bind hb]
    rw [sameValue_eq]
    rfl
  · refine delivers_of_run (i := iDAB 0x1E d a b v) rfl h nofun ?_
    rw [runI_operand_bind ha, runI_operand_bind hb]
    rfl
  · refine delivers_of_run (i := iDAB 0x1F d a b v) rfl h nofun ?_
    rw [runI_bitsPair ha hb hab]
    rfl

/-- Settles O13: the ends `operand` has, on the first operand and, once that has passed, on the second. -/
theorem operandChecksInOrder : Obligations.OperandChecksInOrder := by
  intro s c t d a b h th ic
  have hfirst {x : Exit} (hx : runI (operand 0 a fixTag) (workOn s c t (iDAB 0x10 d a b false)) = (.error x, workOn s c t (iDAB 0x10 d a b false))) :
      runI (wIntOp d a b (· + ·)) (workOn s c t (iDAB 0x10 d a b false)) = (.error x, workOn s c t (iDAB 0x10 d a b false)) := runI_bind_error hx
  have hsecond {x : Exit} (ha : th.has a fixTag = true)
      (hx : runI (operand 1 b fixTag) (workOn s c t (iDAB 0x10 d a b false)) = (.error x, workOn s c t (iDAB 0x10 d a b false))) :
      runI (wIntOp d a b (· + ·)) (workOn s c t (iDAB 0x10 d a b false)) = (.error x, workOn s c t (iDAB 0x10 d a b false)) :=
    (runI_operand_bind ha).trans (runI_bind_error hx)
  have htag {g : BitVec 6} (hg : g ≠ tFIX) : fixTag g = false := decide_eq_false hg
  refine ⟨fun hp => ?_, fun hr => ?_, fun hp hr hg => ?_, fun ha hp => ?_, fun ha hr => ?_, fun ha hp hr hg => ?_⟩
  · exact faults_of_run rfl h nofun rfl (hfirst (runI_operand_psn 0 a fixTag _ hp))
  · exact reserved_of_run rfl h nofun rfl rfl (hfirst (runI_operand_reserved 0 a fixTag _ hr))
  · exact faults_of_run rfl h nofun rfl (hfirst (runI_operand_tag 0 a fixTag _ hp hr (htag hg)))
  · exact faults_of_run rfl h nofun rfl (hsecond ha (runI_operand_psn 1 b fixTag _ hp))
  · exact reserved_of_run rfl h nofun rfl rfl (hsecond ha (runI_operand_reserved 1 b fixTag _ hr))
  · exact faults_of_run rfl h nofun rfl (hsecond ha (runI_operand_tag 1 b fixTag _ hp hr (htag hg)))

end
end Sys2Proof.Machine
end

section
/-! Generic arithmetic on FIX and SFLT operands, short floats, and the accumulator (R215-R226, R235, R236). -/
namespace Sys2Proof.Machine

section
variable {s : State} {c : Chan} {t : Fin 8} {d a b : Reg} {imm : BitVec 6} {i : Ins} {ins : Instr}

/-! ### Numbers held in registers -/

/-- A cell that holds a number itself. -/
def isNumber (v : Cell) : Prop := cellTag v = tFIX ∨ cellTag v = tSFLT
theorem number_of_fix {r : Reg} (h : (s.thread c t).has r fixTag = true) : cellTag ((s.thread c t).reg r) = tFIX := by
  simp only [Thread.has, Bool.and_eq_true] at h
  exact of_decide_eq_true h.2
theorem number_of_sflt {r : Reg} (h : (s.thread c t).has r (fun g => g = tSFLT) = true) : cellTag ((s.thread c t).reg r) = tSFLT := by
  simp only [Thread.has, Bool.and_eq_true] at h
  exact of_decide_eq_true h.2
theorem isReserved_of_number {v : Cell} (h : isNumber v) : isReserved v = false := by
  rcases h with h | h <;> (unfold isReserved; rw [h]; rfl)
theorem tagClass_of_number {v : Cell} (h : isNumber v) : tagClass v = 0 ∨ tagClass v = 1 := by
  have hr := isReserved_of_number h
  rcases h with h | h <;> simp [tagClass, hr, h]
theorem runI_genCheck_number {α : Type} {n : Nat} {v : Cell} {k : Unit → IM α} {st : IS} (h : isNumber v) :
    runI (genCheck n v >>= k) st = runI (k ()) st := by
  have htag : cellTag v ≠ tPSN := by rcases h with h | h <;> rw [h] <;> decide
  refine runI_bind_ok ?_
  unfold genCheck
  simp [htag, isReserved_of_number h]
/-- Two numbers pass the generic dispatch (R215). -/
theorem runI_genDispatch_numbers {α : Type} {x y : Cell} {k : Unit → IM α} {st : IS} (hx : isNumber x) (hy : isNumber y) :
    runI (genDispatch x y >>= k) st = runI (k ()) st := by
  refine runI_bind_ok ?_
  unfold genDispatch
  rw [runI_genCheck_number hx, runI_genCheck_number hy]
  rcases tagClass_of_number hx with hx | hx <;> rcases tagClass_of_number hy with hy | hy <;> simp [genClass, hx, hy]
theorem runI_numVal_fix {α : Type} {v : Cell} {k : Num → IM α} {st : IS} (h : cellTag v = tFIX) :
    runI (numVal v >>= k) st = runI (k (.int (fixInt (cellPay v)))) st := by
  refine runI_bind_ok ?_
  unfold numVal
  rw [if_pos h]
  rfl
theorem runI_numVal_sflt {α : Type} {v : Cell} {k : Num → IM α} {st : IS} (h : cellTag v = tSFLT) :
    runI (numVal v >>= k) st = runI (k (.sf (cellPay v))) st := by
  refine runI_bind_ok ?_
  unfold numVal
  rw [if_neg (by rw [h]; decide), if_pos h]
  rfl
theorem runI_regCell {α : Type} {r : Reg} {k : Cell → IM α} :
    runI (regCell r >>= k) (workOn s c t i) = runI (k ((s.thread c t).reg r)) (workOn s c t i) := runI_bind_ok rfl
theorem runI_deliverInt_fits {n : Int} (hn : inFix n = true) :
    runI (deliverInt d n) (workOn s c t i) = runI (do commit; setD d (fixI n); return Flow.next) (workOn s c t i) := by
  unfold deliverInt canonical
  rw [if_pos hn]
/-- An instruction whose work delivers an integer that fits FIX. -/
theorem int_delivers {w : IM Flow} {n : Int} (hex : exec ins s = .next (s.issue c t i w)) (h : s.ready c t = true)
    (hs : i.sup = true → (s.thread c t).sup = true) (hn : -8388608 ≤ n ∧ n ≤ 8388607)
    (hw : runI w (workOn s c t i) = runI (deliverInt d n) (workOn s c t i)) : delivers ins s c t d (fix (BitVec.ofInt 24 n)) :=
  delivers_of_run hex h hs (hw.trans (runI_deliverInt_fits ((inFix_iff n).mpr hn)))
/-- An instruction whose work delivers a short float. -/
theorem sflt_delivers {w : IM Flow} {f : Fl} (hex : exec ins s = .next (s.issue c t i w)) (h : s.ready c t = true)
    (hs : i.sup = true → (s.thread c t).sup = true) (hw : runI w (workOn s c t i) = runI (deliverS d f) (workOn s c t i)) :
    delivers ins s c t d (mkCell tSFLT 0#2 (toSflt f)) := delivers_of_run hex h hs hw

/-! ### On FIX operands -/

theorem runI_wArith_fix {x y : Cell} {fi : Int → Int → Int} {ff : Fl → Fl → Fl} {st : IS} (hx : cellTag x = tFIX) (hy : cellTag y = tFIX) :
    runI (wArith d x y fi ff) st = runI (deliverInt d (fi (fixInt (cellPay x)) (fixInt (cellPay y)))) st := by
  unfold wArith
  rw [runI_genDispatch_numbers (.inl hx) (.inl hy), runI_numVal_fix hx, runI_numVal_fix hy]
theorem wArith_delivers {fi : Int → Int → Int} {ff : Fl → Fl → Fl}
    (hex : exec ins s = .next (s.issue c t i (do wArith d (← regCell a) (← regCell b) fi ff))) (h : s.ready c t = true)
    (hs : i.sup = true → (s.thread c t).sup = true) (ha : (s.thread c t).has a fixTag = true) (hb : (s.thread c t).has b fixTag = true)
    (hn : -8388608 ≤ fi ((s.thread c t).int a) ((s.thread c t).int b) ∧ fi ((s.thread c t).int a) ((s.thread c t).int b) ≤ 8388607) :
    delivers ins s c t d (fix (BitVec.ofInt 24 (fi ((s.thread c t).int a) ((s.thread c t).int b)))) := by
  refine int_delivers hex h hs hn ?_
  rw [runI_regCell, runI_regCell, runI_wArith_fix (number_of_fix ha) (number_of_fix hb)]
  rfl
theorem wCompare_delivers_fix {v : Bool} {fi : Int → Int → Bool} {ff : Fl → Fl → Bool}
    (hex : exec ins s = .next (s.issue c t i (wCompare d a b v fi ff))) (h : s.ready c t = true)
    (hs : i.sup = true → (s.thread c t).sup = true) (ha : (s.thread c t).has a fixTag = true) (hb : (s.thread c t).has b fixTag = true) :
    delivers ins s c t d (truth (fi ((s.thread c t).int a) ((s.thread c t).int b) != v)) := by
  have hx := number_of_fix ha
  have hy := number_of_fix hb
  refine delivers_of_run hex h hs ?_
  unfold wCompare
  rw [runI_regCell, runI_regCell, runI_genDispatch_numbers (.inl hx) (.inl hy), runI_numVal_fix hx, runI_numVal_fix hy]
  rfl
theorem fdiv_delivers_fix (h : s.ready c t = true) (ha : (s.thread c t).has a fixTag = true) (hb : (s.thread c t).has b fixTag = true) :
    delivers (.fdiv c t d a b) s c t d (mkCell tSFLT 0#2
      (toSflt (Fl.div (sfltVal (toSflt (intVal ((s.thread c t).int a)))) (sfltVal (toSflt (intVal ((s.thread c t).int b))))))) := by
  have hx := number_of_fix ha
  have hy := number_of_fix hb
  refine sflt_delivers rfl h nofun ?_
  rw [runI_regCell, runI_regCell, runI_genDispatch_numbers (.inl hx) (.inl hy), runI_numVal_fix hx, runI_numVal_fix hy]
  rfl
theorem neg_delivers_fix (h : s.ready c t = true) (ha : (s.thread c t).has a fixTag = true)
    (hn : -8388608 ≤ -(s.thread c t).int a ∧ -(s.thread c t).int a ≤ 8388607) :
    delivers (.neg c t d a) s c t d (fix (BitVec.ofInt 24 (-(s.thread c t).int a))) := by
  have hx := number_of_fix ha
  refine int_delivers rfl h nofun hn ?_
  rw [runI_regCell, runI_genDispatch_numbers (.inl hx) (.inl rfl), runI_numVal_fix hx]
  rfl
/-- The three fields of a cell, read off what it was put together from. -/
theorem extract_append3 (g : BitVec 6) (k : BitVec 2) (p : BitVec 24) :
    (g ++ k ++ p).extractLsb' 26 6 = g ∧ (g ++ k ++ p).extractLsb' 24 2 = k := by
  constructor
  · ext i hi
    have hlo : ¬ 26 + i < 24 := by omega
    have hmid : ¬ 26 + i - 24 < 2 := by omega
    have hrest : 26 + i - 24 - 2 = i := by omega
    rw [BitVec.getElem_extractLsb', BitVec.getLsbD_append, if_neg hlo, BitVec.getLsbD_append, if_neg hmid, hrest,
      BitVec.getLsbD_eq_getElem]
  · ext i hi
    have hlo : ¬ 24 + i < 24 := by omega
    have hin : 24 + i - 24 < 2 := by omega
    rw [BitVec.getElem_extractLsb', BitVec.getLsbD_append, if_neg hlo, BitVec.getLsbD_append, if_pos hin, Nat.add_sub_cancel_left,
      BitVec.getLsbD_eq_getElem]
@[simp] theorem cellTag_mkCell (g : BitVec 6) (k : BitVec 2) (p : Payload) : cellTag (mkCell g k p) = g := (extract_append3 g k p).1
@[simp] theorem cellCdr_mkCell (g : BitVec 6) (k : BitVec 2) (p : Payload) : cellCdr (mkCell g k p) = k := (extract_append3 g k p).2
@[simp] theorem cellPay_mkCell (g : BitVec 6) (k : BitVec 2) (p : Payload) : cellPay (mkCell g k p) = p :=
  BitVec.extractLsb'_append_eq_right
theorem cellTag_fixI (n : Int) : cellTag (fixI n) = tFIX := cellTag_mkCell _ _ _
theorem cellPay_fixI (n : Int) : cellPay (fixI n) = BitVec.ofInt 24 n := cellPay_fix _
theorem fixInt_ofInt_imm (imm : BitVec 6) : fixInt (BitVec.ofInt 24 imm.toInt) = imm.toInt := by
  revert imm
  decide
theorem addi_delivers_fix (h : s.ready c t = true) (ha : (s.thread c t).has a fixTag = true)
    (hn : -8388608 ≤ (s.thread c t).int a + imm.toInt ∧ (s.thread c t).int a + imm.toInt ≤ 8388607) :
    delivers (.addi c t d a imm) s c t d (fix (BitVec.ofInt 24 ((s.thread c t).int a + imm.toInt))) := by
  refine int_delivers rfl h nofun hn ?_
  rw [runI_regCell, runI_wArith_fix (number_of_fix ha) (cellTag_fixI _), cellPay_fixI, fixInt_ofInt_imm]
  rfl
theorem tosf_delivers_fix (h : s.ready c t = true) (ha : (s.thread c t).has a fixTag = true) :
    delivers (.tosf c t d a) s c t d (mkCell tSFLT 0#2 (toSflt (intVal ((s.thread c t).int a)))) := by
  have hx := number_of_fix ha
  refine sflt_delivers rfl h nofun ?_
  rw [runI_regCell, runI_genDispatch_numbers (.inl hx) (.inl rfl), runI_numVal_fix hx]
  rfl
/-- TRUNC delivers an integer operand with CDR 00 (log 59). -/
theorem trunc_delivers_fix (h : s.ready c t = true) (ha : (s.thread c t).has a fixTag = true) :
    delivers (.trunc c t d a) s c t d (fix ((s.thread c t).pay a)) := by
  have hx := number_of_fix ha
  have hfix : fix ((s.thread c t).pay a) = withCdr ((s.thread c t).reg a) 0#2 := by
    unfold withCdr
    rw [hx]
    rfl
  rw [hfix]
  refine delivers_of_run rfl h nofun ?_
  rw [runI_regCell, runI_genDispatch_numbers (.inl hx) (.inl rfl), runI_numVal_fix hx]
theorem genericOnFix : genericOnFixClaim := by
  intro s c t d a b imm v h
  dsimp only
  intro ha
  refine ⟨fun hb => ⟨?_, ?_, ?_, fdiv_delivers_fix h ha hb, ?_, ?_⟩, neg_delivers_fix h ha, addi_delivers_fix h ha, tosf_delivers_fix h ha,
    trunc_delivers_fix h ha⟩
  · exact wArith_delivers (fi := (· + ·)) rfl h nofun ha hb
  · exact wArith_delivers (fi := (· - ·)) rfl h nofun ha hb
  · exact wArith_delivers (fi := (· * ·)) rfl h nofun ha hb
  · exact wCompare_delivers_fix (fi := fun i j => decide (i = j)) rfl h nofun ha hb
  · exact wCompare_delivers_fix (fi := fun i j => decide (i < j)) rfl h nofun ha hb

/-! ### Quotient and remainder -/

theorem runI_wQuo {f : Int → Int → Int} (ha : (s.thread c t).has a fixTag = true) (hb : (s.thread c t).has b fixTag = true)
    (hz : (s.thread c t).int b ≠ 0) :
    runI (wQuo d a b f) (workOn s c t i) = runI (deliverInt d (f ((s.thread c t).int a) ((s.thread c t).int b))) (workOn s c t i) := by
  have hx := number_of_fix ha
  have hy := number_of_fix hb
  have hpay : cellPay ((s.thread c t).reg b) ≠ 0#24 := fun e => hz (by unfold Thread.int; rw [e]; rfl)
  unfold wQuo
  rw [runI_regCell, runI_regCell, runI_genDispatch_numbers (.inl hx) (.inl hy), runI_check_passes (by rw [hx]; decide),
    runI_check_passes (by rw [hy]; decide), runI_check_passes (by simp [hpay]), runI_numVal_fix hx]
  have hneed (n : Int) (st : IS) {α : Type} (k : Int → IM α) : runI (needInt (.int n) >>= k) st = runI (k n) st := runI_bind_ok rfl
  rw [hneed, runI_numVal_fix hy, hneed, runI_check_passes (by exact hz)]
  rfl
theorem runI_wQuo_zero {f : Int → Int → Int} (ha : (s.thread c t).has a fixTag = true) (hb : (s.thread c t).has b fixTag = true)
    (hz : (s.thread c t).int b = 0) : runI (wQuo d a b f) (workOn s c t i) = (.error (.fault 4#10 (fixN 1)), workOn s c t i) := by
  have hx := number_of_fix ha
  have hy := number_of_fix hb
  have hpay : cellPay ((s.thread c t).reg b) = 0#24 := BitVec.eq_of_toInt_eq hz
  unfold wQuo
  rw [runI_regCell, runI_regCell, runI_genDispatch_numbers (.inl hx) (.inl hy), runI_check_passes (by rw [hx]; decide),
    runI_check_passes (by rw [hy]; decide)]
  exact runI_check_fails (by simp [hy, hpay])
theorem fixInt_range (p : Payload) : -8388608 ≤ fixInt p ∧ fixInt p ≤ 8388607 := by
  have hlo := BitVec.le_toInt p
  have hhi := BitVec.toInt_lt (x := p)
  unfold fixInt
  omega
/-- A quotient of two FIX integers fits FIX but for −8,388,608 by −1. -/
theorem tdiv_fits {x y : Int} (hx : -8388608 ≤ x ∧ x ≤ 8388607) (hno : ¬ (x = -8388608 ∧ y = -1)) :
    -8388608 ≤ x.tdiv y ∧ x.tdiv y ≤ 8388607 := by
  have habs : (x.tdiv y).natAbs = x.natAbs / y.natAbs := Int.natAbs_tdiv x y
  have hle := Nat.div_le_self x.natAbs y.natAbs
  rcases eq_or_ne y.natAbs 1 with h1 | h1
  · rcases Int.natAbs_eq_iff.mp h1 with rfl | rfl
    · simpa using hx
    · have hneg : x.tdiv (-↑(1 : Nat)) = -x := by simp
      rw [hneg]
      omega
  · have hhalf : x.natAbs / y.natAbs ≤ x.natAbs / 2 ∨ y.natAbs = 0 := by
      rcases Nat.eq_zero_or_pos y.natAbs with h0 | hpos
      · exact .inr h0
      · exact .inl (Nat.div_le_div_left (by omega) (by decide))
    rcases hhalf with hh | h0
    · omega
    · simp [Int.natAbs_eq_zero.mp h0]
/-- A remainder has the sign of the dividend. -/
theorem tmod_sign (x y : Int) : (0 < x.tmod y → 0 < x) ∧ (x.tmod y < 0 → x < 0) := by
  refine ⟨fun h => ?_, fun h => ?_⟩
  · by_contra hx
    have hge := Int.tmod_nonneg y (show 0 ≤ -x by omega)
    rw [Int.neg_tmod] at hge
    omega
  · by_contra hx
    have hge := Int.tmod_nonneg y (show 0 ≤ x by omega)
    omega
theorem tmod_fits {x y : Int} (hx : -8388608 ≤ x ∧ x ≤ 8388607) : -8388608 ≤ x.tmod y ∧ x.tmod y ≤ 8388607 := by
  have habs : (x.tmod y).natAbs ≤ x.natAbs := by
    rw [Int.natAbs_tmod]
    exact Nat.mod_le _ _
  obtain ⟨hpos, hneg⟩ := tmod_sign x y
  omega
theorem quotientAndRemainder : quotientAndRemainderClaim := by
  intro s c t d a b h
  dsimp only
  intro ha hb
  refine ⟨fun hz hno => ?_, fun hz => ⟨?_, ?_⟩⟩
  · have hq := tdiv_fits (fixInt_range (cellPay ((s.thread c t).reg a))) hno
    refine ⟨((s.thread c t).int a).tdiv ((s.thread c t).int b), ((s.thread c t).int a).tmod ((s.thread c t).int b),
      int_delivers rfl h nofun hq (runI_wQuo ha hb hz), int_delivers rfl h nofun (tmod_fits (fixInt_range _)) (runI_wQuo ha hb hz),
      (Int.tdiv_mul_add_tmod _ _).symm, ?_, (tmod_sign _ _).1, (tmod_sign _ _).2, hq⟩
    rw [Int.natAbs_tmod]
    exact Nat.mod_lt _ (Int.natAbs_pos.mpr hz)
  · exact faults_of_run rfl h nofun rfl (runI_wQuo_zero ha hb hz)
  · exact faults_of_run rfl h nofun rfl (runI_wQuo_zero ha hb hz)
theorem fixProductNeverOverflows : fixProductNeverOverflowsClaim := by
  intro p q
  have hp := fixInt_range p
  have hq := fixInt_range q
  have hprod : -140737488355328 ≤ fixInt p * fixInt q ∧ fixInt p * fixInt q ≤ 140737488355327 := by
    constructor <;> nlinarith
  unfold canonical
  simp [hprod]
  split <;> nofun

/-- Settles O14: sums, products, comparisons, conversions, quotients and remainders each by their lemma. -/
theorem genericArithmetic : Obligations.GenericArithmetic := ⟨genericOnFix, quotientAndRemainder, fixProductNeverOverflows⟩

/-! ### On SFLT operands -/

theorem runI_wArith_sflt {x y : Cell} {fi : Int → Int → Int} {ff : Fl → Fl → Fl} {st : IS} (hx : cellTag x = tSFLT) (hy : cellTag y = tSFLT) :
    runI (wArith d x y fi ff) st = runI (deliverS d (ff (sfltVal (cellPay x)) (sfltVal (cellPay y)))) st := by
  unfold wArith
  rw [runI_genDispatch_numbers (.inr hx) (.inr hy), runI_numVal_sflt hx, runI_numVal_sflt hy]
  rfl
theorem wArith_delivers_sflt {fi : Int → Int → Int} {ff : Fl → Fl → Fl}
    (hex : exec ins s = .next (s.issue c t i (do wArith d (← regCell a) (← regCell b) fi ff))) (h : s.ready c t = true)
    (hs : i.sup = true → (s.thread c t).sup = true) (ha : (s.thread c t).has a (fun g => g = tSFLT) = true)
    (hb : (s.thread c t).has b (fun g => g = tSFLT) = true) :
    delivers ins s c t d (mkCell tSFLT 0#2 (toSflt (ff (sfltVal ((s.thread c t).pay a)) (sfltVal ((s.thread c t).pay b))))) := by
  refine sflt_delivers hex h hs ?_
  rw [runI_regCell, runI_regCell, runI_wArith_sflt (number_of_sflt ha) (number_of_sflt hb)]
  rfl
theorem wShort_delivers {f : Fl → Fl → Fl} (hex : exec ins s = .next (s.issue c t i (wShort d a b f))) (h : s.ready c t = true)
    (hs : i.sup = true → (s.thread c t).sup = true) (ha : (s.thread c t).has a (fun g => g = tSFLT) = true)
    (hb : (s.thread c t).has b (fun g => g = tSFLT) = true) :
    delivers ins s c t d (mkCell tSFLT 0#2 (toSflt (f (sfltVal ((s.thread c t).pay a)) (sfltVal ((s.thread c t).pay b))))) := by
  refine sflt_delivers hex h hs ?_
  unfold wShort
  rw [runI_operand_bind ha, runI_operand_bind hb]
  rfl
theorem wCompare_delivers_sflt {v : Bool} {fi : Int → Int → Bool} {ff : Fl → Fl → Bool}
    (hex : exec ins s = .next (s.issue c t i (wCompare d a b v fi ff))) (h : s.ready c t = true)
    (hs : i.sup = true → (s.thread c t).sup = true) (ha : (s.thread c t).has a (fun g => g = tSFLT) = true)
    (hb : (s.thread c t).has b (fun g => g = tSFLT) = true) :
    delivers ins s c t d (truth (ff (sfltVal ((s.thread c t).pay a)) (sfltVal ((s.thread c t).pay b)) != v)) := by
  have hx := number_of_sflt ha
  have hy := number_of_sflt hb
  refine delivers_of_run hex h hs ?_
  unfold wCompare
  rw [runI_regCell, runI_regCell, runI_genDispatch_numbers (.inr hx) (.inr hy), runI_numVal_sflt hx, runI_numVal_sflt hy]
  rfl
theorem fdiv_delivers_sflt (h : s.ready c t = true) (ha : (s.thread c t).has a (fun g => g = tSFLT) = true)
    (hb : (s.thread c t).has b (fun g => g = tSFLT) = true) :
    delivers (.fdiv c t d a b) s c t d
      (mkCell tSFLT 0#2 (toSflt ((sfltVal ((s.thread c t).pay a)).div (sfltVal ((s.thread c t).pay b))))) := by
  have hx := number_of_sflt ha
  have hy := number_of_sflt hb
  refine sflt_delivers rfl h nofun ?_
  rw [runI_regCell, runI_regCell, runI_genDispatch_numbers (.inr hx) (.inr hy), runI_numVal_sflt hx, runI_numVal_sflt hy]
  rfl
theorem neg_delivers_sflt (h : s.ready c t = true) (ha : (s.thread c t).has a (fun g => g = tSFLT) = true) :
    delivers (.neg c t d a) s c t d (mkCell tSFLT 0#2 (toSflt (sfltVal ((s.thread c t).pay a)).neg)) := by
  have hx := number_of_sflt ha
  refine sflt_delivers rfl h nofun ?_
  rw [runI_regCell, runI_genDispatch_numbers (.inr hx) (.inl rfl), runI_numVal_sflt hx]
  rfl
theorem nan_compares_false (y : Fl) : Fl.nan.eq y = false ∧ Fl.nan.lt y = false := ⟨rfl, rfl⟩

/-- Settles O15: the generic and the short-float form of each operation by one lemma each. -/
theorem shortFloats : Obligations.ShortFloats := by
  intro s c t d a b v h
  dsimp only
  intro ha hb
  refine ⟨?_, ?_, ?_, ?_, ?_, ?_, ?_, fdiv_delivers_sflt h ha hb, neg_delivers_sflt h ha, ?_, ?_, fun hx => hx ▸ nan_compares_false _⟩
  · exact wShort_delivers (f := Fl.add) rfl h nofun ha hb
  · exact wArith_delivers_sflt (fi := (· + ·)) (ff := Fl.add) rfl h nofun ha hb
  · exact wShort_delivers (f := Fl.sub) rfl h nofun ha hb
  · exact wArith_delivers_sflt (fi := (· - ·)) (ff := Fl.sub) rfl h nofun ha hb
  · exact wShort_delivers (f := Fl.mul) rfl h nofun ha hb
  · exact wArith_delivers_sflt (fi := (· * ·)) (ff := Fl.mul) rfl h nofun ha hb
  · exact wShort_delivers (f := Fl.div) rfl h nofun ha hb
  · exact wCompare_delivers_sflt (fi := fun i j => decide (i = j)) (ff := Fl.eq) rfl h nofun ha hb
  · exact wCompare_delivers_sflt (fi := fun i j => decide (i < j)) (ff := Fl.lt) rfl h nofun ha hb

/-! ### The accumulator -/

/-- What MAC and MACS leave of their thread where the sum leaves the accumulator's range. -/
def overflowed (th : Thread) (acc : BitVec 56) : Thread := { th with acc := acc, pstate := setBit th.pstate 4 true }
section
variable {v sat : Bool}
/-- MAC and MACS of two FIX operands come down to the exact sum. -/
theorem runI_wMac (ha : (s.thread c t).has a fixTag = true) (hb : (s.thread c t).has b fixTag = true) :
    runI (wMac a b v sat) (workOn s c t i) = runI (do
      let sum := macSum (← getT).acc ((s.thread c t).pay a) ((s.thread c t).pay b) v
      if inAcc sum then
        modT (fun th => { th with acc := BitVec.ofInt 56 sum })
        return .next
      else
        let t ← me
        modM (fun m => m.bumpT t 46)
        modT (fun th => overflowed th (if sat then accSat sum else BitVec.ofInt 56 sum))
        if sat then return .next else throw (.trap 26#10 fix0)) (workOn s c t i) := by
  unfold wMac
  rw [runI_operand_bind ha, runI_operand_bind hb]
  rfl
theorem runI_wMac_within (ha : (s.thread c t).has a fixTag = true) (hb : (s.thread c t).has b fixTag = true)
    (hin : inAcc (macSum (s.thread c t).acc ((s.thread c t).pay a) ((s.thread c t).pay b) v) = true) :
    runI (wMac a b v sat) (workOn s c t i) = (.ok .next, wrote s c t i { s.thread c t with
      acc := BitVec.ofInt 56 (macSum (s.thread c t).acc ((s.thread c t).pay a) ((s.thread c t).pay b) v) }) := by
  rw [runI_wMac ha hb, runI_bind_ok (runI_getT _)]
  exact (runI_ite _ _ _ _).trans (if_pos hin)
/-- The slice after a sum outside the range: counter 46 has moved and the thread has overflowed. -/
def macSlice (s : State) (c : Chan) (t : Fin 8) (i : Ins) (acc : BitVec 56) : IS :=
  { workOn s c t i with m := ((s.begun c t i).bumpT t 46).setThr t (overflowed (s.thread c t) acc) }
theorem macSlice_perfOnly (acc : BitVec 56) :
    perfOnly ((s.begun c t i).setThr t (overflowed (s.thread c t) acc)) (macSlice s c t i acc).m := by
  obtain ⟨p, n, hp⟩ := bumpT_perfOnly (s.begun c t i) t 46
  unfold macSlice
  dsimp only
  rw [hp]
  exact ⟨p, n, rfl⟩
theorem runI_wMac_beyond (ha : (s.thread c t).has a fixTag = true) (hb : (s.thread c t).has b fixTag = true)
    (hout : inAcc (macSum (s.thread c t).acc ((s.thread c t).pay a) ((s.thread c t).pay b) v) = false) :
    runI (wMac a b v false) (workOn s c t i) = (.error (.trap 26#10 fix0), macSlice s c t i
      (BitVec.ofInt 56 (macSum (s.thread c t).acc ((s.thread c t).pay a) ((s.thread c t).pay b) v))) ∧
    runI (wMac a b v true) (workOn s c t i) = (.ok .next, macSlice s c t i
      (accSat (macSum (s.thread c t).acc ((s.thread c t).pay a) ((s.thread c t).pay b) v))) := by
  constructor <;>
  · rw [runI_wMac ha hb, runI_bind_ok (runI_getT _)]
    exact (runI_ite _ _ _ _).trans (if_neg (Bool.eq_false_iff.mp hout))
theorem inAcc_iff (n : Int) : inAcc n = true ↔ -36028797018963968 ≤ n ∧ n ≤ 36028797018963967 := by
  simp [inAcc, accMin, accMax]
theorem accSat_eq (n : Int) : accSat n = if n < 0 then 0x80000000000000#56 else 0x7FFFFFFFFFFFFF#56 := rfl
theorem mac_within (h : s.ready c t = true) (ha : (s.thread c t).has a fixTag = true) (hb : (s.thread c t).has b fixTag = true)
    (hin : inAcc (macSum (s.thread c t).acc ((s.thread c t).pay a) ((s.thread c t).pay b) v) = true) :
    let th := { s.thread c t with acc := BitVec.ofInt 56 (macSum (s.thread c t).acc ((s.thread c t).pay a) ((s.thread c t).pay b) v) }
    completes (.mac c t a b v) s c t (th.complete .next) ∧ completes (.macs c t a b v) s c t (th.complete .next) :=
  ⟨completes_of_run rfl h nofun nofun nofun (runI_wMac_within ha hb hin), completes_of_run rfl h nofun nofun nofun (runI_wMac_within ha hb hin)⟩
theorem mac_beyond (h : s.ready c t = true) (ha : (s.thread c t).has a fixTag = true) (hb : (s.thread c t).has b fixTag = true)
    (hout : inAcc (macSum (s.thread c t).acc ((s.thread c t).pay a) ((s.thread c t).pay b) v) = false) :
    completes (.mac c t a b v) s c t (((overflowed (s.thread c t) (BitVec.ofInt 56
      (macSum (s.thread c t).acc ((s.thread c t).pay a) ((s.thread c t).pay b) v))).complete .next).raiseSync 26#10 fix0
        (cellA 0xA0 0 a b v) 1#2) ∧
    completes (.macs c t a b v) s c t ((overflowed (s.thread c t)
      (accSat (macSum (s.thread c t).acc ((s.thread c t).pay a) ((s.thread c t).pay b) v))).complete .next) := by
  obtain ⟨htrap, hsat⟩ := runI_wMac_beyond (i := (iAB 0xA0 a b v).touching) ha hb hout
  obtain ⟨-, hsat⟩ := runI_wMac_beyond (i := (iAB 0xA1 a b v).touching) ha hb hout
  exact ⟨⟨_, rfl, issue_trap h nofun htrap (macSlice_perfOnly _)⟩, ⟨_, rfl, issue_done h nofun nofun nofun hsat (macSlice_perfOnly _)⟩⟩
theorem accget_delivers (h : s.ready c t = true) (himm : imm ≤ 32#6)
    (hn : -8388608 ≤ accGetInt (s.thread c t).acc imm.toNat ∧ accGetInt (s.thread c t).acc imm.toNat ≤ 8388607) :
    delivers (.accget c t d imm) s c t d (fix (BitVec.ofInt 24 (accGetInt (s.thread c t).acc imm.toNat))) := by
  refine int_delivers rfl h nofun hn ?_
  rw [runI_check_passes (by simpa [BitVec.le_def] using himm), runI_bind_ok (runI_getT _), thr_begun]
theorem accget_faults (h : s.ready c t = true) (himm : 32#6 < imm) :
    faults (.accget c t d imm) s c t 4#10 (fixN 4) (cellI 0xA3 d 0 imm) :=
  faults_of_run rfl h nofun rfl (runI_check_fails (by simpa [BitVec.lt_def] using himm))
theorem accGetInt_eq (acc : BitVec 56) (imm : BitVec 6) :
    (acc.toInt + (if imm = 0#6 then 0 else 2 ^ (imm.toNat - 1))) / 2 ^ imm.toNat = accGetInt acc imm.toNat := by
  unfold accGetInt
  simp only [← BitVec.toNat_inj, BitVec.toNat_ofNat, Nat.zero_mod]
end

/-- Settles O16: the cases are those of the range check on the exact sum, and ACCGET's check of its amount. -/
theorem accumulator : Obligations.Accumulator := by
  intro s c t d a b imm v h
  dsimp only
  refine ⟨fun ha hb => ⟨fun hin => mac_within h ha hb ((inAcc_iff _).mpr hin), fun hout => ?_⟩, ?_, ?_, accget_faults h⟩
  · refine mac_beyond h ha hb (Bool.eq_false_iff.mpr fun hin => ?_)
    obtain ⟨hlo, hhi⟩ := (inAcc_iff _).mp hin
    exact hout.elim (not_lt.mpr hlo) (not_lt.mpr hhi)
  · exact completes_of_run (th := { s.thread c t with acc := 0#56 }) rfl h nofun nofun nofun rfl
  · rw [accGetInt_eq]
    exact fun himm hlo hhi => accget_delivers h himm ⟨hlo, hhi⟩

end
end Sys2Proof.Machine
end

section
/-! Hardware loops, special registers read, and the start of a thread (R186-R188, R207, R212). -/
namespace Sys2Proof.Machine

section
variable {s : State} {c : Chan} {t : Fin 8} {d : Reg} {off : BitVec 11} {n : BitVec 11}

/-! ### LOOP and the loop-end step -/

/-- LOOP of a nonnegative count over a nonempty body. -/
theorem loop_completes (h : s.ready c t = true) (hd : (s.thread c t).has d fixTag = true) (hpos : 0 ≤ (s.thread c t).int d) (hoff : off ≠ 0#11) :
    completes (.loop c t d off) s c t
      ({ s.thread c t with
          loopC := (s.thread c t).pay d
          loopS := (s.thread c t).pc + 1#24
          loopE := (s.thread c t).pc + off.setWidth 24 }.complete
        (if (s.thread c t).pay d = 0#24 then .jump ((s.thread c t).pc + off.setWidth 24 + 1#24) else .next)) := by
  have hcheck : ¬ fixInt (cellPay ((s.thread c t).reg d)) < 0 := not_lt.mpr hpos
  refine completes_of_run rfl h nofun ?_ ?_ ?_
  · split <;> nofun
  · split <;> nofun
  rw [runI_operand_bind hd, runI_check_passes hcheck, runI_check_passes hoff, runI_bind_ok (runI_commit_nil ..), runI_bind_ok (runI_getT _),
    runI_bind_ok (runI_modT _ _)]
  unfold Thread.pay
  split <;> rfl
theorem loop_faults_of_neg (h : s.ready c t = true) (hd : (s.thread c t).has d fixTag = true) (hneg : (s.thread c t).int d < 0) :
    faults (.loop c t d off) s c t 4#10 (fixN 2) (cellL 0x37 d off) := by
  refine faults_of_run rfl h nofun rfl ?_
  rw [runI_operand_bind hd]
  exact runI_check_fails (p := fixInt (cellPay ((s.thread c t).reg d)) < 0) hneg
theorem loop_faults_of_empty (h : s.ready c t = true) (hd : (s.thread c t).has d fixTag = true) (hpos : 0 ≤ (s.thread c t).int d)
    (hoff : off = 0#11) : faults (.loop c t d off) s c t 4#10 (fixN 4) (cellL 0x37 d off) := by
  have hcheck : ¬ fixInt (cellPay ((s.thread c t).reg d)) < 0 := not_lt.mpr hpos
  refine faults_of_run rfl h nofun rfl ?_
  rw [runI_operand_bind hd, runI_check_passes hcheck]
  exact runI_check_fails hoff
theorem loopSetup : loopSetupClaim := by
  intro s c t d off h
  dsimp only
  exact fun hd => ⟨loop_completes h hd, loop_faults_of_neg h hd, loop_faults_of_empty h hd⟩

/-- A thread out of the mode-change shadow stays out of it. -/
theorem leaveShadow_eq {th : Thread} (h : th.inShadow = false) : { th with inShadow := false } = th := by
  cases th
  cases h
  rfl
/-- The step at the loop end (R207), for a thread out of its upper-half fill and out of the mode-change shadow. -/
theorem retire_at_end {th : Thread} (hshadow : th.inShadow = false) (hz : th.lz = false) (hpc : th.pc = th.loopE) (hc : th.loopC ≠ 0#24)
    (target : Option VAddr) :
    th.retire target = match target with
      | some a => { th with loopC := 0#24, pc := a }
      | none => if 1#24 < th.loopC then { th with loopC := th.loopC - 1#24, pc := th.loopS }
        else { th with loopC := 0#24, pc := th.loopE + 1#24 } := by
  unfold Thread.retire
  rw [leaveShadow_eq hshadow]
  exact if_pos (by simp [hz, hpc, hc])
theorem retire_elsewhere {th : Thread} (hshadow : th.inShadow = false) (hno : th.pc ≠ th.loopE ∨ th.loopC = 0#24) (target : Option VAddr) :
    th.retire target = { th with pc := target.getD (th.pc + 1#24) } := by
  unfold Thread.retire
  rw [leaveShadow_eq hshadow]
  exact if_neg (by rcases hno with hno | hno <;> simp [hno])
theorem nopWord : cellTag (cellA 0x01 0 0 0 false) = tINSTR ∧ cellPay (cellA 0x01 0 0 0 false) = 0x010000#24 := by decide
theorem nop_cell_completes (h : s.ready c t = true) :
    completes (.nop c ⟨t, cellA 0x01 0 0 0 false⟩) s c t ((s.thread c t).complete .next) := nop_completes h nopWord.1 nopWord.2
theorem j_completes (off : BitVec 16) (h : s.ready c t = true) :
    completes (.j c t off) s c t ((s.thread c t).complete (.jump ((s.thread c t).pc + off.signExtend 24))) :=
  completes_of_idle (i := iJ 0x30 off) rfl h nofun nofun nofun rfl
theorem loopEndStep : loopEndStepClaim := by
  intro s c t off h hshadow
  dsimp only
  have hnop := nop_cell_completes h
  have hj := j_completes off h
  have hz := lz_of_ready h
  unfold Thread.complete at hnop hj
  dsimp only at hnop hj
  refine ⟨fun hpc hc => ?_, fun hpc hc => ?_, fun hpc hc => ?_, fun hno => ?_⟩
  · have hc0 : (s.thread c t).loopC ≠ 0#24 := fun e => by
      rw [e] at hc
      exact absurd hc (by decide)
    rw [retire_at_end hshadow hz hpc hc0] at hnop
    simpa only [hc, if_true] using hnop
  · have hlast : ¬ 1#24 < (s.thread c t).loopC := by
      rw [hc]
      decide
    rw [retire_at_end hshadow hz hpc (by rw [hc]; decide)] at hnop
    simpa only [hlast, if_false] using hnop
  · rw [retire_at_end hshadow hz hpc hc] at hj
    exact hj
  · rw [retire_elsewhere hshadow hno] at hnop hj
    exact ⟨hnop, hj⟩

/-- Settles O17: LOOP's checks in their order, and the cases of the loop-end step. -/
theorem hardwareLoop : Obligations.HardwareLoop := ⟨loopSetup, loopEndStep⟩

/-! ### MFS -/

/-- The number names a register of Tables 8.1 and 8.2, read with this right, and v is what a read delivers. -/
def sregIs (m : Mach) (t : Fin 8) (n : Nat) (readSup : Bool) (v : Cell) : Prop :=
  ∃ r, sreg n = some r ∧ r.readSup = readSup ∧ m.sregRead t n = v
theorem thread_specials_read (s : State) (c : Chan) (t : Fin 8) (i : Ins) :
    ∀ r ∈ (s.thread c t).specials t, sregIs (s.begun c t i) t r.1.toNat r.2.1 r.2.2 := by
  simp only [Thread.specials, List.forall_mem_cons, List.not_mem_nil, IsEmpty.forall_iff, implies_true, and_true]
  exact ⟨⟨_, rfl, rfl, rfl⟩, ⟨_, rfl, rfl, rfl⟩, ⟨_, rfl, rfl, rfl⟩, ⟨_, rfl, rfl, rfl⟩, ⟨_, rfl, rfl, rfl⟩, ⟨_, rfl, rfl, rfl⟩,
    ⟨_, rfl, rfl, rfl⟩, ⟨_, rfl, rfl, rfl⟩, ⟨_, rfl, rfl, rfl⟩, ⟨_, rfl, rfl, rfl⟩, ⟨_, rfl, rfl, rfl⟩, ⟨_, rfl, rfl, rfl⟩, ⟨_, rfl, rfl, rfl⟩⟩
theorem proc_specials_read (s : State) (c : Chan) (t : Fin 8) (i : Ins) :
    ∀ r ∈ (s.chan c).proc.specials, sregIs (s.begun c t i) t r.1.toNat r.2.1 r.2.2 := by
  simp only [Proc.specials, List.forall_mem_cons, List.not_mem_nil, IsEmpty.forall_iff, implies_true, and_true]
  exact ⟨⟨_, rfl, rfl, rfl⟩, ⟨_, rfl, rfl, rfl⟩, ⟨_, rfl, rfl, rfl⟩, ⟨_, rfl, rfl, rfl⟩, ⟨_, rfl, rfl, rfl⟩, ⟨_, rfl, rfl, rfl⟩,
    ⟨_, rfl, rfl, rfl⟩, ⟨_, rfl, rfl, rfl⟩⟩
theorem specials_read (s : State) (c : Chan) (t : Fin 8) (i : Ins) {r : BitVec 11 × Bool × Cell}
    (h : r ∈ (s.thread c t).specials t ++ (s.chan c).proc.specials) : sregIs (s.begun c t i) t r.1.toNat r.2.1 r.2.2 :=
  (List.mem_append.mp h).elim (thread_specials_read s c t i r) (proc_specials_read s c t i r)
/-- The fixed part of MFS. -/
def iMfs (d : Reg) (n : BitVec 11) : Ins := { iDL 0x40 d n with touch := match sreg n.toNat with | some r => r.upper | none => false }
/-- The work of MFS. -/
def wMfs (t : Fin 8) (d : Reg) (n : BitVec 11) : IM Flow := do
  match sreg n.toNat with
  | none => faultIL
  | some r =>
    if r.readSup && !(← getT).sup then fault 2#10 fix0
    commit
    let v := (← getM).sregRead t n.toNat
    setD d v
    return .next
theorem exec_mfs : exec (.mfs c t d n) s = .next (s.issue c t (iMfs d n) (wMfs t d n)) := rfl
/-- MFS of an assigned register, where the mode permits. -/
theorem mfs_delivers {v : Cell} {readSup : Bool} (h : s.ready c t = true) (hmode : readSup = false ∨ (s.thread c t).sup = true)
    (hreg : sregIs (s.begun c t (iMfs d n)) t n.toNat readSup v) : delivers (.mfs c t d n) s c t d v := by
  obtain ⟨r, hsreg, hread, hv⟩ := hreg
  have hpass : ¬ (r.readSup && !(s.thread c t).sup) = true := by
    rw [hread]
    rcases hmode with hmode | hmode <;> simp [hmode]
  refine delivers_of_run exec_mfs h nofun ?_
  unfold wMfs
  simp only [hsreg]
  rw [runI_bind_ok (runI_getT _), thr_begun, runI_check_passes hpass, runI_bind_ok (runI_commit_nil ..), runI_bind_ok (runI_commit_nil ..),
    runI_bind_ok (runI_getM _), ← hv]
theorem mfs_faults_of_mode {v : Cell} (h : s.ready c t = true) (hmode : (s.thread c t).sup = false)
    (hreg : sregIs (s.begun c t (iMfs d n)) t n.toNat true v) : faults (.mfs c t d n) s c t 2#10 fix0 (cellL 0x40 d n) := by
  obtain ⟨r, hsreg, hread, -⟩ := hreg
  refine faults_of_run exec_mfs h nofun rfl ?_
  unfold wMfs
  simp only [hsreg]
  rw [runI_bind_ok (runI_getT _), thr_begun]
  exact runI_check_fails (by simp [hread, hmode])
theorem sreg_above {k : Nat} (h : 0x2A ≤ k) : sreg k = none := by
  unfold sreg
  repeat rw [if_neg (by grind)]
theorem sreg_gaps : ∀ k : Fin 0x2A, k = 0x07 ∨ k = 0x0B ∨ (0x0F ≤ k ∧ k < 0x20) → sreg k = none := by decide
theorem sreg_unassigned (hn : 0x2A#11 ≤ n ∨ n = 0x07#11 ∨ n = 0x0B#11 ∨ (0x0F#11 ≤ n ∧ n < 0x20#11)) : sreg n.toNat = none := by
  simp only [BitVec.le_def, BitVec.lt_def, ← BitVec.toNat_inj, BitVec.toNat_ofNat, Nat.reducePow, Nat.reduceMod] at hn
  rcases le_or_gt 0x2A n.toNat with habove | hbelow
  · exact sreg_above habove
  · refine sreg_gaps ⟨n.toNat, hbelow⟩ ?_
    simp only [Fin.ext_iff, Fin.le_def, Fin.lt_def]
    exact hn.resolve_left (not_le.mpr hbelow)
theorem mfs_faults_of_number (h : s.ready c t = true) (hn : sreg n.toNat = none) :
    faults (.mfs c t d n) s c t 1#10 fix0 (cellL 0x40 d n) := by
  refine faults_of_run exec_mfs h nofun rfl ?_
  unfold wMfs
  simp only [hn]
  rfl

/-- Settles O19: each number of the two tables by its entry in `sreg`, the others by having none. -/
theorem readSpecialRegisters : Obligations.ReadSpecialRegisters := by
  intro s c t d h
  dsimp only
  refine ⟨fun r hr => ⟨fun hmode => mfs_delivers h hmode (specials_read s c t _ hr), fun hmode => ?_⟩, fun n hn =>
    mfs_faults_of_number h (sreg_unassigned hn)⟩
  exact mfs_faults_of_mode h hmode.2 (hmode.1 ▸ specials_read s c t _ hr)
end

/-! ### TSTART of a thread whose core has its clock gated -/

/-- Channel 0 after reset, running, both core clocks gated (R114), with a CODE object at 0x120, and thread 0 in supervisor mode with FIX 1 in c1, a
pointer to the object in c2 and a LOC in c3. -/
def gatedStartState : State :=
  let ch := State.reset.chan 0
  State.reset.setChan 0 { ch with
    life := { ch.life with cond := .running, power := .run, rstN := true, good := true, gated := 3#2 }
    mc := { ch.mc with trained := true }
    phys := { ch.phys with mem := [(0x120, eccWrite 0x120 (mkCell tHDR 0#2 0x400002#24)), (0x121, eccWrite 0x121 fix0)] }
    thr := ch.thr.set 0 { ((((ch.thr[0] : Thread).setReg 1 (fixN 1)).setReg 2 (mkCell tCODE 0#2 0x120#24)).setReg 3 (loc 0x200#24)) with
      status := .running, pstate := 1#24 } }
/-- The state meets what the claim asks of a thread that starts thread 1. -/
theorem gatedStartState_starts :
    gatedStartState.plain 0 0 = true ∧ (gatedStartState.thread 0 0).sup = true ∧ (gatedStartState.thread 0 0).has 1 fixTag = true ∧
    (gatedStartState.thread 0 0).has 2 (fun g => g = tCODE) = true ∧ (gatedStartState.thread 0 0).has 3 (fun g => g = tLOC) = true ∧
    (gatedStartState.thread 0 0).int 1 = (1 : Fin 8).val ∧ (gatedStartState.thread 0 1).status = .stopped ∧
    gatedStartState.entryAt 0 0 ((gatedStartState.thread 0 0).reg 2) = some 0x122#24 := by
  and_intros <;> decide +kernel
/-- Which core clocks are gated once a command has answered. -/
def gatedAfter (i : Instr) (s : State) (c : Chan) : Option (BitVec 2) :=
  match exec i s with
  | .next s' => some (s'.chan c).life.gated
  | _ => none
/-- TSTART has the started thread's core clocked again. -/
theorem tstart_clocks_core : gatedAfter (.tstart 0 0 3 1 2) gatedStartState 0 = some 2#2 := by decide +kernel
/-- A plain access leaves the gating of its channel's clocks alone. -/
theorem onlyAccess_gated {s s' : State} {c : Chan} {t : Fin 8} {th : Thread} {wb : List WbEntry} (h : onlyAccess s s' c t th wb) :
    (s'.chan c).life.gated = (s.chan c).life.gated := by
  obtain ⟨-, p, n, q, mc, led, pend, ph, tlb, ag, rfl⟩ := h
  simp [State.ran]

/-- Refutes O21: TSTART of a thread whose core has its clock gated (R114) has that core clocked, while the claim lets nothing of the channel change
but the started thread and what an access of the starting one touches. -/
theorem not_threadsAndModes : ¬ Obligations.ThreadsAndModes := by
  rintro ⟨-, hstart⟩
  obtain ⟨hplain, hsup, ha, hb, hd, hj, hold, hentry⟩ := gatedStartState_starts
  obtain ⟨hstarted, -⟩ := hstart gatedStartState 0 0 1 3 1 2 0x122#24 hplain hsup ha hb hd
  obtain ⟨s', hexec, haccess⟩ := hstarted hj (by decide) hold hentry
  have hgated : gatedAfter (.tstart 0 0 3 1 2) gatedStartState 0 = some (s'.chan 0).life.gated := by rw [gatedAfter, hexec]
  rw [tstart_clocks_core, onlyAccess_gated haccess, chan_setChan] at hgated
  exact absurd hgated (by decide +kernel)

end Sys2Proof.Machine
end

section
/-! What the memory controller does while it serves a request (R363-R392): its own state, the reports it makes, and no stored cell. -/
namespace Sys2Proof.Machine

/-- The cell that a read of memory delivers at an address (R389). -/
def Mach.memCell (m : Mach) (a : Nat) : Cell := (eccRead a (m.memBits a)).2
/-- Slice m with the memory controller of x and everything a request of it may report: ledger, signals, performance unit, free counter,
and the stored bits. -/
def Mach.supplied (m x : Mach) : Mach :=
  { m with
    free := x.free
    ch := { m.ch with
      perf := x.ch.perf, mc := x.ch.mc, led := x.ch.led
      phys := { m.ch.phys with mem := x.ch.phys.mem }
      proc.pend := x.ch.proc.pend } }
/-- From m to n nothing but that has changed, every memory cell reads as before, and the user words held for a commit are the same. -/
def suppliesOnly (m n : Mach) : Prop := n = m.supplied n ∧ (∀ a, n.memCell a = m.memCell a) ∧ n.ch.led.heldWords = m.ch.led.heldWords

theorem suppliesOnly_refl (m : Mach) : suppliesOnly m m := ⟨rfl, fun _ => rfl, rfl⟩
theorem suppliesOnly_trans {m n k : Mach} (h : suppliesOnly m n) (h' : suppliesOnly n k) : suppliesOnly m k := by
  obtain ⟨hn, hcell, hheld⟩ := h
  obtain ⟨hk, hcell', hheld'⟩ := h'
  refine ⟨hk.trans ?_, fun a => (hcell' a).trans (hcell a), hheld'.trans hheld⟩
  rw [hn]
  rfl
/-- A change that leaves the stored bits and the held words alone. -/
theorem suppliesOnly_of_held {m n : Mach} (h : n = m.supplied n) (hmem : n.ch.phys.mem = m.ch.phys.mem)
    (hheld : n.ch.led.heldWords = m.ch.led.heldWords) : suppliesOnly m n := by
  refine ⟨h, fun a => ?_, hheld⟩
  unfold Mach.memCell Mach.memBits
  rw [hmem]
  rw [h]
  rfl
/-- A change that leaves the stored bits and the ledger alone. -/
theorem suppliesOnly_of_supplied {m n : Mach} (h : n = m.supplied n) (hmem : n.ch.phys.mem = m.ch.phys.mem)
    (hled : n.ch.led = m.ch.led := by rfl) : suppliesOnly m n := suppliesOnly_of_held h hmem (by rw [hled])
theorem suppliesOnly_ite {m a b : Mach} {p : Prop} [Decidable p] (ha : suppliesOnly m a) (hb : suppliesOnly m b) :
    suppliesOnly m (if p then a else b) := by
  split
  · exact ha
  · exact hb

/-! ### Reports -/

theorem suppliesOnly_mc (m : Mach) (x : MemCtl) : suppliesOnly m { m with ch.mc := x } := suppliesOnly_of_supplied rfl rfl
theorem suppliesOnly_setSub (m : Mach) (sub : Bool) (x : SubCh) : suppliesOnly m (m.setSub sub x) := suppliesOnly_of_supplied rfl rfl
theorem suppliesOnly_draw (m : Mach) (n : Nat) : suppliesOnly m (m.draw n).2 := suppliesOnly_of_supplied rfl rfl
theorem suppliesOnly_bumpC (m : Mach) (e : Nat) : suppliesOnly m (m.bumpC e) := suppliesOnly_of_supplied rfl rfl
theorem suppliesOnly_bumpBy (m : Mach) (n k : Nat) : suppliesOnly m (m.bumpBy n k) := suppliesOnly_of_supplied rfl rfl
/-- A raise changes the pending signals alone (R263). -/
theorem raiseP_pend (p : Proc) (v : Nat) (a : Cell) : raiseP p v a = { p with pend := (raiseP p v a).pend } := by
  unfold raiseP
  split <;> rfl
theorem suppliesOnly_raiseIf (m : Mach) (en : Bool) (v : Nat) (a : Cell) : suppliesOnly m (m.raiseIf en v a) := by
  have hraise : suppliesOnly m (m.raise v a) := by
    unfold Mach.raise
    rw [raiseP_pend]
    exact suppliesOnly_of_supplied rfl rfl
  exact suppliesOnly_ite hraise (suppliesOnly_refl m)
/-- An error record that arrives is no held word. -/
theorem heldWords_arrive (l : Ledger) (cls : BitVec 6) (spec flag : Bool) (detail : BitVec 32) :
    (l.arrive cls spec flag detail).heldWords = l.heldWords := by
  unfold Ledger.arrive Ledger.heldWords
  split
  · simp
  · rfl
theorem suppliesOnly_report (m : Mach) (cls : BitVec 6) (spec flag : Bool) (detail : BitVec 32) :
    suppliesOnly m (m.report cls spec flag detail) := by
  have hbump : suppliesOnly m (m.bumpIf (!(m.ch.led.staging.length < 16)) 50) := suppliesOnly_ite (suppliesOnly_bumpC m 50) (suppliesOnly_refl m)
  have hled (n : Mach) : suppliesOnly n { n with ch.led := n.ch.led.arrive cls spec flag detail } :=
    suppliesOnly_of_held rfl rfl (heldWords_arrive _ _ _ _ _)
  exact suppliesOnly_trans (suppliesOnly_trans hbump (hled _)) (suppliesOnly_raiseIf _ _ _ _)
theorem suppliesOnly_reportCe (m : Mach) (a : Nat) (spec scrub : Bool) : suppliesOnly m (m.reportCe a spec scrub) := by
  have hcount : suppliesOnly m { m.bumpC 32 with ch.mc.ceCount := satInc m.ch.mc.ceCount } := suppliesOnly_of_supplied rfl rfl
  have hrec := suppliesOnly_trans hcount (suppliesOnly_report _ 0x02#6 spec scrub (BitVec.ofNat 32 a))
  refine suppliesOnly_ite hrec ?_
  exact suppliesOnly_trans (suppliesOnly_trans hrec (suppliesOnly_mc _ _)) (suppliesOnly_raiseIf _ _ _ _)
theorem suppliesOnly_reportUe (m : Mach) (a : Nat) (spec scrub refused : Bool) : suppliesOnly m (m.reportUe a spec scrub refused) := by
  have hcount : suppliesOnly m { m.bumpC 33 with ch.mc := { m.ch.mc with
      ueCount := satInc m.ch.mc.ueCount, ueAddr := BitVec.ofNat 32 a, ueSpec := spec } } := suppliesOnly_of_supplied rfl rfl
  have hrec := suppliesOnly_trans hcount (suppliesOnly_report _ 0x03#6 spec refused (BitVec.ofNat 32 a))
  exact suppliesOnly_ite hrec (suppliesOnly_trans hrec (suppliesOnly_raiseIf _ _ _ _))
theorem suppliesOnly_reportLink (m : Mach) (sub : Bool) (kind : BitVec 3) (low : BitVec 28) (spec : Bool) :
    suppliesOnly m (m.reportLink sub kind low spec) := suppliesOnly_trans (suppliesOnly_mc m _) (suppliesOnly_report _ _ _ _ _)
theorem suppliesOnly_reportErrs (line : Nat) (spec scrub : Bool) (es : List (Fin 16 × BitVec 2)) (m : Mach) :
    suppliesOnly m (m.reportErrs line spec scrub es) := by
  induction es generalizing m with
  | nil => exact suppliesOnly_refl m
  | cons e r ih =>
    exact suppliesOnly_trans (suppliesOnly_ite (suppliesOnly_reportCe _ _ _ _) (suppliesOnly_reportUe _ _ _ _ _)) (ih _)

/-! ### Requests that complete -/

theorem memCell_putMem (m : Mach) (a b : Nat) (v : Cell) : (m.putMem a (eccWrite a v)).memCell b = if b = a then v else m.memCell b := by
  unfold Mach.memCell
  split
  · next h =>
    subst h
    rw [memBits_putMem, eccRead_eccWrite]
  · next h => rw [memBits_putMem_ne _ _ _ _ h]
/-- A correctable cell written back corrected reads as it did (R390). -/
theorem suppliesOnly_correct (m : Mach) (a : Nat) : suppliesOnly m (m.putMem a (eccWrite a (m.memCell a))) := by
  refine ⟨rfl, fun b => ?_, rfl⟩
  rw [memCell_putMem]
  split
  · next h => rw [h]
  · rfl
theorem suppliesOnly_rewriteCells (line : Nat) (ps : List (Fin 16)) (m : Mach) : suppliesOnly m (m.rewriteCells line ps) := by
  induction ps generalizing m with
  | nil => exact suppliesOnly_refl m
  | cons p r ih => exact suppliesOnly_trans (suppliesOnly_ite (suppliesOnly_correct m _) (suppliesOnly_refl m)) (ih _)
theorem suppliesOnly_finish (m : Mach) (r : PoolReq) (missing again : Bool) : suppliesOnly m (m.finish r missing again) := by
  have haged : suppliesOnly m (if r.age ≥ 512 then { m with ch.mc.aged := satInc m.ch.mc.aged } else m) :=
    suppliesOnly_ite (suppliesOnly_mc m _) (suppliesOnly_refl m)
  have herrs (n : Mach) : suppliesOnly n (n.reportErrs r.line r.spec (r.kind = .scrub) r.errs) := suppliesOnly_reportErrs _ _ _ _ _
  have hue (n : Mach) (x : MemCtl) : suppliesOnly n { n.bumpBy 225 16 with ch.mc := x } := suppliesOnly_of_supplied rfl rfl
  refine suppliesOnly_ite (suppliesOnly_trans haged (suppliesOnly_rewriteCells _ _ _)) (suppliesOnly_ite ?_ (suppliesOnly_trans haged (herrs _)))
  have hlink := suppliesOnly_trans haged (suppliesOnly_reportLink _ (m.ch.split (r.line * 16)).1 1#3 (BitVec.ofNat 28 r.line) r.spec)
  refine suppliesOnly_ite ?_ (suppliesOnly_trans hlink (herrs _))
  exact suppliesOnly_ite (suppliesOnly_trans hlink (hue _ _)) (suppliesOnly_trans (suppliesOnly_trans hlink (hue _ _)) (suppliesOnly_raiseIf _ _ _ _))
theorem suppliesOnly_arriveBank (m : Mach) (line : Nat) : suppliesOnly m (m.arriveBank line) := suppliesOnly_of_supplied rfl rfl
theorem suppliesOnly_admitQueued (n : Nat) (m : Mach) : suppliesOnly m (m.admitQueued n) := by
  induction n generalizing m with
  | zero => exact suppliesOnly_refl m
  | succ n ih =>
    unfold Mach.admitQueued
    split
    · exact suppliesOnly_refl m
    · exact suppliesOnly_ite (suppliesOnly_trans (suppliesOnly_trans (suppliesOnly_arriveBank m _) (suppliesOnly_mc _ _)) (ih _)) (suppliesOnly_refl m)
theorem suppliesOnly_complete (m : Mach) (r : PoolReq) (missing again : Bool) : suppliesOnly m (m.complete r missing again) := by
  have hfin := suppliesOnly_finish m r missing again
  exact suppliesOnly_trans (suppliesOnly_ite (suppliesOnly_trans hfin (suppliesOnly_mc _ _)) hfin) (suppliesOnly_admitQueued _ _)
theorem suppliesOnly_takeIssued {m n : Mach} {sub : Bool} {r : PoolReq} (h : m.takeIssued sub = some (r, n)) : suppliesOnly m n := by
  unfold Mach.takeIssued at h
  split at h
  · obtain ⟨-, rfl⟩ := Prod.mk.injEq .. ▸ Option.some.inj h
    exact suppliesOnly_mc m _
  · nomatch h
theorem suppliesOnly_requestComplete (m : Mach) (sub missing again : Bool) : suppliesOnly m (m.requestComplete sub missing again) := by
  unfold Mach.requestComplete
  refine suppliesOnly_ite (suppliesOnly_refl m) ?_
  split
  · exact suppliesOnly_refl m
  · next r n h =>
    have hdone := suppliesOnly_trans (suppliesOnly_takeIssued h) (suppliesOnly_complete n r missing again)
    exact suppliesOnly_ite hdone (suppliesOnly_trans hdone (suppliesOnly_setSub _ _ _))

/-! ### Commands -/

theorem suppliesOnly_activate (m : Mach) (sub : Bool) (b : Nat) (row : BitVec 16) : suppliesOnly m (m.activate sub b row) := by
  have hdraw (n : Mach) (p : Bool) (k : Nat) : suppliesOnly n (if p then n.draw k else (1, n)).2 := by
    split
    · exact suppliesOnly_draw n k
    · exact suppliesOnly_refl n
  have hlast (n : Mach) (p : Prop) [Decidable p] (e : Nat) : suppliesOnly n (if p then { n.bumpC e with ch.mc.nbrs := satInc n.ch.mc.nbrs } else n) :=
    suppliesOnly_ite (suppliesOnly_of_supplied rfl rfl) (suppliesOnly_refl n)
  unfold Mach.activate
  dsimp only
  exact suppliesOnly_trans (suppliesOnly_trans (suppliesOnly_trans (suppliesOnly_setSub m _ _) (hdraw _ _ _)) (suppliesOnly_setSub _ _ _)) (hlast _ _ _)
theorem suppliesOnly_issueFor (m : Mach) (sub : Bool) (e : McCand) : suppliesOnly m (m.issueFor sub e) := by
  refine suppliesOnly_ite (suppliesOnly_of_supplied rfl rfl) ?_
  split
  · exact suppliesOnly_activate _ _ _ _
  · exact suppliesOnly_setSub _ _ _
theorem suppliesOnly_doRefresh (m : Mach) (sub : Bool) : suppliesOnly m (m.doRefresh sub) :=
  suppliesOnly_trans (suppliesOnly_setSub m _ _) (suppliesOnly_bumpC _ _)
theorem suppliesOnly_commandIssue (m : Mach) (sub : Bool) : suppliesOnly m (m.commandIssue sub) := by
  have hclock : suppliesOnly m (m.mcClock sub) := suppliesOnly_of_supplied rfl rfl
  refine suppliesOnly_ite (suppliesOnly_refl m) (suppliesOnly_ite hclock (suppliesOnly_ite ?_ (suppliesOnly_ite hclock ?_)))
  · exact suppliesOnly_trans (suppliesOnly_trans hclock (suppliesOnly_doRefresh _ _)) (suppliesOnly_setSub _ _ _)
  · split
    · exact suppliesOnly_trans hclock (suppliesOnly_issueFor _ _ _)
    · exact hclock

/-! ### A request enters the pool -/

theorem suppliesOnly_memoryClock (m : Mach) : suppliesOnly m m.memoryClock :=
  suppliesOnly_trans (suppliesOnly_trans (suppliesOnly_commandIssue m false) (suppliesOnly_commandIssue _ true))
    (suppliesOnly_trans (suppliesOnly_requestComplete _ false false false) (suppliesOnly_requestComplete _ true false false))
theorem suppliesOnly_awaitEntry (src : ReqSrc) (n : Nat) (m : Mach) : suppliesOnly m (m.awaitEntry src n) := by
  induction n generalizing m with
  | zero => exact suppliesOnly_refl m
  | succ n ih => exact suppliesOnly_ite (suppliesOnly_refl m) (suppliesOnly_trans (suppliesOnly_memoryClock m) (ih _))
theorem suppliesOnly_poolAdd (m : Mach) (r : PoolReq) : suppliesOnly m (m.poolAdd r) := by
  have hwait : suppliesOnly m (if m.ch.mc.free r.src then m else ({ m with ch.mc.unread := false } : Mach).awaitEntry r.src poolPatience) :=
    suppliesOnly_ite (suppliesOnly_refl m) (suppliesOnly_trans (suppliesOnly_mc m _) (suppliesOnly_awaitEntry _ _ _))
  have hroom (n : Mach) : suppliesOnly n (if n.ch.mc.free r.src then n
      else match takeFirst (fun q => q.src = r.src) n.ch.mc.pool with
        | some (q, rest) => ({ n with ch.mc.pool := rest } : Mach).finish q false false
        | none => n) := by
    refine suppliesOnly_ite (suppliesOnly_refl n) ?_
    split
    · exact suppliesOnly_trans (suppliesOnly_mc n _) (suppliesOnly_finish _ _ _ _)
    · exact suppliesOnly_refl n
  exact suppliesOnly_trans (suppliesOnly_trans (suppliesOnly_trans hwait (hroom _)) (suppliesOnly_arriveBank _ _)) (suppliesOnly_mc _ _)

/-! ### With a turn at the turnstile -/

/-- Slice m with what `supplied` takes from x, and the turnstile's last grant. -/
def Mach.served (m x : Mach) : Mach :=
  { m with
    free := x.free
    ch := { m.ch with
      perf := x.ch.perf, mc := x.ch.mc, led := x.ch.led
      phys := { m.ch.phys with mem := x.ch.phys.mem }
      proc := { m.ch.proc with pend := x.ch.proc.pend, granted := x.ch.proc.granted } } }
/-- From m to n nothing but that has changed, and every memory cell reads as before. -/
def servesOnly (m n : Mach) : Prop := n = m.served n ∧ ∀ a, n.memCell a = m.memCell a

theorem servesOnly_refl (m : Mach) : servesOnly m m := ⟨rfl, fun _ => rfl⟩
theorem servesOnly_trans {m n k : Mach} (h : servesOnly m n) (h' : servesOnly n k) : servesOnly m k := by
  obtain ⟨hn, hcell⟩ := h
  obtain ⟨hk, hcell'⟩ := h'
  refine ⟨hk.trans ?_, fun a => (hcell' a).trans (hcell a)⟩
  rw [hn]
  rfl
theorem servesOnly_of_supplies {m n : Mach} (h : suppliesOnly m n) : servesOnly m n := by
  obtain ⟨hn, hcell, -⟩ := h
  refine ⟨?_, hcell⟩
  rw [hn]
  rfl
theorem supplies_granted {m n : Mach} (h : suppliesOnly m n) : n.ch.proc.granted = m.ch.proc.granted := by
  rw [h.1]
  rfl
theorem servesOnly_report (m : Mach) (cls : BitVec 6) (spec flag : Bool) (detail : BitVec 32) :
    servesOnly m (m.report cls spec flag detail) := servesOnly_of_supplies (suppliesOnly_report m cls spec flag detail)
theorem servesOnly_poolAdd (m : Mach) (r : PoolReq) : servesOnly m (m.poolAdd r) := servesOnly_of_supplies (suppliesOnly_poolAdd m r)
/-- A core's turn at the turnstile changes its last grant alone (R328). -/
theorem servesOnly_coreTurn (m : Mach) (k : Fin 2) (line : Nat) : servesOnly m (m.turn (coreAgent k) line) := by
  have hgrant : m.turn (coreAgent k) line = { m with ch.proc.granted := coreAgent k } := by
    unfold Mach.turn coreAgent
    split <;> rfl
  rw [hgrant]
  exact ⟨rfl, fun _ => rfl⟩
/-- A line read by a core: the cells stored, and what serving the read changes. -/
theorem coreRead_serves (m : Mach) (k : Fin 2) (line : Nat) (hint : BitVec 2) (spec : Bool) :
    servesOnly m (m.turnRead (coreAgent k) line hint spec).2 :=
  servesOnly_trans (servesOnly_coreTurn m k line) (servesOnly_poolAdd _ _)
theorem lineAt_lineCells (m : Mach) (a : Nat) : lineAt (m.lineCells (a / 16)) a = m.memCell a := by
  have ha : a / 16 * 16 + a % 16 = a := by omega
  simp [lineAt, Mach.lineCells, Mach.memCell, ha]
theorem coreRead_cell (m : Mach) (k : Fin 2) (a : Nat) (hint : BitVec 2) (spec : Bool) :
    lineAt (m.turnRead (coreAgent k) (a / 16) hint spec).1 a = m.memCell a := by
  obtain ⟨-, hcell⟩ := servesOnly_coreTurn m k (a / 16)
  exact (lineAt_lineCells _ a).trans (hcell a)

end Sys2Proof.Machine
end

section
/-! Plain accesses (R179, R246, R299-R301): the translations, reads and COMMIT of an instruction with nothing in its way. -/
namespace Sys2Proof.Machine

/-! ### Look-aside buffers that differ in referenced bits -/

/-- A slot of a look-aside buffer with its referenced bit set. -/
def refSet (e : Nat × TlbEntry) : Nat × TlbEntry := (e.1, { e.2 with ref := true })
/-- Two look-aside buffers that differ in referenced bits alone. -/
def sameTlb (b b' : NMap TlbEntry) : Prop := b'.map refSet = b.map refSet

theorem filter_hit_refSet (b : NMap TlbEntry) (vpn : BitVec 14) (asid : BitVec 8) :
    (b.filter (fun e => e.2.hit vpn asid)).map refSet = (b.map refSet).filter (fun e => e.2.hit vpn asid) := by
  rw [List.filter_map]
  rfl
theorem any_bad_refSet (b : NMap TlbEntry) : (b.map refSet).any (fun e => e.2.bad) = b.any (fun e => e.2.bad) := by
  rw [List.any_map]
  rfl
theorem mapGet_refSet (b : NMap TlbEntry) (j : Nat) :
    mapGet (b.map refSet) j = (mapGet b j).map (fun e => { e with ref := true }) := by
  induction b with
  | nil => rfl
  | cons x r ih =>
    obtain ⟨k, e⟩ := x
    rw [List.map_cons]
    unfold refSet mapGet
    dsimp only
    split
    · rfl
    · exact ih
/-- The one slot that hits, found by its key. -/
theorem mapGet_of_filter {b : NMap TlbEntry} {p : Nat × TlbEntry → Bool} {j : Nat} {e : TlbEntry} (hwf : mapWf b = true)
    (h : b.filter p = [(j, e)]) : mapGet b j = some e := by
  have hmem : (j, e) ∈ b := (List.mem_filter.mp (h ▸ List.mem_singleton_self _)).1
  clear h
  induction b with
  | nil => nomatch hmem
  | cons x r ih =>
    obtain ⟨k, f⟩ := x
    rcases List.mem_cons.mp hmem with heq | hr
    · obtain ⟨rfl, rfl⟩ := Prod.mk.injEq .. ▸ heq
      simp [mapGet]
    · have hne : k ≠ j := fun hk => by
        have hnone := mapGet_below r k k f hwf (le_refl _)
        rw [hk, ih (mapWf_tail hwf) hr] at hnone
        nomatch hnone
      simp [mapGet, hne, ih (mapWf_tail hwf) hr]
/-- Setting the referenced bit of a slot that is there. -/
theorem sameTlb_mapPut {b : NMap TlbEntry} {j : Nat} {e : TlbEntry} (hwf : mapWf b = true) (h : mapGet b j = some e) :
    sameTlb b (mapPut b j { e with ref := true }) := by
  induction b with
  | nil => nomatch h
  | cons x r ih =>
    obtain ⟨k, f⟩ := x
    unfold sameTlb at ih ⊢
    unfold mapGet at h
    unfold mapPut
    split at h
    · next hk =>
      obtain rfl := Option.some.inj h
      simp [hk, refSet]
    · next hk =>
      have hnot : ¬ j < k := fun hlt => by
        rw [mapGet_below r j k f hwf (le_of_lt hlt)] at h
        nomatch h
      rw [if_neg hnot, if_neg (fun e => hk e.symm), List.map_cons, List.map_cons, ih (mapWf_tail hwf) h]

/-- Slice m with what reads of core k may change of it: what serving them changes, and that core's look-aside buffer. -/
def Mach.looked (m x : Mach) (k : Fin 2) : Mach := (m.served x).setCore k { m.core k with tlb := (x.core k).tlb }
/-- From m to n nothing else has changed, memory cells read as before, and of the look-aside buffer referenced bits alone have. -/
def looksOnly (k : Fin 2) (m n : Mach) : Prop :=
  n = m.looked n k ∧ (∀ a, n.memCell a = m.memCell a) ∧ sameTlb (m.core k).tlb (n.core k).tlb ∧
    (mapWf (m.core k).tlb = true → mapWf (n.core k).tlb = true)

theorem looked_looked (m n x : Mach) (k : Fin 2) : (m.looked n k).looked x k = m.looked x k := by
  simp [Mach.looked, Mach.served, Mach.setCore, Mach.core]
@[simp] theorem setCore_core (m : Mach) (k : Fin 2) : m.setCore k (m.core k) = m := by simp [Mach.setCore, Mach.core]
theorem looksOnly_refl (k : Fin 2) (m : Mach) : looksOnly k m m := by
  exact ⟨(setCore_core m k).symm, fun _ => rfl, rfl, id⟩
theorem looksOnly_trans {k : Fin 2} {m n x : Mach} (h : looksOnly k m n) (h' : looksOnly k n x) : looksOnly k m x := by
  obtain ⟨hn, hcell, htlb, hwf⟩ := h
  obtain ⟨hx, hcell', htlb', hwf'⟩ := h'
  refine ⟨?_, fun a => (hcell' a).trans (hcell a), htlb'.trans htlb, fun hm => hwf' (hwf hm)⟩
  rw [hn, looked_looked] at hx
  exact hx
/-- Serving a request looks only. -/
theorem looksOnly_of_serves {k : Fin 2} {m n : Mach} (h : servesOnly m n) : looksOnly k m n := by
  obtain ⟨hn, hcell⟩ := h
  have hcore : n.core k = m.core k := by
    rw [hn]
    rfl
  refine ⟨?_, hcell, by rw [hcore]; rfl, by rw [hcore]; exact id⟩
  have hsame : m.looked n k = m.served n := by
    unfold Mach.looked
    rw [hcore]
    exact setCore_core (m.served n) k
  exact hn.trans hsame.symm

/-! ### What an instruction has read -/

/-- A translation collected for COMMIT whose accessed and dirty bits the buffer already holds (R299). -/
def marked (b : NMap TlbEntry) (u : TlbEntry × Bool × VAddr) : Prop :=
  (u.1.a && (!u.2.1 || u.1.d)) = true ∧ ∀ x ∈ b, x.2.same u.1 = true → x.2.a = u.1.a ∧ x.2.d = u.1.d
theorem marked_sameTlb {b b' : NMap TlbEntry} {u : TlbEntry × Bool × VAddr} (h : sameTlb b b') (hu : marked b u) : marked b' u := by
  obtain ⟨hset, hall⟩ := hu
  refine ⟨hset, fun x hx hsame => ?_⟩
  have hmem : refSet x ∈ b.map refSet := h ▸ List.mem_map_of_mem hx
  obtain ⟨y, hy, hxy⟩ := List.mem_map.mp hmem
  have hya : (refSet y).2.a = (refSet x).2.a := by rw [hxy]
  have hyd : (refSet y).2.d = (refSet x).2.d := by rw [hxy]
  have hys : (refSet y).2.same u.1 = (refSet x).2.same u.1 := by rw [hxy]
  obtain ⟨hua, hud⟩ := hall y hy (hys.trans hsame)
  exact ⟨hya.symm.trans hua, hyd.symm.trans hud⟩

/-- The first 2^24 cells are memory whatever is populated, the undo area above them (R26, R402). -/
theorem place_low (ch : Channel) (va : VAddr) : ch.place va.toNat = .memory := by
  have hva : va.toNat < 0x1000000 := va.isLt
  have hmem : 0x40000000 ≤ ch.memCells := by
    unfold Channel.memCells
    split <;> omega
  have hundo : ch.undoArea va.toNat = false := by
    simp only [Channel.undoArea, Bool.and_eq_false_iff, decide_eq_false_iff_not]
    omega
  unfold Channel.place
  rw [hundo]
  simp only [Bool.false_eq_true, if_false]
  exact if_pos (by omega)

/-- What an instruction of thread t of channel c works on once it has read: the slice it began with but for what reads change, and every
translation collected marked already. -/
structure reads (s : State) (c : Chan) (t : Fin 8) (i : Ins) (st : IS) : Prop where
  who : st.t = t
  slice : looksOnly (coreOf t) (s.begun c t i) st.m
  used : ∀ u ∈ st.used, marked (st.m.core (coreOf t)).tlb u

section
variable {s : State} {c : Chan} {t : Fin 8} {i : Ins} {st : IS}

theorem peek_memory {m : Mach} {a : Nat} (ha : m.ch.place a = .memory) : m.peek a = m.memCell a := by
  unfold Mach.peek
  rw [ha]
  rfl
theorem reads_workOn : reads s c t i (workOn s c t i) := ⟨rfl, looksOnly_refl _ _, fun _ hu => absurd hu List.not_mem_nil⟩
theorem reads_thr (h : reads s c t i st) (u : Fin 8) : st.m.thr u = s.thread c u := by
  obtain ⟨-, ⟨hm, -⟩, -⟩ := h
  rw [hm]
  rfl
theorem reads_cell (h : reads s c t i st) {a : Nat} (ha : (s.chan c).place a = .memory) : st.m.memCell a = s.cell c a := by
  obtain ⟨-, ⟨-, hcell, -⟩, -⟩ := h
  rw [hcell, State.cell, peek_memory (m := s.mach c) ha]
  rfl
theorem reads_place (h : reads s c t i st) (a : Nat) : st.m.ch.place a = (s.chan c).place a := by
  obtain ⟨-, ⟨hm, -⟩, -⟩ := h
  rw [hm]
  rfl
theorem reads_base (h : reads s c t i st) : st.m.ch.pageBase = (s.chan c).pageBase := by
  obtain ⟨-, ⟨hm, -⟩, -⟩ := h
  rw [hm]
  rfl
theorem reads_core (h : reads s c t i st) :
    st.m.core (coreOf t) = { (s.chan c).core[coreOf t] with tlb := (st.m.core (coreOf t)).tlb } := by
  obtain ⟨-, ⟨hm, -⟩, -⟩ := h
  have hcore : st.m.core (coreOf t) = ((s.begun c t i).looked st.m (coreOf t)).core (coreOf t) := congrArg (fun m : Mach => m.core (coreOf t)) hm
  rw [Mach.looked, core_setCore] at hcore
  exact hcore
/-- A further change of the slice that looks only. -/
theorem reads_looks {n : Mach} {u : List (TlbEntry × Bool × VAddr)} {f l : Nat} (h : reads s c t i st) (hn : looksOnly (coreOf t) st.m n)
    (hu : ∀ x ∈ u, marked (n.core (coreOf t)).tlb x) : reads s c t i { m := n, t := t, used := u, fwds := f, last := l } :=
  ⟨rfl, looksOnly_trans h.slice hn, hu⟩

/-! ### Translation -/

/-- What `reach` tells of an access with translation on: the one slot that hits, and all that its entry permits. -/
theorem reach_te {va : VAddr} {need : Need} {a : Nat} (hte : (s.thread c t).te = true) (h : s.reach c t va need = some a) :
    mapWf ((s.chan c).core[coreOf t]).tlb = true ∧ ((s.chan c).core[coreOf t]).tlb.any (fun e => e.2.bad) = false ∧
    ∃ j e, ((s.chan c).core[coreOf t]).tlb.filter (fun e => e.2.hit (va.extractLsb' 10 14) (s.thread c t).asid) = [(j, e)] ∧
      (!need.r || e.r) = true ∧ (!need.w || e.w) = true ∧ ((s.thread c t).sup || e.u) = true ∧ e.typ = 0#2 ∧ e.a = true ∧
      (!need.w || e.d) = true ∧ (s.chan c).place a = .memory ∧ a = (s.chan c).pageBase e.idx.toNat + bits va 0 10 := by
  unfold State.reach at h
  simp only [hte, Bool.not_true, Bool.false_eq_true, if_false] at h
  split at h
  · nomatch h
  next hgood =>
    simp only [Bool.or_eq_true, Bool.not_eq_true', not_or, Bool.not_eq_false, Bool.not_eq_true] at hgood
    obtain ⟨hwf, hbad⟩ := hgood
    refine ⟨hwf, hbad, ?_⟩
    split at h
    next e hfilter =>
      split at h
      next hok =>
        simp only [Bool.and_eq_true, decide_eq_true_eq] at hok
        obtain ⟨⟨⟨⟨⟨⟨hr, hw⟩, hu⟩, htyp⟩, ha⟩, hd⟩, hplace⟩ := hok
        obtain rfl := Option.some.inj h
        exact ⟨e.1, e.2, hfilter, hr, hw, hu, htyp, ha, hd, hplace, rfl⟩
      · nomatch h
    · nomatch h
theorem reach_off {va : VAddr} {need : Need} {a : Nat} (hte : (s.thread c t).te = false) (h : s.reach c t va need = some a) : a = va.toNat := by
  unfold State.reach at h
  simp only [hte, Bool.not_false, if_true] at h
  exact (Option.some.inj h).symm
/-- The address that a plain access reaches lies in memory. -/
theorem reach_memory {va : VAddr} {need : Need} {a : Nat} (h : s.reach c t va need = some a) : (s.chan c).place a = .memory := by
  rcases hte : (s.thread c t).te with _ | _
  · rw [reach_off hte h]
    exact place_low (s.chan c) va
  · obtain ⟨-, -, j, e, -, -, -, -, -, -, -, hplace, -⟩ := reach_te hte h
    exact hplace

/-- A lookup whose one slot hits delivers its entry, and sets referenced bits alone (R300). -/
theorem tlbLookup_hit {m : Mach} {k : Fin 2} {vpn : BitVec 14} {asid : BitVec 8} {j : Nat} {e : TlbEntry} (hwf : mapWf (m.core k).tlb = true)
    (hbad : (m.core k).tlb.any (fun e => e.2.bad) = false) (hhit : (m.core k).tlb.filter (fun e => e.2.hit vpn asid) = [(j, e)]) :
    ∃ n, m.tlbLookup k vpn asid = (.hit e, n) ∧ looksOnly k m n := by
  have hget := mapGet_of_filter hwf hhit
  refine ⟨m.setCore k { m.core k with tlb := mapPut (m.core k).tlb j { e with ref := true } }, ?_, ?_, fun _ => rfl, ?_, ?_⟩
  · unfold Mach.tlbLookup tlbWhere
    simp [hbad, hhit, hget]
  · rw [Mach.looked, core_setCore]
    rfl
  · rw [core_setCore]
    exact sameTlb_mapPut hwf hget
  · rw [core_setCore]
    exact mapWf_mapPut _ _ _
/-- Two slots that agree but for their referenced bits. -/
theorem refSet_eq {j k : Nat} {e f : TlbEntry} (h : refSet (j, e) = refSet (k, f)) : ∃ r, e = { f with ref := r } := by
  have hval : (refSet (j, e)).2 = (refSet (k, f)).2 := by rw [h]
  refine ⟨e.ref, ?_⟩
  cases e
  cases f
  simp only [refSet, TlbEntry.mk.injEq] at hval ⊢
  simp only [hval, and_self]
/-- An entry that is the same as the one slot that hits, is it. -/
theorem same_of_filter {b : NMap TlbEntry} {vpn : BitVec 14} {asid : BitVec 8} {j : Nat} {e : TlbEntry} {x : Nat × TlbEntry}
    (h : b.filter (fun e => e.2.hit vpn asid) = [(j, e)]) (hx : x ∈ b) (hsame : x.2.same e = true) : x.2.a = e.a ∧ x.2.d = e.d := by
  have hin : (j, e) ∈ b.filter (fun e => e.2.hit vpn asid) := h ▸ List.mem_singleton_self (j, e)
  have hhit : e.hit vpn asid = true := (List.mem_filter.mp hin).2
  have hxhit : x.2.hit vpn asid = true := by
    simp only [TlbEntry.same, TlbEntry.hit, Bool.and_eq_true, Bool.or_eq_true, decide_eq_true_eq] at hsame hhit ⊢
    obtain ⟨⟨hv, ha⟩, hg⟩ := hsame
    rw [hv, ha, hg]
    exact hhit
  have hmem : x ∈ [(j, e)] := h ▸ List.mem_filter.mpr ⟨hx, hxhit⟩
  rw [List.mem_singleton.mp hmem]
  exact ⟨rfl, rfl⟩
/-- The lookup of an access that reaches finds, after any reads, an entry of the same rights and address. -/
theorem runI_lookaside {va : VAddr} {need : Need} {a : Nat} (hte : (s.thread c t).te = true) (hreach : s.reach c t va need = some a)
    (h : reads s c t i st) :
    ∃ e m, runI (lookaside va) st = (.ok e, { st with m := m }) ∧ looksOnly (coreOf t) st.m m ∧ (!need.r || e.r) = true ∧
      (!need.w || e.w) = true ∧ ((s.thread c t).sup || e.u) = true ∧ e.typ = 0#2 ∧ a = (s.chan c).pageBase e.idx.toNat + bits va 0 10 ∧
      marked (m.core (coreOf t)).tlb (e, need.w, va) := by
  obtain ⟨hwf, hbad, j, e0, hfilter, hr, hw, hu, htyp, ha, hd, -, haddr⟩ := reach_te hte hreach
  have hread := h
  obtain ⟨hwho, ⟨-, -, htlb, hwf'⟩, -⟩ := h
  have hwf2 : mapWf (st.m.core (coreOf t)).tlb = true := hwf' hwf
  have hbad2 : (st.m.core (coreOf t)).tlb.any (fun e => e.2.bad) = false := by
    rw [← any_bad_refSet, htlb, any_bad_refSet]
    exact hbad
  have hfilter2 : ((st.m.core (coreOf t)).tlb.filter (fun e => e.2.hit (va.extractLsb' 10 14) (s.thread c t).asid)).map refSet
      = [refSet (j, e0)] := by
    rw [filter_hit_refSet, htlb, ← filter_hit_refSet]
    exact congrArg (List.map refSet) hfilter
  obtain ⟨⟨j2, e⟩, hone, hsame⟩ := List.map_eq_singleton_iff.mp hfilter2
  obtain ⟨r, rfl⟩ := refSet_eq hsame
  obtain ⟨n, hlook, hn⟩ := tlbLookup_hit hwf2 hbad2 hone
  refine ⟨{ e0 with ref := r }, n, ?_, hn, hr, hw, hu, htyp, haddr, ?_⟩
  · unfold lookaside
    rw [runI_bind_ok (runI_myCore _), runI_bind_ok (runI_getT _), hwho, reads_thr hread, runI_bind_ok (runI_useM _ _), hlook, ← hwho]
    rfl
  · obtain ⟨-, -, htlb2, -⟩ := hn
    refine marked_sameTlb (htlb2.trans htlb) ⟨?_, fun x hx hsame => ?_⟩
    · simp [ha, hd]
    · exact (same_of_filter hfilter hx hsame : x.2.a = e0.a ∧ x.2.d = e0.d)
/-- A marked translation is marked for every lesser access. -/
theorem marked_less {b : NMap TlbEntry} {e : TlbEntry} {w w' : Bool} {va : VAddr} (h : marked b (e, w, va)) (hw : w' = true → w = true) :
    marked b (e, w', va) := by
  obtain ⟨hbits, hall⟩ := h
  refine ⟨?_, hall⟩
  simp only [Bool.and_eq_true, Bool.or_eq_true, Bool.not_eq_true'] at hbits ⊢
  obtain ⟨ha, hd⟩ := hbits
  refine ⟨ha, ?_⟩
  cases w'
  · exact .inl rfl
  · exact .inr (hd.resolve_left (by simp [hw rfl]))
/-- A translation in the thread's own mode of an access that reaches, its physical address (R289): for the rights that the access needs, or
fewer of them. -/
theorem runI_xlateWithin {va : VAddr} {need need' : Need} {a : Nat} (hreach : s.reach c t va need = some a)
    (hr' : need'.r = true → need.r = true) (hw' : need'.w = true → need.w = true) (h : reads s c t i st) :
    ∃ st', reads s c t i st' ∧ (∀ u ∈ st'.used, u ∈ st.used ∨ marked (st'.m.core (coreOf t)).tlb (u.1, need.w, u.2.2)) ∧
      runI (xlateAs (s.thread c t).sup va need' false) st = (.ok { phys := a, typ := 0#2 }, st') := by
  have hplace := reach_memory hreach
  have hthr : st.m.thr st.t = s.thread c t := h.who ▸ reads_thr h _
  unfold xlateAs
  rw [runI_bind_ok (runI_getT _), runI_bind_ok (runI_modify _ _), hthr]
  rcases hte : (s.thread c t).te with _ | _
  · have haddr := reach_off hte hreach
    refine ⟨{ st with last := va.toNat }, ⟨h.who, h.slice, h.used⟩, fun u hu => .inl hu, ?_⟩
    simp [haddr]
  · have hst : reads s c t i { st with last := 0 } := ⟨h.who, h.slice, h.used⟩
    obtain ⟨e, n, hlook, hn, hr, hw, hu, htyp, haddr, hmark⟩ := runI_lookaside hte hreach hst
    have hn' : reads s c t i { m := n, t := t, used := st.used, fwds := st.fwds, last := st.last } :=
      reads_looks h hn fun x hx => marked_sameTlb hn.2.2.1 (h.used x hx)
    have hno : ¬ (need'.r && !e.r || need'.w && !e.w || !(s.thread c t).sup && !e.u) = true := by
      grind
    simp only [if_true]
    rw [runI_bind_ok hlook, runI_bind_ok (runI_modify _ _), runI_check_passes hno, runI_check_passes (by simp [htyp]),
      runI_bind_ok (runI_getM _), reads_base hn', ← haddr, reads_place hn', hplace, runI_check_passes (by decide)]
    refine ⟨{ m := n, t := t, used := st.used ++ [(e, need'.w, va)], fwds := st.fwds, last := a }, ?_, fun u hu => ?_, ?_⟩
    · refine reads_looks h hn fun x hx => ?_
      rcases List.mem_append.mp hx with hold | hnew
      · exact hn'.used x hold
      · rw [List.mem_singleton.mp hnew]
        exact marked_less hmark hw'
    · rcases List.mem_append.mp hu with hold | hnew
      · exact .inl hold
      · rw [List.mem_singleton.mp hnew]
        exact .inr hmark
    · rw [htyp, h.who]
      rfl
theorem runI_xlateAs {va : VAddr} {need : Need} {a : Nat} (hreach : s.reach c t va need = some a) (h : reads s c t i st) :
    ∃ st', reads s c t i st' ∧ runI (xlateAs (s.thread c t).sup va need false) st = (.ok { phys := a, typ := 0#2 }, st') := by
  obtain ⟨st', h', -, hx⟩ := runI_xlateWithin (need' := need) hreach id id h
  exact ⟨st', h', hx⟩
theorem runI_xlate {va : VAddr} {need : Need} {a : Nat} (hreach : s.reach c t va need = some a) (h : reads s c t i st) :
    ∃ st', reads s c t i st' ∧ runI (xlate va need false) st = (.ok { phys := a, typ := 0#2 }, st') := by
  have hthr : st.m.thr st.t = s.thread c t := h.who ▸ reads_thr h _
  unfold xlate
  rw [runI_bind_ok (runI_getT _), hthr]
  exact runI_xlateAs hreach h

/-! ### Reads -/

theorem upToLast_nil (p : WbEntry → Bool) : upToLast p [] = 0 := rfl
theorem drainLine_empty {m : Mach} {k : Fin 2} (h : (m.core k).wb = []) (l : Nat) : m.drainLine k l = m := by
  unfold Mach.drainLine
  rw [h]
  rfl
theorem drainThread_empty {m : Mach} {t : Fin 8} (h : (m.core (coreOf t)).wb = []) : m.drainThread t = m := by
  unfold Mach.drainThread
  rw [h]
  rfl
theorem plain_ready (h : s.plain c t = true) : s.ready c t = true := by
  unfold State.plain at h
  simp only [Bool.and_eq_true] at h
  exact h.1.1.1
theorem plain_dcen (h : s.plain c t = true) : (s.chan c).proc.dcen = false := by
  unfold State.plain at h
  simp only [Bool.and_eq_true, Bool.not_eq_true'] at h
  exact h.1.1.2
theorem plain_wb (h : s.plain c t = true) : ((s.chan c).core[coreOf t]).wb = [] := by
  unfold State.plain at h
  simp only [Bool.and_eq_true, List.isEmpty_iff] at h
  exact h.1.2
theorem plain_idle (h : s.plain c t = true) : (s.chan c).sw.phase = .idle := by
  unfold State.plain at h
  simp only [Bool.and_eq_true, decide_eq_true_eq] at h
  exact h.2
theorem reads_wb (hs : s.plain c t = true) (h : reads s c t i st) : (st.m.core (coreOf t)).wb = [] := by
  rw [reads_core h]
  exact plain_wb hs
theorem reads_dcen (hs : s.plain c t = true) (h : reads s c t i st) : st.m.ch.proc.dcen = false := by
  obtain ⟨-, ⟨hm, -⟩, -⟩ := h
  rw [hm]
  exact plain_dcen hs
/-- A read of one memory cell, its translation made (R318). -/
theorem runI_readCell {a : Nat} (hs : s.plain c t = true) (ha : (s.chan c).place a = .memory) (h : reads s c t i st) :
    ∃ st', reads s c t i st' ∧ runI (readCell { phys := a, typ := 0#2 }) st = (.ok (s.cell c a), st') := by
  have hn : looksOnly (coreOf t) st.m (st.m.turnRead (coreAgent (coreOf t)) (a / 16) 0#2 false).2 :=
    looksOnly_of_serves (coreRead_serves _ _ _ _ _)
  have hfetch : st.m.memFetch (coreOf t) a true = (s.cell c a, (st.m.turnRead (coreAgent (coreOf t)) (a / 16) 0#2 false).2) := by
    unfold Mach.memFetch
    rw [reads_dcen hs h]
    exact Prod.ext ((coreRead_cell _ _ _ _ _).trans (reads_cell h ha)) rfl
  refine ⟨_, reads_looks (f := st.fwds) (l := st.last) h hn fun x hx => marked_sameTlb hn.2.2.1 (h.used x hx), ?_⟩
  unfold readCell
  rw [runI_bind_ok (runI_myCore _), h.who, runI_bind_ok (runI_modM _ _), drainLine_empty (reads_wb hs h), runI_bind_ok (runI_getM _),
    reads_place h, ha]
  show (_, _) = _
  simp only [decide_true]
  rw [hfetch, ← h.who]
theorem chase_reach {need : Need} {n : Nat} {va : VAddr} {r : VAddr × Nat} (h : s.chase c t need n va = some r) :
    ∃ a, s.reach c t va need = some a := by
  unfold State.chase at h
  split at h
  · nomatch h
  · next a ha => exact ⟨a, ha⟩
theorem chase_zero {need : Need} {va : VAddr} {a : Nat} {r : VAddr × Nat} (hreach : s.reach c t va need = some a)
    (h : s.chase c t need 0 va = some r) : ¬ cellTag (s.cell c a) = tFWD ∧ (va, a) = r := by
  unfold State.chase at h
  rw [hreach] at h
  dsimp only at h
  split at h
  · nomatch h
  · next hfwd => exact ⟨hfwd, Option.some.inj h⟩
theorem chase_succ {need : Need} {n : Nat} {va : VAddr} {a : Nat} {r : VAddr × Nat} (hreach : s.reach c t va need = some a)
    (h : s.chase c t need (n + 1) va = some r) :
    (¬ cellTag (s.cell c a) = tFWD ∧ (va, a) = r) ∨
      (cellTag (s.cell c a) = tFWD ∧ s.chase c t need n (cellPay (s.cell c a)) = some r) := by
  unfold State.chase at h
  rw [hreach] at h
  dsimp only at h
  split at h
  · next hfwd => exact .inr ⟨hfwd, h⟩
  · next hfwd => exact .inl ⟨hfwd, Option.some.inj h⟩
/-- The forwards of a read are followed as `chase` follows them (R179). -/
theorem runI_readFwd {need : Need} (hs : s.plain c t = true) : ∀ (n : Nat) {va w : VAddr} {a b : Nat} {st : IS}, s.reach c t va need = some a →
    s.chase c t need n va = some (w, b) → reads s c t i st →
    ∃ st', reads s c t i st' ∧ runI (readFwd va need n { phys := a, typ := 0#2 }) st = (.ok (s.cell c b, w, { phys := b, typ := 0#2 }), st') := by
  intro n
  induction n with
  | zero =>
    intro va w a b st hreach hchase h
    obtain ⟨hfwd, heq⟩ := chase_zero hreach hchase
    obtain ⟨rfl, rfl⟩ := Prod.mk.injEq .. ▸ heq
    obtain ⟨st', h', hread⟩ := runI_readCell hs (reach_memory hreach) h
    refine ⟨st', h', ?_⟩
    unfold readFwd readFwdBy
    rw [runI_bind_ok hread, runI_check_passes hfwd]
    rfl
  | succ n ih =>
    intro va w a b st hreach hchase h
    obtain ⟨st', h', hread⟩ := runI_readCell hs (reach_memory hreach) h
    unfold readFwd readFwdBy
    rw [runI_bind_ok hread]
    rcases chase_succ hreach hchase with ⟨hfwd, heq⟩ | ⟨hfwd, hchase'⟩
    · obtain ⟨rfl, rfl⟩ := Prod.mk.injEq .. ▸ heq
      rw [if_neg hfwd]
      exact ⟨st', h', rfl⟩
    · obtain ⟨a', hreach'⟩ := chase_reach hchase'
      have hcount : reads s c t i { st' with fwds := st'.fwds + 1 } := ⟨h'.who, h'.slice, h'.used⟩
      obtain ⟨st2, h2, hx⟩ := runI_xlate hreach' hcount
      obtain ⟨st3, h3, hrest⟩ := ih hreach' hchase' h2
      refine ⟨st3, h3, ?_⟩
      rw [if_pos hfwd, runI_bind_ok (runI_modify _ _), runI_bind_ok hx]
      exact hrest
/-- A translated read of one cell delivers what `found` names (R179). -/
theorem runI_readAt_chase {need : Need} {va w : VAddr} {b : Nat} (hs : s.plain c t = true) (hchase : s.chase c t need 8 va = some (w, b))
    (h : reads s c t i st) :
    ∃ st', reads s c t i st' ∧ runI (readAt va need) st = (.ok (s.cell c b, w, { phys := b, typ := 0#2 }), st') := by
  obtain ⟨a, hreach⟩ := chase_reach hchase
  obtain ⟨st1, h1, hx⟩ := runI_xlate hreach h
  obtain ⟨st2, h2, hread⟩ := runI_readFwd hs 8 hreach hchase h1
  refine ⟨st2, h2, ?_⟩
  unfold readAt
  rw [runI_bind_ok hx]
  exact hread
theorem runI_readAt {va w : VAddr} {v : Cell} (hs : s.plain c t = true) (hfound : s.found c t va = some (w, v)) (h : reads s c t i st) :
    ∃ st' b, reads s c t i st' ∧ runI (readAt va needR) st = (.ok (v, w, { phys := b, typ := 0#2 }), st') := by
  obtain ⟨⟨w', b⟩, hchase, heq⟩ := Option.map_eq_some_iff.mp hfound
  obtain ⟨rfl, rfl⟩ := Prod.mk.injEq .. ▸ heq
  obtain ⟨st', h', hread⟩ := runI_readAt_chase hs hchase h
  exact ⟨st', b, h', hread⟩

/-! ### COMMIT -/

/-- The update of an entry whose bits are set already does nothing (R299). -/
theorem adUpdate_marked {m : Mach} {k : Fin 2} {e : TlbEntry} {w : Bool} {va : VAddr} (h : marked (m.core k).tlb (e, w, va)) :
    m.adUpdate k e w = (.done, m) := by
  obtain ⟨hset, hall⟩ := h
  have hcur : ((((m.core k).tlb.map (fun x => x.2)).find? (fun x => x.same e && decide (x.idx = e.idx))).getD e).a = e.a ∧
      ((((m.core k).tlb.map (fun x => x.2)).find? (fun x => x.same e && decide (x.idx = e.idx))).getD e).d = e.d := by
    generalize hfind : ((m.core k).tlb.map (fun x => x.2)).find? (fun x => x.same e && decide (x.idx = e.idx)) = found
    rcases found with _ | x
    · exact ⟨rfl, rfl⟩
    · have hsame := List.find?_some hfind
      obtain ⟨y, hy, rfl⟩ := List.mem_map.mp (List.mem_of_find?_eq_some hfind)
      simp only [Bool.and_eq_true] at hsame
      exact hall y hy hsame.1
  unfold Mach.adUpdate
  dsimp only
  rw [hcur.1, hcur.2, if_pos hset]
/-- COMMIT of translations that are all marked changes nothing. -/
theorem runI_commitList (us : List (TlbEntry × Bool × VAddr)) {st : IS} (h : ∀ u ∈ us, marked (st.m.core (coreOf st.t)).tlb u) :
    runI (commitList us) st = (.ok (), st) := by
  induction us with
  | nil => rfl
  | cons u r ih =>
    obtain ⟨e, w, va⟩ := u
    have hu := h _ List.mem_cons_self
    unfold commitList
    rw [runI_bind_ok (runI_myCore _), runI_bind_ok (runI_me _), runI_bind_ok (runI_modM _ _), if_pos hu.1, runI_bind_ok (runI_useM _ _),
      adUpdate_marked hu]
    exact ih fun x hx => h x (List.mem_cons_of_mem _ hx)
theorem runI_commit (h : reads s c t i st) :
    ∃ st', reads s c t i st' ∧ st'.m = st.m ∧ st'.used = [] ∧ runI commit st = (.ok (), st') := by
  refine ⟨{ st with used := [] }, ⟨h.who, h.slice, fun _ hu => absurd hu List.not_mem_nil⟩, rfl, rfl, ?_⟩
  unfold commit
  rw [runI_bind_ok (runI_get _), runI_bind_ok (runI_modify _ _)]
  exact runI_commitList _ (by rw [h.who]; exact h.used)

/-! ### The end of an instruction that has read, and perhaps left stores in its core's buffer -/

/-- Slice m with the write buffer of core k holding wb. -/
def Mach.withWb (m : Mach) (k : Fin 2) (wb : List WbEntry) : Mach := m.setCore k { m.core k with wb := wb }
@[simp] theorem withWb_core (m : Mach) (k : Fin 2) (wb : List WbEntry) : (m.withWb k wb).core k = { m.core k with wb := wb } :=
  core_setCore m k _
theorem withWb_self {m : Mach} {k : Fin 2} {wb : List WbEntry} (h : (m.core k).wb = wb) : m.withWb k wb = m := by
  subst h
  exact setCore_core m k
@[simp] theorem withWb_withWb (m : Mach) (k : Fin 2) (a b : List WbEntry) : (m.withWb k a).withWb k b = m.withWb k b := by
  simp [Mach.withWb, Mach.setCore, Mach.core]
/-- Looking leaves what every address reads as it was. -/
theorem peek_of_looks {k : Fin 2} {m n : Mach} (h : looksOnly k m n) (a : Nat) : n.peek a = m.peek a := by
  obtain ⟨hn, hcell, -⟩ := h
  have hplace : n.ch.place a = m.ch.place a := by
    rw [hn]
    rfl
  rcases hp : m.ch.place a with _ | _ | _ | _
  · rw [peek_memory (hplace.trans hp), peek_memory hp, hcell]
  all_goals
    unfold Mach.peek
    rw [hplace, hp]
    try rw [hn]
    try rfl
/-- A slice that has been looked at, with thread t as th and its core's buffer as wb, put back, is what `onlyAccess` names. -/
theorem onlyAccess_of_looks {n x : Mach} {th : Thread} {wb : List WbEntry} (h : looksOnly (coreOf t) (s.begun c t i) n)
    (hx : perfOnly ((n.withWb (coreOf t) wb).setThr t th) x) : onlyAccess s (s.putMach { x with c := c }) c t th wb := by
  obtain ⟨p, f, rfl⟩ := hx
  refine ⟨fun a => ?_, p, f, ((s.mach c).routine t i (Config.microStart i.op % 7920)).seq, n.ch.mc, n.ch.led, n.ch.proc.pend,
    { (s.chan c).phys with mem := n.ch.phys.mem }, (n.core (coreOf t)).tlb, n.ch.proc.granted, ?_⟩
  · have hc : n.c = c := by
      rw [h.1]
      rfl
    rw [State.cell, mach_putMach s rfl]
    refine Eq.trans (b := n.peek a) ?_ (peek_of_looks h a)
    refine peek_congr rfl ?_ ?_ <;>
    · rw [← hc]
      rfl
  · rw [h.1]
    simp [State.putMach, State.setChan, Mach.looked, Mach.served, Mach.withWb, Mach.setCore, Mach.core, Mach.setThr, State.begun, State.ran,
      State.mach]
/-- An instruction with plain accesses whose work completes, having left its thread as th and its core's buffer as wb. -/
theorem accesses_of_run {ins : Instr} {w : IM Flow} {f : Flow} {r : IS} {n : Mach} {th : Thread} {wb : List WbEntry}
    (hex : exec ins s = .next (s.issue c t i w)) (h : s.ready c t = true) (hs : i.sup = true → (s.thread c t).sup = true)
    (hf : f ≠ .stay) (hf' : f ≠ .resume) (hw : runI w (workOn s c t i) = (.ok f, r)) (hn : looksOnly (coreOf t) (s.begun c t i) n)
    (hr : perfOnly ((n.withWb (coreOf t) wb).setThr t th) r.m) : accesses ins s c t (th.complete f) wb := by
  have hp := perfOnly_trans hr (retired_perfOnly r.m t i f)
  have hthr : (r.m.retired t i f).thr t = th := by rw [perfOnly_thr hp t, thr_setThr]
  have hfin : r.m.finishIns t i (.ok f) = (r.m.retired t i f).setThr t (((r.m.retired t i f).thr t).complete f) := by
    cases f <;> first | rfl | exact absurd rfl hf | exact absurd rfl hf'
  refine ⟨_, hex, ?_⟩
  rw [issue_completed h hs hw, hfin, hthr]
  obtain ⟨p, k, hm⟩ := hp
  rw [hm]
  refine onlyAccess_of_looks hn ⟨p, k, ?_⟩
  simp [Mach.setThr]
/-- An instruction with plain accesses whose work ends in a fault. -/
theorem accesses_of_fault {ins : Instr} {w : IM Flow} {v : BitVec 10} {a : Cell} {r : IS} (hex : exec ins s = .next (s.issue c t i w))
    (hs : s.plain c t = true) (hsup : i.sup = true → (s.thread c t).sup = true) (hw : runI w (workOn s c t i) = (.error (.fault v a), r))
    (hr : reads s c t i r) : accesses ins s c t ((s.thread c t).raiseSync v a i.icell 0#2) [] := by
  have hp := notRetired_perfOnly r.m t i
  have hthr : (r.m.notRetired t i).thr t = s.thread c t := (perfOnly_thr hp t).trans (reads_thr hr t)
  have hissue : s.issue c t i w = s.putMach { (r.m.notRetired t i).setThr t (((r.m.notRetired t i).thr t).raiseSync v a i.icell 0#2) with c := c } := by
    unfold State.issue State.onMach
    dsimp only
    rw [issue_ready (plain_ready hs) hsup, run_eq (runI_retrying_error 4 w _ _ _ hw (by simp))]
    rfl
  refine ⟨_, hex, ?_⟩
  rw [hissue, hthr]
  obtain ⟨p, k, hm⟩ := hp
  rw [hm]
  refine onlyAccess_of_looks hr.slice ⟨p, k, ?_⟩
  rw [withWb_self (reads_wb hs hr)]
  rfl

end

end Sys2Proof.Machine
end

section
/-! Loads, addresses, and transfers through code objects (R173, R179, R199, R202-R206, R231). -/
namespace Sys2Proof.Machine

section
variable {s : State} {c : Chan} {t : Fin 8} {i : Ins} {st : IS} {d a b : Reg} {p : Cell} {ins : Instr}

/-! ### The cells that pointers name -/

theorem reads_self (h : reads s c t i st) : st.m.thr st.t = s.thread c t := h.who ▸ reads_thr h _
/-- The thread is read as it was before the instruction. -/
theorem runI_getT_reads {α : Type} {k : Thread → IM α} (h : reads s c t i st) : runI (getT >>= k) st = runI (k (s.thread c t)) st := by
  rw [runI_bind_ok (runI_getT _), reads_self h]
theorem not_reserved_of_hdr {v : Cell} (h : cellTag v = tHDR) : cellTag v ≠ tPSN ∧ isReserved v = false := by
  have htag : isReservedTag tHDR = false := by decide
  have hconst : ¬ tHDR = tCONST := by decide
  unfold isReserved
  rw [h]
  exact ⟨by decide, by simp [htag, hconst]⟩
theorem runI_headerOf {h : Cell} (hs : s.plain c t = true) (hh : s.headerAt c t p = some h) (hr : reads s c t i st) :
    ∃ st', reads s c t i st' ∧ runI (headerOf p) st = (.ok h, st') := by
  unfold State.headerAt at hh
  split at hh
  · next va v hfound =>
    split at hh
    · next hok =>
      obtain rfl := Option.some.inj hh
      simp only [Bool.and_eq_true, decide_eq_true_eq] at hok
      obtain ⟨hhdr, hkind⟩ := hok
      obtain ⟨st', b, hr', hread⟩ := runI_readAt hs hfound hr
      refine ⟨st', hr', ?_⟩
      unfold headerOf
      rw [runI_bind_ok hread, runI_check_passes (not_reserved_of_hdr hhdr).1, runI_check_passes (by simp [hhdr]), runI_check_passes (by simp [hkind])]
      rfl
    · nomatch hh
  · nomatch hh
/-- The header of a target: none through a CONS or LOC. -/
def State.targetHdr (s : State) (c : Chan) (t : Fin 8) (p : Cell) : Option Cell :=
  if cellTag p = tCONS || cellTag p = tLOC then none else s.headerAt c t p
/-- A target of a cell that lies in the object. -/
def State.target (s : State) (c : Chan) (t : Fin 8) (p : Cell) (va : VAddr) : Target := { va := va, hand := false, hdr := s.targetHdr c t p }
theorem runI_fieldTarget {k : Nat} {store : Bool} {va : VAddr} (hs : s.plain c t = true) (hf : s.fieldAt c t p k store = some va)
    (hr : reads s c t i st) : ∃ st', reads s c t i st' ∧ runI (fieldTarget p k store) st = (.ok (s.target c t p va), st') := by
  unfold State.fieldAt at hf
  unfold fieldTarget State.target State.targetHdr
  by_cases hcell : (cellTag p = tCONS || cellTag p = tLOC) = true
  · simp only [hcell, if_true] at hf ⊢
    split at hf
    · next hk =>
      obtain rfl := Option.some.inj hf
      exact ⟨st, hr, by rw [runI_check_passes (by simp [hk])]; rfl⟩
    · nomatch hf
  · rw [if_neg hcell] at hf ⊢
    simp only [hcell] at hf ⊢
    by_cases hhand : cellTag p = tHAND
    · simp only [hhand, if_true] at hf
      nomatch hf
    · simp only [hhand, if_false] at hf ⊢
      split at hf
      · next h hh =>
        split at hf
        · nomatch hf
        · next hsize =>
          obtain rfl := Option.some.inj hf
          obtain ⟨st', hr', hread⟩ := runI_headerOf hs hh hr
          refine ⟨st', hr', ?_⟩
          rw [runI_bind_ok hread, runI_check_passes hsize, hh]
          rfl
      · nomatch hf
theorem hand_not_hdrp : isHdrp tHAND = false := by decide
theorem isHdrp_not_hand (h : isHdrp (cellTag p) = true) : cellTag p ≠ tHAND := fun e => by
  rw [e, hand_not_hdrp] at h
  nomatch h
theorem isHdrp_targetHdr (h : isHdrp (cellTag p) = true) : s.targetHdr c t p = s.headerAt c t p := by
  refine if_neg fun hcell => ?_
  simp only [Bool.or_eq_true, decide_eq_true_eq] at hcell
  rcases hcell with e | e <;>
  · rw [e] at h
    exact absurd h (by decide)
theorem runI_indexTarget {k : Int} {va : VAddr} (hs : s.plain c t = true) (hp : isHdrp (cellTag p) = true) (hf : s.indexAt c t p k = some va)
    (hr : reads s c t i st) : ∃ st', reads s c t i st' ∧ runI (indexTarget p k) st = (.ok (s.target c t p va), st') := by
  unfold State.indexAt at hf
  split at hf
  · next h hh =>
    split at hf
    · next hin =>
      obtain rfl := Option.some.inj hf
      simp only [Bool.and_eq_true, decide_eq_true_eq] at hin
      obtain ⟨st', hr', hread⟩ := runI_headerOf hs hh hr
      refine ⟨st', hr', ?_⟩
      unfold indexTarget State.target
      rw [if_neg (isHdrp_not_hand hp), runI_bind_ok hread, runI_check_passes (by simp; omega), isHdrp_targetHdr hp, hh]
      rfl
    · nomatch hf
  · nomatch hf

/-! ### Loads -/

theorem wb_of_looks {k : Fin 2} {m n : Mach} (h : looksOnly k m n) : (n.core k).wb = (m.core k).wb := by
  have hcore : n.core k = (m.looked n k).core k := congrArg (fun x : Mach => x.core k) h.1
  rw [hcore, Mach.looked, core_setCore]
/-- An instruction has read, and has then left its thread as th. -/
def leftThread (s : State) (c : Chan) (t : Fin 8) (i : Ins) (th : Thread) (st : IS) : Prop :=
  st.t = t ∧ ∃ n, looksOnly (coreOf t) (s.begun c t i) n ∧ st.m = n.setThr t th
theorem accesses_of_left {w : IM Flow} {f : Flow} {r : IS} {th : Thread} (hex : exec ins s = .next (s.issue c t i w)) (hs : s.plain c t = true)
    (hsup : i.sup = true → (s.thread c t).sup = true) (hf : f ≠ .stay) (hf' : f ≠ .resume) (hw : runI w (workOn s c t i) = (.ok f, r))
    (hr : leftThread s c t i th r) : accesses ins s c t (th.complete f) [] := by
  obtain ⟨-, n, hn, hm⟩ := hr
  refine accesses_of_run hex (plain_ready hs) hsup hf hf' hw hn ?_
  rw [withWb_self ((wb_of_looks hn).trans (plain_wb hs)), hm]
  exact perfOnly_refl _
theorem left_of_reads (h : reads s c t i st) : leftThread s c t i (s.thread c t) st :=
  ⟨h.who, st.m, h.slice, by rw [← reads_thr h, setThr_thr]⟩
/-- A change of the thread after its reads. -/
theorem runI_modT_left {α : Type} {g : Thread → Thread} {th : Thread} {k : Unit → IM α} (h : leftThread s c t i th st) :
    ∃ st', leftThread s c t i (g th) st' ∧ runI (modT g >>= k) st = runI (k ()) st' := by
  obtain ⟨hwho, n, hn, hm⟩ := h
  refine ⟨{ st with m := st.m.setThr t (g th) }, ⟨hwho, n, hn, by rw [hm, setThr_setThr]⟩, ?_⟩
  rw [runI_bind_ok (runI_modT _ _), hwho, hm, thr_setThr]
theorem runI_setD_left {α : Type} {v : Cell} {th : Thread} {k : Unit → IM α} (h : leftThread s c t i th st) :
    ∃ st', leftThread s c t i (th.setReg d v) st' ∧ runI (setD d v >>= k) st = runI (k ()) st' :=
  runI_modT_left (g := fun th => th.setReg d v) h
/-- COMMIT after reads. -/
theorem runI_commit_reads {α : Type} {k : Unit → IM α} (h : reads s c t i st) :
    ∃ st', reads s c t i st' ∧ runI (commit >>= k) st = runI (k ()) st' := by
  obtain ⟨st', h', -, -, hcommit⟩ := runI_commit h
  exact ⟨st', h', runI_bind_ok hcommit⟩
theorem runI_checkLoaded {α : Type} {v : Cell} {k : Unit → IM α} (hv : loadable v = true) : runI (checkLoaded v >>= k) st = runI (k ()) st := by
  simp only [loadable, Bool.and_eq_true, decide_eq_true_eq, Bool.not_eq_true'] at hv
  refine runI_bind_ok ?_
  unfold checkLoaded
  rw [runI_check_passes hv.1]
  simp [hv.2]
/-- While no cycle runs the load barrier does nothing (R346). -/
theorem runI_loadBarrier {α : Type} {va : VAddr} {x : Nat} {v : Cell} {k : Cell × Healing → IM α} (hs : s.plain c t = true) (h : reads s c t i st) :
    runI (loadBarrier va x v >>= k) st = runI (k (v, none)) st := by
  have hphase : st.m.ch.sw.phase = .idle := by
    rw [h.slice.1]
    exact plain_idle hs
  have hno : st.m.loadBarrierActs (st.m.thr st.t) v = false := by
    simp [Mach.loadBarrierActs, hphase, Phase.moving]
  refine runI_bind_ok ?_
  unfold loadBarrier
  rw [runI_bind_ok (runI_get _), hno]
  rfl
/-- A load delivers the cell read into d. -/
theorem runI_deliverLoad {α : Type} {v : Cell} {w : VAddr} {x : Xl} {k : Unit → IM α} (hs : s.plain c t = true) (hv : loadable v = true)
    (h : reads s c t i st) :
    ∃ st', leftThread s c t i ((s.thread c t).setReg d v) st' ∧ runI (deliverLoad d (v, w, x) >>= k) st = runI (k ()) st' := by
  obtain ⟨st1, h1, hcommit⟩ := runI_commit_reads (k := fun _ => do postHeal none; setD d v) h
  obtain ⟨st2, h2, hset⟩ := runI_setD_left (d := d) (v := v) (k := fun _ => pure ()) (left_of_reads h1)
  refine ⟨st2, h2, runI_bind_ok ?_⟩
  unfold deliverLoad
  rw [runI_loadBarrier hs h, runI_checkLoaded hv, hcommit]
  exact hset
/-- With the data cache off no load trains a stride slot (R321). -/
theorem runI_train {α : Type} {va : VAddr} {typ : BitVec 2} {th : Thread} {k : Unit → IM α} (hs : s.plain c t = true)
    (h : leftThread s c t i th st) : runI (train va typ >>= k) st = runI (k ()) st := by
  obtain ⟨-, n, hn, hm⟩ := h
  have hdcen : st.m.ch.proc.dcen = false := by
    rw [hm, hn.1]
    exact plain_dcen hs
  refine runI_bind_ok ?_
  unfold train
  rw [runI_bind_ok (runI_get _)]
  simp [hdcen]
/-- A load of a target in memory. -/
theorem runI_loadTarget {α : Type} {va w : VAddr} {v : Cell} {h : Option Cell} {k : Unit → IM α} (hs : s.plain c t = true)
    (hfound : s.found c t va = some (w, v)) (hv : loadable v = true) (hr : reads s c t i st) :
    ∃ st', leftThread s c t i ((s.thread c t).setReg d v) st' ∧
      runI (loadTarget d { va := va, hand := false, hdr := h } >>= k) st = runI (k ()) st' := by
  obtain ⟨⟨w', b⟩, hchase, heq⟩ := Option.map_eq_some_iff.mp hfound
  obtain ⟨rfl, rfl⟩ := Prod.mk.injEq .. ▸ heq
  obtain ⟨x, hreach⟩ := chase_reach hchase
  obtain ⟨st1, h1, hx⟩ := runI_xlate hreach hr
  obtain ⟨st2, h2, hread⟩ := runI_readFwd hs 8 hreach hchase h1
  obtain ⟨st3, h3, hdeliver⟩ := runI_deliverLoad (d := d) (w := w') (x := ⟨b, 0#2⟩) (k := fun _ => train va 0#2) hs hv h2
  refine ⟨st3, h3, runI_bind_ok ?_⟩
  unfold loadTarget
  rw [runI_bind_ok hx, if_neg (show ¬ (0#2 : BitVec 2) = 2#2 by decide), runI_bind_ok hread, hdeliver]
  have htrain := runI_train (va := va) (typ := 0#2) (k := fun _ => pure ()) hs h3
  simpa using htrain

/-! ### Operands that the claims give by their tag -/

theorem has_mono {r : Reg} {f g : BitVec 6 → Bool} (hfg : ∀ x, f x = true → g x = true) (h : (s.thread c t).has r f = true) :
    (s.thread c t).has r g = true := by
  simp only [Thread.has, Bool.and_eq_true] at h ⊢
  exact ⟨h.1, hfg _ h.2⟩
theorem has_tag {r : Reg} {f : BitVec 6 → Bool} (h : (s.thread c t).has r f = true) : f (cellTag ((s.thread c t).reg r)) = true := by
  simp only [Thread.has, Bool.and_eq_true] at h
  exact h.2
/-- A register of a tag that is neither PSN, CONST nor reserved passes the checks of an operand that admits the tag. -/
theorem has_of_tag {r : Reg} {ok : BitVec 6 → Bool} {g : BitVec 6} (hg : cellTag ((s.thread c t).reg r) = g)
    (hno : g ≠ tPSN ∧ g ≠ tCONST ∧ isReservedTag g = false) (hok : ok g = true) : (s.thread c t).has r ok = true := by
  obtain ⟨hpsn, hconst, hres⟩ := hno
  unfold Thread.has isReserved
  rw [hg]
  simp [hpsn, hconst, hres, hok]
theorem loadable_of_tag {v : Cell} {g : BitVec 6} (hg : cellTag v = g) (hno : g ≠ tPSN ∧ g ≠ tCONST ∧ isReservedTag g = false) :
    loadable v = true := by
  obtain ⟨hpsn, hconst, hres⟩ := hno
  unfold loadable isReserved
  rw [hg]
  simp [hpsn, hconst, hres]
theorem runI_limitCrate {α : Type} {k : Unit → IM α} (hp : cellTag p = tCRATE → (s.thread c t).sup = true) (h : reads s c t i st) :
    runI (limitCrate p >>= k) st = runI (k ()) st := by
  refine runI_bind_ok ?_
  unfold limitCrate
  rw [runI_getT_reads h]
  exact congrArg (fun x : IM Unit => runI x st) (if_neg (by simpa using hp))

/-! ### LD, LDX, LDB, LDK, POP, LDSP and CAR -/

theorem ld_loads {imm : BitVec 6} {va w : VAddr} {v : Cell} (hs : s.plain c t = true) (ha : (s.thread c t).has a isPtr = true)
    (hcrate : cellTag ((s.thread c t).reg a) = tCRATE → (s.thread c t).sup = true)
    (hf : s.fieldAt c t ((s.thread c t).reg a) imm.toNat false = some va) (hfound : s.found c t va = some (w, v)) (hv : loadable v = true) :
    accesses (.ld c t d a imm) s c t (((s.thread c t).setReg d v).complete .next) [] := by
  obtain ⟨st1, h1, hfield⟩ := runI_fieldTarget hs hf (reads_workOn (i := iDAI 0x20 d a imm))
  obtain ⟨st2, h2, hload⟩ := runI_loadTarget (d := d) (h := s.targetHdr c t ((s.thread c t).reg a)) (k := fun _ => pure Flow.next) hs hfound hv h1
  refine accesses_of_left (f := .next) (i := iDAI 0x20 d a imm) rfl hs nofun nofun nofun ?_ h2
  rw [runI_operand_bind ha, runI_bind_ok hfield, runI_limitCrate hcrate h1]
  exact hload
theorem ldx_loads {va w : VAddr} {v : Cell} (hs : s.plain c t = true) (ha : (s.thread c t).has a isHdrp = true)
    (hcrate : cellTag ((s.thread c t).reg a) = tCRATE → (s.thread c t).sup = true) (hb : (s.thread c t).has b fixTag = true)
    (hf : s.indexAt c t ((s.thread c t).reg a) ((s.thread c t).int b) = some va) (hfound : s.found c t va = some (w, v)) (hv : loadable v = true) :
    accesses (.ldx c t d a b) s c t (((s.thread c t).setReg d v).complete .next) [] := by
  obtain ⟨st1, h1, hindex⟩ := runI_indexTarget hs (has_tag ha) hf (reads_workOn (i := iDAB 0x21 d a b false))
  obtain ⟨st2, h2, hload⟩ := runI_loadTarget (d := d) (h := s.targetHdr c t ((s.thread c t).reg a)) (k := fun _ => pure Flow.next) hs hfound hv h1
  have ha' : (s.thread c t).has a indexTag = true := has_mono (fun x hx => by simp [indexTag, hx]) ha
  refine accesses_of_left (f := .next) (i := iDAB 0x21 d a b false) rfl hs nofun nofun nofun ?_ h2
  rw [runI_operand_bind ha', runI_operand_bind hb]
  exact (runI_bind_ok hindex).trans ((runI_limitCrate hcrate h1).trans hload)
/-- The byte LDB and STB name (R202). -/
theorem runI_byteTarget {k : Int} {va : VAddr} {j : Nat} (hs : s.plain c t = true) (hf : s.byteAt c t p k = some (va, j)) (hr : reads s c t i st) :
    ∃ st' x, reads s c t i st' ∧ x.val = j ∧ runI (byteTarget p k) st = (.ok (va, x), st') := by
  unfold State.byteAt at hf
  split at hf
  · nomatch hf
  next h hh =>
    obtain ⟨st1, h1, hread⟩ := runI_headerOf hs hh hr
    unfold byteTarget
    rw [runI_bind_ok hread]
    dsimp only
    split at hf
    next hstr =>
      rw [if_pos hstr]
      split at hf
      next w n hn =>
        split at hf
        next hin =>
          obtain ⟨rfl, rfl⟩ := Prod.mk.injEq .. ▸ Option.some.inj hf
          simp only [Bool.and_eq_true, decide_eq_true_eq] at hin
          obtain ⟨⟨hfix, hlow⟩, hhigh⟩ := hin
          obtain ⟨st2, x, h2, hread2⟩ := runI_readAt hs hn h1
          refine ⟨st2, Fin.ofNat 3 k.toNat, h2, rfl, ?_⟩
          rw [runI_bind_ok hread2, runI_check_passes (by rw [hfix]; decide), runI_check_passes (by simp [hfix]),
            runI_check_passes (by simp; omega)]
          rfl
        · nomatch hf
      · nomatch hf
    next hstr =>
      rw [if_neg hstr]
      split at hf
      next hin =>
        obtain ⟨rfl, rfl⟩ := Prod.mk.injEq .. ▸ Option.some.inj hf
        simp only [Bool.and_eq_true, decide_eq_true_eq] at hin
        obtain ⟨⟨hkind, hlow⟩, hhigh⟩ := hin
        refine ⟨st1, Fin.ofNat 3 k.toNat, h1, rfl, ?_⟩
        rw [runI_check_passes (by simp [hkind]), runI_check_passes (by simp; omega)]
        rfl
      · nomatch hf
theorem ldb_loads {j : Nat} {va w : VAddr} {v : Cell} (hs : s.plain c t = true) (ha : (s.thread c t).has a byteTag = true)
    (hb : (s.thread c t).has b fixTag = true) (hf : s.byteAt c t ((s.thread c t).reg a) ((s.thread c t).int b) = some (va, j))
    (hfound : s.found c t va = some (w, v)) (hv : loadable v = true) :
    accesses (.ldb c t d a b) s c t (((s.thread c t).setReg d (fixN (bits (cellPay v) (8 * j) 8))).complete .next) [] := by
  obtain ⟨⟨w', y⟩, hchase, heq⟩ := Option.map_eq_some_iff.mp hfound
  obtain ⟨rfl, rfl⟩ := Prod.mk.injEq .. ▸ heq
  obtain ⟨x, hreach⟩ := chase_reach hchase
  obtain ⟨st1, jj, h1, rfl, hbyte⟩ := runI_byteTarget hs hf (reads_workOn (i := iDAB 0x25 d a b false))
  obtain ⟨st2, h2, hx⟩ := runI_xlate hreach h1
  obtain ⟨st3, h3, hread⟩ := runI_readFwd hs 8 hreach hchase h2
  obtain ⟨st4, h4, -, -, hcommit⟩ := runI_commit h3
  obtain ⟨st5, h5, hset⟩ := runI_setD_left (d := d) (v := fixN (bits (cellPay (s.cell c y)) (8 * jj.val) 8))
    (k := fun _ => do train va 0#2; pure Flow.next) (left_of_reads h4)
  refine accesses_of_left (f := .next) (i := iDAB 0x25 d a b false) rfl hs nofun nofun nofun ?_ h5
  rw [runI_operand_bind ha, runI_operand_bind hb]
  refine (runI_bind_ok hbyte).trans ?_
  rw [runI_bind_ok hx, runI_bind_ok hread, runI_checkLoaded hv, runI_bind_ok hcommit, hset, runI_train hs h5]
  rfl
theorem ldk_loads {n : BitVec 11} {w : VAddr} {v : Cell} (hs : s.plain c t = true) (hn : n ≠ 0#11)
    (hfound : s.found c t ((s.thread c t).pc - n.setWidth 24) = some (w, v)) (hv : loadable v = true) (hins : cellTag v ≠ tINSTR)
    (hhdr : cellTag v ≠ tHDR) (hfree : cellTag v ≠ tFREE) :
    accesses (.ldk c t d n) s c t (((s.thread c t).setReg d (withCdr v 0#2)).complete .next) [] := by
  obtain ⟨st1, x, h1, hread⟩ := runI_readAt hs hfound (reads_workOn (i := iDL 0x04 d n))
  obtain ⟨st2, h2, -, -, hcommit⟩ := runI_commit h1
  obtain ⟨st3, h3, hset⟩ := runI_setD_left (d := d) (v := withCdr v 0#2) (k := fun _ => pure Flow.next) (left_of_reads h2)
  refine accesses_of_left (f := .next) (i := iDL 0x04 d n) rfl hs nofun nofun nofun ?_ h3
  rw [runI_check_passes hn, runI_getT_reads reads_workOn, runI_bind_ok hread, runI_checkLoaded hv,
    runI_check_passes (by simp [hins, hhdr, hfree]), runI_bind_ok hcommit, hset]
  rfl
theorem runI_stackPtr {α : Type} {k : VAddr → IM α} (hsp : cellTag (s.thread c t).sp = tLOC) (h : reads s c t i st) :
    runI (stackPtr >>= k) st = runI (k (cellPay (s.thread c t).sp)) st := by
  refine runI_bind_ok ?_
  unfold stackPtr
  rw [runI_getT_reads h, runI_check_passes (by simp [hsp])]
  rfl
theorem pop_loads {w : VAddr} {v : Cell} (hs : s.plain c t = true) (hsp : cellTag (s.thread c t).sp = tLOC)
    (hfound : s.found c t (cellPay (s.thread c t).sp) = some (w, v)) (hv : loadable v = true) :
    accesses (.pop c t d) s c t ((((s.thread c t).setReg d v).setSp (loc (cellPay (s.thread c t).sp + 1#24))).complete .next) [] := by
  obtain ⟨st1, x, h1, hread⟩ := runI_readAt hs hfound (reads_workOn (i := iD 0x2A d))
  obtain ⟨st2, h2, hdeliver⟩ := runI_deliverLoad (d := d) (w := w) (x := ⟨x, 0#2⟩)
    (k := fun _ => do modT (fun th => th.setSp (loc (cellPay (s.thread c t).sp + 1#24))); pure Flow.next) hs hv h1
  obtain ⟨st3, h3, hmod⟩ := runI_modT_left (g := fun th => th.setSp (loc (cellPay (s.thread c t).sp + 1#24))) (k := fun _ => pure Flow.next) h2
  refine accesses_of_left (f := .next) (i := iD 0x2A d) rfl hs nofun nofun nofun ?_ h3
  rw [runI_stackPtr hsp reads_workOn, runI_bind_ok hread, hdeliver, hmod]
  rfl
theorem ldsp_loads {n : BitVec 11} {w : VAddr} {v : Cell} (hs : s.plain c t = true) (hsp : cellTag (s.thread c t).sp = tLOC)
    (hfound : s.found c t (cellPay (s.thread c t).sp + n.setWidth 24) = some (w, v)) (hv : loadable v = true) :
    accesses (.ldsp c t d n) s c t (((s.thread c t).setReg d v).complete .next) [] := by
  obtain ⟨st1, x, h1, hread⟩ := runI_readAt hs hfound (reads_workOn (i := iDL 0x2B d n))
  obtain ⟨st2, h2, hdeliver⟩ := runI_deliverLoad (d := d) (w := w) (x := ⟨x, 0#2⟩) (k := fun _ => pure Flow.next) hs hv h1
  refine accesses_of_left (f := .next) (i := iDL 0x2B d n) rfl hs nofun nofun nofun ?_ h2
  rw [runI_stackPtr hsp reads_workOn, runI_bind_ok hread, hdeliver]
  rfl
theorem not_nil_of_cons {v : Cell} (h : cellTag v = tCONS) : isNil v = false := by
  unfold isNil
  rw [h]
  rfl
theorem runI_listOperand_cons {α : Type} {k : Cell → IM α} (ha : cellTag ((s.thread c t).reg a) = tCONS) :
    runI (listOperand a >>= k) (workOn s c t i) = runI (k ((s.thread c t).reg a)) (workOn s c t i) := by
  refine runI_bind_ok ?_
  unfold listOperand
  rw [runI_operand_bind (has_of_tag ha (by decide) (by decide)), runI_check_passes (by rw [ha]; simp [show ¬ tCONS = tCONST by decide])]
  rfl
theorem runI_listCell {va : VAddr} {v : Cell} {st : IS} (hs : s.plain c t = true) (hfound : s.found c t (cellPay p) = some (va, v))
    (hv : loadable v = true) (hcdr : cellCdr v ≠ 3#2) (h : reads s c t i st) :
    ∃ st' b, reads s c t i st' ∧ runI (listCell p) st = (.ok (v, va, { phys := b, typ := 0#2 }), st') := by
  obtain ⟨st', b, h', hread⟩ := runI_readAt hs hfound h
  have hcheck : runI (listCheck v) st' = (.ok (), st') := by
    unfold listCheck
    rw [runI_checkLoaded hv]
    exact congrArg (fun x : IM Unit => runI x st') (if_neg hcdr)
  refine ⟨st', b, h', ?_⟩
  unfold listCell
  rw [runI_bind_ok hread, runI_bind_ok hcheck]
  rfl
theorem car_loads {w : VAddr} {v : Cell} (hs : s.plain c t = true) (ha : cellTag ((s.thread c t).reg a) = tCONS)
    (hfound : s.found c t (cellPay ((s.thread c t).reg a)) = some (w, v)) (hv : loadable v = true) (hcdr : cellCdr v ≠ 3#2) :
    accesses (.car c t d a) s c t (((s.thread c t).setReg d v).complete .next) [] := by
  obtain ⟨st1, x, h1, hcell⟩ := runI_listCell hs hfound hv hcdr (reads_workOn (i := iDA 0x80 d a))
  obtain ⟨st2, h2, hdeliver⟩ := runI_deliverLoad (d := d) (w := w) (x := ⟨x, 0#2⟩)
    (k := fun _ => do train (cellPay ((s.thread c t).reg a)) 0#2; pure Flow.next) hs hv h1
  refine accesses_of_left (f := .next) (i := iDA 0x80 d a) rfl hs nofun nofun nofun ?_ h2
  rw [runI_listOperand_cons ha, if_neg (by rw [not_nil_of_cons ha]; nofun), runI_bind_ok hcell, hdeliver, runI_train hs h2]
  rfl
theorem loads : loadsClaim := by
  intro s c t d a b imm n va w v hs
  dsimp only
  refine ⟨fun ha hcrate hf hgot => ld_loads hs ha hcrate hf hgot.1 hgot.2, fun ha hcrate hb hf hgot => ldx_loads hs ha hcrate hb hf hgot.1 hgot.2,
    fun j ha hb hf hgot => ldb_loads hs ha hb hf hgot.1 hgot.2, ?_, ?_, ?_, ?_⟩
  · rintro hn rfl hgot hins hhdr hfree
    exact ldk_loads hs hn hgot.1 hgot.2 hins hhdr hfree
  · rintro hsp rfl hgot
    exact pop_loads hs hsp hgot.1 hgot.2
  · rintro hsp rfl hgot
    exact ldsp_loads hs hsp hgot.1 hgot.2
  · rintro ha rfl hgot hcdr
    exact car_loads hs ha hgot.1 hgot.2 hcdr

/-! ### LOCOF and ADDSP -/

theorem locof_cons (h : s.ready c t = true) (ha : cellTag ((s.thread c t).reg a) = tCONS) (hb : (s.thread c t).has b fixTag = true)
    (hz : (s.thread c t).pay b = 0#24) : delivers (.locof c t d a b) s c t d (loc (cellPay ((s.thread c t).reg a))) := by
  refine delivers_of_run (i := iDAB 0x27 d a b false) rfl h nofun ?_
  rw [runI_operand_bind (has_of_tag ha (by decide) (by decide)), runI_operand_bind hb, if_pos ha]
  exact runI_check_passes (not_not_intro hz)
theorem locof_cons_faults (h : s.ready c t = true) (ha : cellTag ((s.thread c t).reg a) = tCONS) (hb : (s.thread c t).has b fixTag = true)
    (hz : (s.thread c t).pay b ≠ 0#24) : faults (.locof c t d a b) s c t 4#10 (fixN 1) (cellA 0x27 d a b false) := by
  refine faults_of_run (i := iDAB 0x27 d a b false) rfl h nofun rfl ?_
  rw [runI_operand_bind (has_of_tag ha (by decide) (by decide)), runI_operand_bind hb, if_pos ha]
  exact runI_check_fails hz
theorem locof_indexed {va : VAddr} (hs : s.plain c t = true) (ha : (s.thread c t).has a isHdrp = true)
    (hcrate : cellTag ((s.thread c t).reg a) = tCRATE → (s.thread c t).sup = true) (hb : (s.thread c t).has b fixTag = true)
    (hf : s.indexAt c t ((s.thread c t).reg a) ((s.thread c t).int b) = some va) :
    accesses (.locof c t d a b) s c t (((s.thread c t).setReg d (loc va)).complete .next) [] := by
  obtain ⟨st1, h1, hindex⟩ := runI_indexTarget hs (has_tag ha) hf (reads_workOn (i := iDAB 0x27 d a b false))
  obtain ⟨st2, h2, -, -, hcommit⟩ := runI_commit h1
  obtain ⟨st3, h3, hset⟩ := runI_setD_left (d := d) (v := loc va) (k := fun _ => pure Flow.next) (left_of_reads h2)
  have hcons : ¬ cellTag ((s.thread c t).reg a) = tCONS := fun e => by
    have hp := has_tag ha
    rw [e] at hp
    exact absurd hp (by decide)
  refine accesses_of_left (f := .next) (i := iDAB 0x27 d a b false) rfl hs nofun nofun nofun ?_ h3
  rw [runI_operand_bind (has_mono (fun x hx => by simp [hx]) ha), runI_operand_bind hb, if_neg hcons]
  refine (runI_bind_ok hindex).trans ?_
  rw [runI_limitCrate hcrate h1, runI_bind_ok hcommit]
  exact hset
theorem addsp_completes {imm : BitVec 11} (h : s.ready c t = true) (hsp : cellTag (s.thread c t).sp = tLOC) :
    completes (.addsp c t imm) s c t (((s.thread c t).setSp (loc (cellPay (s.thread c t).sp + imm.signExtend 24))).complete .next) := by
  refine completes_of_run (f := .next) (i := iL 0x2D imm) rfl h nofun nofun nofun ?_
  rw [runI_stackPtr hsp reads_workOn, runI_bind_ok (runI_commit_nil ..)]
  rfl
theorem addresses : addressesClaim := by
  intro s c t d a b imm va hs
  dsimp only
  exact ⟨fun hb => ⟨fun ha hz => locof_cons (plain_ready hs) ha hb hz, fun ha hz => locof_cons_faults (plain_ready hs) ha hb hz,
    fun ha hcrate hf => locof_indexed hs ha hcrate hb hf⟩, addsp_completes (plain_ready hs)⟩

/-! ### Transfers -/

theorem isNil_iff {v : Cell} : isNil v = true ↔ cellTag v = tCONST ∧ cellPay v = 0#24 := by simp [isNil]
theorem call_completes (off : BitVec 16) (h : s.ready c t = true) :
    completes (.call c t off) s c t
      (((s.thread c t).setReg 15 (reta ((s.thread c t).pc + 1#24))).complete (.jump ((s.thread c t).pc + off.signExtend 24))) := by
  refine completes_of_run (f := .jump _) (i := iJ 0x31 off) rfl h nofun nofun nofun ?_
  rw [runI_bind_ok (runI_commit_nil ..), runI_getT_reads reads_workOn, runI_bind_ok (runI_setD ..)]
  rfl
theorem runI_wBranch {off : BitVec 11} {onNil : Bool} (hd : (s.thread c t).has d anyTag = true) :
    runI (wBranch d off onNil) (workOn s c t i) =
      (.ok (if isNil ((s.thread c t).reg d) = onNil then .jump ((s.thread c t).pc + off.signExtend 24) else .next), workOn s c t i) := by
  unfold wBranch
  rw [runI_operand_bind hd, runI_bind_ok (runI_commit_nil ..)]
  split
  · rw [runI_getT_reads reads_workOn]
    rfl
  · rfl
theorem branch_completes {ins : Instr} {off : BitVec 11} {onNil : Bool} {op : Nat} (hex : exec ins s = .next (s.issue c t (iSL op d off) (wBranch d off onNil)))
    (h : s.ready c t = true) (hd : (s.thread c t).has d anyTag = true) : completes ins s c t ((s.thread c t).complete
      (if isNil ((s.thread c t).reg d) = onNil then .jump ((s.thread c t).pc + off.signExtend 24) else .next)) := by
  refine completes_of_idle (i := iSL op d off) hex h nofun ?_ ?_ (runI_wBranch hd)
  · split <;> nofun
  · split <;> nofun
theorem bt_completes {off : BitVec 11} (h : s.ready c t = true) (hd : (s.thread c t).has d anyTag = true) :
    completes (.bt c t d off) s c t ((s.thread c t).complete (if cellTag ((s.thread c t).reg d) = tCONST ∧ (s.thread c t).pay d = 0#24 then .next
      else .jump ((s.thread c t).pc + off.signExtend 24))) := by
  have hbt := branch_completes (ins := .bt c t d off) (op := 0x32) (onNil := false) rfl h hd
  unfold Thread.pay
  by_cases hnil : isNil ((s.thread c t).reg d) = true
  · rw [if_pos (isNil_iff.mp hnil)]
    rwa [hnil] at hbt
  · rw [if_neg (fun e => hnil (isNil_iff.mpr e))]
    rwa [if_pos (by simpa using hnil)] at hbt
theorem bf_completes {off : BitVec 11} (h : s.ready c t = true) (hd : (s.thread c t).has d anyTag = true) :
    completes (.bf c t d off) s c t ((s.thread c t).complete (if cellTag ((s.thread c t).reg d) = tCONST ∧ (s.thread c t).pay d = 0#24 then
      .jump ((s.thread c t).pc + off.signExtend 24) else .next)) := by
  have hbf := branch_completes (ins := .bf c t d off) (op := 0x33) (onNil := true) rfl h hd
  simp only [isNil_iff] at hbf
  exact hbf
theorem ret_completes (h : s.ready c t = true) (ha : (s.thread c t).has a (fun g => g = tRETA) = true) :
    completes (.ret c t a) s c t ((s.thread c t).complete (.jump ((s.thread c t).pay a))) := by
  refine completes_of_idle (i := iA 0x36 a) rfl h nofun nofun nofun ?_
  rw [runI_operand_bind ha, runI_bind_ok (runI_commit_nil ..)]
  rfl
theorem transfers : transfersClaim := by
  intro s c t d a off16 off h
  dsimp only
  exact ⟨j_completes off16 h, call_completes off16 h, fun hd => ⟨bt_completes h hd, bf_completes h hd⟩, ret_completes h⟩

/-! ### Transfers through CODE -/

/-- The entry of a CODE cell (R173). -/
theorem runI_codeEntry {e : VAddr} (hs : s.plain c t = true) (he : s.entryAt c t p = some e) (hr : reads s c t i st) :
    ∃ st', reads s c t i st' ∧ runI (codeEntry p) st = (.ok e, st') := by
  unfold State.entryAt at he
  split at he
  next h v w n hhdr hcount =>
    split at he
    next hok =>
      obtain rfl := Option.some.inj he
      simp only [Bool.and_eq_true, decide_eq_true_eq] at hok
      obtain ⟨⟨hv, hkind⟩, hn⟩ := hok
      obtain ⟨st1, x, h1, hread1⟩ := runI_readAt hs hhdr hr
      obtain ⟨st2, y, h2, hread2⟩ := runI_readAt hs hcount h1
      refine ⟨st2, h2, ?_⟩
      unfold codeEntry
      rw [runI_bind_ok hread1, runI_check_passes (by rw [hv]; decide), runI_check_passes (by simp [hv, hkind]), runI_bind_ok hread2,
        runI_checkLoaded (loadable_of_tag hn (by decide)), runI_check_passes (by simp [hn])]
      rfl
    · nomatch he
  · nomatch he
theorem jmpr_transfers {e : VAddr} (hs : s.plain c t = true) (ha : cellTag ((s.thread c t).reg a) = tCODE)
    (he : s.entryAt c t ((s.thread c t).reg a) = some e) : accesses (.jmpr c t a) s c t ((s.thread c t).complete (.jump e)) [] := by
  obtain ⟨st1, h1, hentry⟩ := runI_codeEntry hs he (reads_workOn (i := iA 0x34 a))
  obtain ⟨st2, h2, -, -, hcommit⟩ := runI_commit h1
  refine accesses_of_left (f := .jump e) (i := iA 0x34 a) rfl hs nofun nofun nofun ?_ (left_of_reads h2)
  rw [runI_operand_bind (has_of_tag ha (by decide) (by decide)), runI_bind_ok hentry, runI_bind_ok hcommit]
  rfl
theorem callr_code {e : VAddr} (hs : s.plain c t = true) (ha : cellTag ((s.thread c t).reg a) = tCODE)
    (he : s.entryAt c t ((s.thread c t).reg a) = some e) :
    accesses (.callr c t d a) s c t (((s.thread c t).setReg d (reta ((s.thread c t).pc + 1#24))).complete (.jump e)) [] := by
  obtain ⟨st1, h1, hentry⟩ := runI_codeEntry hs he (reads_workOn (i := iDA 0x35 d a))
  obtain ⟨st2, h2, -, -, hcommit⟩ := runI_commit h1
  obtain ⟨st3, h3, hset⟩ := runI_setD_left (d := d) (v := reta ((s.thread c t).pc + 1#24)) (k := fun _ => pure (Flow.jump e)) (left_of_reads h2)
  refine accesses_of_left (f := .jump e) (i := iDA 0x35 d a) rfl hs nofun nofun nofun ?_ h3
  rw [runI_operand_bind (has_of_tag ha (by decide) (by decide)), runI_getT_reads reads_workOn, if_pos ha, runI_bind_ok hentry,
    runI_bind_ok hcommit, hset]
  rfl
theorem callr_closure {e va : VAddr} {h k : Cell} (hs : s.plain c t = true) (ha : cellTag ((s.thread c t).reg a) = tCLO)
    (hh : s.headerAt c t ((s.thread c t).reg a) = some h) (hsize : 1 ≤ hdrSize h)
    (hfound : s.found c t (cellPay ((s.thread c t).reg a) + 1#24) = some (va, k)) (hk : cellTag k = tCODE) (he : s.entryAt c t k = some e) :
    accesses (.callr c t d a) s c t
      ((((s.thread c t).setReg 14 ((s.thread c t).reg a)).setReg d (reta ((s.thread c t).pc + 1#24))).complete (.jump e)) [] := by
  obtain ⟨st1, h1, hhdr⟩ := runI_headerOf hs hh (reads_workOn (i := iDA 0x35 d a))
  obtain ⟨st2, x, h2, hread⟩ := runI_readAt hs hfound h1
  obtain ⟨st3, h3, hentry⟩ := runI_codeEntry hs he h2
  obtain ⟨st4, h4, -, -, hcommit⟩ := runI_commit h3
  obtain ⟨st5, h5, hset1⟩ := runI_setD_left (d := 14) (v := (s.thread c t).reg a)
    (k := fun _ => do setD d (reta ((s.thread c t).pc + 1#24)); pure (Flow.jump e)) (left_of_reads h4)
  obtain ⟨st6, h6, hset2⟩ := runI_setD_left (d := d) (v := reta ((s.thread c t).pc + 1#24)) (k := fun _ => pure (Flow.jump e)) h5
  refine accesses_of_left (f := .jump e) (i := iDA 0x35 d a) rfl hs nofun nofun nofun ?_ h6
  rw [runI_operand_bind (has_of_tag ha (by decide) (by decide)), runI_getT_reads reads_workOn, if_neg (by rw [ha]; decide), runI_bind_ok hhdr,
    runI_check_passes (by omega), runI_bind_ok hread, runI_checkLoaded (loadable_of_tag hk (by decide)), runI_check_passes (not_not_intro hk),
    runI_bind_ok hentry, runI_bind_ok hcommit, hset1, hset2]
  rfl
theorem uenter_code {e : VAddr} (hs : s.plain c t = true) (ha : cellTag ((s.thread c t).reg a) = tCODE)
    (he : s.entryAt c t ((s.thread c t).reg a) = some e) (hsup : (s.thread c t).sup = true) :
    accesses (.uenter c t a) s c t ({ s.thread c t with pstate := setBit (s.thread c t).pstate 0 false }.complete (.enter e)) [] := by
  obtain ⟨st1, h1, hentry⟩ := runI_codeEntry hs he (reads_workOn (i := (iA 0x3C a).asSup))
  obtain ⟨st2, h2, -, -, hcommit⟩ := runI_commit h1
  obtain ⟨st3, h3, hmod⟩ := runI_modT_left (g := fun th => { th with pstate := setBit th.pstate 0 false })
    (k := fun _ => pure (Flow.enter e)) (left_of_reads h2)
  refine accesses_of_left (f := .enter e) (i := (iA 0x3C a).asSup) rfl hs (fun _ => hsup) nofun nofun ?_ h3
  rw [runI_operand_bind (has_of_tag ha (by decide) (by decide)), if_neg (by rw [ha]; decide), runI_bind_ok hentry, runI_bind_ok hcommit, hmod]
  rfl
theorem codeTransfers : codeTransfersClaim := by
  intro s c t d a e hs
  dsimp only
  exact ⟨fun ha he => ⟨jmpr_transfers hs ha he, callr_code hs ha he, uenter_code hs ha he⟩,
    fun h k va ha hh hsize hfound hk he => callr_closure hs ha hh hsize hfound hk he⟩

/-- Settles O20: relative transfers from the thread alone, the others from the reads that find the entry. -/
theorem controlTransfers : Obligations.ControlTransfers := ⟨transfers, codeTransfers⟩

/-- Settles O23: each load from where its address, its forwards and its cell are read. -/
theorem loadsAndAddresses : Obligations.LoadsAndAddresses := ⟨loads, addresses⟩

end

end Sys2Proof.Machine
end

section
/-! Signals, timers and power states of a channel (R112-R122, R263, R277). -/
namespace Sys2Proof.Machine

/-! ### Signals raised -/

/-- The saturating count of overruns, in numbers. -/
theorem satInc_byte (x : BitVec 8) : satInc x = if x = 255#8 then 255#8 else x + 1#8 := by
  by_cases h : x = 255#8
  · subst h
    rfl
  · rw [if_neg h]
    exact if_neg h
/-- A raised signal, as the claims name it. -/
theorem raise_raised (m : Mach) (v : Nat) (a : Cell) : m.raise v a = { m with ch := m.ch.raised v a } := by
  unfold Mach.raise raiseP Channel.raised
  cases mapGet m.ch.proc.pend v with
  | none => rfl
  | some q =>
    dsimp only
    rw [satInc_byte]
theorem raiseIf_raisedIf (m : Mach) (en : Bool) (v : Nat) (a : Cell) : m.raiseIf en v a = { m with ch := m.ch.raisedIf en v a } := by
  unfold Mach.raiseIf Channel.raisedIf
  split
  · exact raise_raised m v a
  · rfl

section
variable {s : State} {c : Chan} {n : Fin 8}

/-! ### Wake timers -/

/-- The channel with wake timer n as w. -/
abbrev Channel.withWake (ch : Channel) (n : Fin 8) (w : WakeTimer) : Channel := { ch with clk := { ch.clk with wake := ch.clk.wake.set n w } }
/-- The channel in which wake timer n has fired and stands as w. -/
abbrev Channel.wakeFired (ch : Channel) (n : Fin 8) (w : WakeTimer) : Channel :=
  Channel.raised { ch.withWake n w with life := { ch.life with preWake := false } } (64 + n.val) fix0
/-- The channel with fast timer n as f. -/
abbrev Channel.withFast (ch : Channel) (n : Fin 8) (f : FastTimer) : Channel := { ch with clk := { ch.clk with fast := ch.clk.fast.set n f } }

/-- A wake timer that has reached its deadline fires (R121). -/
theorem wakeFire_due {m : Mach} (harm : (m.wakeT n).armed = true) (hdue : (m.wakeT n).cmp ≤ m.ch.clk.tb) :
    m.wakeFire n = { m with ch := m.ch.wakeFired n (if winGet m.ch (wtReg n + 3) = 0#24 then { m.wakeT n with armed := false }
      else { m.wakeT n with cmp := (m.wakeT n).cmp + (winGet m.ch (wtReg n + 3)).setWidth 48 }) } := by
  unfold Mach.wakeFire
  dsimp only
  rw [if_pos (by simp [harm, hdue]), raise_raised]
  rfl
theorem wakeFire_quiet {m : Mach} (h : (m.wakeT n).armed = false ∨ m.ch.clk.tb < (m.wakeT n).cmp) : m.wakeFire n = m := by
  unfold Mach.wakeFire
  exact if_neg (by rcases h with h | h <;> simp [h])
/-- The comparator that arming loads. -/
def Channel.wakeCmp (ch : Channel) (n : Fin 8) : BitVec 48 := winGet ch (0x812 + 4 * n.val) ++ winGet ch (0x811 + 4 * n.val)
theorem wtReg_offset (n : Fin 8) (k : Nat) : wtReg n + k = 0x810 + k + 4 * n.val := by
  unfold wtReg
  omega
/-- The channel with wake timer n armed and its comparator loaded. -/
theorem wakeArm_eq (m : Mach) : m.wakeArm n = (m.setWakeT n { armed := true, cmp := m.ch.wakeCmp n }).wakeFire n := by
  unfold Mach.wakeArm
  rw [wtReg_offset, wtReg_offset]
  rfl
@[simp] theorem wakeT_setWakeT (m : Mach) (w : WakeTimer) : (m.setWakeT n w).wakeT n = w := by simp [Mach.wakeT, Mach.setWakeT]
theorem wakeFired_withWake (ch : Channel) (w v : WakeTimer) : (ch.withWake n w).wakeFired n v = ch.wakeFired n v := by
  simp [Channel.wakeFired]
/-- Arming before the deadline (R121). -/
theorem wakeTimerArm_early (h : s.awake c) (hearly : (s.chan c).clk.tb < (s.chan c).wakeCmp n) :
    turnsTo (.wakeTimerArm c n) s c ((s.chan c).withWake n { armed := true, cmp := (s.chan c).wakeCmp n }) := by
  refine congrArg _ (program_channel h ?_)
  rw [wakeArm_eq, wakeFire_quiet (.inr (by rw [wakeT_setWakeT]; exact hearly))]
  rfl
/-- A deadline that has passed as it is armed. -/
theorem wakeTimerArm_late (h : s.awake c) (hlate : (s.chan c).wakeCmp n ≤ (s.chan c).clk.tb) {w : WakeTimer}
    (hw : (if winGet (s.chan c) (0x813 + 4 * n.val) = 0#24 then { armed := false, cmp := (s.chan c).wakeCmp n }
      else { armed := true, cmp := (s.chan c).wakeCmp n + (winGet (s.chan c) (0x813 + 4 * n.val)).setWidth 48 }) = w) :
    turnsTo (.wakeTimerArm c n) s c ((s.chan c).wakeFired n w) := by
  refine congrArg _ (program_channel h ?_)
  rw [wakeArm_eq, wakeFire_due (by simp) (by rw [wakeT_setWakeT]; exact hlate), ← hw]
  simp only [wakeT_setWakeT, wtReg_offset]
  exact congrArg (fun x => { s.mach c with ch := x }) (wakeFired_withWake (s.chan c) _ _)
theorem wakeTimerExpiry_due (hcond : (s.chan c).life.cond = .running) (harm : ((s.chan c).clk.wake[n]).armed = true)
    (hdue : ((s.chan c).clk.wake[n]).cmp ≤ (s.chan c).clk.tb) :
    turnsTo (.wakeTimerExpiry c n) s c ((s.chan c).wakeFired n
      (if winGet (s.chan c) (0x813 + 4 * n.val) = 0#24 then { (s.chan c).clk.wake[n] with armed := false }
        else { (s.chan c).clk.wake[n] with cmp := ((s.chan c).clk.wake[n]).cmp + (winGet (s.chan c) (0x813 + 4 * n.val)).setWidth 48 })) := by
  refine congrArg _ (onMach_channel s c _ _ ?_)
  rw [if_pos (show (s.mach c).ch.life.cond = .running from hcond), wakeFire_due (m := s.mach c) harm hdue, wtReg_offset]
  rfl
theorem wakeTimerExpiry_quiet (h : ((s.chan c).clk.wake[n]).armed = false ∨ (s.chan c).clk.tb < ((s.chan c).clk.wake[n]).cmp) :
    exec (.wakeTimerExpiry c n) s = .next s := by
  refine congrArg _ (onMach_id s c _ ?_)
  rw [wakeFire_quiet (m := s.mach c) h, ite_self]

/-! ### Fast timers -/

theorem ftReg_offset (n : Fin 8) : ftReg n + 1 = 0x841 + 4 * n.val := by
  unfold ftReg
  omega
theorem fastTimerArm_loads (h : s.awake c) (pre : BitVec 2) (periodic : Bool) :
    turnsTo (.fastTimerArm c n pre periodic) s c ((s.chan c).withFast n
      { armed := true, periodic := periodic, pre := pre, loaded := winGet (s.chan c) (0x841 + 4 * n.val),
        zero := decide (winGet (s.chan c) (0x841 + 4 * n.val) = 0#24) }) := by
  refine congrArg _ (program_channel h ?_)
  unfold Mach.fastArm
  rw [ftReg_offset]
  rfl
/-- A free value drawn below the loaded count and one. -/
theorem ofNat_le_of_drawn {p : Payload} {k : Nat} (h : k ≤ p.toNat) : BitVec.ofNat 24 k ≤ p := by
  rw [BitVec.le_def, BitVec.toNat_ofNat]
  exact (Nat.mod_le _ _).trans h
theorem fastTimerDisarm_counts (h : s.awake c) (pre : BitVec 2) (periodic : Bool) :
    ∃ (p : Payload) (r : Nat), p ≤ ((s.chan c).clk.fast[n]).loaded ∧ exec (.fastTimerDisarm c n pre periodic) s =
      .next (({ s with free := r }).setChan c
        ((s.chan c).withFast n { (s.chan c).clk.fast[n] with armed := false, periodic := periodic, pre := pre, loaded := p })) := by
  have hdisarm : exec (.fastTimerDisarm c n pre periodic) s = .next (s.putMach { (s.mach c).fastDisarm n pre periodic with c := c }) :=
    congrArg _ (program_awake _ h)
  rw [hdisarm]
  unfold Mach.fastDisarm
  rcases harm : ((s.mach c).fastT n).armed with _ | _
  · refine ⟨((s.chan c).clk.fast[n]).loaded, s.free, BitVec.le_refl _, ?_⟩
    dsimp only
    rw [harm]
    simp only [Bool.false_eq_true, if_false, BitVec.ofNat_toNat, BitVec.setWidth_eq]
    rfl
  · refine ⟨BitVec.ofNat 24 ((s.mach c).draw (((s.mach c).fastT n).loaded.toNat + 1)).1, s.free + 1, ofNat_le_of_drawn ?_, ?_⟩
    · exact Nat.le_of_lt_succ (Nat.mod_lt _ (Nat.succ_pos _))
    · dsimp only
      rw [harm]
      rfl
theorem fastTimerExpiry_fires (hcond : (s.chan c).life.cond = .running) (hpower : (s.chan c).life.power ≠ .sleep)
    (harm : ((s.chan c).clk.fast[n]).armed = true) :
    turnsTo (.fastTimerExpiry c n) s c (((s.chan c).withFast n
      (if ((s.chan c).clk.fast[n]).periodic = true ∧ ((s.chan c).clk.fast[n]).zero = false then
          { (s.chan c).clk.fast[n] with loaded := winGet (s.chan c) (0x841 + 4 * n.val) }
        else { (s.chan c).clk.fast[n] with armed := false, loaded := 0#24 })).raised (72 + n.val) fix0) := by
  have hgo : (((s.mach c).fastT n).armed && decide ((s.mach c).ch.life.cond = .running) && decide ((s.mach c).ch.life.power ≠ .sleep)) = true := by
    have hon : ((s.mach c).fastT n).armed = true := harm
    simp [hon, hcond, hpower]
  refine congrArg _ (onMach_channel s c _ _ ?_)
  unfold Mach.fastExpiry
  dsimp only
  rw [if_pos hgo, raise_raised, ftReg_offset]
  simp only [Bool.and_eq_true, Bool.not_eq_true']
  rfl
theorem fastTimerExpiry_quiet (h : ((s.chan c).clk.fast[n]).armed = false) : exec (.fastTimerExpiry c n) s = .next s := by
  refine congrArg _ (onMach_id s c _ ?_)
  unfold Mach.fastExpiry
  have hoff : ((s.mach c).fastT n).armed = false := h
  exact if_neg (by simp [hoff])

/-- Settles O43: what arming, expiry and disarming of a wake timer and of a fast timer leave, and the capture of TBL. -/
theorem timers : Obligations.Timers := by
  intro s c n
  dsimp only
  refine ⟨fun h => ⟨wakeTimerArm_early h, fun hlate hper => wakeTimerArm_late h hlate (if_pos hper), fun hlate hper => wakeTimerArm_late h hlate (if_neg hper),
    congrArg _ (program_channel h rfl), fastTimerArm_loads h, fastTimerDisarm_counts h, fun t => congrArg _ (program_channel h rfl)⟩,
    fun hcond => ⟨wakeTimerExpiry_due hcond, wakeTimerExpiry_quiet, fun harm hpower => fastTimerExpiry_fires hcond hpower harm, fastTimerExpiry_quiet⟩⟩

end

end Sys2Proof.Machine
end

section
/-! Power states of a channel (R114-R118, R327, R383). -/
namespace Sys2Proof.Machine

section
variable {s : State} {c : Chan}

/-- Work on a slice that changes the channel, its counters apart, and the free counter. -/
theorem does_of_onMach {i : Instr} {f : Mach → Mach} {x : Channel} {p : Perf} {n : Nat} (hex : exec i s = .next (s.onMach c f))
    (hf : f (s.mach c) = { s.mach c with ch := { x with perf := p }, free := n }) : does i s c x := by
  refine ⟨p, n, hex.trans (congrArg _ ?_)⟩
  unfold State.onMach
  rw [hf]
  rfl

/-! ### The gating of core clocks -/

theorem busy_eq_false {m : Mach} {t : Fin 8} (hrun : (m.thr t).status ≠ .running) (hsync : (m.thr t).sync = none) (hsig : m.signalFor t = none) :
    m.busy t = false := by
  simp [Mach.busy, hrun, hsync, hsig]
theorem mem_threadsOf {k : Fin 2} {t : Fin 8} : t ∈ threadsOf k ↔ coreOf t = k := by
  revert t k
  decide
/-- The life of a channel with the clock of core k gated. -/
abbrev Life.gates (l : Life) (k : Fin 2) : Life := { l with gated := setBit l.gated k.val true }
/-- The life of a channel that has reached a power state. -/
abbrev Life.deepens (l : Life) (p : Power) (n : BitVec 2) : Life := { l with power := p, deepest := if l.deepest < n then n else l.deepest }
/-- A core none of whose threads is busy gates its clock (R114). -/
theorem idleEntry_gates {k : Fin 2} (h : s.awake c)
    (hidle : ∀ t : Fin 8, coreOf t = k → ((s.thread c t).status ≠ .running ∧ (s.thread c t).sync = none ∧ (s.mach c).signalFor t = none)) :
    turnsTo (.idleEntry c k) s c { s.chan c with
      life := if setBit (s.chan c).life.gated k.val true = 3#2 then ((s.chan c).life.gates k).deepens .idle 1#2 else (s.chan c).life.gates k } := by
  have hnone : (threadsOf k).any (s.mach c).busy = false := by
    rw [List.any_eq_false]
    intro t ht
    obtain ⟨hrun, hsync, hsig⟩ := hidle t (mem_threadsOf.mp ht)
    rw [busy_eq_false (m := s.mach c) hrun hsync hsig]
    nofun
  refine congrArg _ (onMach_channel s c _ _ ?_)
  unfold Mach.idleEntry
  rw [programs_of_awake h, hnone, if_pos (by decide)]
  by_cases hboth : setBit (s.chan c).life.gated k.val true = 3#2
  · rw [if_pos hboth]
    exact if_pos hboth
  · rw [if_neg hboth]
    exact if_neg hboth

/-! ### Deadlines -/

/-- No armed wake timer's deadline lies within n slow-clock periods. -/
def State.far (s : State) (c : Chan) (n : Nat) : Prop :=
  ∀ i : Fin 8, ((s.chan c).clk.wake[i]).armed = true → (s.chan c).clk.tb.toNat + n < ((s.chan c).clk.wake[i]).cmp.toNat
theorem wakeWithin_iff (n : Nat) : (s.mach c).wakeWithin n = false ↔ s.far c n := by
  unfold Mach.wakeWithin State.far
  simp only [List.any_eq_false, Vector.mem_toList_iff, Vector.mem_iff_getElem, Bool.and_eq_true, decide_eq_true_eq, not_and, not_le]
  exact ⟨fun h i ha => h _ ⟨i.val, i.isLt, rfl⟩ ha, fun h w ⟨i, hi, hw⟩ ha => hw ▸ h ⟨i, hi⟩ (by rw [← hw] at ha; exact ha)⟩

/-! ### Caches and look-aside buffers on an entry -/

/-- Both cores of a channel changed, one after the other. -/
theorem setCores_map (m : Mach) (f : Core → Core) :
    (m.setCore 0 (f (m.core 0))).setCore 1 (f ((m.setCore 0 (f (m.core 0))).core 1)) = { m with ch := m.ch.mapCores f } := by
  have hcores : (m.ch.core.set 0 (f m.ch.core[0])).set 1 (f (m.ch.core.set 0 (f m.ch.core[0]))[1]) = m.ch.core.map f := by
    ext i hi
    rcases i with _ | _ | i
    · simp
    · simp
    · omega
  exact congrArg (fun v => { m with ch.core := v }) hcores
/-- A core that keeps only the ways a test picks. -/
def Core.keepWays (p : Nat → Bool) (co : Core) : Core := { co with icache := co.icache.keepWays p, dcache := co.dcache.keepWays p }
theorem powerWays_waysOff (m : Mach) (p : Nat → Bool) : m.powerWays p = { m with ch := m.ch.waysOff p } :=
  congrArg Mach.clearStrides (setCores_map m (Core.keepWays p))
theorem dropLookaside_map (m : Mach) : m.dropLookaside = { m with ch := m.ch.mapCores (fun co => { co with tlb := [], utlb := [] }) } := by
  rw [← setCores_map]
  have hcore : ∀ x : Core, (m.setCore 0 x).core 1 = m.core 1 := fun x => core_setCore_ne m 0 1 x (by decide)
  rw [hcore]
  rfl

/-! ### DOZE -/

/-- Looking at the fast timers draws free values and changes nothing else. -/
theorem fastWithin_free (ns : List (Fin 8)) (m : Mach) : ∃ k, (m.fastWithin ns).2 = { m with free := k } := by
  induction ns generalizing m with
  | nil => exact ⟨m.free, rfl⟩
  | cons n r ih =>
    unfold Mach.fastWithin
    dsimp only
    split
    · obtain ⟨k, hk⟩ := ih (m.draw ((m.fastT n).loaded.toNat + 1)).2
      exact ⟨k, hk⟩
    · exact ih m
theorem drainAll_empty {m : Mach} (h0 : (m.core 0).wb = []) (h1 : (m.core 1).wb = []) : m.drainAll = m := by
  simp [Mach.drainAll, Mach.drainN, h0, h1]
theorem dozeEntry_dozes (hcond : (s.chan c).life.cond = .running) (hpower : (s.chan c).life.power = .idle)
    (hmax : 1 ≤ bits (winGet (s.chan c) 0x400) 0 2) (hfar : s.far c 1) (hpre : (s.chan c).life.preWake = false ∨ s.far c 3)
    (hfast : ((s.mach c).fastWithin [0, 1, 2, 3, 4, 5, 6, 7]).1 = false) (h0 : ((s.chan c).core[0]).wb = []) (h1 : ((s.chan c).core[1]).wb = []) :
    does (.dozeEntry c) s c { (s.chan c).waysOff (fun w => decide (w = 0)) with life := (s.chan c).life.deepens .doze 2#2 } := by
  have hpre' : ((s.chan c).life.preWake && (s.mach c).wakeWithin 3) = false := by
    rcases hpre with h | h
    · simp [h]
    · simp [(wakeWithin_iff 3).mpr h]
  have hmay : (decide ((s.mach c).ch.life.cond = .running) && decide ((s.mach c).ch.life.power = .idle) && decide (1 ≤ (s.mach c).ch.maxst) &&
      !(s.mach c).wakeWithin 1 && !((s.mach c).ch.life.preWake && (s.mach c).wakeWithin 3)) = true := by
    simp only [mach_ch, hcond, hpower, (wakeWithin_iff 1).mpr hfar, hpre']
    have hmax' : 1 ≤ (s.chan c).maxst := hmax
    simp [hmax']
  obtain ⟨k, hk⟩ := fastWithin_free [0, 1, 2, 3, 4, 5, 6, 7] (s.mach c)
  refine does_of_onMach (f := Mach.dozeEntry) (n := k) (p := ((((s.mach c).setPower .doze 2#2).bumpC 3).bumpBy (192 + 63) 2).ch.perf) rfl ?_
  unfold Mach.dozeEntry
  dsimp only
  rw [hmay, hfast, hk, if_pos rfl, if_pos (by decide), drainAll_empty (m := { s.mach c with free := k }) h0 h1, if_neg (not_not_intro rfl), powerWays_waysOff]
  rfl
/-- No entry to DOZE while a pre-wake is in progress (R118). -/
theorem dozeEntry_preWake (hpre : (s.chan c).life.preWake = true) (hnear : ¬ s.far c 3) : exec (.dozeEntry c) s = .next s := by
  have hwithin : (s.mach c).wakeWithin 3 = true := by
    rw [← Bool.not_eq_false, wakeWithin_iff]
    exact hnear
  refine congrArg _ (onMach_id s c _ ?_)
  unfold Mach.dozeEntry
  simp [hpre, hwithin]

/-! ### SLEEP, wake and pre-wake -/

theorem tallyDrain_empty {m : Mach} (h : m.ch.perf.queue = []) : m.tallyDrain = m := by
  have hwrite : m.tallyWrite = m := by
    unfold Mach.tallyWrite
    rw [h]
  simp [Mach.tallyDrain, iterN, hwrite]
theorem setPower_sleep (d : BitVec 2) : (if d < 3#2 then 3#2 else d) = 3#2 := by
  revert d
  decide
/-- An all-bank refresh of a populated subchannel. -/
def Mach.refreshIf (m : Mach) (sub : Bool) : Mach := if m.ch.populated sub then m.doRefresh sub else m
/-- It changes the memory controller, whatever the counters are, and counts. -/
theorem refreshIf_mc (m : Mach) (p : Perf) (sub : Bool) :
    ∃ q, ({ m with ch.perf := p }).refreshIf sub = { m with ch := { m.ch with mc := (m.refreshIf sub).ch.mc, perf := q } } := by
  have hpop : ({ m with ch.perf := p } : Mach).ch.populated sub = m.ch.populated sub := rfl
  unfold Mach.refreshIf
  rw [hpop]
  rcases m.ch.populated sub with _ | _ <;> exact ⟨_, rfl⟩
theorem refreshIf_self (m : Mach) (sub : Bool) : ∃ q, m.refreshIf sub = { m with ch := { m.ch with mc := (m.refreshIf sub).ch.mc, perf := q } } :=
  refreshIf_mc m m.ch.perf sub
theorem refreshIf_pool (m : Mach) (sub : Bool) : (m.refreshIf sub).ch.mc.pool = m.ch.mc.pool := by
  unfold Mach.refreshIf
  split <;> rfl
theorem leaveSelfRefresh_eq (m : Mach) : m.leaveSelfRefresh =
    if m.ch.mc.selfRef then { (m.refreshIf false).refreshIf true with ch.mc.selfRef := false, ch.mc.unread := true } else m := rfl
/-- What leaving self-refresh changes of a slice: the memory controller, whatever the counters are. -/
theorem leaveSelfRefresh_mc (m : Mach) (p : Perf) :
    ∃ q, ({ m with ch.perf := p }).leaveSelfRefresh = { m with ch := { m.ch with mc := m.leaveSelfRefresh.ch.mc, perf := q } } := by
  rw [leaveSelfRefresh_eq, leaveSelfRefresh_eq]
  by_cases href : m.ch.mc.selfRef = true
  · obtain ⟨q1, h1⟩ := refreshIf_mc m p false
    obtain ⟨q1', h1'⟩ := refreshIf_self m false
    obtain ⟨q2, h2⟩ := refreshIf_mc { m with ch.mc := (m.refreshIf false).ch.mc } q1 true
    obtain ⟨q2', h2'⟩ := refreshIf_mc { m with ch.mc := (m.refreshIf false).ch.mc } q1' true
    have hboth : (m.refreshIf false).refreshIf true = { m with
        ch := { m.ch with mc := (Mach.refreshIf { m with ch.mc := (m.refreshIf false).ch.mc } true).ch.mc, perf := q2' } } := by
      rw [h1']
      exact h2'
    have hboth' : (({ m with ch.perf := p } : Mach).refreshIf false).refreshIf true = { m with
        ch := { m.ch with mc := (Mach.refreshIf { m with ch.mc := (m.refreshIf false).ch.mc } true).ch.mc, perf := q2 } } := by
      rw [h1]
      exact h2
    refine ⟨q2, ?_⟩
    rw [if_pos href, if_pos href, hboth, hboth']
  · exact ⟨p, by rw [if_neg href, if_neg href]⟩
theorem sleepEntry_sleeps (hcond : (s.chan c).life.cond = .running) (hpower : (s.chan c).life.power = .doze)
    (hmax : 2 ≤ bits (winGet (s.chan c) 0x400) 0 2) (hfast : ∀ n : Fin 8, ((s.chan c).clk.fast[n]).armed = false) (hfar : s.far c 63)
    (hphase : (s.chan c).sw.phase = .idle) (hstart : (s.chan c).sw.starting = false) (hrange : (s.chan c).proc.range = none)
    (hframe : (s.chan c).framing = false) (hscan : bit (winGet (s.chan c) 0x10000) 1 = false) (htouch : (s.chan c).touch.run = false)
    (hi2c : (s.chan c).panel.i2c = none) (hpool : (s.chan c).mc.pool = []) (hactive : (s.chan c).pair.role ≠ .active)
    (hstandby : (s.chan c).pair.role ≠ .standby) (hqueue : (s.chan c).perf.queue = []) :
    does (.sleepEntry c) s c { (s.chan c).waysOff (fun _ => false) with
      core := ((s.chan c).waysOff (fun _ => false)).core.map (fun co => { co with tlb := [], utlb := [] })
      mc := { (s.chan c).mc with selfRef := true, sub := (s.chan c).mc.sub.map (fun x => x.closeAll (s.chan c).tRcd) }
      life := { (s.chan c).life with power := .sleep, deepest := 3#2 } } := by
  have hfast' : (s.chan c).clk.fast.toList.all (fun f => !f.armed) = true := by
    simp only [List.all_eq_true, Vector.mem_toList_iff, Vector.mem_iff_getElem, Bool.not_eq_true']
    rintro f ⟨i, hi, rfl⟩
    exact hfast ⟨i, hi⟩
  have hsw : (s.mach c).swIdle = true := by
    simp [Mach.swIdle, hphase, hstart]
  have hformed : (s.chan c).pair.role.formed = false := by
    rcases hrole : (s.chan c).pair.role <;> simp_all [Role.formed]
  have hok : (s.mach c).sleepOk = true := by
    have hnotscan : (s.chan c).scanning = false := hscan
    have hmax' : 2 ≤ (s.chan c).maxst := hmax
    simp only [Mach.sleepOk, mach_ch, hcond, hpower, hfast', (wakeWithin_iff 63).mpr hfar, hsw, hrange, hframe, hnotscan, htouch, hi2c, hpool,
      hformed, hmax']
    decide
  refine does_of_onMach (f := Mach.sleepEntry) (n := s.free) (p := ((((s.mach c).setPower .sleep 3#2).bumpC 4).bumpBy (192 + 63) 2).ch.perf) rfl ?_
  unfold Mach.sleepEntry
  rw [if_pos hok, tallyDrain_empty hqueue]
  dsimp only
  rw [if_neg (not_not_intro rfl), powerWays_waysOff, dropLookaside_map]
  unfold Mach.setPower
  rw [setPower_sleep]
  rfl
/-- Leaving self-refresh takes memory out of it and serves no request before the temperature is read (R383). -/
theorem leaveSelfRefresh_awake (m : Mach) (h : m.ch.mc.selfRef = false) : m.leaveSelfRefresh = m := by
  unfold Mach.leaveSelfRefresh
  simp [h]
theorem leaveSelfRefresh_asleep (m : Mach) (h : m.ch.mc.selfRef = true) :
    m.leaveSelfRefresh.ch.mc.selfRef = false ∧ m.leaveSelfRefresh.ch.mc.unread = true ∧ m.leaveSelfRefresh.ch.mc.pool = m.ch.mc.pool := by
  rw [leaveSelfRefresh_eq, if_pos h]
  exact ⟨rfl, rfl, (refreshIf_pool _ true).trans (refreshIf_pool m false)⟩
/-- A pending event returns the channel to RUN (R117). -/
theorem wake_runs (hcond : (s.chan c).life.cond = .running) (hpower : (s.chan c).life.power ≠ .run) (hpend : (s.chan c).proc.pend ≠ []) :
    does (.wake c) s c { s.chan c with
      mc := (s.mach c).leaveSelfRefresh.ch.mc, life := { (s.chan c).life with power := .run, gated := 0#2 } } := by
  have hgo : (decide ((s.mach c).ch.life.cond = .running) && decide ((s.mach c).ch.life.power ≠ .run) && !(s.mach c).ch.proc.pend.isEmpty) = true := by
    simp [hcond, hpower, hpend]
  have hbump : (s.mach c).bumpIf (decide ((s.mach c).ch.life.power = .sleep)) 5 = { s.mach c with
      ch.perf := ((s.mach c).bumpIf (decide ((s.mach c).ch.life.power = .sleep)) 5).ch.perf } := by
    unfold Mach.bumpIf
    split <;> rfl
  obtain ⟨q, hq⟩ := leaveSelfRefresh_mc (s.mach c) ((s.mach c).bumpIf (decide ((s.mach c).ch.life.power = .sleep)) 5).ch.perf
  refine does_of_onMach (f := Mach.wakeUp) (n := s.free) (p := q) rfl ?_
  unfold Mach.wakeUp Mach.toRun
  rw [if_pos hgo, hbump]
  dsimp only
  rw [hq]
  rfl
/-- A near deadline starts the wake (R118). -/
theorem preWake_wakes (hcond : (s.chan c).life.cond = .running) (hpower : (s.chan c).life.power = .sleep) (hnear : ¬ s.far c 3) :
    does (.preWake c) s c { s.chan c with
      mc := (s.mach c).leaveSelfRefresh.ch.mc, life := { (s.chan c).life with power := .idle, preWake := true } } := by
  have hwithin : (s.mach c).wakeWithin 3 = true := by
    rw [← Bool.not_eq_false, wakeWithin_iff]
    exact hnear
  have hgo : (decide ((s.mach c).ch.life.cond = .running) && decide ((s.mach c).ch.life.power = .sleep) && (s.mach c).wakeWithin 3) = true := by
    simp [hcond, hpower, hwithin]
  obtain ⟨q, hq⟩ := leaveSelfRefresh_mc (s.mach c) ((s.mach c).bumpC 5).ch.perf
  have hleave : ((s.mach c).bumpC 5).leaveSelfRefresh = { s.mach c with ch := { s.chan c with mc := (s.mach c).leaveSelfRefresh.ch.mc, perf := q } } := hq
  refine does_of_onMach (f := Mach.preWakeUp) (n := s.free) (p := q) rfl ?_
  unfold Mach.preWakeUp
  rw [if_pos hgo, hleave]
  rfl

/-- Settles O44: each entry and each way out, with the free values that the look at the fast timers draws. -/
theorem powerStates : Obligations.PowerStates := by
  intro s c
  dsimp only
  refine ⟨fun h => congrArg _ (program_channel h rfl), fun k h hidle => idleEntry_gates h hidle, dozeEntry_dozes, dozeEntry_preWake,
    sleepEntry_sleeps, fun h => congrArg (fun m : Mach => m.ch.mc) (leaveSelfRefresh_awake (s.mach c) h), leaveSelfRefresh_asleep (s.mach c),
    wake_runs, preWake_wakes⟩

end
end Sys2Proof.Machine
end

section
/-! Resets, the release of reset and OFF (R43, R64, R105, R119, R124, R125). -/
namespace Sys2Proof.Machine

section
variable {s s' : State} {c : Chan}

/-- A channel that has gone through `doReset`, whatever its ledger held and its RST_N ball shows. -/
theorem wasReset_of {cause : BitVec 6} {l : Ledger} {b : Bool}
    (h : s'.chan c = { ({ s.chan c with led := l }).doReset cause with life := { (({ s.chan c with led := l }).doReset cause).life with rstN := b } }) :
    wasReset s s' c cause := by
  have hperf : (if (decide (cause = 2#6) || decide (cause = 4#6)) = true then { perfReset with counts := (s.chan c).perf.counts } else perfReset) =
      { perfReset with counts := if cause = 2#6 ∨ cause = 4#6 then (s.chan c).perf.counts else [] } := by
    simp only [Bool.or_eq_true, decide_eq_true_eq]
    split <;> rfl
  unfold wasReset
  dsimp only
  rw [h]
  exact ⟨rfl, rfl, rfl, rfl, rfl, rfl, rfl, rfl, rfl, rfl, rfl, rfl, rfl, rfl, rfl, rfl, rfl, rfl, rfl, rfl, rfl, rfl, rfl, rfl, Nat.succ_ne_self _, hperf⟩
/-- Work on one channel's slice that leaves the square and has reset the channel. -/
theorem resets_of_onMach {i : Instr} {f : Mach → Mach} {cause : BitVec 6} {l : Ledger} {b : Bool} (hex : exec i s = .next (s.onMach c f))
    (hf : f (s.mach c) = { s.mach c with ch := { ({ s.chan c with led := l }).doReset cause with
      life := { (({ s.chan c with led := l }).doReset cause).life with rstN := b } } }) :
    ∃ s', exec i s = .next s' ∧ wasReset s s' c cause ∧ sameElsewhere s s' c ∧ s'.square = s.square := by
  rw [onMach_channel s c f _ hf] at hex
  exact ⟨_, hex, wasReset_of (chan_setChan s c _), fun k hk => chan_setChan_ne s c k _ hk, rfl⟩
/-- Work on the channel alone of one slice, seen from every channel. -/
theorem chan_onMach_local (s : State) (c k : Chan) (g : Channel → Channel) :
    (s.onMach c (fun m => { m with ch := g m.ch })).chan k = if k = c then g (s.chan k) else s.chan k := by
  rw [onMach_channel s c _ (g (s.chan c)) rfl]
  split
  next hk =>
    subst hk
    exact chan_setChan s k _
  next hk => exact chan_setChan_ne s c k _ hk
theorem chan_onAll (s : State) (k : Chan) (g : Channel → Channel) : (s.onAll (fun m => { m with ch := g m.ch })).chan k = g (s.chan k) := by
  unfold State.onAll
  rw [chan_onMach_local, chan_onMach_local, chan_onMach_local, chan_onMach_local]
  fin_cases k <;> rfl
theorem onAll_reset (s : State) (k : Chan) : (s.onAll (fun m => m.reset 1#6)).chan k = (s.chan k).doReset 1#6 :=
  chan_onAll s k (fun ch => ch.doReset 1#6)
/-- POR_N low (R43). -/
theorem porReset_resets (s : State) : ∃ s', exec .porReset s = .next s' ∧ (∀ k, wasReset s s' k 1#6) ∧
    s'.square = { squareReset with led := s.square.led.reset } :=
  ⟨_, rfl, fun k => wasReset_of (l := (s.chan k).led) (b := (s.chan k).life.rstN) (onAll_reset s k), rfl⟩
theorem pinReset_resets (hrst : (s.chan c).life.rstN = true) (hpor : s.square.porN = true) :
    ∃ s', exec (.pinReset c) s = .next s' ∧ wasReset s s' c (if (s.chan c).life.offCause = some .request then 8#6 else 2#6) ∧
      sameElsewhere s s' c ∧ s'.square = s.square := by
  refine resets_of_onMach (f := Mach.pinReset) (l := (s.chan c).led) (b := false) rfl ?_
  have hrst' : (s.mach c).ch.life.rstN = true := hrst
  have hpor' : (s.mach c).sq.porN = true := hpor
  unfold Mach.pinReset
  rw [hrst', hpor']
  rfl
theorem release_samples (hcond : (s.chan c).life.cond = .inReset) :
    exec (.releaseOfReset c) s = .next (({ s with square := { s.square with porN := true, powered := true } }).setChan c { s.chan c with
      life := { (s.chan c).life with cond := .sampling, rstN := true, good := true, rails := (s.chan c).life.rails ||| 0x0F#5 } }) := by
  have hrelease : (s.mach c).release = { s.mach c with
      sq := { s.square with porN := true, powered := true }
      ch := { s.chan c with
        life := { (s.chan c).life with cond := .sampling, rstN := true, good := true, rails := (s.chan c).life.rails ||| 0x0F#5 } } } := if_pos hcond
  have hstate : exec (.releaseOfReset c) s = .next (s.putMach { (s.mach c).release with c := c }) := rfl
  rw [hstate, hrelease]
  rfl
/-- While CHMODE is undecided no start is tried (R64). -/
theorem decideBoth_undecided (h : s.square.straps[0].decided = false) (c : Chan) : s.decideBoth c = s := by
  have hstart : s.decideStart c = s := by
    unfold State.decideStart
    exact if_neg (by simp [h])
  have hpartner : s.partner c = none := if_neg (by simp [h])
  unfold State.decideBoth
  rw [hstart]
  simp only [hpartner]
theorem chnEnSample_samples {level : Bool} (hcond : (s.chan c).life.cond = .sampling) (hen : (s.chan c).life.en = none)
    (hmode : s.square.straps[0].decided = false) :
    turnsTo (.chnEnSample c level) s c { s.chan c with
      life := { (s.chan c).life with en := some level, cond := if level then .sampling else .keptOff } } := by
  have hgo : (decide ((s.chan c).life.cond = .sampling) && (s.chan c).life.en.isNone) = true := by
    simp [hcond, hen]
  refine congrArg _ ((if_pos hgo).trans ?_)
  exact decideBoth_undecided (s := s.setChan c _) hmode c
theorem watchdogExpiry_resets (hcond : (s.chan c).life.cond = .running) (hrun : (s.chan c).clk.wdRun = true)
    (hcount : 3277 * 2 ^ (s.chan c).straps[5].level.toNat ≤ (s.chan c).clk.wdCount) :
    ∃ s', exec (.watchdogExpiry c) s = .next s' ∧ wasReset s s' c 4#6 ∧ sameElsewhere s s' c ∧ s'.square = s.square := by
  have hgo : (decide ((s.mach c).ch.life.cond = .running) && (s.mach c).ch.clk.wdRun &&
      decide ((s.mach c).ch.wdPeriod ≤ (s.mach c).ch.clk.wdCount)) = true := by
    have hcount' : (s.chan c).wdPeriod ≤ (s.chan c).clk.wdCount := hcount
    simp [hcond, hrun, hcount']
  exact resets_of_onMach (f := Mach.wdExpiry) (b := (s.chan c).life.rstN) rfl (if_pos hgo)
/-- The rails whose warnings an OFF waits for: VTX_CHn where its monitor acts (R106). -/
theorem warn_clear {w : BitVec 6} {l : BitVec 3} (h : ∀ rail : Fin 5, rail ≠ 4 ∨ l ≠ 0#3 → bit w rail.val = false) :
    w &&& (if l = 0#3 then 0x0F#6 else 0x1F#6) = 0#6 := by
  revert w l
  decide +kernel
theorem offReturn_resets (hoff : (s.chan c).life.offCause = some .brownout ∨ (s.chan c).life.offCause = some .thermal)
    (hrails : ∀ rail : Fin 5, rail ≠ 4 ∨ (s.chan c).straps[6].level ≠ 0#3 → bit (s.chan c).clk.warn rail.val = false)
    (htj : (s.chan c).clk.mon[5].toInt ≤ 110) :
    ∃ s', exec (.offReturn c) s = .next s' ∧ wasReset s s' c (if (s.chan c).life.offCause = some .brownout then 16#6 else 32#6) ∧
      sameElsewhere s s' c ∧ s'.square = s.square := by
  refine resets_of_onMach (f := Mach.offReturn) (l := (s.chan c).led) (b := (s.chan c).life.rstN) rfl ?_
  have hok : (decide ((s.mach c).ch.clk.warn &&& (if (s.mach c).ch.straps[6].level = 0#3 then 0x0F#6 else 0x1F#6) = 0#6) &&
      decide ((s.mach c).ch.clk.mon[5].toInt ≤ 110)) = true := by
    rw [Bool.and_eq_true, decide_eq_true_eq, decide_eq_true_eq]
    exact ⟨warn_clear hrails, htj⟩
  unfold Mach.offReturn
  dsimp only
  rw [hok]
  rcases hoff with hoff | hoff <;>
  · have hoff' : (s.mach c).ch.life.offCause = _ := hoff
    rw [hoff', hoff]
    rfl
theorem pwrctlOff_ignores (h : s.awake c) {key : BitVec 8} (hkey : key ≠ 0x5A#8) : exec (.pwrctlOff c key) s = .next s := by
  refine congrArg _ ((program_channel (x := s.chan c) h ?_).trans (setChan_chan s c))
  exact if_neg hkey
theorem pwrctlOff_off (h : s.awake c) :
    ∃ s', exec (.pwrctlOff c 0x5A#8) s = .next s' ∧ sameElsewhere s s' c ∧ s'.square = s.square ∧ (s'.chan c).life.cond = .off ∧
      (s'.chan c).life.offCause = some .request ∧ (s'.chan c).thr = threadsReset ∧ (s'.chan c).proc = procReset ∧
      (s'.chan c).phys.mem = [] ∧ (s'.chan c).phys.near = [] ∧ (s'.chan c).win = [] := by
  have hoff : exec (.pwrctlOff c 0x5A#8) s = .next (s.setChan c ((s.mach c).enterOff .request).ch) :=
    congrArg _ (program_channel h (f := fun m => m.pwrOff 0x5A#8) rfl)
  refine ⟨_, hoff, fun k hk => chan_setChan_ne s c k _ hk, rfl, ?_⟩
  rw [chan_setChan]
  exact ⟨rfl, rfl, rfl, rfl, rfl, rfl, rfl⟩

/-- Settles O45: each cause of a reset through `doReset`, and the ways into and out of OFF. -/
theorem resetsAndOff : Obligations.ResetsAndOff := by
  intro s c
  dsimp only
  exact ⟨porReset_resets s, pinReset_resets, release_samples, fun level => chnEnSample_samples, watchdogExpiry_resets, offReturn_resets,
    fun h => ⟨fun key hkey => pwrctlOff_ignores h hkey, pwrctlOff_off h⟩⟩

end

end Sys2Proof.Machine
end

section
/-! Monitors, clocks, watchdog and checkers (R90, R103-R111, R124, R396-R400, R511). -/
namespace Sys2Proof.Machine

/-! ### Error records -/

/-- A record arrives at a queue with room (R81). -/
theorem report_recorded {m : Mach} {cls : BitVec 6} {detail : BitVec 32} (spec flag : Bool) (hroom : m.ch.led.staging.length < 16)
    (hcls : cls ≠ 0x0F#6) : m.report cls spec flag detail = { m with ch := m.ch.recorded cls spec flag detail } := by
  have hevent : m.ch.led.arriveEvent cls detail = false := by simp [Ledger.arriveEvent, hroom, hcls]
  have harrive : m.ch.led.arrive cls spec flag detail = (m.ch.recorded cls spec flag detail).led := if_pos hroom
  have hbump : m.bumpIf (!decide (m.ch.led.staging.length < 16)) 50 = m := if_neg (by simp [hroom])
  unfold Mach.report
  rw [hevent, hbump]
  dsimp only
  rw [harrive, Bool.false_and]
  rfl

/-! ### Work of the memory controller that neither draws nor looks at counters -/

/-- Work that changes the channel alone, the same whatever the free counter is, and the same but for the counters whatever those are. -/
structure steady (f : Mach → Mach) : Prop where
  alone : ∀ m, f m = { m with ch := (f m).ch }
  drawn : ∀ m k, f { m with free := k } = { f m with free := k }
  counted : ∀ m p, ∃ q, f { m with ch.perf := p } = { f m with ch.perf := q }

theorem steady_id : steady (fun m => m) := ⟨fun _ => rfl, fun _ _ => rfl, fun _ p => ⟨p, rfl⟩⟩
theorem steady_comp {f g : Mach → Mach} (hf : steady f) (hg : steady g) : steady (fun m => g (f m)) := by
  refine ⟨fun m => ?_, fun m k => ?_, fun m p => ?_⟩
  · rw [hg.alone (f m), hf.alone m]
  · dsimp only
    rw [hf.drawn, hg.drawn]
  · obtain ⟨q, hq⟩ := hf.counted m p
    dsimp only
    rw [hq]
    exact hg.counted (f m) q
/-- Work chosen by what neither counter changes. -/
theorem steady_arg {ι : Type} {e : Mach → ι} {f : ι → Mach → Mach} (hfree : ∀ m k, e { m with free := k } = e m)
    (hperf : ∀ m p, e { m with ch.perf := p } = e m) (hf : ∀ i, steady (f i)) : steady (fun m => f (e m) m) := by
  refine ⟨fun m => (hf _).alone m, fun m k => ?_, fun m p => ?_⟩
  · dsimp only
    rw [hfree, (hf _).drawn]
  · dsimp only
    rw [hperf]
    exact (hf _).counted m p
theorem steady_ite {p : Prop} [Decidable p] {f g : Mach → Mach} (hf : steady f) (hg : steady g) : steady (fun m => if p then f m else g m) := by
  by_cases hp : p
  · simpa only [hp, if_true] using hf
  · simpa only [hp, if_false] using hg
theorem steady_bumpC (e : Nat) : steady (fun m => m.bumpC e) := ⟨fun _ => rfl, fun _ _ => rfl, fun _ _ => ⟨_, rfl⟩⟩
theorem steady_bumpBy (n k : Nat) : steady (fun m => m.bumpBy n k) := ⟨fun _ => rfl, fun _ _ => rfl, fun _ _ => ⟨_, rfl⟩⟩
theorem steady_mc (f : MemCtl → MemCtl) : steady (fun m => { m with ch.mc := f m.ch.mc }) := ⟨fun _ => rfl, fun _ _ => rfl, fun _ p => ⟨p, rfl⟩⟩
theorem steady_led (f : Ledger → Ledger) : steady (fun m => { m with ch.led := f m.ch.led }) := ⟨fun _ => rfl, fun _ _ => rfl, fun _ p => ⟨p, rfl⟩⟩
theorem steady_putMem (a : Nat) (w : BitVec 40) : steady (fun m => m.putMem a w) := ⟨fun _ => rfl, fun _ _ => rfl, fun _ p => ⟨p, rfl⟩⟩
theorem steady_raise (v : Nat) (a : Cell) : steady (fun m => m.raise v a) := ⟨fun _ => rfl, fun _ _ => rfl, fun _ p => ⟨p, rfl⟩⟩
theorem steady_raiseIf (en : Bool) (v : Nat) (a : Cell) : steady (fun m => m.raiseIf en v a) := steady_ite (steady_raise v a) steady_id
/-- A raise enabled by a bit of a window register. -/
theorem steady_raiseWin (ev : Bool) (o i v : Nat) (a : Cell) : steady (fun m => m.raiseIf (ev && winBit m.ch o i) v a) :=
  steady_arg (e := fun m => winBit m.ch o i) (f := fun b m => m.raiseIf (ev && b) v a) (fun _ _ => rfl) (fun _ _ => rfl)
    fun b => steady_raiseIf (ev && b) v a
theorem steady_report (cls : BitVec 6) (spec flag : Bool) (detail : BitVec 32) : steady (fun m => m.report cls spec flag detail) := by
  have hfull (full ev : Bool) : steady (fun m =>
      ({ m.bumpIf full 50 with ch.led := (m.bumpIf full 50).ch.led.arrive cls spec flag detail } : Mach).raiseIf
        (ev && winBit ({ m.bumpIf full 50 with ch.led := (m.bumpIf full 50).ch.led.arrive cls spec flag detail } : Mach).ch 0x1001 0) 38 fix0) :=
    steady_comp (steady_comp (steady_ite (p := full = true) (steady_bumpC 50) steady_id) (steady_led fun l => l.arrive cls spec flag detail))
      (steady_raiseWin ev 0x1001 0 38 fix0)
  exact steady_arg (e := fun m => (!(m.ch.led.staging.length < 16), m.ch.led.arriveEvent cls detail)) (fun _ _ => rfl) (fun _ _ => rfl)
    fun b => hfull b.1 b.2
theorem steady_reportCe (a : Nat) (spec scrub : Bool) : steady (fun m => m.reportCe a spec scrub) := by
  have hrec : steady (fun m => ({ m.bumpC 32 with ch.mc.ceCount := satInc m.ch.mc.ceCount } : Mach).report 0x02#6 spec scrub (BitVec.ofNat 32 a)) :=
    steady_comp (steady_comp (steady_bumpC 32) (steady_mc fun x => { x with ceCount := satInc x.ceCount })) (steady_report _ _ _ _)
  have hraise (sub : Bool) (d : BitVec 2) : steady (fun m => ({ m with ch.mc.ceAddr := BitVec.ofNat 32 a } : Mach).raiseIf (winBit m.ch 0x4400 6) 35
      (mcAddr d sub a)) :=
    steady_comp (steady_mc fun x => { x with ceAddr := BitVec.ofNat 32 a }) (steady_raiseWin true 0x4400 6 35 (mcAddr d sub a))
  exact steady_arg (e := fun m => (m.ch.split a).1) (fun _ _ => rfl) (fun _ _ => rfl)
    fun sub => steady_ite (p := spec = true) hrec (steady_comp hrec (hraise sub (if scrub then 1#2 else 0#2)))
theorem steady_reportUe (a : Nat) (spec scrub refused : Bool) : steady (fun m => m.reportUe a spec scrub refused) := by
  have hrec : steady (fun m => ({ m.bumpC 33 with ch.mc := { m.ch.mc with
      ueCount := satInc m.ch.mc.ueCount, ueAddr := BitVec.ofNat 32 a, ueSpec := spec } } : Mach).report 0x03#6 spec refused (BitVec.ofNat 32 a)) :=
    steady_comp (steady_comp (steady_bumpC 33) (steady_mc fun x => { x with ueCount := satInc x.ueCount, ueAddr := BitVec.ofNat 32 a, ueSpec := spec }))
      (steady_report _ _ _ _)
  exact steady_arg (e := fun m => (m.ch.split a).1) (fun _ _ => rfl) (fun _ _ => rfl)
    fun sub => steady_ite (p := spec = true) hrec
      (steady_comp hrec (steady_raiseWin true 0x4400 7 36 (mcAddr (if refused then 2#2 else if scrub then 1#2 else 0#2) sub a)))
theorem steady_reportLink (sub : Bool) (kind : BitVec 3) (low : BitVec 28) (spec : Bool) : steady (fun m => m.reportLink sub kind low spec) :=
  steady_comp (steady_mc fun x => { x with linkCount := satInc x.linkCount }) (steady_report _ _ _ _)
theorem steady_reportErrs (line : Nat) (spec scrub : Bool) (es : List (Fin 16 × BitVec 2)) : steady (fun m => m.reportErrs line spec scrub es) := by
  induction es with
  | nil => exact steady_id
  | cons e r ih => exact steady_comp (steady_ite (steady_reportCe _ _ _) (steady_reportUe _ _ _ _)) ih
theorem steady_rewriteCells (line : Nat) (ps : List (Fin 16)) : steady (fun m => m.rewriteCells line ps) := by
  induction ps with
  | nil => exact steady_id
  | cons p r ih =>
    refine steady_comp (g := fun m => m.rewriteCells line r) ?_ ih
    exact steady_arg (e := fun m => eccRead (line * 16 + p.val) (m.memBits (line * 16 + p.val)))
      (f := fun e m => if e.1 = Ecc.correctable then m.putMem (line * 16 + p.val) (eccWrite (line * 16 + p.val) e.2) else m) (fun _ _ => rfl)
      (fun _ _ => rfl) fun e => steady_ite (steady_putMem _ _) steady_id
theorem steady_finish (r : PoolReq) (missing again : Bool) : steady (fun m => m.finish r missing again) := by
  have haged : steady (fun m => if r.age ≥ 512 then { m with ch.mc.aged := satInc m.ch.mc.aged } else m) :=
    steady_ite (steady_mc fun x => { x with aged := satInc x.aged }) steady_id
  have herrs : steady (fun m => m.reportErrs r.line r.spec (r.kind = .scrub) r.errs) := steady_reportErrs _ _ _ _
  have hue : steady (fun m => { m.bumpBy 225 16 with ch.mc := { m.ch.mc with
      ueCount := satAdd m.ch.mc.ueCount 16, ueAddr := BitVec.ofNat 32 (r.line * 16), ueSpec := r.spec } }) :=
    steady_comp (steady_bumpBy 225 16)
      (steady_mc fun x => { x with ueCount := satAdd x.ueCount 16, ueAddr := BitVec.ofNat 32 (r.line * 16), ueSpec := r.spec })
  have hlink (sub : Bool) := steady_comp haged (steady_reportLink sub 1#3 (BitVec.ofNat 28 r.line) r.spec)
  have hall (sub : Bool) := steady_comp (hlink sub) hue
  have hbad (sub : Bool) := steady_ite (p := (again || allUe r.errs) = true)
    (steady_ite (p := r.spec = true) (hall sub) (steady_comp (hall sub) (steady_raiseWin true 0x4400 7 36 (mcAddr 3#2 sub (r.line * 16)))))
    (steady_comp (hlink sub) herrs)
  have hdone (sub : Bool) := steady_ite (p := r.kind = .rewrite) (steady_comp haged (steady_rewriteCells r.line positions))
    (steady_ite (p := (r.kind.reads && (missing || allUe r.errs)) = true) (hbad sub) (steady_comp haged herrs))
  exact steady_arg (e := fun m => (m.ch.split (r.line * 16)).1) (fun _ _ => rfl) (fun _ _ => rfl) hdone
theorem steady_finishAll (rs : List PoolReq) : steady (fun m => m.finishAll rs) := by
  induction rs with
  | nil => exact steady_id
  | cons r rs ih => exact steady_comp (steady_finish r false false) ih
theorem steady_unwrite (ws : List (Nat × BitVec 40)) : steady (fun m => m.unwrite ws) := by
  induction ws with
  | nil => exact steady_id
  | cons w r ih => exact steady_comp (steady_putMem w.1 w.2) ih
theorem steady_takeBack (rs : List PoolReq) : steady (fun m => m.takeBack rs) := by
  induction rs with
  | nil => exact steady_id
  | cons r rs ih => exact steady_comp (steady_unwrite r.prior) ih
theorem steady_quench : steady Mach.quench := by
  have hpool (pool : List PoolReq) :=
    steady_comp (steady_comp (steady_finishAll (pool.filter PoolReq.sent)) (steady_takeBack (pool.filter (fun r : PoolReq => !r.sent)).reverse))
      (steady_mc fun x => { x with pool := [], queued := [] })
  exact steady_arg (e := fun m => m.ch.mc.pool) (fun _ _ => rfl) (fun _ _ => rfl) hpool


/-! ### Halts -/

section
variable {s : State} {c : Chan}

/-- Channel c once it has halted as x (R400). -/
def State.haltedAs (s : State) (c : Chan) (x : Channel) : Channel :=
  let q := ({ s.mach c with ch := x }).quench.ch
  { q with
    life := { q.life with cond := .halted, faultN := false }
    panel := { q.panel with buz := 0#2 }
    mc := { q.mc with pool := [], queued := [], selfRef := q.mc.trained } }
theorem halt_eq (s : State) (c : Chan) (x : Channel) (r : Nat) :
    ({ s.mach c with ch := x, free := r } : Mach).halt = { s.mach c with ch := s.haltedAs c x, free := r } := by
  have hquench : ({ s.mach c with ch := x, free := r } : Mach).quench =
      { s.mach c with ch := ({ s.mach c with ch := x } : Mach).quench.ch, free := r } := by
    rw [steady_quench.drawn { s.mach c with ch := x } r, steady_quench.alone { s.mach c with ch := x }]
  unfold Mach.halt Mach.stopAll
  dsimp only
  rw [hquench]
  rfl
/-- Counters apart, a halt does not look at counters. -/
theorem haltedAs_counted (s : State) (c : Chan) (x : Channel) (p : Perf) :
    ∃ q, s.haltedAs c { x with perf := p } = { s.haltedAs c x with perf := q } := by
  obtain ⟨q, hq⟩ := steady_quench.counted { s.mach c with ch := x } p
  refine ⟨q, ?_⟩
  unfold State.haltedAs
  dsimp only
  rw [hq]
/-- The halt of a checker with its record (R400). -/
theorem checkHalt_eq {x : Channel} {cls : BitVec 6} (core : BitVec 1) (mech : BitVec 3) (unit : BitVec 4) (hcls : cls ≠ 0x0F#6)
    (hroom : (s.haltedAs c x).led.staging.length < 16) :
    ∃ (n : BitVec 24) (r : Nat), ({ s.mach c with ch := x } : Mach).checkHalt cls core mech unit =
      { s.mach c with ch := (s.haltedAs c x).recorded cls false false (core ++ mech ++ unit ++ n : BitVec 32), free := r } := by
  refine ⟨BitVec.ofNat 24 (({ s.mach c with ch := x } : Mach).draw (2 ^ 24)).1, s.free + 1, ?_⟩
  have hhalt : (({ s.mach c with ch := x } : Mach).draw (2 ^ 24)).2.halt = { s.mach c with ch := s.haltedAs c x, free := s.free + 1 } :=
    halt_eq s c x (s.free + 1)
  unfold Mach.checkHalt
  dsimp only
  rw [hhalt, report_recorded (m := { s.mach c with ch := s.haltedAs c x, free := s.free + 1 }) false false hroom hcls]
/-- A command that, its guard holding, ends in the halt of a checker. -/
theorem halts_of_onMach {i : Instr} {f : Mach → Mach} {cls : BitVec 6} {core : BitVec 1} {mech : BitVec 3} {unit : BitVec 4}
    (hex : exec i s = .next (s.onMach c f)) (hf : f (s.mach c) = (s.mach c).checkHalt cls core mech unit) (hcls : cls ≠ 0x0F#6)
    (hroom : (s.haltedAs c (s.chan c)).led.staging.length < 16) :
    ∃ (n : BitVec 24) (r : Nat), exec i s = .next (({ s with free := r }).setChan c
      ((s.haltedAs c (s.chan c)).recorded cls false false (core ++ mech ++ unit ++ n : BitVec 32))) := by
  obtain ⟨n, r, hcheck⟩ := checkHalt_eq (x := s.chan c) core mech unit hcls hroom
  refine ⟨n, r, hex.trans (congrArg _ ?_)⟩
  unfold State.onMach
  rw [hf]
  exact congrArg (fun m : Mach => s.putMach { m with c := c }) hcheck
theorem clocked_of {k : Fin 2} (h : s.awake c) (hgate : bit (s.chan c).life.gated k.val = false) : (s.mach c).clocked k = true := by
  unfold Mach.clocked
  rw [programs_of_awake h]
  exact congrArg (fun b => true && !b) hgate
theorem boundaryDivergence_halts {k : Fin 2} (h : s.awake c) (hgate : bit (s.chan c).life.gated k.val = false)
    (hroom : (s.haltedAs c (s.chan c)).led.staging.length < 16) :
    ∃ (n : BitVec 24) (r : Nat), exec (.boundaryDivergence c k) s = .next (({ s with free := r }).setChan c
      ((s.haltedAs c (s.chan c)).recorded 0x08#6 false false (BitVec.ofNat 1 k.val ++ 0#3 ++ 0#4 ++ n : BitVec 32))) :=
  halts_of_onMach (f := fun m => if m.clocked k then m.checkHalt 0x08#6 (coreBit k) 0#3 0#4 else m) rfl (if_pos (clocked_of h hgate))
    (by decide) hroom
theorem checkerFault_halts {k : Fin 2} (parity : Bool) (h : s.awake c) (hgate : bit (s.chan c).life.gated k.val = false)
    (hroom : (s.haltedAs c (s.chan c)).led.staging.length < 16) :
    ∃ (n : BitVec 24) (r : Nat), exec (.checkerFault c k parity) s = .next (({ s with free := r }).setChan c
      ((s.haltedAs c (s.chan c)).recorded 0x09#6 false false (BitVec.ofNat 1 k.val ++ (if parity then 3#3 else 2#3) ++ 0#4 ++ n : BitVec 32))) :=
  halts_of_onMach (f := fun m => if m.clocked k then m.checkHalt 0x09#6 (coreBit k) (if parity then 3#3 else 2#3) 0#4 else m) rfl
    (if_pos (clocked_of h hgate)) (by decide) hroom
theorem unitCompareMismatch_halts {unit : BitVec 4} (cross : Bool) (hcond : (s.chan c).life.cond = .running) (hlo : 1#4 ≤ unit) (hhi : unit ≤ 8#4)
    (hroom : (s.haltedAs c (s.chan c)).led.staging.length < 16) :
    ∃ (n : BitVec 24) (r : Nat), exec (.unitCompareMismatch c unit cross) s = .next (({ s with free := r }).setChan c
      ((s.haltedAs c (s.chan c)).recorded 0x09#6 false false (0#1 ++ (if cross then 2#3 else 4#3) ++ unit ++ n : BitVec 32))) := by
  have hgo : ((s.mach c).ch.life.cond.live && decide (1#4 ≤ unit) && decide (unit ≤ 8#4)) = true := by
    simp [hcond, Cond.live, hlo, hhi]
  exact halts_of_onMach (f := fun m => if m.ch.life.cond.live && decide (1#4 ≤ unit) && decide (unit ≤ 8#4) then
    m.checkHalt 0x09#6 0#1 (if cross then 2#3 else 4#3) unit else m) rfl (if_pos hgo) (by decide) hroom
theorem registerSignature_same {k : Fin 2} (h : s.awake c) (hgate : bit (s.chan c).life.gated k.val = false) :
    does (.registerSignature c k true) s c (s.chan c) :=
  does_of_onMach (f := fun m => m.signature k true) (n := s.free) (p := ((s.mach c).bumpC 63).ch.perf) rfl (if_pos (clocked_of h hgate))
/-- A signature that differs halts the channel (R398). -/
theorem registerSignature_differs {k : Fin 2} (h : s.awake c) (hgate : bit (s.chan c).life.gated k.val = false)
    (hroom : (s.haltedAs c (s.chan c)).led.staging.length < 16) :
    ∃ p : Perf, ∃ (n : BitVec 24) (r : Nat), exec (.registerSignature c k false) s = .next (({ s with free := r }).setChan c
      { (s.haltedAs c (s.chan c)).recorded 0x08#6 false false (BitVec.ofNat 1 k.val ++ 1#3 ++ 0#4 ++ n : BitVec 32) with perf := p }) := by
  obtain ⟨q, hq⟩ := haltedAs_counted s c (s.chan c) ((s.mach c).bumpC 63).ch.perf
  obtain ⟨n, r, hcheck⟩ := checkHalt_eq (s := s) (c := c) (x := { s.chan c with perf := ((s.mach c).bumpC 63).ch.perf }) (cls := 0x08#6) (coreBit k) 1#3 0#4
    (by decide) (by rw [hq]; exact hroom)
  have hsig : (s.mach c).signature k false = ((s.mach c).bumpC 63).checkHalt 0x08#6 (coreBit k) 1#3 0#4 := if_pos (clocked_of h hgate)
  refine ⟨q, n, r, ?_⟩
  have hex : exec (.registerSignature c k false) s = .next (s.putMach { (s.mach c).signature k false with c := c }) := rfl
  rw [hex, hsig]
  rw [hq] at hcheck
  exact congrArg (fun m : Mach => Host.Outcome.next (s.putMach { m with c := c })) hcheck

/-! ### Monitors of supplies, junction and clocks -/

/-- What a reading of a rail says of the supply itself. -/
def Channel.senses (x : Channel) (rail : Fin 6) (r : BitVec 16) : Channel :=
  if rail = 5 then x else { x with
    life := { x.life with rails := setBit x.life.rails rail.val (if rail = 2 then decide (1200 ≤ r.toNat) else decide (r ≠ 0#16)) }
    led := { x.led with stopped := x.led.stopped || (decide (rail = 2) && decide (r.toNat < 1680)) } }
theorem sense_senses (m : Mach) (rail : Fin 6) (r : BitVec 16) : m.sense rail r = { m with ch := m.ch.senses rail r } := by
  by_cases h5 : rail = 5
  · subst h5
    rfl
  · have hif : m.ch.senses rail r = _ := if_neg h5
    rw [hif]
    unfold Mach.sense
    dsimp only
    rw [if_neg h5]
    rcases h2 : decide (rail = 2) && decide (r.toNat < 1680) with _ | _
    · simp only [Bool.or_false, Bool.false_eq_true, if_false]
    · simp only [Bool.or_true, if_true]
theorem senses_fields (x : Channel) (rail : Fin 6) (r : BitVec 16) :
    (x.senses rail r).clk = x.clk ∧ (x.senses rail r).win = x.win ∧ (x.senses rail r).straps = x.straps ∧ (x.senses rail r).life.cond = x.life.cond ∧
      (x.senses rail r).led.staging = x.led.staging := by
  unfold Channel.senses
  split <;> exact ⟨rfl, rfl, rfl, rfl, rfl⟩
theorem winGet_congr {x y : Channel} (h : x.win = y.win) (o : Nat) : winGet x o = winGet y o := by
  unfold winGet
  rw [h]
theorem railLimits_eq (rail : Fin 6) : railLimits rail = (warnLimits rail, offLimits rail) := by
  revert rail
  decide
/-- A level beyond limits, as the monitor tells it. -/
theorem beyond_iff {rail : Fin 6} {lim : Nat × Nat} {r : BitVec 16} {kind : BitVec 4} :
    beyond rail lim r = some kind ↔ levelKind rail lim r kind := by
  unfold beyond levelKind
  split
  · split
    next h => exact ⟨fun e => ⟨h, (Option.some.inj e).symm⟩, fun e => congrArg some e.2.symm⟩
    next h => exact ⟨nofun, fun e => absurd e.1 h⟩
  · split
    next h =>
      exact ⟨fun e => .inl ⟨h, (Option.some.inj e).symm⟩, fun e => e.elim (fun e => congrArg some e.2.symm) fun e => absurd h (not_lt.mpr e.1)⟩
    next h =>
      split
      next h' =>
        exact ⟨fun e => .inr ⟨not_lt.mp h, h', (Option.some.inj e).symm⟩, fun e => e.elim (fun e => absurd e.1 h) fun e => congrArg some e.2.2.symm⟩
      next h' => exact ⟨nofun, fun e => e.elim (fun e => absurd e.1 h) fun e => absurd e.2.1 h'⟩
/-- The channel with the time of a rail's last record noted. -/
abbrev Channel.noted (x : Channel) (rail : Nat) : Channel := { x with clk := { x.clk with lastRec := mapPut x.clk.lastRec rail x.clk.tb.toNat } }
/-- The channel with WARN and STICKY of a rail set. -/
abbrev Channel.warned (x : Channel) (rail : Nat) : Channel :=
  { x with clk := { x.clk with warn := setBit x.clk.warn rail true, sticky := setBit x.clk.sticky rail true } }
/-- The first record of a monitor in its period (R104). -/
theorem monitorRecord_fresh {m : Mach} {rail kind : BitVec 4} {reading : BitVec 16} (flag : Bool) (hfresh : mapGet m.ch.clk.lastRec rail.toNat = none)
    (hroom : m.ch.led.staging.length < 16) :
    m.monitorRecord rail flag kind reading = 
      { m with ch := (m.ch.noted rail.toNat).recorded 0x0B#6 false flag (rail ++ kind ++ 0#8 ++ reading : BitVec 32) } := by
  unfold Mach.monitorRecord
  rw [hfresh]
  exact report_recorded (m := { m with ch := m.ch.noted rail.toNat }) false flag hroom (by decide)
theorem rail_toNat (rail : Fin 6) : (BitVec.ofNat 4 rail.val).toNat = rail.val := by
  revert rail
  decide
theorem watches_running {m : Mach} {rail : Fin 6} (hcond : m.ch.life.cond = .running) (hrail : rail ≠ 4 ∨ m.ch.straps[6].level ≠ 0#3) :
    m.watches rail = true := by
  unfold Mach.watches
  rw [hcond]
  simpa [Cond.live] using hrail
/-! What a reading says of the supply does not meet the monitors' own registers, a record or a signal. -/

theorem warned_senses (x : Channel) (rail : Fin 6) (r : BitVec 16) (k : Nat) : (x.senses rail r).warned k = (x.warned k).senses rail r := by
  unfold Channel.senses
  split <;> rfl
theorem noted_senses (x : Channel) (rail : Fin 6) (r : BitVec 16) (k : Nat) : (x.senses rail r).noted k = (x.noted k).senses rail r := by
  unfold Channel.senses
  split <;> rfl
theorem recorded_senses (x : Channel) (rail : Fin 6) (r : BitVec 16) (cls : BitVec 6) (spec flag : Bool) (d : BitVec 32) :
    (x.senses rail r).recorded cls spec flag d = (x.recorded cls spec flag d).senses rail r := by
  unfold Channel.senses
  split <;> rfl
theorem raisedIf_senses (x : Channel) (rail : Fin 6) (r : BitVec 16) (on : Bool) (v : Nat) (a : Cell) :
    (x.senses rail r).raisedIf on v a = (x.raisedIf on v a).senses rail r := by
  unfold Channel.senses Channel.raisedIf
  split <;> split <;> rfl
/-- A monitor's record while the supply is read. -/
theorem monitorRecord_senses {m : Mach} {x : Channel} {rail : Fin 6} {kind : BitVec 4} {r : BitVec 16} (flag : Bool)
    (hfresh : mapGet x.clk.lastRec rail.val = none) (hroom : x.led.staging.length < 16) :
    ({ m with ch := x.senses rail r } : Mach).monitorRecord (BitVec.ofNat 4 rail.val) flag kind r =
      { m with ch := ((x.noted rail.val).recorded 0x0B#6 false flag (BitVec.ofNat 4 rail.val ++ kind ++ 0#8 ++ r : BitVec 32)).senses rail r } := by
  obtain ⟨hclk, -, -, -, hstaging⟩ := senses_fields x rail r
  rw [monitorRecord_fresh flag (by rw [rail_toNat]; simp only [hclk]; exact hfresh) (by simp only [hstaging]; exact hroom), rail_toNat]
  dsimp only
  rw [noted_senses, recorded_senses]
/-- The channel's monitor watches its rail, whatever the reading. -/
theorem watches_senses {m : Mach} {x : Channel} {rail : Fin 6} {r : BitVec 16} (hcond : x.life.cond = .running)
    (hrail : rail ≠ 4 ∨ x.straps[6].level ≠ 0#3) : ({ m with ch := x.senses rail r } : Mach).watches rail = true := by
  obtain ⟨-, -, hstraps, hlife, -⟩ := senses_fields x rail r
  refine watches_running (hlife.trans hcond) ?_
  simp only [hstraps]
  exact hrail
/-- A level beyond a warning limit (R103, R104). -/
theorem supplyWarning_warns {rail : Fin 6} {r : BitVec 16} {kind : BitVec 4} (hroom : (s.chan c).led.staging.length < 16)
    (hcond : (s.chan c).life.cond = .running) (hrail : rail ≠ 4 ∨ (s.chan c).straps[6].level ≠ 0#3)
    (hfresh : mapGet (s.chan c).clk.lastRec rail.val = none) (hkind : levelKind rail (warnLimits rail) r kind)
    (hwarn : bit (s.chan c).clk.warn rail.val = false) :
    turnsTo (.supplyMonitorWarning c rail r) s c ((((((s.chan c).warned rail.val).noted rail.val).recorded 0x0B#6 false false
      (BitVec.ofNat 4 rail.val ++ kind ++ 0#8 ++ r : BitVec 32)).raisedIf (bit (winGet (s.chan c) 0x403) 0) 45 fix0).senses rail r) := by
  obtain ⟨hclk, hwin, -, -, -⟩ := senses_fields (s.chan c) rail r
  have hgo : ¬ (!({ s.mach c with ch := (s.chan c).senses rail r } : Mach).watches rail || bit ((s.chan c).senses rail r).clk.warn rail.val) = true := by
    rw [watches_senses hcond hrail, hclk, hwarn]
    decide
  have hrecord := monitorRecord_senses (m := s.mach c) (x := (s.chan c).warned rail.val) (kind := kind) (r := r) false hfresh hroom
  refine congrArg _ (onMach_channel s c _ _ ?_)
  unfold Mach.supplyWarning
  rw [sense_senses, railLimits_eq, beyond_iff.mpr hkind]
  refine (if_neg hgo).trans ?_
  rw [← warned_senses] at hrecord
  refine (congrArg (fun m : Mach => m.raiseIf (winBit m.ch 0x0403 0) 45 fix0) hrecord).trans ?_
  rw [raiseIf_raisedIf]
  dsimp only
  rw [raisedIf_senses]
  have hen : winBit ((((((s.chan c).warned rail.val).noted rail.val).recorded 0x0B#6 false false
      (BitVec.ofNat 4 rail.val ++ kind ++ 0#8 ++ r : BitVec 32))).senses rail r) 0x0403 0 = bit (winGet (s.chan c) 0x403) 0 := by
    obtain ⟨-, hwin', -⟩ := senses_fields ((((s.chan c).warned rail.val).noted rail.val).recorded 0x0B#6 false false
      (BitVec.ofNat 4 rail.val ++ kind ++ 0#8 ++ r : BitVec 32)) rail r
    exact congrArg (fun w => bit w 0) (winGet_congr hwin' _)
  rw [hen]
/-- A level beyond an off limit: the drive fault of VTX_CHn, else OFF (R103 to R106). -/
theorem supplyOff_eq {rail : Fin 6} {r : BitVec 16} {kind : BitVec 4} (hroom : (s.chan c).led.staging.length < 16)
    (hcond : (s.chan c).life.cond = .running) (hrail : rail ≠ 4 ∨ (s.chan c).straps[6].level ≠ 0#3)
    (hfresh : mapGet (s.chan c).clk.lastRec rail.val = none) (hkind : levelKind rail (offLimits rail) r kind) {x : Channel}
    (hx : (((s.chan c).noted rail.val).recorded 0x0B#6 false true (BitVec.ofNat 4 rail.val ++ kind ++ 0#8 ++ r : BitVec 32)).senses rail r = x) :
    (s.mach c).supplyOff rail r = if rail = 4 then ({ s.mach c with ch := x } : Mach).vtxFault
      else ({ s.mach c with ch := x } : Mach).enterOff (if rail = 5 then .thermal else .brownout) := by
  have hrecord := monitorRecord_senses (m := s.mach c) (kind := kind) (r := r) true hfresh hroom
  have hwatch := watches_senses (m := s.mach c) (r := r) hcond hrail
  unfold Mach.supplyOff
  rw [sense_senses, railLimits_eq, beyond_iff.mpr hkind]
  refine (if_neg (by rw [mach_ch, hwatch]; decide)).trans ?_
  rw [← hx, ← hrecord]
  rfl
/-- The drive fault leaves the channel as it was in all the claims ask (R484). -/
theorem vtxFault_fields (m : Mach) : m.vtxFault.c = m.c ∧ m.vtxFault.ch.life = m.ch.life ∧ m.vtxFault.ch.touch.vtxf = true := by
  unfold Mach.vtxFault
  split
  next h => exact ⟨rfl, rfl, h⟩
  next =>
    unfold Mach.touchRaise Mach.raiseIf
    dsimp only
    split <;> exact ⟨rfl, rfl, rfl⟩
theorem onMach_elsewhere (s : State) (c : Chan) (f : Mach → Mach) : sameElsewhere s (s.onMach c f) c := fun k hk => chan_onMach_ne s c k f hk
theorem supplyMonitorOff_off {rail : Fin 6} {r : BitVec 16} {kind : BitVec 4} (hroom : (s.chan c).led.staging.length < 16)
    (hcond : (s.chan c).life.cond = .running) (hrail : rail ≠ 4 ∨ (s.chan c).straps[6].level ≠ 0#3)
    (hfresh : mapGet (s.chan c).clk.lastRec rail.val = none) (hkind : levelKind rail (offLimits rail) r kind) (h4 : rail ≠ 4) :
    ∃ s', exec (.supplyMonitorOff c rail r) s = .next s' ∧ sameElsewhere s s' c ∧
      (s'.chan c).led = ((((s.chan c).noted rail.val).senses rail r).recorded 0x0B#6 false true
        (BitVec.ofNat 4 rail.val ++ kind ++ 0#8 ++ r : BitVec 32)).led ∧
      (s'.chan c).life.cond = .off ∧ (s'.chan c).life.offCause = some (if rail = 5 then .thermal else .brownout) := by
  refine ⟨_, rfl, onMach_elsewhere s c _, ?_⟩
  rw [chan_onMach, supplyOff_eq hroom hcond hrail hfresh hkind rfl, if_neg h4, recorded_senses]
  split <;> exact ⟨rfl, rfl, rfl⟩
theorem supplyMonitorOff_drive {r : BitVec 16} {kind : BitVec 4} (hroom : (s.chan c).led.staging.length < 16)
    (hcond : (s.chan c).life.cond = .running) (hrail : (4 : Fin 6) ≠ 4 ∨ (s.chan c).straps[6].level ≠ 0#3)
    (hfresh : mapGet (s.chan c).clk.lastRec 4 = none) (hkind : levelKind 4 (offLimits 4) r kind) :
    ∃ s', exec (.supplyMonitorOff c 4 r) s = .next s' ∧ sameElsewhere s s' c ∧
      (s'.chan c).life = { (s.chan c).life with rails := setBit (s.chan c).life.rails 4 (decide (r ≠ 0#16)) } ∧ (s'.chan c).touch.vtxf = true := by
  refine ⟨_, rfl, onMach_elsewhere s c _, ?_⟩
  rw [chan_onMach, supplyOff_eq hroom hcond hrail hfresh hkind rfl, if_pos rfl]
  obtain ⟨-, hlife, htouch⟩ := vtxFault_fields { s.mach c with
    ch := (((s.chan c).noted 4).recorded 0x0B#6 false true (BitVec.ofNat 4 4 ++ kind ++ 0#8 ++ r : BitVec 32)).senses 4 r }
  exact ⟨hlife, htouch⟩
theorem vtxDriveRestored_restores (hfault : (s.chan c).touch.vtxf = true) (hwarn : bit (s.chan c).clk.warn 4 = false) :
    turnsTo (.vtxDriveRestored c) s c
      (Channel.raisedIf { s.chan c with touch := { (s.chan c).touch with vtxf := false } } (bit (winGet (s.chan c) 0x10000) 12) 148 (fixN 1)) := by
  have hgo : ((s.mach c).ch.touch.vtxf && !bit (s.mach c).ch.clk.warn 4) = true := by simp [hfault, hwarn]
  refine congrArg _ (onMach_channel s c _ _ ((if_pos hgo).trans ?_))
  exact raiseIf_raisedIf _ _ _ _

/-! ### Readings -/

/-- The rail bits that the readings of the five rails show. -/
def railBits (x : BitVec 5) (b0 b1 b2 b3 b4 : Bool) : BitVec 5 := setBit (setBit (setBit (setBit (setBit x 0 b0) 1 b1) 2 b2) 3 b3) 4 b4
theorem bit_railBits : ∀ (x : BitVec 5) (b0 b1 b2 b3 b4 : Bool),
    bit (railBits x b0 b1 b2 b3 b4) 0 = b0 ∧ bit (railBits x b0 b1 b2 b3 b4) 1 = b1 ∧ bit (railBits x b0 b1 b2 b3 b4) 3 = b3 ∧
      bit (railBits x b0 b1 b2 b3 b4) 4 = b4 := by decide +kernel
/-- The rail bits that five readings show. -/
abbrev railsSeen (x : BitVec 5) (v0 v1 v2 v3 v4 : BitVec 16) : BitVec 5 :=
  railBits x (decide (v0 ≠ 0#16)) (decide (v1 ≠ 0#16)) (decide (1200 ≤ v2.toNat)) (decide (v3 ≠ 0#16)) (decide (v4 ≠ 0#16))
/-- What the readings of the five rails say of the supplies. -/
theorem senseAll_eq (m : Mach) (v0 v1 v2 v3 v4 v5 : BitVec 16) :
    m.senseAll #v[v0, v1, v2, v3, v4, v5] [0, 1, 2, 3, 4] = { m with ch := { m.ch with
      life := { m.ch.life with rails := railsSeen m.ch.life.rails v0 v1 v2 v3 v4 }
      led := { m.ch.led with stopped := m.ch.led.stopped || decide (v2.toNat < 1680) } } } := by
  simp only [Mach.senseAll, sense_senses, Channel.senses, Fin.reduceEq, if_false, if_true, decide_false, decide_true, Bool.false_and, Bool.true_and,
    Bool.or_false]
  rfl
/-- The mask of six warnings. -/
theorem bit_warnMask : ∀ (b0 b1 b2 b3 b4 b5 : Bool) (i : Fin 6),
    let b (x : Bool) (r : Nat) : BitVec 6 := if x then 1#6 <<< r else 0#6
    bit (b b0 0 ||| b b1 1 ||| b b2 2 ||| b b3 3 ||| b b4 4 ||| b b5 5) i.val = [b0, b1, b2, b3, b4, b5][i.val] := by decide +kernel
theorem bit_beyondMask (mon : Vector (BitVec 16) 6) (rail : Fin 6) :
    bit (beyondMask mon) rail.val = (beyond rail (railLimits rail).1 mon[rail]).isSome := by
  refine (bit_warnMask _ _ _ _ _ _ rail).trans ?_
  fin_cases rail <;> rfl
theorem bit_and {w : Nat} (a b : BitVec w) (i : Nat) : bit (a &&& b) i = (bit a i && bit b i) := BitVec.getLsbD_and
theorem monitorReadingUpdate_reads (hcond : (s.chan c).life.cond = .running) (v0 v1 v2 v3 v4 v5 : BitVec 16) :
    ∃ s', exec (.monitorReadingUpdate c v0 v1 v2 v3 v4 v5) s = .next s' ∧ sameElsewhere s s' c ∧
      (s'.chan c).clk.mon = #v[v0, v1, v2, v3, v4, v5] ∧ (s'.chan c).clk.sticky = (s.chan c).clk.sticky ∧ (s'.chan c).life.cond = .running ∧
      (s'.chan c).life = { (s.chan c).life with rails := (s'.chan c).life.rails } ∧
      (∀ rail : Fin 5, rail ≠ 2 → bit (s'.chan c).life.rails rail.val = decide ((s'.chan c).clk.mon[rail.val] ≠ 0#16)) ∧
      (v2.toNat < 1680 → (s'.chan c).led.stopped = true) ∧
      (1680 ≤ v2.toNat → (s.chan c).life.offCause ≠ some .request → (s'.chan c).led.stopped = false) ∧ (s'.chan c).thr = (s.chan c).thr ∧
      (s'.chan c).proc = (s.chan c).proc ∧
      ∀ rail : Fin 6, bit (s'.chan c).clk.warn rail.val = true ↔
        bit (s.chan c).clk.warn rail.val = true ∧ ∃ kind, levelKind rail (warnLimits rail) (s'.chan c).clk.mon[rail] kind := by
  refine ⟨_, rfl, onMach_elsewhere s c _, ?_⟩
  rw [chan_onMach]
  unfold Mach.readings
  dsimp only
  rw [senseAll_eq]
  have hnotoff : ¬ (s.mach c).ch.life.cond = .off := by
    rw [mach_ch, hcond]
    decide
  obtain ⟨h0, h1, h3, h4⟩ := bit_railBits (s.chan c).life.rails (decide (v0 ≠ 0#16)) (decide (v1 ≠ 0#16)) (decide (1200 ≤ v2.toNat))
    (decide (v3 ≠ 0#16)) (decide (v4 ≠ 0#16))
  refine ⟨rfl, rfl, hcond, rfl, fun rail hrail => ?_, fun hlow => ?_, fun hhigh hoff => ?_, rfl, rfl, fun rail => ?_⟩
  · fin_cases rail
    · exact h0
    · exact h1
    · exact absurd rfl hrail
    · exact h3
    · exact h4
  · simp [hlow]
  · simp [hoff, hhigh]
  · dsimp only
    rw [if_neg hnotoff, bit_and, bit_beyondMask, railLimits_eq, Bool.and_eq_true, Option.isSome_iff_exists]
    simp only [beyond_iff]
    rfl

/-! ### Clocks and the watchdog -/

theorem referenceClockFault_halts {count : BitVec 16} (hroom : (s.chan c).led.staging.length < 16) (hcond : (s.chan c).life.cond = .running)
    (hfresh : mapGet (s.chan c).clk.lastRec 6 = none) (hcount : count < 650#16 ∨ 880#16 < count ∨ (s.chan c).life.power ≠ .sleep) :
    turnsTo (.referenceClockFault c count) s c (s.haltedAs c (((s.chan c).noted 6).recorded 0x0B#6 false false
      (6#4 ++ (if 880#16 < count then 1#4 else 0#4) ++ 0#8 ++ count : BitVec 32))) := by
  have hgo : (((s.mach c).ch.life.cond.live || decide ((s.mach c).ch.life.cond = .held)) &&
      (decide (count < 650#16) || decide (880#16 < count) || decide ((s.mach c).ch.life.power ≠ .sleep))) = true := by
    have hlive : (s.mach c).ch.life.cond.live = true := by
      rw [mach_ch, hcond]
      rfl
    rw [hlive, Bool.true_or, Bool.true_and]
    rcases hcount with h | h | h
    · simp [h]
    · simp [h]
    · have hpower : decide ((s.mach c).ch.life.power ≠ .sleep) = true := decide_eq_true h
      rw [hpower, Bool.or_true]
  refine congrArg _ (onMach_channel s c _ _ ((if_pos hgo).trans ?_))
  rw [monitorRecord_fresh (m := s.mach c) (rail := 6#4) false hfresh hroom]
  exact halt_eq s c _ s.free
theorem slowClockTrim_trims {trim : BitVec 10} {tj : BitVec 16} (hcond : (s.chan c).life.cond = .running) (hpower : (s.chan c).life.power ≠ .sleep) :
    turnsTo (.slowClockTrim c trim tj) s c { s.chan c with clk := { (s.chan c).clk with trim := trim, trimValid := true, trimTj := tj } } := by
  have hgo : ((s.mach c).ch.life.cond.live && decide ((s.mach c).ch.life.power ≠ .sleep)) = true := by simp [hcond, Cond.live, hpower]
  exact congrArg _ (onMach_channel s c _ _ (if_pos hgo))
theorem watchdogEarlyWarning_warns (hroom : (s.chan c).led.staging.length < 16) (hcond : (s.chan c).life.cond = .running)
    (hrun : (s.chan c).clk.wdRun = true) (hfirst : (s.chan c).clk.wdWarned = false)
    (hcount : 3 * (3277 * 2 ^ (s.chan c).straps[5].level.toNat) / 4 ≤ (s.chan c).clk.wdCount) :
    turnsTo (.watchdogEarlyWarning c) s c ((Channel.raised { s.chan c with clk := { (s.chan c).clk with wdWarned := true } } 40 fix0).recorded
      0x0A#6 false false (s.mach c).notWaiting) := by
  have hgo : (decide ((s.mach c).ch.life.cond = .running) && (s.mach c).ch.clk.wdRun && !(s.mach c).ch.clk.wdWarned &&
      decide ((s.mach c).ch.wdWarn ≤ (s.mach c).ch.clk.wdCount)) = true := by
    have hcount' : (s.chan c).wdWarn ≤ (s.chan c).clk.wdCount := hcount
    simp [hcond, hrun, hfirst, hcount']
  refine congrArg _ (onMach_channel s c _ _ ((if_pos hgo).trans ?_))
  have hraise := raise_raised { s.mach c with ch := { s.chan c with clk := { (s.chan c).clk with wdWarned := true } } } 40 fix0
  refine (congrArg (fun m : Mach => m.report 0x0A#6 false false (s.mach c).notWaiting) hraise).trans ?_
  exact report_recorded (m := { s.mach c with ch := Channel.raised { s.chan c with clk := { (s.chan c).clk with wdWarned := true } } 40 fix0 })
    false false hroom (by decide)

/-- Settles O46: each monitor through what it notes, records and raises, and every halt through `haltedAs`. -/
theorem monitorsAndChecks : Obligations.MonitorsAndChecks := by
  intro s c
  dsimp only
  intro hroom hcond
  refine ⟨fun rail r kind hrail hfresh => ⟨supplyWarning_warns hroom hcond hrail hfresh, fun hkind =>
      ⟨supplyMonitorOff_off hroom hcond hrail hfresh hkind, ?_⟩⟩, vtxDriveRestored_restores, monitorReadingUpdate_reads hcond,
    fun count => referenceClockFault_halts hroom hcond, fun trim tj => slowClockTrim_trims hcond, watchdogEarlyWarning_warns hroom hcond,
    fun j hpower hgate => ⟨boundaryDivergence_halts ⟨hcond, hpower⟩ hgate, registerSignature_same ⟨hcond, hpower⟩ hgate,
      registerSignature_differs ⟨hcond, hpower⟩ hgate, checkerFault_halts false ⟨hcond, hpower⟩ hgate,
      checkerFault_halts true ⟨hcond, hpower⟩ hgate⟩,
    fun unit hlo hhi => ⟨unitCompareMismatch_halts false hcond hlo hhi, unitCompareMismatch_halts true hcond hlo hhi⟩⟩
  rintro rfl
  exact supplyMonitorOff_drive hroom hcond hrail hfresh hkind

end

end Sys2Proof.Machine
end

section
/-! Which pending signal a thread takes (11): the vectors pending for it and the first of them by PRIO and number (R264, R265). -/
namespace Sys2Proof.Machine

/-- Vector `v` is selected over vector `w`, or is it: the higher PRIO, among equal PRIO the lower number (R265). -/
def Proc.leads (p : Proc) (v w : Nat) : Prop :=
  w = v ∨ attrPrio (p.attrOf w) < attrPrio (p.attrOf v) ∨ (attrPrio (p.attrOf w) = attrPrio (p.attrOf v) ∧ v < w)

section
variable {p : Proc} {u v w : Nat}

theorem leads_refl : p.leads v v := .inl rfl
theorem leads_trans (huv : p.leads u v) (hvw : p.leads v w) : p.leads u w := by
  rcases huv with rfl | huv
  · exact hvw
  · rcases hvw with rfl | hvw
    · exact .inr huv
    · exact .inr (by omega)
theorem leads_antisymm (hvw : p.leads v w) (hwv : p.leads w v) : v = w := by
  rcases hvw with rfl | hvw
  · rfl
  · rcases hwv with rfl | hwv
    · rfl
    · omega
/-- The better of two vectors is one of them and leads both. -/
theorem better_leads (p : Proc) (v w : Nat) : (p.better v w = v ∨ p.better v w = w) ∧ p.leads (p.better v w) v ∧ p.leads (p.better v w) w := by
  unfold Proc.better Proc.leads
  split
  · omega
  · split
    · simp_all
    · simp_all
      omega

theorem best_eq_none : {l : List Nat} → (p.best l = none ↔ l = [])
  | [] => by simp [Proc.best]
  | x :: r => by
    unfold Proc.best
    split <;> simp

/-- The first selected of a list is a member that leads every member. -/
theorem best_leads : {l : List Nat} → {v : Nat} → p.best l = some v → v ∈ l ∧ ∀ w ∈ l, p.leads v w
  | [], _, h => nomatch h
  | x :: r, v, h => by
    cases hr : p.best r with
    | none =>
      obtain rfl := best_eq_none.mp hr
      obtain rfl := Option.some.inj h
      exact ⟨List.mem_singleton_self _, fun w hw => List.mem_singleton.mp hw ▸ leads_refl⟩
    | some y =>
      obtain ⟨hy, hlead⟩ := best_leads hr
      obtain ⟨hone, hx, hy'⟩ := better_leads p x y
      obtain rfl : p.better x y = v := by simpa [Proc.best, hr] using h
      refine ⟨?_, List.forall_mem_cons.mpr ⟨hx, fun w hw => leads_trans hy' (hlead w hw)⟩⟩
      rcases hone with h | h
      · exact List.mem_cons.mpr (.inl h)
      · exact List.mem_cons_of_mem x (h.symm ▸ hy)

theorem best_eq_some {l : List Nat} : p.best l = some v ↔ v ∈ l ∧ ∀ w ∈ l, p.leads v w := by
  refine ⟨best_leads, fun ⟨hv, hlead⟩ => ?_⟩
  cases h : p.best l with
  | none =>
    rw [best_eq_none.mp h] at hv
    exact absurd hv List.not_mem_nil
  | some x =>
    obtain ⟨hx, hlead'⟩ := best_leads h
    exact congrArg some (leads_antisymm (hlead' v hv) (hlead x hx))

theorem mapGet_isSome {α : Type} : {m : List (Nat × α)} → {k : Nat} → ((mapGet m k).isSome = true ↔ k ∈ m.map (fun e => e.1))
  | [], k => by simp
  | (j, x) :: r, k => by
    by_cases h : j = k
    · simp [mapGet, h]
    · have hr : (mapGet r k).isSome = true ↔ k ∈ r.map (fun e => e.1) := mapGet_isSome
      simp [mapGet, h, hr, Ne.symm h]

/-- A running thread takes its own signals, and thread 0 vector 39. -/
theorem takes_running {m : Mach} {t : Fin 8} (h : (m.thr t).status = .running) :
    m.takes t v = true ↔ (if v = 39 then t = 0 else attrThread (m.ch.proc.attrOf v) = t.val) := by
  unfold Mach.takes
  by_cases hv : v = 39
  · simp [hv]
  · simp [hv, h]

end

/-- Settles O38: the signal is the first selected of the pending vectors the thread takes. -/
theorem signalSelection : Obligations.SignalSelection := by
  intro s c t
  dsimp only
  intro hrun hhold hshadow hroot
  have hsignal : (s.mach c).signalFor t = (s.mach c).ch.proc.best
      (((s.mach c).ch.proc.pend.map (fun e => e.1)).filter (fun v => (s.mach c).takes t v)) := by
    have hhold' : ((s.mach c).thr t).hold = none := hhold
    have hshadow' : ((s.mach c).thr t).inShadow = false := hshadow
    have hroot' : ((s.mach c).thr t).rootPend = false := hroot
    simp [Mach.signalFor, hhold', hshadow', hroot']
  have hmine : ∀ v, v ∈ ((s.mach c).ch.proc.pend.map (fun e => e.1)).filter (fun v => (s.mach c).takes t v) ↔
      (mapGet (s.mach c).ch.proc.pend v).isSome = true ∧ (if v = 39 then t = 0 else attrThread ((s.mach c).ch.proc.attrOf v) = t.val) := fun v => by
    rw [List.mem_filter, ← mapGet_isSome, takes_running (m := s.mach c) hrun]
  rw [hsignal]
  refine ⟨?_, fun v => ?_⟩
  · rw [best_eq_none, List.eq_nil_iff_forall_not_mem]
    exact forall_congr' fun v => not_congr (hmine v)
  · rw [best_eq_some, hmine]
    exact and_congr_right fun _ => forall_congr' fun w => imp_congr_left (hmine w)

end Sys2Proof.Machine
end

section
/-! Instructions that leave their channel changed: look-aside buffers, caches, the range engine and the units (R92, R93, R123, R308-R313, R326). -/
namespace Sys2Proof.Machine

section
variable {s : State} {c : Chan} {t : Fin 8} {i : Ins} {w : IM Flow} {ins : Instr}

/-- The slice in which the work began, its channel as ch but for the microsequencers. -/
def workLeft (s : State) (c : Chan) (t : Fin 8) (i : Ins) (ch : Channel) : Mach :=
  { s.begun c t i with ch := { ch with seq := (s.begun c t i).ch.seq } }
/-- An instruction whose work leaves channel ch and its thread as th completes so. -/
theorem leaves_of_run {ch : Channel} {th : Thread} {f : Flow} {r : IS} (hex : exec ins s = .next (s.issue c t i w)) (h : s.ready c t = true)
    (hs : i.sup = true → (s.thread c t).sup = true) (hf : f ≠ .stay) (hf' : f ≠ .resume) (hseq : ch.seq = (s.chan c).seq)
    (hw : runI w (workOn s c t i) = (.ok f, r)) (hr : perfOnly ((workLeft s c t i ch).setThr t th) r.m) :
    leaves ins s c t ch (th.complete f) := by
  have hp := perfOnly_trans hr (retired_perfOnly r.m t i f)
  have hthr : (r.m.retired t i f).thr t = th := by rw [perfOnly_thr hp t, thr_setThr]
  have hfin : r.m.finishIns t i (.ok f) = (r.m.retired t i f).setThr t (((r.m.retired t i f).thr t).complete f) := by
    cases f <;> first | rfl | exact absurd rfl hf | exact absurd rfl hf'
  refine ⟨_, hex, ?_⟩
  obtain ⟨p, n, hm⟩ := hp
  rw [issue_completed h hs hw, hfin, hthr, hm]
  refine ⟨p, n, ((s.mach c).routine t i (Config.microStart i.op % 7920)).seq, ?_⟩
  unfold State.chan at hseq
  simp [State.setChan, State.putMach, State.mach, State.chan, State.ran, State.begun, workLeft, Mach.setThr, hseq]
/-- The same where the work leaves every thread alone. -/
theorem leaves_of_effect {ch : Channel} {f : Flow} {r : IS} (hex : exec ins s = .next (s.issue c t i w)) (h : s.ready c t = true)
    (hs : i.sup = true → (s.thread c t).sup = true) (hf : f ≠ .stay) (hf' : f ≠ .resume) (hseq : ch.seq = (s.chan c).seq)
    (hthr : ch.thr = (s.chan c).thr) (hw : runI w (workOn s c t i) = (.ok f, r)) (hr : perfOnly (workLeft s c t i ch) r.m) :
    leaves ins s c t ch ((s.thread c t).complete f) := by
  have hth : (workLeft s c t i ch).thr t = s.thread c t := congrArg (fun v : Vector Thread 8 => v[t]) hthr
  refine leaves_of_run hex h hs hf hf' hseq hw ?_
  rw [← hth, setThr_thr]
  exact hr

end

/-! ### Look-aside buffers -/

/-- TLBINV on both cores at once. -/
theorem tlbInvalidate_map (m : Mach) (p : TlbEntry → Bool) : m.tlbInvalidate p = { m with ch := { m.ch.mapCores (fun co =>
    { co with tlb := co.tlb.filter (fun e => !p e.2), utlb := co.utlb.filter (fun e => !p e.2) }) with sw := { m.ch.sw with xlate := none } } } :=
  congrArg (fun n : Mach => { n with ch.sw.xlate := none }) (setCores_map m (fun co => co.tlbRemove p))

section
variable {s : State} {c : Chan} {t : Fin 8} {d a : Reg} {imm : BitVec 6}

/-- TLBINV of a kind its operands permit. -/
theorem tlbinv_leaves {sel : TlbEntry → Bool} (h : s.ready c t = true) (hsup : (s.thread c t).sup = true)
    (hkind : ¬ (3#6 < imm || ((imm = 0#6 || imm = 3#6) && a ≠ 0)) = true)
    (hop : (imm = 1#6 || imm = 2#6) = true → (s.thread c t).has a fixTag = true ∧ bits ((s.thread c t).pay a) 14 2 = 0)
    (hsel : tlbSelects imm ((s.thread c t).pay a) = sel) :
    leaves (.tlbinv c t a imm) s c t
      { (s.chan c).mapCores (fun co => { co with tlb := co.tlb.filter (fun e => !sel e.2), utlb := co.utlb.filter (fun e => !sel e.2) }) with
        sw := { (s.chan c).sw with xlate := none } } ((s.thread c t).complete .next) := by
  let i := (iAI 0xB8 a imm).asSup
  have hm := tlbInvalidate_map (s.begun c t i) sel
  refine leaves_of_effect (i := i) rfl h (fun _ => hsup) nofun nofun rfl rfl
    (r := { workOn s c t i with m := (s.begun c t i).tlbInvalidate sel }) ?_ ?_
  · rw [runI_check_passes hkind]
    split
    · next hone =>
      obtain ⟨ha, hbits⟩ := hop hone
      have hbits' : ¬ bits (cellPay ((s.thread c t).reg a)) 14 2 ≠ 0 := not_not_intro hbits
      rw [runI_operand_bind ha, runI_check_passes hbits', runI_bind_ok (runI_commit_nil ..), runI_bind_ok (runI_getT _), thr_begun]
      exact congrArg (fun p => runI (do modM fun m => m.tlbInvalidate p; pure Flow.next) (workOn s c t i)) hsel
    · rw [runI_bind_ok (runI_commit_nil ..), runI_bind_ok (runI_getT _), thr_begun]
      exact congrArg (fun p => runI (do modM fun m => m.tlbInvalidate p; pure Flow.next) (workOn s c t i)) hsel
  · dsimp only
    rw [hm]
    exact perfOnly_refl _
/-- TLBPROBE with no anchor table. -/
theorem tlbprobe_misses (h : s.ready c t = true) (hsup : (s.thread c t).sup = true) (ha : (s.thread c t).has a fixTag = true)
    (hbits : bits ((s.thread c t).pay a) 14 2 = 0) (hhat : (s.chan c).proc.hatsize = 0#24) :
    delivers (.tlbprobe c t d a) s c t d (fixI (-1)) := by
  have hbits' : ¬ bits (cellPay ((s.thread c t).reg a)) 14 2 ≠ 0 := not_not_intro hbits
  have hwalk (vpn : BitVec 14) (asid : BitVec 8) : (s.begun c t (iDA 0xB9 d a).asSup).walk (coreAgent (coreOf t)) vpn asid
      = (.miss, s.begun c t (iDA 0xB9 d a).asSup) := if_pos hhat
  refine delivers_of_run (i := (iDA 0xB9 d a).asSup) rfl h (fun _ => hsup) ?_
  rw [runI_operand_bind ha, runI_check_passes hbits', runI_bind_ok (runI_useM _ _), hwalk]
/-- TLBPROBE with a nonzero bit between page and ASID. -/
theorem tlbprobe_faults (h : s.ready c t = true) (hsup : (s.thread c t).sup = true) (ha : (s.thread c t).has a fixTag = true)
    (hbits : bits ((s.thread c t).pay a) 14 2 ≠ 0) : faults (.tlbprobe c t d a) s c t 4#10 (fixN 0) (cellA 0xB9 d a 0 false) := by
  refine faults_of_run (i := (iDA 0xB9 d a).asSup) rfl h (fun _ => hsup) rfl ?_
  have hbits' : bits (cellPay ((s.thread c t).reg a)) 14 2 ≠ 0 := hbits
  rw [runI_operand_bind ha]
  dsimp only
  rw [runI_check_fails hbits']
  rfl
theorem tlbinv_faults (h : s.ready c t = true) (hsup : (s.thread c t).sup = true) (himm : 3#6 < imm) :
    faults (.tlbinv c t a imm) s c t 1#10 fix0 (cellI 0xB8 0 a imm) := by
  refine faults_of_run (i := (iAI 0xB8 a imm).asSup) rfl h (fun _ => hsup) rfl ?_
  rw [runI_check_fails (by simp [himm])]
  rfl

/-- Settles O33: each kind of TLBINV by its selection, TLBPROBE by a walk that finds no anchor table. -/
theorem lookasideInstructions : Obligations.LookasideInstructions := by
  intro s c t d a imm h hsup th ch gone asid
  refine ⟨tlbinv_leaves (sel := fun _ => true) h hsup (by decide) nofun rfl, tlbinv_leaves (sel := fun e => e.g) h hsup (by decide) nofun rfl,
    fun ha hbits => ⟨tlbinv_leaves (sel := fun e => !e.g && decide (e.asid = asid)) h hsup (by simp) (fun _ => ⟨ha, hbits⟩) rfl,
      tlbinv_leaves (sel := fun e => decide (e.vpn = (th.pay a).extractLsb' 0 14) && (decide (e.asid = asid) || e.g)) h hsup (by simp)
        (fun _ => ⟨ha, hbits⟩) rfl,
      tlbprobe_misses h hsup ha hbits⟩, tlbprobe_faults h hsup, tlbinv_faults h hsup⟩

end

end Sys2Proof.Machine
end

section
/-! Cache control and the range engine (R313, R326, R333). -/
namespace Sys2Proof.Machine

/-! ### CACHEON, CACHEOFF and CINVALL -/

section
variable {s : State} {c : Chan} {t : Fin 8} {imm : BitVec 6}

/-- The caches of a core that a selection names, cleared. -/
def Core.clearing (co : Core) (i d : Bool) : Core :=
  { co with icache := if i then co.icache.clear else co.icache, dcache := if d then co.dcache.clear else co.dcache }
theorem clearCaches_map (m : Mach) (i d : Bool) : m.clearCaches i d = { m with ch := m.ch.mapCores (fun co => co.clearing i d) } :=
  setCores_map m (fun co => co.clearing i d)

theorem cacheSel_of (himm : imm = 1#6 ∨ imm = 2#6 ∨ imm = 3#6) : cacheSel imm = true := by
  rcases himm with rfl | rfl | rfl <;> rfl
theorem cacheSel_none (himm : imm = 0#6 ∨ 3#6 < imm) : cacheSel imm = false := by
  revert imm
  decide
theorem cacheon_enables (h : s.ready c t = true) (hsup : (s.thread c t).sup = true) (himm : cacheSel imm = true)
    (hinv : (s.chan c).proc.invd = true) :
    leaves (.cacheon c t imm) s c t { s.chan c with proc := { (s.chan c).proc with
      icen := (s.chan c).proc.icen || bit imm 0, dcen := (s.chan c).proc.dcen || bit imm 1 } } ((s.thread c t).complete .next) := by
  refine leaves_of_effect (i := (iI 0xC0 imm).asSup) rfl h (fun _ => hsup) nofun nofun rfl rfl
    (r := { workOn s c t (iI 0xC0 imm).asSup with m := workLeft s c t (iI 0xC0 imm).asSup { s.chan c with proc := { (s.chan c).proc with
      icen := (s.chan c).proc.icen || bit imm 0, dcen := (s.chan c).proc.dcen || bit imm 1 } } }) ?_ (perfOnly_refl _)
  rw [runI_check_passes (by simp [himm]), runI_bind_ok (runI_getM _), runI_check_passes (by simp [hinv]), runI_bind_ok (runI_commit_nil ..)]
  rfl
theorem cacheon_faults (h : s.ready c t = true) (hsup : (s.thread c t).sup = true) (himm : cacheSel imm = true)
    (hinv : (s.chan c).proc.invd = false) : faults (.cacheon c t imm) s c t 15#10 fix0 (cellI 0xC0 0 0 imm) := by
  refine faults_of_run (i := (iI 0xC0 imm).asSup) rfl h (fun _ => hsup) rfl ?_
  rw [runI_check_passes (by simp [himm]), runI_bind_ok (runI_getM _), runI_check_fails (by simp [hinv])]
  rfl
theorem cacheoff_disables (h : s.ready c t = true) (hsup : (s.thread c t).sup = true) (himm : cacheSel imm = true)
    (h0 : ((s.chan c).core[0]).wb = []) (h1 : ((s.chan c).core[1]).wb = []) :
    leaves (.cacheoff c t imm) s c t { (s.chan c).mapCores (fun co => co.clearing (bit imm 0) (bit imm 1)) with
      proc := { (s.chan c).proc with icen := (s.chan c).proc.icen && !bit imm 0, dcen := (s.chan c).proc.dcen && !bit imm 1 } }
      ((s.thread c t).complete .next) := by
  let i := (iI 0xC1 imm).asSup
  have hdrain : (if bit imm 1 then (s.begun c t i).drainAll else s.begun c t i) = s.begun c t i := by
    split
    · exact drainAll_empty h0 h1
    · rfl
  have hclear := clearCaches_map (s.begun c t i) (bit imm 0) (bit imm 1)
  refine leaves_of_effect (i := i) rfl h (fun _ => hsup) nofun nofun rfl rfl
    (r := { workOn s c t i with m := workLeft s c t i { (s.chan c).mapCores (fun co => co.clearing (bit imm 0) (bit imm 1)) with
      proc := { (s.chan c).proc with icen := (s.chan c).proc.icen && !bit imm 0, dcen := (s.chan c).proc.dcen && !bit imm 1 } } })
    ?_ (perfOnly_refl _)
  rw [runI_check_passes (by simp [himm]), runI_bind_ok (runI_commit_nil ..), runI_bind_ok (runI_modM _ _)]
  dsimp only
  rw [hdrain, hclear]
  rfl
theorem cinvall_clears (h : s.ready c t = true) (hsup : (s.thread c t).sup = true) :
    leaves (.cinvall c t) s c t { (s.chan c).mapCores (fun co => co.clearing true true) with
      thr := (s.chan c).thr.map (fun x => { x with stride := [] }), proc := { (s.chan c).proc with invd := true } }
      ({ s.thread c t with stride := [] }.complete .next) := by
  let i := (iN 0xC2).asSup
  let ch : Channel := { (s.chan c).mapCores (fun co => co.clearing true true) with
      thr := (s.chan c).thr.map (fun x => { x with stride := [] }), proc := { (s.chan c).proc with invd := true } }
  have hclear := clearCaches_map (s.begun c t i) true true
  have hth : (workLeft s c t i ch).thr t = { s.thread c t with stride := [] } := by simp [Mach.thr, workLeft, ch, State.thread]
  refine leaves_of_run (i := i) rfl h (fun _ => hsup) nofun nofun rfl (r := { workOn s c t i with m := workLeft s c t i ch }) ?_ ?_
  · rw [runI_bind_ok (runI_commit_nil ..), runI_bind_ok (runI_modM _ _)]
    dsimp only
    rw [hclear]
    rfl
  · rw [← hth, setThr_thr]
    exact perfOnly_refl _
theorem cacheon_rejects (h : s.ready c t = true) (hsup : (s.thread c t).sup = true) (himm : cacheSel imm = false) :
    faults (.cacheon c t imm) s c t 4#10 (fixN 4) (cellI 0xC0 0 0 imm) := by
  refine faults_of_run (i := (iI 0xC0 imm).asSup) rfl h (fun _ => hsup) rfl ?_
  rw [runI_check_fails (by simp [himm])]
  rfl
theorem cacheoff_rejects (h : s.ready c t = true) (hsup : (s.thread c t).sup = true) (himm : cacheSel imm = false) :
    faults (.cacheoff c t imm) s c t 4#10 (fixN 4) (cellI 0xC1 0 0 imm) := by
  refine faults_of_run (i := (iI 0xC1 imm).asSup) rfl h (fun _ => hsup) rfl ?_
  rw [runI_check_fails (by simp [himm])]
  rfl

theorem cacheInstructions : cacheInstructionsClaim := by
  intro s c t imm h hsup
  exact ⟨fun himm => ⟨cacheon_enables h hsup (cacheSel_of himm), cacheon_faults h hsup (cacheSel_of himm),
    cacheoff_disables h hsup (cacheSel_of himm)⟩, cinvall_clears h hsup,
    fun himm => ⟨cacheon_rejects h hsup (cacheSel_none himm), cacheoff_rejects h hsup (cacheSel_none himm)⟩⟩

end

/-! ### The range engine -/

/-- A window register reads as written, and every other as before. -/
theorem winGet_winPut (ch : Channel) (hwf : mapWf ch.win = true) (o : Nat) (v : Payload) (k : Nat) :
    winGet (winPut ch o v) k = if k = o then v else winGet ch k := by
  unfold winGet winPut
  dsimp only
  by_cases hv : v = winReset o
  · rw [if_pos hv]
    by_cases hk : k = o
    · rw [if_pos hk, hk, mapGet_mapDel _ _ hwf, hv]
      rfl
    · rw [if_neg hk, mapGet_mapDel_ne _ _ _ hk]
  · rw [if_neg hv]
    by_cases hk : k = o
    · rw [if_pos hk, hk, mapGet_mapPut]
      rfl
    · rw [if_neg hk, mapGet_mapPut_ne _ _ _ _ hk]
theorem mapWf_winPut {ch : Channel} (hwf : mapWf ch.win = true) (o : Nat) (v : Payload) : mapWf (winPut ch o v).win = true := by
  unfold winPut
  dsimp only
  split
  · exact mapWf_mapDel _ _ hwf
  · exact mapWf_mapPut _ _ _ hwf

section
variable {s : State} {c : Chan} {t : Fin 8} {d a b : Reg}

/-- The engine's start: range and registers CRADDR and CRCOUNT. -/
def Channel.startsRange (ch : Channel) (x y : Payload) : Channel :=
  winPut (winPut { ch with proc.range := some ((fixInt x).toNat, (fixInt y).toNat) } 0x1401 x) 0x1402 y
/-- CRANGE of populated pages passes its checks and COMMIT. -/
theorem runI_crange (ha : (s.thread c t).has a fixTag = true) (hb : (s.thread c t).has b fixTag = true) (hlo : 0 ≤ (s.thread c t).int a)
    (hn : 1 ≤ (s.thread c t).int b) (hhi : (s.thread c t).int a + (s.thread c t).int b ≤ ((s.chan c).memPages : Int)) :
    ∃ w : IM Flow, exec (.crange c t d a b) s = .next (s.issue c t (iDAB 0xC3 d a b false).asSup w) ∧
      runI w (workOn s c t (iDAB 0xC3 d a b false).asSup) = if (s.chan c).proc.range.isSome then
          runI (do setD d (fixN 1); return .next) (workOn s c t (iDAB 0xC3 d a b false).asSup)
        else runI (do setD d fix0; return .next) { workOn s c t (iDAB 0xC3 d a b false).asSup with
          m := workLeft s c t (iDAB 0xC3 d a b false).asSup ((s.chan c).startsRange ((s.thread c t).pay a) ((s.thread c t).pay b)) } := by
  have hlo' : ¬ (fixInt (cellPay ((s.thread c t).reg a)) < 0 || fixInt (cellPay ((s.thread c t).reg a)) ≥ ((s.chan c).memPages : Int)) = true := by
    unfold Thread.int at hlo hn hhi
    simp
    omega
  have hhi' : ¬ (fixInt (cellPay ((s.thread c t).reg b)) < 1 ||
      fixInt (cellPay ((s.thread c t).reg a)) + fixInt (cellPay ((s.thread c t).reg b)) > ((s.chan c).memPages : Int)) = true := by
    unfold Thread.int at hlo hn hhi
    simp
    omega
  have hpages : (s.begun c t (iDAB 0xC3 d a b false).asSup).ch.memPages = (s.chan c).memPages := rfl
  refine ⟨_, rfl, ?_⟩
  rw [runI_operand_bind ha, runI_operand_bind hb, runI_bind_ok (runI_getM _)]
  dsimp only
  rw [hpages, runI_check_passes hlo', runI_check_passes hhi', runI_bind_ok (runI_commit_nil ..), runI_bind_ok (runI_getM _), runI_ite]
  rfl
theorem crange_busy (h : s.ready c t = true) (hsup : (s.thread c t).sup = true)
    (ha : (s.thread c t).has a fixTag = true) (hb : (s.thread c t).has b fixTag = true) (hlo : 0 ≤ (s.thread c t).int a)
    (hn : 1 ≤ (s.thread c t).int b) (hhi : (s.thread c t).int a + (s.thread c t).int b ≤ ((s.chan c).memPages : Int))
    (hbusy : (s.chan c).proc.range.isSome = true) : delivers (.crange c t d a b) s c t d (fixN 1) := by
  obtain ⟨w, hex, hw⟩ := runI_crange (d := d) ha hb hlo hn hhi
  refine delivers_of_run hex h (fun _ => hsup) ?_
  rw [hw, if_pos hbusy]
  rfl
theorem crange_starts (h : s.ready c t = true) (hsup : (s.thread c t).sup = true)
    (ha : (s.thread c t).has a fixTag = true) (hb : (s.thread c t).has b fixTag = true) (hlo : 0 ≤ (s.thread c t).int a)
    (hn : 1 ≤ (s.thread c t).int b) (hhi : (s.thread c t).int a + (s.thread c t).int b ≤ ((s.chan c).memPages : Int))
    (hfree : (s.chan c).proc.range = none) :
    leaves (.crange c t d a b) s c t ((s.chan c).startsRange ((s.thread c t).pay a) ((s.thread c t).pay b))
      (((s.thread c t).setReg d fix0).complete .next) := by
  obtain ⟨w, hex, hw⟩ := runI_crange (d := d) ha hb hlo hn hhi
  have hfree' : ¬ (s.chan c).proc.range.isSome = true := by simp [hfree]
  rw [if_neg hfree'] at hw
  exact leaves_of_run hex h (fun _ => hsup) nofun nofun rfl hw (perfOnly_refl _)

/-! ### RANGE_ENGINE_DONE -/

/-- A raise changes the pending signals alone. -/
theorem raisedIf_frame (ch : Channel) (en : Bool) (v : Nat) (a : Cell) :
    ch.raisedIf en v a = { ch with proc.pend := (ch.raisedIf en v a).proc.pend } := by
  unfold Channel.raisedIf
  split
  · rfl
  · rfl
theorem raised_pending (ch : Channel) (v : Nat) (a : Cell) : (mapGet (ch.raisedIf true v a).proc.pend v).isSome = true := by
  unfold Channel.raisedIf
  rw [if_pos rfl]
  unfold Channel.raised
  dsimp only
  rw [mapGet_mapPut]
  rfl

theorem mapGet_mapValues {α β : Type} (f : Nat → α → β) : (m : List (Nat × α)) → (k : Nat) →
    mapGet (m.map (fun e => (e.1, f e.1 e.2))) k = (mapGet m k).map (f k)
  | [], _ => rfl
  | (j, v) :: r, k => by
    by_cases h : j = k
    · simp [mapGet, h]
    · simp [mapGet, h, mapGet_mapValues f r k]
theorem mapGet_filter_key {α : Type} (p : Nat → Bool) {k : Nat} (hk : p k = false) : (m : List (Nat × α)) →
    mapGet (m.filter (fun e => p e.1)) k = none
  | [] => rfl
  | (j, v) :: r => by
    have hr := mapGet_filter_key (α := α) p hk r
    by_cases h : p j = true
    · have hne : j ≠ k := fun e => by simp [e, hk] at h
      simp [h, mapGet, hne, hr]
    · simp [h, hr]
/-- A line is where its frame address, its way's key and its slot say (Table 14.1). -/
theorem line_of_way {l k : Nat} (hl : l < 2 ^ 27) (hk : k ∈ setKeys l) : ((lineFrame l).toNat * 32 + k / 4) * 4 + lineSlot l = l := by
  have hframe : (lineFrame l).toNat = l / 128 := by
    unfold lineFrame
    rw [BitVec.toNat_ofNat]
    omega
  have hset : k / 4 = l / 4 % 32 := by
    simp only [setKeys, lineSet, List.mem_cons, List.not_mem_nil, or_false] at hk
    omega
  rw [hframe, hset, lineSlot]
  omega
/-- No line of a dropped range is left in a cache. -/
theorem dropRange_holds (x : Cache) {out : Nat → Bool} {l : Nat} (hl : l < 2 ^ 27) (hout : out l = true) :
    (x.dropRange out).holds l = false := by
  have hlook : (x.dropRange out).lookup l = none := by
    unfold Cache.lookup
    split
    · next k ks hmatch =>
      have hmem : k ∈ (x.dropRange out).matching l := hmatch ▸ List.mem_cons_self
      rw [Cache.matching, List.mem_filter] at hmem
      obtain ⟨hkey, hframe⟩ := hmem
      have hget := mapGet_mapValues (fun key (f : Frame) => { f with
        lines := f.lines.filter (fun e => !out ((f.faddr.toNat * 32 + key / 4) * 4 + e.1)) }) x.frames k
      have hget' : mapGet (x.dropRange out).frames k = _ := hget
      cases hx : mapGet x.frames k with
      | none =>
        rw [hget', hx]
        rfl
      | some f =>
        rw [hget', hx] at hframe ⊢
        have hfaddr : f.faddr = lineFrame l := of_decide_eq_true hframe
        have hline : (!out ((f.faddr.toNat * 32 + k / 4) * 4 + lineSlot l)) = false := by
          rw [hfaddr, line_of_way hl hkey, hout]
          rfl
        dsimp only [Option.map_some]
        rw [mapGet_filter_key (fun j => !out ((f.faddr.toNat * 32 + k / 4) * 4 + j)) hline]
        rfl
    · rfl
  unfold Cache.holds
  rw [hlook]
  rfl

/-- The caches of a core without the lines of a range. -/
def Core.droppingRange (co : Core) (out : Nat → Bool) : Core :=
  { co with icache := co.icache.dropRange out, dcache := co.dcache.dropRange out }
theorem droppingRange_cache (co : Core) (out : Nat → Bool) (dc : Bool) : (co.droppingRange out).cache dc = (co.cache dc).dropRange out := by
  cases dc <;> rfl
/-- When the engine is done, its range is gone from every cache, and vector 88 is raised where enabled. -/
theorem rangeEngineDone_clears {pg n : Nat} (hcond : (s.chan c).life.cond = .running) (hpower : (s.chan c).life.power ≠ .sleep)
    (hrange : (s.chan c).proc.range = some (pg, n)) :
    exec (.rangeEngineDone c) s = .next (s.setChan c (Channel.raisedIf { (s.chan c).mapCores (fun co => co.droppingRange (s.mach c).inRange) with
      proc := { (s.chan c).proc with range := none } } (bit (winGet (s.chan c) 0x1400) 5) 88 fix0)) := by
  have hgo : ¬ ((s.mach c).ch.proc.range.isNone || decide ((s.mach c).ch.life.cond ≠ .running) || decide ((s.mach c).ch.life.power = .sleep)) = true := by
    simp [hcond, hpower, hrange]
  have hcores := setCores_map (s.mach c) (fun co => co.droppingRange (s.mach c).inRange)
  refine congrArg _ (onMach_channel s c _ _ ?_)
  refine (if_neg hgo).trans ((congrArg (fun m : Mach => ({ m with ch.proc.range := none } : Mach).raiseIf (winBit m.ch 0x1400 5) 88 fix0) hcores).trans ?_)
  exact raiseIf_raisedIf _ _ _ _

theorem rangeEngine : rangeEngineClaim := by
  intro s c t d a b th ch
  refine ⟨fun h hsup ha hb hlo hn hhi => ⟨crange_busy h hsup ha hb hlo hn hhi, fun hfree hwf =>
    ⟨_, crange_starts h hsup ha hb hlo hn hhi hfree, ?_⟩⟩, fun pg n hcond hpower hrange => ⟨_, rangeEngineDone_clears hcond hpower hrange, ?_⟩⟩
  · have hwf' : mapWf (winPut { ch with proc.range := some ((fixInt (th.pay a)).toNat, (fixInt (th.pay b)).toNat) } 0x1401 (th.pay a)).win = true :=
      mapWf_winPut hwf _ _
    refine ⟨rfl, ?_, ?_, rfl, fun o ho ho' => ?_⟩
    · exact (winGet_winPut _ hwf' _ _ _).trans ((if_neg (by decide)).trans ((winGet_winPut _ hwf _ _ _).trans (if_pos rfl)))
    · exact (winGet_winPut _ hwf' _ _ _).trans (if_pos rfl)
    · exact (winGet_winPut _ hwf' _ _ _).trans ((if_neg ho').trans ((winGet_winPut _ hwf _ _ _).trans (if_neg ho)))
  · rw [chan_setChan, raisedIf_frame]
    refine ⟨rfl, rfl, rfl, fun k dc l hlo hhi hl => ?_, fun hen => ?_⟩
    · have hout : (s.mach c).inRange l = true := by
        unfold Mach.inRange
        rw [mach_ch, hrange]
        simp [hlo, hhi]
      have hcore : ((s.chan c).mapCores (fun co => co.droppingRange (s.mach c).inRange)).core[k] =
          ((s.chan c).core[k]).droppingRange (s.mach c).inRange := by simp [Channel.mapCores]
      refine (congrArg (fun co : Core => (co.cache dc).holds l) hcore).trans ?_
      rw [droppingRange_cache]
      exact dropRange_holds _ hl hout
    · rw [hen]
      exact raised_pending _ _ _

end

/-- Settles O34: the cache instructions by what each does to both cores, the range engine by its start and its end. -/
theorem cachesAndRanges : Obligations.CachesAndRanges := ⟨cacheInstructions, rangeEngine⟩

end Sys2Proof.Machine
end

section
/-! Instructions that reach the channel's units: watchdog, counters and ledger (R71, R92, R93, R123, R493). -/
namespace Sys2Proof.Machine

section
variable {s : State} {c : Chan} {t : Fin 8} {d a b : Reg}

/-! ### Watchdog and counters -/

theorem wdkick_restarts (h : s.ready c t = true) (hsup : (s.thread c t).sup = true) :
    leaves (.wdkick c t) s c t { s.chan c with clk := { (s.chan c).clk with wdCount := 0, wdWarned := false } } ((s.thread c t).complete .next) :=
  leaves_of_effect (i := (iN 0x42).asSup) rfl h (fun _ => hsup) nofun nofun rfl rfl
    (r := { workOn s c t (iN 0x42).asSup with
      m := workLeft s c t (iN 0x42).asSup { s.chan c with clk := { (s.chan c).clk with wdCount := 0, wdWarned := false } } }) rfl (perfOnly_refl _)
theorem pmread_completes (h : s.ready c t = true) (hsup : (s.thread c t).sup = true) (ha : (s.thread c t).has a fixTag = true)
    (hd : d.val % 2 = 0) (hpay : (s.thread c t).pay a ≤ 255#24) (hcount : counted ((s.thread c t).pay a).toNat = true) :
    completes (.pmread c t d a) s c t
      ((((s.thread c t).setReg d (raw ((mapAt 0#48 (s.chan c).perf.counts ((s.thread c t).pay a).toNat).extractLsb' 24 24))).setReg (d + 1)
        (raw ((mapAt 0#48 (s.chan c).perf.counts ((s.thread c t).pay a).toNat).extractLsb' 0 24))).complete .next) := by
  have hpay' : ¬ 255#24 < cellPay ((s.thread c t).reg a) := BitVec.not_lt.mpr hpay
  have hread : (s.begun c t (iDA 0xD4 d a).asSup).readCounter (cellPay ((s.thread c t).reg a)).toNat =
      (mapAt 0#48 (s.chan c).perf.counts ((s.thread c t).pay a).toNat, s.begun c t (iDA 0xD4 d a).asSup) := if_pos hcount
  refine completes_of_run (i := (iDA 0xD4 d a).asSup) rfl h (fun _ => hsup) nofun nofun ?_
  rw [runI_check_passes (by omega), runI_operand_bind ha, runI_check_passes hpay', runI_bind_ok (runI_commit_nil ..), runI_bind_ok (runI_useM _ _),
    hread, runI_bind_ok (runI_setD _ _ _), runI_bind_ok (runI_setD _ _ _), thr_setThr]
  simp [wrote]

/-! ### LGREAD -/

/-- What LGREAD delivers of a ledger word: a user word whole, of the others the high or the low part. -/
def ledgerPart (user high : Bool) (w : BitVec 32) : Cell :=
  if user then w else if high then fix ((w.extractLsb' 24 8).setWidth 24) else fix (w.extractLsb' 0 24)
/-- LGREAD within the channel's partition. -/
theorem lgread_own {m : Mach} {p : Payload} (hres : bits p 16 8 = 0) (hown : bit p 14 = false) (ho : bits p 0 14 < 8192) :
    m.lgread p = match mapGet m.ch.led.flaws (bits p 0 14) with
      | some true => some (psn 4#4, m.report 0x0F#6 false false (0x2#4 ++ BitVec.ofNat 28 (bits p 0 14)))
      | some false => some (ledgerPart (0x1800 ≤ bits p 0 14) (bit p 15) (mapAt 0#32 m.ch.led.words (bits p 0 14)),
          { m with ch.led.corr := satInc m.ch.led.corr })
      | none => some (ledgerPart (0x1800 ≤ bits p 0 14) (bit p 15) (mapAt 0#32 m.ch.led.words (bits p 0 14)), m) := by
  unfold Mach.lgread ledgerPart Ledger.word
  simp only [hres, hown, apply_ite fix]
  simp [Nat.not_le.mpr ho] <;> rfl
/-- LGREAD within the square's partition, of a word that reads without error. -/
theorem lgread_square {m : Mach} {p : Payload} (hres : bits p 16 8 = 0) (hsq : bit p 14 = true) (ho : bits p 0 14 < 2048)
    (hclean : mapGet m.sq.led.flaws (bits p 0 14) = none) :
    m.lgread p = some (ledgerPart false (bit p 15) (mapAt 0#32 m.sq.led.words (bits p 0 14)), m) := by
  unfold Mach.lgread ledgerPart Ledger.word
  simp only [hres, hsq, apply_ite fix]
  simp [Nat.not_le.mpr ho, hclean]
theorem runI_lgread {v : Cell} {n : Mach} (ha : (s.thread c t).has a fixTag = true)
    (hread : (s.begun c t (iDA 0x43 d a).asSup).lgread ((s.thread c t).pay a) = some (v, n)) :
    ∃ w : IM Flow, exec (.lgread c t d a) s = .next (s.issue c t (iDA 0x43 d a).asSup w) ∧
      runI w (workOn s c t (iDA 0x43 d a).asSup) =
        (.ok .next, { workOn s c t (iDA 0x43 d a).asSup with m := n.setThr t ((n.thr t).setReg d v) }) := by
  have hread' : (s.begun c t (iDA 0x43 d a).asSup).lgread (cellPay ((s.thread c t).reg a)) = some (v, n) := hread
  refine ⟨_, rfl, ?_⟩
  rw [runI_operand_bind ha, runI_bind_ok (runI_getM _), hread']
  dsimp only
  rw [runI_bind_ok (runI_commit_nil ..), runI_bind_ok (runI_modM _ _), runI_bind_ok (runI_setD _ _ _), hread']
  rfl
theorem lgread_delivers {v : Cell} (h : s.ready c t = true) (hsup : (s.thread c t).sup = true) (ha : (s.thread c t).has a fixTag = true)
    (hread : (s.begun c t (iDA 0x43 d a).asSup).lgread ((s.thread c t).pay a) = some (v, s.begun c t (iDA 0x43 d a).asSup)) :
    delivers (.lgread c t d a) s c t d v := by
  obtain ⟨w, hex, hw⟩ := runI_lgread ha hread
  exact completes_of_run hex h (fun _ => hsup) nofun nofun hw
/-- A word that reads uncorrectable delivers PSN. -/
theorem lgread_poisons {n : Mach} (h : s.ready c t = true) (hsup : (s.thread c t).sup = true) (ha : (s.thread c t).has a fixTag = true)
    (hread : (s.begun c t (iDA 0x43 d a).asSup).lgread ((s.thread c t).pay a) = some (psn 4#4, n))
    (hn : servesOnly (s.begun c t (iDA 0x43 d a).asSup) n) :
    ∃ s', exec (.lgread c t d a) s = .next s' ∧ s'.thread c t = ((s.thread c t).setReg d (psn 4#4)).complete .next := by
  obtain ⟨w, hex, hw⟩ := runI_lgread ha hread
  have hthr : n.thr t = s.thread c t := by
    rw [hn.1]
    rfl
  have hdone := issue_completed h (fun _ => hsup) hw
  refine ⟨_, hex, ?_⟩
  rw [hdone]
  refine (congrArg (fun ch : Channel => ch.thr[t]) (chan_putMach s _)).trans ?_
  refine (thr_setThr _ t _).trans ?_
  rw [perfOnly_thr (retired_perfOnly _ t _ .next) t, thr_setThr, hthr]

/-! ### LGWRITE -/

theorem runI_lgwrite (ha : (s.thread c t).has a fixTag = true) (hb : (s.thread c t).has b userTag = true) (hpay : (s.thread c t).pay a ≤ 2047#24) :
    ∃ w : IM Flow, exec (.lgwrite c t d a b) s = .next (s.issue c t (iDAB 0x44 d a b false).asSup w) ∧
      runI w (workOn s c t (iDAB 0x44 d a b false).asSup) = if (s.chan c).led.staging.length ≤ 12 then
          runI (do setD d fix0; return .next) { workOn s c t (iDAB 0x44 d a b false).asSup with
            m := workLeft s c t (iDAB 0x44 d a b false).asSup { s.chan c with led := { (s.chan c).led with
              staging := (s.chan c).led.staging ++ [.user (((s.thread c t).pay a).setWidth 11) ((s.thread c t).reg b) (s.chan c).pair.holds] } } }
        else runI (do setD d (fixN 1); return .next) (workOn s c t (iDAB 0x44 d a b false).asSup) := by
  have hpay' : ¬ 2047#24 < cellPay ((s.thread c t).reg a) := BitVec.not_lt.mpr hpay
  refine ⟨_, rfl, ?_⟩
  rw [runI_operand_bind ha, runI_operand_bind hb, runI_check_passes hpay', runI_bind_ok (runI_commit_nil ..), runI_bind_ok (runI_getM _)]
  dsimp only
  rw [runI_ite]
  rfl
theorem lgwrite_queues (h : s.ready c t = true) (hsup : (s.thread c t).sup = true) (ha : (s.thread c t).has a fixTag = true)
    (hb : (s.thread c t).has b userTag = true) (hpay : (s.thread c t).pay a ≤ 2047#24) (hroom : (s.chan c).led.staging.length ≤ 12) :
    leaves (.lgwrite c t d a b) s c t { s.chan c with led := { (s.chan c).led with
      staging := (s.chan c).led.staging ++ [.user (((s.thread c t).pay a).setWidth 11) ((s.thread c t).reg b) (s.chan c).pair.holds] } }
      (((s.thread c t).setReg d fix0).complete .next) := by
  obtain ⟨w, hex, hw⟩ := runI_lgwrite (d := d) ha hb hpay
  rw [if_pos hroom] at hw
  exact leaves_of_run hex h (fun _ => hsup) nofun nofun rfl hw (perfOnly_refl _)
theorem lgwrite_refuses (h : s.ready c t = true) (hsup : (s.thread c t).sup = true) (ha : (s.thread c t).has a fixTag = true)
    (hb : (s.thread c t).has b userTag = true) (hpay : (s.thread c t).pay a ≤ 2047#24) (hfull : 12 < (s.chan c).led.staging.length) :
    delivers (.lgwrite c t d a b) s c t d (fixN 1) := by
  obtain ⟨w, hex, hw⟩ := runI_lgwrite (d := d) ha hb hpay
  rw [if_neg (by omega)] at hw
  exact delivers_of_run hex h (fun _ => hsup) hw

/-- Settles O35: each instruction by the lemma about its unit. -/
theorem unitInstructions : Obligations.UnitInstructions := by
  intro s c t d a b h hsup th ch o w
  have hpart : ledgerPart (0x1800 ≤ o) (bit (th.pay a) 15) w = if 0x1800 ≤ o then w
      else if bit (th.pay a) 15 then fix ((w.extractLsb' 24 8).setWidth 24) else fix (w.extractLsb' 0 24) := by simp [ledgerPart]
  refine ⟨wdkick_restarts h hsup, pmread_completes h hsup, fun ha hres hown ho => ⟨fun hclean => ?_, fun hcorr => ?_, fun hbad => ?_⟩,
    fun ha hres hsq ho hclean => ?_, fun ha hb hpay => ⟨lgwrite_queues h hsup ha hb hpay, lgwrite_refuses h hsup ha hb hpay⟩⟩
  · have hread := lgread_own (m := s.begun c t (iDA 0x43 d a).asSup) hres hown ho
    have hclean' : mapGet (s.begun c t (iDA 0x43 d a).asSup).ch.led.flaws o = none := hclean
    rw [hclean'] at hread
    exact hpart ▸ lgread_delivers h hsup ha hread
  · have hread := lgread_own (m := s.begun c t (iDA 0x43 d a).asSup) hres hown ho
    have hcorr' : mapGet (s.begun c t (iDA 0x43 d a).asSup).ch.led.flaws o = some false := hcorr
    rw [hcorr'] at hread
    obtain ⟨x, hex, hx⟩ := runI_lgread (d := d) ha hread
    exact hpart ▸ leaves_of_run hex h (fun _ => hsup) nofun nofun rfl hx (perfOnly_refl _)
  · have hread := lgread_own (m := s.begun c t (iDA 0x43 d a).asSup) hres hown ho
    have hbad' : mapGet (s.begun c t (iDA 0x43 d a).asSup).ch.led.flaws o = some true := hbad
    rw [hbad'] at hread
    exact lgread_poisons h hsup ha hread (servesOnly_report _ _ _ _ _)
  · exact lgread_delivers h hsup ha (lgread_square hres hsq ho hclean)

end
end Sys2Proof.Machine
end

section
/-! MTS (R186-R188) and the load of a vector table (R261, R262). -/
namespace Sys2Proof.Machine

section
variable {s : State} {c : Chan} {t : Fin 8} {d : Reg} {n : BitVec 11}

/-- The fixed part of MTS. -/
def iMts (d : Reg) (n : BitVec 11) : Ins := { iSL 0x41 d n with touch := match sreg n.toNat with | some r => r.upper | none => false }
theorem exec_mts : exec (.mts c t d n) s = .next (s.issue c t (iMts d n) (wMts t d n.toNat)) := rfl
/-- MTS as its mode and its source pass (R188), up to the checks of its value. -/
theorem runI_mts_source {ok : BitVec 6 → Bool} {r : SReg} {k : Nat} (hk : n.toNat = k) (hreg : sreg k = some r) (hwr : r.writable = true)
    (hmode : r.writeSup = false ∨ (s.thread c t).sup = true) (hd : (s.thread c t).has d ok = true)
    (htag : mtsTag k ((s.thread c t).reg d) = true) (hn : k ≠ 0x20) :
    runI (wMts t d n.toNat) (workOn s c t (iMts d n)) = if mtsValue k ((s.thread c t).reg d) then
        (.ok .next, { workOn s c t (iMts d n) with m := (s.begun c t (iMts d n)).sregWrite t k ((s.thread c t).reg d) })
      else (.error (.fault 4#10 (fixN 2)), workOn s c t (iMts d n)) := by
  have hpass : ¬ (r.writeSup && !(s.thread c t).sup) = true := by
    rcases hmode with h | h <;> simp [h]
  simp only [Thread.has, Bool.and_eq_true, decide_eq_true_eq, Bool.not_eq_true'] at hd
  obtain ⟨⟨hpsn, hres⟩, -⟩ := hd
  unfold wMts
  rw [hk, hreg]
  dsimp only
  rw [runI_check_passes (by simp [hwr]), runI_bind_ok (runI_getT _), thr_begun, runI_check_passes hpass, runI_bind_ok (runI_getT _), thr_begun,
    runI_check_passes hpsn, runI_check_passes (by simp [hres]), runI_check_passes (by simp [htag]), if_neg hn]
  by_cases hval : mtsValue k ((s.thread c t).reg d) = true
  · rw [runI_check_passes (by simp [hval]), runI_bind_ok (runI_commit_nil ..), if_pos hval]
    rfl
  · rw [runI_check_fails (by simp [hval]), if_neg hval]
    rfl
/-- MTS of a thread register. -/
theorem mts_completes {ok : BitVec 6 → Bool} {r : SReg} {k : Nat} {th : Thread} (h : s.ready c t = true) (hk : n.toNat = k) (hreg : sreg k = some r)
    (hwr : r.writable = true) (hmode : r.writeSup = false ∨ (s.thread c t).sup = true) (hd : (s.thread c t).has d ok = true)
    (htag : mtsTag k ((s.thread c t).reg d) = true) (hn : k ≠ 0x20) (hval : mtsValue k ((s.thread c t).reg d) = true)
    (hwrite : (s.begun c t (iMts d n)).sregWrite t k ((s.thread c t).reg d) = (s.begun c t (iMts d n)).setThr t th) :
    completes (.mts c t d n) s c t (th.complete .next) := by
  have hw := runI_mts_source hk hreg hwr hmode hd htag hn
  rw [if_pos hval, hwrite] at hw
  exact completes_of_run exec_mts h nofun nofun nofun hw
/-- MTS of a register of the channel. -/
theorem mts_leaves {ok : BitVec 6 → Bool} {r : SReg} {k : Nat} {ch : Channel} (h : s.ready c t = true) (hsup : (s.thread c t).sup = true)
    (hk : n.toNat = k) (hreg : sreg k = some r) (hwr : r.writable = true) (hd : (s.thread c t).has d ok = true)
    (htag : mtsTag k ((s.thread c t).reg d) = true) (hn : k ≠ 0x20) (hval : mtsValue k ((s.thread c t).reg d) = true)
    (hseq : ch.seq = (s.chan c).seq) (hthr : ch.thr = (s.chan c).thr)
    (hwrite : (s.begun c t (iMts d n)).sregWrite t k ((s.thread c t).reg d) = workLeft s c t (iMts d n) ch) :
    leaves (.mts c t d n) s c t ch ((s.thread c t).complete .next) := by
  have hw := runI_mts_source hk hreg hwr (.inr hsup) hd htag hn
  rw [if_pos hval, hwrite] at hw
  exact leaves_of_effect exec_mts h nofun nofun nofun hseq hthr hw (perfOnly_refl _)
/-- MTS of a value that its register does not take. -/
theorem mts_faults_of_value {ok : BitVec 6 → Bool} {r : SReg} {k : Nat} (h : s.ready c t = true) (hk : n.toNat = k) (hreg : sreg k = some r)
    (hwr : r.writable = true) (hmode : r.writeSup = false ∨ (s.thread c t).sup = true) (hd : (s.thread c t).has d ok = true)
    (htag : mtsTag k ((s.thread c t).reg d) = true) (hn : k ≠ 0x20) (hval : mtsValue k ((s.thread c t).reg d) = false) :
    faults (.mts c t d n) s c t 4#10 (fixN 2) (cellL 0x41 d n) := by
  have hw := runI_mts_source hk hreg hwr hmode hd htag hn
  rw [hval] at hw
  exact faults_of_run exec_mts h nofun rfl hw
theorem mts_faults_of_mode {r : SReg} {k : Nat} (h : s.ready c t = true) (hk : n.toNat = k) (hreg : sreg k = some r) (hwr : r.writable = true)
    (hright : r.writeSup = true) (hmode : (s.thread c t).sup = false) : faults (.mts c t d n) s c t 2#10 fix0 (cellL 0x41 d n) := by
  refine faults_of_run exec_mts h nofun rfl ?_
  unfold wMts
  rw [hk, hreg]
  dsimp only
  rw [runI_check_passes (by simp [hwr]), runI_bind_ok (runI_getT _), thr_begun, runI_check_fails (by simp [hright, hmode])]
  rfl
theorem mts_faults_of_register {r : SReg} {k : Nat} (h : s.ready c t = true) (hk : n.toNat = k) (hreg : sreg k = some r) (hwr : r.writable = false) :
    faults (.mts c t d n) s c t 1#10 fix0 (cellL 0x41 d n) := by
  refine faults_of_run exec_mts h nofun rfl ?_
  unfold wMts
  rw [hk, hreg]
  dsimp only
  rw [runI_check_fails (by simp [hwr])]
  rfl

theorem mtsTag_fix {k : Nat} {v : Cell} (hk : k ≠ 0x02 ∧ k ≠ 0x03) (hv : cellTag v = tFIX) : mtsTag k v = true := by
  unfold mtsTag
  simp [hk, hv]
theorem mtsTag_loc {k : Nat} {v : Cell} (hk : k = 0x02 ∨ k = 0x03) (hv : cellTag v = tLOC) : mtsTag k v = true := by
  unfold mtsTag
  rcases hk with rfl | rfl <;> simp [hv]
theorem mtsTag_crate {k : Nat} {v : Cell} (hk : k = 0x04 ∨ k = 0x21) (hv : cellTag v = tCRATE) : mtsTag k v = true := by
  unfold mtsTag
  rcases hk with rfl | rfl <;> simp [hv]

theorem tag_of_has {ok : BitVec 6 → Bool} {r : Reg} (h : (s.thread c t).has r ok = true) : ok (cellTag ((s.thread c t).reg r)) = true := by
  simp only [Thread.has, Bool.and_eq_true] at h
  exact h.2
theorem low_of_lt {p : Payload} (h : p < 0x400000#24) : decide (bits p 22 2 = 0) = true := by
  refine decide_eq_true ?_
  rw [BitVec.lt_def] at h
  rw [bits, BitVec.extractLsb'_toNat, Nat.shiftRight_eq_div_pow]
  change p.toNat < 4194304 at h
  omega
theorem setField_top (p : Payload) : setField p 22 2 0 = p &&& 0x3FFFFF#24 := by
  have hmask : ~~~ (BitVec.ofNat 24 (2 ^ 2 - 1) <<< 22) = 0x3FFFFF#24 := by decide
  have hnone : BitVec.ofNat 24 (0 % 2 ^ 2) <<< 22 = 0#24 := by decide
  unfold setField
  rw [hmask, hnone, BitVec.or_zero]
theorem withCdr_of_tag {v : Cell} {g : BitVec 6} (h : cellTag v = g) : withCdr v 0#2 = mkCell g 0#2 (cellPay v) := h ▸ rfl
/-- The top byte of ACC read through ACCH. -/
theorem accH_low (acc : BitVec 56) : (accH acc).extractLsb' 0 8 = acc.extractLsb' 48 8 := by
  unfold accH
  refine BitVec.eq_of_getLsbD_eq fun i hi => ?_
  simp [BitVec.getLsbD_signExtend, hi]
  omega
theorem writeThreadAndChannelRegisters : writeSpecialRegistersClaim := by
  intro s c t d h th v ps p mts put
  refine ⟨fun hd => ?_, fun hd => ?_, fun hsup => ⟨fun hd => ?_, fun hd => ?_, fun hd => ?_⟩, fun hmode => ?_, ?_⟩
  · have htag : cellTag ((s.thread c t).reg d) = tFIX := number_of_fix hd
    have htop (w : BitVec 24) : accOf (accH th.acc) w = fun l => (th.acc.extractLsb' 48 8 ++ w ++ l : BitVec 56) := by
      unfold accOf
      rw [accH_low]
    refine ⟨mts_completes (n := 0x01#11) (k := 0x01) h rfl rfl rfl (.inl rfl) hd (mtsTag_fix (by decide) htag) (by decide) rfl rfl,
      mts_completes (n := 0x08#11) (k := 0x08) h rfl rfl rfl (.inl rfl) hd (mtsTag_fix (by decide) htag) (by decide) rfl rfl,
      mts_completes (n := 0x09#11) (k := 0x09) h rfl rfl rfl (.inl rfl) hd (mtsTag_fix (by decide) htag) (by decide) rfl ?_,
      mts_completes (n := 0x0A#11) (k := 0x0A) h rfl rfl rfl (.inl rfl) hd (mtsTag_fix (by decide) htag) (by decide) rfl ?_, fun hpos => ?_, fun hneg => ?_⟩
    · exact congrArg (fun a : BitVec 24 → BitVec 56 => (s.begun c t (iMts d 0x09#11)).setThr t { th with acc := a (accL th.acc) }) (htop v)
    · exact congrArg (fun a : BitVec 24 → BitVec 56 => (s.begun c t (iMts d 0x0A#11)).setThr t { th with acc := a v }) (htop (accM th.acc))
    · exact mts_completes (n := 0x0C#11) (k := 0x0C) h rfl rfl rfl (.inl rfl) hd (mtsTag_fix (by decide) htag) (by decide) (decide_eq_true hpos) rfl
    · exact mts_faults_of_value (n := 0x0C#11) (k := 0x0C) h rfl rfl rfl (.inl rfl) hd (mtsTag_fix (by decide) htag) (by decide)
        (decide_eq_false (not_le.mpr hneg))
  · have htag : cellTag ((s.thread c t).reg d) = tLOC := of_decide_eq_true (tag_of_has hd)
    refine mts_completes (n := 0x02#11) (k := 0x02) h rfl rfl rfl (.inl rfl) hd (mtsTag_loc (by decide) htag) (by decide) rfl ?_
    exact congrArg (fun x => (s.begun c t (iMts d 0x02#11)).setThr t { th with spU := x }) (withCdr_of_tag htag)
  · have htag : cellTag ((s.thread c t).reg d) = tLOC := of_decide_eq_true (tag_of_has hd)
    refine mts_completes (n := 0x03#11) (k := 0x03) h rfl rfl rfl (.inr hsup) hd (mtsTag_loc (by decide) htag) (by decide) rfl ?_
    exact congrArg (fun x => (s.begun c t (iMts d 0x03#11)).setThr t { th with spS := x }) (withCdr_of_tag htag)
  · have htag : cellTag ((s.thread c t).reg d) = tCRATE := of_decide_eq_true (tag_of_has hd)
    have hval (k : Nat) (hk : k = 0x04 ∨ k = 0x21) : mtsValue k ((s.thread c t).reg d) = true := by
      unfold mtsValue
      rcases hk with rfl | rfl <;> simp [htag, tCRATE, tFIX]
    refine ⟨mts_completes (n := 0x04#11) (k := 0x04) h rfl rfl rfl (.inr hsup) hd (mtsTag_crate (by decide) htag) (by decide) (hval _ (by decide)) ?_,
      mts_leaves (n := 0x21#11) (k := 0x21) h hsup rfl rfl rfl hd (mtsTag_crate (by decide) htag) (by decide) (hval _ (by decide)) rfl rfl ?_⟩
    · exact congrArg (fun x => (s.begun c t (iMts d 0x04#11)).setThr t { th with chain := x }) (withCdr_of_tag htag)
    · exact congrArg (fun x => workLeft s c t (iMts d 0x21#11) { s.chan c with proc := { p with cfree := x } }) (withCdr_of_tag htag)
  · have htag : cellTag ((s.thread c t).reg d) = tFIX := number_of_fix hd
    refine ⟨fun hle => ?_, fun hgt => ?_, ?_, ?_, fun hlt => ?_, fun hle hlow => ?_, ?_, fun hlt => ?_, fun hv => ?_⟩
    · exact mts_completes (n := 0x06#11) (k := 0x06) h rfl rfl rfl (.inr hsup) hd (mtsTag_fix (by decide) htag) (by decide) (decide_eq_true hle) rfl
    · exact mts_faults_of_value (n := 0x06#11) (k := 0x06) h rfl rfl rfl (.inr hsup) hd (mtsTag_fix (by decide) htag) (by decide)
        (decide_eq_false (BitVec.not_le.mpr hgt))
    · exact mts_completes (n := 0x0D#11) (k := 0x0D) h rfl rfl rfl (.inr hsup) hd (mtsTag_fix (by decide) htag) (by decide) rfl rfl
    · exact mts_completes (n := 0x0E#11) (k := 0x0E) h rfl rfl rfl (.inr hsup) hd (mtsTag_fix (by decide) htag) (by decide) rfl rfl
    · exact mts_leaves (n := 0x26#11) (k := 0x26) h hsup rfl rfl rfl hd (mtsTag_fix (by decide) htag) (by decide) (low_of_lt hlt) rfl rfl rfl
    · refine mts_leaves (n := 0x27#11) (k := 0x27) h hsup rfl rfl rfl hd (mtsTag_fix (by decide) htag) (by decide) ?_ rfl rfl rfl
      have hbits : bits v 0 10 = 0 := congrArg BitVec.toNat hlow
      exact Bool.and_eq_true_iff.mpr ⟨decide_eq_true hbits, decide_eq_true hle⟩
    · refine mts_leaves (n := 0x22#11) (k := 0x22) h hsup rfl rfl rfl hd (mtsTag_fix (by decide) htag) (by decide) rfl rfl rfl ?_
      exact congrArg (fun x => workLeft s c t (iMts d 0x22#11) { s.chan c with
        proc := { p with ptbase := x }, sw := { (s.chan c).sw with xlate := none } }) (setField_top v)
    · exact mts_leaves (n := 0x23#11) (k := 0x23) h hsup rfl rfl rfl hd (mtsTag_fix (by decide) htag) (by decide) (low_of_lt hlt) rfl rfl rfl
    · refine mts_leaves (n := 0x24#11) (k := 0x24) h hsup rfl rfl rfl hd (mtsTag_fix (by decide) htag) (by decide) ?_ rfl rfl rfl
      refine Bool.or_eq_true_iff.mpr (hv.imp (fun h0 => decide_eq_true h0) fun hr => ?_)
      exact Bool.and_eq_true_iff.mpr ⟨decide_eq_true hr.1, decide_eq_true hr.2⟩
  · exact ⟨mts_faults_of_mode (n := 0x03#11) (k := 0x03) h rfl rfl rfl rfl hmode, mts_faults_of_mode (n := 0x20#11) (k := 0x20) h rfl rfl rfl rfl hmode⟩
  · exact mts_faults_of_register (n := 0x05#11) (k := 0x05) h rfl rfl rfl

/-! ### The load of a vector table -/

/-- A cell of the vector table that R261 accepts. -/
def attrGood (v : Cell) : Prop :=
  cellTag v = tFIX ∧ bit (cellPay v) 20 = false ∧ bits (cellPay v) 0 8 = 0 ∧ ¬ (8 ≤ attrThread (cellPay v) ∧ attrThread (cellPay v) ≤ 14)
/-- What n vectors from v up hold, whose cells in the vector table are given. -/
def attrsOf (attr : Nat → Cell) (v n : Nat) : NMap Payload :=
  (List.range' v n).filterMap (fun u => if cellPay (attr u) = 0#24 then none else some (u, cellPay (attr u)))
/-- A cell of the table, in memory, with the data caches off and no store waiting. -/
theorem tableRead_memory {m : Mach} {k : Fin 2} {a : Nat} (hwb : (m.core k).wb = []) (hdcen : m.ch.proc.dcen = false)
    (ha : m.ch.place a = .memory) : (m.tableRead k a).1 = m.memCell a ∧ servesOnly m (m.tableRead k a).2 := by
  have hread : m.tableRead k a = (lineAt (m.turnRead (coreAgent k) (a / 16) 0#2 false).1 a, (m.turnRead (coreAgent k) (a / 16) 0#2 false).2) := by
    unfold Mach.tableRead
    rw [drainLine_empty hwb]
    dsimp only
    rw [ha]
    dsimp only
    unfold Mach.memFetch
    simp [hdcen]
  rw [hread]
  exact ⟨coreRead_cell _ _ _ _ _, coreRead_serves _ _ _ _ _⟩
/-- Serving a request leaves buffers, enables, geometry and threads alone. -/
theorem serves_fields {m n : Mach} (h : servesOnly m n) (k : Fin 2) (a : Nat) :
    (n.core k).wb = (m.core k).wb ∧ n.ch.proc.dcen = m.ch.proc.dcen ∧ n.ch.place a = m.ch.place a := by
  rw [h.1]
  exact ⟨rfl, rfl, rfl⟩
/-- The read of n acceptable cells of the vector table. -/
theorem readAttrs_good {k : Fin 2} {b : Nat} {attr : Nat → Cell} : ∀ (n v : Nat) {m : Mach}, (m.core k).wb = [] → m.ch.proc.dcen = false →
    (∀ u, v ≤ u → u < v + n → m.ch.place (b + 2 * u + 1) = .memory ∧ m.memCell (b + 2 * u + 1) = attr u ∧ attrGood (attr u)) →
    (m.readAttrs k b v n).1 = some (attrsOf attr v n) ∧ servesOnly m (m.readAttrs k b v n).2
  | 0, v, m, _, _, _ => ⟨rfl, servesOnly_refl m⟩
  | n + 1, v, m, hwb, hdcen, hcells => by
    obtain ⟨hplace, hcell, htag, hzero, hlow, hthread⟩ := hcells v (by omega) (by omega)
    obtain ⟨hread, hserve⟩ := tableRead_memory hwb hdcen hplace
    obtain ⟨hwb', hdcen', -⟩ := serves_fields hserve k 0
    have hrest := readAttrs_good n (v + 1) (m := (m.tableRead k (b + 2 * v + 1)).2) (hwb'.trans hwb) (hdcen'.trans hdcen) fun u hlo hhi => by
      obtain ⟨hp, hc, hg⟩ := hcells u (by omega) (by omega)
      exact ⟨(serves_fields hserve k _).2.2.trans hp, (hserve.2 _).trans hc, hg⟩
    obtain ⟨hattrs, hserve'⟩ := hrest
    have hgood : (cellTag (m.tableRead k (b + 2 * v + 1)).1 = tFIX && !bit (cellPay (m.tableRead k (b + 2 * v + 1)).1) 20 &&
        bits (cellPay (m.tableRead k (b + 2 * v + 1)).1) 0 8 = 0 && !(8 ≤ attrThread (cellPay (m.tableRead k (b + 2 * v + 1)).1) &&
        attrThread (cellPay (m.tableRead k (b + 2 * v + 1)).1) ≤ 14)) = true := by
      rw [hread, hcell]
      simp only [not_and, not_le] at hthread
      simp [htag, hzero, hlow]
      omega
    have hstep : m.readAttrs k b v (n + 1) = (some (if cellPay (attr v) = 0#24 then attrsOf attr (v + 1) n
        else (v, cellPay (attr v)) :: attrsOf attr (v + 1) n), ((m.tableRead k (b + 2 * v + 1)).2.readAttrs k b (v + 1) n).2) := by
      refine (if_pos hgood).trans ?_
      rw [hread, hcell]
      have hpair : (m.tableRead k (b + 2 * v + 1)).2.readAttrs k b (v + 1) n =
        (some (attrsOf attr (v + 1) n), ((m.tableRead k (b + 2 * v + 1)).2.readAttrs k b (v + 1) n).2) := Prod.ext hattrs rfl
      rw [hpair]
    rw [hstep]
    refine ⟨congrArg some ?_, servesOnly_trans hserve hserve'⟩
    unfold attrsOf
    rw [List.range'_succ, List.filterMap_cons]
    split <;> simp_all

/-- The work begun in a state whose processor state differs. -/
theorem begun_setProc (p : Proc) {i : Ins} (hi : i.generic = none) :
    (s.setChan c { s.chan c with proc := p }).begun c t i = { s.begun c t i with ch.proc := p } := by
  have hgen : ((s.setChan c { s.chan c with proc := p }).mach c).tagClasses t i = (s.mach c).tagClasses t i := by
    unfold Mach.tagClasses
    rw [hi]
    rfl
  unfold State.begun Mach.routine
  rw [hgen]
  simp [State.mach, Mach.micro, Mach.core]
/-- A slice that has served requests, with another vector table. -/
theorem looksOnly_newTable {m n : Mach} (k : Fin 2) (h : servesOnly m n) (vb : Payload) (at_ : NMap Payload) :
    looksOnly k { m with ch.proc := { m.ch.proc with vbase := vb, attr := at_ } } { n with ch.proc := { n.ch.proc with vbase := vb, attr := at_ } } := by
  refine looksOnly_of_serves ⟨?_, fun a => ?_⟩
  · rw [h.1]
    rfl
  · exact h.2 a

/-- MTS to VBASE as its mode and its source pass. -/
theorem runI_mts_vbase_source (hsup : (s.thread c t).sup = true) (hd : (s.thread c t).has d fixTag = true) :
    runI (wMts t d 0x20) (workOn s c t (iSL 0x41 d 0x20#11)) = runI (do
        let ok ← useM (fun m => m.loadVbase (coreOf t) (cellPay ((s.thread c t).reg d)))
        if !ok then faultOR 2
        commit
        return .next) (workOn s c t (iSL 0x41 d 0x20#11)) := by
  have htag : cellTag ((s.thread c t).reg d) = tFIX := number_of_fix hd
  simp only [Thread.has, Bool.and_eq_true, decide_eq_true_eq, Bool.not_eq_true'] at hd
  obtain ⟨⟨hpsn, hres⟩, -⟩ := hd
  have hreg : sreg 0x20 = some ⟨true, true, true, false⟩ := rfl
  unfold wMts
  rw [hreg]
  dsimp only
  rw [runI_check_passes (by decide), runI_bind_ok (runI_getT _), thr_begun, runI_check_passes (by simp [hsup]), runI_bind_ok (runI_getT _), thr_begun,
    runI_check_passes hpsn, runI_check_passes (by simp [hres]), runI_check_passes (by simp [mtsTag_fix (k := 0x20) (by decide) htag]), if_pos rfl]
/-- The work of MTS to VBASE where the table is acceptable. -/
theorem runI_mts_vbase {attr : Nat → Cell} (h : s.plain c t = true) (hsup : (s.thread c t).sup = true)
    (hd : (s.thread c t).has d fixTag = true) (hbase : bits ((s.thread c t).pay d) 22 2 = 0)
    (hmem : bits ((s.thread c t).pay d) 0 22 * 1024 + 2048 ≤ (s.chan c).memCells)
    (hcells : ∀ u < 1024, (s.chan c).place (bits ((s.thread c t).pay d) 0 22 * 1024 + 2 * u + 1) = .memory ∧
      s.cell c (bits ((s.thread c t).pay d) 0 22 * 1024 + 2 * u + 1) = attr u ∧ attrGood (attr u)) :
    ∃ n : Mach, servesOnly (s.begun c t (iSL 0x41 d 0x20#11)) n ∧
      runI (wMts t d 0x20) (workOn s c t (iSL 0x41 d 0x20#11)) = (.ok .next, { workOn s c t (iSL 0x41 d 0x20#11) with
        m := { n with ch.proc := { n.ch.proc with vbase := (s.thread c t).pay d, attr := attrsOf attr 0 1024 } } }) := by
  let m := s.begun c t (iSL 0x41 d 0x20#11)
  have hread := readAttrs_good (k := coreOf t) (b := bits ((s.thread c t).pay d) 0 22 * 1024) (attr := attr) 1024 0 (m := m)
    (plain_wb h) (plain_dcen h) fun u _ hu => by
      obtain ⟨hp, hc, hg⟩ := hcells u (by omega)
      exact ⟨hp, (peek_memory (m := s.mach c) hp).symm.trans hc, hg⟩
  obtain ⟨hattrs, hserve⟩ := hread
  refine ⟨_, hserve, ?_⟩
  have hok : m.ch.vbaseOk ((s.thread c t).pay d) = true := by
    unfold Channel.vbaseOk
    have hmem' : bits ((s.thread c t).pay d) 0 22 * 1024 + 2048 ≤ m.ch.memCells := hmem
    simp [hbase, hmem']
  have hload : m.loadVbase (coreOf t) (cellPay ((s.thread c t).reg d)) = (true,
      let n := (m.readAttrs (coreOf t) (bits ((s.thread c t).pay d) 0 22 * 1024) 0 1024).2
      { n with ch.proc := { n.ch.proc with vbase := (s.thread c t).pay d, attr := attrsOf attr 0 1024 } }) := by
    have hpair : m.readAttrs (coreOf t) (bits (cellPay ((s.thread c t).reg d)) 0 22 * 1024) 0 1024 = (some (attrsOf attr 0 1024),
      (m.readAttrs (coreOf t) (bits ((s.thread c t).pay d) 0 22 * 1024) 0 1024).2) := Prod.ext hattrs rfl
    refine (if_pos hok).trans ?_
    rw [hpair]
    rfl
  rw [runI_mts_vbase_source hsup hd, runI_bind_ok (runI_useM _ _), hload]
  rfl
theorem mtsVbase_loads {attr : Nat → Cell} (h : s.plain c t = true) (hsup : (s.thread c t).sup = true)
    (hd : (s.thread c t).has d fixTag = true) (hbase : bits ((s.thread c t).pay d) 22 2 = 0)
    (hmem : bits ((s.thread c t).pay d) 0 22 * 1024 + 2048 ≤ (s.chan c).memCells)
    (hcells : ∀ u < 1024, (s.chan c).place (bits ((s.thread c t).pay d) 0 22 * 1024 + 2 * u + 1) = .memory ∧
      s.cell c (bits ((s.thread c t).pay d) 0 22 * 1024 + 2 * u + 1) = attr u ∧ attrGood (attr u)) :
    ∃ s', exec (.mtsVbase c t d) s = .next s' ∧ onlyAccess (s.setChan c { s.chan c with proc := { (s.chan c).proc with
      vbase := (s.thread c t).pay d, attr := attrsOf attr 0 1024 } }) s' c t ((s.thread c t).complete .next) [] := by
  let i := iSL 0x41 d 0x20#11
  obtain ⟨n, hserve, hw⟩ := runI_mts_vbase h hsup hd hbase hmem hcells
  let n' : Mach := { n with ch.proc := { n.ch.proc with vbase := (s.thread c t).pay d, attr := attrsOf attr 0 1024 } }
  have hp := retired_perfOnly n' t i .next
  have hthr : (n'.retired t i .next).thr t = s.thread c t := by
    rw [perfOnly_thr hp t]
    have hn : n.thr t = s.thread c t := by
      rw [hserve.1]
      rfl
    exact hn
  have hdone := issue_completed (plain_ready h) (i := i) nofun hw
  have hwb : (n'.core (coreOf t)).wb = [] := ((serves_fields hserve (coreOf t) 0).1).trans (plain_wb h)
  have hlooks := looksOnly_newTable (coreOf t) hserve ((s.thread c t).pay d) (attrsOf attr 0 1024)
  have hfin : n'.finishIns t i (.ok .next) = (n'.retired t i .next).setThr t (((n'.retired t i .next).thr t).complete .next) := rfl
  have hput (x : Mach) : s.putMach { x with c := c } = (s.setChan c { s.chan c with proc := { (s.chan c).proc with
      vbase := (s.thread c t).pay d, attr := attrsOf attr 0 1024 } }).putMach { x with c := c } := by simp [State.putMach, State.setChan]
  refine ⟨_, rfl, ?_⟩
  refine Eq.mpr (congrArg (fun x => onlyAccess _ x c t _ []) (hdone.trans (hput _))) ?_
  refine onlyAccess_of_looks (n := n') (i := i) ?_ ?_
  · rw [begun_setProc _ rfl]
    exact hlooks
  · rw [withWb_self hwb]
    refine Eq.mpr (congrArg (perfOnly _) hfin) ?_
    rw [hthr]
    obtain ⟨p, f, hm⟩ := hp
    rw [hm]
    exact ⟨p, f, rfl⟩

theorem vectorTableLoad : vectorTableLoadClaim := by
  intro s c t d h hsup th ch b attr hd
  refine ⟨fun hbase hmem hplace hgood => ?_, fun hbase => ?_⟩
  · have hload := mtsVbase_loads (attr := attr) h hsup hd hbase hmem fun u hu => ⟨(congrArg ch.place (Nat.add_assoc b (2 * u) 1)).trans
      (hplace (2 * u + 1) (by omega)), rfl, hgood u hu⟩
    rw [attrsOf, ← List.range_eq_range'] at hload
    exact hload
  · have hbad : (s.chan c).vbaseOk ((s.thread c t).pay d) = false := by
      unfold Channel.vbaseOk
      have hbase' : bits ((s.thread c t).pay d) 22 2 ≠ 0 := hbase
      simp [hbase']
    refine faults_of_run (i := iSL 0x41 d 0x20#11) (w := wMts t d 0x20) rfl (plain_ready h) nofun rfl ?_
    have hload : (s.begun c t (iSL 0x41 d 0x20#11)).loadVbase (coreOf t) (cellPay ((s.thread c t).reg d)) =
        (false, s.begun c t (iSL 0x41 d 0x20#11)) := if_neg (Bool.eq_false_iff.mp hbad)
    rw [runI_mts_vbase_source hsup hd, runI_bind_ok (runI_useM _ _), hload]
    rfl

/-- Settles O41: the registers one by one, and the load of the vector table cell by cell. -/
theorem writeSpecialRegisters : Obligations.WriteSpecialRegisters := ⟨writeThreadAndChannelRegisters, vectorTableLoad⟩

end
end Sys2Proof.Machine
end

section
/-! What a write of memory cells does as it takes its place (R317, R328, R329, R363): its cells, and what goes with them. -/
namespace Sys2Proof.Machine

/-- A cell written over what is stored: a marked one keeps the CDR stored (R159, R363). -/
def writtenOver (e : Option (Cell × Bool)) (v : Cell) : Cell :=
  match e with
  | some (w, true) => withCdr w (cellCdr v)
  | some (w, false) => w
  | none => v
/-- Slice m with all of x that a step of a store may change: stored bits, memory controller and what it reports, cores, mirror stream, performance
unit, free counter and the last grant. -/
def Mach.stepped (m x : Mach) : Mach :=
  { m with
    free := x.free
    ch := { m.ch with
      perf := x.ch.perf, mc := x.ch.mc, led := x.ch.led, core := x.ch.core
      phys := { m.ch.phys with mem := x.ch.phys.mem }
      pair := { m.ch.pair with buf := x.ch.pair.buf, nextSeq := x.ch.pair.nextSeq }
      proc := { m.ch.proc with pend := x.ch.proc.pend, granted := x.ch.proc.granted } } }
/-- From m to n nothing but that has changed, and the write buffers hold what they held. -/
def stepsOnly (m n : Mach) : Prop := n = m.stepped n ∧ ∀ k, (n.core k).wb = (m.core k).wb

theorem stepsOnly_refl (m : Mach) : stepsOnly m m := ⟨rfl, fun _ => rfl⟩
theorem stepsOnly_trans {m n x : Mach} (h : stepsOnly m n) (h' : stepsOnly n x) : stepsOnly m x := by
  obtain ⟨hn, hwb⟩ := h
  obtain ⟨hx, hwb'⟩ := h'
  refine ⟨hx.trans ?_, fun k => (hwb' k).trans (hwb k)⟩
  rw [hn]
  rfl
theorem stepsOnly_of_serves {m n : Mach} (h : servesOnly m n) : stepsOnly m n := by
  obtain ⟨hn, -⟩ := h
  constructor
  · rw [hn]
    rfl
  · intro k
    rw [hn]
    rfl
theorem stepsOnly_of_perf {m n : Mach} (h : perfOnly m n) : stepsOnly m n := by
  obtain ⟨p, k, rfl⟩ := h
  exact ⟨rfl, fun _ => rfl⟩
theorem stepped_place {m n : Mach} (h : n = m.stepped n) (a : Nat) : n.ch.place a = m.ch.place a := by
  rw [h]
  rfl
theorem stepped_thr {m n : Mach} (h : n = m.stepped n) (t : Fin 8) : n.thr t = m.thr t := by
  rw [h]
  rfl
theorem stepped_dcen {m n : Mach} (h : n = m.stepped n) : n.ch.proc.dcen = m.ch.proc.dcen := by
  rw [h]
  rfl
/-- Near store and the rest read as before. -/
theorem peek_of_stepped {m n : Mach} (h : n = m.stepped n) {a : Nat} (ha : m.ch.place a ≠ .memory) : n.peek a = m.peek a := by
  have hplace := stepped_place h a
  have hnear : n.nearBits (a - 0x80000000) = m.nearBits (a - 0x80000000) := by
    rw [h]
    rfl
  unfold Mach.peek
  rw [hplace, hnear]
  rcases hp : m.ch.place a with _ | _ | _ | _
  · exact absurd hp ha
  all_goals rfl

/-! ### The cells of a line -/

/-- A cell that reads uncorrectable is delivered as PSN (R390). -/
theorem eccRead_uncorrectable {a : Nat} {w : BitVec 40} (h : (eccRead a w).1 = .uncorrectable) : (eccRead a w).2 = psn 1#4 := by
  unfold eccRead at h ⊢
  dsimp only at h ⊢
  split at h
  · nomatch h
  · split at h
    · nomatch h
    · split at h
      · nomatch h
      · next h0 _ hcol hpow => rw [if_neg h0, if_neg hpow]
theorem mergeCells_steps (line : Nat) (cells : NMap (Cell × Bool)) (ps : List (Fin 16)) (m : Mach) : stepsOnly m (m.mergeCells line cells ps) := by
  induction ps generalizing m with
  | nil => exact stepsOnly_refl m
  | cons p r ih =>
    have hput (w : BitVec 40) : stepsOnly m (m.putMem (line * 16 + p.val) w) := ⟨rfl, fun _ => rfl⟩
    unfold Mach.mergeCells
    dsimp only
    refine stepsOnly_trans ?_ (ih _)
    split
    · exact hput _
    · exact hput _
    · split
      · exact hput _
      · exact stepsOnly_refl m
/-- One position of a line written. -/
theorem mergeCells_cons (m : Mach) (line : Nat) (cells : NMap (Cell × Bool)) (p : Fin 16) (r : List (Fin 16)) :
    ∃ n : Mach, m.mergeCells line cells (p :: r) = n.mergeCells line cells r ∧
      ∀ b, n.memCell b = if b = line * 16 + p.val then writtenOver (mapGet cells p.val) (m.memCell b) else m.memCell b := by
  refine ⟨_, rfl, fun b => ?_⟩
  dsimp only
  rcases hget : mapGet cells p.val with _ | ⟨v, _ | _⟩
  · dsimp only [writtenOver]
    have hsame := (suppliesOnly_correct m (line * 16 + p.val)).2.1 b
    split
    · rw [ite_self]
      exact hsame
    · rw [ite_self]
  · dsimp only [writtenOver]
    exact memCell_putMem _ _ _ _
  · dsimp only [writtenOver]
    rw [memCell_putMem]
    split
    · next hb =>
      rw [hb]
      split
      · next hunc =>
        rw [Mach.memCell, eccRead_uncorrectable hunc]
        exact congrArg (withCdr v) (show 0#2 = cellCdr (psn 1#4) by decide)
      · rfl
    · rfl
/-- Every written position of a line reads as written, everything else as before. -/
theorem memCell_mergeCells (line : Nat) (cells : NMap (Cell × Bool)) : ∀ (ps : List (Fin 16)), ps.Nodup → ∀ (m : Mach) (b : Nat),
    (m.mergeCells line cells ps).memCell b =
      if ∃ p ∈ ps, b = line * 16 + p.val then writtenOver (mapGet cells (b % 16)) (m.memCell b) else m.memCell b
  | [], _, m, b => by simp [Mach.mergeCells]
  | p :: r, hnodup, m, b => by
    obtain ⟨hp, hr⟩ := List.nodup_cons.mp hnodup
    obtain ⟨n, hn, hcell⟩ := mergeCells_cons m line cells p r
    rw [hn, memCell_mergeCells line cells r hr n b, hcell b]
    by_cases hb : b = line * 16 + p.val
    · have hmod : b % 16 = p.val := by omega
      have hnot : ¬ ∃ q ∈ r, b = line * 16 + q.val := fun ⟨q, hq, hbq⟩ => hp (by
        have : p = q := Fin.ext (by omega)
        exact this ▸ hq)
      rw [if_neg hnot, if_pos hb, if_pos ⟨p, List.mem_cons_self, hb⟩, hmod]
    · rw [if_neg hb]
      refine if_congr ?_ rfl rfl
      constructor
      · rintro ⟨q, hq, h⟩
        exact ⟨q, List.mem_cons_of_mem _ hq, h⟩
      · rintro ⟨q, hq, h⟩
        rcases List.mem_cons.mp hq with rfl | hq
        · exact absurd h hb
        · exact ⟨q, hq, h⟩
theorem lineWrite_steps (m : Mach) (line : Nat) (cells : NMap (Cell × Bool)) (hint : BitVec 2) : stepsOnly m (m.lineWrite line cells hint) :=
  stepsOnly_trans (mergeCells_steps line cells positions m) (stepsOnly_of_serves (servesOnly_poolAdd _ _))
theorem memCell_lineWrite (m : Mach) (line : Nat) (cells : NMap (Cell × Bool)) (hint : BitVec 2) (b : Nat) :
    (m.lineWrite line cells hint).memCell b = if b / 16 = line then writtenOver (mapGet cells (b % 16)) (m.memCell b) else m.memCell b := by
  refine ((servesOnly_poolAdd _ _).2 b).trans ?_
  rw [memCell_mergeCells line cells positions (by decide)]
  refine if_congr ⟨?_, fun h => ?_⟩ rfl rfl
  · rintro ⟨p, -, hb⟩
    omega
  · refine ⟨⟨b % 16, Nat.mod_lt _ (by decide)⟩, ?_, by simp only; omega⟩
    have hall : ∀ p : Fin 16, p ∈ positions := by decide
    exact hall _

/-! ### A write takes its place -/

theorem setCore_steps (m : Mach) (k : Fin 2) (co : Core) (hwb : co.wb = (m.core k).wb) : stepsOnly m (m.setCore k co) := by
  refine ⟨rfl, fun j => ?_⟩
  by_cases hj : j = k
  · rw [hj, core_setCore, hwb]
  · rw [core_setCore_ne _ _ _ _ hj]
/-- A store meets the caches of both cores. -/
theorem storeStep_cores (m : Mach) (ag : Agent) (l : Nat) (cells : NMap (Cell × Bool)) :
    ∃ x y : Core, m.storeStep ag l cells = (m.setCore 0 x).setCore 1 y ∧ x.wb = (m.core 0).wb ∧ y.wb = (m.core 1).wb := by
  unfold Mach.storeStep
  refine ⟨_, _, rfl, rfl, ?_⟩
  dsimp only
  rw [core_setCore_ne _ _ _ _ (by decide)]
theorem storeStep_steps (m : Mach) (ag : Agent) (l : Nat) (cells : NMap (Cell × Bool)) : stepsOnly m (m.storeStep ag l cells) := by
  obtain ⟨x, y, h, hx, hy⟩ := storeStep_cores m ag l cells
  rw [h]
  refine stepsOnly_trans (setCore_steps m 0 x hx) (setCore_steps _ 1 y ?_)
  rw [core_setCore_ne _ _ _ _ (by decide), hy]
theorem memCell_setCore (m : Mach) (k : Fin 2) (co : Core) (b : Nat) : (m.setCore k co).memCell b = m.memCell b := rfl
theorem memCell_storeStep (m : Mach) (ag : Agent) (l : Nat) (cells : NMap (Cell × Bool)) (b : Nat) :
    (m.storeStep ag l cells).memCell b = m.memCell b := by
  obtain ⟨x, y, h, -, -⟩ := storeStep_cores m ag l cells
  rw [h, memCell_setCore, memCell_setCore]
theorem mirrorStore_steps (m : Mach) (base : Nat) (cells : NMap (Cell × Bool)) : stepsOnly m (m.mirrorStore base cells) := by
  obtain ⟨counts, buf, seq, h⟩ := mirrorStore_frame m base cells
  rw [h]
  exact ⟨rfl, fun _ => rfl⟩
theorem memCell_mirrorStore (m : Mach) (base : Nat) (cells : NMap (Cell × Bool)) (b : Nat) : (m.mirrorStore base cells).memCell b = m.memCell b := by
  obtain ⟨counts, buf, seq, h⟩ := mirrorStore_frame m base cells
  rw [h]
  rfl
theorem coreTurn_eq {ag : Agent} (hag : ag ≠ .sweeper) (m : Mach) (line : Nat) : m.turn ag line = { m with ch.proc.granted := ag } := by
  unfold Mach.turn
  cases ag
  case sweeper => exact absurd rfl hag
  all_goals rfl
theorem memPlace_steps {ag : Agent} (m : Mach) (l : Nat) (cells : NMap (Cell × Bool)) : stepsOnly (m.turn ag l) (m.memPlace ag l cells) :=
  stepsOnly_trans (lineWrite_steps _ _ _ _) (storeStep_steps _ _ _ _)
theorem memCell_memPlace (m : Mach) (ag : Agent) (l : Nat) (cells : NMap (Cell × Bool)) (b : Nat) :
    (m.memPlace ag l cells).memCell b = if b / 16 = l then writtenOver (mapGet cells (b % 16)) (m.memCell b) else m.memCell b := by
  have hturn : (m.turn ag l).memCell b = m.memCell b := by
    unfold Mach.turn
    dsimp only
    split <;> rfl
  refine (memCell_storeStep _ _ _ _ b).trans ((memCell_lineWrite (m.turn ag l) l cells _ b).trans ?_)
  rw [hturn]
theorem memStep_steps (m : Mach) (ag : Agent) (l : Nat) (cells : NMap (Cell × Bool)) : stepsOnly (m.turn ag l) (m.memStep ag l cells) :=
  stepsOnly_trans (memPlace_steps m l cells) (mirrorStore_steps _ _ _)
theorem memCell_memStep (m : Mach) (ag : Agent) (l : Nat) (cells : NMap (Cell × Bool)) (b : Nat) :
    (m.memStep ag l cells).memCell b = if b / 16 = l then writtenOver (mapGet cells (b % 16)) (m.memCell b) else m.memCell b :=
  (memCell_mirrorStore _ _ _ b).trans (memCell_memPlace m ag l cells b)
theorem grant_steps (m : Mach) (ag : Agent) : stepsOnly m { m with ch.proc.granted := ag } := ⟨rfl, fun _ => rfl⟩
/-- A write by a core or the unit port. -/
theorem memStep_steps_of {ag : Agent} (hag : ag ≠ .sweeper) (m : Mach) (l : Nat) (cells : NMap (Cell × Bool)) :
    stepsOnly m (m.memStep ag l cells) := by
  have h := memStep_steps m ag l cells
  rw [coreTurn_eq hag] at h
  exact stepsOnly_trans (grant_steps m ag) h

/-! ### What addresses read after a write -/

/-- What an address reads after the write of a line of memory. -/
theorem peek_memStep {ag : Agent} (hag : ag ≠ .sweeper) {m : Mach} {l : Nat} {cells : NMap (Cell × Bool)}
    (hplace : ∀ p < 16, m.ch.place (l * 16 + p) = .memory) (b : Nat) :
    (m.memStep ag l cells).peek b = if b / 16 = l then writtenOver (mapGet cells (b % 16)) (m.peek b) else m.peek b := by
  have hs := (memStep_steps_of hag m l cells).1
  by_cases hb : m.ch.place b = .memory
  · rw [peek_memory ((stepped_place hs b).trans hb), peek_memory hb, memCell_memStep]
  · rw [peek_of_stepped hs hb, if_neg]
    intro hline
    refine hb ?_
    have heq : l * 16 + b % 16 = b := by omega
    exact heq ▸ hplace (b % 16) (Nat.mod_lt _ (by decide))
/-- A write of one cell of memory. -/
theorem cellStep_memory {ag : Agent} {m : Mach} {a : Nat} (ha : m.ch.place a = .memory) (v : Cell) (md : Bool) :
    m.cellStep ag a v md = m.memStep ag (a / 16) [(a % 16, v, md)] := by
  unfold Mach.cellStep
  rw [ha]
theorem peek_cellStep {ag : Agent} (hag : ag ≠ .sweeper) {m : Mach} {a : Nat} (ha : m.ch.place a = .memory) (v : Cell) (md : Bool) (b : Nat) :
    (m.cellStep ag a v md).peek b = if b = a then writtenOver (some (v, md)) (m.peek b) else m.peek b := by
  have hs := (memStep_steps_of hag m (a / 16) [(a % 16, v, md)]).1
  rw [cellStep_memory ha]
  by_cases hb : m.ch.place b = .memory
  · rw [peek_memory ((stepped_place hs b).trans hb), peek_memory hb, memCell_memStep]
    by_cases hba : b = a
    · rw [if_pos (by rw [hba]), if_pos hba, hba]
      simp [mapGet]
    · rw [if_neg hba]
      split
      · next hline =>
        have hpos : ¬ a % 16 = b % 16 := by omega
        simp [mapGet, hpos, writtenOver]
      · rfl
  · rw [peek_of_stepped hs hb, if_neg]
    intro hba
    exact hb (hba ▸ ha)
theorem cellStep_steps {ag : Agent} (hag : ag ≠ .sweeper) {m : Mach} {a : Nat} (ha : m.ch.place a = .memory) (v : Cell) (md : Bool) :
    stepsOnly m (m.cellStep ag a v md) := by
  rw [cellStep_memory ha]
  exact memStep_steps_of hag m _ _
theorem coreAgent_ne (k : Fin 2) : coreAgent k ≠ .sweeper := by
  unfold coreAgent
  split <;> nofun

/-! ### The turnstile's last grant -/

theorem mergeCells_granted (line : Nat) (cells : NMap (Cell × Bool)) (ps : List (Fin 16)) (m : Mach) :
    (m.mergeCells line cells ps).ch.proc.granted = m.ch.proc.granted := by
  induction ps generalizing m with
  | nil => rfl
  | cons p r ih =>
    have hput (w : BitVec 40) : (m.putMem (line * 16 + p.val) w).ch.proc.granted = m.ch.proc.granted := rfl
    unfold Mach.mergeCells
    dsimp only
    refine (ih _).trans ?_
    split
    · exact hput _
    · exact hput _
    · split
      · exact hput _
      · rfl
/-- A write by a core or the unit port is its turn at the turnstile (R328). -/
theorem memStep_granted {ag : Agent} (hag : ag ≠ .sweeper) (m : Mach) (l : Nat) (cells : NMap (Cell × Bool)) :
    (m.memStep ag l cells).ch.proc.granted = ag := by
  have hmirror : (m.memStep ag l cells).ch.proc.granted = (m.memPlace ag l cells).ch.proc.granted := by
    obtain ⟨counts, buf, seq, h⟩ := mirrorStore_frame (m.memPlace ag l cells) (l * 16) cells
    exact (congrArg (fun x => x.ch.proc.granted) h).trans rfl
  have hline : ∀ hint, ((m.turn ag l).lineWrite l cells hint).ch.proc.granted = (m.turn ag l).ch.proc.granted := fun hint =>
    (supplies_granted (suppliesOnly_poolAdd _ _)).trans (mergeCells_granted l cells positions _)
  obtain ⟨x, y, h, -, -⟩ := storeStep_cores (m.turnWrite ag l cells) ag l cells
  have hset (n : Mach) (k : Fin 2) (co : Core) : (n.setCore k co).ch.proc = n.ch.proc := rfl
  rw [hmirror, Mach.memPlace, h, hset, hset, Mach.turnWrite, hline, coreTurn_eq hag]

end Sys2Proof.Machine
end

section
/-! The write buffers (R317, R318, R328): what draining does, and what a core's reads see. -/
namespace Sys2Proof.Machine

/-- What an entry makes of a read of an address (R317). -/
def WbEntry.over (e : WbEntry) (a : Nat) (v : Cell) : Cell := if e.line = a / 16 then writtenOver (mapGet e.cells (a % 16)) v else v
/-- What a core would read at an address: the stored cell under the stores its write buffer holds, oldest first (R318). -/
def Mach.seenBy (m : Mach) (k : Fin 2) (a : Nat) : Cell := (m.core k).wb.foldl (fun v e => e.over a v) (m.peek a)
theorem seen_eq (s : State) (c : Chan) (t : Fin 8) (a : Nat) : s.seen c t a = (s.mach c).seenBy (coreOf t) a := by
  unfold State.seen Mach.seenBy
  refine congrArg (fun f => List.foldl f _ _) ?_
  funext v e
  unfold WbEntry.over writtenOver
  rfl

section
variable {m : Mach} {k : Fin 2} {e : WbEntry} {r : List WbEntry}

theorem plainEntry_iff {ch : Channel} : plainEntry ch e = true ↔
    e.kind = .memory ∧ e.logs = [] ∧ e.zline = false ∧ ∀ p < 16, ch.place (e.line * 16 + p) = .memory := by
  simp [plainEntry, and_assoc]
theorem stepped_plain {n : Mach} (h : n = m.stepped n) : plainEntry n.ch e = plainEntry m.ch e := by
  unfold plainEntry
  simp only [stepped_place h]
theorem drainOne_cons (h : (m.core k).wb = e :: r) : m.drainOne k = (m.withWb k r).drainEntry k e := by
  unfold Mach.drainOne
  rw [h]
  rfl
theorem drainEntry_plain (h : plainEntry m.ch e = true) :
    m.drainEntry k e = (m.bump (96 * k.val + 64)).memStep (coreAgent k) e.line e.cells := by
  obtain ⟨hkind, hlogs, hz, -⟩ := plainEntry_iff.mp h
  unfold Mach.drainEntry
  rw [hkind, hlogs, hz]
  rfl
theorem peek_withWb (m : Mach) (k : Fin 2) (wb : List WbEntry) (a : Nat) : (m.withWb k wb).peek a = m.peek a := rfl
theorem bump_steps (m : Mach) (n : Nat) : stepsOnly m (m.bump n) := stepsOnly_of_perf (bump_perfOnly m n)
theorem drainEntry_steps (h : plainEntry m.ch e = true) : stepsOnly m (m.drainEntry k e) := by
  rw [drainEntry_plain h]
  exact stepsOnly_trans (bump_steps m _) (memStep_steps_of (coreAgent_ne k) _ _ _)
theorem drainEntry_granted (h : plainEntry m.ch e = true) : (m.drainEntry k e).ch.proc.granted = coreAgent k := by
  rw [drainEntry_plain h]
  exact memStep_granted (coreAgent_ne k) _ _ _
theorem peek_drainEntry (h : plainEntry m.ch e = true) (a : Nat) : (m.drainEntry k e).peek a = e.over a (m.peek a) := by
  obtain ⟨-, -, -, hplace⟩ := plainEntry_iff.mp h
  rw [drainEntry_plain h, peek_memStep (coreAgent_ne k) (m := m.bump (96 * k.val + 64)) hplace]
  exact if_congr eq_comm rfl rfl

/-- The oldest entry takes its place (R317). -/
theorem drainOne_steps (hwb : (m.core k).wb = e :: r) (h : plainEntry m.ch e = true) : stepsOnly (m.withWb k r) (m.drainOne k) := by
  rw [drainOne_cons hwb]
  exact drainEntry_steps (m := m.withWb k r) h
theorem peek_drainOne (hwb : (m.core k).wb = e :: r) (h : plainEntry m.ch e = true) (a : Nat) :
    (m.drainOne k).peek a = e.over a (m.peek a) := by
  rw [drainOne_cons hwb]
  exact peek_drainEntry (m := m.withWb k r) h a
theorem drainOne_granted (hwb : (m.core k).wb = e :: r) (h : plainEntry m.ch e = true) : (m.drainOne k).ch.proc.granted = coreAgent k := by
  rw [drainOne_cons hwb]
  exact drainEntry_granted (m := m.withWb k r) h
theorem steps_wb {n : Mach} {wb : List WbEntry} (h : stepsOnly (m.withWb k wb) n) : (n.core k).wb = wb := by
  rw [h.2 k, withWb_core]
/-- A core reads what it read before its oldest entry took its place (R318). -/
theorem seenBy_drainOne (hwb : (m.core k).wb = e :: r) (h : plainEntry m.ch e = true) (a : Nat) : (m.drainOne k).seenBy k a = m.seenBy k a := by
  unfold Mach.seenBy
  rw [steps_wb (drainOne_steps hwb h), peek_drainOne hwb h, hwb]
  rfl
theorem withWb_steps {n : Mach} (h : stepsOnly m n) (wb : List WbEntry) : stepsOnly (m.withWb k wb) (n.withWb k wb) := by
  obtain ⟨hn, hwb⟩ := h
  constructor
  · rw [hn]
    rfl
  · intro j
    by_cases hj : j = k
    · rw [hj, withWb_core, withWb_core]
    · exact (congrArg Core.wb (core_setCore_ne n k j _ hj)).trans ((hwb j).trans (congrArg Core.wb (core_setCore_ne m k j _ hj)).symm)
end

/-- Entries of one core's buffer take their places in order (R317). -/
theorem drainN_steps {k : Fin 2} : ∀ (n : Nat) {m : Mach}, (∀ e ∈ (m.core k).wb, plainEntry m.ch e = true) →
    stepsOnly (m.withWb k ((m.core k).wb.drop n)) (m.drainN k n) ∧ ∀ a, (m.drainN k n).seenBy k a = m.seenBy k a
  | 0, m, _ => ⟨by rw [List.drop_zero, withWb_self rfl]; exact stepsOnly_refl m, fun _ => rfl⟩
  | n + 1, m, h => by
    rcases hwb : (m.core k).wb with _ | ⟨e, r⟩
    · have hnone : m.drainOne k = m := by
        unfold Mach.drainOne
        rw [hwb]
      have ih := drainN_steps n h
      rw [hwb, List.drop_nil] at ih
      unfold Mach.drainN
      rw [hnone]
      exact ih
    · have he := h e (by rw [hwb]; exact List.mem_cons_self)
      have hone := drainOne_steps hwb he
      have hrest := steps_wb hone
      have ih := drainN_steps n (m := m.drainOne k) fun x hx => by
        rw [hrest] at hx
        rw [stepped_plain hone.1]
        exact h x (by rw [hwb]; exact List.mem_cons_of_mem _ hx)
      rw [hrest] at ih
      refine ⟨?_, fun a => (ih.2 a).trans (seenBy_drainOne hwb he a)⟩
      have hmid := withWb_steps (k := k) hone (r.drop n)
      rw [withWb_withWb] at hmid
      exact stepsOnly_trans hmid ih.1
/-- After the youngest entry that satisfies a test, none does. -/
theorem drop_upToLast (p : WbEntry → Bool) : ∀ (wb : List WbEntry), ∀ e ∈ wb.drop (upToLast p wb), p e = false
  | [], _, h => nomatch h
  | x :: r, e, h => by
    have ih := drop_upToLast p r
    unfold upToLast at h
    rcases hn : upToLast p r with _ | n
    · rw [hn] at h ih
      dsimp only at h
      split at h
      · exact ih e h
      · next hx =>
        rcases List.mem_cons.mp h with rfl | hr
        · exact Bool.eq_false_iff.mpr hx
        · exact ih e hr
    · rw [hn] at h ih
      exact ih e h

/-! ### The end of an instruction that has stored -/

section
variable {s : State} {c : Chan} {t : Fin 8} {i : Ins}

/-- The slice an instruction's work begins on, its channel being ch. -/
def State.begunAs (s : State) (c : Chan) (t : Fin 8) (i : Ins) (ch : Channel) : Mach :=
  { s.begun c t i with ch := { ch with seq := ch.seq.set t ((s.mach c).routine t i (Config.microStart i.op % 7920)).seq } }
theorem begunAs_chan : s.begunAs c t i (s.chan c) = s.begun c t i := rfl
/-- A slice that has stored, put back, is what `onlyStep` names. -/
theorem onlyStep_of_stepped {ch : Channel} {n : Mach} {th : Thread} (h : n = ((s.begunAs c t i ch).setThr t th).stepped n) :
    onlyStep (s.setChan c ch) (s.putMach { n with c := c }) c t th := by
  refine ⟨n.ch.perf, n.free, ((s.mach c).routine t i (Config.microStart i.op % 7920)).seq, n.ch.mc, n.ch.led, n.ch.proc.pend,
    { ch.phys with mem := n.ch.phys.mem }, n.ch.core, { ch.pair with buf := n.ch.pair.buf, nextSeq := n.ch.pair.nextSeq }, n.ch.proc.granted, ?_⟩
  unfold State.ran
  rw [h, chan_setChan]
  simp [State.putMach, State.setChan, Mach.stepped, Mach.setThr, State.begunAs, State.begun, State.mach]
/-- How an instruction whose work has stored ends: its thread, and what each address reads. -/
theorem stepped_of_run {ins : Instr} {w : IM Flow} {f : Flow} {r : IS} {th : Thread} {ch : Channel}
    (hex : exec ins s = .next (s.issue c t i w)) (h : s.ready c t = true) (hs : i.sup = true → (s.thread c t).sup = true)
    (hf : f ≠ .stay) (hf' : f ≠ .resume) (hw : runI w (workOn s c t i) = (.ok f, r)) (hr : r.m = ((s.begunAs c t i ch).setThr t th).stepped r.m) :
    ∃ s', exec ins s = .next s' ∧ onlyStep (s.setChan c ch) s' c t (th.complete f) ∧ (s'.chan c).core = r.m.ch.core ∧
      (∀ a, s'.cell c a = r.m.peek a) ∧ ∀ k a, (s'.mach c).seenBy k a = r.m.seenBy k a := by
  have hp := retired_perfOnly r.m t i f
  have hthr : (r.m.retired t i f).thr t = th := by rw [perfOnly_thr hp t, stepped_thr hr, thr_setThr]
  have hfin : r.m.finishIns t i (.ok f) = (r.m.retired t i f).setThr t (((r.m.retired t i f).thr t).complete f) := by
    cases f <;> first | rfl | exact absurd rfl hf | exact absurd rfl hf'
  have hc : r.m.c = c := by
    rw [hr]
    rfl
  obtain ⟨p, k, hm⟩ := hp
  refine ⟨_, hex, ?_⟩
  rw [issue_completed h hs hw, hfin, hthr, hm]
  refine ⟨onlyStep_of_stepped (i := i) ?_, ?_, fun a => ?_, fun j a => ?_⟩
  · rw [hr]
    simp [Mach.stepped, Mach.setThr]
  · rw [chan_putMach s { ({ r.m with ch.perf := p, free := k } : Mach).setThr t (th.complete f) with c := c }]
    rfl
  all_goals
    first | rw [State.cell, mach_putMach s rfl] | rw [mach_putMach s rfl]
    rw [← hc]
    rfl
/-- Stores of a channel as it stands. -/
theorem stepsAt_of_run {ins : Instr} {w : IM Flow} {f : Flow} {r : IS} {th : Thread}
    (hex : exec ins s = .next (s.issue c t i w)) (h : s.ready c t = true) (hs : i.sup = true → (s.thread c t).sup = true)
    (hf : f ≠ .stay) (hf' : f ≠ .resume) (hw : runI w (workOn s c t i) = (.ok f, r)) (hr : r.m = ((s.begun c t i).setThr t th).stepped r.m) :
    ∃ s', exec ins s = .next s' ∧ onlyStep s s' c t (th.complete f) ∧ (s'.chan c).core = r.m.ch.core ∧
      (∀ a, s'.cell c a = r.m.peek a) ∧ ∀ k a, (s'.mach c).seenBy k a = r.m.seenBy k a := by
  have hrun := stepped_of_run (ch := s.chan c) hex h hs hf hf' hw (by rw [begunAs_chan]; exact hr)
  rw [setChan_chan] at hrun
  exact hrun

end

/-! ### The claims -/

/-- Settles O27: the entries up to the thread's youngest take their places in order. -/
theorem fenceDrains : Obligations.FenceDrains := by
  intro s c t h hdcen hplain
  have hwb : ∀ e ∈ ((s.begun c t (iN 0x28)).core (coreOf t)).wb, plainEntry (s.begun c t (iN 0x28)).ch e = true := List.all_eq_true.mp hplain
  obtain ⟨hsteps, hseen⟩ := drainN_steps (upToLast (fun e => e.threads &&& thBit t ≠ 0#8) ((s.begun c t (iN 0x28)).core (coreOf t)).wb) hwb
  have hcore := hsteps.2 (coreOf t)
  rw [withWb_core] at hcore
  obtain ⟨s', hex, honly, hc, -, hall⟩ := stepsAt_of_run (s := s) (c := c) (t := t) (i := iN 0x28) (ins := .fence c t) (f := .next)
    (r := { workOn s c t (iN 0x28) with m := (s.begun c t (iN 0x28)).drainThread t }) (th := s.thread c t) rfl h nofun nofun nofun (by
      rw [runI_bind_ok (runI_commit_nil ..), runI_bind_ok (runI_me _), runI_bind_ok (runI_modM _ _)]
      rfl) (by
      have hself : (s.begun c t (iN 0x28)).setThr t (s.thread c t) = s.begun c t (iN 0x28) := setThr_thr _ _
      rw [hself]
      exact hsteps.1)
  refine ⟨s', hex, honly, ?_, fun a => ?_⟩
  · rw [hc]
    refine List.all_eq_true.mpr fun e he => ?_
    have hmem : e ∈ (((s.begun c t (iN 0x28)).drainThread t).core (coreOf t)).wb := he
    rw [Mach.drainThread, hcore] at hmem
    simpa using drop_upToLast _ _ e hmem
  · rw [seen_eq, seen_eq, hall]
    exact hseen a

/-- A core with an entry waiting asks at its turn in the rotation (R328). -/
theorem grant_core {m : Mach} {k : Fin 2} {e : WbEntry} {r : List WbEntry} (hon : m.fastOn = true) (hheld : m.heldBack = false)
    (hwb : (m.core k).wb = e :: r) (hgrant : m.ch.proc.granted = (if k = 0 then .unitPort else .core0))
    (hroom : (m.ch.mc.pool.filter (fun q => q.src = .turnstile)).length < 896) :
    m.grant = ({ m with ch.proc.granted := coreAgent k } : Mach).drainOne k := by
  have hfree : m.ch.mc.free .turnstile = true := decide_eq_true hroom
  have hbuf : m.bufferAsks k = true := by
    unfold Mach.bufferAsks
    rw [hwb, hfree]
    exact Bool.or_true _
  have hasks : m.asks (coreAgent k) = true := by
    have hcases : k = 0 ∨ k = 1 := by omega
    rcases hcases with rfl | rfl <;> exact hbuf
  have hfind : (m.ch.proc.granted.after).find? m.asks = some (coreAgent k) := by
    have hcases : k = 0 ∨ k = 1 := by omega
    rcases hcases with rfl | rfl <;>
    · rw [hgrant]
      exact List.find?_cons_of_pos hasks
  unfold Mach.grant
  rw [hon, hheld, hfind]
  have hcases : k = 0 ∨ k = 1 := by omega
  rcases hcases with rfl | rfl <;> rfl

/-- Settles O26: either command drains the oldest entry, whose cells alone read anew. -/
theorem writeBufferDrains : Obligations.WriteBufferDrains := by
  intro s c k e r i hcond hpower hheld hwb hplain hi
  have hon : (s.mach c).fastOn = true := by
    simp [Mach.fastOn, hcond, hpower]
  obtain ⟨m, hex, hm, hmwb, hmplain⟩ : ∃ m : Mach, exec i s = .next (s.putMach { m.drainOne k with c := c }) ∧
      stepsOnly (s.mach c) m ∧ (m.core k).wb = e :: r ∧ plainEntry m.ch e = true ∧ ∀ a, m.peek a = s.cell c a := by
    rcases hi with rfl | ⟨rfl, hgrant, hroom⟩
    · refine ⟨s.mach c, ?_, stepsOnly_refl _, hwb, hplain, fun _ => rfl⟩
      refine congrArg (fun n : Mach => Host.Outcome.next (s.putMach { n with c := c })) ?_
      exact if_pos (by rw [hon, hheld]; rfl)
    · refine ⟨{ s.mach c with ch.proc.granted := coreAgent k }, ?_, grant_steps _ _, hwb, hplain, fun _ => rfl⟩
      exact congrArg (fun n : Mach => Host.Outcome.next (s.putMach { n with c := c })) (grant_core hon hheld hwb hgrant hroom)
  obtain ⟨hmplain, hpeek⟩ := hmplain
  have hsteps := drainOne_steps hmwb hmplain
  have hc : (m.drainOne k).c = c := by
    rw [hsteps.1, hm.1]
    rfl
  have hself : ({ m.drainOne k with c := c } : Mach) = m.drainOne k := by
    rw [← hc]
  refine ⟨_, hex, ?_⟩
  rw [hself]
  have hch : (s.putMach (m.drainOne k)).chan c = (m.drainOne k).ch := hc ▸ chan_putMach s _
  rw [hch]
  refine ⟨steps_wb hsteps, ?_, fun j hj => ?_, ?_, fun a => ?_⟩
  · rw [hsteps.1, hm.1]
    rfl
  · exact chan_putMach_ne s _ j (hc ▸ hj)
  · rw [drainOne_granted hmwb hmplain]
    rfl
  · rw [State.cell, mach_putMach s hc, peek_drainOne hmwb hmplain, hpeek]
    exact (if_congr eq_comm rfl rfl).trans rfl

end Sys2Proof.Machine
end

section
/-! Stores that enter an empty write buffer (R200, R204, R230, R317). -/
namespace Sys2Proof.Machine

section
variable {s : State} {c : Chan} {t : Fin 8} {i : Ins} {st : IS} {d a b : Reg} {p : Cell} {ins : Instr} {th : Thread} {wb : List WbEntry}

/-! ### What the sweeper asks of a store while no cycle runs -/

theorem idle_checks {m : Mach} (h : m.ch.sw.phase = .idle) (sl : Fin 8) (va : VAddr) : m.checks sl va = false := by
  unfold Mach.checks
  rw [h]
  simp [Phase.moving]
theorem idle_snapshots {m : Mach} (h : m.ch.sw.phase = .idle) (sl : Fin 8) (v : Cell) : m.snapshots sl v = false := by
  unfold Mach.snapshots
  rw [h]
  simp [Phase.marking]
theorem idle_snapAct {m : Mach} (h : m.ch.sw.phase = .idle) (u sl : Fin 8) (v : Cell) : m.snapAct u sl v = m := by
  unfold Mach.snapAct Mach.pushAll Mach.pushAll
  rw [idle_snapshots h]
  simp [idle_snapshots h]
theorem reads_phase (hs : s.plain c t = true) (h : reads s c t i st) : st.m.ch.sw.phase = .idle := by
  rw [h.slice.1]
  exact plain_idle hs
theorem runI_targetsEvac {α : Type} {va : VAddr} {k : Bool → IM α} (h : st.m.ch.sw.phase = .idle) :
    runI (targetsEvac va >>= k) st = runI (k false) st := by
  refine runI_bind_ok ?_
  unfold targetsEvac
  rw [runI_bind_ok (runI_get _)]
  split
  · rw [idle_checks h]
    rfl
  · rfl
theorem runI_snapshot {α : Type} {x : Xl} {k : Unit → IM α} (h : st.m.ch.sw.phase = .idle) :
    runI (snapshot x >>= k) st = runI (k ()) st := by
  refine runI_bind_ok ?_
  unfold snapshot
  rw [runI_bind_ok (runI_get _)]
  split
  · rw [h]
    simp [Phase.marking]
  · rfl
/-- Counting log actions touches the performance unit alone. -/
theorem runI_countLogs {α : Type} {u : Fin 8} {logs : List (Fin 8 × BitVec 24)} {k : Unit → IM α} :
    ∃ m, perfOnly st.m m ∧ runI (countLogs u logs >>= k) st = runI (k ()) { st with m := m } := by
  unfold countLogs
  by_cases hlogs : logs.isEmpty
  · exact ⟨st.m, perfOnly_refl _, by rw [if_pos hlogs]; rfl⟩
  · exact ⟨st.m.bumpT u 78, bumpT_perfOnly _ _ _, by rw [if_neg hlogs]; rfl⟩
theorem reads_logAction (h : reads s c t i st) (th : Thread) (va : VAddr) (v : Cell) : st.m.logAction th va v = (s.mach c).logAction th va v := by
  rw [h.slice.1]
  rfl
theorem reads_perf {m : Mach} (h : reads s c t i st) (hm : perfOnly st.m m) : reads s c t i { st with m := m } := by
  obtain ⟨q, k, rfl⟩ := hm
  refine ⟨h.who, looksOnly_trans h.slice (looksOnly_of_serves ⟨rfl, fun _ => rfl⟩), fun u hu => ?_⟩
  exact h.used u hu

/-! ### An instruction has read, and has left its thread and its core's buffer -/

/-- An instruction has read, and has then left its thread as th and its core's buffer as wb. -/
def leftStores (s : State) (c : Chan) (t : Fin 8) (i : Ins) (th : Thread) (wb : List WbEntry) (st : IS) : Prop :=
  st.t = t ∧ ∃ n, looksOnly (coreOf t) (s.begun c t i) n ∧ perfOnly ((n.withWb (coreOf t) wb).setThr t th) st.m
theorem accesses_of_stores {w : IM Flow} {f : Flow} {r : IS} (hex : exec ins s = .next (s.issue c t i w)) (hs : s.plain c t = true)
    (hsup : i.sup = true → (s.thread c t).sup = true) (hf : f ≠ .stay) (hf' : f ≠ .resume) (hw : runI w (workOn s c t i) = (.ok f, r))
    (hr : leftStores s c t i th wb r) : accesses ins s c t (th.complete f) wb := by
  obtain ⟨-, n, hn, hm⟩ := hr
  exact accesses_of_run hex (plain_ready hs) hsup hf hf' hw hn hm
theorem runI_modT_stores {α : Type} {g : Thread → Thread} {k : Unit → IM α} (h : leftStores s c t i th wb st) :
    ∃ st', leftStores s c t i (g th) wb st' ∧ runI (modT g >>= k) st = runI (k ()) st' := by
  obtain ⟨hwho, n, hn, hm⟩ := h
  have hthr : st.m.thr t = th := (perfOnly_thr hm t).trans (thr_setThr _ t th)
  refine ⟨{ st with m := st.m.setThr t (g th) }, ⟨hwho, n, hn, ?_⟩, ?_⟩
  · obtain ⟨q, j, hm⟩ := hm
    refine ⟨q, j, ?_⟩
    rw [hm]
    simp [Mach.setThr]
  · rw [runI_bind_ok (runI_modT _ _), hwho, hthr]
/-- A buffer with room takes an entry at its young end (R317). -/
theorem wbPush_room {m : Mach} {k : Fin 2} (h : (m.core k).wb.length < 8) (e : WbEntry) : m.wbPush k e = m.withWb k ((m.core k).wb ++ [e]) := by
  unfold Mach.wbPush
  rw [if_pos h]
  rfl
/-- One store enters the empty buffer (R317). -/
theorem wbAdd_empty {m : Mach} {kind : WbKind} {line : Nat} {cells : NMap (Cell × Bool)} {zl : Bool} {logs : List (Fin 8 × BitVec 24)}
    (h : (m.core (coreOf t)).wb = []) : m.wbAdd t kind line cells zl logs =
      m.withWb (coreOf t) [{ kind := kind, line := line, cells := cells, threads := thBit t, zline := zl, logs := logs }] := by
  have hpush := wbPush_room (m := m) (k := coreOf t) (by rw [h]; decide)
    { kind := kind, line := line, cells := cells, threads := thBit t, zline := zl, logs := logs }
  rw [h] at hpush
  unfold Mach.wbAdd
  dsimp only
  rw [h]
  exact hpush
theorem runI_wbAdd {f : Mach → Mach} {kind : WbKind} {line : Nat} {cells : NMap (Cell × Bool)} {zl : Bool} {logs : List (Fin 8 × BitVec 24)}
    (hs : s.plain c t = true) (h : reads s c t i st) (hf : f st.m = st.m.wbAdd t kind line cells zl logs) :
    ∃ st', leftStores s c t i (s.thread c t) [{ kind := kind, line := line, cells := cells, threads := thBit t, zline := zl, logs := logs }] st' ∧
      runI (modM f) st = (.ok (), st') := by
  refine ⟨{ st with m := f st.m }, ⟨h.who, st.m, h.slice, ?_⟩, runI_modM _ _⟩
  dsimp only
  rw [hf, wbAdd_empty (reads_wb hs h), ← reads_thr h t]
  exact ⟨_, _, (setThr_thr (st.m.withWb (coreOf t) _) t).symm⟩
theorem reads_wbKind {x : Nat} (hx : (s.chan c).place x = .memory) (h : reads s c t i st) : st.m.wbKind x = .memory := by
  unfold Mach.wbKind
  rw [reads_place h, hx]
theorem runI_bufStore {x : Nat} {v : Cell} {mk : Bool} {logs : List (Fin 8 × BitVec 24)} (hs : s.plain c t = true)
    (hx : (s.chan c).place x = .memory) (h : reads s c t i st) :
    ∃ st', leftStores s c t i (s.thread c t)
        [{ kind := .memory, line := x / 16, cells := [(x % 16, v, mk)], threads := thBit t, zline := false, logs := logs }] st' ∧
      runI (bufStore { phys := x, typ := 0#2 } v mk logs) st = (.ok (), st') := by
  obtain ⟨st', hst', hadd⟩ := runI_wbAdd (f := fun m => m.wbAdd t (m.wbKind x) (x / 16) [(x % 16, v, mk)] false logs) (kind := .memory) hs h
    (by rw [reads_wbKind hx h])
  refine ⟨st', hst', ?_⟩
  unfold bufStore
  rw [runI_bind_ok (runI_me _), h.who]
  exact hadd
/-- A barrier write that needs no check (R317, R343). -/
theorem runI_barrierStore {va : VAddr} {x : Nat} {v : Cell} (hs : s.plain c t = true)
    (hx : (s.chan c).place x = .memory) (h : reads s c t i st) :
    ∃ st', leftStores s c t i (s.thread c t) [storeEntry t x v ((s.mach c).logAction (s.thread c t) va v)] st' ∧
      runI (barrierStore va { phys := x, typ := 0#2 } v true false) st = (.ok (), st') := by
  have hphase := reads_phase hs h
  have hlog : st.m.logAction (st.m.thr st.t) va v = (s.mach c).logAction (s.thread c t) va v := by
    rw [reads_logAction h, reads_self h]
  obtain ⟨m, hm, hcount⟩ := runI_countLogs (st := st) (u := st.t) (logs := st.m.logAction (st.m.thr st.t) va v) (k := fun _ => do
    snapshot { phys := x, typ := 0#2 }
    bufStore { phys := x, typ := 0#2 } v true (st.m.logAction (st.m.thr st.t) va v))
  have hm' := reads_perf h hm
  obtain ⟨st', hst', hstore⟩ := runI_bufStore (v := v) (mk := true) (logs := st.m.logAction (st.m.thr st.t) va v) hs hx hm'
  rw [hlog] at hst'
  refine ⟨st', hst', ?_⟩
  unfold barrierStore
  simp only [Bool.false_or]
  rw [runI_targetsEvac hphase, if_neg (by decide), runI_bind_ok (runI_get _), hcount, runI_snapshot (reads_phase hs hm')]
  exact hstore

/-! ### Stores to a field or an element, and to the stack -/

/-- A store of a target that is no list cell. -/
theorem runI_storeTarget {α : Type} {va : VAddr} {h : Option Cell} {x : Nat} {v : Cell} {k : Unit → IM α} (hs : s.plain c t = true)
    (hx : s.reach c t va needW = some x) (hr : reads s c t i st) :
    ∃ st', leftStores s c t i (s.thread c t) [storeEntry t x v ((s.mach c).logAction (s.thread c t) va v)] st' ∧
      runI (storeTarget { va := va, hand := false, hdr := h } v false >>= k) st = runI (k ()) st' := by
  obtain ⟨st1, h1, hxl⟩ := runI_xlate hx hr
  obtain ⟨st2, h2, -, -, hcommit⟩ := runI_commit h1
  obtain ⟨st3, h3, hstore⟩ := runI_barrierStore (va := va) (v := v) hs (reach_memory hx) h2
  refine ⟨st3, h3, runI_bind_ok ?_⟩
  unfold storeTarget
  rw [runI_bind_ok hxl, runI_bind_ok hcommit, if_neg (by simp)]
  exact hstore
/-- What a thread may store through a pointer (R158, R200). -/
theorem runI_limitStore {α : Type} {va : VAddr} {v : Cell} {code : Nat} {k : Unit → IM α}
    (hv : storable (s.thread c t).sup p (s.targetHdr c t p) v = true) (hr : reads s c t i st) :
    runI (limitStore p (s.target c t p va) v code >>= k) st = runI (k ()) st := by
  refine runI_bind_ok ?_
  unfold limitStore State.target
  rw [runI_getT_reads hr]
  unfold storable at hv
  simp only [Bool.and_eq_true] at hv
  obtain ⟨hmode, hkind⟩ := hv
  simp only [Bool.or_eq_true, Bool.and_eq_true, Bool.not_eq_true', decide_eq_true_eq] at hmode
  have hsealed : ¬ (!(s.thread c t).sup && userSealed (cellTag v)) = true := by
    rcases hmode with h | ⟨⟨h, -⟩, -⟩ <;> simp [h]
  have hcode : ¬ (!(s.thread c t).sup && (cellTag p = tCODE || cellTag p = tCRATE)) = true := by
    rcases hmode with h | ⟨⟨-, h⟩, h'⟩
    · simp [h]
    · simp [h, h']
  rw [runI_check_passes hsealed, runI_check_passes hcode]
  rcases hh : s.targetHdr c t p with _ | h
  · rfl
  · rw [hh] at hkind
    simp only [Bool.and_eq_true, Bool.not_eq_true', Bool.and_eq_false_iff] at hkind
    obtain ⟨himm, hseal⟩ := hkind
    dsimp only
    rw [runI_check_passes (by simp at himm ⊢; tauto)]
    rw [if_neg (by simp at hseal ⊢; tauto)]
    rfl
theorem isPtr_of_isHdrp : ∀ g : BitVec 6, isHdrp g = true → isPtr g = true := by decide
theorem st_stores {imm : BitVec 6} {va : VAddr} {x : Nat} (hs : s.plain c t = true) (hd : (s.thread c t).has d anyTag = true)
    (ha : (s.thread c t).has a isHdrp = true) (hf : s.fieldAt c t ((s.thread c t).reg a) imm.toNat true = some va)
    (hst : storable (s.thread c t).sup ((s.thread c t).reg a) (s.headerAt c t ((s.thread c t).reg a)) ((s.thread c t).reg d) = true)
    (hx : s.reach c t va needW = some x) : accesses (.st c t d a imm) s c t ((s.thread c t).complete .next)
      [storeEntry t x ((s.thread c t).reg d) ((s.mach c).logAction (s.thread c t) va ((s.thread c t).reg d))] := by
  have hptr := has_mono (g := isPtr) isPtr_of_isHdrp ha
  have hp := has_tag ha
  have hcell : ¬ (cellTag ((s.thread c t).reg a) = tCONS || cellTag ((s.thread c t).reg a) = tLOC) = true := by
    intro h
    simp only [Bool.or_eq_true, decide_eq_true_eq] at h
    rcases h with e | e <;>
    · rw [e] at hp
      exact absurd hp (by decide)
  obtain ⟨st1, h1, htarget⟩ := runI_fieldTarget hs hf (reads_workOn (i := iSAI 0x22 d a imm))
  obtain ⟨st2, h2, hstore⟩ := runI_storeTarget (h := s.targetHdr c t ((s.thread c t).reg a)) (v := (s.thread c t).reg d) (k := fun _ => pure Flow.next) hs hx h1
  refine accesses_of_stores (i := iSAI 0x22 d a imm) (f := .next) rfl hs nofun nofun nofun ?_ h2
  rw [runI_bind_ok (runI_operand_has hptr), runI_bind_ok (runI_operand_has hd), runI_bind_ok htarget, runI_limitStore (isHdrp_targetHdr hp ▸ hst) h1,
    Bool.eq_false_iff.mpr hcell]
  exact hstore
theorem stx_stores {va : VAddr} {x : Nat} (hs : s.plain c t = true) (hd : (s.thread c t).has d anyTag = true)
    (ha : (s.thread c t).has a isHdrp = true) (hb : (s.thread c t).has b fixTag = true)
    (hf : s.indexAt c t ((s.thread c t).reg a) ((s.thread c t).int b) = some va)
    (hst : storable (s.thread c t).sup ((s.thread c t).reg a) (s.headerAt c t ((s.thread c t).reg a)) ((s.thread c t).reg d) = true)
    (hx : s.reach c t va needW = some x) : accesses (.stx c t d a b) s c t ((s.thread c t).complete .next)
      [storeEntry t x ((s.thread c t).reg d) ((s.mach c).logAction (s.thread c t) va ((s.thread c t).reg d))] := by
  have hidx := has_mono (g := indexTag) (fun g h => by simp [indexTag, h]) ha
  have hp := has_tag ha
  obtain ⟨st1, h1, htarget⟩ := runI_indexTarget hs hp hf (reads_workOn (i := iSAB 0x23 d a b))
  obtain ⟨st2, h2, hstore⟩ := runI_storeTarget (h := s.targetHdr c t ((s.thread c t).reg a)) (v := (s.thread c t).reg d) (k := fun _ => pure Flow.next) hs hx h1
  refine accesses_of_stores (i := iSAB 0x23 d a b) (f := .next) rfl hs nofun nofun nofun ?_ h2
  rw [runI_bind_ok (runI_operand_has hidx), runI_bind_ok (runI_operand_has hb), runI_bind_ok (runI_operand_has hd)]
  refine (runI_bind_ok htarget).trans ?_
  rw [runI_limitStore (isHdrp_targetHdr hp ▸ hst) h1]
  exact hstore
/-- A store to a stack cell (R204). -/
theorem runI_stackStore {va : VAddr} {x : Nat} {v : Cell} (hs : s.plain c t = true) (hv : ((s.thread c t).sup || !userSealed (cellTag v)) = true)
    (hx : s.reach c t va needW = some x) (hr : reads s c t i st) :
    ∃ st', leftStores s c t i (s.thread c t) [storeEntry t x v ((s.mach c).logAction (s.thread c t) va v)] st' ∧
      runI (stackStore va v) st = (.ok (), st') := by
  obtain ⟨st1, h1, hxl⟩ := runI_xlate hx hr
  obtain ⟨st2, h2, -, -, hcommit⟩ := runI_commit h1
  obtain ⟨st3, h3, hstore⟩ := runI_barrierStore (va := va) (v := v) hs (reach_memory hx) h2
  refine ⟨st3, h3, ?_⟩
  have hsealed : ¬ (!(s.thread c t).sup && userSealed (cellTag v)) = true := by
    simp only [Bool.or_eq_true, Bool.not_eq_true'] at hv
    rcases hv with h | h <;> simp [h]
  unfold stackStore
  rw [runI_getT_reads hr, runI_check_passes hsealed, runI_bind_ok hxl, runI_bind_ok hcommit]
  exact hstore
theorem push_stores {x : Nat} (hs : s.plain c t = true) (hd : (s.thread c t).has d anyTag = true) (hsp : cellTag (s.thread c t).sp = tLOC)
    (hv : ((s.thread c t).sup || !userSealed (cellTag ((s.thread c t).reg d))) = true)
    (hx : s.reach c t (cellPay (s.thread c t).sp - 1#24) needW = some x) :
    accesses (.push c t d) s c t (((s.thread c t).setSp (loc (cellPay (s.thread c t).sp - 1#24))).complete .next)
      [storeEntry t x ((s.thread c t).reg d)
        ((s.mach c).logAction (s.thread c t) (cellPay (s.thread c t).sp - 1#24) ((s.thread c t).reg d))] := by
  obtain ⟨st1, h1, hstore⟩ := runI_stackStore (v := (s.thread c t).reg d) hs hv hx (reads_workOn (i := iS 0x29 d))
  obtain ⟨st2, h2, hset⟩ := runI_modT_stores (g := fun th => th.setSp (loc (cellPay (s.thread c t).sp - 1#24))) (k := fun _ => pure Flow.next) h1
  refine accesses_of_stores (i := iS 0x29 d) (f := .next) rfl hs nofun nofun nofun ?_ h2
  rw [runI_bind_ok (runI_operand_has hd), runI_stackPtr hsp reads_workOn, runI_bind_ok hstore]
  exact hset
theorem stsp_stores {n : BitVec 11} {x : Nat} (hs : s.plain c t = true) (hd : (s.thread c t).has d anyTag = true)
    (hsp : cellTag (s.thread c t).sp = tLOC) (hv : ((s.thread c t).sup || !userSealed (cellTag ((s.thread c t).reg d))) = true)
    (hx : s.reach c t (cellPay (s.thread c t).sp + n.setWidth 24) needW = some x) :
    accesses (.stsp c t d n) s c t ((s.thread c t).complete .next)
      [storeEntry t x ((s.thread c t).reg d)
        ((s.mach c).logAction (s.thread c t) (cellPay (s.thread c t).sp + n.setWidth 24) ((s.thread c t).reg d))] := by
  obtain ⟨st1, h1, hstore⟩ := runI_stackStore (v := (s.thread c t).reg d) hs hv hx (reads_workOn (i := iSL 0x2C d n))
  refine accesses_of_stores (i := iSL 0x2C d n) (f := .next) rfl hs nofun nofun nofun ?_ h1
  rw [runI_bind_ok (runI_operand_has hd), runI_stackPtr hsp reads_workOn, runI_bind_ok hstore]
  rfl

theorem storesEnterBuffer : bufferedStoresClaim := by
  intro s c t d a b imm n va k hs th p v at_ wb hd
  refine ⟨fun ha hf hst hx => st_stores hs hd ha hf hst hx, fun ha hb hf hst hx => stx_stores hs hd ha hb hf hst hx, fun hsp hv => ⟨?_, ?_⟩⟩
  · rintro rfl hx
    exact push_stores hs hd hsp hv hx
  · rintro rfl hx
    exact stsp_stores hs hd hsp hv hx

/-! ### ZLINE -/

/-- The entry of a line of FIX 0 (R230). -/
def zlineEntry (t : Fin 8) (x : Nat) : WbEntry :=
  { kind := .memory, line := x / 16, cells := (List.range 16).map (fun p => (p, fix0, false)), threads := thBit t, zline := true, logs := [] }
theorem zline_stores {h : Cell} {x : Nat} (hs : s.plain c t = true) (ha : (s.thread c t).has a (fun g => g = tVEC || g = tREC || isUP g) = true)
    (hb : (s.thread c t).has b fixTag = true) (hh : s.headerAt c t ((s.thread c t).reg a) = some h) (hlow : 0 ≤ (s.thread c t).int b)
    (hhigh : (s.thread c t).int b + 15 < hdrSize h)
    (hline : bits (cellPay ((s.thread c t).reg a) + 1#24 + cellPay ((s.thread c t).reg b)) 0 4 = 0)
    (hx : s.reach c t (cellPay ((s.thread c t).reg a) + 1#24 + cellPay ((s.thread c t).reg b)) needW = some x) :
    accesses (.zline c t a b) s c t ((s.thread c t).complete .next) [zlineEntry t x] := by
  obtain ⟨st1, h1, hhdr⟩ := runI_headerOf hs hh (reads_workOn (i := iAB 0x92 a b false))
  obtain ⟨st2, h2, hxl⟩ := runI_xlate hx h1
  obtain ⟨st3, h3, -, -, hcommit⟩ := runI_commit h2
  obtain ⟨st4, h4, hadd⟩ := runI_wbAdd (f := fun m => m.wbAdd st3.t (m.wbKind x) (x / 16) zeroLine true []) (kind := .memory) hs h3
    (by rw [reads_wbKind (reach_memory hx) h3, h3.who])
  have hcells : zeroLine = (List.range 16).map (fun p => (p, fix0, false)) := by decide
  rw [hcells] at h4
  refine accesses_of_stores (i := iAB 0x92 a b false) (f := .next) rfl hs nofun nofun nofun ?_ h4
  have hin : ¬ (fixInt (cellPay ((s.thread c t).reg b)) < 0 || fixInt (cellPay ((s.thread c t).reg b)) + 15 ≥ (hdrSize h : Int) ||
      bits (cellPay ((s.thread c t).reg a) + 1#24 + cellPay ((s.thread c t).reg b)) 0 4 ≠ 0) = true := by
    simp only [Thread.int] at hlow hhigh
    simp [hline]
    omega
  rw [runI_bind_ok (runI_operand_has ha), runI_bind_ok (runI_operand_has hb), runI_bind_ok hhdr]
  dsimp only
  rw [runI_check_passes hin, runI_bind_ok hxl, runI_bind_ok hcommit, runI_bind_ok (runI_get _)]
  have hphase := reads_phase hs h3
  split
  · rw [hphase, if_neg (by simp)]
    exact runI_bind_ok hadd
  · exact runI_bind_ok hadd
theorem zline_faults {h : Cell} (hs : s.plain c t = true) (ha : (s.thread c t).has a (fun g => g = tVEC || g = tREC || isUP g) = true)
    (hb : (s.thread c t).has b fixTag = true) (hh : s.headerAt c t ((s.thread c t).reg a) = some h)
    (hout : (s.thread c t).int b < 0 ∨ hdrSize h ≤ (s.thread c t).int b + 15 ∨
      bits (cellPay ((s.thread c t).reg a) + 1#24 + cellPay ((s.thread c t).reg b)) 0 4 ≠ 0) :
    accesses (.zline c t a b) s c t ((s.thread c t).raiseSync 4#10 (fixN 1) (cellA 0x92 0 a b false) 0#2) [] := by
  obtain ⟨st1, h1, hhdr⟩ := runI_headerOf hs hh (reads_workOn (i := iAB 0x92 a b false))
  refine accesses_of_fault (i := iAB 0x92 a b false) rfl hs nofun ?_ h1
  have hbad : (fixInt (cellPay ((s.thread c t).reg b)) < 0 || fixInt (cellPay ((s.thread c t).reg b)) + 15 ≥ (hdrSize h : Int) ||
      bits (cellPay ((s.thread c t).reg a) + 1#24 + cellPay ((s.thread c t).reg b)) 0 4 ≠ 0) = true := by
    simp only [Bool.or_eq_true, decide_eq_true_eq, ge_iff_le]
    simpa [or_assoc, Thread.int] using hout
  rw [runI_bind_ok (runI_operand_has ha), runI_bind_ok (runI_operand_has hb), runI_bind_ok hhdr]
  exact runI_check_fails hbad

theorem zeroLines : zeroLineClaim := by
  intro s c t a b h k hs th va ha hb hh
  exact ⟨fun hlow hhigh hline hx => zline_stores hs ha hb hh hlow hhigh hline hx, fun hout => zline_faults hs ha hb hh hout⟩
end

/-- Settles O30: the translated cells enter the empty buffer as one entry. -/
theorem bufferedStores : Obligations.BufferedStores := ⟨storesEnterBuffer, zeroLines⟩

end Sys2Proof.Machine
end

section
/-! Stores whose step reads its target: checked stores, CAS, STB and RPLACD (R201, R202, R233, R330). -/
namespace Sys2Proof.Machine

section
variable {s : State} {c : Chan} {t : Fin 8} {i : Ins} {st : IS} {d a b : Reg} {p : Cell} {ins : Instr} {th : Thread}

theorem stepsOnly_of_looks {k : Fin 2} {m n : Mach} (h : looksOnly k m n) : stepsOnly m n := by
  obtain ⟨hn, -⟩ := h
  constructor
  · rw [hn]
    simp [Mach.looked, Mach.served, Mach.stepped, Mach.setCore]
  · intro j
    have hcore : n.core j = (m.looked n k).core j := congrArg (fun x : Mach => x.core j) hn
    rw [hcore, Mach.looked]
    by_cases hj : j = k
    · rw [hj, core_setCore]
    · rw [core_setCore_ne _ _ _ _ hj]
      rfl
theorem looks_supplies {k : Fin 2} {m n x : Mach} (h : looksOnly k m n) (h' : suppliesOnly n x) : looksOnly k m x :=
  looksOnly_trans h (looksOnly_of_serves (servesOnly_of_supplies h'))
theorem reads_serves {n : Mach} (h : reads s c t i st) (hn : servesOnly st.m n) : reads s c t i { st with m := n } := by
  have hl := looksOnly_of_serves (k := coreOf t) hn
  refine ⟨h.who, looksOnly_trans h.slice hl, fun u hu => ?_⟩
  exact marked_sameTlb hl.2.2.1 (h.used u hu)

/-! ### Reads of a step, and forwards met after COMMIT -/

/-- The read of an indivisible step (R317, R330). -/
theorem runI_stepRead {x : Nat} (hx : (s.chan c).place x = .memory) (h : reads s c t i st) :
    ∃ st', reads s c t i st' ∧ runI (stepRead { phys := x, typ := 0#2 }) st = (.ok (s.cell c x), st') := by
  refine ⟨_, reads_serves h (coreRead_serves st.m (coreOf t) (x / 16) 0#2 false), ?_⟩
  unfold stepRead
  rw [runI_bind_ok (runI_myCore _), h.who, runI_bind_ok (runI_getM _), reads_place h, hx]
  dsimp only
  rw [runI_useM]
  exact Prod.ext (congrArg Except.ok ((coreRead_cell st.m (coreOf t) x 0#2 false).trans (reads_cell h hx))) (by rw [h.who])
theorem runI_commitLate (us : List (TlbEntry × Bool × VAddr)) {st : IS} (h : ∀ u ∈ us, marked (st.m.core (coreOf st.t)).tlb u) :
    runI (commitLate us) st = (.ok (), st) := by
  induction us with
  | nil => rfl
  | cons u r ih =>
    obtain ⟨e, w, va⟩ := u
    have hu := h _ List.mem_cons_self
    unfold commitLate
    rw [runI_bind_ok (runI_myCore _), runI_bind_ok (runI_useM _ _), adUpdate_marked hu]
    exact ih fun x hx => h x (List.mem_cons_of_mem _ hx)
theorem reads_unused (h : reads s c t i st) : reads s c t i { st with used := [] } :=
  ⟨h.who, h.slice, fun _ hu => absurd hu List.not_mem_nil⟩
/-- A translation met after COMMIT (R246). -/
theorem runI_xlateLate {va : VAddr} {need : Need} {x : Nat} (hx : s.reach c t va need = some x) (h : reads s c t i st) :
    ∃ st', reads s c t i st' ∧ runI (xlateLate va need) st = (.ok { phys := x, typ := 0#2 }, st') := by
  obtain ⟨st1, h1, hxl⟩ := runI_xlate hx (reads_unused h)
  refine ⟨_, reads_unused h1, ?_⟩
  unfold xlateLate
  rw [runI_bind_ok (runI_modify _ _), runI_bind_ok hxl, runI_bind_ok (runI_get _), runI_bind_ok (runI_modify _ _)]
  refine (runI_bind_ok (runI_commitLate st1.used ?_)).trans rfl
  rw [show ({ st1 with used := [] } : IS).t = t from h1.who]
  exact h1.used
theorem runI_drainThread {α : Type} {k : Unit → IM α} (hs : s.plain c t = true) (h : reads s c t i st) :
    runI (modM (fun m => m.drainThread t) >>= k) st = runI (k ()) st := by
  rw [runI_bind_ok (runI_modM _ _), drainThread_empty (reads_wb hs h)]

/-! ### The step that stores -/

/-- An instruction has stored v at address k and nothing elsewhere, and has left its thread as th. -/
def leftStored (s : State) (c : Chan) (t : Fin 8) (i : Ins) (th : Thread) (k : Nat) (v : Cell) (st : IS) : Prop :=
  st.t = t ∧ stepsOnly ((s.begun c t i).setThr t th) st.m ∧ ∀ b, st.m.peek b = if b = k then v else s.cell c b
theorem storesAt_of_left {w : IM Flow} {f : Flow} {r : IS} {k : Nat} {v : Cell} (hex : exec ins s = .next (s.issue c t i w))
    (h : s.ready c t = true) (hsup : i.sup = true → (s.thread c t).sup = true) (hf : f ≠ .stay) (hf' : f ≠ .resume)
    (hw : runI w (workOn s c t i) = (.ok f, r)) (hr : leftStored s c t i th k v r) : storesAt ins s c t (th.complete f) k v := by
  obtain ⟨-, hsteps, hcell⟩ := hr
  obtain ⟨s', hex', honly, -, hpeek, -⟩ := stepsAt_of_run hex h hsup hf hf' hw hsteps.1
  refine ⟨s', hex', honly, ?_, fun b hb => ?_⟩
  · rw [hpeek, hcell, if_pos rfl]
  · rw [hpeek, hcell, if_neg hb]
theorem runI_modT_stored {α : Type} {g : Thread → Thread} {k : Nat} {v : Cell} {f : Unit → IM α} (h : leftStored s c t i th k v st) :
    ∃ st', leftStored s c t i (g th) k v st' ∧ runI (modT g >>= f) st = runI (f ()) st' := by
  obtain ⟨hwho, ⟨hm, hwb⟩, hcell⟩ := h
  have hthr : st.m.thr t = th := by
    rw [hm]
    exact thr_setThr _ t th
  refine ⟨{ st with m := st.m.setThr t (g th) }, ⟨hwho, ⟨?_, hwb⟩, fun b => (hcell b).symm ▸ rfl⟩, ?_⟩
  · rw [hm]
    simp [Mach.setThr, Mach.stepped]
  · rw [runI_bind_ok (runI_modT _ _), hwho, hthr]
theorem runI_stepActions {va : VAddr} {old v : Cell} (hs : s.plain c t = true) (h : reads s c t i st)
    (hlog : (s.mach c).logAction (s.thread c t) va v = []) : runI (stepActions va old v) st = (.ok (), st) := by
  have hlog' : st.m.logAction (st.m.thr st.t) va v = [] := by rw [reads_self h, reads_logAction h, hlog]
  unfold stepActions
  rw [runI_bind_ok (runI_get _)]
  dsimp only
  rw [hlog']
  refine (runI_bind_ok (a := ()) (s := st) rfl).trans ((runI_bind_ok (runI_modM _ _)).trans ?_)
  show runI (match st.m.spaceOf (st.m.thr st.t) with | some sl => modM (fun m => m.snapAct st.t sl old) | none => pure ()) st = _
  split
  · rw [runI_modM, idle_snapAct (reads_phase hs h)]
  · rfl
/-- What a slice reads after a cell is written by the thread's core. -/
theorem left_cellStep {m : Mach} {x : Nat} {v : Cell} {mk : Bool} (hx : (s.chan c).place x = .memory) (h : reads s c t i st)
    (hm : perfOnly st.m m) : leftStored s c t i (s.thread c t) x (writtenOver (some (v, mk)) (s.cell c x))
      { st with m := m.cellStep (coreAgent (coreOf t)) x v mk } := by
  have hm' := reads_perf h hm
  have hplace : m.ch.place x = .memory := (reads_place hm' x).trans hx
  refine ⟨h.who, ?_, fun b => ?_⟩
  · have hself : (s.begun c t i).setThr t (s.thread c t) = s.begun c t i := setThr_thr _ _
    rw [hself]
    exact stepsOnly_trans (stepsOnly_of_looks hm'.slice) (cellStep_steps (coreAgent_ne _) hplace v mk)
  · have hread : m.peek b = s.cell c b := peek_of_looks hm'.slice b
    dsimp only
    rw [peek_cellStep (coreAgent_ne _) hplace, hread]
    by_cases hb : b = x
    · rw [if_pos hb, if_pos hb, hb]
    · rw [if_neg hb, if_neg hb]
theorem bumpTIf_perf (m : Mach) (g : Bool) (u : Fin 8) (e : Nat) : perfOnly m (m.bumpTIf g u e) := by
  cases g
  · exact perfOnly_refl m
  · exact bumpT_perfOnly m u e
theorem runI_finishChecked {va : VAddr} {old v : Cell} {mk cnt : Bool} {x : Nat} (hs : s.plain c t = true) (hx : (s.chan c).place x = .memory)
    (h : reads s c t i st) (hlog : (s.mach c).logAction (s.thread c t) va v = []) :
    ∃ st', leftStored s c t i (s.thread c t) x (writtenOver (some (v, mk)) (s.cell c x)) st' ∧
      runI (checkedStore.finishChecked v mk cnt va { phys := x, typ := 0#2 } old) st = (.ok (), st') := by
  refine ⟨_, left_cellStep hx h (bumpTIf_perf st.m cnt t 80), ?_⟩
  unfold checkedStore.finishChecked
  rw [runI_bind_ok (runI_get _), runI_bind_ok (runI_stepActions hs h hlog)]
  exact (runI_modM _ _).trans (by rw [h.who])
/-- A checked store ends where the forwards it meets lead (R179, R330). -/
theorem runI_checkedStore {v : Cell} {mk cnt : Bool} (hs : s.plain c t = true) : ∀ (n : Nat) {va w : VAddr} {x y : Nat} {st : IS},
    s.reach c t va needW = some x → s.chase c t needW n va = some (w, y) → (s.mach c).logAction (s.thread c t) w v = [] → reads s c t i st →
    ∃ st', leftStored s c t i (s.thread c t) y (writtenOver (some (v, mk)) (s.cell c y)) st' ∧
      runI (checkedStore va v mk cnt n { phys := x, typ := 0#2 }) st = (.ok (), st') := by
  intro n
  induction n with
  | zero =>
    intro va w x y st hreach hchase hlog h
    obtain ⟨hfwd, heq⟩ := chase_zero hreach hchase
    obtain ⟨rfl, rfl⟩ := Prod.mk.injEq .. ▸ heq
    obtain ⟨st1, h1, hread⟩ := runI_stepRead (reach_memory hreach) h
    obtain ⟨st2, h2, hfin⟩ := runI_finishChecked (old := s.cell c x) (mk := mk) (cnt := cnt) hs (reach_memory hreach) h1 hlog
    refine ⟨st2, h2, ?_⟩
    unfold checkedStore
    rw [runI_bind_ok hread, runI_check_passes hfwd]
    exact hfin
  | succ n ih =>
    intro va w x y st hreach hchase hlog h
    obtain ⟨st1, h1, hread⟩ := runI_stepRead (reach_memory hreach) h
    unfold checkedStore
    rw [runI_bind_ok (runI_me _), h.who, runI_drainThread hs h, runI_bind_ok hread]
    rcases chase_succ hreach hchase with ⟨hfwd, heq⟩ | ⟨hfwd, hchase'⟩
    · obtain ⟨rfl, rfl⟩ := Prod.mk.injEq .. ▸ heq
      rw [if_neg hfwd]
      exact runI_finishChecked hs (reach_memory hreach) h1 hlog
    · obtain ⟨x', hreach'⟩ := chase_reach hchase'
      have h2 := reads_perf h1 (bumpTIf_perf st1.m cnt t 81)
      obtain ⟨st3, h3, hx⟩ := runI_xlateLate hreach' h2
      obtain ⟨st4, h4, hrest⟩ := ih hreach' hchase' hlog h3
      refine ⟨st4, h4, ?_⟩
      rw [if_pos hfwd, runI_bind_ok (runI_modM _ _), runI_bind_ok hx]
      exact hrest

/-! ### ST through a list pointer -/

theorem target_of_cell (hp : cellTag p = tCONS ∨ cellTag p = tLOC) : s.targetHdr c t p = none := by
  unfold State.targetHdr
  exact if_pos (by simpa using hp)
theorem isPtr_of_cell (hp : cellTag p = tCONS ∨ cellTag p = tLOC) : isPtr (cellTag p) = true ∧ isReserved p = false ∧ cellTag p ≠ tPSN := by
  have hcons : isPtr tCONS = true ∧ isReservedTag tCONS = false ∧ tCONS ≠ tCONST ∧ tCONS ≠ tPSN := by decide
  have hloc : isPtr tLOC = true ∧ isReservedTag tLOC = false ∧ tLOC ≠ tCONST ∧ tLOC ≠ tPSN := by decide
  unfold isReserved
  rcases hp with h | h <;> simp [h, hcons, hloc]
theorem has_cell (hp : cellTag ((s.thread c t).reg a) = tCONS ∨ cellTag ((s.thread c t).reg a) = tLOC) {ok : BitVec 6 → Bool}
    (hok : ok (cellTag ((s.thread c t).reg a)) = true) : (s.thread c t).has a ok = true := by
  obtain ⟨-, hres, hpsn⟩ := isPtr_of_cell hp
  simp [Thread.has, hres, hpsn, hok]
theorem storable_cell {v : Cell} (hp : cellTag p = tCONS ∨ cellTag p = tLOC) (hv : ((s.thread c t).sup || !userSealed (cellTag v)) = true) :
    storable (s.thread c t).sup p none v = true := by
  have hno : (cellTag p ≠ tCODE && cellTag p ≠ tCRATE) = true := by
    rcases hp with h | h <;>
    · rw [h]
      decide
  unfold storable
  simp only [Bool.and_assoc, hno, Bool.and_true]
  exact hv
theorem st_checked {va : VAddr} {k : Nat} (hs : s.plain c t = true)
    (hp : cellTag ((s.thread c t).reg a) = tCONS ∨ cellTag ((s.thread c t).reg a) = tLOC) (hd : (s.thread c t).has d anyTag = true)
    (hv : ((s.thread c t).sup || !userSealed (cellTag ((s.thread c t).reg d))) = true)
    (hchase : s.chase c t needW 8 (cellPay ((s.thread c t).reg a)) = some (va, k))
    (hlog : (s.mach c).logAction (s.thread c t) va ((s.thread c t).reg d) = []) :
    storesAt (.st c t d a 0#6) s c t ((s.thread c t).complete .next) k (withCdr ((s.thread c t).reg d) (cellCdr (s.cell c k))) := by
  obtain ⟨x, hreach⟩ := chase_reach hchase
  have hfield : s.fieldAt c t ((s.thread c t).reg a) (0#6).toNat true = some (cellPay ((s.thread c t).reg a)) := by
    unfold State.fieldAt
    rw [if_pos (by simpa using hp)]
    rfl
  obtain ⟨st1, h1, htarget⟩ := runI_fieldTarget hs hfield (reads_workOn (i := iSAI 0x22 d a 0#6))
  obtain ⟨st2, h2, hxl⟩ := runI_xlate hreach h1
  obtain ⟨st3, h3, -, -, hcommit⟩ := runI_commit h2
  obtain ⟨st4, h4, hstore⟩ := runI_checkedStore (mk := true) (cnt := true) hs 8 hreach hchase hlog h3
  refine storesAt_of_left (i := iSAI 0x22 d a 0#6) (f := .next) rfl (plain_ready hs) nofun nofun nofun ?_ h4
  rw [runI_bind_ok (runI_operand_has (has_cell hp (isPtr_of_cell hp).1)), runI_bind_ok (runI_operand_has hd), runI_bind_ok htarget,
    runI_limitStore (by rw [target_of_cell hp]; exact storable_cell hp hv) h1]
  refine (runI_bind_ok (a := ()) (s := st4) ?_).trans rfl
  unfold storeTarget
  refine (runI_bind_ok hxl).trans ((runI_bind_ok hcommit).trans ?_)
  rw [if_neg (by simp)]
  unfold barrierStore
  rw [runI_targetsEvac (reads_phase hs h3), if_pos (by simpa using hp)]
  exact hstore
theorem checkedStores : checkedStoreClaim := by
  intro s c t d a va k hs th p v hp hd hv hchase hlog
  exact st_checked hs hp hd hv hchase hlog

/-! ### CAS -/

/-- The forwards of a read that is one step of CAS are followed as `chase` follows them (R179, R201). -/
theorem runI_readFwdStep {need : Need} : ∀ (n : Nat) {va w : VAddr} {x y : Nat} {st : IS},
    s.reach c t va need = some x → s.chase c t need n va = some (w, y) → reads s c t i st →
    ∃ st', reads s c t i st' ∧
      runI (readFwdBy stepRead va need n { phys := x, typ := 0#2 }) st = (.ok (s.cell c y, w, { phys := y, typ := 0#2 }), st') := by
  intro n
  induction n with
  | zero =>
    intro va w x y st hreach hchase h
    obtain ⟨hfwd, heq⟩ := chase_zero hreach hchase
    obtain ⟨rfl, rfl⟩ := Prod.mk.injEq .. ▸ heq
    obtain ⟨st', h', hread⟩ := runI_stepRead (reach_memory hreach) h
    refine ⟨st', h', ?_⟩
    unfold readFwdBy
    rw [runI_bind_ok hread, runI_check_passes hfwd]
    rfl
  | succ n ih =>
    intro va w x y st hreach hchase h
    obtain ⟨st', h', hread⟩ := runI_stepRead (reach_memory hreach) h
    unfold readFwdBy
    rw [runI_bind_ok hread]
    rcases chase_succ hreach hchase with ⟨hfwd, heq⟩ | ⟨hfwd, hchase'⟩
    · obtain ⟨rfl, rfl⟩ := Prod.mk.injEq .. ▸ heq
      rw [if_neg hfwd]
      exact ⟨st', h', rfl⟩
    · obtain ⟨x', hreach'⟩ := chase_reach hchase'
      have hcount : reads s c t i { st' with fwds := st'.fwds + 1 } := ⟨h'.who, h'.slice, h'.used⟩
      obtain ⟨st2, h2, hx⟩ := runI_xlate hreach' hcount
      obtain ⟨st3, h3, hrest⟩ := ih hreach' hchase' h2
      refine ⟨st3, h3, ?_⟩
      rw [if_pos hfwd, runI_bind_ok (runI_modify _ _), runI_bind_ok hx]
      exact hrest
theorem runI_stepWrite {va : VAddr} {old v : Cell} {x : Nat} (hs : s.plain c t = true) (hx : (s.chan c).place x = .memory)
    (h : reads s c t i st) (hlog : (s.mach c).logAction (s.thread c t) va v = []) :
    ∃ st', leftStored s c t i (s.thread c t) x (withCdr v (cellCdr (s.cell c x))) st' ∧
      runI (stepWrite va { phys := x, typ := 0#2 } old v) st = (.ok (), st') := by
  refine ⟨_, left_cellStep (v := v) (mk := true) hx h (perfOnly_refl st.m), ?_⟩
  unfold stepWrite
  rw [runI_bind_ok (runI_get _), runI_bind_ok (runI_stepActions hs h hlog)]
  exact (runI_modM _ _).trans (by rw [h.who])
theorem chase_memory {need : Need} : ∀ {n : Nat} {va w : VAddr} {y : Nat}, s.chase c t need n va = some (w, y) → (s.chan c).place y = .memory := by
  intro n
  induction n with
  | zero =>
    intro va w y h
    obtain ⟨x, hreach⟩ := chase_reach h
    obtain ⟨-, heq⟩ := chase_zero hreach h
    obtain ⟨rfl, rfl⟩ := Prod.mk.injEq .. ▸ heq
    exact reach_memory hreach
  | succ n ih =>
    intro va w y h
    obtain ⟨x, hreach⟩ := chase_reach h
    rcases chase_succ hreach h with ⟨-, heq⟩ | ⟨-, h'⟩
    · obtain ⟨rfl, rfl⟩ := Prod.mk.injEq .. ▸ heq
      exact reach_memory hreach
    · exact ih h'
/-- CAS up to its comparison. -/
theorem runI_cas {va : VAddr} {k : Nat} (hs : s.plain c t = true)
    (hp : cellTag ((s.thread c t).reg a) = tCONS ∨ cellTag ((s.thread c t).reg a) = tLOC) (hb : (s.thread c t).has b anyTag = true)
    (hd : (s.thread c t).has d anyTag = true) (hv : ((s.thread c t).sup || !userSealed (cellTag ((s.thread c t).reg b))) = true)
    (hchase : s.chase c t needRW 8 (cellPay ((s.thread c t).reg a)) = some (va, k)) (hres : isReserved (s.cell c k) = false) :
    ∃ (w : IM Flow) (st : IS), exec (.cas c t d a b) s = .next (s.issue c t (iDAB 0x24 d a b false) w) ∧ reads s c t (iDAB 0x24 d a b false) st ∧
      runI w (workOn s c t (iDAB 0x24 d a b false)) = runI (do
        if cellTag (s.cell c k) = tPSN then
          stepWrite va { phys := k, typ := 0#2 } (s.cell c k) ((s.thread c t).reg b)
          setD d cUNBOUND
        else
          if sameValue (s.cell c k) ((s.thread c t).reg d) then stepWrite va { phys := k, typ := 0#2 } (s.cell c k) ((s.thread c t).reg b)
          else modM (fun m => m.bumpT t 44)
          postHeal none
          setD d (s.cell c k)
        return .next) st := by
  obtain ⟨x, hreach⟩ := chase_reach hchase
  obtain ⟨st1, h1, hxl⟩ := runI_xlate hreach (reads_workOn (i := iDAB 0x24 d a b false))
  obtain ⟨st2, h2, hread⟩ := runI_readFwdStep 8 hreach hchase h1
  obtain ⟨st3, h3, -, -, hcommit⟩ := runI_commit h2
  refine ⟨_, st3, rfl, h3, ?_⟩
  have hsealed : ¬ (!(s.thread c t).sup && userSealed (cellTag ((s.thread c t).reg b))) = true := by
    simp only [Bool.or_eq_true, Bool.not_eq_true'] at hv
    rcases hv with h | h <;> simp [h]
  rw [runI_bind_ok (runI_operand_has (has_cell hp (by rcases hp with h | h <;> simp [h]))), runI_bind_ok (runI_operand_has hb),
    runI_bind_ok (runI_operand_has hd), runI_bind_ok (runI_me _)]
  refine (runI_drainThread hs reads_workOn).trans ((runI_bind_ok hxl).trans ((runI_bind_ok hread).trans ?_))
  rw [runI_getT_reads h2, runI_check_passes hsealed, runI_check_passes (by simp [hres]), runI_loadBarrier hs h2, runI_bind_ok hcommit]
  exact runI_drainThread hs h3
theorem runI_bumpT {α : Type} {u : Fin 8} {e : Nat} {k : Unit → IM α} (h : reads s c t i st) :
    ∃ st', reads s c t i st' ∧ runI (modM (fun m => m.bumpT u e) >>= k) st = runI (k ()) st' :=
  ⟨_, reads_perf h (bumpT_perfOnly st.m u e), runI_bind_ok (runI_modM _ _)⟩
theorem compareAndSwap : compareAndSwapClaim := by
  intro s c t d a b va k hs th p old new hp hb hd hv hchase hlog hres
  obtain ⟨w, st, hex, h, hw⟩ := runI_cas hs hp hb hd hv hchase hres
  have hmem : (s.chan c).place k = .memory := chase_memory hchase
  obtain ⟨st1, h1, hwrite⟩ := runI_stepWrite (old := s.cell c k) hs hmem h hlog
  refine ⟨fun hpsn => ?_, fun hpsn htag hpay => ?_, fun hpsn hne => ?_⟩
  · obtain ⟨st2, h2, hset⟩ := runI_modT_stored (g := fun th => th.setReg d cUNBOUND) (f := fun _ => pure Flow.next) h1
    refine storesAt_of_left (f := .next) hex (plain_ready hs) nofun nofun nofun ?_ h2
    rw [hw, if_pos hpsn, runI_bind_ok hwrite]
    exact hset
  · obtain ⟨st2, h2, hset⟩ := runI_modT_stored (g := fun th => th.setReg d (s.cell c k)) (f := fun _ => pure Flow.next) h1
    refine storesAt_of_left (f := .next) hex (plain_ready hs) nofun nofun nofun ?_ h2
    have hsame : sameValue (s.cell c k) ((s.thread c t).reg d) = true := by
      unfold sameValue
      simp only [Bool.and_eq_true, decide_eq_true_eq]
      exact ⟨htag, hpay⟩
    rw [hw, if_neg hpsn, if_pos hsame, runI_bind_ok hwrite]
    exact hset
  · obtain ⟨st2, h2, hbump⟩ := runI_bumpT (u := t) (e := 44) (k := fun _ => do postHeal none; setD d (s.cell c k); pure Flow.next) h
    obtain ⟨st3, h3, hset⟩ := runI_setD_left (d := d) (v := s.cell c k) (k := fun _ => pure Flow.next) (left_of_reads h2)
    refine accesses_of_left (f := .next) hex hs nofun nofun nofun ?_ h3
    have hsame : ¬ sameValue (s.cell c k) ((s.thread c t).reg d) = true := by
      unfold sameValue
      simp only [Bool.and_eq_true, decide_eq_true_eq]
      exact hne
    rw [hw, if_neg hpsn, if_neg hsame]
    exact hbump.trans hset

/-! ### RPLACD -/

/-- RPLACD up to the list cell it reads, with its checks. -/
theorem runI_rplacd {α : Type} {va : VAddr} {v : Cell} {k : Cell → Cell × VAddr × Xl → IM α} (hs : s.plain c t = true)
    (ha : cellTag ((s.thread c t).reg a) = tCONS) (hres : isReserved v = false) (hb : (s.thread c t).has b anyTag = true)
    (hy : ((s.thread c t).sup || !userSealed (cellTag ((s.thread c t).reg b))) = true)
    (hfound : s.found c t (cellPay ((s.thread c t).reg a)) = some (va, v)) (hpsn : cellTag v ≠ tPSN) (hcdr : cellCdr v ≠ 3#2) :
    ∃ st x, reads s c t i st ∧ runI (do
        let p ← operand 0 a (fun g => g = tCONS)
        let y ← operand 1 b anyTag
        let r ← readAt (cellPay p) needR
        limitSource y 1
        listCheck r.1
        k y r) (workOn s c t i) = runI (k ((s.thread c t).reg b) (v, va, { phys := x, typ := 0#2 })) st := by
  obtain ⟨st, x, h, hread⟩ := runI_readAt hs hfound (reads_workOn (i := i))
  have hload : loadable v = true := by simp [loadable, hpsn, hres]
  have hlimit : runI (limitSource ((s.thread c t).reg b) 1) st = (.ok (), st) := by
    have hsealed : ¬ (!(s.thread c t).sup && userSealed (cellTag ((s.thread c t).reg b))) = true := by
      simp only [Bool.or_eq_true, Bool.not_eq_true'] at hy
      rcases hy with h | h <;> simp [h]
    unfold limitSource
    rw [runI_getT_reads h, if_neg hsealed]
    rfl
  have hcheck : runI (listCheck v) st = (.ok (), st) := by
    unfold listCheck
    rw [runI_checkLoaded hload]
    exact congrArg (fun x : IM Unit => runI x st) (if_neg hcdr)
  refine ⟨st, x, h, ?_⟩
  rw [runI_bind_ok (runI_operand_has (has_of_tag ha (by decide) (by decide))), runI_bind_ok (runI_operand_has hb), runI_bind_ok hread,
    runI_bind_ok hlimit, runI_bind_ok hcheck]
theorem replaceCdr : replaceCdrClaim := by
  intro s c t a b va w v k hs
  dsimp only
  intro ha hres hb hy hfound hpsn
  refine ⟨fun hcdr hchase hlog => ?_, fun hsame => ?_⟩
  · obtain ⟨x, hreach⟩ := chase_reach hchase
    obtain ⟨st1, z, h1, hw⟩ := runI_rplacd (i := iAB 0x84 a b false) (k := _) hs ha hres hb hy hfound hpsn (by rw [hcdr]; decide)
    obtain ⟨st2, h2, hxl⟩ := runI_xlate hreach h1
    obtain ⟨st3, h3, -, -, hcommit⟩ := runI_commit h2
    obtain ⟨st4, h4, hstore⟩ := runI_checkedStore (mk := true) (cnt := false) hs 8 hreach hchase hlog h3
    refine storesAt_of_left (i := iAB 0x84 a b false) (f := .next) rfl (plain_ready hs) nofun nofun nofun ?_ h4
    refine hw.trans ?_
    rw [if_pos hcdr, runI_bind_ok hxl, runI_bind_ok hcommit, runI_bind_ok hstore]
    rfl
  · have hcdr : cellCdr v ≠ 0#2 ∧ cellCdr v ≠ 3#2 := by
      rcases hsame with ⟨h, -, -⟩ | ⟨h, -, -⟩ <;>
      · rw [h]
        decide
    obtain ⟨st1, z, h1, hw⟩ := runI_rplacd (i := iAB 0x84 a b false) (k := _) hs ha hres hb hy hfound hpsn hcdr.2
    obtain ⟨st2, h2, -, -, hcommit⟩ := runI_commit h1
    refine accesses_of_left (i := iAB 0x84 a b false) (f := .next) rfl hs nofun nofun nofun ?_ (left_of_reads h2)
    refine hw.trans ?_
    rw [if_neg hcdr.1, if_pos (by simpa [isNil, and_assoc] using hsame), runI_bind_ok hcommit]
    rfl

/-! ### STB -/

/-- What addresses read once one memory cell has been written. -/
theorem peek_of_memCell {m n : Mach} {x : Nat} {v : Cell} (hn : n = m.stepped n) (hx : m.ch.place x = .memory)
    (hcell : ∀ b, n.memCell b = if b = x then v else m.memCell b) (b : Nat) : n.peek b = if b = x then v else m.peek b := by
  by_cases hb : m.ch.place b = .memory
  · rw [peek_memory ((stepped_place hn b).trans hb), peek_memory hb, hcell]
  · rw [peek_of_stepped hn hb, if_neg fun h => hb (by rw [h]; exact hx)]
theorem mirrorByte_steps (m : Mach) (x : Nat) (j : Fin 3) (b : Byte) : stepsOnly m (m.mirrorByte x j b) := by
  unfold Mach.mirrorByte Mach.sendMirror
  split <;> exact ⟨rfl, fun _ => rfl⟩
theorem memCell_mirrorByte (m : Mach) (x : Nat) (j : Fin 3) (v : Byte) (b : Nat) : (m.mirrorByte x j v).memCell b = m.memCell b := by
  unfold Mach.mirrorByte Mach.sendMirror
  split <;> rfl
/-- The write of one whole memory cell and what a byte write sends with it (R393). -/
def Mach.bytePlace (m : Mach) (k : Fin 2) (x : Nat) (v : Cell) (j : Fin 3) (b : Byte) : Mach :=
  (({ m with ch.proc.granted := coreAgent k } : Mach).memPlace (coreAgent k) (x / 16) [(x % 16, v, false)]).mirrorByte x j b
theorem bytePlace_steps (m : Mach) (k : Fin 2) (x : Nat) (v : Cell) (j : Fin 3) (b : Byte) : stepsOnly m (m.bytePlace k x v j b) := by
  have hplace := memPlace_steps (ag := coreAgent k) { m with ch.proc.granted := coreAgent k } (x / 16) [(x % 16, v, false)]
  rw [coreTurn_eq (coreAgent_ne k)] at hplace
  exact stepsOnly_trans (grant_steps m (coreAgent k)) (stepsOnly_trans hplace (mirrorByte_steps _ _ _ _))
theorem memCell_bytePlace (m : Mach) (k : Fin 2) (x : Nat) (v : Cell) (j : Fin 3) (n : Byte) (b : Nat) :
    (m.bytePlace k x v j n).memCell b = if b = x then v else m.memCell b := by
  unfold Mach.bytePlace
  rw [memCell_mirrorByte, memCell_memPlace]
  by_cases hb : b = x
  · rw [if_pos hb, if_pos (by rw [hb]), hb]
    simp [mapGet, writtenOver]
  · rw [if_neg hb]
    split
    · next hline =>
      have hpos : ¬ x % 16 = b % 16 := by omega
      simp only [mapGet, hpos, if_false, writtenOver]
      rfl
    · rfl
/-- A byte of a sound memory cell is replaced (R393). -/
theorem byteMem_done {m : Mach} {k : Fin 2} {x : Nat} {j : Fin 3} {n : Nat} (hx : m.ch.place x = .memory) (hl : loadable (m.memCell x) = true)
    (hf : cellTag (m.memCell x) ≠ tFWD) : ∃ m', m.byteMem k x j n = (.done, m') ∧ stepsOnly m m' ∧
      ∀ b, m'.peek b = if b = x then withByte (m.memCell x) j.val n else m.peek b := by
  simp only [loadable, Bool.and_eq_true, decide_eq_true_eq, Bool.not_eq_true'] at hl
  obtain ⟨hpsn, hres⟩ := hl
  obtain ⟨m', hm, hserves⟩ : ∃ m', m.byteMem k x j n = (.done, m') ∧
      servesOnly (m.bytePlace k x (withByte (m.memCell x) j.val n) j (BitVec.ofNat 8 n)) m' := by
    unfold Mach.memCell at hpsn hres hf
    unfold Mach.byteMem
    dsimp only
    split
    · next hunc =>
      rw [eccRead_uncorrectable hunc] at hpsn
      exact absurd (by decide) hpsn
    · rw [if_neg hpsn, if_neg hf, if_neg (by simp [hres])]
      refine ⟨_, rfl, ?_⟩
      split
      · exact servesOnly_of_supplies (suppliesOnly_reportCe _ _ _ _)
      · exact servesOnly_refl _
  have hsteps := stepsOnly_trans (bytePlace_steps m k x (withByte (m.memCell x) j.val n) j (BitVec.ofNat 8 n)) (stepsOnly_of_serves hserves)
  exact ⟨m', hm, hsteps, peek_of_memCell hsteps.1 hx fun b => (hserves.2 b).trans (memCell_bytePlace m k x _ j _ b)⟩
theorem byteMem_fwd {m : Mach} {k : Fin 2} {x : Nat} {j : Fin 3} {n : Nat} (hf : cellTag (m.memCell x) = tFWD) :
    m.byteMem k x j n = (.fwd (m.memCell x), { m with ch.proc.granted := coreAgent k }) := by
  unfold Mach.memCell at hf
  have hpsn : ¬ cellTag (eccRead x (m.memBits x)).2 = tPSN := by
    rw [hf]
    decide
  unfold Mach.byteMem
  dsimp only
  split
  · next hunc =>
    rw [eccRead_uncorrectable hunc] at hf
    exact absurd hf (by decide)
  · rw [if_neg hpsn, if_pos hf]
    rfl
/-- The byte write ends where the forwards it meets lead (R179, R202). -/
theorem runI_byteStep {j : Fin 3} {v : Nat} (hs : s.plain c t = true) : ∀ (n : Nat) {va w : VAddr} {x y : Nat} {st : IS},
    s.reach c t va needRW = some x → s.chase c t needRW n va = some (w, y) → loadable (s.cell c y) = true → reads s c t i st →
    ∃ st', leftStored s c t i (s.thread c t) y (withByte (s.cell c y) j.val v) st' ∧
      runI (byteStep j v n { phys := x, typ := 0#2 }) st = (.ok (), st') := by
  have hdone {n : Nat} {x : Nat} {st : IS} (hx : (s.chan c).place x = .memory) (hl : loadable (s.cell c x) = true)
      (hf : cellTag (s.cell c x) ≠ tFWD) (h : reads s c t i st) : ∃ st', leftStored s c t i (s.thread c t) x (withByte (s.cell c x) j.val v) st' ∧
        runI (byteStep j v n { phys := x, typ := 0#2 }) st = (.ok (), st') := by
    have hcell := reads_cell h hx
    have hplace : st.m.ch.place x = .memory := (reads_place h x).trans hx
    obtain ⟨m', hm, hsteps, hpeek⟩ := byteMem_done (m := st.m) (k := coreOf t) (j := j) (n := v) hplace (hcell ▸ hl) (hcell ▸ hf)
    refine ⟨{ st with m := m' }, ⟨h.who, ?_, fun b => ?_⟩, ?_⟩
    · have hself : (s.begun c t i).setThr t (s.thread c t) = s.begun c t i := setThr_thr _ _
      rw [hself]
      exact stepsOnly_trans (stepsOnly_of_looks h.slice) hsteps
    · have hread : st.m.peek b = s.cell c b := peek_of_looks h.slice b
      rw [hpeek, hcell, hread]
    · have hstep : (if st.m.ch.place x = .near then st.m.byteNear (coreOf t) x j v else st.m.byteMem (coreOf t) x j v) = (.done, m') := by
        rw [hplace]
        exact hm
      unfold byteStep
      rw [runI_bind_ok (runI_me _), h.who, runI_drainThread hs h, runI_bind_ok (runI_useM _ _)]
      dsimp only
      rw [hstep]
      exact congrArg (fun u => (Except.ok (), ({ st with m := m', t := u } : IS))) h.who
  intro n
  induction n with
  | zero =>
    intro va w x y st hreach hchase hl h
    obtain ⟨hfwd, heq⟩ := chase_zero hreach hchase
    obtain ⟨rfl, rfl⟩ := Prod.mk.injEq .. ▸ heq
    exact hdone (reach_memory hreach) hl hfwd h
  | succ n ih =>
    intro va w x y st hreach hchase hl h
    rcases chase_succ hreach hchase with ⟨hfwd, heq⟩ | ⟨hfwd, hchase'⟩
    · obtain ⟨rfl, rfl⟩ := Prod.mk.injEq .. ▸ heq
      exact hdone (reach_memory hreach) hl hfwd h
    · obtain ⟨x', hreach'⟩ := chase_reach hchase'
      have hx := reach_memory hreach
      have hplace : st.m.ch.place x = .memory := (reads_place h x).trans hx
      have hcell := reads_cell h hx
      have h1 : reads s c t i { st with m := { st.m with ch.proc.granted := coreAgent (coreOf t) } } := reads_serves h ⟨rfl, fun _ => rfl⟩
      obtain ⟨st3, h3, hxl⟩ := runI_xlateLate hreach' h1
      obtain ⟨st4, h4, hrest⟩ := ih hreach' hchase' hl h3
      refine ⟨st4, h4, ?_⟩
      have hstep : (if st.m.ch.place x = .near then st.m.byteNear (coreOf t) x j v else st.m.byteMem (coreOf t) x j v) =
          (.fwd (s.cell c x), { st.m with ch.proc.granted := coreAgent (coreOf t) }) := by
        rw [hplace, ← hcell]
        exact byteMem_fwd (hcell ▸ hfwd)
      unfold byteStep
      rw [runI_bind_ok (runI_me _), h.who, runI_drainThread hs h, runI_bind_ok (runI_useM _ _)]
      dsimp only
      rw [hstep]
      exact (runI_bind_ok hxl).trans hrest
theorem stb_stores {va w : VAddr} {j k : Nat} (hs : s.plain c t = true) (ha : (s.thread c t).has a byteTag = true)
    (hb : (s.thread c t).has b fixTag = true) (hd : (s.thread c t).has d fixTag = true) (hlow : 0 ≤ (s.thread c t).int d)
    (hhigh : (s.thread c t).int d ≤ 255) (hbyte : s.byteAt c t ((s.thread c t).reg a) ((s.thread c t).int b) = some (va, j))
    (hchase : s.chase c t needRW 8 va = some (w, k)) (hl : loadable (s.cell c k) = true) :
    storesAt (.stb c t d a b) s c t ((s.thread c t).complete .next) k
      (withByte (s.cell c k) j (cellPay ((s.thread c t).reg d)).toNat) := by
  obtain ⟨x, hreach⟩ := chase_reach hchase
  obtain ⟨st1, q, h1, rfl, htarget⟩ := runI_byteTarget hs hbyte (reads_workOn (i := iSAB 0x26 d a b))
  obtain ⟨st2, h2, hxl⟩ := runI_xlate hreach h1
  obtain ⟨st3, h3, -, -, hcommit⟩ := runI_commit h2
  obtain ⟨st4, h4, hstore⟩ := runI_byteStep (j := q) (v := (cellPay ((s.thread c t).reg d)).toNat) hs 8 hreach hchase hl h3
  refine storesAt_of_left (i := iSAB 0x26 d a b) (f := .next) rfl (plain_ready hs) nofun nofun nofun ?_ h4
  simp only [Thread.int] at hlow hhigh
  rw [runI_bind_ok (runI_operand_has ha), runI_bind_ok (runI_operand_has hb), runI_bind_ok (runI_operand_has hd),
    runI_check_passes (by simp; omega)]
  refine (runI_bind_ok htarget).trans ?_
  rw [runI_bind_ok hxl, runI_bind_ok hcommit, runI_bind_ok hstore]
  rfl
theorem stb_faults (h : s.ready c t = true) (ha : (s.thread c t).has a byteTag = true)
    (hb : (s.thread c t).has b fixTag = true) (hd : (s.thread c t).has d fixTag = true)
    (hout : (s.thread c t).int d < 0 ∨ 255 < (s.thread c t).int d) : faults (.stb c t d a b) s c t 4#10 (fixN 2) (cellA 0x26 d a b false) := by
  refine faults_of_run (i := iSAB 0x26 d a b) rfl h nofun rfl ?_
  simp only [Thread.int] at hout
  rw [runI_bind_ok (runI_operand_has ha), runI_bind_ok (runI_operand_has hb), runI_bind_ok (runI_operand_has hd)]
  exact runI_check_fails (by simpa using hout)
theorem byteStores : byteStoreClaim := by
  intro s c t d a b va w j k hs
  dsimp only
  intro ha hb hd
  exact ⟨fun hlow hhigh hbyte hchase hl => stb_stores hs ha hb hd hlow hhigh hbyte hchase hl, fun hout => stb_faults (plain_ready hs) ha hb hd hout⟩
end

/-- Settles O24. -/
theorem checkedAndByteStores : Obligations.CheckedAndByteStores := ⟨checkedStores, byteStores⟩
/-- Settles O25. -/
theorem swapAndReplaceCdr : Obligations.SwapAndReplaceCdr := ⟨compareAndSwap, replaceCdr⟩

end Sys2Proof.Machine
end

section
/-! Several stores of one instruction in the write buffer (R317, R318). -/
namespace Sys2Proof.Machine

/-- Memory is laid out in whole pages of 1,024 cells (R26, R402). -/
theorem place_of_page {ch : Channel} {x y : Nat} (hx : ch.place x = .memory) (h : x / 1024 = y / 1024) : ch.place y = .memory := by
  have hcells : ch.memCells = 0x40000000 ∨ ch.memCells = 0x80000000 := by
    unfold Channel.memCells
    split
    · exact .inl rfl
    · exact .inr rfl
  have hundo : ch.undoArea x = false := by
    unfold Channel.place at hx
    split at hx
    · nomatch hx
    · next hu => simpa using hu
  have hlow : x < ch.memCells := by
    unfold Channel.place at hx
    rw [hundo, if_neg (by decide)] at hx
    split at hx
    · assumption
    · split at hx
      · nomatch hx
      · split at hx <;> nomatch hx
  have hlow' : y < ch.memCells := by omega
  have hundo' : ch.undoArea y = false := by
    simp only [Channel.undoArea, Bool.and_eq_false_iff, decide_eq_false_iff_not] at hundo ⊢
    rcases hundo with (hpair | habove) | hbelow
    · exact .inl (.inl hpair)
    · exact .inl (.inr (by omega))
    · exact absurd hlow hbelow
  unfold Channel.place
  rw [hundo', if_neg (by decide), if_pos hlow']
theorem place_of_line {ch : Channel} {x : Nat} (hx : ch.place x = .memory) (p : Nat) (hp : p < 16) : ch.place (x / 16 * 16 + p) = .memory :=
  place_of_page hx (by omega)

/-! ### The chain of changes -/

theorem stepped_self (m : Mach) : m = m.stepped m := rfl
theorem stepped_trans {m n x : Mach} (h : n = m.stepped n) (h' : x = n.stepped x) : x = m.stepped x := by
  rw [h] at h'
  exact h'
theorem withWb_stepped (m : Mach) (k : Fin 2) (wb : List WbEntry) : m.withWb k wb = m.stepped (m.withWb k wb) := rfl

section
variable {m : Mach} {t : Fin 8} {x : Nat} {v : Cell} {mk : Bool} {logs : List (Fin 8 × BitVec 24)}

/-- One data cell placed in the buffer of the thread's core. -/
def Mach.buffer (m : Mach) (t : Fin 8) (x : Nat) (v : Cell) (mk : Bool) (logs : List (Fin 8 × BitVec 24)) : Mach :=
  m.wbAdd t .memory (x / 16) [(x % 16, v, mk)] false logs
/-- The entry of one data cell. -/
def cellEntry (t : Fin 8) (x : Nat) (v : Cell) (mk : Bool) (logs : List (Fin 8 × BitVec 24)) : WbEntry :=
  { kind := .memory, line := x / 16, cells := [(x % 16, v, mk)], threads := thBit t, zline := false, logs := logs }
/-- The youngest entry of the line, with one data cell merged into it. -/
def WbEntry.merge (y : WbEntry) (t : Fin 8) (x : Nat) (v : Cell) (mk : Bool) (logs : List (Fin 8 × BitVec 24)) : WbEntry :=
  { y with
    cells := mapPut y.cells (x % 16) (mergeCell (mapGet y.cells (x % 16)) v mk)
    threads := y.threads ||| thBit t, zline := y.zline || false, logs := y.logs ++ logs }
/-- A cell merges into the youngest entry where that one is of its line, else it takes an entry of its own, and a full buffer drains first. -/
theorem buffer_cases (m : Mach) (t : Fin 8) (x : Nat) (v : Cell) (mk : Bool) (logs : List (Fin 8 × BitVec 24)) :
    (∃ y init, (m.core (coreOf t)).wb = init ++ [y] ∧ y.kind = .memory ∧ y.line = x / 16 ∧
      m.buffer t x v mk logs = (m.bump (96 * (coreOf t).val + 65)).withWb (coreOf t) (init ++ [y.merge t x v mk logs])) ∨
    (∀ y, (m.core (coreOf t)).wb.getLast? = some y → ¬ (y.kind = .memory ∧ y.line = x / 16)) ∧
      m.buffer t x v mk logs = m.wbPush (coreOf t) (cellEntry t x v mk logs) := by
  unfold Mach.buffer Mach.wbAdd
  dsimp only
  rcases hlast : (m.core (coreOf t)).wb.getLast? with _ | y
  · exact .inr ⟨nofun, rfl⟩
  · obtain ⟨init, hwb⟩ := List.getLast?_eq_some_iff.mp hlast
    by_cases hy : y.kind = .memory ∧ y.line = x / 16
    · refine .inl ⟨y, init, hwb, hy.1, hy.2, ?_⟩
      have hdrop : (m.core (coreOf t)).wb.dropLast = init := by rw [hwb, List.dropLast_concat]
      refine (if_pos (by simpa using hy)).trans ?_
      rw [hdrop]
      rfl
    · refine .inr ⟨fun z hz => Option.some.inj hz ▸ hy, ?_⟩
      have hno : ¬ (WbKind.memory ≠ .device && y.kind = .memory && y.line = x / 16) = true := by simpa using hy
      exact if_neg hno
theorem over_merge (y : WbEntry) (hline : y.line = x / 16) (a : Nat) (w : Cell) :
    (y.merge t x v mk logs).over a w = if a = x then writtenOver (some (v, mk)) (y.over a w) else y.over a w := by
  unfold WbEntry.over WbEntry.merge
  dsimp only
  by_cases hl : y.line = a / 16
  · rw [if_pos hl, if_pos hl]
    by_cases ha : a = x
    · subst ha
      rw [if_pos rfl, mapGet_mapPut]
      rcases mapGet y.cells (a % 16) with _ | ⟨z, _ | _⟩ <;> cases mk <;> simp [mergeCell, writtenOver, withCdr]
    · have hpos : a % 16 ≠ x % 16 := by omega
      rw [if_neg ha, mapGet_mapPut_ne _ _ _ _ hpos]
  · have ha : a ≠ x := fun h => hl (by rw [hline, h])
    rw [if_neg hl, if_neg hl, if_neg ha]
theorem over_cellEntry (a : Nat) (w : Cell) :
    (cellEntry t x v mk logs).over a w = if a = x then writtenOver (some (v, mk)) w else w := by
  unfold WbEntry.over cellEntry
  dsimp only
  by_cases ha : a = x
  · subst ha
    simp [mapGet]
  · rw [if_neg ha]
    split
    · have hpos : ¬ x % 16 = a % 16 := by omega
      simp [mapGet, hpos, writtenOver]
    · rfl

/-- Every entry that core k holds is plain: it stores cells of memory lines and nothing else. -/
def Mach.allPlain (m : Mach) (k : Fin 2) : Prop := ∀ e ∈ (m.core k).wb, plainEntry m.ch e = true
theorem allPlain_stepped {n : Mach} {k : Fin 2} (h : n = m.stepped n) (hp : ∀ e ∈ (n.core k).wb, plainEntry m.ch e = true) : n.allPlain k :=
  fun e he => (stepped_plain h).trans (hp e he)
theorem seenBy_withWb (m : Mach) (k : Fin 2) (wb : List WbEntry) (a : Nat) :
    (m.withWb k wb).seenBy k a = wb.foldl (fun v e => e.over a v) (m.peek a) := by
  unfold Mach.seenBy
  rw [withWb_core]
  rfl
/-- A buffer with room, or one that can drain, takes an entry: the oldest may have taken its place before. -/
theorem wbPush_takes {k : Fin 2} (e : WbEntry) (hroom : (m.core k).wb.length < 8 ∨ m.allPlain k) :
    ∃ n, m.wbPush k e = n.withWb k ((n.core k).wb ++ [e]) ∧ n = m.stepped n ∧ (∀ a, n.seenBy k a = m.seenBy k a) ∧
      ((n.core k).wb = (m.core k).wb ∨ 8 ≤ (m.core k).wb.length ∧ (n.core k).wb = (m.core k).wb.drop 1) := by
  by_cases hlen : (m.core k).wb.length < 8
  · exact ⟨m, wbPush_room hlen e, stepped_self m, fun _ => rfl, .inl rfl⟩
  · have hplain := hroom.resolve_left hlen
    obtain ⟨f, r, hwb⟩ : ∃ f r, (m.core k).wb = f :: r := by
      rcases hwb : (m.core k).wb with _ | ⟨f, r⟩
      · rw [hwb] at hlen
        exact absurd (by decide) hlen
      · exact ⟨f, r, rfl⟩
    have hf := hplain f (by rw [hwb]; exact List.mem_cons_self)
    have hsteps := drainOne_steps hwb hf
    refine ⟨m.drainOne k, ?_, stepped_trans (withWb_stepped m k r) hsteps.1, seenBy_drainOne hwb hf, .inr ⟨Nat.le_of_not_lt hlen, ?_⟩⟩
    · unfold Mach.wbPush
      rw [if_neg hlen]
      rfl
    · rw [steps_wb hsteps, hwb]
      rfl
/-- One data cell enters the buffer: what it leaves alone, and what the core reads. -/
theorem buffer_takes (hroom : (m.core (coreOf t)).wb.length < 8 ∨ m.allPlain (coreOf t)) :
    m.buffer t x v mk logs = m.stepped (m.buffer t x v mk logs) ∧
      ∀ a, (m.buffer t x v mk logs).seenBy (coreOf t) a =
        if a = x then writtenOver (some (v, mk)) (m.seenBy (coreOf t) a) else m.seenBy (coreOf t) a := by
  rcases buffer_cases m t x v mk logs with ⟨y, init, hwb, -, hline, heq⟩ | ⟨-, heq⟩
  · rw [heq]
    refine ⟨rfl, fun a => ?_⟩
    have hseen : m.seenBy (coreOf t) a = y.over a (init.foldl (fun v e => e.over a v) (m.peek a)) := by
      unfold Mach.seenBy
      rw [hwb, List.foldl_concat]
    rw [seenBy_withWb, List.foldl_concat, over_merge y hline, hseen]
    rfl
  · obtain ⟨n, hpush, hn, hseen, -⟩ := wbPush_takes (k := coreOf t) (cellEntry t x v mk logs) hroom
    rw [heq, hpush]
    refine ⟨stepped_trans hn (withWb_stepped n _ _), fun a => ?_⟩
    rw [seenBy_withWb, List.foldl_concat, over_cellEntry, ← hseen a]
    rfl
theorem plain_merge {ch : Channel} {y : WbEntry} (h : plainEntry ch y = true) : plainEntry ch (y.merge t x v mk []) = true := by
  obtain ⟨hkind, hlogs, hz, hplace⟩ := plainEntry_iff.mp h
  exact plainEntry_iff.mpr ⟨hkind, by simp [WbEntry.merge, hlogs], by simp [WbEntry.merge, hz], hplace⟩
theorem plain_cellEntry {ch : Channel} (hx : ch.place x = .memory) : plainEntry ch (cellEntry t x v mk []) = true :=
  plainEntry_iff.mpr ⟨rfl, rfl, rfl, place_of_line hx⟩
/-- Cells without log actions leave the entries plain. -/
theorem buffer_plain (hx : m.ch.place x = .memory) (hp : m.allPlain (coreOf t)) : (m.buffer t x v mk []).allPlain (coreOf t) := by
  refine allPlain_stepped (buffer_takes (.inr hp)).1 ?_
  rcases buffer_cases m t x v mk [] with ⟨y, init, hwb, -, -, heq⟩ | ⟨-, heq⟩
  · intro e he
    rw [heq, withWb_core] at he
    rcases List.mem_append.mp he with he | he
    · exact hp e (by rw [hwb]; exact List.mem_append_left _ he)
    · rw [List.mem_singleton.mp he]
      exact plain_merge (hp y (by rw [hwb]; exact List.mem_append_right _ (List.mem_singleton_self y)))
  · obtain ⟨n, hpush, -, -, hwb⟩ := wbPush_takes (k := coreOf t) (cellEntry t x v mk []) (.inr hp)
    intro e he
    rw [heq, hpush, withWb_core] at he
    rcases List.mem_append.mp he with he | he
    · refine hp e ?_
      rcases hwb with hwb | ⟨-, hwb⟩
      · exact hwb ▸ he
      · exact List.mem_of_mem_drop (hwb ▸ he)
    · rw [List.mem_singleton.mp he]
      exact plain_cellEntry hx
end

/-! ### Cells one after another -/

/-- Whole cells written from an address up over what was read. -/
def writtenRange (x : Nat) (cells : List Cell) (f : Nat → Cell) (b : Nat) : Cell := if x ≤ b then (cells[b - x]?).getD (f b) else f b
theorem writtenRange_nil (x : Nat) (f : Nat → Cell) (b : Nat) : writtenRange x [] f b = f b := by simp [writtenRange]
theorem writtenRange_cons (x : Nat) (v : Cell) (r : List Cell) (f : Nat → Cell) (b : Nat) :
    writtenRange (x + 1) r (fun b => if b = x then v else f b) b = writtenRange x (v :: r) f b := by
  unfold writtenRange
  dsimp only
  by_cases h : x + 1 ≤ b
  · have hb : b - x = b - (x + 1) + 1 := by omega
    rw [if_pos h, if_pos (show x ≤ b by omega), hb, List.getElem?_cons_succ, if_neg (show ¬ b = x by omega)]
  · rw [if_neg h]
    by_cases hb : b = x
    · simp [hb]
    · rw [if_neg hb, if_neg (by omega)]
theorem writtenRange_in {x : Nat} {cells : List Cell} (f : Nat → Cell) (j : Nat) (h : j < cells.length) :
    writtenRange x cells f (x + j) = cells[j] := by
  unfold writtenRange
  rw [if_pos (by omega), Nat.add_sub_cancel_left, List.getElem?_eq_getElem h]
  rfl
theorem writtenRange_out {x : Nat} {cells : List Cell} (f : Nat → Cell) {b : Nat} (h : b < x ∨ x + cells.length ≤ b) :
    writtenRange x cells f b = f b := by
  unfold writtenRange
  split
  · rw [List.getElem?_eq_none (by omega)]
    rfl
  · rfl

end Sys2Proof.Machine
end

section
/-! Allocation from a pitch (R217, R218, R224, R227, R228, R232). -/
namespace Sys2Proof.Machine

section
variable {s : State} {c : Chan} {t : Fin 8} {i : Ins} {st : IS} {d a b : Reg} {ins : Instr} {th : Thread} {ch : Channel} {f : Nat → Cell}

theorem bits_low (va : VAddr) : bits va 0 10 = va.toNat % 1024 := by
  simp [bits, BitVec.extractLsb'_toNat]
/-- A translation keeps the place within the page (R291). -/
theorem reach_mod {va : VAddr} {need : Need} {x : Nat} (h : s.reach c t va need = some x) : x % 1024 = va.toNat % 1024 := by
  rcases hte : (s.thread c t).te with _ | _
  · rw [reach_off hte h]
  · obtain ⟨-, -, -, e, -, -, -, -, -, -, -, -, hx⟩ := reach_te hte h
    have hbase : (s.chan c).pageBase e.idx.toNat % 1024 = 0 := by
      unfold Channel.pageBase
      split
      · omega
      · split <;> omega
    rw [hx, bits_low]
    omega
/-- The work stands on a slice that has come from B by stores alone, its buffer plain, and its core reads f. -/
structure filling (t : Fin 8) (B : Mach) (f : Nat → Cell) (st : IS) : Prop where
  who : st.t = t
  slice : st.m = B.stepped st.m
  plain : st.m.allPlain (coreOf t)
  seen : ∀ b, st.m.seenBy (coreOf t) b = f b
theorem runI_bufStore_filling {B : Mach} {x : Nat} {v : Cell} (h : filling t B f st) (hx : B.ch.place x = .memory) :
    ∃ st', filling t B (fun b => if b = x then v else f b) st' ∧ runI (bufStore { phys := x, typ := 0#2 } v false []) st = (.ok (), st') := by
  have hplace : st.m.ch.place x = .memory := (stepped_place h.slice x).trans hx
  obtain ⟨hstep, hseen⟩ := buffer_takes (m := st.m) (t := t) (x := x) (v := v) (mk := false) (logs := []) (.inr h.plain)
  refine ⟨{ st with m := st.m.buffer t x v false [] }, ⟨h.who, stepped_trans h.slice hstep, buffer_plain hplace h.plain, fun b => ?_⟩, ?_⟩
  · refine (hseen b).trans ?_
    rw [h.seen]
    rfl
  · have hkind : st.m.wbKind x = .memory := by
      unfold Mach.wbKind
      rw [hplace]
    unfold bufStore
    rw [runI_bind_ok (runI_me _)]
    refine (runI_modM _ _).trans ?_
    dsimp only
    rw [hkind, h.who]
    rfl
/-- The cells of a new object enter the buffer one by one (R227). -/
theorem runI_initCells {B : Mach} {x : Nat} : ∀ (cells : List Cell) (j : Nat) {f : Nat → Cell} {st : IS}, filling t B f st →
    (∀ p < cells.length, B.ch.place (x + j + p) = .memory) →
    ∃ st', filling t B (writtenRange (x + j) cells f) st' ∧ runI (initCells { phys := x, typ := 0#2 } j cells) st = (.ok (), st')
  | [], j, f, st, h, _ => by
    refine ⟨st, ⟨h.who, h.slice, h.plain, fun b => ?_⟩, rfl⟩
    rw [h.seen, writtenRange_nil]
  | v :: r, j, f, st, h, hx => by
    obtain ⟨st1, h1, hstore⟩ := runI_bufStore_filling (v := v) h (hx 0 (Nat.zero_lt_succ _))
    obtain ⟨st2, h2, hrest⟩ := runI_initCells r (j + 1) h1 fun p hp => by
      have hnext := hx (p + 1) (Nat.succ_lt_succ hp)
      rw [show x + (j + 1) + p = x + j + (p + 1) by omega]
      exact hnext
    refine ⟨st2, ⟨h2.who, h2.slice, h2.plain, fun b => ?_⟩, ?_⟩
    · rw [h2.seen]
      exact writtenRange_cons (x + j) v r f b
    · unfold initCells
      exact (runI_bind_ok hstore).trans hrest

/-! ### The object is taken from the pitch -/

/-- An instruction has stored in its channel, which was ch, has left its thread as th, and its core reads f. -/
structure leftCells (s : State) (c : Chan) (t : Fin 8) (i : Ins) (th : Thread) (ch : Channel) (f : Nat → Cell) (st : IS) : Prop where
  who : st.t = t
  slice : st.m = ((s.begunAs c t i ch).setThr t th).stepped st.m
  seen : ∀ b, st.m.seenBy (coreOf t) b = f b
theorem runI_modT_cells {α : Type} {g : Thread → Thread} {k : Unit → IM α} (h : leftCells s c t i th ch f st) :
    ∃ st', leftCells s c t i (g th) ch f st' ∧ runI (modT g >>= k) st = runI (k ()) st' := by
  have hthr : st.m.thr t = th := (stepped_thr h.slice t).trans (thr_setThr _ t th)
  refine ⟨{ st with m := st.m.setThr t (g th) }, ⟨h.who, ?_, fun b => (h.seen b).symm ▸ rfl⟩, ?_⟩
  · rw [h.slice]
    simp [Mach.setThr, Mach.stepped]
  · rw [runI_bind_ok (runI_modT _ _), h.who, hthr]
theorem runI_bumpT_cells {α : Type} {u : Fin 8} {e : Nat} {k : Unit → IM α} (h : leftCells s c t i th ch f st) :
    ∃ st', leftCells s c t i th ch f st' ∧ runI (modM (fun m => m.bumpT u e) >>= k) st = runI (k ()) st' := by
  obtain ⟨p, n, hm⟩ := bumpT_perfOnly st.m u e
  refine ⟨{ st with m := st.m.bumpT u e }, ⟨h.who, ?_, fun b => ?_⟩, runI_bind_ok (runI_modM _ _)⟩
  · dsimp only
    rw [hm, h.slice]
    rfl
  · dsimp only
    rw [hm]
    exact h.seen b
theorem reads_seen (hs : s.plain c t = true) (h : reads s c t i st) (b : Nat) : st.m.seenBy (coreOf t) b = s.seen c t b := by
  have hpeek : st.m.peek b = s.cell c b := peek_of_looks h.slice b
  unfold Mach.seenBy State.seen
  rw [reads_wb hs h, plain_wb hs, hpeek]
  rfl
/-- A thread with room in its pitch takes the object there (R227). -/
theorem runI_requestAlloc {sl : Fin 8} {top fin n : Nat} (h : reads s c t i st) (hte : (s.thread c t).te = true)
    (hresv : (s.thread c t).resv = none) (hsl : (s.chan c).sw.slotOfAsid (s.thread c t).asid = some sl)
    (hpitch : mapAt (0, 0) ((s.chan c).sw.slots[sl]).pitch t.val = (top, fin)) (hpos : 0 < n) (hfit : top + n ≤ fin) :
    runI (requestAlloc n) st = (.ok { slot := sl, base := top, top := top + n, fin := fin, block := none, free := none }, st) := by
  have hret : st.m.returnResv st.t = st.m := by
    unfold Mach.returnResv
    rw [reads_self h, hresv]
  have hspace : st.m.spaceOf (s.thread c t) = some sl := by
    unfold Mach.spaceOf
    rw [if_pos hte, ← hsl, h.slice.1]
    rfl
  have hp : st.m.pitch sl t = (top, fin) := by
    rw [← hpitch, h.slice.1]
    rfl
  have hplan : st.m.planAlloc sl st.t n = some { slot := sl, base := top, top := top + n, fin := fin, block := none, free := none } := by
    unfold Mach.planAlloc
    dsimp only
    rw [h.who, hp]
    exact if_pos (by simp; omega)
  unfold requestAlloc
  rw [runI_bind_ok (runI_me _), runI_bind_ok (runI_modM _ _), hret, runI_bind_ok (runI_get _), reads_self h, hspace]
  dsimp only
  rw [hplan]
  rfl
/-- The object's cells enter the buffer, and the pitch moves past them (R227). -/
theorem runI_allocObject {sl : Fin 8} {top fin x : Nat} {cells : List Cell} (hs : s.plain c t = true) (hte : (s.thread c t).te = true)
    (hresv : (s.thread c t).resv = none) (hsl : (s.chan c).sw.slotOfAsid (s.thread c t).asid = some sl)
    (hpitch : mapAt (0, 0) ((s.chan c).sw.slots[sl]).pitch t.val = (top, fin)) (hpos : 0 < cells.length) (hfit : top + cells.length ≤ fin)
    (hpage : ∀ p < cells.length, (s.chan c).place (x + p) = .memory) (hreach : s.reach c t (BitVec.ofNat 24 top) needW = some x) :
    ∃ st', leftCells s c t i (s.thread c t) ((s.chan c).withPitch sl t (top + cells.length, fin)) (writtenRange x cells (s.seen c t)) st' ∧
      runI (allocObject cells) (workOn s c t i) = (.ok (BitVec.ofNat 24 top), st') := by
  obtain ⟨st1, h1, hxl⟩ := runI_xlate hreach (reads_workOn (i := i))
  obtain ⟨st2, h2, -, -, hcommit⟩ := runI_commit h1
  have hslice : st2.m.setPitch sl t (top + cells.length, fin) =
      (s.begunAs c t i ((s.chan c).withPitch sl t (top + cells.length, fin))).stepped (st2.m.setPitch sl t (top + cells.length, fin)) := by
    have hsteps := (stepsOnly_of_looks h2.slice).1
    rw [hsteps]
    rfl
  have hfill : filling t (s.begunAs c t i ((s.chan c).withPitch sl t (top + cells.length, fin))) (s.seen c t)
      { st2 with m := st2.m.setPitch sl t (top + cells.length, fin) } := by
    refine ⟨h2.who, hslice, fun e he => ?_, fun b => ?_⟩
    · have hempty : ((st2.m.setPitch sl t (top + cells.length, fin)).core (coreOf t)).wb = [] := reads_wb hs h2
      exact absurd (hempty ▸ he) List.not_mem_nil
    · exact reads_seen hs h2 b
  obtain ⟨st3, h3, hinit⟩ := runI_initCells cells 0 hfill (x := x) hpage
  refine ⟨st3, ⟨h3.who, ?_, h3.seen⟩, ?_⟩
  · refine h3.slice.trans ?_
    have hself : (s.begunAs c t i ((s.chan c).withPitch sl t (top + cells.length, fin))).setThr t (s.thread c t) =
        s.begunAs c t i ((s.chan c).withPitch sl t (top + cells.length, fin)) := setThr_thr _ _
    rw [hself]
  · unfold allocObject
    rw [runI_bind_ok (runI_requestAlloc reads_workOn hte hresv hsl hpitch hpos hfit)]
    have hplan : runI (xlatePlan { slot := sl, base := top, top := top + cells.length, fin := fin, block := none, free := none }) (workOn s c t i) =
        (.ok ({ phys := x, typ := 0#2 }, none), st1) := by
      unfold xlatePlan
      rw [runI_bind_ok hxl]
      rfl
    have hcarry : runI (carryAlloc { slot := sl, base := top, top := top + cells.length, fin := fin, block := none, free := none }
        ({ phys := x, typ := 0#2 }, none) cells) st2 = (.ok (), st3) := by
      unfold carryAlloc
      rw [runI_bind_ok (runI_me _), h2.who]
      dsimp only
      rw [runI_bind_ok (runI_modM _ _)]
      exact hinit
    rw [runI_bind_ok hplan, runI_bind_ok hcommit, runI_bind_ok hcarry]
    rfl
/-- An instruction that takes an object and then leaves its pointer in d. -/
theorem allocates_of_run {w : IM Flow} {k : VAddr → IM Flow} {cells : List Cell} {g : BitVec 6} (hex : exec ins s = .next (s.issue c t i w))
    (hs : s.plain c t = true) (hsup : i.sup = true → (s.thread c t).sup = true) (hpos : 0 < cells.length)
    (hk : ∀ p ch f st, leftCells s c t i (s.thread c t) ch f st →
      ∃ st', leftCells s c t i ((s.thread c t).setReg d (mkCell g 0#2 p)) ch f st' ∧ runI (k p) st = (.ok .next, st'))
    (hw : runI w (workOn s c t i) = runI (allocObject cells >>= k) (workOn s c t i)) : allocates ins s c t cells d g := by
  intro sl top fin x hte hresv hsl hpitch hfit hin htop hreach
  have hpage : ∀ p < cells.length, (s.chan c).place (x + p) = .memory := by
    intro p hp
    refine place_of_page (reach_memory hreach) ?_
    have hmod := reach_mod hreach
    rw [BitVec.toNat_ofNat, Nat.mod_eq_of_lt (show top < 2 ^ 24 from htop)] at hmod
    omega
  obtain ⟨st1, h1, halloc⟩ := runI_allocObject (i := i) hs hte hresv hsl hpitch hpos hfit hpage hreach
  obtain ⟨st2, h2, hset⟩ := hk _ _ _ _ h1
  obtain ⟨s', hex', honly, -, -, hseen⟩ := stepped_of_run (f := .next) hex (plain_ready hs) hsup nofun nofun
    (hw.trans ((runI_bind_ok halloc).trans hset)) h2.slice
  have hread (b : Nat) : s'.seen c t b = writtenRange x cells (s.seen c t) b := by
    rw [seen_eq, hseen, h2.seen]
  refine ⟨s', hex', honly, fun j hj => ?_, fun b hb => ?_⟩
  · rw [hread, writtenRange_in _ j hj]
  · rw [hread, writtenRange_out _ hb]

/-! ### The instructions -/

/-- What a thread may store (R158). -/
theorem runI_limitSource {v : Cell} {n : Nat} (h : reads s c t i st) (hv : (s.thread c t).sup = true ∨ userSealed (cellTag v) = false) :
    runI (limitSource v n) st = (.ok (), st) := by
  have hno : ¬ (!(s.thread c t).sup && userSealed (cellTag v)) = true := by
    rcases hv with h | h <;> simp [h]
  unfold limitSource
  rw [runI_getT_reads h, if_neg hno]
  rfl
/-- The pointer goes to d, and the instruction ends. -/
theorem setD_ends {g : BitVec 6} {p : VAddr} (h : leftCells s c t i (s.thread c t) ch f st) :
    ∃ st', leftCells s c t i ((s.thread c t).setReg d (mkCell g 0#2 p)) ch f st' ∧
      runI (do setD d (mkCell g 0#2 p); return Flow.next) st = (.ok .next, st') := by
  obtain ⟨st', h', hset⟩ := runI_modT_cells (g := fun th => th.setReg d (mkCell g 0#2 p)) (k := fun _ => pure Flow.next) h
  exact ⟨st', h', hset⟩
/-- An event is counted, the pointer goes to d, and the instruction ends. -/
theorem countedSetD_ends {g : BitVec 6} {p : VAddr} {e : Nat} (h : leftCells s c t i (s.thread c t) ch f st) :
    ∃ st', leftCells s c t i ((s.thread c t).setReg d (mkCell g 0#2 p)) ch f st' ∧
      runI (do let u ← me; modM (fun m => m.bumpT u e); setD d (mkCell g 0#2 p); return Flow.next) st = (.ok .next, st') := by
  obtain ⟨st1, h1, hbump⟩ := runI_bumpT_cells (u := st.t) (e := e) (k := fun _ => do setD d (mkCell g 0#2 p); return Flow.next) h
  obtain ⟨st2, h2, hset⟩ := setD_ends (d := d) (g := g) (p := p) h1
  refine ⟨st2, h2, ?_⟩
  rw [runI_bind_ok (runI_me _)]
  exact hbump.trans hset
theorem alloc_allocates {imm : BitVec 6} {k : BitVec 4} (hs : s.plain c t = true) (ha : (s.thread c t).has a fixTag = true)
    (hk : selKind imm = some k) (hlow : ((selSizes imm).1 : Int) ≤ (s.thread c t).int a) (hhigh : (s.thread c t).int a ≤ ((selSizes imm).2 : Int)) :
    allocates (.alloc c t d a imm) s c t (objCells imm ((s.thread c t).int a).toNat) d (selTag imm) := by
  refine allocates_of_run (i := iDAI 0x90 d a imm) (k := fun p => do setD d (mkCell (selTag imm) 0#2 p); return Flow.next) rfl hs nofun
    ?_ (fun _ _ _ _ h => setD_ends h) ?_
  · simp [objCells, upFrom]
  · simp only [Thread.int] at hlow hhigh
    rw [runI_check_passes (by simp [hk]), runI_bind_ok (runI_operand_has ha), runI_check_passes (by simp; omega)]
    rfl
theorem cons_allocates (hs : s.plain c t = true) (ha : (s.thread c t).has a anyTag = true) (hb : (s.thread c t).has b anyTag = true)
    (hu : ((s.thread c t).sup || (!userSealed (cellTag ((s.thread c t).reg a)) && !userSealed (cellTag ((s.thread c t).reg b)))) = true) :
    allocates (.opCons c t d a b) s c t [withCdr ((s.thread c t).reg a) 0#2, withCdr ((s.thread c t).reg b) 0#2] d tCONS := by
  refine allocates_of_run (i := iDAB 0x82 d a b false) (k := fun p => do setD d (mkCell tCONS 0#2 p); return Flow.next) rfl hs nofun
    (Nat.succ_pos _) (fun _ _ _ _ h => setD_ends h) ?_
  simp only [Bool.or_eq_true, Bool.and_eq_true, Bool.not_eq_true'] at hu
  rw [runI_bind_ok (runI_operand_has ha), runI_bind_ok (runI_operand_has hb),
    runI_bind_ok (runI_limitSource reads_workOn (hu.imp_right And.left)), runI_bind_ok (runI_limitSource reads_workOn (hu.imp_right And.right))]
theorem boxed_allocates {w : IM Flow} {kd : BitVec 4} {hi lo : Payload} {e : Nat} (hex : exec ins s = .next (s.issue c t i w))
    (hs : s.plain c t = true) (hsup : i.sup = true → (s.thread c t).sup = true)
    (hw : runI w (workOn s c t i) = runI (do
        let p ← allocObject (boxCells kd hi lo)
        let u ← me
        modM (fun m => m.bumpT u e)
        setD d (mkCell tBOX 0#2 p)
        return Flow.next) (workOn s c t i)) : allocates ins s c t (boxCells kd hi lo) d tBOX :=
  allocates_of_run hex hs hsup (Nat.succ_pos _) (fun _ _ _ _ h => countedSetD_ends (e := e) h) hw
theorem runI_deliverInt_box {n : Int} (hbig : n < -8388608 ∨ 8388607 < n) (hin : -140737488355328 ≤ n ∧ n ≤ 140737488355327) :
    runI (deliverInt d n) st = runI (do
        let p ← allocObject (boxCells 5#4 ((BitVec.ofInt 48 n).extractLsb' 24 24) ((BitVec.ofInt 48 n).extractLsb' 0 24))
        let u ← me
        modM (fun m => m.bumpT u 36)
        setD d (mkCell tBOX 0#2 p)
        return Flow.next) st := by
  have hno : ¬ inFix n = true := by
    rw [inFix_iff]
    omega
  unfold deliverInt canonical
  rw [if_neg hno, if_pos (by simpa using hin)]
theorem tof32_allocates (hs : s.plain c t = true) (ha : (s.thread c t).has a fixTag = true) :
    allocates (.tof32 c t d a) s c t (boxCells 6#4 ((toF32 (intVal ((s.thread c t).int a))).extractLsb' 8 24)
      (((toF32 (intVal ((s.thread c t).int a))).extractLsb' 0 8).setWidth 24)) d tBOX := by
  have hx : cellTag ((s.thread c t).reg a) = tFIX := number_of_fix ha
  refine boxed_allocates (i := (iDA 0x6B d a).asGeneric a) (e := 37) rfl hs nofun ?_
  rw [runI_regCell, runI_genDispatch_numbers (.inl hx) (.inl rfl), runI_numVal_fix hx]
  rfl
/-- An instruction that delivers an integer outside FIX. -/
theorem int_allocates {w : IM Flow} {n : Int} (hex : exec ins s = .next (s.issue c t i w)) (hs : s.plain c t = true)
    (hsup : i.sup = true → (s.thread c t).sup = true) (hbig : n < -8388608 ∨ 8388607 < n) (hin : -140737488355328 ≤ n ∧ n ≤ 140737488355327)
    (hw : runI w (workOn s c t i) = runI (deliverInt d n) (workOn s c t i)) :
    allocates ins s c t (boxCells 5#4 ((BitVec.ofInt 48 n).extractLsb' 24 24) ((BitVec.ofInt 48 n).extractLsb' 0 24)) d tBOX :=
  boxed_allocates hex hs hsup (hw.trans (runI_deliverInt_box hbig hin))

/-! ### LIST -/

theorem upFrom_eq_range' (lo : Nat) : ∀ n, upFrom lo n = List.range' lo n := by
  intro n
  induction n generalizing lo with
  | zero => rfl
  | succ n ih => rw [upFrom, ih, List.range'_succ]
/-- The source registers of LIST from register lo up. -/
def Thread.sources (th : Thread) (lo n : Nat) : List Cell := (List.range n).map (fun i => th.reg (Fin.ofNat 32 (lo + i)))
theorem sources_eq (th : Thread) (lo n : Nat) : (List.range' lo n).map (fun r => th.reg (Fin.ofNat 32 r)) = th.sources lo n := by
  unfold Thread.sources
  rw [List.range'_eq_map_range, List.map_map]
  rfl
theorem runI_listSources : ∀ (rs : List Nat), (∀ r ∈ rs, (s.thread c t).has (Fin.ofNat 32 r) anyTag = true) →
    runI (listSources rs) (workOn s c t i) = (.ok (rs.map (fun r => (s.thread c t).reg (Fin.ofNat 32 r))), workOn s c t i)
  | [], _ => rfl
  | r :: rs, h => by
    unfold listSources
    rw [runI_bind_ok (runI_operand_has (h r List.mem_cons_self)),
      runI_bind_ok (runI_listSources rs fun x hx => h x (List.mem_cons_of_mem _ hx))]
    rfl
theorem runI_limitSources (h : reads s c t i st) : ∀ (vs : List Cell),
    ((s.thread c t).sup || vs.all (fun v => !userSealed (cellTag v))) = true → runI (limitSources vs) st = (.ok (), st)
  | [], _ => rfl
  | v :: r, hv => by
    simp only [Bool.or_eq_true, List.all_cons, Bool.and_eq_true, Bool.not_eq_true'] at hv
    unfold limitSources
    rw [runI_bind_ok (runI_limitSource h (hv.imp_right And.left))]
    exact runI_limitSources h r (by simpa using hv.imp_right And.right)
theorem compactCells_eq : ∀ (vs : List Cell),
    compactCells vs = vs.dropLast.map (fun v => withCdr v 1#2) ++ vs.getLast?.toList.map (fun v => withCdr v 2#2)
  | [] => rfl
  | [v] => rfl
  | v :: w :: r => by
    unfold compactCells
    rw [compactCells_eq (w :: r), List.dropLast_cons_cons, List.getLast?_cons_cons, List.map_cons]
    rfl
theorem compactCells_length (vs : List Cell) : (compactCells vs).length = vs.length := by
  rw [compactCells_eq]
  rcases vs with _ | ⟨v, r⟩
  · rfl
  · rw [List.getLast?_eq_some_getLast (List.cons_ne_nil v r)]
    simp
theorem list_allocates {imm : BitVec 6} (hs : s.plain c t = true) (hlow : 1#6 ≤ imm) (hhigh : imm ≤ 16#6) (hregs : a.val + imm.toNat ≤ 32)
    (hhas : ∀ i < imm.toNat, (s.thread c t).has (Fin.ofNat 32 (a.val + i)) anyTag = true)
    (hu : ((s.thread c t).sup || ((s.thread c t).sources a.val imm.toNat).all (fun v => !userSealed (cellTag v))) = true) :
    allocates (.opList c t d a imm) s c t (padEven (compactCells ((s.thread c t).sources a.val imm.toNat))) d tCONS := by
  have hn : bits imm 0 5 = imm.toNat ∧ bit imm 5 = false := by
    revert hhigh
    clear hhas hu hregs hlow
    revert imm
    decide
  have hlow' : 1 ≤ imm.toNat := hlow
  have hhigh' : imm.toNat ≤ 16 := hhigh
  obtain ⟨hn, h5⟩ := hn
  have hrs : upFrom a.val (bits imm 0 5) = List.range' a.val imm.toNat := by rw [hn, upFrom_eq_range']
  refine allocates_of_run (i := { iDAI 0x83 d a imm with touch := (upFrom a.val (bits imm 0 5)).any (fun r => decide (16 ≤ r)) })
    (k := fun p => do setD d (mkCell tCONS 0#2 p); return Flow.next) rfl hs nofun ?_ (fun _ _ _ _ h => setD_ends h) ?_
  · have hlen : (compactCells ((s.thread c t).sources a.val imm.toNat)).length = imm.toNat := by
      rw [compactCells_length, Thread.sources, List.length_map, List.length_range]
    unfold padEven
    split
    · omega
    · rw [List.length_append]
      omega
  · have hsrc := runI_listSources (s := s) (c := c) (t := t)
      (i := { iDAI 0x83 d a imm with touch := (upFrom a.val (bits imm 0 5)).any (fun r => decide (16 ≤ r)) })
      (upFrom a.val (bits imm 0 5)) (fun r hr => by
        rw [hrs, List.mem_range'_1] at hr
        have hreg := hhas (r - a.val) (by omega)
        rw [Nat.add_sub_cancel' hr.1] at hreg
        exact hreg)
    have hvs : (upFrom a.val (bits imm 0 5)).map (fun r => (s.thread c t).reg (Fin.ofNat 32 r)) = (s.thread c t).sources a.val imm.toNat := by
      rw [hrs, sources_eq]
    rw [hvs] at hsrc
    rw [runI_check_passes (by simp; omega), runI_bind_ok hsrc, runI_check_passes (by simp [h5]),
      runI_bind_ok (runI_limitSources reads_workOn _ hu), h5]
    rfl

theorem cons_needs_space (h : s.ready c t = true) (hte : (s.thread c t).te = false) (hresv : (s.thread c t).resv = none)
    (ha : (s.thread c t).has a anyTag = true) (hb : (s.thread c t).has b anyTag = true) (hsup : (s.thread c t).sup = true) :
    faults (.opCons c t d a b) s c t 13#10 (fixN 1) (cellA 0x82 d a b false) := by
  refine faults_of_run (i := iDAB 0x82 d a b false) rfl h nofun rfl ?_
  have hret : (s.begun c t (iDAB 0x82 d a b false)).returnResv t = s.begun c t (iDAB 0x82 d a b false) := by
    unfold Mach.returnResv
    rw [thr_begun, hresv]
  have hspace : (s.begun c t (iDAB 0x82 d a b false)).spaceOf (s.thread c t) = none := by
    unfold Mach.spaceOf
    rw [if_neg (by simp [hte])]
  have hreq : runI (requestAlloc 2) (workOn s c t (iDAB 0x82 d a b false)) =
      (.error (.fault 13#10 (fixN 1)), workOn s c t (iDAB 0x82 d a b false)) := by
    unfold requestAlloc
    rw [runI_bind_ok (runI_me _), runI_bind_ok (runI_modM _ _), hret, runI_bind_ok (runI_get _), thr_begun, hspace]
    rfl
  rw [runI_bind_ok (runI_operand_has ha), runI_bind_ok (runI_operand_has hb), runI_bind_ok (runI_limitSource reads_workOn (.inl hsup)),
    runI_bind_ok (runI_limitSource reads_workOn (.inl hsup))]
  refine runI_bind_error ?_
  unfold allocObject
  exact runI_bind_error hreq
end

theorem boxCells_int (hi lo : Payload) : boxCells 5#4 hi lo = [0x18500002#32, raw hi, raw lo, freeRun 1] :=
  congrArg (fun h => [h, raw hi, raw lo, freeRun 1]) (show hdr 5#4 2 = 0x18500002#32 by decide)
theorem boxCells_float (hi lo : Payload) : boxCells 6#4 hi lo = [0x18600002#32, raw hi, raw lo, freeRun 1] :=
  congrArg (fun h => [h, raw hi, raw lo, freeRun 1]) (show hdr 6#4 2 = 0x18600002#32 by decide)
theorem fixProduct_range (p q : Payload) : -140737488355328 ≤ fixInt p * fixInt q ∧ fixInt p * fixInt q ≤ 140737488355327 := by
  have hp := fixInt_range p
  have hq := fixInt_range q
  constructor <;> nlinarith
theorem padEven_eq (l : List Cell) (n : Nat) (h : l.length = n) : padEven l = l ++ (if n % 2 = 1 then [freeRun 1] else []) := by
  unfold padEven
  rw [h]
  by_cases hn : n % 2 = 0
  · rw [if_pos hn, if_neg (by omega), List.append_nil]
  · rw [if_neg hn, if_pos (by omega)]
theorem objectsFromPitch : allocationsClaim := by
  intro s c t d a b imm hs
  dsimp only
  refine ⟨fun ha => ⟨fun k hk hlow hhigh => alloc_allocates hs ha hk hlow hhigh, ?_, fun hb => ⟨fun hbig => ?_, fun hbig => ?_⟩⟩,
    fun ha hb hu => cons_allocates hs ha hb hu, fun hlow hhigh hregs hhas hu => ?_⟩
  · have hbox := tof32_allocates (d := d) hs ha
    rw [boxCells_float] at hbox
    exact hbox
  · have hx := fixInt_range (cellPay ((s.thread c t).reg a))
    have hy := fixInt_range (cellPay ((s.thread c t).reg b))
    have hbox := int_allocates (ins := .add c t d a b) (d := d) (i := (iDAB 0x60 d a b false).asGeneric2 a b)
      (n := (s.thread c t).int a + (s.thread c t).int b) rfl hs nofun hbig (by simp only [Thread.int]; omega)
      (by rw [runI_regCell, runI_regCell, runI_wArith_fix (number_of_fix ha) (number_of_fix hb)]; rfl)
    rw [boxCells_int] at hbox
    exact hbox
  · have hbox := int_allocates (ins := .mul c t d a b) (d := d) (i := (iDAB 0x62 d a b false).asGeneric2 a b)
      (n := (s.thread c t).int a * (s.thread c t).int b) rfl hs nofun hbig (fixProduct_range _ _)
      (by rw [runI_regCell, runI_regCell, runI_wArith_fix (number_of_fix ha) (number_of_fix hb)]; rfl)
    rw [boxCells_int] at hbox
    exact hbox
  · have hlist := list_allocates (d := d) hs hlow hhigh hregs hhas hu
    have hlen : (compactCells ((s.thread c t).sources a.val imm.toNat)).length = imm.toNat := by
      rw [compactCells_length, Thread.sources, List.length_map, List.length_range]
    rw [padEven_eq _ _ hlen, compactCells_eq] at hlist
    exact hlist
theorem allocationNeedsManagedSpace : allocationNeedsManagedSpaceClaim := fun _ _ _ _ _ _ h hte hresv ha hb hsup =>
  cons_needs_space h hte hresv ha hb hsup

/-- Settles O28: each object comes from the pitch by one lemma. -/
theorem allocations : Obligations.Allocations := ⟨objectsFromPitch, allocationNeedsManagedSpace⟩

end Sys2Proof.Machine
end

section
/-! Large objects (R229). -/
namespace Sys2Proof.Machine

section
variable {s : State} {c : Chan} {t : Fin 8} {d a : Reg} {imm : BitVec 6} {r : Reservation}

theorem stepped_setThr {m n : Mach} (h : n = m.stepped n) (t : Fin 8) (th : Thread) : n.setThr t th = (m.setThr t th).stepped (n.setThr t th) := by
  rw [h]
  rfl
theorem peek_setThr (m : Mach) (t : Fin 8) (th : Thread) (b : Nat) : (m.setThr t th).peek b = m.peek b := rfl
theorem setThr_at {n : Mach} (h : n.c = c) {th : Thread} : ({ n.setThr t th with c := c } : Mach) = n.setThr t th := by
  subst h
  rfl
/-- A command that has stored, its slice put back, is what `onlyStep` names. -/
theorem onlyStep_of_unit {ch : Channel} {n : Mach} {th : Thread} (h : n = (({ s.mach c with ch := ch } : Mach).setThr t th).stepped n) :
    onlyStep (s.setChan c ch) (s.putMach { n with c := c }) c t th := by
  refine ⟨n.ch.perf, n.free, ch.seq[t], n.ch.mc, n.ch.led, n.ch.proc.pend,
    { ch.phys with mem := n.ch.phys.mem }, n.ch.core, { ch.pair with buf := n.ch.pair.buf, nextSeq := n.ch.pair.nextSeq }, n.ch.proc.granted, ?_⟩
  unfold State.ran
  rw [h, chan_setChan]
  simp [State.putMach, State.setChan, Mach.stepped, Mach.setThr, State.mach]

/-! ### ALLOCL whose body has been filled -/

theorem runI_wAllocl_filled {v : Cell} (hs : s.plain c t = true) (ha : (s.thread c t).has a fixTag = true) (hv : v = (s.thread c t).reg a)
    (hsel : (selKind imm).isSome = true) (hno : imm ≠ 2#6 ∧ imm ≠ 3#6 ∧ imm ≠ 6#6) (hlow : 1024 ≤ fixInt (cellPay v))
    (hhigh : fixInt (cellPay v) ≤ 1048575) (hresv : (s.thread c t).resv = some r) (hsize : (r.size : Int) = fixInt (cellPay v)) (himm : r.sel = imm)
    (hspace : (s.mach c).spaceOf (s.thread c t) = some r.slot) (hfailed : r.failed = false) (hfilled : fillLines r.size ≤ r.filled) :
    runI (wAllocl d a imm) (workOn s c t (iDAI 0x91 d a imm)) = runI (do
        commit
        modT (fun th => { th with resv := none })
        setD d (mkCell (selTag imm) 0#2 (BitVec.ofNat 24 (r.first * 0x10000)))
        return Flow.next) (workOn s c t (iDAI 0x91 d a imm)) := by
  subst hv
  have hspace' : (s.begun c t (iDAI 0x91 d a imm)).spaceOf (s.thread c t) = some r.slot := hspace
  have hsz : r.size = (fixInt (cellPay ((s.thread c t).reg a))).toNat := by omega
  have hmark : (s.begun c t (iDAI 0x91 d a imm)).markLarge r = s.begun c t (iDAI 0x91 d a imm) := by
    have hphase : (s.begun c t (iDAI 0x91 d a imm)).ch.sw.phase = .idle := plain_idle hs
    unfold Mach.markLarge
    rw [hphase]
    exact if_neg (by simp [Phase.marking])
  unfold wAllocl
  rw [runI_check_passes (by simpa [Option.isSome_iff_ne_none] using hsel), runI_bind_ok (runI_operand_has ha), runI_check_passes (by simp; omega),
    runI_check_passes (by simp [hno]), runI_bind_ok (runI_get _)]
  dsimp only
  rw [thr_begun, hspace', hresv]
  dsimp only
  rw [if_neg (by simp [hsz, himm]), runI_bind_ok (runI_getT _), thr_begun, hresv]
  dsimp only
  rw [runI_bind_ok (runI_modM _ _), hmark, hfailed, if_neg (by decide), runI_bind_ok (runI_getT _), thr_begun, hresv]
  dsimp only
  rw [if_neg (by omega)]
theorem allocl_completes (hs : s.plain c t = true) (ha : (s.thread c t).has a fixTag = true)
    (hsel : (selKind imm).isSome = true) (hno : imm ≠ 2#6 ∧ imm ≠ 3#6 ∧ imm ≠ 6#6) (hlow : 1024 ≤ (s.thread c t).int a)
    (hhigh : (s.thread c t).int a ≤ 1048575) (hresv : (s.thread c t).resv = some r) (hsize : (r.size : Int) = (s.thread c t).int a)
    (himm : r.sel = imm) (hspace : (s.mach c).spaceOf (s.thread c t) = some r.slot) (hfailed : r.failed = false)
    (hfilled : fillLines r.size ≤ r.filled) :
    completes (.allocl c t d a imm) s c t
      (({ s.thread c t with resv := none }.setReg d (mkCell (selTag imm) 0#2 (BitVec.ofNat 24 (r.first * 0x10000)))).complete .next) := by
  refine completes_of_run (i := iDAI 0x91 d a imm) (f := .next) rfl (plain_ready hs) nofun nofun nofun ?_
  rw [runI_wAllocl_filled hs ha rfl hsel hno hlow hhigh hresv hsize himm hspace hfailed hfilled, runI_bind_ok (runI_commit_nil ..),
    runI_bind_ok (runI_modT _ _), thr_begun]
  refine (runI_bind_ok (runI_modT _ _)).trans ?_
  dsimp only
  rw [thr_setThr, setThr_setThr]
  rfl

/-! ### The next line of the body -/

theorem sweeperTurn_stepped (m : Mach) (l : Nat) : m.turn .sweeper l = ({ m with ch.sw.lastLine := some l } : Mach).stepped (m.turn .sweeper l) := by
  unfold Mach.turn
  dsimp only
  rcases m.ch.sw.lastLine with _ | k <;> rfl
/-- A write by the sweeper: its line is its last (R328). -/
theorem sweeperStep_stepped (m : Mach) (l : Nat) (cells : NMap (Cell × Bool)) :
    m.memStep .sweeper l cells = ({ m with ch.sw.lastLine := some l } : Mach).stepped (m.memStep .sweeper l cells) :=
  stepped_trans (sweeperTurn_stepped m l) (memStep_steps m .sweeper l cells).1
/-- What addresses read once cells of one line of memory have been written. -/
theorem peek_of_lineCells {m n : Mach} {l : Nat} {cells : NMap (Cell × Bool)} (hn : n = m.stepped n)
    (hplace : ∀ p < 16, m.ch.place (l * 16 + p) = .memory)
    (hcell : ∀ b, n.memCell b = if b / 16 = l then writtenOver (mapGet cells (b % 16)) (m.memCell b) else m.memCell b) (b : Nat) :
    n.peek b = if b / 16 = l then writtenOver (mapGet cells (b % 16)) (m.peek b) else m.peek b := by
  by_cases hb : m.ch.place b = .memory
  · rw [peek_memory ((stepped_place hn b).trans hb), peek_memory hb, hcell]
  · rw [peek_of_stepped hn hb, if_neg]
    intro hline
    refine hb ?_
    have heq : l * 16 + b % 16 = b := by omega
    exact heq ▸ hplace (b % 16) (Nat.mod_lt _ (by decide))
theorem peek_sweeperStep {m : Mach} {l : Nat} {cells : NMap (Cell × Bool)} (hplace : ∀ p < 16, m.ch.place (l * 16 + p) = .memory) (b : Nat) :
    (m.memStep .sweeper l cells).peek b = if b / 16 = l then writtenOver (mapGet cells (b % 16)) (m.peek b) else m.peek b :=
  peek_of_lineCells (m := { m with ch.sw.lastLine := some l }) (sweeperStep_stepped m l cells) hplace (memCell_memStep m .sweeper l cells) b
theorem mapGet_lineOf : ∀ (vs : List Cell) (k p : Nat), mapGet (lineOf k vs) p = if k ≤ p then (vs[p - k]?).map (fun v => (v, false)) else none
  | [], k, p => by simp [lineOf]
  | v :: r, k, p => by
    unfold lineOf mapGet
    rw [mapGet_lineOf r (k + 1) p]
    by_cases hk : k = p
    · simp [hk]
    · rw [if_neg hk]
      by_cases hle : k + 1 ≤ p
      · have hp : p - k = p - (k + 1) + 1 := by omega
        rw [if_pos hle, if_pos (show k ≤ p by omega), hp, List.getElem?_cons_succ]
      · rw [if_neg hle, if_neg (show ¬ k ≤ p by omega)]

/-! ### The sweeper's work -/

theorem sweep_bind_ok {α β : Type} {w : SM α} {k : α → SM β} {m n : Mach} {v : α} (h : m.sweep w = (.ok v, n)) :
    m.sweep (w >>= k) = n.sweep (k v) := by
  unfold Mach.sweep at h ⊢
  simp only [ExceptT.run_bind, StateT.run_bind]
  rw [h]
  rfl
@[simp] theorem sweep_pure {α : Type} (m : Mach) (v : α) : m.sweep (pure v) = (.ok v, m) := rfl
@[simp] theorem sweep_get (m : Mach) : m.sweep (get : SM Mach) = (.ok m, m) := rfl
@[simp] theorem sweep_swMod (m : Mach) (f : Mach → Mach) : m.sweep (swMod f) = (.ok (), f m) := rfl
@[simp] theorem sweep_swUse {α : Type} (m : Mach) (f : Mach → α × Mach) : m.sweep (swUse f) = (.ok (f m).1, (f m).2) := rfl
theorem sweep_check_passes {α : Type} {p : Prop} [Decidable p] {x : SM PUnit} {k : PUnit → SM α} {m : Mach} (h : ¬ p) :
    m.sweep (if p then x >>= k else k ⟨⟩) = m.sweep (k ⟨⟩) := by rw [if_neg h]
/-- A write through the translation the sweeper keeps, its page marked dirty already (R290, R299). -/
theorem sweep_swXlate {m : Mach} {sl : Fin 8} {va i : Nat} {f : Payload}
    (hx : m.ch.sw.xlate = some (BitVec.ofNat 14 (va / 1024), (m.slot sl).asid, i, f)) (hw : bit f 1 = true) (ha : bit f 21 = true)
    (hd : bit f 20 = true) (htyp : flType f ≠ 2#2) (hplace : m.ch.place (m.ch.pageBase i + va % 1024) = .memory) :
    m.sweep (swXlate sl va false true) = (.ok (m.ch.pageBase i + va % 1024), m) := by
  have hpage : m.sweep (swPage (BitVec.ofNat 14 (va / 1024)) (m.slot sl).asid) = (.ok (i, f), m) := by
    unfold swPage
    rw [sweep_bind_ok (sweep_get m), hx]
    dsimp only
    rw [if_pos (by simp)]
    rfl
  have honce : m.sweep (swXlateOnce sl va false true) = (.ok (some (m.ch.pageBase i + va % 1024)), m) := by
    unfold swXlateOnce
    rw [sweep_bind_ok (sweep_get m), sweep_bind_ok hpage]
    dsimp only
    rw [sweep_check_passes (by simp [hw, htyp]), sweep_bind_ok (sweep_get m), sweep_bind_ok (sweep_get m), sweep_check_passes (by simp [hplace]),
      if_neg (by simp [ha, hd])]
    rfl
  unfold swXlate swXlateN
  rw [sweep_bind_ok honce]
  rfl
theorem sweep_swWriteLine {m : Mach} {sl : Fin 8} {va i : Nat} {f : Payload} {vs : List Cell}
    (hx : m.ch.sw.xlate = some (BitVec.ofNat 14 (va / 1024), (m.slot sl).asid, i, f)) (hw : bit f 1 = true) (ha : bit f 21 = true)
    (hd : bit f 20 = true) (htyp : flType f ≠ 2#2) (hplace : m.ch.place (m.ch.pageBase i + va % 1024) = .memory) :
    m.sweep (swWriteLine sl va vs) = (.ok (), m.memStep .sweeper ((m.ch.pageBase i + va % 1024) / 16)
      (lineOf ((m.ch.pageBase i + va % 1024) % 16) vs)) := by
  unfold swWriteLine
  rw [sweep_bind_ok (sweep_swXlate hx hw ha hd htyp hplace)]
  refine (sweep_swMod m _).trans ?_
  rw [hplace]
/-- The fill of a reservation's body writes its next line and counts it (R229). -/
theorem fillStep_writes {m : Mach} {i : Nat} {f : Payload} {k : Nat}
    (hx : m.ch.sw.xlate = some (BitVec.ofNat 14 (r.lineVa r.filled / 1024), (m.slot r.slot).asid, i, f)) (hw : bit f 1 = true) (ha : bit f 21 = true)
    (hd : bit f 20 = true) (htyp : flType f ≠ 2#2) (hk : k = m.ch.pageBase i + r.lineVa r.filled % 1024) (hplace : m.ch.place k = .memory) :
    (m.fillStep t r).2 = (m.memStep .sweeper (k / 16) (lineOf (k % 16) (r.line r.filled))).setThr t
      { m.thr t with resv := some { r with filled := r.filled + 1, failed := false } } := by
  subst hk
  have hwrite := sweep_swWriteLine (vs := r.line r.filled) hx hw ha hd htyp hplace
  have hthr : ∀ n : Mach, n = ({ m with ch.sw.lastLine := some ((m.ch.pageBase i + r.lineVa r.filled % 1024) / 16) } : Mach).stepped n →
      n.thr t = m.thr t := fun n hn => stepped_thr hn t
  unfold Mach.fillStep Mach.sweepTry
  rw [hwrite]
  dsimp only
  rw [hthr _ (sweeperStep_stepped m _ _)]
theorem pageBase_mod (ch : Channel) (i : Nat) : ch.pageBase i % 1024 = 0 := by
  unfold Channel.pageBase
  split
  · omega
  · split <;> omega
theorem line_length (r : Reservation) (j : Nat) : (r.line j).length ≤ 16 := by
  unfold Reservation.line
  rw [List.length_map, upFrom_eq_range', List.length_range']
  exact Nat.min_le_left _ _
theorem alloclBodyFill_writes {i k : Nat} {f : Payload} (hcond : (s.chan c).life.cond = .running) (hpower : (s.chan c).life.power = .run)
    (hresv : (s.thread c t).resv = some r) (hfailed : r.failed = false) (hfilled : r.filled < fillLines r.size)
    (hx : (s.chan c).sw.xlate = some (BitVec.ofNat 14 (r.lineVa r.filled / 1024), ((s.chan c).sw.slots[r.slot]).asid, i, f))
    (hw : bit f 1 = true) (hd : bit f 20 = true) (ha : bit f 21 = true) (htyp : flType f ≠ 2#2)
    (hk : k = (s.chan c).pageBase i + r.lineVa r.filled % 1024) (hplace : (s.chan c).place k = .memory) :
    ∃ s', exec (.alloclBodyFill c t) s = .next s' ∧
      onlyStep (s.setChan c { s.chan c with sw := { (s.chan c).sw with lastLine := some (k / 16) } }) s' c t
        { s.thread c t with resv := some { r with filled := r.filled + 1, failed := false } } ∧
      ∀ b, s'.cell c b = if b / 16 = k / 16 then writtenOver (mapGet (lineOf (k % 16) (r.line r.filled)) (b % 16)) (s.cell c b) else s.cell c b := by
  have hstep := fillStep_writes (m := s.mach c) (t := t) hx hw ha hd htyp hk hplace
  have hsteps := sweeperStep_stepped (s.mach c) (k / 16) (lineOf (k % 16) (r.line r.filled))
  have hpeek := peek_sweeperStep (m := s.mach c) (cells := lineOf (k % 16) (r.line r.filled)) (place_of_line hplace)
  generalize hn : (s.mach c).memStep .sweeper (k / 16) (lineOf (k % 16) (r.line r.filled)) = n at hstep hsteps hpeek
  have hfill : (s.mach c).alloclBodyFill t = n.setThr t { s.thread c t with resv := some { r with filled := r.filled + 1, failed := false } } := by
    have hthr : (s.mach c).thr t = s.thread c t := rfl
    have hworks : (s.mach c).works = true := by simp [Mach.works, Mach.fastOn, hcond, hpower]
    unfold Mach.alloclBodyFill
    rw [hthr, hresv]
    exact (if_pos (by simp [hworks, hfailed, hfilled])).trans hstep
  generalize hth : { s.thread c t with resv := some { r with filled := r.filled + 1, failed := false } } = th at hfill ⊢
  have hc : n.c = c := by
    rw [hsteps]
    rfl
  refine ⟨s.putMach { n.setThr t th with c := c }, ?_, onlyStep_of_unit (stepped_setThr hsteps t th), fun b => ?_⟩
  · refine Eq.trans (b := Host.Outcome.next (s.onMach c (fun m => m.alloclBodyFill t))) rfl ?_
    unfold State.onMach
    dsimp only
    rw [hfill]
  · rw [State.cell, mach_putMach s rfl, setThr_at hc, peek_setThr, hpeek]
    rfl
end

/-- Settles O29: ALLOCL takes its filled reservation, and each fill writes one line. -/
theorem largeAllocation : Obligations.LargeAllocation := by
  refine ⟨fun s c t d a imm r hs => ?_, fun s c t r i k f hcond hpower hresv hfailed hfilled hx hw hd ha htyp hk hplace => ?_⟩
  · intro th ha hsel h2 h3 h6 hlow hhigh hresv hsize himm hspace hfailed hfilled
    exact allocl_completes hs ha hsel ⟨h2, h3, h6⟩ hlow hhigh hresv hsize himm hspace hfailed hfilled
  · obtain ⟨s', hex, honly, hcell⟩ := alloclBodyFill_writes hcond hpower hresv hfailed hfilled hx hw hd ha htyp hk hplace
    have hbase := pageBase_mod (s.chan c) i
    have hva : r.lineVa r.filled % 16 = 0 := by
      unfold Reservation.lineVa
      omega
    have hk16 : k % 16 = 0 := by omega
    have hlen := line_length r r.filled
    refine ⟨s', hex, honly, fun j hj => ?_, fun b hb => ?_⟩
    · have hj16 : (k + j) % 16 = j := by omega
      rw [hcell, if_pos (by omega), mapGet_lineOf, hk16, hj16, if_pos (Nat.zero_le j), Nat.sub_zero, List.getElem?_eq_getElem hj]
      rfl
    · rw [hcell]
      split
      · next hline =>
        rw [mapGet_lineOf, hk16, if_pos (Nat.zero_le _), Nat.sub_zero, List.getElem?_eq_none (by omega)]
        rfl
      · rfl

end Sys2Proof.Machine
end

section
/-! Context halves in crates (R281-R285). -/
namespace Sys2Proof.Machine

/-! ### How many entries stores one after another take -/

/-- The buffer of core k has room for a cell of line l in at most n entries. -/
def Mach.fits (m : Mach) (k : Fin 2) (l n : Nat) : Prop :=
  (m.core k).wb.length ≤ n ∧ ((m.core k).wb.length = n → ∃ y, (m.core k).wb.getLast? = some y ∧ y.kind = .memory ∧ y.line = l)
theorem fits_empty {m : Mach} {k : Fin 2} (h : (m.core k).wb = []) (l : Nat) : m.fits k l 1 := by
  unfold Mach.fits
  rw [h]
  exact ⟨Nat.zero_le _, nofun⟩
theorem fits_next {m : Mach} {k : Fin 2} {l n : Nat} (h : m.fits k l n) (l' : Nat) : m.fits k l' (n + 1) :=
  ⟨Nat.le_succ_of_le h.1, fun hn => by have := h.1; omega⟩
theorem fits_room {m : Mach} {k : Fin 2} {l n : Nat} (h : m.fits k l n) (hn : n < 8) : (m.core k).wb.length < 8 := Nat.lt_of_le_of_lt h.1 hn
theorem buffer_fits {m : Mach} {t : Fin 8} {x n : Nat} {v : Cell} {mk : Bool} {logs : List (Fin 8 × BitVec 24)}
    (h : m.fits (coreOf t) (x / 16) n) (hn : n < 8) : (m.buffer t x v mk logs).fits (coreOf t) (x / 16) n := by
  obtain ⟨hlen, hlast⟩ := h
  unfold Mach.fits
  rcases buffer_cases m t x v mk logs with ⟨y, init, hwb, hkind, hline, heq⟩ | ⟨hno, heq⟩
  · rw [heq, withWb_core]
    rw [hwb, List.length_append] at hlen
    exact ⟨by simpa using hlen, fun _ => ⟨y.merge t x v mk logs, by simp, hkind, hline⟩⟩
  · have hlt : (m.core (coreOf t)).wb.length < n := by
      refine Nat.lt_of_le_of_ne hlen fun he => ?_
      obtain ⟨y, hy, hmem⟩ := hlast he
      exact hno y hy hmem
    rw [heq, wbPush_room (by omega), withWb_core]
    exact ⟨by simp; omega, fun _ => ⟨cellEntry t x v mk logs, by simp, rfl, rfl⟩⟩

section
variable {s : State} {c : Chan} {t : Fin 8} {i : Ins} {st : IS} {ins : Instr} {th : Thread} {ch : Channel} {f : Nat → Cell}

/-! ### Barrier writes one after another -/

/-- A whole cell written as a barrier write while no cycle runs, into a buffer that takes it. -/
theorem runI_barrierStore_takes {x : Nat} {v : Cell} {va : VAddr} (h : leftCells s c t i th ch f st) (hphase : ch.sw.phase = .idle)
    (hx : ch.place x = .memory) (hroom : (st.m.core (coreOf t)).wb.length < 8 ∨ st.m.allPlain (coreOf t)) :
    ∃ m, perfOnly st.m m ∧
      leftCells s c t i th ch (fun b => if b = x then v else f b) { st with m := m.buffer t x v false (st.m.logAction th va v) } ∧
      runI (barrierStore va { phys := x, typ := 0#2 } v false false) st =
        (.ok (), { st with m := m.buffer t x v false (st.m.logAction th va v) }) := by
  have hphase' : st.m.ch.sw.phase = .idle := by
    rw [h.slice]
    exact hphase
  have hself : st.m.thr st.t = th := by
    rw [h.who]
    exact (stepped_thr h.slice t).trans (thr_setThr _ t th)
  obtain ⟨m, hm, hcount⟩ := runI_countLogs (st := st) (u := st.t) (logs := st.m.logAction th va v) (k := fun _ => do
    snapshot { phys := x, typ := 0#2 }
    bufStore { phys := x, typ := 0#2 } v false (st.m.logAction th va v))
  have hm' : m = ((s.begunAs c t i ch).setThr t th).stepped m := stepped_trans h.slice (stepsOnly_of_perf hm).1
  have hroom' : (m.core (coreOf t)).wb.length < 8 ∨ m.allPlain (coreOf t) := by
    obtain ⟨p, k, rfl⟩ := hm
    exact hroom
  have hseen' (b : Nat) : m.seenBy (coreOf t) b = f b := by
    obtain ⟨p, k, rfl⟩ := hm
    exact h.seen b
  have hkind : m.wbKind x = .memory := by
    have hplace : m.ch.place x = .memory := (stepped_place hm' x).trans hx
    unfold Mach.wbKind
    rw [hplace]
  obtain ⟨hbuf, hread⟩ := buffer_takes (m := m) (t := t) (x := x) (v := v) (mk := false) (logs := st.m.logAction th va v) hroom'
  refine ⟨m, hm, ⟨h.who, stepped_trans hm' hbuf, fun b => ?_⟩, ?_⟩
  · refine (hread b).trans ?_
    rw [hseen']
    rfl
  · unfold barrierStore
    simp only [Bool.false_or]
    rw [runI_targetsEvac hphase', if_neg (by decide), runI_bind_ok (runI_get _), hself, hcount,
      runI_snapshot (st := { st with m := m }) (by rw [hm']; exact hphase)]
    unfold bufStore
    rw [runI_bind_ok (runI_me _)]
    refine (runI_modM _ _).trans ?_
    dsimp only
    rw [hkind, h.who]
    rfl
theorem runI_barrierStore_cells {x : Nat} {v : Cell} {va : VAddr} {n : Nat} (h : leftCells s c t i th ch f st) (hphase : ch.sw.phase = .idle)
    (hx : ch.place x = .memory) (hfit : st.m.fits (coreOf t) (x / 16) n) (hn : n < 8) :
    ∃ st', leftCells s c t i th ch (fun b => if b = x then v else f b) st' ∧ st'.m.fits (coreOf t) (x / 16) n ∧
      runI (barrierStore va { phys := x, typ := 0#2 } v false false) st = (.ok (), st') := by
  obtain ⟨m, hm, h', hrun⟩ := runI_barrierStore_takes (v := v) (va := va) h hphase hx (.inl (fits_room hfit hn))
  have hfit' : m.fits (coreOf t) (x / 16) n := by
    obtain ⟨p, k, rfl⟩ := hm
    exact hfit
  exact ⟨_, h', buffer_fits hfit' hn, hrun⟩
/-- Cells of a crate from cell j up (R281): at most one entry more for each further line. -/
theorem runI_crateWrite {x : Nat} {va : VAddr} (hphase : ch.sw.phase = .idle) : ∀ (cells : List Cell) (j n : Nat) {f : Nat → Cell} {st : IS},
    leftCells s c t i th ch f st → (∀ p < cells.length, ch.place (x + j + p) = .memory) → st.m.fits (coreOf t) ((x + j) / 16) n →
    n + ((x + j + cells.length) / 16 - (x + j) / 16) < 8 →
    ∃ st', leftCells s c t i th ch (writtenRange (x + j) cells f) st' ∧
      st'.m.fits (coreOf t) ((x + j + cells.length) / 16) (n + ((x + j + cells.length) / 16 - (x + j) / 16)) ∧
      runI (crateWrite va { phys := x, typ := 0#2 } j cells) st = (.ok (), st')
  | [], j, n, f, st, h, _, hfit, _ => by
    refine ⟨st, ⟨h.who, h.slice, fun b => by rw [h.seen, writtenRange_nil]⟩, ?_, rfl⟩
    simpa using hfit
  | v :: r, j, n, f, st, h, hx, hfit, hn => by
    rw [List.length_cons] at hn hx
    obtain ⟨st1, h1, hfit1, hstore⟩ := runI_barrierStore_cells (v := v) (va := va + BitVec.ofNat 24 j) h hphase (hx 0 (Nat.zero_lt_succ _)) hfit
      (by omega)
    have hfit2 : st1.m.fits (coreOf t) ((x + (j + 1)) / 16) (n + ((x + (j + 1)) / 16 - (x + j) / 16)) := by
      by_cases hline : (x + (j + 1)) / 16 = (x + j) / 16
      · rw [hline, Nat.sub_self]
        exact hfit1
      · rw [show (x + (j + 1)) / 16 - (x + j) / 16 = 1 by omega]
        exact fits_next hfit1 _
    obtain ⟨st2, h2, hfit3, hrest⟩ := runI_crateWrite hphase r (j + 1) _ h1 (fun p hp => by
      have hnext := hx (p + 1) (by omega)
      rw [show x + (j + 1) + p = x + j + (p + 1) by omega]
      exact hnext) hfit2 (by omega)
    refine ⟨st2, ⟨h2.who, h2.slice, fun b => ?_⟩, ?_, ?_⟩
    · rw [h2.seen]
      exact writtenRange_cons (x + j) v r f b
    · rw [List.length_cons]
      have hend : x + (j + 1) + r.length = x + j + (r.length + 1) := by omega
      rw [hend] at hfit3
      rw [show n + ((x + j + (r.length + 1)) / 16 - (x + j) / 16) =
        n + ((x + (j + 1)) / 16 - (x + j) / 16) + ((x + j + (r.length + 1)) / 16 - (x + (j + 1)) / 16) by omega]
      exact hfit3
    · unfold crateWrite
      exact (runI_bind_ok hstore).trans hrest

/-! ### The crate -/

theorem reads_usedMap {g : TlbEntry × Bool × VAddr → TlbEntry × Bool × VAddr} (h : reads s c t i st)
    (hg : ∀ u ∈ st.used, marked (st.m.core (coreOf t)).tlb (g u)) : reads s c t i { st with used := st.used.map g } := by
  refine ⟨h.who, h.slice, fun u hu => ?_⟩
  obtain ⟨w, hw, rfl⟩ := List.mem_map.mp hu
  exact hg w hw
/-- A cell of a crate whose first cell lies at x: it lies in the same page. -/
theorem crate_place {a : VAddr} {need : Need} {x : Nat} (hreach : s.reach c t a need = some x) (ha : bits a 0 5 = 0) (p : Nat) (hp : p < 32) :
    (s.chan c).place (x + p) = .memory := by
  refine place_of_page (reach_memory hreach) ?_
  have hmod := reach_mod hreach
  have hlow : a.toNat % 32 = 0 := by
    rw [← ha]
    simp [bits, BitVec.extractLsb'_toNat]
  omega
theorem crate_line {a : VAddr} {need : Need} {x : Nat} (hreach : s.reach c t a need = some x) (ha : bits a 0 5 = 0) : x % 32 = 0 := by
  have hmod := reach_mod hreach
  have hlow : a.toNat % 32 = 0 := by
    rw [← ha]
    simp [bits, BitVec.extractLsb'_toNat]
  omega
theorem runI_crateCell {x j : Nat} (hs : s.plain c t = true) (hx : (s.chan c).place (x + j) = .memory) (h : reads s c t i st) :
    ∃ st', reads s c t i st' ∧ runI (crateCell { phys := x, typ := 0#2 } j) st = (.ok (s.cell c (x + j)), st') :=
  runI_readCell hs hx h
/-- A crate found whole: the access is translated for the rights asked for, and marks the page dirty (R283, R284, R299). -/
theorem runI_crateAt {p : Cell} {need need' : Need} {x : Nat} (hs : s.plain c t = true) (hsup : (s.thread c t).sup = true)
    (hp : cellTag p = tCRATE) (ha : bits (cellPay p) 0 5 = 0) (hreach : s.reach c t (cellPay p) need = some x) (hw : need.w = true)
    (hr' : need'.r = true → need.r = true) (hhdr : s.cell c x = 0x1880001F#32) :
    ∃ st', reads s c t i st' ∧ runI (crateAt p need') (workOn s c t i) = (.ok (cellPay p, { phys := x, typ := 0#2 }), st') := by
  obtain ⟨st1, h1, hused, hxl⟩ := runI_xlateWithin (need' := need') hreach hr' (fun _ => hw) (reads_workOn (i := i))
  have h2 : reads s c t i { st1 with used := st1.used.map (fun u => (u.1, true, u.2.2)) } := reads_usedMap h1 fun u hu => by
    have hmark := (hused u hu).resolve_left List.not_mem_nil
    rw [hw] at hmark
    exact hmark
  obtain ⟨st3, h3, hread⟩ := runI_readCell hs (reach_memory hreach) h2
  have hcrate : s.cell c x = crateHdr := hhdr.trans (by decide)
  refine ⟨st3, h3, ?_⟩
  unfold crateAt
  rw [hsup] at hxl
  rw [runI_check_passes (by simp [hp]), runI_bind_ok hxl, runI_bind_ok (runI_modify _ _), runI_check_passes (by simp [ha]), runI_bind_ok hread,
    runI_check_passes (by simp [hcrate])]
  rfl

/-! ### SAVEL and SAVEU -/

theorem take_regs (v : Vector Cell 32) : v.toList.take 16 = (List.range 16).map (fun i => v[Fin.ofNat 32 i]) := by
  refine List.ext_getElem (by simp) fun i h1 h2 => ?_
  have hi : i < 16 := by simpa using h2
  have hmod : i % 32 = i := Nat.mod_eq_of_lt (by omega)
  simp [hmod]
theorem drop_regs (v : Vector Cell 32) : v.toList.drop 16 = (List.range 16).map (fun i => v[Fin.ofNat 32 (16 + i)]) := by
  refine List.ext_getElem (by simp) fun i h1 h2 => ?_
  have hi : i < 16 := by simpa using h2
  have hmod : (16 + i) % 32 = 16 + i := Nat.mod_eq_of_lt (by omega)
  simp [hmod]
theorem lowerCells_eq (th : Thread) (resume : VAddr) : th.lowerCells resume = lowerImage th resume := by
  unfold Thread.lowerCells lowerImage frameCell
  rw [take_regs]
  rcases th.shlvl with _ | _ <;> rfl
theorem upperCells_eq (th : Thread) : th.upperCells = upperImage th := by
  unfold Thread.upperCells upperImage
  rw [drop_regs]
  rfl

/-- The channel with another head of the free list. -/
def Channel.withCfree (ch : Channel) (v : Cell) : Channel := { ch with proc := { ch.proc with cfree := v } }
/-- A slice that has read, with another head of the free list. -/
theorem leftCells_cfree {v : Cell} (hs : s.plain c t = true) (h : reads s c t i st) :
    leftCells s c t i (s.thread c t) ((s.chan c).withCfree v) (s.seen c t) { st with m := { st.m with ch.proc.cfree := v } } := by
  refine ⟨h.who, ?_, fun b => reads_seen hs h b⟩
  have hself : (s.begunAs c t i ((s.chan c).withCfree v)).setThr t (s.thread c t) = s.begunAs c t i ((s.chan c).withCfree v) := setThr_thr _ _
  rw [hself]
  dsimp only
  rw [(stepsOnly_of_looks h.slice).1]
  rfl
theorem cells_self (h : leftCells s c t i th ch f st) : st.m.thr st.t = th := by
  rw [h.who]
  exact (stepped_thr h.slice t).trans (thr_setThr _ t th)
/-- A half saved in the crate at the head of the free list (R283). -/
theorem runI_saveHalf {half x : Nat} {cells : Thread → List Cell} {fillFirst : IM Unit} (hs : s.plain c t = true)
    (hsup : (s.thread c t).sup = true) (hfree : cellTag (s.chan c).proc.cfree = tCRATE) (ha : bits (cellPay (s.chan c).proc.cfree) 0 5 = 0)
    (hreach : s.reach c t (cellPay (s.chan c).proc.cfree) needW = some x) (hhdr : s.cell c x = 0x1880001F#32)
    (hfill : ∀ st, reads s c t i st → runI fillFirst st = (.ok (), st)) (hlen : (cells (s.thread c t)).length = 24) :
    ∃ st', leftCells s c t i { s.thread c t with chain := mkCell tCRATE 0#2 (cellPay (s.chan c).proc.cfree) }
        ((s.chan c).withCfree (s.cell c (x + 1)))
        (writtenRange (x + 1) [linkCell (s.thread c t).chain, fixN (8 * half + t.val)]
          (writtenRange (x + 3) (cells (s.thread c t)) (s.seen c t))) st' ∧
      runI (saveHalf half cells fillFirst) (workOn s c t i) = (.ok .next, st') := by
  have hplace (p : Nat) (hp : p < 32) := crate_place hreach ha p hp
  have hx := crate_line hreach ha
  obtain ⟨st1, h1, hcrate⟩ := runI_crateAt (need' := needW) hs hsup hfree ha hreach rfl nofun hhdr (i := i)
  obtain ⟨st2, h2, hnext⟩ := runI_crateCell (j := 1) hs (hplace 1 (by decide)) h1
  obtain ⟨st3, h3, -, -, hcommit⟩ := runI_commit h2
  have h4 := leftCells_cfree (v := s.cell c (x + 1)) hs h3
  have hfit : ({ st3.m with ch.proc.cfree := s.cell c (x + 1) } : Mach).fits (coreOf t) ((x + 3) / 16) 1 := fits_empty (reads_wb hs h3) _
  obtain ⟨st5, h5, hfit5, hhalf⟩ := runI_crateWrite (ch := (s.chan c).withCfree (s.cell c (x + 1)))
    (va := cellPay (s.chan c).proc.cfree) (x := x) (plain_idle hs) (cells (s.thread c t)) 3 1 h4
    (fun p hp => by rw [Nat.add_assoc]; exact hplace (3 + p) (by omega)) hfit (by omega)
  obtain ⟨st6, h6, -, hlink⟩ := runI_crateWrite (ch := (s.chan c).withCfree (s.cell c (x + 1)))
    (va := cellPay (s.chan c).proc.cfree) (x := x) (plain_idle hs)
    [linkCell (s.thread c t).chain, fixN (8 * half + t.val)] 1 3 h5
    (fun p hp => by rw [Nat.add_assoc]; exact hplace (1 + p) (by simp at hp; omega))
    (by
      have hsix := fits_next hfit5 ((x + 1) / 16)
      rw [hlen, show (x + 3 + 24) / 16 - (x + 3) / 16 = 1 by omega] at hsix
      exact hsix)
    (by simp; omega)
  obtain ⟨st7, h7, hchain⟩ := runI_modT_cells (g := fun th => { th with chain := mkCell tCRATE 0#2 (cellPay (s.chan c).proc.cfree) })
    (k := fun _ => pure Flow.next) h6
  refine ⟨st7, h7, ?_⟩
  have hempty : ¬ emptyLink (s.chan c).proc.cfree = true := by
    have hfix : ¬ tCRATE = tFIX := by decide
    have hconst : ¬ tCRATE = tCONST := by decide
    simp [emptyLink, isNil, hfree, hfix, hconst]
  have hown : (workOn s c t i).m.ch.proc.cfree = (s.chan c).proc.cfree := rfl
  have hunused : reads s c t i { st2 with used := [] } := reads_unused h2
  unfold saveHalf
  rw [runI_bind_ok (runI_me _), runI_bind_ok (runI_getM _), hown]
  dsimp only
  rw [runI_check_passes hempty, runI_bind_ok hcrate, runI_bind_ok hnext, runI_bind_ok (runI_get _), runI_bind_ok (runI_modify _ _),
    runI_bind_ok (hfill _ hunused), runI_bind_ok (runI_modify _ _), runI_bind_ok hcommit]
  have hdrain : runI drainMine st3 = (.ok (), st3) := by
    unfold drainMine
    rw [runI_bind_ok (runI_me _), runI_modM, h3.who, drainThread_empty (reads_wb hs h3), ← h3.who]
  have hget := (runI_getT _).trans (congrArg (fun x => (Except.ok x, _)) (cells_self h4))
  rw [runI_bind_ok hdrain, runI_bind_ok (runI_modM _ _)]
  refine (runI_bind_ok hget).trans ?_
  rw [runI_bind_ok hhalf, runI_bind_ok hlink]
  exact hchain
/-- What SAVEL and SAVEU leave. -/
theorem saves_of_run {half x : Nat} {cells : Thread → List Cell} {fillFirst : IM Unit} {w : IM Flow} (hex : exec ins s = .next (s.issue c t i w))
    (hs : s.plain c t = true) (hsup : (s.thread c t).sup = true)
    (hfree : cellTag (s.chan c).proc.cfree = tCRATE) (ha : bits (cellPay (s.chan c).proc.cfree) 0 5 = 0)
    (hreach : s.reach c t (cellPay (s.chan c).proc.cfree) needW = some x) (hhdr : s.cell c x = 0x1880001F#32)
    (hfill : ∀ st, reads s c t i st → runI fillFirst st = (.ok (), st)) (hlen : (cells (s.thread c t)).length = 24)
    (hw : runI w (workOn s c t i) = runI (saveHalf half cells fillFirst) (workOn s c t i)) :
    ∃ s', exec ins s = .next s' ∧
      onlyStep (s.setChan c { s.chan c with proc := { (s.chan c).proc with cfree := s.cell c (x + 1) } }) s' c t
        ({ s.thread c t with chain := mkCell tCRATE 0#2 (cellPay (s.chan c).proc.cfree) }.complete .next) ∧
      s'.seen c t (x + 1) = (if cellTag (s.thread c t).chain = tFIX then cNIL else (s.thread c t).chain) ∧
      s'.seen c t (x + 2) = fixN (8 * half + t.val) ∧
      (∀ (j : Nat) (h : j < (cells (s.thread c t)).length), s'.seen c t (x + 3 + j) = (cells (s.thread c t))[j]) ∧
      ∀ b, b ≤ x ∨ x + 27 ≤ b → s'.seen c t b = s.seen c t b := by
  obtain ⟨st, h, hrun⟩ := runI_saveHalf (i := i) (half := half) hs hsup hfree ha hreach hhdr hfill hlen
  obtain ⟨s', hex', honly, -, -, hseen⟩ := stepped_of_run (f := .next) hex (plain_ready hs) (fun _ => hsup) nofun nofun (hw.trans hrun) h.slice
  have hread (b : Nat) := (seen_eq s' c t b).trans ((hseen (coreOf t) b).trans (h.seen b))
  refine ⟨s', hex', honly, ?_, ?_, fun j hj => ?_, fun b hb => ?_⟩
  · rw [hread]
    exact writtenRange_in _ 0 (by simp)
  · rw [hread, show x + 2 = x + 1 + 1 by omega]
    exact writtenRange_in _ 1 (by simp)
  · rw [hread, writtenRange_out _ (.inr (by simp)), writtenRange_in _ j hj]
  · rw [hread, writtenRange_out _ (by simp; omega), writtenRange_out _ (by omega)]
theorem image_length (th : Thread) (a : VAddr) : (lowerImage th a).length = 24 ∧ (upperImage th).length = 24 := by
  simp [lowerImage, upperImage]
theorem runI_noShadow {α : Type} {k : Unit → IM α} (hshb : (s.thread c t).shb = false) :
    runI (noShadow >>= k) (workOn s c t i) = runI (k ()) (workOn s c t i) := by
  refine runI_bind_ok ?_
  unfold noShadow
  rw [runI_bind_ok (runI_getT _), thr_begun, hshb]
  rfl
theorem runI_noShadow_fails {α : Type} {k : Unit → IM α} (hshb : (s.thread c t).shb = true) :
    runI (noShadow >>= k) (workOn s c t i) = (.error (.fault 1#10 fix0), workOn s c t i) := by
  refine runI_bind_error ?_
  unfold noShadow
  rw [runI_bind_ok (runI_getT _), thr_begun, hshb]
  rfl
theorem ready_lz (h : s.ready c t = true) : (s.thread c t).lz = false := by
  unfold State.ready at h
  simp only [Bool.and_eq_true, Bool.not_eq_true'] at h
  exact h.2
end

theorem savedHalves : saveHalvesClaim := by
  intro s c t imm k hs hsup hshb
  dsimp only
  intro hfree ha hreach hhdr
  refine ⟨fun himm => ?_, ?_⟩
  · have hsave := saves_of_run (ins := .savel c t imm) (half := 0) (i := (iL 0xB0 imm).asSup) (cells := fun th => th.lowerCells (th.pc + imm.setWidth 24))
      (fillFirst := do if (← getT).lz then tryCatch fillUpper (fun _ => throw .lockup)) rfl hs hsup hfree ha hreach hhdr
      (fun st h => by
        rw [runI_getT_reads h, ready_lz (plain_ready hs)]
        rfl)
      (by rw [lowerCells_eq]; exact (image_length _ _).1)
      (by rw [runI_noShadow hshb]; exact runI_check_passes himm)
    simp only [lowerCells_eq] at hsave
    exact hsave
  · have hsave := saves_of_run (ins := .saveu c t) (half := 1) (i := (iN 0xB1).asSup.touching) (cells := Thread.upperCells)
      (fillFirst := pure ()) rfl hs hsup hfree ha hreach hhdr (fun st _ => rfl)
      (by rw [upperCells_eq]; exact (image_length (s.thread c t) 0#24).2)
      (by rw [runI_noShadow hshb])
    simp only [upperCells_eq] at hsave
    exact hsave
theorem crateFaults : crateFaultsClaim := by
  intro s c t imm h hsup himm
  refine ⟨fun hshb hfree => ?_, fun hshb => ?_⟩
  · have hempty : emptyLink (s.chan c).proc.cfree = true := by
      rcases hfree with e | e <;>
      · rw [e]
        decide
    have hhalf (half : Nat) (cells : Thread → List Cell) (fillFirst : IM Unit) (i : Ins) :
        runI (saveHalf half cells fillFirst) (workOn s c t i) = (.error (.fault 14#10 fix0), workOn s c t i) := by
      have hown : (workOn s c t i).m.ch.proc.cfree = (s.chan c).proc.cfree := rfl
      unfold saveHalf
      rw [runI_bind_ok (runI_me _), runI_bind_ok (runI_getM _), hown]
      exact runI_check_fails hempty
    refine ⟨faults_of_run (i := (iL 0xB0 imm).asSup) rfl h (fun _ => hsup) rfl ?_, faults_of_run (i := (iN 0xB1).asSup.touching) rfl h (fun _ => hsup) rfl ?_⟩
    · rw [runI_noShadow hshb, runI_check_passes himm]
      exact hhalf _ _ _ _
    · rw [runI_noShadow hshb]
      exact hhalf _ _ _ _
  · exact ⟨faults_of_run (i := (iL 0xB0 imm).asSup) rfl h (fun _ => hsup) rfl (runI_noShadow_fails hshb),
      faults_of_run (i := (iN 0xB1).asSup.touching) rfl h (fun _ => hsup) rfl (runI_noShadow_fails hshb),
      faults_of_run (i := (iN 0xB2).asSup) rfl h (fun _ => hsup) rfl (runI_noShadow_fails hshb),
      faults_of_run (i := (iN 0xB3).asSup.touching) rfl h (fun _ => hsup) rfl (runI_noShadow_fails hshb)⟩

/-- Settles O31: either half goes into the crate by the same work; an empty list and the shadow bank are its two faults. -/
theorem contextSaves : Obligations.ContextSaves := ⟨savedHalves, crateFaults⟩

end Sys2Proof.Machine
end

section
/-! Context halves restored from crates (R281, R284). -/
namespace Sys2Proof.Machine

section
variable {s : State} {c : Chan} {t : Fin 8} {i : Ins} {st : IS} {ins : Instr} {th : Thread} {ch : Channel} {f : Nat → Cell}

/-! ### Barrier writes without log actions, and their drain -/

/-- An instruction has stored cells of memory alone, without log actions. -/
structure leftPlain (s : State) (c : Chan) (t : Fin 8) (i : Ins) (th : Thread) (f : Nat → Cell) (st : IS) : Prop where
  cells : leftCells s c t i th (s.chan c) f st
  plain : st.m.allPlain (coreOf t)
theorem leftPlain_logAction (h : leftPlain s c t i th f st) (va : VAddr) (v : Cell) : st.m.logAction th va v = (s.mach c).logAction th va v := by
  rw [h.cells.slice]
  rfl
theorem logAction_fix0 (m : Mach) (th : Thread) (va : VAddr) : m.logAction th va fix0 = [] := by
  have hno : isPtrOrFwd fix0 = false := by decide
  unfold Mach.logAction Mach.logs
  rw [hno]
  split <;> rfl
/-- Cells of a crate from cell j up, none of which needs an entry in the store log (R281). -/
theorem runI_crateWrite_plain {x : Nat} {va : VAddr} (hphase : (s.chan c).sw.phase = .idle) : ∀ (cells : List Cell) (j : Nat) {f : Nat → Cell} {st : IS},
    leftPlain s c t i th f st → (∀ p < cells.length, (s.chan c).place (x + j + p) = .memory) →
    (∀ p v, cells[p]? = some v → (s.mach c).logAction th (va + BitVec.ofNat 24 (j + p)) v = []) →
    ∃ st', leftPlain s c t i th (writtenRange (x + j) cells f) st' ∧ runI (crateWrite va { phys := x, typ := 0#2 } j cells) st = (.ok (), st')
  | [], j, f, st, h, _, _ => ⟨st, ⟨⟨h.cells.who, h.cells.slice, fun b => by rw [h.cells.seen, writtenRange_nil]⟩, h.plain⟩, rfl⟩
  | v :: r, j, f, st, h, hx, hlog => by
    have hfirst : (s.chan c).place (x + j) = .memory := hx 0 (Nat.zero_lt_succ _)
    obtain ⟨m, hm, h1, hstore⟩ := runI_barrierStore_takes (v := v) (va := va + BitVec.ofNat 24 j) h.cells hphase hfirst (.inr h.plain)
    have hnone : st.m.logAction th (va + BitVec.ofNat 24 j) v = [] := (leftPlain_logAction h _ _).trans (hlog 0 v rfl)
    rw [hnone] at h1 hstore
    have hm' : m = ((s.begunAs c t i (s.chan c)).setThr t th).stepped m := stepped_trans h.cells.slice (stepsOnly_of_perf hm).1
    have hplain : m.allPlain (coreOf t) := by
      obtain ⟨p, k, rfl⟩ := hm
      exact h.plain
    obtain ⟨st2, h2, hrest⟩ := runI_crateWrite_plain hphase r (j + 1) ⟨h1, buffer_plain ((stepped_place hm' _).trans hfirst) hplain⟩
      (fun p hp => by
        have hnext := hx (p + 1) (Nat.succ_lt_succ hp)
        rw [show x + (j + 1) + p = x + j + (p + 1) by omega]
        exact hnext)
      (fun p w hw => by
        have hnext := hlog (p + 1) w hw
        rw [show j + 1 + p = j + (p + 1) by omega]
        exact hnext)
    refine ⟨st2, ⟨⟨h2.cells.who, h2.cells.slice, fun b => ?_⟩, h2.plain⟩, ?_⟩
    · rw [h2.cells.seen]
      exact writtenRange_cons (x + j) v r f b
    · unfold crateWrite
      exact (runI_bind_ok hstore).trans hrest
/-- The thread's stores take their places (R330): its core reads what it read. -/
theorem runI_drainMine (h : leftPlain s c t i th f st) : ∃ st', leftPlain s c t i th f st' ∧ runI drainMine st = (.ok (), st') := by
  obtain ⟨hsteps, hseen⟩ := drainN_steps (upToLast (fun e => e.threads &&& thBit t ≠ 0#8) (st.m.core (coreOf t)).wb) h.plain
  have hwb := steps_wb hsteps
  refine ⟨{ st with m := st.m.drainThread t }, ⟨⟨h.cells.who, ?_, fun b => (hseen b).trans (h.cells.seen b)⟩, ?_⟩, ?_⟩
  · exact stepped_trans (stepped_trans h.cells.slice (withWb_stepped st.m _ _)) hsteps.1
  · refine allPlain_stepped (stepped_trans (withWb_stepped st.m _ _) hsteps.1) fun e he => h.plain e ?_
    have hmem : e ∈ ((st.m.drainThread t).core (coreOf t)).wb := he
    rw [Mach.drainThread, hwb] at hmem
    exact List.mem_of_mem_drop hmem
  · unfold drainMine
    rw [runI_bind_ok (runI_me _), runI_modM, h.cells.who]

/-! ### The half that is restored -/

/-- The delivered cells of a crate whose first cell lies at x, from saved cell i up. -/
def State.saved (s : State) (c : Chan) (x i n : Nat) : List (Cell × Healing) := (List.range' i n).map (fun p => (s.cell c (x + 3 + p), none))
theorem cellAt_saved {x p : Nat} (hp : p < 24) : cellAt (s.saved c x 0 24) p = s.cell c (x + 3 + p) := by
  simp [cellAt, State.saved, hp]
theorem saved_take (x : Nat) : ((s.saved c x 0 24).take 16).map (fun e => e.1) = (List.range 16).map (fun p => s.cell c (x + 3 + p)) := by
  rfl
theorem runI_savedCells {a : VAddr} {x : Nat} (hs : s.plain c t = true) : ∀ (n i' : Nat) {st : IS},
    (∀ p < i' + n, (s.chan c).place (x + (3 + p)) = .memory) → reads s c t i st →
    ∃ st', reads s c t i st' ∧ runI (savedCells a { phys := x, typ := 0#2 } i' n) st = (.ok (s.saved c x i' n), st')
  | 0, _, st, _, h => ⟨st, h, rfl⟩
  | n + 1, i', st, hx, h => by
    obtain ⟨st1, h1, hcell⟩ := runI_crateCell hs (hx i' (by omega)) h
    obtain ⟨st2, h2, hrest⟩ := runI_savedCells (a := a) hs n (i' + 1) (fun p hp => hx p (by omega)) h1
    refine ⟨st2, h2, ?_⟩
    unfold savedCells
    rw [runI_bind_ok hcell, runI_loadBarrier hs h1, runI_bind_ok hrest]
    rw [State.saved, State.saved, List.range'_succ, List.map_cons, Nat.add_assoc x 3 i']
    rfl
theorem runI_postHeals_saved (x : Nat) : ∀ (n i' : Nat), runI (postHeals (s.saved c x i' n)) st = (.ok (), st)
  | 0, _ => rfl
  | n + 1, i' => runI_postHeals_saved x n (i' + 1)
theorem getElem_loadRegs : ∀ (l : List Cell) (v : Vector Cell 32) (lo : Nat) (_ : lo + l.length ≤ 32) (r : Nat) (hr : r < 32),
    (loadRegs v lo l)[r] = if lo ≤ r then l.getD (r - lo) v[r] else v[r]
  | [], v, lo, _, r, hr => by simp [loadRegs]
  | w :: l, v, lo, h, r, hr => by
    rw [List.length_cons] at h
    have hlo : lo % 32 = lo := Nat.mod_eq_of_lt (by omega)
    unfold loadRegs
    rw [getElem_loadRegs l _ (lo + 1) (by omega) r hr]
    by_cases hle : lo + 1 ≤ r
    · have hsub : r - lo = r - (lo + 1) + 1 := by omega
      have hne : ¬ lo = r := by omega
      rw [if_pos hle, if_pos (show lo ≤ r by omega), hsub, List.getD_cons_succ]
      simp [hlo, hne]
    · rw [if_neg hle]
      by_cases he : lo = r
      · subst he
        simp [hlo]
      · rw [if_neg (show ¬ lo ≤ r by omega)]
        simp [hlo, he]
theorem loadRegs_lower (th : Thread) (v : Nat → Cell) :
    loadRegs th.regs 0 ((List.range 16).map v) = Vector.ofFn (fun r : Fin 32 => if r.val < 16 then v r.val else th.reg r) := by
  refine Vector.ext fun r hr => ?_
  rw [getElem_loadRegs _ _ _ (by simp) r hr, Vector.getElem_ofFn, if_pos (Nat.zero_le _)]
  by_cases h : r < 16
  · simp [h]
  · simp [h, Thread.reg]
theorem loadRegs_upper (th : Thread) (v : Nat → Cell) :
    loadRegs th.regs 16 ((List.range 16).map v) = Vector.ofFn (fun r : Fin 32 => if r.val < 16 then th.reg r else v (r.val - 16)) := by
  refine Vector.ext fun r hr => ?_
  rw [getElem_loadRegs _ _ _ (by simp) r hr, Vector.getElem_ofFn]
  by_cases h : r < 16
  · simp [h, Thread.reg]
  · have hlt : r - 16 < 16 := by omega
    simp [h, hlt, show 16 ≤ r by omega]
theorem runI_control {α : Type} {v : Cell} {ok : Bool} {k : Unit → IM α} (hpsn : cellTag v ≠ tPSN) (hok : ok = true) :
    runI (control v ok >>= k) st = runI (k ()) st := by
  refine runI_bind_ok ?_
  unfold control
  rw [runI_check_passes hpsn, hok]
  rfl

/-- A PSTATE that may be restored: all but ACCOV and TE hold what supervisor code outside the shadow bank has (R187, R284). -/
theorem pstateOk_of_bits {v : Cell} (htag : cellTag v = tFIX) (h : cellPay v &&& 0xFFFFED#24 = 1#24) : pstateOk v = true := by
  have hbit (n : Nat) : ((cellPay v).getLsbD n && (0xFFFFED#24).getLsbD n) = (1#24).getLsbD n := by rw [← BitVec.getLsbD_and, h]
  have h0 : (cellPay v).getLsbD 0 = true := by simpa using hbit 0
  have h2 : (cellPay v).getLsbD 2 = false := by simpa using hbit 2
  have h3 : (cellPay v).getLsbD 3 = false := by simpa using hbit 3
  have hhigh : (cellPay v).extractLsb' 5 19 = 0#19 := by
    have hext := congrArg (BitVec.extractLsb' 5 19) h
    rw [BitVec.extractLsb'_and, show (0xFFFFED#24).extractLsb' 5 19 = BitVec.allOnes 19 by decide, BitVec.and_allOnes] at hext
    exact hext
  unfold pstateOk bit bits
  rw [htag, h0, h2, h3, hhigh]
  rfl
theorem isNil_tag {v : Cell} (h : isNil v = true) : cellTag v = tCONST := by
  simp only [isNil, Bool.and_eq_true, decide_eq_true_eq] at h
  exact h.1

/-! ### The crate goes back -/

/-- What the cells of a crate that goes back to the free list hold (R284). -/
def State.popped (s : State) (c : Chan) (t : Fin 8) (x : Nat) : Nat → Cell :=
  writtenRange (x + 1) [linkCell (s.chan c).proc.cfree] (writtenRange (x + 2) (List.replicate 25 fix0) (s.seen c t))
theorem runI_popCrate {α : Type} {a : VAddr} {x : Nat} {k : Unit → IM α} (hs : s.plain c t = true)
    (hplace : ∀ p < 32, (s.chan c).place (x + p) = .memory)
    (hlog : (s.mach c).logAction (s.thread c t) (a + 1#24) (linkCell (s.chan c).proc.cfree) = []) (h : reads s c t i st) :
    ∃ st', leftCells s c t i { s.thread c t with chain := s.cell c (x + 1) } ((s.chan c).withCfree (mkCell tCRATE 0#2 a)) (s.popped c t x) st' ∧
      runI (popCrate a { phys := x, typ := 0#2 } >>= k) st = runI (k ()) st' := by
  obtain ⟨st1, h1, hlink⟩ := runI_crateCell (j := 1) hs (hplace 1 (by decide)) h
  have hthr : (s.begunAs c t i (s.chan c)).setThr t (s.thread c t) = s.begun c t i := setThr_thr _ _
  have h2 : leftPlain s c t i (s.thread c t) (s.seen c t) st1 := by
    refine ⟨⟨h1.who, ?_, fun b => reads_seen hs h1 b⟩, fun e he => ?_⟩
    · rw [hthr]
      exact (stepsOnly_of_looks h1.slice).1
    · rw [reads_wb hs h1] at he
      nomatch he
  obtain ⟨st3, h3, hclear⟩ := runI_crateWrite_plain (x := x) (va := a) (plain_idle hs) (List.replicate 25 fix0) 2 h2
    (fun p hp => by
      rw [List.length_replicate] at hp
      rw [Nat.add_assoc]
      exact hplace (2 + p) (by omega))
    (fun p v hv => by
      obtain rfl := List.eq_of_mem_replicate (List.mem_of_getElem? hv)
      exact logAction_fix0 _ _ _)
  obtain ⟨st4, h4, hdrain⟩ := runI_drainMine h3
  have hown : st4.m.ch.proc.cfree = (s.chan c).proc.cfree := by
    rw [h4.cells.slice]
    rfl
  obtain ⟨st5, h5, hhead⟩ := runI_crateWrite_plain (x := x) (va := a) (plain_idle hs) [linkCell (s.chan c).proc.cfree] 1 h4
    (fun p hp => by
      rw [List.length_singleton] at hp
      rw [Nat.add_assoc]
      exact hplace (1 + p) (by omega))
    (fun p v hv => by
      rcases p with _ | p
      · obtain rfl := Option.some.inj hv
        exact hlog
      · nomatch hv)
  obtain ⟨st6, h6, hdrain'⟩ := runI_drainMine h5
  have h7 : leftCells s c t i (s.thread c t) ((s.chan c).withCfree (mkCell tCRATE 0#2 a)) (s.popped c t x)
      { st6 with m := { st6.m with ch.proc.cfree := mkCell tCRATE 0#2 a } } := by
    refine ⟨h6.cells.who, ?_, h6.cells.seen⟩
    dsimp only
    rw [h6.cells.slice]
    rfl
  obtain ⟨st8, h8, hchain⟩ := runI_modT_cells (g := fun th => { th with chain := s.cell c (x + 1) }) (k := pure) h7
  refine ⟨st8, h8, runI_bind_ok ?_⟩
  unfold popCrate
  rw [runI_bind_ok hlink, runI_bind_ok hclear, runI_bind_ok hdrain, runI_bind_ok (runI_getM _), hown, runI_bind_ok hhead, runI_bind_ok hdrain',
    runI_bind_ok (runI_modM _ _)]
  exact hchain
/-- What LOADL and LOADU leave. -/
theorem loads_of_run {x : Nat} {a : VAddr} {w : IM Flow} {fl : Flow} (hex : exec ins s = .next (s.issue c t i w)) (hs : s.plain c t = true)
    (hsup : (s.thread c t).sup = true) (hf : fl ≠ .stay) (hf' : fl ≠ .resume) {r : IS}
    (hr : leftCells s c t i th ((s.chan c).withCfree (mkCell tCRATE 0#2 a)) (s.popped c t x) r)
    (hw : runI w (workOn s c t i) = (.ok fl, r)) :
    ∃ s', exec ins s = .next s' ∧
      onlyStep (s.setChan c { s.chan c with proc := { (s.chan c).proc with cfree := mkCell tCRATE 0#2 a } }) s' c t (th.complete fl) ∧
      s'.seen c t (x + 1) = (if cellTag (s.chan c).proc.cfree = tFIX then cNIL else (s.chan c).proc.cfree) ∧
      (∀ j < 25, s'.seen c t (x + 2 + j) = fix0) ∧ ∀ b, b ≤ x ∨ x + 27 ≤ b → s'.seen c t b = s.seen c t b := by
  obtain ⟨s', hex', honly, -, -, hseen⟩ := stepped_of_run hex (plain_ready hs) (fun _ => hsup) hf hf' hw hr.slice
  have hread (b : Nat) : s'.seen c t b = s.popped c t x b := (seen_eq s' c t b).trans ((hseen (coreOf t) b).trans (hr.seen b))
  refine ⟨s', hex', honly, ?_, fun j hj => ?_, fun b hb => ?_⟩
  · rw [hread]
    exact writtenRange_in _ 0 (by simp)
  · rw [hread, State.popped, writtenRange_out _ (.inr (by simp)), writtenRange_in _ j (by simpa using hj), List.getElem_replicate]
  · rw [hread, State.popped, writtenRange_out _ (by simp; omega), writtenRange_out _ (by simp; omega)]
/-- The end of LOADL and LOADU: the crate goes back, and the thread is changed. -/
theorem runI_restored {a : VAddr} {x : Nat} {g : Thread → Thread} {fl : Flow} (hs : s.plain c t = true)
    (hplace : ∀ p < 32, (s.chan c).place (x + p) = .memory)
    (hlog : (s.mach c).logAction (s.thread c t) (a + 1#24) (linkCell (s.chan c).proc.cfree) = []) (h : reads s c t i st) :
    ∃ st', leftCells s c t i (g { s.thread c t with chain := s.cell c (x + 1) }) ((s.chan c).withCfree (mkCell tCRATE 0#2 a)) (s.popped c t x) st' ∧
      runI (do commit; postHeals (s.saved c x 0 24); popCrate a { phys := x, typ := 0#2 }; modT g; return fl) st = (.ok fl, st') := by
  obtain ⟨st1, h1, -, -, hcommit⟩ := runI_commit h
  obtain ⟨st2, h2, hpop⟩ := runI_popCrate (k := fun _ => do modT g; return fl) hs hplace hlog h1
  obtain ⟨st3, h3, hmod⟩ := runI_modT_cells (g := g) (k := fun _ => pure fl) h2
  refine ⟨st3, h3, ?_⟩
  rw [runI_bind_ok hcommit, runI_bind_ok (runI_postHeals_saved x 24 0), hpop]
  exact hmod
/-- The saved cells of the crate at the head of the chain, of the half asked for. -/
theorem runI_chainCells {half : Bool} {x : Nat} {k : VAddr × Xl → List (Cell × Healing) → IM Flow} (hs : s.plain c t = true)
    (hsup : (s.thread c t).sup = true) (hshb : (s.thread c t).shb = false)
    (hp : cellTag (s.thread c t).chain = tCRATE) (ha : bits (cellPay (s.thread c t).chain) 0 5 = 0)
    (hreach : s.reach c t (cellPay (s.thread c t).chain) needRW = some x) (hhdr : s.cell c x = 0x1880001F#32)
    (hinfo : cellTag (s.cell c (x + 2)) = tFIX) (hhalf : bit (cellPay (s.cell c (x + 2))) 3 = half) :
    ∃ st', reads s c t i st' ∧
      runI (do noShadow; let q ← chainCrate half; let v ← savedCells q.1 q.2 0 24; k q v) (workOn s c t i) =
        runI (k (cellPay (s.thread c t).chain, { phys := x, typ := 0#2 }) (s.saved c x 0 24)) st' := by
  have hplace := crate_place hreach ha
  obtain ⟨st1, h1, hcrate⟩ := runI_crateAt (need' := needR) hs hsup hp ha hreach rfl (fun _ => rfl) hhdr (i := i)
  obtain ⟨st2, h2, hcell⟩ := runI_crateCell (j := 2) hs (hplace 2 (by decide)) h1
  obtain ⟨st3, h3, hcells⟩ := runI_savedCells (a := cellPay (s.thread c t).chain) hs 24 0 (fun p hp => hplace (3 + p) (by omega)) h2
  have hchain : runI (chainCrate half) (workOn s c t i) = (.ok (cellPay (s.thread c t).chain, { phys := x, typ := 0#2 }), st2) := by
    unfold chainCrate
    rw [runI_bind_ok (runI_getT _), thr_begun, runI_bind_ok hcrate, runI_bind_ok hcell, runI_check_passes (by simp [hinfo, hhalf])]
    rfl
  refine ⟨st3, h3, ?_⟩
  rw [runI_noShadow hshb, runI_bind_ok hchain, runI_bind_ok hcells]
end

/-- Settles O32: both halves take the same way, the crate's cells read, the crate cleared and put at the head of the free list. -/
theorem loadHalves : Obligations.LoadHalves := by
  intro s c t x hs hsup hshb
  dsimp only
  intro hp ha hreach hhdr hinfo hlog
  have hplace := crate_place hreach ha
  have hplace := crate_place hreach ha
  refine ⟨fun hhalf h16 h17 h17p h18 h19 h20 h20p h21 h22 h22p => ?_, fun hhalf => ?_⟩
  · obtain ⟨st1, h1, hcells⟩ := runI_chainCells (i := (iN 0xB2).asSup) (k := fun q v => do
      have lz := (← getT).lz
      control (cellAt v 16) (cellTag (cellAt v 16) = tRETA)
      control (cellAt v 17) (pstateOk (cellAt v 17))
      control (cellAt v 18) (cellTag (cellAt v 18) = tLOC || (cellTag (cellAt v 18) = tFIX && cellPay (cellAt v 18) = 0#24))
      control (cellAt v 19) (cellTag (cellAt v 19) = tLOC)
      control (cellAt v 20) (cellTag (cellAt v 20) = tFIX && cellPay (cellAt v 20) ≤ 255#24)
      control (cellAt v 21) (cellTag (cellAt v 21) = tLOC || isNil (cellAt v 21))
      control (cellAt v 22) (cellTag (cellAt v 22) = tFIX && cellPay (cellAt v 22) = 0#24)
      commit
      postHeals v
      popCrate q.1 q.2
      modT (fun th => { th with
        regs := loadRegs th.regs 0 ((v.take 16).map (fun e => e.1)), pstate := cellPay (cellAt v 17),
        spU := cellAt v 18, spS := cellAt v 19, asid := (cellPay (cellAt v 20)).setWidth 8,
        frame := if isNil (cellAt v 21) then none else some (cellPay (cellAt v 21)), shlvl := false, hold := none })
      return if lz then .land (cellPay (cellAt v 16)) else .jump (cellPay (cellAt v 16))) hs hsup hshb hp ha hreach hhdr hinfo hhalf
    obtain ⟨st2, h2, hend⟩ := runI_restored (g := fun th => { th with
        regs := loadRegs th.regs 0 (((s.saved c x 0 24).take 16).map (fun e => e.1)), pstate := cellPay (s.cell c (x + 3 + 17)),
        spU := s.cell c (x + 3 + 18), spS := s.cell c (x + 3 + 19), asid := (cellPay (s.cell c (x + 3 + 20))).setWidth 8,
        frame := if isNil (s.cell c (x + 3 + 21)) then none else some (cellPay (s.cell c (x + 3 + 21))), shlvl := false, hold := none })
      (fl := .jump (cellPay (s.cell c (x + 3 + 16)))) hs hplace hlog h1
    have hpstate : pstateOk (s.cell c (x + 3 + 17)) = true := pstateOk_of_bits h17 h17p
    have hframe : cellTag (s.cell c (x + 3 + 21)) ≠ tPSN := by
      rcases h21 with e | e
      · rw [e]
        decide
      · rw [isNil_tag e]
        decide
    have hrun := hcells.trans (show _ = (Except.ok (Flow.jump (cellPay (s.cell c (x + 3 + 16)))), st2) by
      dsimp only
      rw [runI_getT_reads h1, ready_lz (plain_ready hs)]
      simp only [cellAt_saved (s := s) (c := c) (x := x) (show 16 < 24 by decide), cellAt_saved (s := s) (c := c) (x := x) (show 17 < 24 by decide),
        cellAt_saved (s := s) (c := c) (x := x) (show 18 < 24 by decide), cellAt_saved (s := s) (c := c) (x := x) (show 19 < 24 by decide),
        cellAt_saved (s := s) (c := c) (x := x) (show 20 < 24 by decide), cellAt_saved (s := s) (c := c) (x := x) (show 21 < 24 by decide),
        cellAt_saved (s := s) (c := c) (x := x) (show 22 < 24 by decide)]
      rw [runI_control (by rw [h16]; decide) (by simp [h16]), runI_control (by rw [h17]; decide) hpstate,
        runI_control (by rcases h18 with e | ⟨e, -⟩ <;> · rw [e]; decide) (by simpa using h18),
        runI_control (by rw [h19]; decide) (by simp [h19]), runI_control (by rw [h20]; decide) (by simp [h20, h20p]),
        runI_control hframe (by rcases h21 with e | e <;> simp [e]), runI_control (by rw [h22]; decide) (by simp [h22, h22p])]
      exact hend)
    have hloaded := loads_of_run (ins := .loadl c t) (fl := .jump (cellPay (s.cell c (x + 3 + 16)))) rfl hs hsup nofun nofun h2 hrun
    rw [saved_take, loadRegs_lower] at hloaded
    exact hloaded
  · obtain ⟨st1, h1, hcells⟩ := runI_chainCells (i := (iN 0xB3).asSup.touching) (k := fun q v => do
      commit
      postHeals v
      popCrate q.1 q.2
      modT (fun th => { th with
        regs := loadRegs th.regs 16 ((v.take 16).map (fun e => e.1)),
        acc := accOf (cellPay (cellAt v 16)) (cellPay (cellAt v 17)) (cellPay (cellAt v 18)),
        loopC := cellPay (cellAt v 19), loopS := cellPay (cellAt v 20), loopE := cellPay (cellAt v 21) })
      return .next) hs hsup hshb hp ha hreach hhdr hinfo hhalf
    obtain ⟨st2, h2, hend⟩ := runI_restored (g := fun th => { th with
        regs := loadRegs th.regs 16 (((s.saved c x 0 24).take 16).map (fun e => e.1)),
        acc := accOf (cellPay (cellAt (s.saved c x 0 24) 16)) (cellPay (cellAt (s.saved c x 0 24) 17)) (cellPay (cellAt (s.saved c x 0 24) 18)),
        loopC := cellPay (cellAt (s.saved c x 0 24) 19), loopS := cellPay (cellAt (s.saved c x 0 24) 20),
        loopE := cellPay (cellAt (s.saved c x 0 24) 21) }) (fl := .next) hs hplace hlog h1
    have hloaded := loads_of_run (ins := .loadu c t) (fl := .next) rfl hs hsup nofun nofun h2 (hcells.trans hend)
    rw [saved_take, loadRegs_upper] at hloaded
    exact hloaded

end Sys2Proof.Machine
end

section
/-! CHECKPOINT (R410, R411): its refusals, the cells it writes, and the marker it sends. -/
namespace Sys2Proof.Machine

/-! ### What a write of a line leaves of the ledger and of the mirror stream -/

theorem mergeCells_frame (line : Nat) (cells : NMap (Cell × Bool)) (ps : List (Fin 16)) (m : Mach) :
    ∃ mem, m.mergeCells line cells ps = { m with ch.phys.mem := mem } := by
  induction ps generalizing m with
  | nil => exact ⟨m.ch.phys.mem, rfl⟩
  | cons p r ih =>
    have hput (n : Mach) (hn : ∃ mem, n = { m with ch.phys.mem := mem }) : ∃ mem, n.mergeCells line cells r = { m with ch.phys.mem := mem } := by
      obtain ⟨mem, rfl⟩ := hn
      exact ih _
    unfold Mach.mergeCells
    dsimp only
    refine hput _ ?_
    split
    · exact ⟨_, rfl⟩
    · exact ⟨_, rfl⟩
    · split
      · exact ⟨_, rfl⟩
      · exact ⟨m.ch.phys.mem, rfl⟩
/-- The user words of the markers not yet acknowledged are counted alike, and the held ones are the same. -/
def sameWords (m n : Mach) : Prop := n.ch.led.heldWords = m.ch.led.heldWords ∧ n.ch.pair.carried = m.ch.pair.carried
theorem supplied_pair {m n : Mach} (h : suppliesOnly m n) : n.ch.pair = m.ch.pair := by
  rw [h.1]
  rfl
theorem lineWrite_words (m : Mach) (l : Nat) (cells : NMap (Cell × Bool)) (hint : BitVec 2) :
    (m.lineWrite l cells hint).ch.pair = m.ch.pair ∧ (m.lineWrite l cells hint).ch.led.heldWords = m.ch.led.heldWords := by
  obtain ⟨mem, hmem⟩ := mergeCells_frame l cells positions m
  unfold Mach.lineWrite
  dsimp only
  rw [hmem]
  generalize hn : ({ m with ch.phys.mem := mem } : Mach) = n
  have hpair : n.ch.pair = m.ch.pair ∧ n.ch.led = m.ch.led := by
    rw [← hn]
    exact ⟨rfl, rfl⟩
  rw [← hpair.1, ← hpair.2]
  exact ⟨supplied_pair (suppliesOnly_poolAdd n _), (suppliesOnly_poolAdd n _).2.2⟩
theorem carried_concat (p : Pair) (q : BitVec 24 × MirrorRec) (hq : ∀ e w, q.2 ≠ .commit e w) (n : BitVec 24) :
    ({ p with buf := p.buf ++ [q], nextSeq := n } : Pair).carried = p.carried := by
  unfold Pair.carried
  rw [List.foldl_concat]
  split
  · next e w h => exact absurd h (hq e w)
  · rfl
theorem sameWords_trans {m n x : Mach} (h : sameWords m n) (h' : sameWords n x) : sameWords m x := ⟨h'.1.trans h.1, h'.2.trans h.2⟩
theorem mirrorStore_words (m : Mach) (base : Nat) (cells : NMap (Cell × Bool)) : sameWords m (m.mirrorStore base cells) := by
  unfold Mach.mirrorStore Mach.sendMirror
  split
  · exact ⟨rfl, carried_concat _ _ (fun _ _ h => MirrorRec.noConfusion h) _⟩
  · exact ⟨rfl, rfl⟩
theorem memPlace_words {ag : Agent} (hag : ag ≠ .sweeper) (m : Mach) (l : Nat) (cells : NMap (Cell × Bool)) :
    sameWords m (m.memPlace ag l cells) := by
  obtain ⟨x, y, hcores, -, -⟩ := storeStep_cores (m.turnWrite ag l cells) ag l cells
  have hset (n : Mach) (k : Fin 2) (co : Core) : (n.setCore k co).ch.pair = n.ch.pair ∧ (n.setCore k co).ch.led = n.ch.led := ⟨rfl, rfl⟩
  obtain ⟨hpair, hheld⟩ := lineWrite_words (m.turn ag l) l cells (ag.hint 0#2)
  unfold sameWords Mach.memPlace
  rw [hcores, (hset _ 1 y).1, (hset _ 0 x).1, (hset _ 1 y).2, (hset _ 0 x).2]
  unfold Mach.turnWrite
  rw [hpair, hheld, coreTurn_eq hag]
  exact ⟨rfl, rfl⟩
theorem memStep_words {ag : Agent} (hag : ag ≠ .sweeper) (m : Mach) (l : Nat) (cells : NMap (Cell × Bool)) :
    sameWords m (m.memStep ag l cells) := by
  unfold Mach.memStep
  exact sameWords_trans (memPlace_words hag m l cells) (mirrorStore_words _ _ _)

/-! ### Cells written from a physical address up -/

theorem writtenRange_line {a : Nat} {vs : List Cell} {f : Nat → Cell} (ha : a % 16 = 0) (hlen : 16 ≤ vs.length) (b : Nat) :
    writtenRange (a + 16) (vs.drop 16) (fun b => if b / 16 = a / 16 then writtenOver (mapGet (lineOf 0 (vs.take 16)) (b % 16)) (f b) else f b) b =
      writtenRange a vs f b := by
  unfold writtenRange
  dsimp only
  by_cases hhigh : a + 16 ≤ b
  · have hline : ¬ b / 16 = a / 16 := by omega
    have hidx : 16 + (b - (a + 16)) = b - a := by omega
    rw [if_pos hhigh, List.getElem?_drop, hidx, if_neg hline, if_pos (show a ≤ b by omega)]
  · rw [if_neg hhigh]
    by_cases hlow : a ≤ b
    · have hpos : b % 16 = b - a := by omega
      have hlt : b - a < 16 := by omega
      have hin : b - a < vs.length := by omega
      rw [if_pos hlow, if_pos (show b / 16 = a / 16 by omega), mapGet_lineOf, hpos, if_pos (Nat.zero_le _), Nat.sub_zero, List.getElem?_take_of_lt hlt,
        List.getElem?_eq_getElem hin]
      rfl
    · rw [if_neg hlow, if_neg (show ¬ b / 16 = a / 16 by omega)]
theorem physLines_steps {k : Fin 2} : ∀ (n : Nat) (m : Mach) (a : Nat) (vs : List Cell), a % 16 = 0 → vs.length = 16 * n →
    (∀ i < 16 * n, m.ch.place (a + i) = .memory) →
    stepsOnly m (m.physLines k a n vs) ∧ sameWords m (m.physLines k a n vs) ∧ ∀ b, (m.physLines k a n vs).peek b = writtenRange a vs m.peek b
  | 0, m, a, vs, _, hlen, _ => by
    rw [List.eq_nil_of_length_eq_zero hlen]
    exact ⟨stepsOnly_refl m, ⟨rfl, rfl⟩, fun b => (writtenRange_nil a _ b).symm⟩
  | n + 1, m, a, vs, ha, hlen, hplace => by
    have hag := coreAgent_ne k
    have hone : m.ch.place a = .memory := hplace 0 (by omega)
    have hsteps := memStep_steps_of hag m (a / 16) (lineOf 0 (vs.take 16))
    have hline : ∀ p < 16, m.ch.place (a / 16 * 16 + p) = .memory := fun p hp => by
      have heq : a / 16 * 16 + p = a + p := by omega
      rw [heq]
      exact hplace p (by omega)
    obtain ⟨ihs, ihw, ihc⟩ := physLines_steps (k := k) n (m.memStep (coreAgent k) (a / 16) (lineOf 0 (vs.take 16))) (a + 16) (vs.drop 16)
      (by omega) (by rw [List.length_drop]; omega) (fun i hi => by
        rw [stepped_place hsteps.1, show a + 16 + i = a + (16 + i) by omega]
        exact hplace _ (by omega))
    have hstep : m.physLines k a (n + 1) vs =
        (m.memStep (coreAgent k) (a / 16) (lineOf 0 (vs.take 16))).physLines k (a + 16) n (vs.drop 16) := by
      simp only [Mach.physLines, hone]
    rw [hstep]
    have hwords := memStep_words hag m (a / 16) (lineOf 0 (vs.take 16))
    refine ⟨stepsOnly_trans hsteps ihs, sameWords_trans hwords ihw, fun b => ?_⟩
    rw [ihc, ← writtenRange_line ha (by omega)]
    exact congrFun (congrArg (writtenRange (a + 16) (vs.drop 16)) (funext fun b => peek_memStep hag hline b)) b

/-! ### The crate set -/

theorem crateImage_length {info : Cell} {saved : List Cell} (h : saved.length ≤ 29) : (crateImage info saved).length = 32 := by
  simp [crateImage]
  omega
theorem crates_length (th : Thread) (t : Fin 8) : (th.crates t).length = 96 := by
  have hlow : (th.lowerCells th.pc).length = 24 := by
    rw [lowerCells_eq]
    exact (image_length th th.pc).1
  have hup : th.upperCells.length = 24 := by
    rw [upperCells_eq]
    exact (image_length th th.pc).2
  have hshadow : th.shadowCells.length = 21 := by simp [Thread.shadowCells]
  unfold Thread.crates
  rw [List.length_append, List.length_append, crateImage_length (by omega), crateImage_length (by omega), crateImage_length (by omega)]
theorem crateSet_length (m : Mach) (t : Fin 8) (d : Reg) (e : BitVec 24) : (m.crateSet t d e).length = 16 * 54 := by
  have hchan : m.chanCells.length = 23 := by simp [Mach.chanCells, threads]
  have hchan2 : m.chanCells2.length = 9 := by simp [Mach.chanCells2, threads]
  unfold Mach.crateSet
  simp only [List.length_append, List.length_flatMap, crates_length]
  rw [crateImage_length (by omega), crateImage_length (by omega), crateImage_length (by simp)]
  decide

/-! ### Nothing to do before the capture -/

section
variable {m : Mach} {t : Fin 8}

theorem reachBoundaries_none (h : ∀ u, (m.thr u).sync = none) : ∀ l, m.reachBoundaries t l = m
  | [] => rfl
  | u :: r => by
    unfold Mach.reachBoundaries
    rw [h u, if_neg (by simp)]
    exact reachBoundaries_none h r
theorem fillAll_none (h : ∀ u, (m.thr u).lz = false) : ∀ l, m.fillAll l = m
  | [] => rfl
  | u :: r => by
    unfold Mach.fillAll
    rw [h u, if_neg (by simp)]
    exact fillAll_none h r
theorem returnAll_none (h : ∀ u, (m.thr u).resv = none) : ∀ l, m.returnAll l = m
  | [] => rfl
  | u :: r => by
    unfold Mach.returnAll Mach.returnResv
    rw [h u]
    exact returnAll_none h r
theorem retireIn_none {s : Fin 8} (h : (m.slot s).pitch = []) (p : Nat → Bool) : ∀ l, m.retireIn s p l = m
  | [] => rfl
  | u :: r => by
    have hpitch : m.pitch s u = (0, 0) := by
      unfold Mach.pitch
      rw [h]
      rfl
    unfold Mach.retireIn
    dsimp only
    rw [hpitch, if_neg (by simp)]
    exact (if_pos rfl).trans (retireIn_none h p r)
theorem retireAll_none (h : ∀ s, (m.slot s).pitch = []) : ∀ l, m.retireAll l = m
  | [] => rfl
  | s :: r => by
    unfold Mach.retireAll
    rw [retireIn_none (h s)]
    exact retireAll_none h r
theorem drainAll_none (h : ∀ k, (m.core k).wb = []) : m.drainAll = m := by
  unfold Mach.drainAll
  rw [h 0]
  dsimp only [List.length_nil, Mach.drainN]
  rw [h 1]
  rfl
end

/-! ### The claims -/

theorem ckRefusal_still {m : Mach} (h : ¬ (m.ch.sw.phase = .select ∨ m.ch.sw.phase = .evacuate ∨ m.ch.sw.phase = .fixup)) :
    m.ckRefusal = if !m.ch.pair.holds then some 4 else if !winBit m.ch 0x8004 23 then some 5 else none := by
  unfold Mach.ckRefusal
  rcases hphase : m.ch.sw.phase
  case select => exact absurd (.inl hphase) h
  case evacuate => exact absurd (.inr (.inl hphase)) h
  case fixup => exact absurd (.inr (.inr hphase)) h
  all_goals rfl
theorem checkpointRefusals : checkpointRefusalsClaim := by
  intro s c t d h hsup
  dsimp only
  have hrefuse (n : Nat) (hn : (s.mach c).ckRefusal = some n) : delivers (.checkpoint c t d) s c t d (fixN n) := by
    refine delivers_of_run (i := (iD 0xD0 d).asSup) rfl h (fun _ => hsup) ?_
    have hbegun : (workOn s c t (iD 0xD0 d).asSup).m.ckRefusal = some n := hn
    rw [runI_bind_ok (runI_getM _), hbegun]
  refine ⟨fun hmoves => hrefuse 2 ?_, fun hmoves hrole => hrefuse 4 ?_, fun hmoves hrole hbase => hrefuse 5 ?_⟩
  · have hphase : (s.mach c).ch.sw.phase = (s.chan c).sw.phase := rfl
    unfold Mach.ckRefusal
    rw [hphase]
    rcases hmoves with e | e | e <;> rw [e]
  · have hholds : (s.mach c).ch.pair.holds = false := by simp [Pair.holds, hrole]
    rw [ckRefusal_still hmoves, hholds]
    rfl
  · have hholds : (s.mach c).ch.pair.holds = true := by simp [Pair.holds, hrole]
    have hoff : winBit (s.mach c).ch 0x8004 23 = false := hbase
    rw [ckRefusal_still hmoves, hholds, hoff]
    rfl

/-! ### The capture -/

/-- The slice with a marker sent, and its port told of it. -/
def Mach.sentMarker (m : Mach) (e : BitVec 24) (words : List (BitVec 11 × Cell)) : Mach :=
  (m.sendMirror (.commit e words)).setPort (m.port.marker e)
theorem sentMarker_keeps {m : Mach} {e : BitVec 24} {words : List (BitVec 11 × Cell)} (h : m.mirrors = true) :
    (m.sentMarker e words).c = m.c ∧ (m.sentMarker e words).thr = m.thr ∧
      (∃ q, (m.sentMarker e words).ch.pair.buf.getLast? = some (q, .commit e words)) ∧
      ∀ a, (m.sentMarker e words).peek a = m.peek a := by
  unfold Mach.sentMarker Mach.sendMirror
  rw [if_pos h]
  exact ⟨rfl, rfl, ⟨m.ch.pair.nextSeq, List.getLast?_concat⟩, fun a => rfl⟩
/-- The slice with the next epoch's crate set written. -/
def Mach.withCrates (m : Mach) (t : Fin 8) (d : Reg) : Mach :=
  m.physLines (coreOf t) (m.setBase (m.ch.pair.lastEpoch + 1#24)) 54 (m.crateSet t d (m.ch.pair.lastEpoch + 1#24))
theorem stepped_role {m n : Mach} (h : n = m.stepped n) : n.c = m.c ∧ n.ch.pair.role = m.ch.pair.role := by
  rw [h]
  exact ⟨rfl, rfl⟩
/-- The crate set speaks of nothing that the start of an instruction changes. -/
theorem crateSet_begun (s : State) (c : Chan) (t u : Fin 8) (i : Ins) (d : Reg) (e : BitVec 24) :
    (s.begun c t i).crateSet u d e = (s.mach c).crateSet u d e := by
  have hthr (v : Fin 8) : (s.begun c t i).thr v = (s.mach c).thr v := rfl
  have hproc : (s.begun c t i).ch.proc = (s.mach c).ch.proc := rfl
  have hwin (o : Nat) : winGet (s.begun c t i).ch o = winGet (s.mach c).ch o := rfl
  have hsweep : (s.begun c t i).ch.sw = (s.mach c).ch.sw := rfl
  have hslot (v : Fin 8) : (s.begun c t i).slot v = (s.mach c).slot v := rfl
  have hstat : (s.begun c t i).swstat = (s.mach c).swstat := by simp only [Mach.swstat, hthr, hsweep]
  have hsw (o : Nat) : (s.begun c t i).swLoad o = (s.mach c).swLoad o := by simp only [Mach.swLoad, hstat, hsweep, hslot, hwin]
  simp only [Mach.crateSet, Mach.chanCells, Mach.chanCells2, hthr, hproc, hwin, hsw, hstat]
section
variable {m : Mach} {t : Fin 8} {d : Reg}

/-- On a quiet channel the capture is the crate set and the marker. -/
theorem capture2_quiet (hpitch : ∀ s, (m.slot s).pitch = []) (hresv : ∀ u, (m.thr u).resv = none) (hwb : ∀ k, (m.core k).wb = []) :
    m.capture2 t d = (m.withCrates t d).sentMarker (m.ch.pair.lastEpoch + 1#24)
      ((m.withCrates t d).ch.led.heldWords.drop (m.withCrates t d).ch.pair.carried) := by
  simp only [Mach.capture2, retireAll_none hpitch, returnAll_none hresv, drainAll_none hwb, Mach.sentMarker, Mach.withCrates]
theorem withCrates_steps (hplace : ∀ i < 864, m.ch.place (m.setBase (m.ch.pair.lastEpoch + 1#24) + i) = .memory) :
    stepsOnly m (m.withCrates t d) ∧ sameWords m (m.withCrates t d) ∧ ∀ b, (m.withCrates t d).peek b =
      writtenRange (m.setBase (m.ch.pair.lastEpoch + 1#24)) (m.crateSet t d (m.ch.pair.lastEpoch + 1#24)) m.peek b := by
  have hbase : m.setBase (m.ch.pair.lastEpoch + 1#24) % 16 = 0 := by
    unfold Mach.setBase
    omega
  unfold Mach.withCrates
  exact physLines_steps 54 m _ _ hbase (crateSet_length m t d _) hplace
theorem capture2_leaves (hpitch : ∀ s, (m.slot s).pitch = []) (hresv : ∀ u, (m.thr u).resv = none) (hwb : ∀ k, (m.core k).wb = [])
    (hrole : m.ch.pair.role = .active) (hplace : ∀ i < 864, m.ch.place (m.setBase (m.ch.pair.lastEpoch + 1#24) + i) = .memory) :
    (m.capture2 t d).c = m.c ∧ (m.capture2 t d).thr = m.thr ∧
      (∃ q, (m.capture2 t d).ch.pair.buf.getLast? =
        some (q, .commit (m.ch.pair.lastEpoch + 1#24) (m.ch.led.heldWords.drop m.ch.pair.carried))) ∧
      ∀ b, (m.capture2 t d).peek b =
        writtenRange (m.setBase (m.ch.pair.lastEpoch + 1#24)) (m.crateSet t d (m.ch.pair.lastEpoch + 1#24)) m.peek b := by
  obtain ⟨hsteps, hwords, hcells⟩ := withCrates_steps (t := t) (d := d) hplace
  have hkeep := stepped_role hsteps.1
  have hmirrors : (m.withCrates t d).mirrors = true := by simp [Mach.mirrors, hkeep.2, hrole]
  rw [capture2_quiet hpitch hresv hwb, hwords.1, hwords.2]
  obtain ⟨hc, hthr, hlast, hpeek⟩ := sentMarker_keeps (e := m.ch.pair.lastEpoch + 1#24) (words := m.ch.led.heldWords.drop m.ch.pair.carried) hmirrors
  exact ⟨hc.trans hkeep.1, hthr.trans (funext (stepped_thr hsteps.1)), hlast, fun b => (hpeek b).trans (hcells b)⟩
end

/-- How an instruction ends whatever its work has done: its thread completes, and the rest of its channel is as the work left it. -/
theorem completed_of_run {s : State} {c : Chan} {t : Fin 8} {i : Ins} {ins : Instr} {w : IM Flow} {r : IS}
    (hex : exec ins s = .next (s.issue c t i w)) (h : s.ready c t = true) (hs : i.sup = true → (s.thread c t).sup = true)
    (hw : runI w (workOn s c t i) = (.ok .next, r)) (hc : r.m.c = c) :
    ∃ s', exec ins s = .next s' ∧ s'.thread c t = (r.m.thr t).complete .next ∧ (∀ u, u ≠ t → s'.thread c u = r.m.thr u) ∧
      sameElsewhere s s' c ∧ (∀ a, s'.cell c a = r.m.peek a) ∧ (s'.chan c).pair = r.m.ch.pair := by
  obtain ⟨p, k, hret⟩ := retired_perfOnly r.m t i .next
  have hfin : r.m.finishIns t i (.ok .next) = (r.m.retired t i .next).setThr t (((r.m.retired t i .next).thr t).complete .next) := rfl
  have hself : ({ (({ r.m with ch.perf := p, free := k } : Mach).setThr t ((r.m.thr t).complete .next)) with c := c } : Mach) =
      ({ r.m with ch.perf := p, free := k } : Mach).setThr t ((r.m.thr t).complete .next) := by
    rw [← hc]
    rfl
  generalize hn : ({ r.m with ch.perf := p, free := k } : Mach).setThr t ((r.m.thr t).complete .next) = n at hself
  have hnc : n.c = c := by
    rw [← hn]
    exact hc
  refine ⟨s.putMach n, ?_, ?_, fun u hu => ?_, fun j hj => chan_putMach_ne s n j (hnc ▸ hj), fun a => ?_, ?_⟩
  · rw [hex, issue_completed h hs hw, hfin, hret]
    exact congrArg (fun x => Host.Outcome.next (s.putMach x)) ((congrArg (fun x : Mach => { x with c := c }) hn).trans hself)
  · have hthr : (s.putMach n).thread c t = n.thr t := congrArg (fun x : Mach => x.thr t) (mach_putMach s hnc)
    rw [hthr, ← hn, thr_setThr]
  · have hthr : (s.putMach n).thread c u = n.thr u := congrArg (fun x : Mach => x.thr u) (mach_putMach s hnc)
    rw [hthr, ← hn, thr_setThr_ne _ _ _ _ hu]
    rfl
  · rw [State.cell, mach_putMach s hnc, ← hn]
    rfl
  · have hpair : ((s.putMach n).chan c).pair = n.ch.pair := congrArg (fun x : Mach => x.ch.pair) (mach_putMach s hnc)
    rw [hpair, ← hn]
    rfl
theorem checkpointCaptures : checkpointCapturesClaim := by
  intro s c t d hs hsup
  dsimp only
  intro hrole hbase hwb0 hwb1 hthr hplace
  have hready := plain_ready hs
  generalize hm : s.begun c t (iD 0xD0 d).asSup = m
  have hsame : m.c = c ∧ m.ch.sw = (s.chan c).sw ∧ m.ch.pair = (s.chan c).pair ∧ m.ch.win = (s.chan c).win ∧ m.ch.led = (s.chan c).led ∧
      m.ch.life = (s.chan c).life ∧ m.ch.core = (s.chan c).core ∧ (∀ u, m.thr u = s.thread c u) ∧ m.ch.thr = (s.chan c).thr := by
    rw [← hm]
    exact ⟨rfl, rfl, rfl, rfl, rfl, rfl, rfl, fun _ => rfl, rfl⟩
  have hplaces (a : Nat) : m.ch.place a = (s.chan c).place a := by
    rw [← hm]
    rfl
  have hset (e : BitVec 24) : m.crateSet t d e = (s.mach c).crateSet t d e ∧ m.setBase e = (s.mach c).setBase e := by
    rw [← hm]
    exact ⟨crateSet_begun s c t t _ d e, rfl⟩
  have hcell (a : Nat) : m.peek a = s.cell c a := by
    rw [← hm]
    rfl
  obtain ⟨hc, hsw, hpair, hwin, hled, hlife, hcore, hthrs, hthrv⟩ := hsame
  have hgo : m.ckRefusal = none := by
    have hmoves : ¬ (m.ch.sw.phase = .select ∨ m.ch.sw.phase = .evacuate ∨ m.ch.sw.phase = .fixup) := by
      rw [hsw, plain_idle hs]
      decide
    have hholds : m.ch.pair.holds = true := by simp [hpair, Pair.holds, hrole]
    have hon : winBit m.ch 0x8004 23 = true := by
      unfold winBit winGet at *
      rw [hwin]
      exact hbase
    rw [ckRefusal_still hmoves, hholds, hon]
    rfl
  have hwb (k : Fin 2) : (m.core k).wb = [] := by
    have hcases : k = 0 ∨ k = 1 := by omega
    unfold Mach.core
    rw [hcore]
    rcases hcases with rfl | rfl
    · exact hwb0
    · exact hwb1
  have hpitch (u : Fin 8) : (m.slot u).pitch = [] := by
    unfold Mach.slot
    rw [hsw]
    exact (hthr u).2.2.2
  have hquiet : (m.reachBoundaries t threads).fillAll threads = m := by
    rw [reachBoundaries_none (fun u => hthrs u ▸ (hthr u).1), fillAll_none (fun u => hthrs u ▸ (hthr u).2.1)]
  have hon : ¬ m.ch.life.cond ≠ .running := by
    have hissue : (s.mach c).canIssue t = true := by
      unfold State.ready at hready
      simp only [Bool.and_eq_true] at hready
      exact hready.1.1.1
    unfold Mach.canIssue at hissue
    simp only [Bool.and_eq_true, decide_eq_true_eq] at hissue
    rw [hlife]
    exact fun h => h hissue.1.1.1.1
  obtain ⟨hcapc, hcapthr, hlast, hcapcell⟩ := capture2_leaves (m := m) (t := t) (d := d) hpitch (fun u => hthrs u ▸ (hthr u).2.2.1) hwb
    (by rw [hpair, hrole]) (fun j hj => by
      rw [hplaces, (hset _).2, hpair]
      exact hplace j hj)
  have hkeepc (x : Mach) (th : Thread) : (x.setThr t th).c = x.c := rfl
  obtain ⟨s', hex, ht, hothers, helse, hcells, hbuf⟩ := completed_of_run (ins := .checkpoint c t d) (i := (iD 0xD0 d).asSup)
    (r := { workOn s c t (iD 0xD0 d).asSup with m := (m.capture2 t d).setThr t (((m.capture2 t d).thr t).setReg d (fixN 0)) })
    rfl hready (fun _ => hsup) (by
      have hstart : (workOn s c t (iD 0xD0 d).asSup).m = m := hm
      rw [runI_bind_ok (runI_getM _), hstart, hgo]
      dsimp only
      rw [runI_bind_ok (runI_commit_nil ..), runI_bind_ok (runI_modM _ _), hstart, hquiet, runI_bind_ok (runI_getM _)]
      dsimp only
      rw [if_neg hon, runI_bind_ok (runI_modM _ _), runI_bind_ok (runI_setD _ _ _)]
      dsimp only
      generalize m.capture2 t d = x
      rfl) (by dsimp only; exact (hkeepc _ _).trans (hcapc.trans hc))
  dsimp only at ht hothers hcells hbuf
  generalize m.capture2 t d = x at hcapc hcapthr hlast hcapcell ht hothers hcells hbuf
  have hcode : fixN 0 = fix0 := by decide
  have hcell' (b : Nat) : s'.cell c b = writtenRange (m.setBase (m.ch.pair.lastEpoch + 1#24)) (m.crateSet t d (m.ch.pair.lastEpoch + 1#24)) m.peek b :=
    (hcells b).trans (hcapcell b)
  rw [(hset _).1, (hset _).2, hpair] at hcell'
  rw [hpair, hled] at hlast
  refine ⟨s', hex, ?_, fun u hu => ?_, helse, fun j hj => ?_, fun b hb => ?_, ?_⟩
  · rw [ht, thr_setThr, hcapthr, hthrs, hcode]
  · rw [hothers u hu, thr_setThr_ne _ _ _ _ hu, hcapthr, hthrs]
  · exact (hcell' _).trans (writtenRange_in _ j hj)
  · refine (hcell' b).trans ((writtenRange_out _ ?_).trans (hcell b))
    rw [crateSet_length]
    exact hb
  · rw [hbuf]
    exact hlast

/-- Settles O37: a refusal delivers its code alone; a capture on a quiet channel is the lines of the crate set and the marker. -/
theorem checkpoints : Obligations.Checkpoints := ⟨checkpointRefusals, checkpointCaptures⟩

end Sys2Proof.Machine
end

section
/-! The ends of HOLD windows and stalemates (R266, R277), arriving fills and prefetches (R315, R322), and heals (R346, R347). -/
namespace Sys2Proof.Machine

/-! ### Windows and stalemates -/

theorem stalemate_waits {m : Mach} (h : m.ch.clk.staleFor < 256) : m.stalemate = m := by
  unfold Mach.stalemate
  rw [if_neg]
  simp only [Bool.and_eq_true, decide_eq_true_eq, not_and]
  omega
/-- A thread that waits for synchronous events too is no stalemate (R277). -/
theorem stalemated_not {ch : Channel} {u : Fin 8} {k : Payload} (h : ch.thr[u].status = .waiting k) (hk : bit k 23 = true) : ch.stalemated = false := by
  have hlive : ¬ ch.stalemated = true := by
    intro hs
    unfold Channel.stalemated at hs
    simp only [Bool.and_eq_true, List.all_eq_true] at hs
    have hu := hs.2 ch.thr[u] (List.mem_filter.mpr ⟨by simp, by rw [h]; rfl⟩)
    unfold Thread.mask? at hu
    rw [h] at hu
    simp [hk] at hu
  simpa using hlive
theorem stalemated_of {ch : Channel} (hrun : ch.life.cond = .running)
    (h : ∀ u : Fin 8, ch.thr[u].status = .stopped ∨ ∃ k, ch.thr[u].status = .waiting k ∧ bit k 23 = false ∧
      ∀ e ∈ ch.proc.pend, e.1 < 768 ∨ bit k ((e.1 - 768) / 16) = false) : ch.stalemated = true := by
  unfold Channel.stalemated
  simp only [hrun, decide_true, Bool.true_and, List.all_eq_true]
  intro th hth
  obtain ⟨hmem, hlive⟩ := List.mem_filter.mp hth
  obtain ⟨i, hi, rfl⟩ := List.mem_iff_getElem.mp hmem
  have hi8 : i < 8 := by simpa using hi
  rcases h ⟨i, hi8⟩ with hstop | ⟨k, hwait, hhw, hpend⟩
  · simp [show ch.thr[i].status = .stopped from hstop] at hlive
  · have hnone : ch.proc.pend.any (fun e => maskSelects k e.1) = false := by
      refine List.any_eq_false.mpr fun e he => ?_
      unfold maskSelects
      rcases hpend e he with hlow | hbit
      · simp [hlow, hhw]
      · split
        · simp [hhw]
        · simp [hbit]
    simp [Thread.mask?, show ch.thr[i].status = .waiting k from hwait, hhw, hnone]
theorem stalemate_raises {m : Mach} (h : m.ch.stalemated = true) (hperiods : 256 ≤ m.ch.clk.staleFor) (hpend : mapGet m.ch.proc.pend 39 = none) :
    m.stalemate = { m with ch := { m.ch with
      clk := { m.ch.clk with staleFor := 0 }
      proc := { m.ch.proc with pend := mapPut m.ch.proc.pend 39 { overrun := 0#8, addr := fix0 } } } } := by
  unfold Mach.stalemate
  rw [h, if_pos ((Bool.true_and _).trans (decide_eq_true hperiods))]
  unfold Mach.raise raiseP
  dsimp only
  rw [hpend]
theorem windowsAndStalemate : windowsAndStalemateClaim := by
  intro s c t
  dsimp only
  refine ⟨congrArg Host.Outcome.next (onMach_channel s c _ _ rfl), fun hrun hpend hthr hperiods => ?_, fun hperiods => ?_, fun u k hwait hhw => ?_⟩
  · refine congrArg Host.Outcome.next (onMach_channel s c _ _ ?_)
    exact stalemate_raises (m := s.mach c) (stalemated_of hrun hthr) hperiods hpend
  · exact congrArg Host.Outcome.next (onMach_id s c _ (stalemate_waits hperiods))
  · refine congrArg Host.Outcome.next (onMach_id s c _ ?_)
    unfold Mach.stalemate
    rw [show (s.mach c).ch.stalemated = false from stalemated_not hwait hhw]
    rfl

/-! ### Fills and prefetches -/

theorem setCache_core (s : State) (c : Chan) (k : Fin 2) (dc : Bool) (x : Cache) :
    (s.mach c).setCache k dc x = { s.mach c with ch := { s.chan c with core := (s.chan c).core.set k (((s.chan c).core[k]).setCache dc x) } } := rfl
theorem cache_setCache (m : Mach) (k : Fin 2) (dc : Bool) (x : Cache) : (m.setCache k dc x).cache k dc = x := by
  unfold Mach.cache Mach.setCache
  rw [core_setCore]
  cases dc <;> rfl
theorem setCache_setCache (m : Mach) (k : Fin 2) (dc : Bool) (x y : Cache) : (m.setCache k dc x).setCache k dc y = m.setCache k dc y := by
  unfold Mach.setCache
  rw [core_setCore]
  cases dc <;> simp [Mach.setCore, Core.setCache]
theorem fillsAndPrefetches : fillsAndPrefetchesClaim := by
  intro s c k dc
  dsimp only
  have hcache : (s.mach c).cache k dc = ((s.chan c).core[k]).cache dc := rfl
  refine ⟨fun f hf => ?_, fun q r hq => ⟨fun hgone => ?_, fun hgone => ?_⟩⟩
  · refine congrArg Host.Outcome.next (onMach_channel s c _ _ ?_)
    unfold Mach.settleFill
    dsimp only
    rw [hcache, hf]
    exact setCache_core s c k dc _
  · refine congrArg Host.Outcome.next (onMach_channel s c _ _ ?_)
    unfold Mach.prefetchArrival
    dsimp only
    rw [hcache, hq]
    exact (if_pos hgone).trans (setCache_core s c k dc _)
  · refine congrArg Host.Outcome.next (onMach_channel s c _ _ ?_)
    unfold Mach.prefetchArrival
    dsimp only
    rw [hcache, hq]
    refine (if_neg fun h => Bool.false_ne_true (hgone.symm.trans h)).trans ?_
    rw [cache_setCache, setCache_setCache]
    exact setCache_core s c k dc _

/-! ### Heals -/

/-- A read at a physical address of memory, untranslated: what is stored, and what serving the read changes. -/
theorem physRead_memory {m : Mach} {k : Fin 2} {a : Nat} (ha : m.ch.place a = .memory) :
    (m.physRead (coreAgent k) a).1 = m.peek a ∧ servesOnly m (m.physRead (coreAgent k) a).2 := by
  unfold Mach.physRead
  rw [ha, peek_memory ha]
  exact ⟨coreRead_cell m k a _ _, coreRead_serves m k _ _ _⟩
/-- Outside marking no snapshot action is made (R344). -/
theorem pushAll_unmarked {m : Mach} (h : m.ch.sw.phase.marking = false) (sl : Fin 8) : ∀ l, m.pushAll sl l = m
  | [] => rfl
  | v :: r => by
    unfold Mach.pushAll
    rw [show m.snapshots sl v = false by simp [Mach.snapshots, h]]
    exact pushAll_unmarked h sl r
/-- The oldest heal, whose source lies in memory and whose write needs no action of the cycle. -/
theorem heal_does {m : Mach} {h : HealReq} {r : List HealReq} (hheals : m.ch.proc.heals = h :: r) (hmark : m.ch.sw.phase.marking = false)
    (hplace : m.ch.place h.addr = .memory) (hlogs : m.logs h.slot h.va (withPay (m.peek h.addr) h.new) = false) :
    m.heal.ch.proc.heals = r ∧ m.heal.ch.thr = m.ch.thr ∧ m.heal.c = m.c ∧
      ∀ b, m.heal.peek b = if (cellTag (m.peek h.addr) = cellTag h.old ∧ cellPay (m.peek h.addr) = cellPay h.old) ∧ b = h.addr
        then withPay (m.peek h.addr) h.new else m.peek b := by
  obtain ⟨hcell, hserve⟩ := physRead_memory (m := { m with ch.proc.heals := r }) (k := h.core) hplace
  have hpeek : ∀ b, (({ m with ch.proc.heals := r } : Mach).physRead (coreAgent h.core) h.addr).2.peek b = m.peek b :=
    fun b => peek_of_looks (looksOnly_of_serves (k := 0) hserve) b
  have hcell' : (({ m with ch.proc.heals := r } : Mach).physRead (coreAgent h.core) h.addr).1 = m.peek h.addr := hcell
  unfold Mach.heal
  rw [hheals]
  dsimp only
  rw [hcell']
  have hkept := (stepsOnly_of_serves hserve).1
  generalize (({ m with ch.proc.heals := r } : Mach).physRead (coreAgent h.core) h.addr).2 = n at hpeek hkept
  have hlogs' : n.logs h.slot h.va (withPay (m.peek h.addr) h.new) = false := by
    rw [hkept]
    exact hlogs
  have hmark' : n.ch.sw.phase.marking = false := by
    rw [hkept]
    exact hmark
  by_cases hsame : cellTag (m.peek h.addr) = cellTag h.old ∧ cellPay (m.peek h.addr) = cellPay h.old
  · have hplace' : n.ch.place h.addr = .memory := (stepped_place hkept _).trans hplace
    have hstore := stepped_trans hkept (cellStep_steps (coreAgent_ne h.core) hplace' (withPay (m.peek h.addr) h.new) false).1
    rw [if_pos (by simpa using hsame), hlogs', if_neg (by decide), pushAll_unmarked hmark']
    refine ⟨by rw [hstore]; rfl, by rw [hstore]; rfl, by rw [hstore]; rfl, fun b => ?_⟩
    rw [peek_cellStep (coreAgent_ne h.core) hplace', hpeek]
    by_cases hb : b = h.addr
    · rw [if_pos hb, if_pos ⟨hsame, hb⟩]
      rfl
    · rw [if_neg hb, if_neg (fun hx => hb hx.2)]
  · rw [if_neg (by simpa using hsame)]
    refine ⟨by rw [hkept]; rfl, by rw [hkept]; rfl, by rw [hkept]; rfl, fun b => ?_⟩
    rw [if_neg (fun hx => hsame hx.1)]
    exact hpeek b
/-- A slice of channel c put back as one. -/
theorem withC_self {m : Mach} {c : Chan} (h : m.c = c) : ({ m with c := c } : Mach) = m := by
  rw [← h]
theorem heals : healsClaim := by
  intro s c h r
  dsimp only
  intro hrun hpower hmark hheals hplace hlogs
  have hon : (s.mach c).fastOn = true := by simp [Mach.fastOn, hrun, hpower]
  obtain ⟨hrest, hthr, hc, hcells⟩ := heal_does (m := s.mach c) hheals hmark hplace hlogs
  have hfast : (if (s.mach c).fastOn then (s.mach c).heal else s.mach c) = (s.mach c).heal := if_pos hon
  have hmach : (s.onMach c fun m => if m.fastOn then m.heal else m).mach c = (s.mach c).heal := by
    unfold State.onMach
    dsimp only
    rw [hfast]
    refine (mach_putMach s rfl).trans ?_
    exact withC_self hc
  have hch := congrArg (fun m : Mach => m.ch) hmach
  have hread (b : Nat) : (s.onMach c fun m => if m.fastOn then m.heal else m).cell c b = (s.mach c).heal.peek b :=
    congrArg (fun m : Mach => m.peek b) hmach
  refine ⟨_, rfl, (congrArg (fun ch : Channel => ch.proc.heals) hch).trans hrest, (congrArg (fun ch : Channel => ch.thr) hch).trans hthr,
    fun j hj => chan_onMach_ne s c j _ hj, fun hsame => ⟨?_, fun b hb => ?_⟩, fun hdiff b => ?_⟩
  · exact (hread _).trans ((hcells _).trans (if_pos ⟨hsame, rfl⟩))
  · exact (hread b).trans ((hcells b).trans (if_neg fun hx => hb hx.2))
  · exact (hread b).trans ((hcells b).trans (if_neg fun hx => hdiff hx.1))

/-- Settles O42: each command changes what its rule names and nothing else. -/
theorem windowsFillsAndHeals : Obligations.WindowsFillsAndHeals := ⟨windowsAndStalemate, fillsAndPrefetches, heals⟩

end Sys2Proof.Machine
end

section
/-! FLXFER (R150, R151). -/
namespace Sys2Proof.Machine

/-! ### Near store read and written without error -/

section
variable {m : Mach}

theorem peek_nearStore {o : Nat} (ho : o < 0x10000) : m.peek (0x80000000 + o) = (nearRead (m.nearBits o)).2 := by
  unfold Mach.peek
  rw [place_near m.ch (by omega) (by omega)]
  simp only [Nat.add_sub_cancel_left]
theorem nearFetch_clean {o : Nat} (ho : o < 0x10000) (h : (nearRead (m.nearBits o)).1 = .clean) :
    m.nearFetch o = (m.peek (0x80000000 + o), m) := by
  unfold Mach.nearFetch
  dsimp only
  rw [peek_nearStore ho, h]
/-- The command block of R150, read from near store. -/
def Mach.blockAt (m : Mach) (o : Nat) : FlBlock :=
  let blk (i : Nat) : Cell := m.peek (0x80000000 + o + i)
  { cells := [blk 0, blk 1, blk 2, blk 3], kind := bits (cellPay (blk 0)) 8 8, count := bits (cellPay (blk 2)) 8 16, buf := (cellPay (blk 3)).toNat }
/-- A block whose fields keep to R150. -/
structure FlBlock.proper (b : FlBlock) : Prop where
  fix : ∀ v ∈ b.cells, cellTag v = tFIX
  kind : b.kind ≤ 2
  count : b.count ≤ 768
  buf : b.buf + (b.count + 2) / 3 ≤ 0x10000
theorem flBlock_clean {o : Nat} (ho : o + 4 ≤ 0x10000) (hclean : ∀ i < 4, (nearRead (m.nearBits (o + i))).1 = .clean)
    (hb : (m.blockAt o).proper) : m.flBlock o = (some (m.blockAt o), m) := by
  have hfetch (i : Nat) (hi : i < 4) : m.nearFetch (o + i) = (m.peek (0x80000000 + o + i), m) :=
    (nearFetch_clean (by omega) (hclean i hi)).trans (by rw [Nat.add_assoc])
  obtain ⟨hfix, hkind, hcount, hbuf⟩ := hb
  unfold Mach.flBlock
  rw [if_neg (by omega)]
  dsimp only
  rw [show m.nearFetch o = (m.peek (0x80000000 + o + 0), m) from hfetch 0 (by decide)]
  dsimp only
  rw [hfetch 1 (by decide)]
  dsimp only
  rw [hfetch 2 (by decide)]
  dsimp only
  rw [hfetch 3 (by decide)]
  dsimp only
  refine if_pos ?_
  have hall : (m.blockAt o).cells.all (fun v => cellTag v = tFIX) = true := List.all_eq_true.mpr fun v hv => by simpa using hfix v hv
  simp only [Bool.and_eq_true, decide_eq_true_eq]
  exact ⟨⟨⟨hall, hkind⟩, hcount⟩, hbuf⟩
theorem flData_clean {b : FlBlock} (hbuf : b.buf + (b.count + 2) / 3 ≤ 0x10000)
    (hclean : ∀ i < (b.count + 2) / 3, (nearRead (m.nearBits (b.buf + i))).1 = .clean) : (m.flData b).2 = m := by
  have hread : ∀ (n o : Nat) (l : List Payload), o + n ≤ 0x10000 → (∀ i < n, (nearRead (m.nearBits (o + i))).1 = .clean) →
      (iterN (fun o (r : List Payload × Mach) => (r.1 ++ [cellPay (r.2.nearFetch o).1], (r.2.nearFetch o).2)) o n (l, m)).2 = m := by
    intro n
    induction n with
    | zero => exact fun _ _ _ _ => rfl
    | succ n ih =>
      intro o l ho hc
      have hone : m.nearFetch o = (m.peek (0x80000000 + o), m) := nearFetch_clean (by omega) (hc 0 (Nat.succ_pos n))
      unfold iterN
      dsimp only
      rw [hone]
      exact ih (o + 1) _ (by omega) fun i hi => by
        rw [show o + 1 + i = o + (i + 1) by omega]
        exact hc (i + 1) (by omega)
  exact hread _ _ _ hbuf hclean
/-- Cells stored one after another in near store by the unit port, on a channel that mirrors nothing. -/
theorem flStore_run (ps : List Payload) : ∀ (m : Mach) (o : Nat), m.mirrors = false → o + ps.length ≤ 0x10000 →
    ∃ ag, m.flStore o ps = { m with ch.phys.near := nearRun m.ch.phys.near o (ps.map raw), ch.proc.granted := ag } := by
  induction ps with
  | nil => exact fun m o _ _ => ⟨m.ch.proc.granted, rfl⟩
  | cons p r ih =>
    intro m o hm ho
    rw [List.length_cons] at ho
    have hbase : (0x80000000 + o) / 16 * 16 - 0x80000000 + (0x80000000 + o) % 16 = o := by omega
    have hone : m.cellStep .unitPort (0x80000000 + o) (raw p) false =
        { m with ch.phys.near := mapPut m.ch.phys.near o (0#2 ++ raw p : BitVec 34), ch.proc.granted := .unitPort } := by
      unfold Mach.cellStep
      rw [place_near m.ch (by omega) (by omega)]
      refine (if_neg ?_).trans ?_
      · exact Bool.eq_false_iff.mp hm
      · dsimp only [Mach.nearCells, Mach.nearStore]
        rw [hbase]
        rfl
    obtain ⟨ag, hrest⟩ := ih { m with ch.phys.near := mapPut m.ch.phys.near o (0#2 ++ raw p : BitVec 34), ch.proc.granted := .unitPort } (o + 1) hm
      (by omega)
    refine ⟨ag, ?_⟩
    unfold Mach.flStore
    rw [hone, hrest]
    rfl
end

theorem near_above {ch : Channel} {x : Nat} (h : ch.place x = .near) : 0x80000000 ≤ x := by
  unfold Channel.place at h
  split at h
  · nomatch h
  · split at h
    · nomatch h
    · split at h
      · next hin => exact of_decide_eq_true (Bool.and_eq_true_iff.mp hin).1
      · split at h <;> nomatch h
/-- What lies outside the cells of near store that were written reads as before. -/
theorem peek_nearRun {m : Mach} {vs : List Cell} {o x : Nat} {ag : Agent} {th : Thread} {t : Fin 8}
    (hx : x < 0x80000000 + o ∨ 0x80000000 + o + vs.length ≤ x) :
    (({ m with ch.phys.near := nearRun m.ch.phys.near o vs, ch.proc.granted := ag } : Mach).setThr t th).peek x = m.peek x := by
  by_cases hlow : 0x80000000 ≤ x
  · refine peek_congr rfl rfl ?_
    have hk : x - 0x80000000 < o ∨ o + vs.length ≤ x - 0x80000000 := by omega
    generalize x - 0x80000000 = k at hk
    exact congrArg (fun v => Option.getD v _) (mapGet_nearRun_out vs m.ch.phys.near o k hk)
  · have hplace : (({ m with ch.phys.near := nearRun m.ch.phys.near o vs, ch.proc.granted := ag } : Mach).setThr t th).ch.place x = m.ch.place x := rfl
    unfold Mach.peek
    rw [hplace]
    rcases hp : m.ch.place x
    case near => exact absurd (near_above hp) hlow
    all_goals rfl

/-! ### Bytes packed three to a cell -/

theorem pack3_length : ∀ l : List Byte, (pack3 l).length = (l.length + 2) / 3
  | [] => rfl
  | [_] => by simp [pack3]
  | [_, _] => by simp [pack3]
  | a :: b :: c :: r => by
    rw [pack3, List.length_cons, pack3_length r]
    simp only [List.length_cons]
    omega
theorem getElem_pack3 : ∀ (l : List Byte) (i : Nat) (h : i < (pack3 l).length),
    (pack3 l)[i] = (l.getD (3 * i + 2) 0#8 ++ l.getD (3 * i + 1) 0#8 ++ l.getD (3 * i) 0#8 : BitVec 24)
  | [], i, h => absurd h (Nat.not_lt_zero i)
  | [a], 0, _ => by
    show (0#16 ++ a : BitVec 24) = (0#8 ++ 0#8 ++ a : BitVec 24)
    congr 1
  | [a, b], 0, _ => rfl
  | a :: b :: c :: r, 0, _ => rfl
  | a :: b :: c :: r, i + 1, h => by
    have hrest : i < (pack3 r).length := Nat.lt_of_succ_lt_succ h
    refine (getElem_pack3 r i hrest).trans ?_
    rw [show 3 * (i + 1) = 3 * i + 1 + 1 + 1 by omega]
    rfl

/-! ### The transfer -/

/-- A command or a write on a channel that is not the active of a pair reports its time-out alone. -/
theorem flxfer_sends {m : Mach} {b : FlBlock} {timedOut failed : Bool} {reply : List Byte} (hrole : m.ch.pair.role ≠ .active)
    (hkind : b.kind = 1 ∨ b.kind = 2 ∧ (m.flData b).2 = m) : m.flxfer b timedOut failed reply = (fixN (if timedOut then 1 else 0), m) := by
  have hread : (if b.kind = 2 then m.flData b else ([], m)).2 = m := by
    rcases hkind with e | ⟨e, hdata⟩
    · rw [if_neg (by omega)]
    · rw [if_pos e, hdata]
  unfold Mach.flxfer
  rw [if_neg (by omega)]
  dsimp only
  rw [hread, decide_eq_false hrole]
  cases timedOut <;> rfl

section
variable {s : State} {c : Chan} {t : Fin 8} {d a : Reg} {timedOut failed : Bool} {reply : List Byte}

/-- The work of FLXFER on a proper block, up to the transfer. -/
theorem runI_flxfer (hs : s.plain c t = true) (ha : (s.thread c t).has a fixTag = true) (ho : ((s.thread c t).pay a).toNat + 4 ≤ 0x10000)
    (hclean : s.nearClean c ((s.thread c t).pay a).toNat 4) (hb : ((s.mach c).blockAt ((s.thread c t).pay a).toNat).proper) :
    runI (do
        let v ← operand 0 a fixTag
        modM (fun m => m.drainThread t)
        let b ← useM (fun m => m.flBlock (cellPay v).toNat)
        match b with
        | none => faultOR 0
        | some b =>
          commit
          let r ← useM (fun m => m.flxfer b timedOut failed reply)
          setD d r
          return Flow.next) (workOn s c t (iDA 0x45 d a).asSup) =
      runI (do
        setD d ((s.begun c t (iDA 0x45 d a).asSup).flxfer ((s.mach c).blockAt ((s.thread c t).pay a).toNat) timedOut failed reply).1
        return Flow.next)
        { workOn s c t (iDA 0x45 d a).asSup with
          m := ((s.begun c t (iDA 0x45 d a).asSup).flxfer ((s.mach c).blockAt ((s.thread c t).pay a).toNat) timedOut failed reply).2 } := by
  have hdrain : (s.begun c t (iDA 0x45 d a).asSup).drainThread t = s.begun c t (iDA 0x45 d a).asSup := drainThread_empty (plain_wb hs)
  have hblock : (s.begun c t (iDA 0x45 d a).asSup).flBlock ((s.thread c t).pay a).toNat =
      (some ((s.mach c).blockAt ((s.thread c t).pay a).toNat), s.begun c t (iDA 0x45 d a).asSup) := flBlock_clean ho hclean hb
  have hstart : (workOn s c t (iDA 0x45 d a).asSup).m = s.begun c t (iDA 0x45 d a).asSup := rfl
  rw [runI_bind_ok (runI_operand_has ha), runI_bind_ok (runI_modM _ _), hstart, hdrain]
  refine (runI_bind_ok (runI_useM _ _)).trans ?_
  dsimp only
  have hpay : cellPay ((s.thread c t).reg a) = (s.thread c t).pay a := rfl
  rw [hpay, hblock]
  dsimp only
  rw [runI_bind_ok (runI_commit_nil ..)]
  exact runI_bind_ok (runI_useM _ _)
/-- A transfer that leaves the slice alone delivers its code. -/
theorem flxfer_delivers {v : Cell} (hs : s.plain c t = true) (hsup : (s.thread c t).sup = true) (ha : (s.thread c t).has a fixTag = true)
    (ho : ((s.thread c t).pay a).toNat + 4 ≤ 0x10000)
    (hclean : s.nearClean c ((s.thread c t).pay a).toNat 4) (hb : ((s.mach c).blockAt ((s.thread c t).pay a).toNat).proper)
    (hv : (s.begun c t (iDA 0x45 d a).asSup).flxfer ((s.mach c).blockAt ((s.thread c t).pay a).toNat) timedOut failed reply =
      (v, s.begun c t (iDA 0x45 d a).asSup)) : delivers (.flxfer c t d a timedOut failed reply) s c t d v := by
  refine delivers_of_run (i := (iDA 0x45 d a).asSup) rfl (plain_ready hs) (fun _ => hsup) ?_
  refine (runI_flxfer hs ha ho hclean hb).trans ?_
  rw [hv]
  rfl
theorem onlyStep_of_phys {s' : State} {ph : Phys} {th : Thread} (h : onlyStep (s.setChan c { s.chan c with phys := ph }) s' c t th) :
    onlyStep s s' c t th := by
  obtain ⟨p, n, q, mc, led, pend, ph', core, pair, ag, rfl⟩ := h
  refine ⟨p, n, q, mc, led, pend, ph', core, pair, ag, ?_⟩
  unfold State.ran
  rw [chan_setChan]
  simp [State.setChan]
/-- A read that goes through: the bytes received stand packed in the data buffer. -/
theorem flxfer_reads (hs : s.plain c t = true) (hsup : (s.thread c t).sup = true) (ha : (s.thread c t).has a fixTag = true)
    (ho : ((s.thread c t).pay a).toNat + 4 ≤ 0x10000)
    (hclean : s.nearClean c ((s.thread c t).pay a).toNat 4) (hb : ((s.mach c).blockAt ((s.thread c t).pay a).toNat).proper)
    (hmirror : (s.mach c).mirrors = false) (hkind : ((s.mach c).blockAt ((s.thread c t).pay a).toNat).kind = 0)
    (hlen : reply.length = ((s.mach c).blockAt ((s.thread c t).pay a).toNat).count) :
    ∃ s', exec (.flxfer c t d a false failed reply) s = .next s' ∧ onlyStep s s' c t (((s.thread c t).setReg d fix0).complete .next) ∧
      (∀ j < (((s.mach c).blockAt ((s.thread c t).pay a).toNat).count + 2) / 3,
        s'.cell c (0x80000000 + ((s.mach c).blockAt ((s.thread c t).pay a).toNat).buf + j) =
          raw (reply.getD (3 * j + 2) 0#8 ++ reply.getD (3 * j + 1) 0#8 ++ reply.getD (3 * j) 0#8 : BitVec 24)) ∧
      ∀ x, x < 0x80000000 + ((s.mach c).blockAt ((s.thread c t).pay a).toNat).buf ∨
        0x80000000 + ((s.mach c).blockAt ((s.thread c t).pay a).toNat).buf +
          (((s.mach c).blockAt ((s.thread c t).pay a).toNat).count + 2) / 3 ≤ x → s'.cell c x = s.cell c x := by
  have hrun := runI_flxfer (timedOut := false) (failed := failed) (reply := reply) (d := d) hs ha ho hclean hb
  obtain ⟨-, -, -, hbuf⟩ := hb
  have hpacked : (pack3 reply).length = (((s.mach c).blockAt ((s.thread c t).pay a).toNat).count + 2) / 3 := by rw [pack3_length, hlen]
  generalize (s.mach c).blockAt ((s.thread c t).pay a).toNat = b at hrun hbuf hkind hlen hpacked ⊢
  obtain ⟨ag, hstore⟩ := flStore_run (pack3 reply) (s.begun c t (iDA 0x45 d a).asSup) b.buf hmirror (by omega)
  have hxfer : (s.begun c t (iDA 0x45 d a).asSup).flxfer b false failed reply =
      (fixN 0, (s.begun c t (iDA 0x45 d a).asSup).flStore b.buf (pack3 reply)) := by
    unfold Mach.flxfer
    rw [if_pos hkind, if_neg (by decide), ← hlen, List.take_length]
  rw [hxfer, hstore] at hrun
  obtain ⟨s', hex, honly, -, hcell, -⟩ := stepped_of_run (ins := .flxfer c t d a false failed reply) (f := .next)
    (th := (s.thread c t).setReg d (fixN 0))
    (ch := { s.chan c with phys := { (s.chan c).phys with near := nearRun (s.chan c).phys.near b.buf ((pack3 reply).map raw) } })
    rfl (plain_ready hs) (fun _ => hsup) nofun nofun (hrun.trans (runI_bind_ok (runI_setD _ _ _))) (by
      dsimp only
      rw [show ({ s.begun c t (iDA 0x45 d a).asSup with
        ch.phys.near := nearRun (s.begun c t (iDA 0x45 d a).asSup).ch.phys.near b.buf ((pack3 reply).map raw), ch.proc.granted := ag } : Mach).thr t =
          s.thread c t from rfl]
      rfl)
  have hcode : fixN 0 = fix0 := by decide
  rw [hcode] at honly
  refine ⟨s', hex, onlyStep_of_phys honly, fun j hj => ?_, fun x hx => ?_⟩
  · rw [hcell, Nat.add_assoc]
    have hj' : j < (pack3 reply).length := by omega
    refine (peek_near (by omega) (mapGet_nearRun_in _ _ b.buf j (by simpa using hj'))).trans ?_
    rw [List.getElem_map, getElem_pack3]
  · exact (hcell x).trans (peek_nearRun (m := s.begun c t (iDA 0x45 d a).asSup) (by rw [List.length_map]; omega))
end

/-- Settles O36: the block is read as it stands; a transfer that reports its code alone leaves the slice, a read stores what came. -/
theorem flashTransfer : Obligations.FlashTransfer := by
  intro s c t d a failed reply hs hsup
  dsimp only
  intro ha ho hfix hcount hbuf hclean hrole
  have hcode : fixN 0 = fix0 := by decide
  have hb (hkind : bits (cellPay (s.cell c (0x80000000 + ((s.thread c t).pay a).toNat + 0))) 8 8 ≤ 2) :
      ((s.mach c).blockAt ((s.thread c t).pay a).toNat).proper := by
    refine ⟨fun v hv => ?_, hkind, hcount, hbuf⟩
    simp only [Mach.blockAt, List.mem_cons, List.not_mem_nil, or_false] at hv
    rcases hv with rfl | rfl | rfl | rfl
    · exact hfix 0 (by decide)
    · exact hfix 1 (by decide)
    · exact hfix 2 (by decide)
    · exact hfix 3 (by decide)
  have halone : (s.begun c t (iDA 0x45 d a).asSup).ch.pair.role ≠ .active := by
    rw [show (s.begun c t (iDA 0x45 d a).asSup).ch.pair = (s.chan c).pair from rfl, hrole]
    decide
  have hsends (timedOut : Bool) (hw : ((s.mach c).blockAt ((s.thread c t).pay a).toNat).kind = 1 ∨
      ((s.mach c).blockAt ((s.thread c t).pay a).toNat).kind = 2 ∧
        s.nearClean c (cellPay (s.cell c (0x80000000 + ((s.thread c t).pay a).toNat + 3))).toNat
          ((bits (cellPay (s.cell c (0x80000000 + ((s.thread c t).pay a).toNat + 2))) 8 16 + 2) / 3)) :
      delivers (.flxfer c t d a timedOut failed reply) s c t d (fixN (if timedOut then 1 else 0)) := by
    refine flxfer_delivers hs hsup ha ho hclean (hb ?_) (flxfer_sends halone ?_)
    · rcases hw with e | ⟨e, -⟩
      · exact Nat.le_trans (Nat.le_of_eq e) (by decide)
      · exact Nat.le_of_eq e
    · exact hw.imp_right fun ⟨e, hdata⟩ => ⟨e, flData_clean hbuf hdata⟩
  refine ⟨fun hkind => ⟨hsends true (.inl hkind), hcode ▸ hsends false (.inl hkind)⟩,
    fun hkind hdata => ⟨hsends true (.inr ⟨hkind, hdata⟩), hcode ▸ hsends false (.inr ⟨hkind, hdata⟩)⟩, fun hkind => ?_⟩
  have hproper := hb (Nat.le_trans (Nat.le_of_eq hkind) (by decide))
  refine ⟨flxfer_delivers hs hsup ha ho hclean hproper ?_, fun hlen => ?_⟩
  · unfold Mach.flxfer
    rw [if_pos (show ((s.mach c).blockAt ((s.thread c t).pay a).toNat).kind = 0 from hkind)]
    rfl
  · refine flxfer_reads hs hsup ha ho hclean hproper ?_ hkind hlen
    simp [Mach.mirrors, hrole]

end Sys2Proof.Machine
end

section
/-! Event entry with translation off (R251, R261, R266-R271). -/
namespace Sys2Proof.Machine

/-! ### Reads with translation off -/

/-- A slice whose thread t runs with translation off, its data caches off and no store waiting. -/
structure offSlice (b : Mach) (t : Fin 8) : Prop where
  te : (b.thr t).te = false
  dcen : b.ch.proc.dcen = false
  wb : (b.core (coreOf t)).wb = []
/-- Work that began on slice b has read, and collected no translation. -/
structure offReads (b : Mach) (t : Fin 8) (st : IS) : Prop where
  who : st.t = t
  slice : servesOnly b st.m
  used : st.used = []

section
variable {b : Mach} {t : Fin 8} {st : IS}

theorem offReads_start (b : Mach) (t : Fin 8) (u l : Nat) : offReads b t { m := b, t := t, used := [], fwds := u, last := l } :=
  ⟨rfl, servesOnly_refl b, rfl⟩
theorem offReads_thr (h : offReads b t st) : st.m.thr st.t = b.thr t := by
  rw [h.who, h.slice.1]
  rfl
/-- An address is its own physical address while TE is 0 (R289). -/
theorem runI_xlateAs_off {sup : Bool} {va : VAddr} {need : Need} (hb : offSlice b t) (h : offReads b t st) :
    ∃ st', offReads b t st' ∧ runI (xlateAs sup va need false) st = (.ok { phys := va.toNat, typ := 0#2 }, st') := by
  refine ⟨{ st with last := va.toNat }, ⟨h.who, h.slice, h.used⟩, ?_⟩
  unfold xlateAs
  rw [runI_bind_ok (runI_getT _), runI_bind_ok (runI_modify _ _), offReads_thr h, hb.te]
  rfl
theorem runI_xlate_off {va : VAddr} {need : Need} (hb : offSlice b t) (h : offReads b t st) :
    ∃ st', offReads b t st' ∧ runI (xlate va need false) st = (.ok { phys := va.toNat, typ := 0#2 }, st') := by
  obtain ⟨st', h', hx⟩ := runI_xlateAs_off (sup := (st.m.thr st.t).sup) (va := va) (need := need) hb h
  exact ⟨st', h', (runI_bind_ok (runI_getT _)).trans hx⟩
theorem runI_readCell_off {va : VAddr} (hb : offSlice b t) (h : offReads b t st) :
    ∃ st', offReads b t st' ∧ runI (readCell { phys := va.toNat, typ := 0#2 }) st = (.ok (b.peek va.toNat), st') := by
  obtain ⟨hwb, hdcen, hplace⟩ := serves_fields h.slice (coreOf t) va.toNat
  rw [hb.wb] at hwb
  rw [hb.dcen] at hdcen
  have hmem := hplace.trans (place_low b.ch va)
  refine ⟨{ st with m := (st.m.turnRead (coreAgent (coreOf t)) (va.toNat / 16) 0#2 false).2 },
    ⟨h.who, servesOnly_trans h.slice (coreRead_serves _ _ _ _ _), h.used⟩, ?_⟩
  have hfetch : st.m.memFetch (coreOf t) va.toNat true = (b.peek va.toNat, (st.m.turnRead (coreAgent (coreOf t)) (va.toNat / 16) 0#2 false).2) := by
    unfold Mach.memFetch
    rw [hdcen]
    refine Prod.ext ((coreRead_cell _ _ _ _ _).trans ?_) rfl
    rw [peek_memory (place_low b.ch va)]
    exact h.slice.2 _
  unfold readCell
  rw [runI_bind_ok (runI_myCore _), h.who, runI_bind_ok (runI_modM _ _), drainLine_empty hwb, runI_bind_ok (runI_getM _), hmem]
  show (_, _) = _
  simp only [decide_true]
  rw [hfetch, ← h.who]

/-! ### The handler's entry -/

variable {s : State} {c : Chan}

/-- Slice b reads as channel c does, and thread t's translation is off in both. -/
structure offOf (s : State) (c : Chan) (b : Mach) (t : Fin 8) : Prop where
  slice : offSlice b t
  te : (s.thread c t).te = false
  cell : ∀ a, b.peek a = s.cell c a
theorem reach_of_off {va : VAddr} {need : Need} (h : (s.thread c t).te = false) : s.reach c t va need = some va.toNat := by
  unfold State.reach
  simp [h]
theorem runI_readFwd_off {need : Need} (hb : offOf s c b t) : ∀ (n : Nat) {va w : VAddr} {a : Nat} {st : IS},
    s.chase c t need n va = some (w, a) → offReads b t st →
    ∃ st' x, offReads b t st' ∧ runI (readFwd va need n { phys := va.toNat, typ := 0#2 }) st = (.ok (s.cell c a, w, x), st') := by
  intro n
  induction n with
  | zero =>
    intro va w a st hchase h
    obtain ⟨hfwd, heq⟩ := chase_zero (reach_of_off hb.te) hchase
    obtain ⟨rfl, rfl⟩ := Prod.mk.injEq .. ▸ heq
    obtain ⟨st', h', hread⟩ := runI_readCell_off (va := va) hb.slice h
    refine ⟨st', { phys := va.toNat, typ := 0#2 }, h', ?_⟩
    unfold readFwd readFwdBy
    rw [runI_bind_ok hread, hb.cell, runI_check_passes hfwd]
    rfl
  | succ n ih =>
    intro va w a st hchase h
    obtain ⟨st', h', hread⟩ := runI_readCell_off (va := va) hb.slice h
    unfold readFwd readFwdBy
    rw [runI_bind_ok hread, hb.cell]
    rcases chase_succ (reach_of_off hb.te) hchase with ⟨hfwd, heq⟩ | ⟨hfwd, hchase'⟩
    · obtain ⟨rfl, rfl⟩ := Prod.mk.injEq .. ▸ heq
      rw [if_neg hfwd]
      exact ⟨st', _, h', rfl⟩
    · have hcount : offReads b t { st' with fwds := st'.fwds + 1 } := ⟨h'.who, h'.slice, h'.used⟩
      obtain ⟨st2, h2, hx⟩ := runI_xlate_off (va := cellPay (s.cell c va.toNat)) (need := need) hb.slice hcount
      obtain ⟨st3, x, h3, hrest⟩ := ih hchase' h2
      refine ⟨st3, x, h3, ?_⟩
      rw [if_pos hfwd, runI_bind_ok (runI_modify _ _), runI_bind_ok hx]
      exact hrest
theorem runI_readAt_off {va w : VAddr} {v : Cell} (hb : offOf s c b t) (hfound : s.found c t va = some (w, v)) (h : offReads b t st) :
    ∃ st' x, offReads b t st' ∧ runI (readAt va needR) st = (.ok (v, w, x), st') := by
  obtain ⟨⟨w', a⟩, hchase, heq⟩ := Option.map_eq_some_iff.mp hfound
  obtain ⟨rfl, rfl⟩ := Prod.mk.injEq .. ▸ heq
  obtain ⟨st1, h1, hx⟩ := runI_xlate_off (va := va) (need := needR) hb.slice h
  obtain ⟨st2, x, h2, hread⟩ := runI_readFwd_off hb 8 hchase h1
  exact ⟨st2, x, h2, (runI_bind_ok hx).trans hread⟩
theorem runI_codeEntry_off {p : Cell} {e : VAddr} (hb : offOf s c b t) (he : s.entryAt c t p = some e) (h : offReads b t st) :
    ∃ st', offReads b t st' ∧ runI (codeEntry p) st = (.ok e, st') := by
  unfold State.entryAt at he
  split at he
  next hd v w n hhdr hcount =>
    split at he
    next hok =>
      obtain rfl := Option.some.inj he
      simp only [Bool.and_eq_true, decide_eq_true_eq] at hok
      obtain ⟨⟨hv, hkind⟩, hn⟩ := hok
      obtain ⟨st1, x, h1, hread1⟩ := runI_readAt_off hb hhdr h
      obtain ⟨st2, y, h2, hread2⟩ := runI_readAt_off hb hcount h1
      refine ⟨st2, h2, ?_⟩
      unfold codeEntry
      rw [runI_bind_ok hread1, runI_check_passes (by rw [hv]; decide), runI_check_passes (by simp [hv, hkind]), runI_bind_ok hread2,
        runI_checkLoaded (loadable_of_tag hn (by decide)), runI_check_passes (by simp [hn])]
      rfl
    · nomatch he
  · nomatch he
theorem runI_asStep {α : Type} {cause : Exit → BitVec 4} {w : IM α} {v : α} {st' : IS} (h : runI w st = (.ok v, st')) :
    runI (asStep cause w) st = (.ok v, st') := by
  unfold asStep
  rw [runI_tryCatch, h]
/-- The entry of a handler's CODE (Table 11.7, cycle 3). -/
theorem runI_handlerEntry {p : Cell} {e : VAddr} (hb : offOf s c b t) (hp : cellTag p = tCODE) (he : s.entryAt c t p = some e)
    (h : offReads b t st) : ∃ st', offReads b t st' ∧ runI (handlerEntry p) st = (.ok e, st') := by
  obtain ⟨st1, h1, hx⟩ := runI_xlateAs_off (sup := true) (va := cellPay p) (need := needR) hb.slice h
  obtain ⟨st2, h2, hentry⟩ := runI_codeEntry_off hb he h1
  refine ⟨st2, h2, ?_⟩
  have hstep : runI (do let _ ← xlateAs true (cellPay p) needR false; return ()) st = (.ok (), st1) := runI_bind_ok hx
  unfold handlerEntry
  rw [runI_check_passes (by simp [hp])]
  dsimp only
  rw [runI_bind_ok (runI_asStep hstep)]
  exact runI_asStep hentry
theorem runI_commit_off (h : offReads b t st) : runI commit st = (.ok (), st) := by
  obtain ⟨m, u, used, f, l⟩ := st
  obtain rfl : used = [] := h.used
  exact runI_commit_nil m u f l

/-! ### The frame -/

/-- Cells one after another from a virtual address, with the physical address of each. -/
def translated (va : VAddr) (vs : List Cell) : List (VAddr × Cell × Xl) :=
  (addrsFrom va vs).map (fun e => (e.1, e.2, { phys := e.1.toNat, typ := 0#2 }))
theorem runI_xlateCells_off (hb : offSlice b t) : ∀ (l : List (VAddr × Cell)) {st : IS}, offReads b t st →
    ∃ st', offReads b t st' ∧ runI (xlateCells l) st = (.ok (l.map (fun e => (e.1, e.2, { phys := e.1.toNat, typ := 0#2 }))), st')
  | [], st, h => ⟨st, h, rfl⟩
  | (a, v) :: r, st, h => by
    obtain ⟨st1, h1, hx⟩ := runI_xlateAs_off (sup := true) (va := a) (need := needW) hb h
    obtain ⟨st2, h2, hrest⟩ := runI_xlateCells_off hb r h1
    refine ⟨st2, h2, ?_⟩
    unfold xlateCells
    rw [runI_bind_ok hx, runI_bind_ok hrest]
    rfl
/-- Work that began on slice b has stored cells in its core's buffer, and the core reads f. -/
structure offStores (b : Mach) (t : Fin 8) (f : Nat → Cell) (st : IS) : Prop where
  who : st.t = t
  slice : ∃ wb, servesOnly (b.withWb (coreOf t) wb) st.m
  seen : ∀ a, st.m.seenBy (coreOf t) a = f a
theorem servesOnly_withWb {m n : Mach} (h : servesOnly m n) (k : Fin 2) (wb : List WbEntry) : servesOnly (m.withWb k wb) (n.withWb k wb) := by
  obtain ⟨hn, hcell⟩ := h
  refine ⟨?_, hcell⟩
  rw [hn]
  rfl
theorem servesOnly_of_perf {m n : Mach} (h : perfOnly m n) : servesOnly m n := by
  obtain ⟨p, k, rfl⟩ := h
  exact ⟨rfl, fun _ => rfl⟩
theorem servesOnly_setThr {m n : Mach} (h : servesOnly m n) (u : Fin 8) (th : Thread) : servesOnly (m.setThr u th) (n.setThr u th) := by
  obtain ⟨hn, hcell⟩ := h
  refine ⟨?_, hcell⟩
  rw [hn]
  rfl
theorem peek_of_serves {m n : Mach} (h : servesOnly m n) (a : Nat) : n.peek a = m.peek a := peek_of_looks (looksOnly_of_serves (k := 0) h) a
theorem seenBy_of_serves {m n : Mach} (h : servesOnly m n) (k : Fin 2) (a : Nat) : n.seenBy k a = m.seenBy k a := by
  unfold Mach.seenBy
  rw [peek_of_serves h, (serves_fields h k a).1]
/-- A cell enters a buffer with room: what else changes is counts. -/
theorem buffer_room {m : Mach} {x : Nat} {v : Cell} {mk : Bool} {logs : List (Fin 8 × BitVec 24)} (hroom : (m.core (coreOf t)).wb.length < 8) :
    ∃ n wb, perfOnly m n ∧ m.buffer t x v mk logs = n.withWb (coreOf t) wb := by
  rcases buffer_cases m t x v mk logs with ⟨y, init, -, -, -, heq⟩ | ⟨-, heq⟩
  · exact ⟨_, _, bump_perfOnly _ _, heq⟩
  · exact ⟨m, _, perfOnly_refl m, heq.trans (wbPush_room hroom _)⟩
theorem offStores_of_reads (hb : offSlice b t) (h : offReads b t st) : offStores b t b.peek st := by
  refine ⟨h.who, ⟨[], ?_⟩, fun a => ?_⟩
  · rw [withWb_self hb.wb]
    exact h.slice
  · rw [seenBy_of_serves h.slice]
    unfold Mach.seenBy
    rw [hb.wb]
    rfl
/-- A whole cell written as a barrier write with translation off: no space is managed, so there is nothing to log. -/
theorem runI_barrierStore_off {va : VAddr} {v : Cell} {n : Nat} {f : Nat → Cell} (hb : offSlice b t) (hphase : b.ch.sw.phase = .idle)
    (h : offStores b t f st) (hfit : st.m.fits (coreOf t) (va.toNat / 16) n) (hn : n < 8) :
    ∃ st', offStores b t (fun a => if a = va.toNat then v else f a) st' ∧ st'.m.fits (coreOf t) (va.toNat / 16) n ∧
      runI (barrierStore va { phys := va.toNat, typ := 0#2 } v false false) st = (.ok (), st') := by
  obtain ⟨wb, hslice⟩ := h.slice
  have hsame : st.m.ch.sw = b.ch.sw ∧ st.m.thr st.t = b.thr t ∧ st.m.ch.place va.toNat = b.ch.place va.toNat := by
    rw [h.who, hslice.1]
    exact ⟨rfl, rfl, rfl⟩
  obtain ⟨hsw, hthr, hplace⟩ := hsame
  have hidle : st.m.ch.sw.phase = .idle := by rw [hsw, hphase]
  have hlog : st.m.logAction (st.m.thr st.t) va v = [] := by
    unfold Mach.logAction Mach.spaceOf
    rw [hthr, hb.te]
    rfl
  have hkind : st.m.wbKind va.toNat = .memory := by
    unfold Mach.wbKind
    rw [hplace, place_low]
  have hroom := fits_room hfit hn
  obtain ⟨m, wb', hm, hbuf⟩ := buffer_room (t := t) (x := va.toNat) (v := v) (mk := false) (logs := []) hroom
  refine ⟨{ st with m := st.m.buffer t va.toNat v false [] }, ⟨h.who, ⟨wb', ?_⟩, fun a => ?_⟩, buffer_fits hfit hn, ?_⟩
  · have hserve := servesOnly_withWb (servesOnly_trans hslice (servesOnly_of_perf hm)) (coreOf t) wb'
    rw [withWb_withWb] at hserve
    dsimp only
    rw [hbuf]
    exact hserve
  · refine ((buffer_takes (.inl hroom)).2 a).trans ?_
    rw [h.seen]
    rfl
  · unfold barrierStore
    simp only [Bool.false_or]
    rw [runI_targetsEvac hidle, if_neg (by decide), runI_bind_ok (runI_get _), hlog]
    refine (runI_bind_ok (a := ()) (s := st) rfl).trans ?_
    rw [runI_snapshot hidle]
    unfold bufStore
    rw [runI_bind_ok (runI_me _), runI_modM, hkind, h.who]
    rfl
/-- Whole cells from a virtual address up, that do not pass the end of the address space. -/
theorem runI_writeCells_off (hb : offSlice b t) (hphase : b.ch.sw.phase = .idle) : ∀ (vs : List Cell) (va : VAddr) (n : Nat) {f : Nat → Cell} {st : IS},
    offStores b t f st → st.m.fits (coreOf t) (va.toNat / 16) n → va.toNat + vs.length < 0x1000000 →
    n + ((va.toNat + vs.length) / 16 - va.toNat / 16) < 8 →
    ∃ st', offStores b t (writtenRange va.toNat vs f) st' ∧ runI (writeCells (translated va vs)) st = (.ok (), st')
  | [], va, n, f, st, h, _, _, _ => ⟨st, ⟨h.who, h.slice, fun a => by rw [h.seen, writtenRange_nil]⟩, rfl⟩
  | v :: r, va, n, f, st, h, hfit, hend, hn => by
    rw [List.length_cons] at hend hn
    obtain ⟨st1, h1, hfit1, hstore⟩ := runI_barrierStore_off (va := va) (v := v) hb hphase h hfit (by omega)
    have hnext : (va + 1#24).toNat = va.toNat + 1 := by
      rw [BitVec.toNat_add]
      exact Nat.mod_eq_of_lt (by simp; omega)
    have hfit2 : st1.m.fits (coreOf t) ((va + 1#24).toNat / 16) (n + ((va + 1#24).toNat / 16 - va.toNat / 16)) := by
      rw [hnext]
      by_cases hline : (va.toNat + 1) / 16 = va.toNat / 16
      · rw [hline, Nat.sub_self]
        exact hfit1
      · rw [show (va.toNat + 1) / 16 - va.toNat / 16 = 1 by omega]
        exact fits_next hfit1 _
    obtain ⟨st2, h2, hrest⟩ := runI_writeCells_off hb hphase r (va + 1#24) _ h1 hfit2 (by omega) (by omega)
    refine ⟨st2, ⟨h2.who, h2.slice, fun a => ?_⟩, (runI_bind_ok hstore).trans hrest⟩
    rw [h2.seen, hnext]
    exact writtenRange_cons va.toNat v r f a
/-- The pushes of an event frame. -/
theorem runI_pushCells_off {va : VAddr} {vs : List Cell} (hb : offSlice b t) (hphase : b.ch.sw.phase = .idle) (h : offReads b t st)
    (hend : va.toNat + vs.length < 0x1000000) (hlen : vs.length ≤ 80) :
    ∃ st', offStores b t (writtenRange va.toNat vs b.peek) st' ∧ runI (pushCells va vs) st = (.ok (), st') := by
  obtain ⟨st1, h1, hx⟩ := runI_xlateCells_off hb (addrsFrom va vs) h
  have hwb : (st1.m.core (coreOf t)).wb = [] := (serves_fields h1.slice (coreOf t) 0).1.trans hb.wb
  obtain ⟨st2, h2, hwrite⟩ := runI_writeCells_off hb hphase vs va 1 (offStores_of_reads hb h1) (fits_empty hwb _) hend (by omega)
  refine ⟨st2, h2, ?_⟩
  unfold pushCells
  rw [runI_bind_ok hx, runI_bind_ok (runI_commit_off h1)]
  exact hwrite

/-! ### Entry work done, and what an entry leaves -/

/-- The slice with thread t in supervisor mode, and the start of entry work on it. -/
def Mach.supervised (m : Mach) (t : Fin 8) : Mach := m.setThr t { m.thr t with pstate := setBit (m.thr t).pstate 0 true }
def Mach.entryStart (m : Mach) (t : Fin 8) : IS := { m := m.supervised t, t := t, used := [], fwds := 0, last := 0 }
/-- Entry work of a thread that completes: its mode is as it was (R251). -/
theorem asSupervisor_ok {α : Type} {m : Mach} {w : IM α} {v : α} {st' : IS} (h : runI w (m.entryStart t) = (.ok v, st')) :
    m.asSupervisor t w = (.ok v, st'.m.setThr t { st'.m.thr t with pstate := (m.thr t).pstate }) := by
  have hrun : (m.supervised t).runAt t w = (.ok v, st'.m, st'.last) := by
    unfold Mach.entryStart at h
    show ((runI w _).1, (runI w _).2.m, (runI w _).2.last) = _
    rw [h]
  unfold Mach.asSupervisor
  dsimp only
  unfold Mach.supervised at hrun
  rw [hrun]
/-- What an entry does to its channel besides (R114, R277). -/
def Mach.awake (m : Mach) (k : Fin 2) : Mach :=
  { m with ch := { m.ch with life := { m.ch.life with gated := setBit m.ch.life.gated k.val false }, clk := { m.ch.clk with staleFor := 0 } } }
theorem servesOnly_awake {m n : Mach} (h : servesOnly m n) (k : Fin 2) : servesOnly (m.awake k) (n.awake k) := by
  obtain ⟨hn, hcell⟩ := h
  refine ⟨?_, hcell⟩
  rw [hn]
  rfl
theorem entryRecord_serves (m : Mach) (t : Fin 8) (e : Entry) (failed : Bool) : servesOnly m (m.entryRecord t e failed) := by
  unfold Mach.entryRecord Mach.reportControl
  split
  · exact servesOnly_report _ _ _ _ _
  · exact servesOnly_refl m
theorem countEntry_serves (m : Mach) (t : Fin 8) (e : Entry) (shadow : Bool) : servesOnly (m.awake (coreOf t)) (m.countEntry t e shadow) := by
  have hbump (n : Mach) (k : Nat) : servesOnly n (n.bumpT t k) := servesOnly_of_perf (bumpT_perfOnly n t k)
  have hite (n : Mach) (p : Prop) [Decidable p] (k : Nat) : servesOnly n (if p then n.bumpT t k else n) := by
    split
    · exact hbump n k
    · exact servesOnly_refl n
  unfold Mach.countEntry
  dsimp only
  exact servesOnly_trans (servesOnly_trans (servesOnly_trans (servesOnly_trans (hbump _ _) (hbump _ _)) (hbump _ _)) (hite _ _ _)) (hite _ _ _)
/-- What an entry leaves: the stores of its frame in the core's buffer, the core clocked, the thread as th. -/
structure entered (s : State) (c : Chan) (t : Fin 8) (th : Thread) (wb : List WbEntry) (x : Mach) : Prop where
  serves : servesOnly ((((s.mach c).withWb (coreOf t) wb).awake (coreOf t)).setThr t th) x
theorem mach_setChan (s : State) (c : Chan) (ch : Channel) : (s.setChan c ch).mach c = { s.mach c with ch := ch } := by
  unfold State.mach
  rw [chan_setChan]
  rfl
theorem onlyAccess_of_entered {th : Thread} {wb : List WbEntry} {x : Mach} (h : entered s c t th wb x) :
    onlyAccess (s.setChan c { s.chan c with
        life := { (s.chan c).life with gated := setBit (s.chan c).life.gated (coreOf t).val false }, clk := { (s.chan c).clk with staleFor := 0 } })
      (s.putMach { x with c := c }) c t th wb := by
  obtain ⟨hx, -⟩ := h.serves
  refine ⟨fun a => ?_, x.ch.perf, x.free, (s.chan c).seq[t], x.ch.mc, x.ch.led, x.ch.proc.pend, { (s.chan c).phys with mem := x.ch.phys.mem },
    (s.chan c).core[coreOf t].tlb, x.ch.proc.granted, ?_⟩
  · have hc : x.c = c := by
      rw [hx]
      rfl
    rw [State.cell, mach_putMach s rfl, withC_self hc]
    refine (peek_of_serves h.serves a).trans ?_
    rw [State.cell, mach_setChan]
    rfl
  · unfold State.ran
    rw [chan_setChan, hx]
    simp [State.putMach, State.setChan, Mach.served, Mach.withWb, Mach.setCore, Mach.core, Mach.setThr, State.mach, Mach.awake]
/-- What entry work on slice b has left, once the entry is counted and its thread changed. -/
theorem entered_of_work {n : Mach} {th th' : Thread} {e : Entry} {shadow : Bool} {wb : List WbEntry} {r : Mach}
    (hm : servesOnly ((s.mach c).setThr t th) n) (hr : servesOnly ((n.supervised t).withWb (coreOf t) wb) r) :
    let z := ((r.setThr t { r.thr t with pstate := (n.thr t).pstate }).entryRecord t e false).countEntry t e shadow
    z.thr t = th ∧ z.ch.proc.attr = (s.chan c).proc.attr ∧ entered s c t th' wb (z.setThr t th') ∧
      ∀ a, (z.setThr t th').seenBy (coreOf t) a = r.seenBy (coreOf t) a := by
  have hthr : r.thr t = { n.thr t with pstate := setBit (n.thr t).pstate 0 true } := by
    rw [hr.1]
    exact thr_setThr n t _
  have hback : ({ r.thr t with pstate := (n.thr t).pstate } : Thread) = th := by
    rw [hthr]
    refine Eq.trans (b := n.thr t) rfl ?_
    rw [hm.1]
    exact thr_setThr (s.mach c) t th
  dsimp only
  rw [hback]
  have hbase : servesOnly (((s.mach c).withWb (coreOf t) wb).setThr t { n.thr t with pstate := setBit (n.thr t).pstate 0 true }) r := by
    have hlift := servesOnly_withWb (servesOnly_setThr hm t { n.thr t with pstate := setBit (n.thr t).pstate 0 true }) (coreOf t) wb
    rw [setThr_setThr] at hlift
    exact servesOnly_trans hlift hr
  have hkept := servesOnly_trans (servesOnly_setThr hbase t th) (entryRecord_serves _ t e false)
  have hcount := servesOnly_trans (servesOnly_awake hkept (coreOf t)) (countEntry_serves _ t e shadow)
  rw [setThr_setThr] at hcount
  refine ⟨?_, ?_, ⟨?_⟩, fun a => ?_⟩
  · rw [hcount.1]
    exact thr_setThr ((s.mach c).withWb (coreOf t) wb) t th
  · rw [hcount.1]
    rfl
  · have hset := servesOnly_setThr hcount t th'
    have hswap (x : Mach) : ((x.setThr t th).awake (coreOf t)).setThr t th' = (x.awake (coreOf t)).setThr t th' := by
      refine Eq.trans (b := ((x.awake (coreOf t)).setThr t th).setThr t th') rfl ?_
      exact setThr_setThr _ t th th'
    rw [hswap] at hset
    exact hset
  · have hseen := seenBy_of_serves (servesOnly_trans (servesOnly_awake (entryRecord_serves (r.setThr t th) t e false) (coreOf t))
      (countEntry_serves _ t e shadow)) (coreOf t) a
    exact hseen
end

end Sys2Proof.Machine
end

section
/-! Event entry, to the shadow bank and to the stack (R266-R271). -/
namespace Sys2Proof.Machine

/-- A synchronous event as the entry of it. -/
def SyncEvent.entry (e : SyncEvent) : Entry :=
  { vector := e.vector.toNat, addr := e.addr, icell := e.icell, ret := e.ret, kind := e.kind, overrun := 0#8 }
/-- Thread t of a running channel has a synchronous event and translation off, the control stores of its core read as made, and the handler's
cell in memory names a CODE with its entry at a. -/
structure entryDue (s : State) (c : Chan) (t : Fin 8) (e : SyncEvent) (a : VAddr) : Prop where
  asMade : ((s.chan c).core[coreOf t]).asMade = true
  agree : ((s.chan c).core[coreOf t]).entryDiff = false
  running : (s.chan c).life.cond = .running
  power : (s.chan c).life.power = .run
  status : (s.thread c t).status = .running
  sync : (s.thread c t).sync = some e
  te : (s.thread c t).te = false
  dcen : (s.chan c).proc.dcen = false
  wb : ((s.chan c).core[coreOf t]).wb = []
  phase : (s.chan c).sw.phase = .idle
  place : (s.chan c).place ((s.mach c).handlerAddr e.vector.toNat) = .memory
  code : cellTag (s.cell c ((s.mach c).handlerAddr e.vector.toNat)) = tCODE
  entry : s.entryAt c t (s.cell c ((s.mach c).handlerAddr e.vector.toNat)) = some a

section
variable {s : State} {c : Chan} {t : Fin 8} {e : SyncEvent} {a : VAddr}

/-- The slice with the event taken. -/
def State.taken (s : State) (c : Chan) (t : Fin 8) : Mach := (s.mach c).setThr t { s.thread c t with sync := none }
theorem selectEvent_sync (h : entryDue s c t e a) : (s.mach c).selectEvent t = some (e.entry, s.taken c t) := by
  have hsync : ((s.mach c).thr t).sync = some e := h.sync
  unfold Mach.selectEvent
  dsimp only
  rw [hsync]
  rfl
theorem canEnter_due (h : entryDue s c t e a) : (s.mach c).canEnter t = true := by
  have hstatus : ((s.mach c).thr t).status = .running := h.status
  unfold Mach.canEnter
  rw [hstatus]
  simp [h.running, h.power]
theorem entryWords_made (h : entryDue s c t e a) (shadow : Bool) : (s.taken c t).entryWords t e.entry shadow = none := by
  have hmade : ((s.taken c t).core (coreOf t)).asMade = true := h.asMade
  have hagree : ((s.taken c t).core (coreOf t)).entryDiff = false := h.agree
  have hword : (s.taken c t).entryWord t e.entry shadow = none := by
    unfold Mach.entryWord
    dsimp only
    rw [hmade, if_pos (by simp)]
  unfold Mach.entryWords
  rw [hagree, hword, if_neg (by simp)]
/-- The handler's cell as the entry reads it, and the slice after. -/
theorem handlerCell_due (h : entryDue s c t e a) :
    ((s.taken c t).handlerCell t e.vector.toNat).1 = s.cell c ((s.mach c).handlerAddr e.vector.toNat) ∧
      servesOnly (s.taken c t) ((s.taken c t).handlerCell t e.vector.toNat).2 := by
  obtain ⟨hcell, hserve⟩ := tableRead_memory (m := s.taken c t) (k := coreOf t) (a := (s.mach c).handlerAddr e.vector.toNat) h.wb h.dcen h.place
  refine ⟨hcell.trans ?_, hserve⟩
  rw [State.cell, peek_memory h.place]
  rfl
/-- Supervisor mode leaves TE as it is. -/
theorem bit_te_supervisor (p : Payload) : bit (setBit p 0 true) 1 = bit p 1 := by
  unfold bit setBit
  rw [if_pos rfl, BitVec.getLsbD_or, show (1#24 <<< 0).getLsbD 1 = false by decide, Bool.or_false]
theorem offOf_due {n : Mach} (h : entryDue s c t e a) (hn : servesOnly (s.taken c t) n) :
    offOf s c (n.supervised t) t := by
  have hthr : n.thr t = { s.thread c t with sync := none } := by
    rw [hn.1]
    exact thr_setThr (s.mach c) t _
  refine ⟨⟨?_, ?_, ?_⟩, h.te, fun x => ?_⟩
  · unfold Mach.supervised
    rw [thr_setThr, hthr]
    exact (bit_te_supervisor _).trans h.te
  · exact (serves_fields hn (coreOf t) 0).2.1.trans h.dcen
  · exact (serves_fields hn (coreOf t) 0).1.trans h.wb
  · exact (peek_of_serves hn x).trans rfl

/-! ### What the thread becomes -/

theorem evinfo_due {z : Mach} {opened : Bool} (hz : z.thr t = { s.thread c t with sync := none }) (hattr : z.ch.proc.attr = (s.chan c).proc.attr) :
    z.evinfo t e.entry opened =
      entryInfo (s.thread c t) e (attrSave ((s.chan c).proc.attrOf e.vector.toNat) && (s.thread c t).shb) opened := by
  unfold Mach.evinfo entryInfo Proc.attrOf
  rw [hz, hattr]
  simp [SyncEvent.entry]
  rfl
theorem holdAfter_due {z : Mach} (hz : z.thr t = { s.thread c t with sync := none }) (hattr : z.ch.proc.attr = (s.chan c).proc.attr) :
    z.opensHold t e.vector.toNat = (decide (attrHold ((s.chan c).proc.attrOf e.vector.toNat) ≠ 0#8) && (s.thread c t).hold.isNone) ∧
    z.holdAfter t e.vector.toNat = if decide (attrHold ((s.chan c).proc.attrOf e.vector.toNat) ≠ 0#8) && (s.thread c t).hold.isNone
      then some (attrHold ((s.chan c).proc.attrOf e.vector.toNat)) else (s.thread c t).hold := by
  unfold Mach.holdAfter Mach.opensHold Proc.attrOf
  rw [hz, hattr]
  exact ⟨rfl, rfl⟩
/-- The registers of a shadow entry (Table 11.8). -/
theorem shadowRegs (th : Thread) (icell addr info : Cell) :
    (((Mach.enterShadow.swapLow th.regs th.bank).set 13 icell).set 14 addr).set 15 info =
      Vector.ofFn (fun r : Fin 32 => if r.val = 13 then icell else if r.val = 14 then addr else if r.val = 15 then info
        else if h : r.val < 16 then th.bank[r.val] else th.reg r) := by
  refine Vector.ext fun r hr => ?_
  simp only [Vector.getElem_set, Vector.getElem_ofFn, Mach.enterShadow.swapLow]
  by_cases h13 : r = 13
  · simp [h13]
  · by_cases h14 : r = 14
    · simp [h14]
    · by_cases h15 : r = 15
      · simp [h15]
      · simp [h13, h14, h15, Ne.symm h13, Ne.symm h14, Ne.symm h15, Thread.reg]
/-- Whether the entry of an event opens a window, and the window after. -/
def Thread.opensWindow (th : Thread) (attr : Payload) : Bool := decide (attrHold attr ≠ 0#8) && th.hold.isNone
def Thread.windowAfter (th : Thread) (attr : Payload) : Option (BitVec 8) := if th.opensWindow attr then some (attrHold attr) else th.hold
/-- A thread that entered its handler at a in the shadow bank (Table 11.8). -/
def Thread.enteredShadow (th : Thread) (e : SyncEvent) (attr : Payload) (a : VAddr) : Thread :=
  { th with
    sync := none, shRet := e.ret, shPst := th.pstate, shFrame := th.frame
    regs := Vector.ofFn (fun r : Fin 32 => if r.val = 13 then e.icell else if r.val = 14 then e.addr
      else if r.val = 15 then entryInfo th e false (th.opensWindow attr) else if h : r.val < 16 then th.bank[r.val] else th.reg r)
    bank := Vector.ofFn (fun r : Fin 16 => th.reg (r.castLE (by decide)))
    frame := none, shlvl := true, pstate := setBit (setBit (setBit th.pstate 0 true) 2 true) 3 true
    hold := th.windowAfter attr, shOpened := th.opensWindow attr, pc := a, inShadow := true }
/-- A thread that entered its handler at a with its frame at f (Table 11.7). -/
def Thread.enteredStack (th : Thread) (f : VAddr) (attr : Payload) (a : VAddr) : Thread :=
  { th with
    sync := none, spS := loc f, frame := some f, shlvl := false, pstate := setBit (setBit th.pstate 0 true) 3 true
    hold := th.windowAfter attr, pc := a, inShadow := true }
/-- What the model makes of the thread at a shadow entry. -/
theorem enteredShadow_due {z : Mach} (hz : z.thr t = { s.thread c t with sync := none }) (hattr : z.ch.proc.attr = (s.chan c).proc.attr)
    (hshb : (s.thread c t).shb = false) :
    ({ z.thr t with
      shRet := e.entry.ret, shPst := (z.thr t).pstate, shFrame := (z.thr t).frame
      regs := (((Mach.enterShadow.swapLow (z.thr t).regs (z.thr t).bank).set 13 e.entry.icell).set 14 e.entry.addr).set 15
        (z.evinfo t e.entry (z.opensHold t e.entry.vector))
      bank := Mach.enterShadow.lowHalf (z.thr t).regs
      frame := none, shlvl := true, pstate := setBit (setBit (setBit (z.thr t).pstate 0 true) 2 true) 3 true
      hold := z.holdAfter t e.entry.vector, shOpened := z.opensHold t e.entry.vector, pc := a, inShadow := true } : Thread) =
      (s.thread c t).enteredShadow e ((s.chan c).proc.attrOf e.vector.toNat) a := by
  obtain ⟨hopens, hhold⟩ := holdAfter_due (e := e) hz hattr
  have hinfo := evinfo_due (e := e) (opened := (s.thread c t).opensWindow ((s.chan c).proc.attrOf e.vector.toNat)) hz hattr
  rw [hshb, Bool.and_false] at hinfo
  have hopen : z.opensHold t e.entry.vector = (s.thread c t).opensWindow ((s.chan c).proc.attrOf e.vector.toNat) := hopens
  have hwindow : z.holdAfter t e.entry.vector = (s.thread c t).windowAfter ((s.chan c).proc.attrOf e.vector.toNat) := hhold
  rw [shadowRegs, hopen, hinfo, hwindow, hz]
  rfl
theorem notPoisoned_due (h : entryDue s c t e a) : ¬ cellTag ((s.taken c t).handlerCell t e.entry.vector).1 = tPSN := by
  have hcell : ((s.taken c t).handlerCell t e.entry.vector).1 = _ := (handlerCell_due h).1
  rw [hcell, h.code]
  decide
/-- The handler's entry as the work of an entry reads it. -/
theorem runI_handlerEntry_due (h : entryDue s c t e a) :
    ∃ st', offReads (((s.taken c t).handlerCell t e.entry.vector).2.supervised t) t st' ∧
      runI (handlerEntry ((s.taken c t).handlerCell t e.entry.vector).1) (((s.taken c t).handlerCell t e.entry.vector).2.entryStart t) = (.ok a, st') := by
  obtain ⟨hcell, hserve⟩ := handlerCell_due h
  have hword : ((s.taken c t).handlerCell t e.entry.vector).1 = s.cell c ((s.mach c).handlerAddr e.vector.toNat) := hcell
  rw [hword]
  exact runI_handlerEntry (offOf_due h hserve) h.code h.entry (offReads_start _ t 0 0)
theorem enterShadow_due (h : entryDue s c t e a) (hshb : (s.thread c t).shb = false) :
    entered s c t ((s.thread c t).enteredShadow e ((s.chan c).proc.attrOf e.vector.toNat) a) [] ((s.taken c t).enterShadow t e.entry) := by
  have hserve := (handlerCell_due h).2
  obtain ⟨st1, h1, hentry⟩ := runI_handlerEntry_due h
  have hwork : runI (do
      let a ← handlerEntry ((s.taken c t).handlerCell t e.entry.vector).1
      asPush commit
      return a) (((s.taken c t).handlerCell t e.entry.vector).2.entryStart t) = (.ok a, st1) := by
    rw [runI_bind_ok hentry]
    exact runI_bind_ok (runI_asStep (runI_commit_off h1))
  have hr : servesOnly ((((s.taken c t).handlerCell t e.vector.toNat).2.supervised t).withWb (coreOf t) []) st1.m := by
    rw [withWb_self (offOf_due h hserve).slice.wb]
    exact h1.slice
  obtain ⟨hthr, hattr, hent, -⟩ := entered_of_work (th' := (s.thread c t).enteredShadow e ((s.chan c).proc.attrOf e.vector.toNat) a)
    (e := e.entry) (shadow := true) hserve hr
  unfold Mach.enterShadow
  rw [entryWords_made h]
  dsimp only
  rw [if_neg (notPoisoned_due h), asSupervisor_ok (runI_retrying_ok 4 _ _ _ _ hwork)]
  refine (congrArg (entered s c t _ []) (congrArg (Mach.setThr _ t) ?_)).mpr hent
  exact enteredShadow_due hthr hattr hshb

/-! ### The frame of a stack entry -/

/-- The lower 24 cells of the frame (Table 11.5). -/
def eventFrame (th : Thread) (e : SyncEvent) (attr : Payload) : List Cell :=
  [reta e.ret, fix th.pstate, entryInfo th e (attrSave attr && th.shb) (th.opensWindow attr), e.addr, e.icell,
    (match th.frame with | some x => loc x | none => cNIL), fix0, fix0] ++ th.regs.toList.take 16
theorem eventFrame_length (th : Thread) (e : SyncEvent) (attr : Payload) : (eventFrame th e attr).length = 24 := by
  simp [eventFrame]
theorem frameCells_due (s : State) (c : Chan) (t : Fin 8) (e : SyncEvent) :
    (s.taken c t).frameCells t e.entry = eventFrame (s.thread c t) e ((s.chan c).proc.attrOf e.vector.toNat) := by
  have hthr : (s.taken c t).thr t = { s.thread c t with sync := none } := thr_setThr (s.mach c) t _
  obtain ⟨hopens, -⟩ := holdAfter_due (e := e) hthr rfl
  have hopen : (s.taken c t).opensHold t e.entry.vector = (s.thread c t).opensWindow ((s.chan c).proc.attrOf e.vector.toNat) := hopens
  unfold Mach.frameCells
  dsimp only
  rw [hopen, evinfo_due hthr rfl, hthr]
  rfl
theorem enteredStack_due {z : Mach} {f : VAddr} (hz : z.thr t = { s.thread c t with sync := none }) (hattr : z.ch.proc.attr = (s.chan c).proc.attr) :
    z.setThr t { z.thr t with
      spS := loc f, frame := some f, shlvl := false, pstate := setBit (setBit (z.thr t).pstate 0 true) 3 true
      hold := z.holdAfter t e.entry.vector, pc := a, inShadow := true } =
      z.setThr t ((s.thread c t).enteredStack f ((s.chan c).proc.attrOf e.vector.toNat) a) := by
  obtain ⟨-, hhold⟩ := holdAfter_due (e := e) hz hattr
  have hwindow : z.holdAfter t e.entry.vector = (s.thread c t).windowAfter ((s.chan c).proc.attrOf e.vector.toNat) := hhold
  rw [hwindow, hz]
  rfl
/-- The translations of an entry's 48 cells with translation off, and the pushes of its lower 24. -/
theorem enterStack_due (h : entryDue s c t e a) (hloc : cellTag (s.thread c t).spS = tLOC) (hroom : 48#24 ≤ cellPay (s.thread c t).spS) :
    ∃ wb, entered s c t ((s.thread c t).enteredStack (cellPay (s.thread c t).spS - 48#24) ((s.chan c).proc.attrOf e.vector.toNat) a) wb
        ((s.taken c t).enterStack t e.entry) ∧
      ∀ x, ((s.taken c t).enterStack t e.entry).seenBy (coreOf t) x = writtenRange (cellPay (s.thread c t).spS - 48#24).toNat
        (eventFrame (s.thread c t) e ((s.chan c).proc.attrOf e.vector.toNat)) (fun y => s.cell c y) x := by
  have hserve := (handlerCell_due h).2
  have hoff := offOf_due h hserve
  have hthr : (s.taken c t).thr t = { s.thread c t with sync := none } := thr_setThr (s.mach c) t _
  have hphase : (((s.taken c t).handlerCell t e.entry.vector).2.supervised t).ch.sw.phase = .idle := by
    have hsw : ((s.taken c t).handlerCell t e.entry.vector).2.ch.sw = (s.chan c).sw := congrArg (fun m => m.ch.sw) hserve.1
    exact (congrArg (fun w => w.phase) hsw).trans h.phase
  have hspS : ((s.taken c t).thr t).spS = (s.thread c t).spS := by rw [hthr]
  obtain ⟨st1, h1, hentry⟩ := runI_handlerEntry_due h
  generalize hf : cellPay (s.thread c t).spS - 48#24 = f
  generalize hframe : eventFrame (s.thread c t) e ((s.chan c).proc.attrOf e.vector.toNat) = frame
  have hlen : frame.length = 24 := by rw [← hframe, eventFrame_length]
  have hend : f.toNat + frame.length < 0x1000000 := by
    rw [hlen, ← hf]
    bv_omega
  obtain ⟨st2, h2, hx⟩ := runI_xlateCells_off hoff.slice ((upFrom 0 48).map (fun i => (f + BitVec.ofNat 24 i, fix0))) h1
  obtain ⟨st3, h3, hpush⟩ := runI_pushCells_off (va := f) (vs := frame) hoff.slice hphase h2 hend (by omega)
  have hwork : runI (do
      let a ← handlerEntry ((s.taken c t).handlerCell t e.entry.vector).1
      let _ ← asPush (xlateCells ((upFrom 0 48).map (fun i => (f + BitVec.ofNat 24 i, fix0))))
      asPush (pushCells f frame)
      return a) (((s.taken c t).handlerCell t e.entry.vector).2.entryStart t) = (.ok a, st3) := by
    rw [runI_bind_ok hentry]
    refine (runI_bind_ok (runI_asStep hx)).trans ?_
    exact runI_bind_ok (runI_asStep hpush)
  obtain ⟨wb, hr⟩ := h3.slice
  obtain ⟨hzthr, hattr, hent, hseen⟩ := entered_of_work (th' := (s.thread c t).enteredStack f ((s.chan c).proc.attrOf e.vector.toNat) a)
    (e := e.entry) (shadow := false) hserve hr
  refine ⟨wb, ?_⟩
  unfold Mach.enterStack
  rw [entryWords_made h]
  dsimp only
  rw [if_neg (fun hno => hno (by rw [hspS, hloc])), if_neg (notPoisoned_due h), hspS, hf, frameCells_due, hframe,
    asSupervisor_ok (runI_retrying_ok 4 _ _ _ _ hwork)]
  have hthread := enteredStack_due (e := e) (a := a) (f := f) hzthr hattr
  refine ⟨(congrArg (entered s c t _ wb) hthread).mpr hent, fun x => ?_⟩
  refine (congrArg (fun m : Mach => m.seenBy (coreOf t) x) hthread).trans ((hseen x).trans ?_)
  rw [h3.seen]
  exact congrArg (fun g => writtenRange f.toNat frame g x) (funext hoff.cell)
/-- Settles O39: entry to the shadow bank, and to the stack with its frame. -/
theorem eventEntries : Obligations.EventEntries := by
  intro s c t e a
  dsimp only
  intro hmade hagree hrunning hpower hstatus hsync hte hdcen hwb hphase hplace hcode hentry
  have h : entryDue s c t e a := ⟨hmade, hagree, hrunning, hpower, hstatus, hsync, hte, hdcen, hwb, hphase, hplace, hcode, hentry⟩
  have huse : (s.mach c).usesShadow t e.vector.toNat = (attrSave ((s.chan c).proc.attrOf e.vector.toNat) && !(s.thread c t).shb) := rfl
  constructor
  · intro hshadow
    obtain ⟨hsave, hshb⟩ := hshadow
    have hrun : (s.mach c).eventEntryShadow t = (s.taken c t).enterShadow t e.entry := by
      unfold Mach.eventEntryShadow
      rw [canEnter_due h, if_neg (by decide), selectEvent_sync h]
      exact if_pos (huse.trans (by rw [hsave, hshb]; rfl))
    refine ⟨_, congrArg (fun m : Mach => Host.Outcome.next (s.putMach { m with c := c })) hrun, onlyAccess_of_entered (enterShadow_due h hshb)⟩
  · intro hshadow hloc hroom
    obtain ⟨wb, hent, hseen⟩ := enterStack_due h hloc hroom
    have huses : (s.mach c).usesShadow t e.vector.toNat = false := by
      rw [huse]
      cases hsave : attrSave ((s.chan c).proc.attrOf e.vector.toNat)
      · rfl
      · have hkept : ¬ (s.thread c t).shb = false := fun hshb => hshadow ⟨hsave, hshb⟩
        simp [eq_true_of_ne_false hkept]
    have hrun : (s.mach c).eventEntryStack t = (s.taken c t).enterStack t e.entry := by
      unfold Mach.eventEntryStack
      rw [canEnter_due h, if_neg (by decide), selectEvent_sync h]
      exact if_neg (by rw [show e.entry.vector = e.vector.toNat from rfl, huses]; decide)
    have hread (x : Nat) : (s.putMach { (s.taken c t).enterStack t e.entry with c := c }).seen c t x =
        writtenRange (cellPay (s.thread c t).spS - 48#24).toNat
          (eventFrame (s.thread c t) e ((s.chan c).proc.attrOf e.vector.toNat)) (fun y => s.cell c y) x := by
      have hc : ((s.taken c t).enterStack t e.entry).c = c := congrArg Mach.c hent.serves.1
      rw [seen_eq, mach_putMach s rfl, withC_self hc]
      exact hseen x
    refine ⟨_, wb, congrArg (fun m : Mach => Host.Outcome.next (s.putMach { m with c := c })) hrun, onlyAccess_of_entered hent, ?_, ?_⟩
    · intro i hi
      rw [hread]
      unfold writtenRange
      rw [if_pos (Nat.le_add_right _ _), Nat.add_sub_cancel_left]
      exact congrArg (fun o : Option Cell => o.getD _) (List.getElem?_eq_getElem hi)
    · intro x hx
      have hempty : s.seen c t x = s.cell c x := by
        rw [seen_eq]
        unfold Mach.seenBy
        rw [show ((s.mach c).core (coreOf t)).wb = [] from hwb]
        rfl
      rw [hread, hempty]
      unfold writtenRange
      split
      · next hle =>
        have hout : (eventFrame (s.thread c t) e ((s.chan c).proc.attrOf e.vector.toNat)).length ≤ x - (cellPay (s.thread c t).spS - 48#24).toNat := by
          rcases hx with hlow | hhigh
          · omega
          · exact Nat.le_sub_of_add_le' hhigh
        rw [List.getElem?_eq_none hout]
        rfl
      · rfl
end

end Sys2Proof.Machine
end

section
/-! The ledger's staging queue, writer and scan (04). -/
namespace Sys2Proof.Machine

/-! ### Raised signals and counts leave the rest of a channel -/

section
variable (m : Mach) (b : Bool) (v : Nat) (a : Cell)
@[simp] theorem raiseIf_led : (m.raiseIf b v a).ch.led = m.ch.led := by rw [raiseIf_eq]
@[simp] theorem raiseIf_thr : (m.raiseIf b v a).ch.thr = m.ch.thr := by rw [raiseIf_eq]
@[simp] theorem raiseIf_life : (m.raiseIf b v a).ch.life = m.ch.life := by rw [raiseIf_eq]
@[simp] theorem raiseIf_boot : (m.raiseIf b v a).ch.boot = m.ch.boot := by rw [raiseIf_eq]
@[simp] theorem raiseIf_pair : (m.raiseIf b v a).ch.pair = m.ch.pair := by rw [raiseIf_eq]
@[simp] theorem raiseIf_clk : (m.raiseIf b v a).ch.clk = m.ch.clk := by rw [raiseIf_eq]
@[simp] theorem raiseIf_win : (m.raiseIf b v a).ch.win = m.ch.win := by rw [raiseIf_eq]
@[simp] theorem raiseIf_straps : (m.raiseIf b v a).ch.straps = m.ch.straps := by rw [raiseIf_eq]
@[simp] theorem raiseIf_sq : (m.raiseIf b v a).sq = m.sq := by rw [raiseIf_eq]
@[simp] theorem bumpIf_led (k : Nat) : (m.bumpIf b k).ch.led = m.ch.led := by cases b <;> rfl
@[simp] theorem bumpIf_thr (k : Nat) : (m.bumpIf b k).ch.thr = m.ch.thr := by cases b <;> rfl
end

section
variable {s : State} {c : Chan}

/-! ### Arrivals -/

/-- The partition an owner number of a channel names. -/
@[simp] theorem ownerChan_castSucc (c : Chan) : ownerChan c.castSucc = some c := by
  unfold ownerChan
  rw [dif_pos (by simp)]
  rfl
theorem stagingQueueArrival_exec {cls : BitVec 6} {spec flag : Bool} {detail : BitVec 32} (hcond : (s.chan c).life.cond ≠ .inReset)
    (hlo : 1#6 ≤ cls) (hhi : cls ≤ 0x11#6) :
    exec (.stagingQueueArrival c.castSucc cls spec flag detail) s = .next (s.onMach c (fun m => m.report cls spec flag detail)) := by
  have hkind : ¬ (cls = 0#6 ∨ 0x11#6 < cls) := by bv_omega
  have hout : ¬ (s.mach c).ch.life.cond = .inReset := hcond
  refine congrArg Host.Outcome.next ((if_neg (by simpa using hkind)).trans ?_)
  rw [ownerChan_castSucc]
  exact congrArg (fun m : Mach => s.putMach { m with c := c }) (if_neg hout)
/-- A record that finds no room is lost and counted (R88). -/
theorem arrive_full {l : Ledger} (hfull : 16 ≤ l.staging.length) (cls : BitVec 6) (spec flag : Bool) (detail : BitVec 32) :
    l.arrive cls spec flag detail =
      { l with lost := mapPut l.lost cls.toNat (satInc (mapAt 0#8 l.lost cls.toNat)), lostTotal := satInc l.lostTotal, lossMarked := true } :=
  if_neg (by omega)
@[simp] theorem report_led (m : Mach) (cls : BitVec 6) (spec flag : Bool) (detail : BitVec 32) :
    (m.report cls spec flag detail).ch.led = m.ch.led.arrive cls spec flag detail := by
  unfold Mach.report
  simp

/-! ### The writer -/

@[simp] theorem arrive_words (l : Ledger) (cls : BitVec 6) (spec flag : Bool) (detail : BitVec 32) : (l.arrive cls spec flag detail).words = l.words := by
  unfold Ledger.arrive
  split <;> rfl
@[simp] theorem arrive_newest (l : Ledger) (cls : BitVec 6) (spec flag : Bool) (detail : BitVec 32) : (l.arrive cls spec flag detail).newest = l.newest := by
  unfold Ledger.arrive
  split <;> rfl
@[simp] theorem arrive_job (l : Ledger) (cls : BitVec 6) (spec flag : Bool) (detail : BitVec 32) : (l.arrive cls spec flag detail).job = l.job := by
  unfold Ledger.arrive
  split <;> rfl
@[simp] theorem arrive_worn (l : Ledger) (cls : BitVec 6) (spec flag : Bool) (detail : BitVec 32) : (l.arrive cls spec flag detail).worn = l.worn := by
  unfold Ledger.arrive
  split <;> rfl
@[simp] theorem arrive_scan (l : Ledger) (cls : BitVec 6) (spec flag : Bool) (detail : BitVec 32) : (l.arrive cls spec flag detail).scan = l.scan := by
  unfold Ledger.arrive
  split <;> rfl
@[simp] theorem arrive_seq (l : Ledger) (cls : BitVec 6) (spec flag : Bool) (detail : BitVec 32) : (l.arrive cls spec flag detail).seq = l.seq := by
  unfold Ledger.arrive
  split <;> rfl
/-- One word of the writer of a channel: its partition, and what else changes is none of the threads. -/
theorem ledgerWordWrite_writes (hcond : (s.chan c).life.cond ≠ .inReset) (hoff : (s.chan c).life.offCause ≠ some .request) (firstOk secondOk : Bool) :
    ∃ (s' : State) (g : BitVec 32), exec (.ledgerWordWrite c.castSucc firstOk secondOk) s = .next s' ∧ sameElsewhere s s' c ∧
      (s'.chan c).thr = (s.chan c).thr ∧ (s'.chan c).led = ((s.chan c).led.wordWrite false (s.mach c).itemBody firstOk secondOk g).1 := by
  have hwriter : (s.mach c).hasWriter = true := by
    unfold Mach.hasWriter
    rw [mach_ch]
    simp [hcond, hoff]
  by_cases hok : (firstOk || secondOk) = true
  · refine ⟨_, BitVec.ofNat 32 0, rfl, ?_, ?_, ?_⟩ <;> rw [ownerChan_castSucc]
    · exact onMach_elsewhere s c _
    · rw [chan_onMach, if_pos hwriter, if_pos hok]
      simp
    · rw [chan_onMach, if_pos hwriter, if_pos hok]
      simp
  · refine ⟨_, BitVec.ofNat 32 ((s.mach c).draw (2 ^ 32)).1, rfl, ?_, ?_, ?_⟩ <;> rw [ownerChan_castSucc]
    · exact onMach_elsewhere s c _
    · rw [chan_onMach, if_pos hwriter, if_neg hok]
      simp
      rfl
    · rw [chan_onMach, if_pos hwriter, if_neg hok]
      simp
      rfl
/-- A partition whose writer may go on, with nothing interrupted. -/
structure openLedger (l : Ledger) : Prop where
  scan : l.scan = false
  stopped : l.stopped = false
  suspended : l.suspended = none
  lock : l.lockReq = none
/-- A record under way goes on. -/
theorem wordWrite_under {l : Ledger} {j : LJob} (h : openLedger l) (hjob : l.job = some j) (sq : Bool) (body : Item → List (BitVec 32))
    (firstOk secondOk : Bool) (g : BitVec 32) : (l.wordWrite sq body firstOk secondOk g).1 = (l.writeWord firstOk secondOk g).1 := by
  have hwrites : l.writes = true := by
    unfold Ledger.writes
    simp [h.scan, h.stopped, hjob]
  have hstart : l.start sq body = (l, false) := by
    unfold Ledger.start
    rw [h.lock]
    dsimp only
    rw [hjob]
  unfold Ledger.wordWrite
  rw [if_pos hwrites, hstart]
/-- A word that reads back at once or on being rewritten. -/
theorem writeWord_good {l : Ledger} {o : Nat} {w : BitVec 32} {rest : List (Nat × BitVec 32)} {seq : Option (BitVec 24)}
    (hjob : l.job = some { kind := .entry, todo := (o, w) :: rest, seq := seq }) (firstOk : Bool) (g : BitVec 32) :
    (l.writeWord firstOk true g).1.words = mapSet 0#32 l.words o w ∧
    (l.writeWord firstOk true g).1.job = (if rest = [] then none else some { kind := .entry, todo := rest, seq := seq }) ∧
    (rest = [] → (l.writeWord firstOk true g).1.newest = seq.getD l.newest) := by
  unfold Ledger.writeWord
  rw [hjob]
  dsimp only
  rw [Bool.or_true, if_pos rfl]
  cases rest with
  | nil => cases firstOk <;> simp [Ledger.commitJob, Ledger.enter, Ledger.putWord]
  | cons x r => cases firstOk <;> simp [Ledger.enter, Ledger.putWord]
/-- A word that fails its read-back twice: its record is given up. -/
theorem writeWord_bad {l : Ledger} {o : Nat} {w : BitVec 32} {rest : List (Nat × BitVec 32)} {seq : Option (BitVec 24)}
    (hjob : l.job = some { kind := .entry, todo := (o, w) :: rest, seq := seq }) (g : BitVec 32) :
    ∃ x, x ≠ w ∧ (l.writeWord false false g).1.words = mapSet 0#32 l.words o x ∧ (l.writeWord false false g).1.job = none ∧
      (l.writeWord false false g).1.newest = l.newest ∧ o ∈ (l.writeWord false false g).1.worn := by
  refine ⟨if g = w then ~~~w else g, ?_, ?_⟩
  · split
    · exact fun heq => by bv_omega
    · assumption
  · unfold Ledger.writeWord
    rw [hjob]
    simp [Ledger.enter, Ledger.putWord]
/-- With nothing under way the oldest entry of the queue is started. -/
theorem start_entry {l : Ledger} (h : openLedger l) (hjob : l.job = none) (hitems : l.items = []) {cls : BitVec 6} {spec flag : Bool} {lost : BitVec 8}
    {time : BitVec 24} {detail : BitVec 32} {rest : List Staged} (hstaging : l.staging = .error cls spec flag lost time detail :: rest)
    (sq : Bool) (body : Item → List (BitVec 32)) :
    (l.start sq body).1 = (({ l with resetDue := false }).unstage rest false).1.startEntry sq (.error cls spec flag lost time detail) := by
  unfold Ledger.start
  rw [h.lock]
  dsimp only
  rw [hjob]
  dsimp only
  rw [h.suspended]
  dsimp only
  rw [hitems, hstaging]
  rfl
theorem nextErr_congr {l l' : Ledger} (hwords : l'.words = l.words) (hflaws : l'.flaws = l.flaws) (hworn : l'.worn = l.worn) (sq : Bool) :
    l'.nextErr sq = l.nextErr sq := by
  have hvalid : l'.errValid = l.errValid := by
    funext n
    unfold Ledger.errValid Ledger.validAt Ledger.unreadable Ledger.wordsAt Ledger.word
    rw [hwords, hflaws, hworn]
  have hseq : l'.errSeq = l.errSeq := by
    funext n
    unfold Ledger.errSeq Ledger.word
    rw [hwords]
  have hnewest (k : Nat) : ∀ n, l'.newestErr n k = l.newestErr n k := by
    induction k with
    | zero => exact fun _ => rfl
    | succ k ih =>
      intro n
      unfold Ledger.newestErr
      rw [ih, hvalid, hseq]
  unfold Ledger.nextErr
  dsimp only
  rw [hvalid, hnewest]
/-- An entry taken out of the queue: the waiting words take its room, and the stored words stay. -/
theorem unstage_keeps (l : Ledger) (rest : List Staged) (user : Bool) :
    (l.unstage rest user).1.words = l.words ∧ (l.unstage rest user).1.flaws = l.flaws ∧ (l.unstage rest user).1.worn = l.worn ∧
    (l.unstage rest user).1.seq = l.seq ∧
    (l.unstage rest user).1.staging = rest ++ (l.due.take (16 - rest.length)).map (fun w => .user w.1 w.2 false) := by
  unfold Ledger.unstage Ledger.takeDue
  dsimp only
  split <;> exact ⟨rfl, rfl, rfl, rfl, rfl⟩
/-- Word 0 of an error record. -/
theorem word0_flags (cls : BitVec 6) (spec flag : Bool) (q : BitVec 24) :
    word0 cls (BitVec.ofBool spec ++ BitVec.ofBool flag) q = (cls ++ BitVec.ofBool spec ++ BitVec.ofBool flag ++ q : BitVec 32) := by
  have hflags := BitVec.append_assoc (x₁ := cls) (x₂ := BitVec.ofBool spec) (x₃ := BitVec.ofBool flag)
  rw [hflags]
  rfl
/-- The first word of an error record. -/
theorem wordWrite_starts {l : Ledger} (h : openLedger l) (hjob : l.job = none) (hitems : l.items = []) {cls : BitVec 6} {spec flag : Bool} {lost : BitVec 8}
    {time : BitVec 24} {detail : BitVec 32} {rest : List Staged} (hstaging : l.staging = .error cls spec flag lost time detail :: rest)
    (body : Item → List (BitVec 32)) (g : BitVec 32) :
    let o := 0x400 + 4 * l.nextErr false
    let w0 : BitVec 32 := cls ++ BitVec.ofBool spec ++ BitVec.ofBool flag ++ l.seq
    let w1 : BitVec 32 := lost ++ time
    let x := (l.wordWrite false body true true g).1
    x.words = mapSet 0#32 l.words o w0 ∧ x.seq = l.seq + 1#24 ∧
      x.staging = rest ++ (l.due.take (16 - rest.length)).map (fun w => .user w.1 w.2 false) ∧
      x.job = some { kind := .entry, seq := some l.seq, todo := [(o + 1, w1), (o + 2, detail), (o + 3, crcWords [w0, w1, detail])] } := by
  have hwrites : l.writes = true := by
    unfold Ledger.writes
    simp [h.scan, h.stopped, hstaging, Staged.unheld]
  obtain ⟨hwords, hflaws, hworn, hseq, hqueue⟩ := unstage_keeps { l with resetDue := false } rest false
  have hslot := nextErr_congr (l := l) hwords hflaws hworn false
  dsimp only
  unfold Ledger.wordWrite
  rw [if_pos hwrites]
  dsimp only
  rw [start_entry h hjob hitems hstaging]
  generalize hun : (({ l with resetDue := false } : Ledger).unstage rest false).1 = y at hwords hseq hqueue hslot ⊢
  unfold Ledger.startEntry Ledger.startSeq
  dsimp only
  rw [hslot, hseq, word0_flags]
  refine ⟨congrArg (fun m => mapSet 0#32 m _ _) hwords, rfl, hqueue, rfl⟩

/-! ### Boot mark and scan -/

theorem scanFlaws_keeps (sq : Bool) : ∀ (fs : List (Nat × Bool)) (l : Ledger), (l.scanFlaws sq fs).1.words = l.words ∧
    (l.scanFlaws sq fs).1.scan = l.scan ∧ (l.scanFlaws sq fs).1.seq = l.seq
  | [], l => ⟨rfl, rfl, rfl⟩
  | (o, bad) :: r, l => by
    unfold Ledger.scanFlaws
    split
    · exact scanFlaws_keeps sq r l
    · split
      · have h := scanFlaws_keeps sq r (l.arrive 0x0F#6 false false (0x2#4 ++ BitVec.ofNat 28 o : BitVec 32))
        simpa using h
      · exact scanFlaws_keeps sq r { l with corr := satInc l.corr }
theorem scanEnd_ends (l : Ledger) (sq : Bool) : (l.scanEnd sq).1.words = l.words ∧ (l.scanEnd sq).1.scan = false ∧
    (l.scanEnd sq).1.seq = (match l.scanNewest sq with | some n => l.errSeq n + 1#24 | none => 1#24) := by
  unfold Ledger.scanEnd
  exact scanFlaws_keeps sq l.flaws _
theorem request_keeps (l : Ledger) (i : Item) : (l.request i).words = l.words ∧ (l.request i).scan = l.scan ∧ (l.request i).seq = l.seq := by
  unfold Ledger.request
  split <;> exact ⟨rfl, rfl, rfl⟩
theorem mem_request (l : Ledger) (i : Item) : i ∈ (l.request i).items := by
  unfold Ledger.request
  split
  · next h => simpa using h
  · simp
theorem mem_request_of_mem {l : Ledger} {i : Item} (h : i ∈ l.items) (j : Item) : i ∈ (l.request j).items := by
  unfold Ledger.request
  split
  · exact h
  · simp [h]
theorem ledgerScan_ends (hscan : (s.chan c).led.scan = true) (hsnap : (s.chan c).led.snapRead = true) :
    ∃ s', exec (.ledgerScan c.castSucc) s = .next s' ∧ sameElsewhere s s' c ∧ (s'.chan c).led.scan = false ∧ (s'.chan c).led.words = (s.chan c).led.words ∧
      (s'.chan c).led.seq = (match (s.chan c).led.scanNewest false with | some n => (s.chan c).led.errSeq n + 1#24 | none => 1#24) := by
  obtain ⟨hwords, hend, hseq⟩ := scanEnd_ends (s.chan c).led false
  refine ⟨_, rfl, ?_⟩
  rw [ownerChan_castSucc]
  refine ⟨onMach_elsewhere s c _, ?_⟩
  rw [chan_onMach, mach_ch, if_pos (by simp [hscan, hsnap])]
  unfold Mach.scanEnd Mach.count
  dsimp only
  split
  · simp [hwords, hend, hseq, request_keeps]
  · simp [hwords, hend, hseq]
theorem sendMirror_keeps (m : Mach) (r : MirrorRec) :
    (m.sendMirror r).ch.boot = m.ch.boot ∧ (m.sendMirror r).ch.led = m.ch.led ∧ (m.sendMirror r).sq = m.sq := by
  unfold Mach.sendMirror
  split <;> exact ⟨rfl, rfl, rfl⟩
theorem report_keeps (m : Mach) (cls : BitVec 6) (spec flag : Bool) (detail : BitVec 32) :
    (m.report cls spec flag detail).ch.boot = m.ch.boot ∧ (m.report cls spec flag detail).ch.led.items = m.ch.led.items ∧
      (m.report cls spec flag detail).sq = m.sq := by
  unfold Mach.report Ledger.arrive
  rw [raiseIf_eq]
  refine ⟨?_, ?_, ?_⟩
  · cases !decide (m.ch.led.staging.length < 16) <;> rfl
  · dsimp only
    rw [bumpIf_led]
    split <;> rfl
  · cases !decide (m.ch.led.staging.length < 16) <;> rfl
/-- A program's access as work on the slice of its channel. -/
theorem program_onMach (f : Mach → Mach) (h : s.awake c) : s.program c f = s.onMach c f := program_awake f h
/-- The mark in the channel, with the requests it makes there. -/
def Mach.markedGood (m : Mach) : Mach := (({ m with ch := { m.ch with boot := m.ch.boot.mark } } : Mach).request .boot).request .snapshot
/-- The square's snapshot asked for the first time. -/
def Mach.askSquare (m : Mach) : Mach := if m.sq.snapAsked then m
  else { m with sq := { m.sq with snapAsked := true, led := if m.sq.failed then m.sq.led else m.sq.led.request .snapshot } }
def Mach.bootMirrored (m : Mach) : Mach := if m.ch.pair.role = .active then m.sendMirror .boot else m
theorem bootgood_parts {m : Mach} (hgood : m.ch.boot.good = false) :
    m.bootgood = (m.markedGood.askSquare.report 0x0C#6 false false (bootDetail m.markedGood.askSquare.ch.boot.slot 1#3 0)).bootMirrored :=
  if_neg (by simp [hgood])
theorem askSquare_asks (m : Mach) : m.askSquare.ch = m.ch ∧ m.askSquare.sq.snapAsked = true := by
  unfold Mach.askSquare
  split
  · next h => exact ⟨rfl, h⟩
  · exact ⟨rfl, rfl⟩
theorem bootMirrored_keeps (m : Mach) : m.bootMirrored.ch.boot = m.ch.boot ∧ m.bootMirrored.ch.led = m.ch.led ∧ m.bootMirrored.sq = m.sq := by
  unfold Mach.bootMirrored
  split
  · exact sendMirror_keeps m .boot
  · exact ⟨rfl, rfl, rfl⟩
theorem bootgood_marks (h : s.awake c) (hgood : (s.chan c).boot.good = false) :
    ∃ s', exec (.bootgood c) s = .next s' ∧ (s'.chan c).boot.good = true ∧ (s'.chan c).boot.goodSlot = some (s.chan c).boot.slot ∧
      (if (s.chan c).boot.slot = 0 then (s'.chan c).boot.att0 = 0#4 else (s'.chan c).boot.att1 = 0#4) ∧
      Item.boot ∈ (s'.chan c).led.items ∧ Item.snapshot ∈ (s'.chan c).led.items ∧ s'.square.snapAsked = true := by
  refine ⟨_, congrArg Host.Outcome.next (program_onMach Mach.bootgood h), ?_⟩
  have hgood' : (s.mach c).ch.boot.good = false := hgood
  obtain ⟨hboot, hled, hsq⟩ := bootMirrored_keeps
    ((s.mach c).markedGood.askSquare.report 0x0C#6 false false (bootDetail (s.mach c).markedGood.askSquare.ch.boot.slot 1#3 0))
  obtain ⟨hrboot, hritems, hrsq⟩ := report_keeps (s.mach c).markedGood.askSquare 0x0C#6 false false
    (bootDetail (s.mach c).markedGood.askSquare.ch.boot.slot 1#3 0)
  obtain ⟨hask, hasked⟩ := askSquare_asks (s.mach c).markedGood
  rw [chan_onMach, bootgood_parts hgood', hboot, hled, hrboot, hritems, hask]
  refine ⟨rfl, rfl, ?_, mem_request_of_mem (mem_request _ _) _, mem_request _ _, ?_⟩
  · show (if (s.chan c).boot.slot = 0 then (s.chan c).boot.mark.att0 = 0#4 else (s.chan c).boot.mark.att1 = 0#4)
    unfold Boot.mark
    split
    · simp
    · next h => simp [Fin.eq_one_of_ne_zero _ h]
  · have hsquare : ((s.mach c).bootgood).sq.snapAsked = true := by rw [bootgood_parts hgood', hsq, hrsq, hasked]
    exact hsquare
/-- Settles O48, clause by clause. -/
theorem ledgerWriter : Obligations.LedgerWriter := by
  intro s c
  dsimp only
  refine ⟨fun cls spec flag detail hcond hlo hhi hcls => ⟨fun hroom => ?_, fun hfull => ?_⟩, fun hcond hoff hopen => ?_, fun hawake => ?_,
    fun hscan hsnap => ?_⟩
  · refine (stagingQueueArrival_exec hcond hlo hhi).trans (congrArg Host.Outcome.next ?_)
    have hrun := report_recorded (m := s.mach c) (detail := detail) spec flag hroom hcls
    exact onMach_channel s c (fun m => m.report cls spec flag detail) ((s.chan c).recorded cls spec flag detail) hrun
  · refine ⟨_, stagingQueueArrival_exec hcond hlo hhi, onMach_elsewhere s c _, ?_⟩
    rw [chan_onMach, report_led, mach_ch, arrive_full hfull]
    exact ⟨rfl, rfl, rfl⟩
  · obtain ⟨hscan, hstopped, hsuspended, hlock⟩ := hopen
    have hgoes : openLedger (s.chan c).led := ⟨hscan, hstopped, hsuspended, hlock⟩
    refine ⟨?_, ?_, ?_⟩
    · intro cls spec flag lost time detail rest hjob hitems hstaging
      obtain ⟨s', g, hex, helse, hthr, hled⟩ := ledgerWordWrite_writes hcond hoff true true
      refine ⟨s', hex, helse, hthr, ?_⟩
      rw [hled]
      exact wordWrite_starts hgoes hjob hitems hstaging _ g
    · intro o w rest seq firstOk hjob
      obtain ⟨s', g, hex, -, -, hled⟩ := ledgerWordWrite_writes hcond hoff firstOk true
      refine ⟨s', hex, ?_⟩
      rw [hled, wordWrite_under hgoes hjob]
      exact writeWord_good hjob firstOk g
    · intro o w rest seq hjob
      obtain ⟨s', g, hex, -, -, hled⟩ := ledgerWordWrite_writes hcond hoff false false
      obtain ⟨x, hx, hword⟩ := writeWord_bad hjob g
      refine ⟨s', x, hex, hx, ?_⟩
      rw [hled, wordWrite_under hgoes hjob]
      exact hword
  · refine ⟨bootgood_marks hawake, fun hgood => ?_, fun hroom => ?_⟩
    · refine congrArg Host.Outcome.next ((program_onMach _ hawake).trans (onMach_id s c _ ?_))
      exact if_pos hgood
    · exact congrArg Host.Outcome.next (program_channel hawake (if_pos hroom))
  · obtain ⟨s', hex, helse, hend, hwords, hseq⟩ := ledgerScan_ends hscan hsnap
    refine ⟨s', hex, helse, hend, hwords, hseq.trans ?_⟩
    cases (s.chan c).led.scanNewest false <;> rfl
end

end Sys2Proof.Machine
end

section
/-! The memory controller's scheduler on a table of banks out of order (R370). -/
namespace Sys2Proof.Machine

/-- A read of line 0 that waits. -/
def waitingRead : PoolReq :=
  { line := 0, src := .turnstile, kind := .read, hint := 0#2, age := 0, spec := false, stage := .waiting, left := 0, errs := [], prior := [] }
/-- A trained channel in RUN whose table of banks names bank 0 twice, first closed, then with row 5 open: the first entry, being a bank's reset
value, leaves the table at the next controller clock. -/
def twiceListedState : State :=
  let ch := State.reset.chan 0
  let bank5 : Bank := { bankReset with row := some 5#16, toPre := 10 }
  State.reset.setChan 0 { ch with
    life := { ch.life with cond := .running, power := .run }
    mc := { ch.mc with trained := true, unread := false, pool := [waitingRead],
                       sub := ch.mc.sub.set 0 { ch.mc.sub[0] with banks := [(0, bankReset), (0, bank5)], owed := 0#2, toCmd := 0, open_ := [] } } }
/-- The row of the bank of a line after a command. -/
def rowAfter (i : Instr) (s : State) (c : Chan) (bank : Nat) : Option (Option (BitVec 16)) :=
  match exec i s with
  | .next s' => some (((s'.chan c).mc.sub[(0 : Fin 2)]).bank bank).row
  | _ => none
/-- The state meets what the claim asks of a request whose bank is closed. -/
theorem twiceListedState_closed :
    let ch := twiceListedState.chan 0
    ch.mc.trained = true ∧ ch.life.cond = .running ∧ ch.life.power = .run ∧ ch.mc.sub[(0 : Fin 2)].owed = 0#2 ∧ ch.mc.sub[(0 : Fin 2)].toCmd = 0 ∧
      ch.mc.unread = false ∧ ch.nextScan = none ∧ ch.mc.pool = [waitingRead] ∧ ch.subOf waitingRead.line = 0 ∧ ch.mc.sub[(0 : Fin 2)].open_ = [] ∧
      ch.spot waitingRead.line = (0#16, 0) ∧ (ch.mc.sub[(0 : Fin 2)].bank 0).row = none ∧ (ch.mc.sub[(0 : Fin 2)].bank 0).toAct = 0 := by
  dsimp only
  and_intros <;> decide +kernel
/-- The controller clock shows row 5 open in that bank. -/
theorem commandIssue_twiceListed : rowAfter (.commandIssue 0 false) twiceListedState 0 0 = some (some 5#16) := by decide +kernel
/-- Refutes O50: in a state whose table of banks lists bank 0 twice, the request's bank reads as closed and ready, yet a controller clock does not
activate the request's row but leaves row 5 open: the claim asks no canonical form of that table. -/
theorem not_memoryController : ¬ Obligations.MemoryController := by
  intro h
  obtain ⟨-, -, -, hissue, -⟩ := h twiceListedState 0 false
  obtain ⟨htrained, hcond, hpower, howed, hcmd, hunread, hscan, hpool, hsub, hopen, hspot, hrow, hact⟩ := twiceListedState_closed
  obtain ⟨hactivates, -⟩ := hissue waitingRead ⟨htrained, hcond, by rw [hpower]; decide⟩ nofun howed (hcmd.trans_le (Nat.zero_le 1)) hunread hscan hpool
    hsub rfl hopen
  rw [hspot] at hactivates
  obtain ⟨s', hexec, -, -, -, hrow'⟩ := hactivates hrow (hact.trans_le (Nat.zero_le 1))
  have hafter : rowAfter (.commandIssue 0 false) twiceListedState 0 0 = some (((s'.chan 0).mc.sub[(0 : Fin 2)]).bank 0).row := by
    rw [rowAfter, hexec]
  rw [commandIssue_twiceListed] at hafter
  exact absurd ((Option.some.inj hafter).trans hrow') (by decide)

end Sys2Proof.Machine
end

section
/-! A dispatch entry that fails parity, and the counter its machine check moves (R238, R249, R490). -/
namespace Sys2Proof.Machine

/-- A stored word whose lowest parity bit reads wrong fails parity. -/
theorem parityOk_of_parity_flipped (d : BitVec 112) : parityOk (withParity d ^^^ BitVec.twoPow 116 112) = false := by
  have hdata : (withParity d ^^^ BitVec.twoPow 116 112).setWidth 112 = d := by
    rw [BitVec.setWidth_xor, show (BitVec.twoPow 116 112).setWidth 112 = 0#112 by decide, BitVec.xor_zero, withParity]
    exact BitVec.setWidth_append_eq_right
  rw [parityOk, hdata, decide_eq_false_iff_not]
  intro h
  exact absurd ((BitVec.xor_right_inj (withParity d)).mp (h.trans (BitVec.xor_zero).symm)) (by decide)
/-- A control store whose word of one ROM address reads with its lowest parity bit wrong. -/
def wrongAt (u : Nat) : CStore := { ram := [], pts := [], flips := [(u, BitVec.twoPow 116 112)] }
/-- That word fails parity. -/
theorem wrongAt_fails {u : Nat} (h : u < 8192) : parityOk ((wrongAt u).word u) = false := by
  have hword : (wrongAt u).word u = withParity (romData u) ^^^ BitVec.twoPow 116 112 := by
    simp [CStore.word, wrongAt, mapAt, mapGet, h]
  rw [hword, parityOk_of_parity_flipped]
/-- The dispatch read of an entry that fails parity (R249). -/
theorem dispatch_of_failing {co : Core} {i : Ins} (hmade : co.asMade = false) (hbad : co.micro (7936 + i.op) = none) :
    co.dispatch i = .bad (7936 + i.op) := by
  rw [Core.dispatch, hmade, hbad]
  rfl
/-- The machine check of an unreadable word counts in core counted event 95 (Table 22.1). -/
theorem controlCheck_counts {m : Mach} {t : Fin 8} {i : Ins} {u : Nat} {r : Bool} (h : (m.core (coreOf t)).micro u = none) :
    (m.controlCheck t i u r).ch.perf = (m.bumpT t 95).ch.perf := by
  rw [Mach.controlCheck, h]
  rfl
/-- An instruction whose dispatch entry cannot be read counts that event and nothing else of the counters. -/
theorem issue_failing_counts {m : Mach} {t : Fin 8} {i : Ins} (w : IM Flow) (hissue : m.canIssue t = true) (hte : (m.thr t).te = false)
    (hmade : (m.core (coreOf t)).asMade = false) (hbad : (m.core (coreOf t)).micro (7936 + i.op) = none) :
    (m.issue t i w).ch.perf = (m.bumpT t 95).ch.perf := by
  have hgoes : m.issue t i w = m.controlCheck t i (7936 + i.op) true := by
    rw [Mach.issue, hissue, hte]
    simp only [Bool.not_true, Bool.false_eq_true, if_false]
    rw [dispatch_of_failing hmade hbad]
  rw [hgoes, controlCheck_counts hbad]

/-- A running channel whose core 0 cannot read the dispatch entry of IADD. -/
def wrongEntryState : State :=
  let ch := State.reset.chan 0
  State.reset.setChan 0 { ch with
    life := { ch.life with cond := .running, power := .run }
    core := ch.core.set 0 { ch.core[0] with store := wrongAt 7952 } }
/-- What its channel's machine is, as far as IADD asks. -/
theorem wrongEntryState_facts :
    (wrongEntryState.mach 0).canIssue 0 = true ∧ ((wrongEntryState.mach 0).thr 0).te = false ∧ ((wrongEntryState.mach 0).core (coreOf 0)).asMade = false ∧
      ((wrongEntryState.mach 0).core (coreOf 0)).store = wrongAt 7952 ∧ (wrongEntryState.chan 0).perf.counts = [] := by
  and_intros <;> decide +kernel

/-- Refutes O60: where the dispatch entry of IADD fails parity, the machine check moves the performance counter of control-store parity errors
(core counted event 95) as well, and the claim has nothing but the thread change. -/
theorem not_controlStores : ¬ Obligations.ControlStores := by
  intro h
  obtain ⟨-, -, -, -, hchecks⟩ := h
  obtain ⟨hissue, hte, hmade, hstore, hcounts⟩ := wrongEntryState_facts
  obtain ⟨hentries, -⟩ := hchecks wrongEntryState 0 0
  obtain ⟨hiadd, -⟩ := hentries 0 0 0 hissue hte
  have hfails : parityOk (((wrongEntryState.mach 0).core (coreOf 0)).store.word 7952) = false := by
    rw [hstore, wrongAt_fails (by decide)]
  have hbad : ((wrongEntryState.mach 0).core (coreOf 0)).micro 7952 = none := by
    rw [Core.micro, hfails]
    rfl
  have hexec := Host.Outcome.next.inj (hiadd (.inl hfails))
  have hperf := (congrArg (fun s' => (s'.chan 0).perf) hexec).trans (congrArg Channel.perf (chan_setChan _ _ _))
  have hmoved : ((wrongEntryState.issue 0 0 (iDAB 0x10 0 0 0 false) (wIntOp 0 0 0 (· + ·))).chan 0).perf = ((wrongEntryState.mach 0).bumpT 0 95).ch.perf :=
    (congrArg Channel.perf (chan_onMach _ _ _)).trans (issue_failing_counts _ hissue hte hmade hbad)
  have hsame : ((wrongEntryState.mach 0).bumpT 0 95).ch.perf.counts = (wrongEntryState.chan 0).perf.counts :=
    congrArg Perf.counts (hmoved.symm.trans hperf)
  rw [hcounts] at hsame
  have hone : mapAt 0#48 ((wrongEntryState.mach 0).bumpT 0 95).ch.perf.counts 95 = 1#48 := by decide +kernel
  rw [hsame] at hone
  exact absurd hone (by decide)

end Sys2Proof.Machine
end

section
/-! Ports, filters and the frames of the square's interfaces (19). -/
namespace Sys2Proof.Machine

section
variable {s : State} {c : Chan}

/-! ### Work on a channel and its port -/

/-- Work that replaces a channel's port and the channel. -/
theorem onMach_port {f : Mach → Mach} {p : Port} {ch : Channel} (h : f (s.mach c) = { (s.mach c).setPort p with ch := ch }) :
    s.onMach c f = (s.withPort c p).setChan c ch := by
  rw [State.onMach, h]
  rfl
/-- Work that replaces a channel's port alone. -/
theorem onMach_portOnly {f : Mach → Mach} {p : Port} (h : f (s.mach c) = (s.mach c).setPort p) : s.onMach c f = s.withPort c p := by
  rw [onMach_port (ch := s.chan c) (h.trans rfl)]
  exact setChan_chan (s.withPort c p) c
@[simp] theorem mach_port : (s.mach c).port = s.square.ports[c] := rfl
theorem setPort_setPort (m : Mach) (p q : Port) : (m.setPort p).setPort q = m.setPort q := by
  simp [Mach.setPort]
@[simp] theorem port_setPort (m : Mach) (p : Port) : (m.setPort p).port = p := by simp [Mach.port, Mach.setPort]
@[simp] theorem port_withCh (m : Mach) (ch : Channel) : ({ m with ch := ch } : Mach).port = m.port := rfl
/-- A signal raised leaves every port. -/
@[simp] theorem portRaise_port (m : Mach) (v : Nat) (a : Cell) : (m.portRaise v a).port = m.port := by
  unfold Mach.portRaise
  rw [raiseIf_raisedIf]
  rfl

/-! ### Filters (R437, R438) -/

/-- The lowest-numbered filter that matches. -/
theorem firstHit_of_hit {f : HostFrame} {g : Filter} {post : List Filter} (hg : g.hits f = true) :
    ∀ (pre : List Filter) (n : Nat), (∀ h ∈ pre, h.hits f = false) → firstHit f n (pre ++ g :: post) = some (n + pre.length)
  | [], n, _ => if_pos hg
  | h :: r, n, hpre => by
    have hmiss : h.hits f = false := hpre h List.mem_cons_self
    have hrest := firstHit_of_hit (post := post) hg r (n + 1) (fun x hx => hpre x (List.mem_cons_of_mem _ hx))
    simp only [List.cons_append, firstHit, hmiss, Bool.false_eq_true, if_false, hrest, List.length_cons]
    congr 1
    omega
theorem firstHit_none {f : HostFrame} : ∀ (l : List Filter) (n : Nat), (∀ h ∈ l, h.hits f = false) → firstHit f n l = none
  | [], _, _ => rfl
  | h :: r, n, hall => by
    have hmiss : h.hits f = false := hall h List.mem_cons_self
    rw [firstHit, hmiss]
    exact firstHit_none r (n + 1) (fun x hx => hall x (List.mem_cons_of_mem _ hx))
theorem accepting_of_takes {f : HostFrame} {n : Nat} (h : s.takes c f n) : (s.mach c).accepting f = some n := by
  obtain ⟨hrun, pre, g, post, hfilters, hg, hpre, hn⟩ := h
  have hrun' : (s.mach c).ch.life.cond = .running := hrun
  rw [Mach.accepting, if_pos hrun', mach_port, hfilters, firstHit_of_hit hg pre _ hpre, hn]
  rfl
theorem accepting_of_passes {f : HostFrame} (h : s.passes c f) : (s.mach c).accepting f = none := by
  unfold Mach.accepting
  split
  · next hrun => exact firstHit_none _ _ (h.resolve_left (fun hne => hne hrun))
  · rfl

/-! ### Offering a received frame -/

theorem offer_of_passes {f : HostFrame} (h : s.passes c f) : s.offer f c = s :=
  onMach_id s c _ (by rw [accepting_of_passes h])
theorem offerAll_of_passes {f : HostFrame} : ∀ l : List Chan, (∀ k ∈ l, s.passes k f) → s.offerAll f l = s
  | [], _ => rfl
  | k :: r, h => by
    rw [State.offerAll, offer_of_passes (h k List.mem_cons_self)]
    exact offerAll_of_passes r (fun x hx => h x (List.mem_cons_of_mem _ hx))
theorem offerAll_append {f : HostFrame} (l r : List Chan) : ∀ s : State, s.offerAll f (l ++ r) = (s.offerAll f l).offerAll f r := by
  induction l with
  | nil => exact fun _ => rfl
  | cons k l ih => exact fun s => ih (s.offer f k)
/-- Another channel passes a frame whatever this one's port and registers have become. -/
theorem passes_elsewhere {f : HostFrame} {k : Chan} {p : Port} {ch : Channel} (hk : k ≠ c) (h : s.passes k f) :
    ((s.withPort c p).setChan c ch).passes k f := by
  have hport : ((s.withPort c p).setChan c ch).square.ports[k] = s.square.ports[k] :=
    Vector.getElem_set_ne (xs := s.square.ports) c.isLt k.isLt (fun he => hk (Fin.ext he.symm))
  unfold State.passes
  rw [chan_setChan_ne _ _ _ _ hk, hport]
  exact h
theorem mem_allChans (c : Chan) : c ∈ allChans := by
  revert c
  decide
/-- A frame one channel alone takes enters that one's port. -/
theorem offerAll_of_takes {f : HostFrame} {n : Nat} {p : Port} {ch : Channel} (htakes : s.takes c f n) (hothers : ∀ k, k ≠ c → s.passes k f)
    (haccept : (s.mach c).accept f n = { (s.mach c).setPort p with ch := ch }) : s.offerAll f allChans = (s.withPort c p).setChan c ch := by
  obtain ⟨pre, post, hsplit⟩ := List.append_of_mem (mem_allChans c)
  have hnodup : (pre ++ c :: post).Nodup := hsplit ▸ (by decide : allChans.Nodup)
  obtain ⟨-, hpost, hpre⟩ := List.nodup_append.mp hnodup
  have hfirst : s.offerAll f pre = s := offerAll_of_passes pre (fun k hk => hothers k (hpre k hk c List.mem_cons_self))
  have hit : s.offer f c = (s.withPort c p).setChan c ch := onMach_port (by rw [accepting_of_takes htakes]; exact haccept)
  rw [hsplit, offerAll_append, hfirst, State.offerAll, hit]
  refine offerAll_of_passes post (fun k hk => ?_)
  have hkc : k ≠ c := fun he => (List.nodup_cons.mp hpost).1 (he ▸ hk)
  exact passes_elsewhere hkc (hothers k hkc)
theorem any_accepts_of_takes {f : HostFrame} {n : Nat} (h : s.takes c f n) : allChans.any (fun c => ((s.mach c).accepting f).isSome) = true :=
  List.any_eq_true.mpr ⟨c, mem_allChans c, by rw [accepting_of_takes h]; rfl⟩
theorem no_accepts_of_passes {f : HostFrame} (h : ∀ k, s.passes k f) : allChans.any (fun c => ((s.mach c).accepting f).isSome) = false :=
  List.any_eq_false.mpr fun k _ => by rw [accepting_of_passes (h k)]; decide
/-- A count of the channel's events changes its counters alone. -/
theorem bumpC_perf (m : Mach) (e : Nat) : ∃ q : Perf, m.bumpC e = { m with ch := { m.ch with perf := q } } := ⟨(m.bumpC e).ch.perf, rfl⟩
/-- A frame enters the ring, its filter's signal is raised, and it is counted (R439). -/
theorem enterRing_enters (m : Mach) (x : RxFrame) : ∃ q : Perf, m.enterRing x =
    { m.setPort { m.port with ring := m.port.ring ++ [{ x with time := m.ch.clk.low }] } with ch := { m.ch.raised (272 + x.filter) fix0 with perf := q } } := by
  obtain ⟨q, hq⟩ := bumpC_perf ((m.setPort { m.port with ring := m.port.ring ++ [{ x with time := m.ch.clk.low }] }).raise (272 + x.filter) fix0) 58
  refine ⟨q, hq.trans ?_⟩
  rw [raise_raised]
  rfl
theorem noHandover {p : Port} (h : p.handover = []) : (!p.handover.isEmpty) = false := by rw [h]; rfl
/-- An accepted frame enters a ring with room. -/
theorem accept_enters {m : Mach} {f : HostFrame} {n : Nat} (hhand : m.port.handover = []) (hroom : m.port.ring.length < 64)
    (hrole : m.ch.pair.role ≠ .active) : ∃ q : Perf, m.accept f n =
      { m.setPort { m.port with ring := m.port.ring ++ [rxFrame f n m.ch.clk.low] } with ch := { m.ch.raised (272 + n) fix0 with perf := q } } := by
  unfold Mach.accept
  dsimp only
  rw [noHandover hhand, if_neg Bool.false_ne_true, if_neg (by omega), if_pos hrole]
  exact enterRing_enters m (rxFrame f n m.ch.clk.low)
/-- An accepted frame finds the ring full (R439). -/
theorem accept_lost {m : Mach} {f : HostFrame} {n : Nat} (hhand : m.port.handover = []) (hfull : 64 ≤ m.port.ring.length) :
    ∃ q : Perf, m.accept f n = { m.setPort { m.port with rxLost := upTo m.port.rxLost } with
      ch := { m.ch.raisedIf (bit (winGet m.ch 0x20001) 5) 262 fix0 with perf := q } } := by
  unfold Mach.accept
  dsimp only
  rw [noHandover hhand, if_neg Bool.false_ne_true, if_pos hfull, satInc_eq_upTo]
  obtain ⟨q, hq⟩ := bumpC_perf ((m.setPort { m.port with rxLost := upTo m.port.rxLost }).portRaise 262 fix0) 59
  refine ⟨q, hq.trans ?_⟩
  unfold Mach.portRaise
  rw [raiseIf_raisedIf]
  rfl
theorem arrive_with {l : Ledger} (h : l.staging.length < 16) (cls : BitVec 6) (detail : BitVec 32) : l.arrive cls false false detail = l.with_ cls detail :=
  if_pos h

section
variable {f : HostFrame} (hup : s.square.up = true) (hoff : s.square.ifOff f.iface = false)
include hup hoff
theorem receive_ethernet (heth : f.iface = 2) (hlink : s.square.eth.link = true) (o : BitVec 2) :
    s.receive f o = if o = 1#2 || !rxOk f then { s with square := s.square.rxErr }
      else if o = 2#2 then { s with square := s.square.rxErr.dataBad }
      else if allChans.any (fun c => ((s.mach c).accepting f).isSome) then s.offerAll f allChans
      else { s with square := s.square.drop } := by
  unfold State.receive
  dsimp only
  rw [hup, hoff, if_neg (by decide), if_pos heth, hlink]
  rfl
theorem receive_exception {b : Fin 2} (hbus : f.iface.val = b.val) (hstate : s.square.can[b].state ≠ .off) (hwait : s.square.can[b].waiting = false) :
    s.receive f 1#2 = { s with square := s.square.exception b } := by
  have hcan : f.iface ≠ 2 := fun he => by
    rw [he] at hbus
    have := b.isLt
    omega
  have hb : busOf f.iface = b := by
    unfold busOf
    split
    · next h1 => rw [h1] at hbus; exact Fin.ext hbus
    · next h1 => exact Fin.ext (by
        have : f.iface.val ≠ 1 := fun he => h1 (Fin.ext he)
        have := b.isLt
        show 0 = b.val
        omega)
  have hon : s.square.onBus b = true := by
    rw [Square.ifOff, if_neg hcan] at hoff
    simp only [Square.onBus, hoff, Bool.not_false, Bool.true_and, Bool.and_eq_true, decide_eq_true_eq]
    exact ⟨hstate, by rw [hwait]; rfl⟩
  subst hb
  unfold State.receive
  dsimp only
  rw [hup, hoff, if_neg (by decide), if_neg hcan, hon]
  rfl
end

/-! ### TXPUSH and RXPOP -/

theorem feed_none {m : Mach} (n : Nat) (h : m.port.handover = []) : m.feed n = m := by
  cases n with
  | zero => rfl
  | succ n => rw [Mach.feed, h]
/-- The counters take no part in raising a signal. -/
theorem raisedIf_perf (ch : Channel) (q : Perf) (en : Bool) (v : Nat) (a : Cell) :
    ({ ch with perf := q } : Channel).raisedIf en v a = { ch.raisedIf en v a with perf := q } := by cases en <;> rfl
/-- The gap of a handover is told and forgotten. -/
theorem gap_told {m m' : Mach} {p : Port} {ch : Channel} (h : m' = { m.setPort p with ch := ch }) :
    (m'.portRaise 263 (fix m'.port.rpgap)).setPort { m'.port with rpgap := 0#24 } =
      { m.setPort { p with rpgap := 0#24 } with ch := ch.raisedIf (bit (winGet ch 0x20001) 6) 263 (fix p.rpgap) } := by
  have hport : m'.port = p := by rw [h, port_withCh, port_setPort]
  rw [hport, h]
  unfold Mach.portRaise
  rw [raiseIf_raisedIf]
  exact congrArg (fun x : Mach => ({ x with ch := ch.raisedIf (bit (winGet ch 0x20001) 6) 263 (fix p.rpgap) } : Mach)) (setPort_setPort m p { p with rpgap := 0#24 })
/-- The last frame of a handover. -/
theorem feed_last {m : Mach} {y : RxFrame} (n : Nat) (hhand : m.port.handover = [y]) (hroom : m.port.ring.length < 64) :
    m.feed (n + 1) = (((m.setPort { m.port with handover := [] }).enterRing y).portRaise 263 (fix ((m.setPort { m.port with handover := [] }).enterRing y).port.rpgap)).setPort
      { ((m.setPort { m.port with handover := [] }).enterRing y).port with rpgap := 0#24 } := by
  rw [Mach.feed, hhand]
  dsimp only
  rw [if_neg (by omega), List.isEmpty_nil, if_pos rfl]
/-- What the last frame of a handover leaves: it is in the ring, its signal and vector 263 are raised, and the gap is forgotten (R441). -/
theorem feed_last_eq {m : Mach} {y : RxFrame} (n : Nat) (hhand : m.port.handover = [y]) (hroom : m.port.ring.length < 64) :
    ∃ q : Perf, m.feed (n + 1) =
      { m.setPort { m.port with ring := m.port.ring ++ [{ y with time := m.ch.clk.low }], handover := [], rpgap := 0#24 } with
        ch := { (m.ch.raised (272 + y.filter) fix0).raisedIf (bit (winGet m.ch 0x20001) 6) 263 (fix m.port.rpgap) with perf := q } } := by
  rw [feed_last n hhand hroom]
  obtain ⟨q, hq⟩ := enterRing_enters (m.setPort { m.port with handover := [] }) y
  rw [setPort_setPort, port_setPort] at hq
  refine ⟨q, (gap_told hq).trans ?_⟩
  rw [raisedIf_perf]
  rfl

/-- RXPOP of an empty ring. -/
theorem rxpop_empty {m : Mach} (h : m.port.ring = []) : m.rxpop.2 = m := by rw [Mach.rxpop, h]
/-- RXPOP drops the oldest frame and takes what a handover still holds (R439, R441). -/
theorem rxpop_next {m : Mach} {x : RxFrame} {r : List RxFrame} (hring : m.port.ring = x :: r) (hreplay : m.port.replay = []) :
    m.rxpop.2 = (m.setPort { m.port with ring := r }).feed 512 := by
  rw [Mach.rxpop, hring]
  dsimp only
  rw [hreplay]
  rfl
/-- RXPOP that takes the last frame of a handover. -/
theorem rxpop_last {m : Mach} {x y : RxFrame} {r : List RxFrame} (hring : m.port.ring = x :: r) (hreplay : m.port.replay = [])
    (hhand : m.port.handover = [y]) (hroom : r.length < 64) : ∃ q : Perf, m.rxpop.2 =
      { m.setPort { m.port with ring := r ++ [{ y with time := m.ch.clk.low }], handover := [], rpgap := 0#24 } with
        ch := { (m.ch.raised (272 + y.filter) fix0).raisedIf (bit (winGet m.ch 0x20001) 6) 263 (fix m.port.rpgap) with perf := q } } := by
  rw [rxpop_next hring hreplay]
  have hport := port_setPort m { m.port with ring := r }
  obtain ⟨q, hq⟩ := feed_last_eq (m := m.setPort { m.port with ring := r }) 511 (by rw [hport]; exact hhand) (by rw [hport]; exact hroom)
  rw [hport, setPort_setPort] at hq
  exact ⟨q, hq⟩
/-- Cell i of a staging slot (R429). -/
theorem stage_eq (k : Fin 8) (i : Nat) : stage k i = 0x20800 + 512 * k.val + i := by
  unfold stage wreg
  omega

theorem holds_eq (p : Pair) : p.holds = decide (p.role = .active ∨ (p.role = .joiningActive ∧ p.ready = true)) := by
  unfold Pair.holds
  simp

section
variable {m : Mach} {k : Fin 8} {w : Nat → Payload} {f : HostFrame} (hw : ∀ i, winGet m.ch (0x20800 + 512 * k.val + i) = w i)
  (hf : f = frameOf (w 0) (w 1) (w 2) (unpack3 ((upFrom 3 506).map w)))
include hw hf
/-- TXPUSH refuses what is no valid frame, and an immediate one too far from the snapshot (R431, R434). -/
theorem txpush_refuses (h : ¬ (m.sq.up = true ∧ descOk m.sq (w 0) (w 1) (w 2) (unpack3 ((upFrom 3 506).map w)) = true ∧ m.sq.ifOff f.iface = false) ∨
    (f.committed = false ∧ m.ch.pair.role = .active ∧ 32767 ≤ (m.port.seqI - m.port.snap.seqI).toNat)) : (m.txpush k).2 = m := by
  unfold Mach.txpush
  simp only [stage_eq, hw, ← hf]
  split
  · rfl
  split
  · rfl
  split
  · rfl
  split
  · rfl
  next hup hdesc hon hnear =>
    refine absurd h ?_
    simp only [Bool.not_eq_true', Bool.not_eq_false, Bool.not_eq_true] at hup hdesc hon
    simp only [hup, hdesc, hon, and_self, not_true_eq_false, false_or]
    simpa using hnear
theorem txpush_goes (hvalid : m.sq.up = true ∧ descOk m.sq (w 0) (w 1) (w 2) (unpack3 ((upFrom 3 506).map w)) = true ∧ m.sq.ifOff f.iface = false)
    (hnear : ¬ (f.committed = false ∧ m.ch.pair.role = .active ∧ 32767 ≤ (m.port.seqI - m.port.snap.seqI).toNat)) :
    (m.txpush k).2 = if 64 ≤ m.port.queue.length then m.setPort { m.port with wasFull := true }
      else (m.setPort { m.port with
        queue := m.port.queue ++ [{ frame := frameSeq (frameMac f m.port.stmac) (if f.committed then m.port.seqC else m.port.seqI),
                                    held := f.committed && m.ch.pair.holds, mark := none }]
        seqI := if f.committed then m.port.seqI else m.port.seqI + 1#16
        seqC := if f.committed then m.port.seqC + 1#16 else m.port.seqC }).bumpC 56 := by
  obtain ⟨hup, hdesc, hon⟩ := hvalid
  unfold Mach.txpush
  simp only [stage_eq, hw, ← hf]
  rw [hup, hdesc, hon, if_neg (by decide), if_neg (by decide), if_neg (by decide), if_neg (by simpa using hnear)]
  split <;> rfl
end

end

/-- Settles O56: the port's queues, the filters of the four channels in turn, and the interfaces. -/
theorem portQueues : Obligations.PortQueues := by
  intro s c
  dsimp only
  refine ⟨fun hawake => ⟨fun k => ⟨?_, ?_, ?_⟩, ?_, ?_⟩, fun f n hup hoff => ⟨fun heth hlink => ⟨fun hok htakes hothers hhand => ⟨?_, ?_⟩, ?_, ?_, ?_⟩, ?_⟩⟩
  · intro hno
    refine congrArg Host.Outcome.next ((program_onMach (fun m => (m.txpush k).2) hawake).trans (onMach_id s c _ ?_))
    exact txpush_refuses (m := s.mach c) (fun _ => rfl) rfl hno
  · intro hvalid hfar hfull
    refine congrArg Host.Outcome.next ((program_onMach (fun m => (m.txpush k).2) hawake).trans (onMach_portOnly ?_))
    exact (txpush_goes (m := s.mach c) (fun _ => rfl) rfl hvalid hfar).trans (if_pos hfull)
  · intro hvalid hfar hroom
    have hgoes := (txpush_goes (m := s.mach c) (fun _ => rfl) rfl hvalid hfar).trans (if_neg (show ¬ 64 ≤ s.square.ports[c].queue.length by omega))
    rw [holds_eq] at hgoes
    obtain ⟨q, hq⟩ := bumpC_perf _ 56
    exact ⟨q, congrArg Host.Outcome.next ((program_onMach (fun m => (m.txpush k).2) hawake).trans (onMach_port (hgoes.trans hq)))⟩
  · intro hring
    refine congrArg Host.Outcome.next ((program_onMach (fun m => m.rxpop.2) hawake).trans (onMach_id s c _ ?_))
    exact rxpop_empty (m := s.mach c) hring
  · intro x r hring hreplay
    refine ⟨fun hhand => ?_, fun y hhand hroom => ?_⟩
    · refine congrArg Host.Outcome.next ((program_onMach (fun m => m.rxpop.2) hawake).trans (onMach_portOnly ?_))
      rw [rxpop_next (m := s.mach c) hring hreplay, feed_none _ (by rw [port_setPort]; exact hhand)]
      rfl
    · obtain ⟨q, hq⟩ := rxpop_last (m := s.mach c) hring hreplay hhand hroom
      exact ⟨q, congrArg Host.Outcome.next ((program_onMach (fun m => m.rxpop.2) hawake).trans (onMach_port hq))⟩
  · intro hroom hrole
    obtain ⟨q, hq⟩ := accept_enters (m := s.mach c) (f := f) (n := n) hhand hroom hrole
    refine ⟨q, congrArg Host.Outcome.next ?_⟩
    rw [receive_ethernet hup hoff heth hlink, hok, if_neg (by decide), if_neg (by decide), if_pos (any_accepts_of_takes htakes)]
    exact offerAll_of_takes htakes hothers hq
  · intro hfull
    obtain ⟨q, hq⟩ := accept_lost (m := s.mach c) (f := f) (n := n) hhand hfull
    refine ⟨q, congrArg Host.Outcome.next ?_⟩
    rw [receive_ethernet hup hoff heth hlink, hok, if_neg (by decide), if_neg (by decide), if_pos (any_accepts_of_takes htakes)]
    exact offerAll_of_takes htakes hothers hq
  · intro hok hpass
    refine congrArg Host.Outcome.next ?_
    rw [receive_ethernet hup hoff heth hlink, hok, if_neg (by decide), if_neg (by decide), no_accepts_of_passes hpass, if_neg (by decide), Square.drop, satInc_eq_upTo]
  · refine congrArg Host.Outcome.next ?_
    rw [receive_ethernet hup hoff heth hlink, if_pos (by simp), Square.rxErr, satInc_eq_upTo]
  · intro hok hroom
    refine congrArg Host.Outcome.next ?_
    rw [receive_ethernet hup hoff heth hlink, hok, if_neg (by decide), if_pos rfl, Square.dataBad, Square.rxErr, satInc_eq_upTo, arrive_with hroom]
  · intro b hbus hstate hwait
    refine congrArg Host.Outcome.next ?_
    rw [receive_exception hup hoff hbus hstate hwait, Square.exception, Square.setCan, satInc_eq_upTo]

end Sys2Proof.Machine
end

section
/-! What the square sends, its buses and PHY, and its failure (19). -/
namespace Sys2Proof.Machine

/-! ### Signals in every running channel -/

/-- Work on every channel alone. -/
theorem onAll_map (s : State) (g : Channel → Channel) : s.onAll (fun m => { m with ch := g m.ch }) = { s with chans := s.chans.map g } := by
  have hchans : (s.onAll (fun m => { m with ch := g m.ch })).chans = s.chans.map g := by
    refine Vector.ext (fun i hi => ?_)
    rw [Vector.getElem_map]
    exact chan_onAll s ⟨i, hi⟩ g
  calc s.onAll (fun m => { m with ch := g m.ch }) = { s with chans := (s.onAll (fun m => { m with ch := g m.ch })).chans } := rfl
    _ = { s with chans := s.chans.map g } := by rw [hchans]
/-- A status vector of the square's ports in every running channel. -/
theorem portRaiseAll_running (s : State) {v b : Nat} (a : Cell) (hb : v - 257 = b) (hb24 : b ≠ 24) : s.portRaiseAll v a = s.raiseRunning b v a := by
  have hstep : (fun m : Mach => if m.ch.life.cond = .running then m.portRaise v a else m) =
      fun m => { m with ch := if m.ch.life.cond = .running then m.ch.raisedIf (b = 24 || bit (winGet m.ch 0x20001) b) v a else m.ch } := by
    funext m
    split
    · unfold Mach.portRaise
      rw [raiseIf_raisedIf, hb, decide_eq_false hb24, Bool.false_or]
      rfl
    · rfl
  unfold State.portRaiseAll
  rw [hstep]
  exact onAll_map s (fun ch => if ch.life.cond = .running then ch.raisedIf (b = 24 || bit (winGet ch 0x20001) b) v a else ch)
/-- A signal that needs no enable. -/
theorem raiseAll_running (s : State) {b : Nat} (hb : b = 24) (v : Nat) (a : Cell) :
    s.onAll (fun m => if m.ch.life.cond = .running then m.raise v a else m) = s.raiseRunning b v a := by
  have hstep : (fun m : Mach => if m.ch.life.cond = .running then m.raise v a else m) =
      fun m => { m with ch := if m.ch.life.cond = .running then m.ch.raisedIf (b = 24 || bit (winGet m.ch 0x20001) b) v a else m.ch } := by
    funext m
    split
    · rw [decide_eq_true hb, Bool.true_or]
      exact raise_raised m v a
    · rfl
  rw [hstep]
  exact onAll_map s (fun ch => if ch.life.cond = .running then ch.raisedIf (b = 24 || bit (winGet ch 0x20001) b) v a else ch)

section
variable {s : State} {c : Chan}

/-! ### The channel whose turn it is -/

/-- One frame alone in the square's queues, which its interface may send. -/
structure soleFrame (s : State) (c : Chan) (e : TxFrame) : Prop where
  queue : s.square.ports[c].queue = [e]
  held : e.held = false
  gasp : s.square.ports[c].gaspDue = []
  others : ∀ k, k ≠ c → s.square.ports[k].queue = [] ∧ s.square.ports[k].gaspDue = []
theorem nextFor_empty {p : Port} (sq : Square) (i : Fin 3) (hqueue : p.queue = []) (hgasp : p.gaspDue = []) : p.nextFor sq i = none := by
  rw [Port.nextFor, hqueue, hgasp]
  rfl
theorem nextFor_sole {p : Port} {e : TxFrame} (sq : Square) (hqueue : p.queue = [e]) (hgasp : p.gaspDue = []) (hheld : e.held = false) :
    p.nextFor sq e.frame.iface = some (e.frame, { p with queue := [] }) := by
  have helig : eligible sq e.frame.iface [] [e] = some ([], e, []) := by
    simp [eligible, hheld, clearAhead]
  rw [Port.nextFor, hqueue, hgasp, List.find?_nil]
  dsimp only
  rw [helig]
  simp
theorem turn_of_sole {e : TxFrame} (h : soleFrame s c e) : ∀ l : List Chan, c ∈ l →
    s.square.turn e.frame.iface l = some (c, e.frame, { s.square.ports[c] with queue := [] })
  | [], hc => absurd hc List.not_mem_nil
  | k :: r, hc => by
    by_cases hk : k = c
    · subst hk
      rw [Square.turn, nextFor_sole _ h.queue h.gasp h.held]
    · obtain ⟨hqueue, hgasp⟩ := h.others k hk
      rw [Square.turn, nextFor_empty _ _ hqueue hgasp]
      exact turn_of_sole h r ((List.mem_cons.mp hc).resolve_left (fun he => hk he.symm))
theorem mem_rotation (last c : Chan) : c ∈ rotation last := by
  revert last c
  decide
/-- What a transmission comes to when one frame is in the queues. -/
theorem transmit_sole {e : TxFrame} {i : Fin 3} (h : soleFrame s c e) (hi : e.frame.iface = i) (hup : s.square.up = true)
    (hcarries : s.square.carries i = true) (o : BitVec 2) :
    s.transmit i o =
      (let p : Port := { s.square.ports[c] with queue := [] }
       let s1 : State := { s with square := s.square.setLast i c }
       if o = 3#2 then { s1 with square := s1.square.txAbort.dataBad }.onMach c (fun m => m.freed p)
       else if i = 2 then
         if s.square.eth.link && o = 0#2 then s1.sent c e.frame p
         else if s.square.eth.link && (o = 1#2 || s.square.eth.full) then s
         else { s1 with square := s1.square.txAbort }.onMach c (fun m => (m.freed p).raiseIf (decide (m.ch.life.cond = Cond.running) && winBit m.ch (pReg 1) 1) 258 (fixN 2))
       else
         let b := busOf i
         let k := s1.square.can[b]
         if o = 0#2 then (s1.setCan b { k with tec := k.tec - 1 }.confine).sent c e.frame p
         else if o = 1#2 then s1
         else
           let s2 := s1.setCan b { k with tec := k.tec + 8 }.confine
           if s2.square.can[b].state = .off then s2.onMach c (fun m => m.raiseIf (decide (m.ch.life.cond = Cond.running) && winBit m.ch (pReg 1) 1) 258 (fixN i.val))
           else s2) := by
  subst hi
  unfold State.transmit
  dsimp only
  rw [hup, hcarries, if_neg (by decide), turn_of_sole h _ (mem_rotation _ c)]
/-- The frame of a queue that held it alone leaves, and no signal comes of it. -/
theorem freed_sole {m : Mach} : m.freed { m.port with queue := [] } = m.setPort { m.port with queue := [] } := by
  unfold Mach.freed
  simp [Mach.raiseIf]
theorem freed_raised {m : Mach} (en : Bool) (v : Nat) (a : Cell) :
    (m.freed { m.port with queue := [] }).raiseIf en v a = { m.setPort { m.port with queue := [] } with ch := m.ch.raisedIf en v a } := by
  rw [freed_sole, raiseIf_raisedIf]
  rfl
theorem onMach_freed : s.onMach c (fun m => m.freed { s.square.ports[c] with queue := [] }) = s.withPort c { s.square.ports[c] with queue := [] } :=
  onMach_portOnly freed_sole
/-- A frame sent that no other channel takes. -/
theorem sent_sole {f : HostFrame} (hpass : ∀ k, k ≠ c → s.passes k f) : ∃ q : Perf,
    s.sent c f { s.square.ports[c] with queue := [] } = (s.withPort c { s.square.ports[c] with queue := [] }).setChan c { s.chan c with perf := q } := by
  obtain ⟨q, hq⟩ := bumpC_perf ((s.mach c).setPort { s.square.ports[c] with queue := [] }) 57
  have hwork : s.onMach c (fun m => (m.freed { s.square.ports[c] with queue := [] }).bumpC 57) =
      (s.withPort c { s.square.ports[c] with queue := [] }).setChan c { s.chan c with perf := q } := by
    refine onMach_port ?_
    dsimp only
    rw [show (s.mach c).freed { s.square.ports[c] with queue := [] } = (s.mach c).setPort { s.square.ports[c] with queue := [] } from freed_sole]
    exact hq
  refine ⟨q, ?_⟩
  unfold State.sent
  rw [hwork]
  refine offerAll_of_passes _ (fun k hk => ?_)
  have hkc : k ≠ c := by
    unfold State.others at hk
    simp only [List.mem_filter, Bool.and_eq_true, decide_eq_true_eq] at hk
    exact hk.2.1
  exact passes_elsewhere hkc (hpass k hkc)

/-! ### CAN controllers -/

/-- The controller just written. -/
theorem noted_can (sq : Square) (b : Fin 2) (k : Can) : (sq.setCan b k).can[b] = k := by
  unfold Square.setCan
  rw [Fin.getElem_fin, Vector.getElem_set_self]
theorem setCan_setCan (sq : Square) (b : Fin 2) (k k' : Can) : (sq.setCan b k).setCan b k' = sq.setCan b k' := by
  unfold Square.setCan
  rw [Vector.set_set]
/-- A controller far from its limits is error-active. -/
theorem confine_active {k : Can} (hstate : k.state = .active) (htec : k.tec ≤ 127) (hrec : k.rec_ ≤ 127) : k.confine = k := by
  have hconfine : k.confine = { k with state := .active } := by
    rw [Can.confine, hstate, if_neg (by simp; omega), if_neg (by simp; omega)]
  rw [hconfine, ← hstate]
/-- A controller that changes and not its state is nothing to be told. -/
theorem setCan_quiet {b : Fin 2} {k : Can} (hstate : k.state = s.square.can[b].state) : s.setCan b k = { s with square := s.square.setCan b k } := by
  have hsame : (s.square.setCan b k).busState b = s.square.busState b := by
    unfold Square.busState Square.setCan
    dsimp only
    rw [Fin.getElem_fin, Vector.getElem_set_self, hstate]
    rfl
  unfold State.setCan
  dsimp only
  rw [hsame, if_pos rfl]
/-- A controller that keeps to error-active has its counters alone changed. -/
theorem setCan_counts {b : Fin 2} {k k' : Can} (hk : k.state = .active) (hk' : k'.state = .active) (htec : k'.tec ≤ 127) (hrec : k'.rec_ ≤ 127) :
    State.setCan { s with square := s.square.setCan b k } b k'.confine = { s with square := s.square.setCan b k' } := by
  rw [confine_active hk' htec hrec, setCan_quiet (by rw [noted_can, hk, hk'])]
  dsimp only
  rw [setCan_setCan]
/-- A bus that comes on again is signalled (Table 19.4). -/
theorem setCan_recovered {b : Fin 2} {k : Can} (hoff : s.square.can[b].state = .off) (hon : k.state = .active) (hcan : s.square.canOff = false) :
    s.setCan b k = ({ s with square := s.square.setCan b k } : State).raiseRunning (2 + b.val) (259 + b.val) fix0 := by
  have hnew : (s.square.setCan b k).busState b = .active := by
    have hcan' : (s.square.setCan b k).canOff = false := hcan
    unfold Square.busState
    rw [hcan']
    unfold Square.setCan
    dsimp only
    rw [Fin.getElem_fin, Vector.getElem_set_self, hon]
    rfl
  have hold : s.square.busState b = .off := by
    unfold Square.busState
    rw [hcan, hoff]
    rfl
  unfold State.setCan
  dsimp only
  rw [hnew, hold, if_neg (by decide)]
  have hb := b.isLt
  exact portRaiseAll_running _ fix0 (by omega) (by omega)

/-! ### The square's failure -/

/-- The limits outside of which a rail of the square fails it (R107). -/
theorem railLimits_square (rail : Bool) : (railLimits (if rail then 3 else 0)).2 = (if rail then 2900 else 700, if rail then 3700 else 920) := by
  cases rail <;> rfl
theorem beyond_square (rail : Bool) (reading : BitVec 16) (lim : Nat × Nat) :
    (beyond (if rail then 3 else 0) lim reading).isSome = decide (reading.toNat < lim.1 ∨ lim.2 < reading.toNat) := by
  have hrail : (if rail then 3 else 0 : Fin 6) ≠ 5 := by cases rail <;> decide
  rw [beyond, if_neg hrail]
  split
  · simp [*]
  · split <;> simp [*]
theorem squareFails_rail (rail : Bool) (reading : BitVec 16) : squareFails 4#4 rail reading =
    decide (reading.toNat < (if rail then 2900 else 700) ∨ (if rail then 3700 else 920) < reading.toNat) := by
  unfold squareFails
  dsimp only
  rw [railLimits_square, beyond_square]
  rfl
theorem squareFail_fails {kind : BitVec 4} {rail : Bool} {reading : BitVec 16} (hup : s.square.up = true) (hfails : squareFails kind rail reading = true) :
    s.squareFail kind rail reading =
      (let code : BitVec 4 := if rail then 9#4 else 8#4
       let over_ : BitVec 4 := if (if rail then 3700 else 920) < reading.toNat then 1#4 else 0#4
       let led := if kind = 4#4 then s.square.led.arrive 0x0B#6 false true (code ++ over_ ++ 0#8 ++ reading : BitVec 32) else s.square.led
       let low : BitVec 24 := if kind = 4#4 then code.setWidth 24 else if kind = 0#4 then 0#24 else reading.setWidth 24
       ({ s with square := { s.square with failed := true, led := led.arrive 0x11#6 false false (kind ++ 0#4 ++ low : BitVec 32),
                                           ports := s.square.ports.map Port.lostAll } } : State).raiseRunning 24 256 (fix (kind.setWidth 24))) := by
  unfold State.squareFail
  dsimp only
  rw [hup, hfails, if_neg (by decide), railLimits_square]
  exact raiseAll_running _ rfl 256 _

/-! ### Each kind of transmission -/

section
variable {e : TxFrame} (h : soleFrame s c e) (hup : s.square.up = true) (hon : s.square.ifOff e.frame.iface = false)
include h hup hon
/-- What an Ethernet frame's transmission comes to. -/
theorem transmit_ethernet (heth : e.frame.iface = 2) (o : BitVec 2) :
    s.transmit 2 o =
      (let p : Port := { s.square.ports[c] with queue := [] }
       let s1 : State := { s with square := { s.square with eth := { s.square.eth with last := c } } }
       if o = 3#2 then { s1 with square := s1.square.txAbort.dataBad }.onMach c (fun m => m.freed p)
       else if s.square.eth.link && o = 0#2 then s1.sent c e.frame p
       else if s.square.eth.link && (o = 1#2 || s.square.eth.full) then s
       else { s1 with square := s1.square.txAbort }.onMach c
         (fun m => (m.freed p).raiseIf (decide (m.ch.life.cond = Cond.running) && winBit m.ch (pReg 1) 1) 258 (fixN 2))) := by
  have hcarries : s.square.carries 2 = true := by
    rw [heth] at hon
    simp [Square.carries, hon]
  exact transmit_sole h heth hup hcarries o
theorem transmit_sent (heth : e.frame.iface = 2) (hlink : s.square.eth.link = true) (hpass : ∀ k, k ≠ c → s.passes k e.frame) :
    reaches (.frameTransmission 2 0#2) s
      (({ s with square := { s.square with eth := { s.square.eth with last := c } } } : State).withPort c { s.square.ports[c] with queue := [] }) c (s.chan c) := by
  obtain ⟨q, hq⟩ := sent_sole (s := { s with square := { s.square with eth := { s.square.eth with last := c } } }) (c := c) (f := e.frame) hpass
  refine ⟨q, congrArg Host.Outcome.next ((transmit_ethernet h hup hon heth 0#2).trans ?_)⟩
  have hsend : (s.square.eth.link && decide (0#2 = 0#2)) = true := by rw [hlink]; rfl
  dsimp only
  rw [if_neg (by decide), if_pos hsend]
  exact hq
theorem transmit_retried (heth : e.frame.iface = 2) (hlink : s.square.eth.link = true) {o : BitVec 2} (ho : o = 1#2 ∨ (o = 2#2 ∧ s.square.eth.full = true)) :
    s.transmit 2 o = s := by
  refine (transmit_ethernet h hup hon heth o).trans ?_
  dsimp only
  rcases ho with rfl | ⟨rfl, hfull⟩
  · rw [if_neg (by decide), hlink, if_neg (by decide), if_pos (by simp)]
  · rw [if_neg (by decide), hlink, if_neg (by decide), hfull, if_pos (by simp)]
theorem transmit_badData (heth : e.frame.iface = 2) (hroom : s.square.led.staging.length < 16) :
    s.transmit 2 3#2 = ({ s with square := { s.square with
      eth := { s.square.eth with last := c, txAbort := upTo s.square.eth.txAbort }
      led := s.square.led.with_ 0x11#6 (1#4 ++ 0#28 : BitVec 32) } } : State).withPort c { s.square.ports[c] with queue := [] } := by
  refine (transmit_ethernet h hup hon heth 3#2).trans ?_
  dsimp only
  rw [if_pos rfl, Square.txAbort, Square.dataBad, arrive_with hroom, satInc_eq_upTo]
  exact onMach_freed
theorem transmit_aborted (heth : e.frame.iface = 2) {o : BitVec 2} (ho : o ≠ 3#2)
    (hfail : s.square.eth.link = false ∨ (o = 2#2 ∧ s.square.eth.full = false)) :
    s.transmit 2 o = ((({ s with square := { s.square with eth := { s.square.eth with last := c, txAbort := upTo s.square.eth.txAbort } } } : State).withPort c
      { s.square.ports[c] with queue := [] }).setChan c
        ((s.chan c).raisedIf (decide ((s.chan c).life.cond = Cond.running) && bit (winGet (s.chan c) 0x20001) 1) 258 (fixN 2))) := by
  refine (transmit_ethernet h hup hon heth o).trans ?_
  dsimp only
  have hsend : (s.square.eth.link && decide (o = 0#2)) = false := by
    rcases hfail with hlink | ⟨rfl, -⟩
    · rw [hlink]; rfl
    · simp
  have hretry : (s.square.eth.link && (decide (o = 1#2) || s.square.eth.full)) = false := by
    rcases hfail with hlink | ⟨rfl, hfull⟩
    · rw [hlink]; rfl
    · rw [hfull]; simp
  rw [if_neg ho, hsend, hretry, if_neg Bool.false_ne_true, if_neg Bool.false_ne_true, Square.txAbort, satInc_eq_upTo]
  exact onMach_port (freed_raised _ 258 (fixN 2))

section
variable {i : Fin 3} {b : Fin 2} (hi : e.frame.iface = i) (hb : i.val = b.val) (hstate : s.square.can[b].state = .active) (hwait : s.square.can[b].waiting = false)
include hi hb hstate hwait
/-- What a CAN frame's transmission comes to on a bus that is error-active. -/
theorem transmit_can (o : BitVec 2) :
    s.transmit i o =
      (let p : Port := { s.square.ports[c] with queue := [] }
       let k : Can := { s.square.can[b] with last := c }
       let s1 : State := { s with square := s.square.setCan b k }
       if o = 3#2 then { s1 with square := s1.square.txAbort.dataBad }.onMach c (fun m => m.freed p)
       else if o = 0#2 then (s1.setCan b { k with tec := k.tec - 1 }.confine).sent c e.frame p
       else if o = 1#2 then s1
       else
         let s2 := s1.setCan b { k with tec := k.tec + 8 }.confine
         if s2.square.can[b].state = .off then s2.onMach c (fun m => m.raiseIf (decide (m.ch.life.cond = Cond.running) && winBit m.ch (pReg 1) 1) 258 (fixN i.val))
         else s2) := by
  have hcan : i ≠ 2 := fun he => by
    rw [he] at hb
    have := b.isLt
    omega
  have hbus : busOf i = b := by
    unfold busOf
    split
    · next h1 => rw [h1] at hb; exact Fin.ext hb
    · next h1 => exact Fin.ext (by
        have : i.val ≠ 1 := fun he => h1 (Fin.ext he)
        have := b.isLt
        show 0 = b.val
        omega)
  subst hbus
  have hcarries : s.square.carries i = true := by
    rw [hi, Square.ifOff, if_neg hcan] at hon
    unfold Square.carries Square.onBus Square.ifOff
    rw [if_neg hcan, hon, hstate, hwait]
    simp
  refine (transmit_sole h hi hup hcarries o).trans ?_
  have hlast : s.square.setLast i c = s.square.setCan (busOf i) { s.square.can[busOf i] with last := c } := if_neg hcan
  dsimp only
  rw [hlast, if_neg hcan, noted_can]
/-- Lost arbitration keeps the frame; the channel is noted as served. -/
theorem transmit_lost : s.transmit i 1#2 = { s with square := s.square.setCan b { s.square.can[b] with last := c } } := by
  refine (transmit_can h hup hon hi hb hstate hwait 1#2).trans ?_
  dsimp only
  rw [if_neg (by decide), if_neg (by decide), if_pos rfl]
theorem transmit_canBadData (hroom : s.square.led.staging.length < 16) :
    s.transmit i 3#2 = ({ s with square := { s.square.setCan b { s.square.can[b] with last := c } with
      eth := { s.square.eth with txAbort := upTo s.square.eth.txAbort }
      led := s.square.led.with_ 0x11#6 (1#4 ++ 0#28 : BitVec 32) } } : State).withPort c { s.square.ports[c] with queue := [] } := by
  refine (transmit_can h hup hon hi hb hstate hwait 3#2).trans ?_
  dsimp only
  have hroom' : (s.square.setCan b { s.square.can[b] with last := c }).txAbort.led.staging.length < 16 := hroom
  rw [if_pos rfl, Square.dataBad, arrive_with hroom', Square.txAbort, satInc_eq_upTo]
  exact onMach_freed
theorem transmit_canError (htec : s.square.can[b].tec + 8 ≤ 127) (hrec : s.square.can[b].rec_ ≤ 127) :
    s.transmit i 2#2 = { s with square := s.square.setCan b { s.square.can[b] with last := c, tec := s.square.can[b].tec + 8 } } := by
  refine (transmit_can h hup hon hi hb hstate hwait 2#2).trans ?_
  have hcounts := setCan_counts (s := s) (b := b) (k := { s.square.can[b] with last := c })
    (k' := { s.square.can[b] with last := c, tec := s.square.can[b].tec + 8 }) hstate hstate htec hrec
  dsimp only at hcounts ⊢
  rw [if_neg (by decide), if_neg (by decide), if_neg (by decide), hcounts, noted_can, if_neg (by rw [hstate]; decide)]
theorem transmit_canSent (htec : s.square.can[b].tec ≤ 127) (hrec : s.square.can[b].rec_ ≤ 127) (hpass : ∀ k, k ≠ c → s.passes k e.frame) :
    reaches (.frameTransmission i 0#2) s (State.withPort { s with square := s.square.setCan b { s.square.can[b] with last := c, tec := s.square.can[b].tec - 1 } } c
      { s.square.ports[c] with queue := [] }) c (s.chan c) := by
  obtain ⟨q, hq⟩ := sent_sole (s := { s with square := s.square.setCan b { s.square.can[b] with last := c, tec := s.square.can[b].tec - 1 } }) (c := c)
    (f := e.frame) hpass
  refine ⟨q, congrArg Host.Outcome.next ((transmit_can h hup hon hi hb hstate hwait 0#2).trans ?_)⟩
  have hcounts := setCan_counts (s := s) (b := b) (k := { s.square.can[b] with last := c })
    (k' := { s.square.can[b] with last := c, tec := s.square.can[b].tec - 1 }) hstate hstate ((Nat.sub_le _ 1).trans htec) hrec
  dsimp only at hcounts ⊢
  rw [if_neg (by decide), if_pos rfl, hcounts]
  exact hq
end
end

/-! ### Buses, the PHY, last-gasp frames and the square's failure -/

/-- A record of a monitor as it enters a queue with room. -/
theorem arrive_first {l : Ledger} (h : l.staging.length < 16) (cls : BitVec 6) (flag : Bool) (detail : BitVec 32) :
    l.arrive cls false flag detail = { l with
      staging := l.staging ++ [.error cls false flag (mapAt 0#8 l.lost cls.toNat) (BitVec.ofNat 24 (l.periods / 32768)) detail]
      lost := mapDel l.lost cls.toNat } := if_pos h
theorem busOffRecovery_on {b : Fin 2} (hup : s.square.up = true) (hoff : s.square.can[b].state = .off) (hcan : s.square.canOff = false) :
    exec (.busOffRecovery b) s = .next (({ s with square := s.square.setCan b { s.square.can[b] with state := .active, tec := 0, rec_ := 0 } } : State).raiseRunning
      (2 + b.val) (259 + b.val) fix0) := by
  refine congrArg Host.Outcome.next ?_
  rw [hup, hoff, if_pos (by decide)]
  exact setCan_recovered hoff rfl hcan
/-- The speed and duplex the strap's level forces on the PHY (R428). -/
theorem phyForced_level (fast full : Bool) : s.square.phyForced.getD (fast, full) =
    (if s.square.straps[3].level = 1#3 ∨ s.square.straps[3].level = 2#3 then true else if s.square.straps[3].level = 3#3 ∨ s.square.straps[3].level = 4#3 then false else fast,
     if s.square.straps[3].level = 1#3 ∨ s.square.straps[3].level = 3#3 then true else if s.square.straps[3].level = 2#3 ∨ s.square.straps[3].level = 4#3 then false else full) := by
  unfold Square.phyForced
  generalize s.square.straps[3].level = l
  have hl : l = 0#3 ∨ l = 1#3 ∨ l = 2#3 ∨ l = 3#3 ∨ l = 4#3 ∨ l = 5#3 ∨ l = 6#3 ∨ l = 7#3 := by
    revert l
    decide
  rcases hl with rfl | rfl | rfl | rfl | rfl | rfl | rfl | rfl <;> rfl
/-- A frame falls due exactly where its interface is enabled and it is registered (R442). -/
theorem mem_gaspDue (m : Mach) (f : HostFrame) :
    f ∈ ([0, 1, 2] : List (Fin 3)).filterMap (fun i => if m.sq.ifOff i then none else m.port.gasp[i]) ↔
      ∃ i : Fin 3, m.sq.ifOff i = false ∧ m.port.gasp[i] = some f := by
  rw [List.mem_filterMap]
  constructor
  · rintro ⟨i, -, hi⟩
    split at hi
    · exact nomatch hi
    · next hoff => exact ⟨i, by simpa using hoff, hi⟩
  · rintro ⟨i, hoff, hi⟩
    exact ⟨i, by simp; omega, by rw [hoff]; exact hi⟩

end
/-- Settles O57. -/
theorem squareUnits : Obligations.SquareUnits := by
  intro s c
  dsimp only
  intro hup
  refine ⟨fun e hqueue hheld hgasp hothers hon => ?_, fun b => ⟨?_, fun hoff hcan => busOffRecovery_on hup hoff hcan⟩, fun hon link fast full => ?_, fun hnow hroom => ?_,
    fun harmed hdown => ?_, fun kind rail reading => ⟨fun hkind hroom => ?_, fun hkind => ⟨fun hlow hhigh => ?_, fun hout hroom => ?_⟩⟩⟩
  · have h : soleFrame s c e := ⟨hqueue, hheld, hgasp, hothers⟩
    refine ⟨fun heth => ⟨fun hlink hpass => transmit_sent h hup hon heth hlink hpass,
        fun o hlink ho => congrArg Host.Outcome.next (transmit_retried h hup hon heth hlink ho),
        fun hroom => congrArg Host.Outcome.next (transmit_badData h hup hon heth hroom),
        fun o ho hfail => congrArg Host.Outcome.next (transmit_aborted h hup hon heth ho hfail)⟩,
      fun i b hi hb hstate hwait => ⟨congrArg Host.Outcome.next (transmit_lost h hup hon hi hb hstate hwait),
        fun hroom => congrArg Host.Outcome.next (transmit_canBadData h hup hon hi hb hstate hwait hroom),
        fun htec hrec => congrArg Host.Outcome.next (transmit_canError h hup hon hi hb hstate hwait htec hrec),
        fun htec hrec hpass => transmit_canSent h hup hon hi hb hstate hwait htec hrec hpass⟩⟩
  · exact congrArg Host.Outcome.next (if_pos hup)
  · refine congrArg Host.Outcome.next ?_
    dsimp only
    rw [hup, hon, if_neg (by decide), phyForced_level]
    dsimp only
    rw [portRaiseAll_running _ _ rfl (by decide)]
    cases link <;> rfl
  · refine congrArg Host.Outcome.next ((if_pos (by simp [hup, hnow])).trans ?_)
    rw [arrive_with hroom]
  · refine ⟨_, congrArg Host.Outcome.next (onMach_portOnly ?_), mem_gaspDue (s.mach c)⟩
    have hgoes : ((s.mach c).sq.up && (s.mach c).port.armed && (s.mach c).ch.failedNow) = true := by
      have hfailed : (s.chan c).failedNow = true := decide_eq_true hdown
      rw [mach_port, harmed, Bool.and_true]
      exact Bool.and_eq_true_iff.mpr ⟨hup, hfailed⟩
    exact if_pos hgoes
  · have hfails : squareFails kind rail reading = true := by
      rcases hkind with rfl | rfl | rfl <;> rfl
    have hne : kind ≠ 4#4 := by rcases hkind with rfl | rfl | rfl <;> decide
    refine congrArg Host.Outcome.next ((squareFail_fails hup hfails).trans ?_)
    dsimp only
    rw [if_neg hne, if_neg hne, arrive_with hroom]
  · subst hkind
    have hwithin : squareFails 4#4 rail reading = false := by
      rw [squareFails_rail, decide_eq_false_iff_not]
      omega
    refine congrArg Host.Outcome.next ?_
    exact if_pos (by rw [hwithin]; simp)
  · subst hkind
    have hfails : squareFails 4#4 rail reading = true := by
      rw [squareFails_rail, decide_eq_true hout]
    refine congrArg Host.Outcome.next ((squareFail_fails hup hfails).trans ?_)
    dsimp only
    have hfirst := arrive_first (l := s.square.led) (show s.square.led.staging.length < 16 by omega)
    rw [if_pos rfl, if_pos rfl, hfirst, arrive_with (by simp; omega)]
    cases rail <;> rfl
end Sys2Proof.Machine
end

section
/-! The display engine's scan at an unplug (R451, R453). -/
namespace Sys2Proof.Machine

/-- A running channel whose display engine is on, its panel plugged in and out of self refresh, in the middle of a frame. -/
def midFrameState : State :=
  let ch := State.reset.chan 0
  State.reset.setChan 0 { ch with
    life := { ch.life with cond := .running, power := .run }
    straps := ch.straps.set 7 { ch.straps[7] with level := 1#3 }
    disp := { ch.disp with hpd := true, psr := false, scan := some { row := 5, plane := 0, k := 2 } } }
/-- The scan position of a channel's display engine after a command. -/
def scanAfter (i : Instr) (s : State) (c : Chan) : Option (Option ScanPos) :=
  match exec i s with
  | .next s' => some (s'.chan c).disp.scan
  | _ => none
/-- What the claim asks of a state before the panel is unplugged. -/
theorem midFrameState_on : (midFrameState.chan 0).life.cond = .running ∧ (midFrameState.chan 0).dispOn = true ∧ (midFrameState.chan 0).disp.psr = false := by
  and_intros <;> decide +kernel
/-- An unplug leaves the scan of the frame under way where it was. -/
theorem hpd_midFrame : scanAfter (.hpd 0 0#2) midFrameState 0 = some (some { row := 5, plane := 0, k := 2 }) := by decide +kernel
/-- Refutes O53: an unplug in the middle of a frame keeps the place of the next display read (the record that stores HPD and DLRES is taken
from the engine as it was before scan-out stopped), where the claim has none. -/
theorem not_displayEngine : ¬ Obligations.DisplayEngine := by
  intro h
  obtain ⟨-, -, -, hrunning⟩ := h midFrameState 0
  obtain ⟨hrun, hon, hpsr⟩ := midFrameState_on
  obtain ⟨hplug, -⟩ := hrunning hrun
  obtain ⟨-, hunplug, -⟩ := hplug hon
  obtain ⟨hclaim, -⟩ := hunplug hpsr
  have hafter : scanAfter (.hpd 0 0#2) midFrameState 0 = some none := by
    rw [scanAfter, show exec (.hpd 0 0#2) midFrameState = _ from hclaim]
    simp only [chan_setChan]
    unfold Channel.raisedIf
    split <;> rfl
  rw [hpd_midFrame] at hafter
  exact absurd hafter (by decide)

end Sys2Proof.Machine
end

section
/-! Backlight, light sensor, keys, encoders, pins, buzzers and I²C (20). -/
namespace Sys2Proof.Machine

section
variable {s : State} {c : Chan}

/-! ### Program stores to a unit's page -/

/-- A write of a window register leaves the others. -/
theorem winGet_winPut_ne (ch : Channel) (o : Nat) (v : Payload) {k : Nat} (hk : k ≠ o) : winGet (winPut ch o v) k = winGet ch k := by
  unfold winGet winPut
  dsimp only
  split
  · rw [mapGet_mapDel_ne _ _ _ hk]
  · rw [mapGet_mapPut_ne _ _ _ _ hk]
/-- A program's store to a unit's page that changes the channel alone. -/
theorem programStore_channel {p : Nat} {f : Mach → Mach} {x : Channel} (h : s.awake c) (hf : f ((s.mach c).takePage p) = { s.mach c with ch := x }) :
    s.programStore c p f = s.setChan c x := by
  refine onMach_channel s c _ x ?_
  rw [if_pos (programs_of_awake h), hf]
theorem fastOn_of {m : Mach} (hrun : m.ch.life.cond = .running) (hfast : m.ch.life.power ≠ .sleep) : m.fastOn = true := by
  unfold Mach.fastOn
  rw [decide_eq_true hrun, decide_eq_true hfast]
  rfl
theorem panelOn_of {m : Mach} (hrun : m.ch.life.cond = .running) : m.panelOn = true := decide_eq_true hrun

/-! ### Backlight and ambient light (R460, R461) -/

/-- The derating limit of a code, by cases. -/
theorem deratingLimit_eq {code start full floor l : Nat} (hshort : code < 4 → l = floor)
    (hmeasured : 4 ≤ code → (start ≤ full ∨ start ≤ code → l = 4095) ∧ (full < start → code ≤ full → l = floor) ∧
      (full < code → code < start → l = floor + (4095 - floor) * (code - full) / (start - full))) : deratingLimit code start full floor = l := by
  unfold deratingLimit
  split
  · next h => exact (hshort h).symm
  next h =>
    obtain ⟨hfull, hfloor, hbetween⟩ := hmeasured (by omega)
    split
    · next h1 => exact (hfull (.inl h1)).symm
    split
    · next h1 h2 => exact (hfull (.inr h2)).symm
    split
    · next h1 h2 h3 => exact (hfloor (by omega) h3).symm
    · next h1 h2 h3 => exact (hbetween (by omega) (by omega)).symm
/-- A signal raised leaves the window registers. -/
@[simp] theorem winGet_raisedIf (ch : Channel) (en : Bool) (v : Nat) (a : Cell) (o : Nat) : winGet (ch.raisedIf en v a) o = winGet ch o := by cases en <;> rfl
/-- A signal of a condition and its enable. -/
theorem raiseIf_where (m : Mach) (p : Prop) [Decidable p] (q : Bool) (v : Nat) (a : Cell) :
    (if p then m.raiseIf q v a else m) = { m with ch := m.ch.raisedIf (q && decide p) v a } := by
  by_cases hp : p
  · rw [if_pos hp, raiseIf_raisedIf, decide_eq_true hp, Bool.and_true]
  · rw [if_neg hp, decide_eq_false hp, Bool.and_false]
    rfl
/-- The channel as an NTC measurement with its limit leaves it. -/
def Channel.derated (ch : Channel) (code : BitVec 10) (l : Nat) : Channel :=
  ({ ch with panel := { ch.panel with limit := BitVec.ofNat 12 l, ntc := code } }.raisedIf
    (bit (winGet ch 0x14000) 8 && decide (code < 4#10)) 232 (fix (code.setWidth 24))).raisedIf
      (bit (winGet ch 0x14000) 9 && (decide (ch.panel.limit = 4095#12) != decide (l = 4095))) 233 (fixN l)
theorem ntcMeasured_derates {m : Mach} (hrun : m.ch.life.cond = .running) {code : BitVec 10} {l : Nat}
    (hl : deratingLimit code.toNat (bits (winGet m.ch 0x14006) 0 10) (bits (winGet m.ch 0x14007) 0 10) (bits (winGet m.ch 0x14008) 0 12) = l) :
    m.ntcMeasured code = { m with ch := m.ch.derated code l } := by
  have hcross : decide ((m.ch.panel.limit = 4095#12) ≠ (l = 4095)) = (decide (m.ch.panel.limit = 4095#12) != decide (l = 4095)) := by
    by_cases h1 : m.ch.panel.limit = 4095#12 <;> by_cases h2 : l = 4095 <;> simp [h1, h2]
  unfold Mach.ntcMeasured
  dsimp only
  rw [panelOn_of hrun, hl, if_neg (by decide), raiseIf_where, raiseIf_where, hcross]
  dsimp only
  unfold winBit
  rw [winGet_raisedIf]
  rfl
theorem alsPoll_polls {m : Mach} (hrun : m.ch.life.cond = .running) (hon : bit (winGet m.ch 0x14009) 23 = true) (hfast : m.ch.life.power ≠ .sleep)
    (hi2c : m.ch.panel.i2c = none) (ok : Bool) (value : BitVec 16) :
    m.alsPoll ok value =
      if ok then ({ m with ch := winPut m.ch 0x1400A (1#1 ++ 0#7 ++ value : BitVec 24) } : Mach).raiseIf (winBit m.ch 0x14000 3) 216 (fix (1#1 ++ 0#7 ++ value : BitVec 24))
      else { m with ch := winPut m.ch 0x1400A (setBit (winGet m.ch 0x1400A) 23 false) } := by
  have hpolls : (m.panelOn && winBit m.ch 0x14009 23 && decide (m.ch.life.power ≠ .sleep) && m.ch.panel.i2c.isNone) = true := by
    rw [panelOn_of hrun, show winBit m.ch 0x14009 23 = true from hon, decide_eq_true hfast, hi2c]
    rfl
  unfold Mach.alsPoll
  rw [if_pos hpolls]

/-! ### Keys (R462) -/

theorem bit_setBit {w : Nat} (p : BitVec w) (i j : Nat) (b : Bool) (hi : i < w) : bit (setBit p i b) j = if j = i then b else bit p j := by
  unfold bit setBit
  by_cases hj : j = i
  · subst hj
    cases b <;> simp [hi]
  · have hone : (1#w <<< i).getLsbD j = false := by
      rw [BitVec.getLsbD_shiftLeft, BitVec.getLsbD_one]
      simp; omega
    rw [if_neg hj]
    cases b <;> simp [hone]
    intro h
    exact BitVec.lt_of_getLsbD h
/-- The scan of one key. -/
def Mach.scanKey (m : Mach) (pressed : BitVec 64) (n : Nat) : Mach :=
  let ctl := winGet m.ch 0x16000
  if bits ctl 4 3 < n / 8 || bits ctl 8 3 < n % 8 then m
  else if bit pressed n = bit m.ch.panel.keys n then { m with ch.panel.disagree := mapDel m.ch.panel.disagree n }
  else
    let cnt := mapAt 0 m.ch.panel.disagree n + 1
    if max 1 (bits ctl 12 4) ≤ cnt then
      ({ m with ch.panel := { m.ch.panel with disagree := mapDel m.ch.panel.disagree n, keys := setBit m.ch.panel.keys n (bit pressed n) } } : Mach).keyEvent
        (bit pressed n) (Fin.ofNat 64 n)
    else { m with ch.panel.disagree := mapPut m.ch.panel.disagree n cnt }
theorem scanKeys_succ (pressed : BitVec 64) (k n : Nat) (m : Mach) : m.scanKeys pressed n (k + 1) = (m.scanKey pressed n).scanKeys pressed (n + 1) k := rfl
/-- Scanning two runs of keys one after the other. -/
theorem scanKeys_append (pressed : BitVec 64) (k2 : Nat) : ∀ (k1 n : Nat) (m : Mach),
    m.scanKeys pressed n (k1 + k2) = (m.scanKeys pressed n k1).scanKeys pressed (n + k1) k2
  | 0, n, m => by rw [Nat.zero_add]; rfl
  | k1 + 1, n, m => by
    rw [Nat.succ_add, scanKeys_succ, scanKeys_succ, scanKeys_append pressed k2 k1 (n + 1), Nat.succ_add_eq_add_succ]
/-- A key that reads as it stands and is not in the midst of a change. -/
theorem scanKey_quiet {m : Mach} {pressed : BitVec 64} {n : Nat} (hkeys : bit pressed n = bit m.ch.panel.keys n)
    (hdis : mapDel m.ch.panel.disagree n = m.ch.panel.disagree) : m.scanKey pressed n = m := by
  unfold Mach.scanKey
  dsimp only
  rw [if_pos hkeys, hdis]
  split <;> rfl
theorem scanKeys_quiet (pressed : BitVec 64) : ∀ (k n : Nat) (m : Mach), (∀ j, n ≤ j → j < n + k → bit pressed j = bit m.ch.panel.keys j ∧
    mapDel m.ch.panel.disagree j = m.ch.panel.disagree) → m.scanKeys pressed n k = m
  | 0, _, _, _ => rfl
  | k + 1, n, m, h => by
    obtain ⟨hkeys, hdis⟩ := h n (Nat.le_refl n) (by omega)
    rw [scanKeys_succ, scanKey_quiet hkeys hdis]
    exact scanKeys_quiet pressed k (n + 1) m (fun j hlo hhi => h j (by omega) (by omega))
/-- A scan in which one key alone disagrees. -/
theorem scanKeys_one {m m' : Mach} {pressed : BitVec 64} {n : Nat} (hn : n < 64) (hstep : m.scanKey pressed n = m')
    (hbefore : ∀ j, j < n → bit pressed j = bit m.ch.panel.keys j ∧ mapDel m.ch.panel.disagree j = m.ch.panel.disagree)
    (hafter : ∀ j, n < j → bit pressed j = bit m'.ch.panel.keys j ∧ mapDel m'.ch.panel.disagree j = m'.ch.panel.disagree) :
    m.scanKeys pressed 0 64 = m' := by
  have hcount : 64 = n + (63 - n + 1) := by omega
  rw [hcount, scanKeys_append, scanKeys_quiet pressed n 0 m (fun j _ hj => hbefore j (by omega)), Nat.zero_add, scanKeys_succ, hstep]
  exact scanKeys_quiet pressed _ _ m' (fun j hlo _ => hafter j hlo)
/-- A key event that enters the queue, or is lost (R462). -/
theorem keyEvent_eq (m : Mach) (press : Bool) (k : Fin 64) : m.keyEvent press k =
    if m.ch.panel.keyq.length < 16 then
      { m with ch := Channel.raisedIf { m.ch with panel := { m.ch.panel with keyq := m.ch.panel.keyq ++ [(press, k)] } } (bit (winGet m.ch 0x16000) 16 && m.ch.panel.keyq.isEmpty) 168 fix0 }
    else { m with ch := m.ch.raisedIf (bit (winGet m.ch 0x16000) 17) 169 fix0 } := by
  unfold Mach.keyEvent
  dsimp only
  split
  · rw [raiseIf_where, Bool.decide_eq_true]
    rfl
  · rw [raiseIf_raisedIf]
    rfl
theorem keyEvent_keeps (m : Mach) (press : Bool) (k : Fin 64) :
    (m.keyEvent press k).ch.panel.keys = m.ch.panel.keys ∧ (m.keyEvent press k).ch.panel.disagree = m.ch.panel.disagree := by
  rw [keyEvent_eq]
  split
  · unfold Channel.raisedIf
    split <;> exact ⟨rfl, rfl⟩
  · unfold Channel.raisedIf
    split <;> exact ⟨rfl, rfl⟩
/-- The count of a key's disagreeing scans, in a map that holds no other. -/
def disagreeing (n k : Nat) : NMap Nat := if k = 0 then [] else [(n, k)]
theorem mapDel_disagreeing {n k j : Nat} (hj : j ≠ n) : mapDel (disagreeing n k) j = disagreeing n k := by
  unfold disagreeing
  split
  · rfl
  · simp [mapDel, hj.symm]
theorem mapDel_disagreeing_same (n k : Nat) : mapDel (disagreeing n k) n = [] := by
  unfold disagreeing
  split
  · rfl
  · simp [mapDel]
theorem mapPut_disagreeing (n k j : Nat) : mapPut (disagreeing n k) n j = [(n, j)] := by
  unfold disagreeing
  split
  · rfl
  · simp [mapPut]
theorem mapAt_disagreeing (n k : Nat) : mapAt 0 (disagreeing n k) n = k := by
  unfold disagreeing mapAt
  split
  · next h => exact h.symm
  · simp [mapGet]

theorem keyScan_before {m : Mach} {n : Fin 64} {k : Nat} (hdis : m.ch.panel.disagree = disagreeing n.val k) (j : Nat) (hj : j ≠ n.val) :
    bit (setBit m.ch.panel.keys n.val (!bit m.ch.panel.keys n.val)) j = bit m.ch.panel.keys j ∧ mapDel m.ch.panel.disagree j = m.ch.panel.disagree := by
  rw [bit_setBit _ _ _ _ n.isLt, if_neg hj, hdis, mapDel_disagreeing hj]
  exact ⟨rfl, rfl⟩
section
variable {m : Mach} {n : Fin 64} {k : Nat} (hrow : n.val / 8 ≤ bits (winGet m.ch 0x16000) 4 3) (hcol : n.val % 8 ≤ bits (winGet m.ch 0x16000) 8 3)
  (hdis : m.ch.panel.disagree = disagreeing n.val k)
include hrow hcol hdis
theorem scanKey_disagrees :
    m.scanKey (setBit m.ch.panel.keys n.val (!bit m.ch.panel.keys n.val)) n.val =
      if max 1 (bits (winGet m.ch 0x16000) 12 4) ≤ k + 1 then
        ({ m with ch.panel := { m.ch.panel with disagree := [], keys := setBit m.ch.panel.keys n.val (!bit m.ch.panel.keys n.val) } } : Mach).keyEvent
          (!bit m.ch.panel.keys n.val) n
      else { m with ch.panel.disagree := [(n.val, k + 1)] } := by
  have hnow : bit (setBit m.ch.panel.keys n.val (!bit m.ch.panel.keys n.val)) n.val = !bit m.ch.panel.keys n.val := by
    rw [bit_setBit _ _ _ _ n.isLt, if_pos rfl]
  unfold Mach.scanKey
  dsimp only
  rw [if_neg (by simp; omega), hnow, if_neg (by simp), hdis, mapAt_disagreeing, mapDel_disagreeing_same, mapPut_disagreeing]
  congr 1
  rw [show Fin.ofNat 64 n.val = n from Fin.ext (Nat.mod_eq_of_lt n.isLt)]
/-- The key goes on disagreeing. -/
theorem scanKeys_counts (hk : k + 1 < max 1 (bits (winGet m.ch 0x16000) 12 4)) :
    m.scanKeys (setBit m.ch.panel.keys n.val (!bit m.ch.panel.keys n.val)) 0 64 = { m with ch.panel.disagree := [(n.val, k + 1)] } := by
  refine scanKeys_one n.isLt ((scanKey_disagrees hrow hcol hdis).trans (if_neg (by omega))) (fun j hj => keyScan_before hdis j (by omega)) (fun j hj => ?_)
  obtain ⟨hkeys, -⟩ := keyScan_before hdis j (by omega)
  exact ⟨hkeys, mapDel_disagreeing (k := k + 1) (show j ≠ n.val by omega)⟩
/-- The key has changed. -/
theorem scanKeys_changes (hk : max 1 (bits (winGet m.ch 0x16000) 12 4) ≤ k + 1) :
    m.scanKeys (setBit m.ch.panel.keys n.val (!bit m.ch.panel.keys n.val)) 0 64 =
      ({ m with ch.panel := { m.ch.panel with disagree := [], keys := setBit m.ch.panel.keys n.val (!bit m.ch.panel.keys n.val) } } : Mach).keyEvent
          (!bit m.ch.panel.keys n.val) n := by
  refine scanKeys_one n.isLt ((scanKey_disagrees hrow hcol hdis).trans (if_pos hk)) (fun j hj => keyScan_before hdis j (by omega)) (fun j hj => ?_)
  obtain ⟨hkeys, hempty⟩ := keyEvent_keeps ({ m with ch.panel := { m.ch.panel with disagree := [], keys := setBit m.ch.panel.keys n.val (!bit m.ch.panel.keys n.val) } } : Mach)
    (!bit m.ch.panel.keys n.val) n
  rw [hkeys, hempty]
  exact ⟨rfl, rfl⟩
end

/-- A scan of the matrix while KCTL.EN is 1. -/
theorem keyScan_turns {seen : BitVec 64} {x : Channel} (hrun : (s.chan c).life.cond = .running) (hon : bit (winGet (s.chan c) 0x16000) 0 = true)
    (h : (s.mach c).scanKeys seen 0 64 = { s.mach c with ch := x }) : turnsTo (.keyScan c seen) s c x := by
  refine congrArg Host.Outcome.next (onMach_channel s c (fun m => if m.panelOn && winBit m.ch 0x16000 0 then m.scanKeys seen 0 64 else m) x ?_)
  have hwork : ((s.mach c).panelOn && winBit (s.mach c).ch 0x16000 0) = true := by
    rw [panelOn_of hrun, show winBit (s.mach c).ch 0x16000 0 = true from hon]
    rfl
  exact (if_pos hwork).trans h

/-! ### Encoders (R463) -/

/-- One line of an encoder changes: a step up for A leading B, else down. -/
theorem quadStep_one {ya yb a b : Bool} (h : ya = a ↔ yb ≠ b) (count n : BitVec 16)
    (hup : (ya, yb, a, b) ∈ [(false, false, true, false), (true, false, true, true), (true, true, false, true), (false, true, false, false)] → n = count + 1#16)
    (hdown : (ya, yb, a, b) ∉ [(false, false, true, false), (true, false, true, true), (true, true, false, true), (false, true, false, false)] → n = count - 1#16) :
    count + BitVec.ofInt 16 (quadStep ya yb a b) = n := by
  have hstep : quadStep ya yb a b = if (ya, yb, a, b) ∈ [(false, false, true, false), (true, false, true, true), (true, true, false, true), (false, true, false, false)]
      then 1 else -1 := by
    clear hup hdown
    revert ya yb a b
    decide
  rw [hstep]
  split
  · next hin => exact (hup hin).symm
  · next hin =>
    rw [hdown hin, BitVec.sub_eq_add_neg]
    rfl
theorem encoderMove_steps {m : Mach} {e : Fin 4} {a b : Bool} (hrun : m.ch.life.cond = .running) (hon : bit (winGet m.ch 0x1600C) e.val = true)
    (h : m.ch.panel.enc[e].a = a ↔ m.ch.panel.enc[e].b ≠ b) {n : BitVec 16} (hn : m.ch.panel.enc[e].count + BitVec.ofInt 16 (quadStep m.ch.panel.enc[e].a m.ch.panel.enc[e].b a b) = n) :
    m.encoderMove e a b = { m with ch := Channel.raisedIf { m.ch with panel := { m.ch.panel with enc := m.ch.panel.enc.set e { m.ch.panel.enc[e] with a := a, b := b, count := n } } } (bit (winGet m.ch 0x1600C) (4 + e.val)) (184 + e.val) (fix (n.setWidth 24)) } := by
  have hwork : (m.panelOn && winBit m.ch 0x1600C e.val) = true := by
    rw [panelOn_of hrun, show winBit m.ch 0x1600C e.val = true from hon]
    rfl
  unfold Mach.encoderMove
  dsimp only
  rw [hwork, if_neg (by simp; tauto), if_neg (by simp; tauto), hn]
  exact raiseIf_raisedIf _ _ _ _
theorem encoderMove_both {m : Mach} {e : Fin 4} {a b : Bool} (hrun : m.ch.life.cond = .running) (hon : bit (winGet m.ch 0x1600C) e.val = true)
    (ha : m.ch.panel.enc[e].a ≠ a) (hb : m.ch.panel.enc[e].b ≠ b) :
    m.encoderMove e a b = { m with ch.panel.enc := m.ch.panel.enc.set e { m.ch.panel.enc[e] with a := a, b := b, err := upTo m.ch.panel.enc[e].err } } := by
  have hwork : (m.panelOn && winBit m.ch 0x1600C e.val) = true := by
    rw [panelOn_of hrun, show winBit m.ch 0x1600C e.val = true from hon]
    rfl
  unfold Mach.encoderMove
  dsimp only
  rw [hwork, if_neg (by simpa using fun he => absurd he ha), if_pos (by simpa using ⟨ha, hb⟩), satInc_eq_upTo]

/-! ### Pins, buzzers and the key queue (R462, R464, R465) -/

theorem gpioEdge_samples {m : Mach} {pin : Fin 8} {level : Bool} (hrun : m.ch.life.cond = .running) (hedge : bit m.ch.panel.gpin pin.val ≠ level) :
    m.gpioEdge pin level = { m with ch := Channel.raisedIf { m.ch with panel := { m.ch.panel with gpin := setBit m.ch.panel.gpin pin.val level } } (bit (winGet m.ch 0x16015) (2 * pin.val + if level then 0 else 1)) (192 + pin.val) (if level then fixN 1 else fix0) } := by
  unfold Mach.gpioEdge
  rw [if_neg (by simpa [panelOn_of hrun] using hedge)]
  refine (raiseIf_raisedIf _ _ _ _).trans ?_
  cases level <;> rfl
/-- The duration register of a buzzer. -/
theorem bzReg_duration (k : Fin 2) : bzReg k + 2 = 0x1601A + 3 * k.val := by
  unfold bzReg
  omega
theorem readKevt_pops {m : Mach} {p : Bool} {k : Fin 64} {r : List (Bool × Fin 64)} (h : m.ch.panel.keyq = (p, k) :: r) :
    m.readKevt.2 = { m with ch.panel.keyq := r } := by rw [Mach.readKevt, h]
theorem readKevt_empty {m : Mach} (h : m.ch.panel.keyq = []) : m.readKevt.2 = m := by rw [Mach.readKevt, h]

/-! ### I²C (R467) -/

/-- The channel once an I²C transaction has ended. -/
def Channel.i2cEnded (ch : Channel) (result : BitVec 3) : Channel :=
  Channel.raisedIf { ch with panel := { ch.panel with i2c := none, i2cResult := result } } (bit (winGet ch 0x18000) 8) 224 (fix (result.setWidth 24))
theorem i2cDone_ends {m : Mach} {result : BitVec 3} {rlen : BitVec 4} {reply : List Byte} (hi2c : m.ch.panel.i2c = some rlen)
    (hno : result ≠ 0#3 ∨ rlen = 0#4) : m.i2cDone result reply = { m with ch := m.ch.i2cEnded result } := by
  have hbytes : (if result = 0#3 then { m with ch := putBytes3 m.ch 0x18008 (pack3 (reply.take (min 8 rlen.toNat))) } else m : Mach) = m := by
    rcases hno with hres | rfl
    · rw [if_neg hres]
    · simp [pack3, putBytes3]
  unfold Mach.i2cDone
  rw [hi2c]
  dsimp only
  rw [hbytes]
  exact raiseIf_raisedIf _ _ _ _
theorem i2cDone_reads {m : Mach} {b0 b1 : Byte} (hi2c : m.ch.panel.i2c = some 2#4) : m.i2cDone 0#3 [b0, b1] =
    { m with ch := Channel.raisedIf { winPut m.ch 0x18008 (0#8 ++ b1 ++ b0 : BitVec 24) with panel := { m.ch.panel with i2c := none, i2cResult := 0#3 } } (bit (winGet m.ch 0x18000) 8) 224 fix0 } := by
  unfold Mach.i2cDone
  rw [hi2c]
  dsimp only
  rw [if_pos rfl]
  refine (raiseIf_raisedIf _ _ _ _).trans ?_
  have hbit : winBit (winPut m.ch 0x18008 (0#8 ++ b1 ++ b0 : BitVec 24)) 0x18000 8 = bit (winGet m.ch 0x18000) 8 := by
    unfold winBit
    rw [winGet_winPut_ne _ _ _ (by decide)]
  rw [← hbit]
  rfl

end

/-- Settles O54, unit by unit. -/
theorem panelUnits : Obligations.PanelUnits := by
  intro s c
  dsimp only
  refine ⟨fun hrun => ⟨fun code l hshort hmeasured => ?_, fun value hon hfast hi2c => ⟨?_, ?_⟩, fun n k hon hrow hcol hdis => ⟨fun hk => ?_, fun hk => ⟨fun hroom => ?_, fun hfull => ?_⟩⟩,
      fun e a b hon => ⟨fun ha hb => ?_, fun hone n hup hdown => ?_⟩, fun pin level => ⟨fun hsame => ?_, fun hedge => ?_⟩, ?_, fun k => ⟨fun hz => ?_, fun hz => ?_⟩,
      fun result rlen reply hfast hi2c hno => ?_, fun b0 b1 hfast hi2c => ?_⟩,
    fun hawake => ⟨fun p k r hq => ?_, fun hq => ?_, fun k duty => ⟨?_, ?_⟩, fun addr wlen rlen => ⟨fun hi2c => ?_, fun hi2c => ?_⟩⟩⟩
  · have hl := deratingLimit_eq (fun h => hshort (BitVec.lt_def.mpr h)) (fun h => hmeasured (BitVec.le_def.mpr h))
    exact congrArg Host.Outcome.next (onMach_channel s c (fun m => m.ntcMeasured code) _ (ntcMeasured_derates hrun hl))
  · have hpoll := (alsPoll_polls (m := s.mach c) hrun hon hfast hi2c true value).trans (if_pos rfl)
    exact congrArg Host.Outcome.next (onMach_channel s c (fun m => m.alsPoll true value) _ (hpoll.trans (raiseIf_raisedIf _ _ _ _)))
  · have hpoll := (alsPoll_polls (m := s.mach c) hrun hon hfast hi2c false value).trans (if_neg Bool.false_ne_true)
    exact congrArg Host.Outcome.next (onMach_channel s c (fun m => m.alsPoll false value) _ hpoll)
  · exact keyScan_turns hrun hon (scanKeys_counts (m := s.mach c) hrow hcol hdis hk)
  · refine keyScan_turns hrun hon ((scanKeys_changes (m := s.mach c) hrow hcol hdis hk).trans ?_)
    exact (keyEvent_eq _ _ n).trans (if_pos hroom)
  · refine keyScan_turns hrun hon ((scanKeys_changes (m := s.mach c) hrow hcol hdis hk).trans ?_)
    exact (keyEvent_eq _ _ n).trans (if_neg (show ¬ (s.chan c).panel.keyq.length < 16 by omega))
  · exact congrArg Host.Outcome.next (onMach_channel s c (fun m => m.encoderMove e a b) _ (encoderMove_both hrun hon ha hb))
  · have hn := quadStep_one hone (s.chan c).panel.enc[e].count n hup hdown
    exact congrArg Host.Outcome.next (onMach_channel s c (fun m => m.encoderMove e a b) _ (encoderMove_steps (m := s.mach c) hrun hon hone hn))
  · refine congrArg Host.Outcome.next (onMach_id s c (fun m => m.gpioEdge pin level) ?_)
    exact if_pos (by simpa using .inr (decide_eq_true hsame))
  · exact congrArg Host.Outcome.next (onMach_channel s c (fun m => m.gpioEdge pin level) _ (gpioEdge_samples hrun hedge))
  · have hwork : (s.mach c).panelOn = true := panelOn_of hrun
    refine congrArg Host.Outcome.next (onMach_channel s c (fun m => m.raiseIf (m.panelOn && winBit m.ch 0x0403 1) 223 fix0) _ ?_)
    rw [hwork]
    exact raiseIf_raisedIf _ _ _ _
  · refine congrArg Host.Outcome.next (onMach_id s c (fun m => if m.panelOn && winGet m.ch (bzReg k + 2) ≠ 0#24 then m.buzzerStop k else m) ?_)
    exact if_neg (by rw [mach_ch, bzReg_duration, hz]; simp)
  · refine congrArg Host.Outcome.next (onMach_channel s c (fun m => if m.panelOn && winGet m.ch (bzReg k + 2) ≠ 0#24 then m.buzzerStop k else m) _ ?_)
    exact if_pos (by rw [mach_ch, bzReg_duration, panelOn_of hrun]; simpa using hz)
  · refine congrArg Host.Outcome.next (onMach_channel s c (fun m => if m.fastOn then m.i2cDone result reply else m) _ ?_)
    exact (if_pos (fastOn_of hrun hfast)).trans (i2cDone_ends hi2c hno)
  · refine congrArg Host.Outcome.next (onMach_channel s c (fun m => if m.fastOn then m.i2cDone 0#3 [b0, b1] else m) _ ?_)
    exact (if_pos (fastOn_of hrun hfast)).trans (i2cDone_reads hi2c)
  · exact congrArg Host.Outcome.next (program_channel (f := fun m => m.readKevt.2) hawake (readKevt_pops hq))
  · exact congrArg Host.Outcome.next ((program_onMach (fun m => m.readKevt.2) hawake).trans (onMach_id s c _ (readKevt_empty hq)))
  · exact congrArg Host.Outcome.next (programStore_channel (f := fun m => m.buzzerStart k duty) hawake rfl)
  · exact congrArg Host.Outcome.next (programStore_channel (f := fun m => m.buzzerStop k) hawake rfl)
  · refine congrArg Host.Outcome.next (programStore_channel (f := fun m => m.i2cStart addr wlen rlen) hawake ?_)
    exact if_pos (show (s.chan c).panel.i2c.isNone = true by rw [hi2c]; rfl)
  · refine congrArg Host.Outcome.next (programStore_channel (f := fun m => m.i2cStart addr wlen rlen) hawake ?_)
    exact if_neg (show ¬ (s.chan c).panel.i2c.isNone = true by simpa using hi2c)
end Sys2Proof.Machine
end

section
/-! The boot sequence (06). -/
namespace Sys2Proof.Machine

/-- The channel with a class 0x0C record of its round (R142). -/
def Channel.bootNoted (ch : Channel) (d : BitVec 32) : Channel :=
  { ch with boot := { ch.boot with round := ch.boot.round ++ [d] } }.recorded 0x0C#6 false false d

section
variable {s : State} {c : Chan} {m : Mach}

/-! ### Records of a round -/

theorem bootDetail_eq (slot : Fin 2) (result : BitVec 3) (sect : Nat) : bootDetail slot result sect = bootRec slot result (BitVec.ofNat 16 sect) := rfl
/-- A record of the first round is queued at once (R142). -/
theorem bootRecord_notes (hroom : m.ch.led.staging.length < 16) (hprev : m.ch.boot.prev = none) (d : BitVec 32) :
    m.bootRecord d = { m with ch := m.ch.bootNoted d } := by
  have hnone : m.ch.boot.prev.isNone = true := by rw [hprev]; rfl
  unfold Mach.bootRecord
  dsimp only
  rw [if_pos hnone]
  exact report_recorded (cls := 0x0C#6) (m := { m with ch.boot.round := m.ch.boot.round ++ [d] }) false false hroom (by decide)
/-- A first round that has failed (R142). -/
theorem roundFailed_first (hprev : m.ch.boot.prev = none) : m.roundFailed = { m with ch.boot := { m.ch.boot with
    stage := .failed, prev := some m.ch.boot.round, round := [], order := [], flash := none, waited := 0, gone := 0#2 } } := by
  unfold Mach.roundFailed
  dsimp only
  rw [hprev]
  rfl
/-- The slot under way fails, and the other is still to be tried. -/
theorem slotFailed_next (hroom : m.ch.led.staging.length < 16) (hprev : m.ch.boot.prev = none) (horder : m.ch.boot.order ≠ []) (result : BitVec 3) (sect : Nat) :
    m.slotFailed result sect = { m with ch := Channel.recorded { m.ch with boot := { m.ch.boot with stage := .attempt, round := m.ch.boot.round ++ [bootRec m.ch.boot.slot result (BitVec.ofNat 16 sect)] } } 0x0C#6 false false (bootRec m.ch.boot.slot result (BitVec.ofNat 16 sect)) } := by
  obtain ⟨n, rest, horder'⟩ := List.exists_cons_of_ne_nil horder
  have hkept : (m.ch.bootNoted (bootDetail m.ch.boot.slot result sect)).boot.order = n :: rest := horder'
  unfold Mach.slotFailed
  dsimp only
  rw [bootRecord_notes hroom hprev]
  dsimp only
  split
  · next hnil => exact absurd (hkept.symm.trans hnil) (List.cons_ne_nil n rest)
  · rfl
/-- The flash is not found in a first round (R131, R132). -/
theorem noFlash_fails (hroom : m.ch.led.staging.length < 15) (hprev : m.ch.boot.prev = none) :
    m.noFlash = { m with ch := { ((m.ch.recorded 0x0C#6 false false (bootRec 0 5#3 0#16)).recorded 0x0C#6 false false (bootRec 1 5#3 0#16)) with boot := { m.ch.boot with stage := .failed, prev := some (m.ch.boot.round ++ [bootRec 0 5#3 0#16, bootRec 1 5#3 0#16]), round := [], order := [], flash := none, waited := 0, gone := 0#2 } } } := by
  have hroom' : (m.ch.bootNoted (bootDetail 0 5#3 0)).led.staging.length < 16 := by
    show (m.ch.led.staging ++ [_]).length < 16
    rw [List.length_append, List.length_singleton]
    omega
  unfold Mach.noFlash
  rw [bootRecord_notes (by omega) hprev, bootRecord_notes (m := { m with ch := m.ch.bootNoted (bootDetail 0 5#3 0) }) hroom' hprev]
  rw [roundFailed_first (by exact hprev)]
  have hround : (m.ch.boot.round ++ [bootDetail 0 5#3 0]) ++ [bootDetail 1 5#3 0] = m.ch.boot.round ++ [bootRec 0 5#3 0#16, bootRec 1 5#3 0#16] := by
    rw [List.append_assoc]
    rfl
  rw [← hround]
  rfl

/-! ### Discovery and time-outs (R131, R132) -/

/-- The lowest permitted mode the flash supports. -/
theorem pickMode_first {level : Nat} {modes : BitVec 6} {k : Fin 6} (hk : level ≤ k.val) (hbit : bit modes k.val = true)
    (hfirst : ∀ j : Fin 6, level ≤ j.val → j < k → bit modes j.val = false) : pickMode level modes = some k := by
  unfold pickMode
  rw [List.find?_eq_some_iff_getElem]
  have hget : ∀ (j : Nat) (hj : j < 6), ([0, 1, 2, 3, 4, 5] : List (Fin 6))[j] = ⟨j, hj⟩ := by
    intro j hj
    interval_cases j <;> rfl
  refine ⟨by simp [hk, hbit], k.val, k.isLt, hget k.val k.isLt, fun j hj => ?_⟩
  have hj6 : j < 6 := hj.trans k.isLt
  rw [hget j hj6]
  by_cases hlevel : level ≤ j
  · rw [hfirst ⟨j, hj6⟩ hlevel hj]
    simp
  · simp [hlevel]
/-- A flash that is not found (R131). -/
theorem discover_absent (hcond : m.ch.life.cond = .booting) (hstage : m.ch.boot.stage = .discover) (density : BitVec 16) (modes : BitVec 6) :
    m.discover false density modes = ({ m with ch.life.taken.flash := true } : Mach).noFlash := by
  have hgo : (decide (m.ch.life.cond = .booting) && decide (m.ch.boot.stage = .discover)) = true := by rw [hcond, hstage]; rfl
  unfold Mach.discover
  rw [if_pos hgo]
  dsimp only
  split <;> rfl
/-- What a time-out comes to at each stage of a boot (R132). -/
theorem flashTimeout_discover (hcond : m.ch.life.cond = .booting) (hstage : m.ch.boot.stage = .discover) : m.flashTimeout = m.noFlash := by
  unfold Mach.flashTimeout
  rw [if_pos hcond, hstage]
theorem flashTimeout_attempt (hcond : m.ch.life.cond = .booting) (hstage : m.ch.boot.stage = .attempt) (horder : m.ch.boot.order = []) :
    m.flashTimeout = m.headerTimeout := by
  unfold Mach.flashTimeout
  rw [if_pos hcond, hstage, horder]
  rfl
theorem flashTimeout_load (hcond : m.ch.life.cond = .booting) (hstage : m.ch.boot.stage = .load) : m.flashTimeout = m.slotFailed 5#3 0 := by
  unfold Mach.flashTimeout
  rw [if_pos hcond, hstage]
/-- A time-out while headers are read: one slot, drawn, is not found (R132, log 67). -/
theorem headerTimeout_loses (hroom : m.ch.led.staging.length < 16) (hprev : m.ch.boot.prev = none) (hgone : m.ch.boot.gone = 0#2) :
    ∃ (n : Fin 2) (r : Nat), m.headerTimeout = { m with free := r, ch := Channel.recorded { m.ch with boot := { m.ch.boot with round := m.ch.boot.round ++ [bootRec n 5#3 0#16], gone := if n = 0 then 1#2 else 2#2 } } 0x0C#6 false false (bootRec n 5#3 0#16) } := by
  refine ⟨if (m.draw 2).1 = 1 then 1 else 0, (m.draw 2).2.free, ?_⟩
  unfold Mach.headerTimeout
  rw [hgone, if_pos rfl]
  dsimp only
  rw [bootRecord_notes (m := (m.draw 2).2) hroom hprev]
  generalize (if (m.draw 2).1 = 1 then 1 else 0 : Fin 2) = n
  have hset : setBit ((m.draw 2).2.ch.bootNoted (bootDetail n 5#3 0)).boot.gone n.val true = if n = 0 then 1#2 else 2#2 := by
    show setBit m.ch.boot.gone n.val true = _
    rw [hgone]
    revert n
    decide
  rw [hset, if_neg ((by decide : ∀ n : Fin 2, ¬ (if n = 0 then 1#2 else 2#2) = 3#2) n)]
  rfl

/-! ### An attempt (R140) -/

/-- The slot attempted and what is left of the round's order. -/
theorem attempt_order {b : Boot} {n : Fin 2} {rest : List (Fin 2)} (h0 h1 : List Byte) (cells : Nat) (hgone : b.gone = 0#2)
    (h : b.order = n :: rest ∨ (b.order = [] ∧ b.known = false ∧ n = 0 ∧ rest = [1])) :
    let order := if b.order.isEmpty then slotOrder b h0 h1 cells else b.order
    order.filter (fun s => !bit b.gone s.val) = n :: rest ∧ (!b.order.isEmpty || decide (order.head? ≠ some n)) = !b.order.isEmpty := by
  have hall (l : List (Fin 2)) : l.filter (fun s => !bit b.gone s.val) = l := by
    rw [hgone]
    exact List.filter_eq_self.mpr (fun s _ => (by decide : ∀ s : Fin 2, (!bit 0#2 s.val) = true) s)
  dsimp only
  rw [hall]
  rcases h with horder | ⟨horder, hknown, rfl, rfl⟩
  · rw [horder]
    exact ⟨rfl, rfl⟩
  · have hfirst : slotOrder b h0 h1 cells = [0, 1] := by
      unfold slotOrder
      rw [hknown]
      rfl
    rw [horder, List.isEmpty_nil, if_pos rfl, hfirst]
    exact ⟨rfl, rfl⟩
theorem satInc_count (p : BitVec 4) : satInc p = if p ≠ 15#4 then p + 1#4 else p := by
  revert p
  decide
/-- A boot record requested leaves the staging queue. -/
theorem request_staging (l : Ledger) (i : Item) : (l.request i).staging = l.staging ∧ (l.request i).lost = l.lost ∧ (l.request i).periods = l.periods := by
  unfold Ledger.request
  split <;> exact ⟨rfl, rfl, rfl⟩
/-- The boot record requested and the attempt's record queued. -/
theorem requested_notes {b : Boot} (hroom : m.ch.led.staging.length < 16) (hprev : b.prev = none) (d : BitVec 32) :
    (({ m with ch.boot := b } : Mach).request .boot).bootRecord d = { m with ch := Channel.bootNoted { m.ch with boot := b, led := m.ch.led.request .boot } d } := by
  obtain ⟨hstaging, -, -⟩ := request_staging m.ch.led .boot
  exact bootRecord_notes (m := { m with ch := { m.ch with boot := b, led := m.ch.led.request .boot } }) (by rw [hstaging]; exact hroom) hprev d
/-- The attempt of a slot: its count, its boot record and its record of result 0. -/
theorem attempt_attempts {h0 h1 : List Byte} {n : Fin 2} {rest : List (Fin 2)} (hroom : m.ch.led.staging.length < 15) (hcond : m.ch.life.cond = .booting)
    (hstage : m.ch.boot.stage = .attempt) (hscan : m.ch.led.scan = false) (hgone : m.ch.boot.gone = 0#2)
    (h : m.ch.boot.order = n :: rest ∨ (m.ch.boot.order = [] ∧ m.ch.boot.known = false ∧ n = 0 ∧ rest = [1])) (hprev : m.ch.boot.prev = none) :
    (m.attempt h0 h1).sq = m.sq ∧ Item.boot ∈ (m.attempt h0 h1).ch.led.items ∧
    (m.attempt h0 h1).ch.led.staging = (m.ch.recorded 0x0C#6 false false (bootRec n 0#3 0#16)).led.staging ∧
    (m.attempt h0 h1).ch.boot = { m.ch.boot with
      stage := .load, order := rest, slot := n, second := !m.ch.boot.order.isEmpty, known := true, lastTried := n, round := m.ch.boot.round ++ [bootRec n 0#3 0#16]
      att0 := if n = 0 ∧ m.ch.boot.att0 ≠ 15#4 then m.ch.boot.att0 + 1#4 else m.ch.boot.att0
      att1 := if n = 1 ∧ m.ch.boot.att1 ≠ 15#4 then m.ch.boot.att1 + 1#4 else m.ch.boot.att1 } := by
  obtain ⟨hfilter, hsecond⟩ := attempt_order h0 h1 m.ch.memCells hgone h
  have hgo : (decide (m.ch.life.cond = .booting) && decide (m.ch.boot.stage = .attempt) && !m.ch.led.scan) = true := by
    rw [hcond, hstage, hscan]
    rfl
  unfold Mach.attempt
  rw [if_pos hgo]
  dsimp only at hfilter hsecond ⊢
  rw [hfilter]
  dsimp only
  rw [hsecond, satInc_count, satInc_count]
  obtain ⟨hstaging, hlost, hperiods⟩ := request_staging m.ch.led .boot
  rw [requested_notes (by omega) (by exact hprev)]
  refine ⟨rfl, mem_request _ _, ?_, ?_⟩
  · show (m.ch.led.request .boot).staging ++ [Staged.error 0x0C#6 false false (mapAt 0#8 (m.ch.led.request .boot).lost _) (BitVec.ofNat 24 ((m.ch.led.request .boot).periods / 32768)) _] = _
    rw [hstaging, hlost, hperiods]
    rfl
  · simp only [ite_and]
    rfl

/-! ### Loading and verifying a slot (R136 to R139) -/

/-- A channel with another's memory. -/
def Mach.withPhys (m : Mach) (x : Phys) : Mach := { m with ch := { m.ch with phys := x } }
/-- Loading and checking the sections changes memory alone. -/
theorem loadSections_phys (img : List Byte) (load : Bool) : ∀ (l : List Sect) (i : Nat) (m : Mach),
    (m.loadSections img load i l).2 = m.withPhys (m.loadSections img load i l).2.ch.phys
  | [], _, _ => rfl
  | x :: r, i, m => by
    have hstep : (if load && x.isCells then m.loadCells x.load (leWords (slice img x.off x.len)) else m) =
        m.withPhys (if load && x.isCells then m.loadCells x.load (leWords (slice img x.off x.len)) else m).ch.phys := by
      split <;> rfl
    unfold Mach.loadSections
    dsimp only
    generalize (if load && x.isCells then m.loadCells x.load (leWords (slice img x.off x.len)) else m) = m1 at hstep
    split
    · exact hstep
    · rw [loadSections_phys img load r (i + 1) m1, hstep]
      rfl
/-- A channel that joins loads nothing (R421). -/
theorem loadSections_joining (img : List Byte) : ∀ (l : List Sect) (i : Nat) (m : Mach), (m.loadSections img false i l).2 = m
  | [], _, _ => rfl
  | x :: r, i, m => by
    unfold Mach.loadSections
    dsimp only
    rw [Bool.false_and, if_neg Bool.false_ne_true]
    split
    · rfl
    · exact loadSections_joining img r (i + 1) m
/-- What verifying a loaded slot comes to, in a first round with the other slot still to be tried. -/
def Channel.verified (ch : Channel) (img : List Byte) : Channel :=
  let fails (result : BitVec 3) : Channel := Channel.recorded { ch with boot := { ch.boot with stage := .attempt, round := ch.boot.round ++ [bootRec ch.boot.slot result 0#16] } } 0x0C#6 false false (bootRec ch.boot.slot result 0#16)
  if imageDigest img ≠ digestField img then fails 3#3
  else if Config.keyFused = true ∧ signed img = false then fails 4#3
  else { ch with boot := { ch.boot with stage := .passed, image := some (imageOf img), round := [], prev := none } }
theorem slotPassed_first (hprev : m.ch.boot.prev = none) (hsecond : m.ch.boot.second = false) (img : List Byte) : m.slotPassed img =
    { m with ch.boot := { m.ch.boot with stage := .passed, image := some (imageOf img), round := [], prev := none } } := by
  have hnone : ¬ m.ch.boot.prev.isSome = true := by rw [hprev]; decide
  unfold Mach.slotPassed
  dsimp only
  rw [if_neg hnone, if_neg (by rw [hsecond]; decide)]
theorem verify_verifies (hroom : m.ch.led.staging.length < 16) (hprev : m.ch.boot.prev = none) (horder : m.ch.boot.order ≠ []) (hsecond : m.ch.boot.second = false)
    (img : List Byte) : (if imageDigest img ≠ digestField img then m.slotFailed 3#3 0 else if Config.keyFused && !signed img then m.slotFailed 4#3 0 else m.slotPassed img) =
      { m with ch := m.ch.verified img } := by
  have hkey : ((Config.keyFused && !signed img) = true) = (Config.keyFused = true ∧ signed img = false) := by simp
  unfold Channel.verified
  dsimp only
  rw [slotFailed_next hroom hprev horder, slotFailed_next hroom hprev horder]
  simp only [hkey]
  split
  · rfl
  · split
    · rfl
    · exact slotPassed_first hprev hsecond img
section
variable {img : List Byte} (hcond : m.ch.life.cond = .booting) (hstage : m.ch.boot.stage = .load) (htrained : m.ch.mc.trained = true) (howes : m.ch.led.owes .boot = false)
include hcond hstage htrained howes
theorem slotLoad_ready : (decide (m.ch.life.cond = .booting) && decide (m.ch.boot.stage = .load) && m.ch.mc.trained && !m.ch.led.owes .boot) = true := by
  rw [hcond, hstage, htrained, howes]
  rfl
theorem slotLoad_unsound (hsound : sound img m.ch.boot.slotSize m.ch.memCells = false) (join : Bool) : m.slotLoad join img = m.slotFailed 2#3 0xFFFF := by
  unfold Mach.slotLoad
  rw [if_pos (slotLoad_ready hcond hstage htrained howes), hsound]
  rfl
theorem slotLoad_bad (hsound : sound img m.ch.boot.slotSize m.ch.memCells = true) {join : Bool} {i : Nat}
    (hbad : (m.loadSections img (!join) 0 (sections img)).1 = some i) :
    m.slotLoad join img = (m.withPhys (m.loadSections img (!join) 0 (sections img)).2.ch.phys).slotFailed 2#3 i := by
  have hphys := loadSections_phys img (!join) (sections img) 0 m
  unfold Mach.slotLoad
  rw [if_pos (slotLoad_ready hcond hstage htrained howes), hsound, if_neg (by decide)]
  generalize m.loadSections img (!join) 0 (sections img) = r at hbad hphys
  obtain ⟨o, n⟩ := r
  subst hbad
  exact congrArg (fun x : Mach => x.slotFailed 2#3 i) hphys
theorem slotLoad_whole (hroom : m.ch.led.staging.length < 16) (hprev : m.ch.boot.prev = none) (horder : m.ch.boot.order ≠ [])
    (hsound : sound img m.ch.boot.slotSize m.ch.memCells = true) {join : Bool} (hwhole : (m.loadSections img (!join) 0 (sections img)).1 = none)
    (hsecond : m.ch.boot.second = false) :
    m.slotLoad join img = { m with ch := (m.loadSections img (!join) 0 (sections img)).2.ch.verified img } := by
  have hphys := loadSections_phys img (!join) (sections img) 0 m
  unfold Mach.slotLoad
  rw [if_pos (slotLoad_ready hcond hstage htrained howes), hsound, if_neg (by decide)]
  generalize m.loadSections img (!join) 0 (sections img) = r at hwhole hphys
  obtain ⟨o, n⟩ := r
  subst hwhole
  dsimp only at hphys ⊢
  rw [hphys]
  exact verify_verifies (m := m.withPhys n.ch.phys) hroom hprev horder hsecond img
end

/-! ### Applying the image, and the first instruction (R143, R146) -/

/-- The calibration section changes the touch front end and its registers alone. -/
theorem applyCal_touch (m : Mach) (cal : Option (List Byte)) :
    m.applyCal cal = { m with ch := { m.ch with touch := (m.applyCal cal).ch.touch, win := (m.applyCal cal).ch.win } } := by
  unfold Mach.applyCal
  dsimp only
  split
  · rfl
  · split <;> rfl
/-- What applying an image changes of its channel. -/
theorem applyImage_applies (m : Mach) (i : Image) (setup : Bool) :
    (m.applyImage i setup).ch.boot = m.ch.boot ∧ (m.applyImage i setup).ch.phys = m.ch.phys ∧
    (m.applyImage i setup).ch.core = m.ch.core.map (fun k => k.loadPatch i.patch) ∧
    (m.applyImage i setup).ch.proc = { m.ch.proc with
      ucver := (Config.romRev ++ (i.patch.map Patch.ident).getD 0#16 : BitVec 24), vbase := BitVec.ofNat 24 i.vpage, attr := i.attr } := by
  unfold Mach.applyImage
  dsimp only
  rw [applyCal_touch]
  split <;> exact ⟨rfl, rfl, rfl, rfl⟩
theorem imageApply_applies {i : Image} (himage : m.ch.boot.image = some i) :
    m.imageApply.ch.boot = { m.ch.boot with stage := .applied } ∧ m.imageApply.ch.phys = m.ch.phys ∧
    m.imageApply.ch.core = m.ch.core.map (fun k => k.loadPatch i.patch) ∧
    m.imageApply.ch.proc = { m.ch.proc with
      ucver := (Config.romRev ++ (i.patch.map Patch.ident).getD 0#16 : BitVec 24), vbase := BitVec.ofNat 24 i.vpage, attr := i.attr } := by
  obtain ⟨hboot, hphys, hcore, hproc⟩ := applyImage_applies m i (!decide (m.ch.pair.role = .standby))
  unfold Mach.imageApply
  rw [himage]
  dsimp only
  split <;> exact ⟨congrArg (fun b : Boot => { b with stage := .applied }) hboot, hphys, hcore, hproc⟩
/-- A signal raised under a condition. -/
theorem ch_raiseWhere (n : Mach) (p : Bool) (v : Nat) (a : Cell) : (if p then n.raise v a else n).ch = n.ch.raisedIf p v a := by
  cases p
  · rfl
  · exact congrArg Mach.ch (raise_raised n v a)
/-- The channel's part as its first instruction is reached. -/
theorem firstInstruction_runs {i : Image} (himage : m.ch.boot.image = some i) (hcond : m.ch.life.cond = .booting) (hstage : m.ch.boot.stage = .applied)
    (hstandby : m.ch.pair.role ≠ .standby) (hjoining : m.ch.pair.role ≠ .joining) :
    m.firstInstruction.ch = { m.ch with
      life := { m.ch.life with cond := .running, power := .run, faultN := true, alone46 := false }
      thr := (Vector.replicate 8 threadReset).set 0 (bootThread i.entry i.stack)
      clk := { m.ch.clk with wdRun := true, wdCount := 0, wdWarned := false }
      pair := { m.ch.pair with recTime := m.ch.clk.tb.toNat } } := by
  unfold Mach.firstInstruction
  rw [himage]
  dsimp only
  rw [if_pos (by simp [hcond, hstage, hstandby, hjoining])]
  rfl

end

/-- Settles O49. -/
theorem bootSequence : Obligations.BootSequence := by
  intro s c
  dsimp only
  intro hroom hcond
  refine ⟨fun density modes k hstage hlo hhi hlevel hbit hfirst => ?_, fun hstage hprev => ⟨fun density modes => ?_, ?_⟩, fun hstage hprev horder => ?_,
    fun hstage hprev horder hgone => ?_, fun h0 h1 n rest hstage hscan hgone horder hprev => ?_,
    fun img hstage htrained howes hprev horder => ⟨fun hsound => ?_, fun hsound hjoins hwhole hsecond => ?_, fun hsound hjoins hsecond => ⟨fun hwhole => ?_, fun i hbad => ?_⟩⟩,
    fun hstage hwait => ?_, fun hwait => ?_, fun i himage hstage howes hpartner => ?_, fun i himage hstage hstandby hjoining => ?_⟩
  · refine congrArg Host.Outcome.next (onMach_channel s c (fun m => m.discover true density modes) _ ?_)
    have hgo : (decide ((s.chan c).life.cond = .booting) && decide ((s.chan c).boot.stage = .discover)) = true := by rw [hcond, hstage]; rfl
    unfold Mach.discover
    rw [mach_ch, if_pos hgo]
    dsimp only
    rw [pickMode_first hlevel hbit hfirst]
    exact if_pos (by simp [hlo, hhi])
  · refine congrArg Host.Outcome.next (onMach_channel s c (fun m => m.discover false density modes) _ ?_)
    exact (discover_absent (m := s.mach c) hcond hstage density modes).trans (noFlash_fails (m := { s.mach c with ch.life.taken.flash := true }) hroom hprev)
  · refine congrArg Host.Outcome.next (onMach_channel s c Mach.flashTimeout _ ?_)
    exact (flashTimeout_discover (m := s.mach c) hcond hstage).trans (noFlash_fails (m := s.mach c) hroom hprev)
  · refine congrArg Host.Outcome.next (onMach_channel s c Mach.flashTimeout _ ?_)
    exact (flashTimeout_load (m := s.mach c) hcond hstage).trans (slotFailed_next (m := s.mach c) (Nat.lt_succ_of_lt hroom) hprev horder 5#3 0)
  · obtain ⟨n, r, hlost⟩ := headerTimeout_loses (m := s.mach c) (Nat.lt_succ_of_lt hroom) hprev hgone
    refine ⟨n, r, congrArg Host.Outcome.next ?_⟩
    have hgo := (flashTimeout_attempt (m := s.mach c) hcond hstage horder).trans hlost
    rw [State.onMach, hgo]
    rfl
  · obtain ⟨hsq, hitem, hstaging, hboot⟩ := attempt_attempts (m := s.mach c) (h0 := h0) (h1 := h1) hroom hcond hstage hscan hgone horder hprev
    refine ⟨_, rfl, onMach_elsewhere s c _, ?_⟩
    rw [chan_onMach]
    exact ⟨hitem, hstaging, hboot⟩
  · refine congrArg Host.Outcome.next (onMach_channel s c (fun m => m.slotLoad (s.joins c) img) _ ?_)
    exact (slotLoad_unsound (m := s.mach c) hcond hstage htrained howes hsound _).trans (slotFailed_next (m := s.mach c) (Nat.lt_succ_of_lt hroom) hprev horder 2#3 0xFFFF)
  · refine congrArg Host.Outcome.next (onMach_channel s c (fun m => m.slotLoad (s.joins c) img) _ ?_)
    rw [hjoins]
    have hload := slotLoad_whole (m := s.mach c) hcond hstage htrained howes (Nat.lt_succ_of_lt hroom) hprev horder hsound (join := true) hwhole hsecond
    rw [Bool.not_true, loadSections_joining] at hload
    exact hload
  · refine congrArg Host.Outcome.next (onMach_channel s c (fun m => m.slotLoad (s.joins c) img) _ ?_)
    rw [hjoins]
    have hload := slotLoad_whole (m := s.mach c) hcond hstage htrained howes (Nat.lt_succ_of_lt hroom) hprev horder hsound (join := false) hwhole hsecond
    obtain ⟨p, hp⟩ : ∃ p, ((s.mach c).loadSections img true 0 (sections img)).2 = (s.mach c).withPhys p := ⟨_, loadSections_phys img true (sections img) 0 (s.mach c)⟩
    rw [Bool.not_false, hp] at hload
    rw [hp]
    exact hload
  · have hload := slotLoad_bad (m := s.mach c) hcond hstage htrained howes hsound (join := false) hbad
    generalize ((s.mach c).loadSections img (!false) 0 (sections img)).2.ch.phys = p at hload
    rw [slotFailed_next (m := (s.mach c).withPhys p) (Nat.lt_succ_of_lt hroom) hprev horder] at hload
    refine ⟨_, rfl, onMach_elsewhere s c _, ?_⟩
    rw [chan_onMach, hjoins, hload]
    exact ⟨rfl, rfl⟩
  · refine congrArg Host.Outcome.next (onMach_channel s c _ _ (if_pos ?_))
    rw [mach_ch, hcond, hstage]
    simpa using (show retryPeriod ≤ (s.chan c).boot.waited from hwait)
  · refine congrArg Host.Outcome.next (onMach_id s c _ (if_neg ?_))
    rw [mach_ch]
    simp only [Bool.and_eq_true, decide_eq_true_eq, not_and]
    exact fun _ => Nat.not_le.mpr hwait
  · obtain ⟨hboot, hphys, hcore, hproc⟩ := imageApply_applies (m := s.mach c) himage
    have hgo : (s.chan c).canApply = true := by
      unfold Channel.canApply
      rw [hcond, hstage, howes]
      rfl
    have hexec : s.imageApply c = s.onMach c (fun m => if m.ch.canApply then m.imageApply else m) := by
      unfold State.imageApply
      rw [hgo, if_neg (by decide), hpartner]
    refine ⟨_, congrArg Host.Outcome.next hexec, onMach_elsewhere s c _, ?_⟩
    rw [chan_onMach, mach_ch, if_pos hgo]
    exact ⟨hboot, hphys, hcore, hproc⟩
  · have hfirst := firstInstruction_runs (m := s.mach c) himage hcond hstage hstandby hjoining
    refine ⟨_, rfl, onMach_elsewhere s c _, ?_⟩
    unfold State.thread
    rw [chan_onMach]
    dsimp only
    rw [ch_raiseWhere, hfirst]
    rw [raisedIf_frame]
    refine ⟨rfl, rfl, rfl, rfl, rfl, rfl, rfl, fun t ht => ?_, fun halone => ?_⟩
    · have hother : ((Vector.replicate 8 threadReset).set 0 (bootThread i.entry i.stack))[t] = threadReset := by
        exact (Vector.getElem_set_ne (xs := Vector.replicate 8 threadReset) (i := 0) (j := t.val) (by decide) t.isLt
          (fun he => ht (Fin.ext he.symm))).trans (Vector.getElem_replicate _)
      exact hother
    · have hraise : ((s.mach c).ch.life.alone46 && !false) = true := by rw [mach_ch, halone]; rfl
      rw [show ∀ x : Channel, x.raisedIf ((s.mach c).ch.life.alone46 && !false) 46 (fixN 3) = x.raised 46 (fixN 3) from fun x => if_pos hraise]
      rfl
end Sys2Proof.Machine
end

section
/-! The touch front end: scans, a fresh report without a touch, approach runs (21). -/
namespace Sys2Proof.Machine

section
variable {s : State} {c : Chan} {m : Mach}

/-! ### Maps of counts -/

/-- An entry of a canonical map is what its key reads. -/
theorem mapGet_of_mem {α : Type} : {l : List (Nat × α)} → {k : Nat} → {v : α} → mapWf l = true → (k, v) ∈ l → mapGet l k = some v
  | (j, w) :: r, _, v, hwf, hmem => by
    obtain ⟨hlow, -⟩ := List.pairwise_cons.mp ((mapWf_iff_pairwise _).mp hwf)
    rcases List.mem_cons.mp hmem with heq | hr
    · obtain ⟨rfl, rfl⟩ := Prod.mk.inj heq
      exact if_pos rfl
    · exact (if_neg (Nat.ne_of_lt (hlow _ hr))).trans (mapGet_of_mem (mapWf_tail hwf) hr)
theorem mapWf_putAll {α : Type} : (l : List (Nat × α)) → (n : NMap α) → mapWf n = true → mapWf (putAll n l) = true
  | [], _, h => h
  | (k, v) :: r, n, h => mapWf_putAll r _ (mapWf_mapPut n k v h)
theorem mapWf_rawMap : (ks : List Nat) → (l : List (BitVec 16)) → mapWf (rawMap ks l) = true
  | [], _ => rfl
  | _ :: ks, l => mapWf_mapPut _ _ _ (mapWf_rawMap ks (l.drop 1))
/-- Keys that are not put read as before. -/
theorem mapGet_putAll_ne {α : Type} {k : Nat} : (l : List (Nat × α)) → (n : NMap α) → (∀ e ∈ l, e.1 ≠ k) → mapGet (putAll n l) k = mapGet n k
  | [], _, _ => rfl
  | (j, v) :: r, n, h => by
    refine (mapGet_putAll_ne r _ (fun e he => h e (List.mem_cons_of_mem _ he))).trans ?_
    exact mapGet_mapPut_ne n j k v (fun he => h (j, v) List.mem_cons_self he.symm)
theorem mem_mapPut {α : Type} {j : Nat} {v : α} {e : Nat × α} : (l : List (Nat × α)) → e ∈ mapPut l j v → e = (j, v) ∨ e ∈ l
  | [], h => by simpa [mapPut] using h
  | (k, w) :: r, h => by
    unfold mapPut at h
    split at h
    · exact (List.mem_cons.mp h).imp_right id
    split at h
    · exact (List.mem_cons.mp h).imp_right (List.mem_cons_of_mem _)
    · rcases List.mem_cons.mp h with rfl | hr
      · exact .inr List.mem_cons_self
      · exact (mem_mapPut r hr).imp_right (List.mem_cons_of_mem _)
/-- A report's counts have the keys listed alone. -/
theorem key_of_mem_rawMap {e : Nat × BitVec 16} : (ks : List Nat) → (l : List (BitVec 16)) → e ∈ rawMap ks l → e.1 ∈ ks
  | [], _, h => absurd h List.not_mem_nil
  | k :: ks, l, h => by
    rcases mem_mapPut _ h with rfl | hr
    · exact List.mem_cons_self
    · exact List.mem_cons_of_mem _ (key_of_mem_rawMap ks _ hr)
/-- A key that stands first in a list of keys takes the count at its place. -/
theorem mapGet_rawMap {k : Nat} (post : List Nat) : (pre : List Nat) → (l : List (BitVec 16)) → k ∉ pre →
    mapGet (rawMap (pre ++ k :: post) l) k = some (l.getD pre.length 0#16)
  | [], l, _ => by
    refine (mapGet_mapPut _ _ _).trans ?_
    cases l <;> rfl
  | j :: pre, l, h => by
    obtain ⟨hj, hpre⟩ := not_or.mp (fun he => h (List.mem_cons.mpr he))
    refine (mapGet_mapPut_ne _ _ _ _ hj).trans ((mapGet_rawMap post pre (l.drop 1) hpre).trans ?_)
    cases l <;> rfl
/-- The keys of the nodes before node (i, j), as many as i rows and j columns. -/
theorem nodeKeys_split {t r i j : Nat} (hi : i < t) (hj : j < r) (hr : r ≤ 24) : ∃ pre post,
    nodeKeys t r = pre ++ (24 * i + j) :: post ∧ pre.length = i * r + j ∧ (24 * i + j) ∉ pre := by
  have hrows : upFrom 0 t = upFrom 0 i ++ i :: upFrom (i + 1) (t - i - 1) := by
    simp only [upFrom_eq_range']
    rw [show i :: List.range' (i + 1) (t - i - 1) = List.range' i (t - i) by rw [show t - i = t - i - 1 + 1 by omega, List.range'_succ]; simp]
    have happ := (List.range'_append (s := 0) (m := i) (n := t - i) (step := 1))
    rw [show 0 + 1 * i = i by omega, show i + (t - i) = t by omega] at happ
    exact happ.symm
  have hcols : upFrom 0 r = upFrom 0 j ++ j :: upFrom (j + 1) (r - j - 1) := by
    simp only [upFrom_eq_range']
    rw [show j :: List.range' (j + 1) (r - j - 1) = List.range' j (r - j) by rw [show r - j = r - j - 1 + 1 by omega, List.range'_succ]; simp]
    have happ := (List.range'_append (s := 0) (m := j) (n := r - j) (step := 1))
    rw [show 0 + 1 * j = j by omega, show j + (r - j) = r by omega] at happ
    exact happ.symm
  refine ⟨(upFrom 0 i).flatMap (fun a => (upFrom 0 r).map (fun b => 24 * a + b)) ++ (upFrom 0 j).map (fun b => 24 * i + b),
    (upFrom (j + 1) (r - j - 1)).map (fun b => 24 * i + b) ++ (upFrom (i + 1) (t - i - 1)).flatMap (fun a => (upFrom 0 r).map (fun b => 24 * a + b)), ?_, ?_, ?_⟩
  · unfold nodeKeys
    rw [hrows]
    simp only [List.flatMap_append, List.flatMap_cons]
    nth_rewrite 2 [hcols]
    simp
  · simp [List.length_flatMap, upFrom_eq_range', List.map_const']
  · simp only [List.mem_append, List.mem_flatMap, List.mem_map, upFrom_eq_range', List.mem_range'_1, not_or, not_exists, not_and]
    exact ⟨fun a ha b hb => by omega, fun b hb => by omega⟩
/-- The numbers of receive and transmit electrodes of every geometry. -/
theorem geometry_le (ch : Channel) : ch.geometry.1 ≤ 32 ∧ ch.geometry.2 ≤ 24 := by
  unfold Channel.geometry
  split <;> exact ⟨by decide, by decide⟩

/-! ### A fresh report without a touch -/

/-- The counts of a report by key. -/
def rawCounts (t r : Nat) (nodes electrodes : List (BitVec 16)) : NMap (BitVec 16) :=
  putAll (rawMap (nodeKeys t r) nodes) (rawMap (electrodeKeys t r) electrodes)
theorem mapWf_rawCounts (t r : Nat) (nodes electrodes : List (BitVec 16)) : mapWf (rawCounts t r nodes electrodes) = true :=
  mapWf_putAll _ _ (mapWf_rawMap _ _)
theorem rawCounts_node {t r i j : Nat} (hi : i < t) (hj : j < r) (ht : t ≤ 32) (hr : r ≤ 24) (nodes electrodes : List (BitVec 16)) :
    mapGet (rawCounts t r nodes electrodes) (24 * i + j) = some (nodes.getD (i * r + j) 0#16) := by
  obtain ⟨pre, post, hkeys, hlen, hnew⟩ := nodeKeys_split hi hj hr
  have helectrode : ∀ e ∈ rawMap (electrodeKeys t r) electrodes, e.1 ≠ 24 * i + j := by
    intro e he heq
    have hkey := key_of_mem_rawMap _ _ he
    simp only [electrodeKeys, upFrom_eq_range', List.mem_append, List.mem_range'_1] at hkey
    omega
  refine (mapGet_putAll_ne _ _ helectrode).trans ?_
  rw [hkeys, mapGet_rawMap post pre nodes hnew, hlen]
theorem freshBase_of_none {tc : Touch} (h : tc.calBase = []) (contth : Nat) (raw : NMap (BitVec 16)) : freshBase tc contth raw = raw := by
  unfold freshBase
  rw [h]
  exact List.map_id raw
/-- Counts at their baselines give no delta. -/
theorem deltas_zero (tc : Touch) {raw : NMap (BitVec 16)} (hwf : mapWf raw = true) : ∀ e ∈ deltas tc 1 1 raw raw, e.2 = 0 := by
  intro e he
  obtain ⟨⟨k, v⟩, hmem, rfl⟩ := List.mem_map.mp he
  dsimp only
  rw [mapGet_of_mem hwf hmem, Option.getD_some, Int.sub_self, Int.zero_mul, Int.zero_mul, Int.zero_tdiv, Int.zero_tdiv, ite_self]

/-- A report in which every count lies at its baseline. -/
def Img.still (g : Img) : Prop := ∀ e ∈ g.delta, e.2 = 0
theorem mapGet_mem {α : Type} : {l : List (Nat × α)} → {k : Nat} → {v : α} → mapGet l k = some v → (k, v) ∈ l
  | (j, w) :: r, k, v, h => by
    unfold mapGet at h
    split at h
    · next hj => rw [hj, Option.some.inj h]; exact List.mem_cons_self
    · exact List.mem_cons_of_mem _ (mapGet_mem h)
section
variable {g : Img} (hstill : g.still)
include hstill
theorem d_still (k : Nat) : g.d k = 0 := by
  unfold Img.d
  cases hk : mapGet g.delta k with
  | none => rfl
  | some v => exact hstill _ (mapGet_mem hk)
theorem dm_still (i j : Int) : g.dm i j = 0 := by
  unfold Img.dm
  split
  · exact d_still hstill _
  · rfl
theorem film_still (first n : Nat) {selfth : Int} (hpos : 0 < selfth) : g.film first n selfth = false := by
  have hnone : (upFrom first n).filter (fun k => decide (selfth ≤ g.d k)) = [] :=
    List.filter_eq_nil_iff.mpr (fun k _ => by rw [d_still hstill]; simpa using hpos)
  unfold Img.film
  rw [hnone]
  exact decide_eq_false (Nat.not_lt_zero _)
theorem peaks_still {thr : Int} (hpos : 0 < thr) : g.nodes.filter (fun q => g.peak thr q.1 q.2) = [] := by
  refine List.filter_eq_nil_iff.mpr (fun q _ => ?_)
  unfold Img.peak
  rw [dm_still hstill, decide_eq_false (by omega)]
  exact Bool.false_ne_true
theorem wet_still {waterth : Int} (hpos : 0 < waterth) : g.nodes.filter (fun q => decide (g.dm q.1 q.2 ≤ -waterth)) = [] :=
  List.filter_eq_nil_iff.mpr (fun q _ => by rw [dm_still hstill]; simpa using hpos)
end
/-- Without a touch every contact of the report before is lifted (R479). -/
theorem trackContacts_lifts (d : Nat) (old : List Contact) {k : Contact} (hk : k ∈ trackContacts d old []) :
    k.evt = 3#2 ∧ ∃ k' ∈ old, k'.id = k.id ∧ k'.evt ≠ 3#2 := by
  unfold trackContacts at hk
  simp only [List.zipIdx_nil, List.flatMap_nil, List.foldl_nil, matchCands, assignIds, List.any_nil, Bool.not_false, List.filter_true,
    List.nil_append] at hk
  obtain ⟨i, -, hfind⟩ := List.mem_filterMap.mp hk
  obtain ⟨o, ho, rfl⟩ := List.mem_map.mp (List.mem_of_find?_eq_some hfind)
  obtain ⟨hold, hevt⟩ := List.mem_filter.mp ho
  exact ⟨rfl, o, hold, rfl, of_decide_eq_true hevt⟩

/-! ### What the signals and the capture of a report leave -/

/-- Translation, threads and the touch unit are left. -/
def keepsTouch (m m' : Mach) : Prop := m'.ch.phys = m.ch.phys ∧ m'.ch.thr = m.ch.thr ∧ m'.ch.touch = m.ch.touch
theorem keepsTouch_refl (m : Mach) : keepsTouch m m := ⟨rfl, rfl, rfl⟩
theorem keepsTouch_trans {m1 m2 m3 : Mach} (h1 : keepsTouch m1 m2) (h2 : keepsTouch m2 m3) : keepsTouch m1 m3 := by
  obtain ⟨hp1, ht1, hx1⟩ := h1
  obtain ⟨hp2, ht2, hx2⟩ := h2
  exact ⟨hp2.trans hp1, ht2.trans ht1, hx2.trans hx1⟩
theorem raiseIf_keepsTouch (m : Mach) (b : Bool) (v : Nat) (a : Cell) : keepsTouch m (m.raiseIf b v a) := by
  rw [raiseIf_eq]
  exact keepsTouch_refl m
theorem touchRaise_keepsTouch (m : Mach) (v : Nat) (a : Cell) : keepsTouch m (m.touchRaise v a) := raiseIf_keepsTouch _ _ _ _
/-- A signal under a condition. -/
theorem touchRaiseWhere_keepsTouch (m : Mach) (b : Bool) (v : Nat) (a : Cell) : keepsTouch m (if b then m.touchRaise v a else m) := by
  split
  · exact touchRaise_keepsTouch _ _ _
  · exact keepsTouch_refl m
theorem bumpC_keepsTouch (m : Mach) (e : Nat) : keepsTouch m (m.bumpC e) := keepsTouch_refl m
@[simp] theorem winFill_phys : (l : List (Nat × Payload)) → (ch : Channel) → (o : Nat) → (winFill ch o l).phys = ch.phys
  | [], _, _ => rfl
  | (k, v) :: r, ch, o => winFill_phys r (winPut ch (o + k) v) o
@[simp] theorem winFill_thr : (l : List (Nat × Payload)) → (ch : Channel) → (o : Nat) → (winFill ch o l).thr = ch.thr
  | [], _, _ => rfl
  | (k, v) :: r, ch, o => winFill_thr r (winPut ch (o + k) v) o
@[simp] theorem winFill_touch : (l : List (Nat × Payload)) → (ch : Channel) → (o : Nat) → (winFill ch o l).touch = ch.touch
  | [], _, _ => rfl
  | (k, v) :: r, ch, o => winFill_touch r (winPut ch (o + k) v) o
theorem capture_keepsTouch (m : Mach) (g : Img) : keepsTouch m (m.capture g) := by
  unfold Mach.capture
  split
  · refine keepsTouch_trans ?_ (touchRaise_keepsTouch _ _ _)
    exact ⟨(winFill_phys _ _ _).trans ((winFill_phys _ _ _).trans (winFill_phys _ _ _)),
      (winFill_thr _ _ _).trans ((winFill_thr _ _ _).trans (winFill_thr _ _ _)),
      (winFill_touch _ _ _).trans ((winFill_touch _ _ _).trans (winFill_touch _ _ _))⟩
  · exact keepsTouch_refl m

/-- A fresh report without a touch, of a sound setting. -/
theorem touchReport_fresh (hon : m.ch.touchOn = true) (hcond : m.ch.life.cond = .running) (hfast : m.ch.life.power ≠ .sleep) (hrun : m.ch.touch.run = true)
    (hfresh : m.ch.touch.fresh = true) (hcal : m.ch.touch.calBase = []) (hvtx : m.ch.touch.vtxCal = 0#16) (hglove : m.ch.touch.glove = false)
    (hcont : 0 < bits m.ch.touch.thr1 0 12) (hself : 0 < bits m.ch.touch.thr2 0 12) (hwater : 0 < bits m.ch.touch.thr2 12 12)
    (nodes electrodes : List (BitVec 16)) :
    ∃ m1 : Mach, m.touchReport nodes electrodes [] = m1.latchTouch ∧
      keepsTouch { m with ch.touch := { m.ch.touch with
        seq := m.ch.touch.seq + 1#24, contacts := trackContacts (bits m.ch.touch.track 0 16) m.ch.touch.contacts [], water := false, filmX := false, filmY := false
        base := rawCounts m.ch.geometry.1 m.ch.geometry.2 nodes electrodes, fresh := false, run := m.ch.scanning } } m1 := by
  have hwork : (!(m.ch.touchOn && m.ch.touch.run && m.fastOn)) = false := by
    rw [hon, hrun, fastOn_of hcond hfast]
    rfl
  have hvtxRatio : m.vtxRatio = ((1, 1), m) := if_pos hvtx
  generalize hR : m.touchReport nodes electrodes [] = R
  unfold Mach.touchReport at hR
  rw [hwork, if_neg Bool.false_ne_true] at hR
  extract_lets t r tc raw contth thr selfth waterth base kr m1 g fx fy peaks good wetPeaks wetNodes water fr m2 taken new contacts hop freq base' moved ch3 m4 m5 m6 m7 m8 at hR
  have hthr : 0 < thr := by
    rw [show thr = (bits m.ch.touch.thr1 0 12 : Int) from if_neg (by rw [show tc.glove = false from hglove]; exact Bool.false_ne_true)]
    omega
  have hbase : base = raw := (if_pos hfresh).trans (freshBase_of_none hcal _ _)
  have hkr : kr = ((1, 1), m) := if_pos hvtx
  have hstill : g.still := by
    intro e he
    have hdelta : g.delta = deltas tc kr.1.1 kr.1.2 raw base := rfl
    rw [hdelta, hkr, hbase] at he
    exact deltas_zero tc (mapWf_rawCounts _ _ _ _) e he
  have hselfth : 0 < selfth := Int.natCast_pos.mpr hself
  have hwaterth : 0 < waterth := Int.natCast_pos.mpr hwater
  have hpeaks : peaks = [] := peaks_still hstill hthr
  have hgood : good = [] := by rw [show good = sortPeaks g (peaks.filter (g.accepts thr selfth fx fy)) from rfl, hpeaks]; rfl
  have hwater' : water = false := by
    rw [show water = (!(peaks.filter (fun q => !g.accepts thr selfth fx fy q)).isEmpty || !(g.nodes.filter (fun q => decide (g.dm q.1 q.2 ≤ -waterth))).isEmpty) from rfl,
      hpeaks, wet_still hstill hwaterth]
    rfl
  have hfx : fx = false := film_still hstill _ _ hselfth
  have hfy : fy = false := film_still hstill _ _ hselfth
  have hnew : new = [] := by
    rw [show new = (g.nodes.filter (good.take 10).contains).map (g.contact thr tc.glove fr.1) from rfl, hgood]
    exact congrArg (List.map _) (List.filter_eq_nil_iff.mpr (fun _ _ => by simp))
  have hhop : hop = false := by
    have hquiet : (([] : List (BitVec 16)).take r).filter (fun n => decide (bits tc.noise 0 12 < n.toNat)) = [] := by rw [List.take_nil]; rfl
    rw [show hop = (winBit m2.ch (tReg 0) 3 && decide (3 ≤ ((([] : List (BitVec 16)).take r).filter (fun n => decide (bits tc.noise 0 12 < n.toNat))).length)) from rfl, hquiet]
    exact Bool.and_false _
  have hfreq : freq = tc.freq := if_neg (by rw [hhop]; exact Bool.false_ne_true)
  have hbase' : base' = raw := (if_pos hfresh).trans hbase
  have hm5 : m5 = m4 := by rw [show m5 = m4.overflow (good.length - 10) from rfl, hgood]; rfl
  have hm1 : m1 = m := congrArg Prod.snd hkr
  have hkept : keepsTouch m4 ((m8.bumpC 54).capture g) := by
    refine keepsTouch_trans (keepsTouch_trans ?_ (bumpC_keepsTouch m8 54)) (capture_keepsTouch _ g)
    refine keepsTouch_trans (keepsTouch_trans ?_ (touchRaiseWhere_keepsTouch m6 hop 149 _)) (touchRaiseWhere_keepsTouch m7 _ 145 _)
    rw [← hm5]
    exact touchRaiseWhere_keepsTouch m5 moved 147 _
  refine ⟨_, hR.symm, keepsTouch_trans ?_ hkept⟩
  have hcontacts : contacts = trackContacts (bits tc.track 0 16) tc.contacts [] := congrArg (trackContacts _ _) hnew
  have htouch : m4.ch.touch = { tc with seq := tc.seq + 1#24, contacts := contacts, water := water, filmX := fx, filmY := fy, freq := freq, base := base', fresh := false, run := m1.ch.scanning } := rfl
  have hphys : m1.ch.phys = m.ch.phys := by rw [hm1]
  have hthreads : m1.ch.thr = m.ch.thr := by rw [hm1]
  refine ⟨hphys, hthreads, htouch.trans ?_⟩
  rw [hcontacts, hwater', hfx, hfy, hfreq, hbase', hm1]
  rfl

/-! ### Scans -/

/-- A scan starts. -/
theorem scanStart_starts (hon : m.ch.touchOn = true) (hwf : mapWf m.ch.win = true) (hvtxf : m.ch.touch.vtxf = false) :
    m.scanStart = { m with ch := { winPut m.ch 0x10000 (setBit (winGet m.ch 0x10000) 1 true) with
      touch := { m.ch.touch with run := true, fresh := true, freq := (winGet m.ch 0x10004).extractLsb' 8 2, thr1 := winGet m.ch 0x10005, thr2 := winGet m.ch 0x10006, track := winGet m.ch 0x10007, noise := winGet m.ch 0x10008, glove := bit (winGet m.ch 0x10000) 4 } } } := by
  have hworks : (!m.ch.touchOn || m.ch.touch.vtxf) = false := by rw [hon, hvtxf]; rfl
  have hother : ∀ k, k ≠ 0x10000 → winGet (winPut m.ch 0x10000 (setBit (winGet m.ch 0x10000) 1 true)) k = winGet m.ch k :=
    fun k hk => winGet_winPut_ne _ _ _ hk
  have hglove : bit (winGet (winPut m.ch 0x10000 (setBit (winGet m.ch 0x10000) 1 true)) 0x10000) 4 = bit (winGet m.ch 0x10000) 4 := by
    rw [winGet_winPut _ hwf, if_pos rfl, bit_setBit _ _ _ _ (by decide), if_neg (by decide)]
  unfold Mach.scanStart
  rw [hworks, if_neg Bool.false_ne_true]
  unfold Mach.latchTouch Mach.setScan winBit tReg
  dsimp only
  rw [hglove, hother _ (by decide), hother _ (by decide), hother _ (by decide), hother _ (by decide), ← hother 0x10004 (by decide)]
  rfl

/-! ### Approach runs (R482) -/

/-- A counted run that raises its signal. -/
theorem counted_raiseIf (m : Mach) (x : Touch) (en : Bool) (v : Nat) (a : Cell) : Mach.raiseIf { m.bumpC 55 with ch.touch := x } en v a =
    { m with ch := { Channel.raisedIf { m.ch with touch := x } en v a with perf := (m.bumpC 55).ch.perf } } := by
  rw [raiseIf_raisedIf]
  cases en <;> rfl
section
variable {sum : BitVec 24} (hon : m.ch.touchOn = true) (hcond : m.ch.life.cond = .running) (hen : bit (winGet m.ch 0x1000B) 23 = true)
  (hscan : bit (winGet m.ch 0x10000) 1 = false) (hrun : m.ch.touch.run = false)
include hon hcond hen hscan hrun
theorem approach_runs :
    (!(m.ch.touchOn && bit (winGet m.ch (tReg 11)) 23 && !m.ch.scanning && !m.ch.touch.run && m.ch.life.cond = .running)) = false := by
  have hscanning : m.ch.scanning = false := hscan
  rw [hon, show bit (winGet m.ch (tReg 11)) 23 = true from hen, hscanning, hrun, hcond]
  rfl
/-- The first run sets the baseline. -/
theorem approach_first (hready : m.ch.touch.aReady = false) (hath : 0 < bits (winGet m.ch 0x1000B) 0 16) :
    m.approach sum = { m.bumpC 55 with ch.touch := { m.ch.touch with aReady := true, aRuns := 0, aSum := sum, aBase := sum, appr := false } } := by
  generalize hR : m.approach sum = R
  unfold Mach.approach at hR
  extract_lets tc actl ath aconf base d runs low fire mb chb m1 at hR
  rw [approach_runs hon hcond hen hscan hrun, if_neg Bool.false_ne_true] at hR
  have hath' : 0 < ath := hath
  have hbase : base = sum := if_neg (by rw [show tc.aReady = false from hready]; exact Bool.false_ne_true)
  have hd : d = 0 := by rw [show d = (sum.toNat : Int) - base.toNat from rfl, hbase]; exact Int.sub_self _
  have hruns : runs = 0 := if_neg (by omega)
  have hlow : low = true := decide_eq_true (by omega)
  have hmean : BitVec.ofInt 24 (base.toNat + d / 16) = sum := by
    rw [hbase, hd]
    simp
  rw [← hR, hlow, Bool.not_true, Bool.and_false, if_neg Bool.false_ne_true]
  unfold m1
  rw [hlow, if_pos rfl, if_pos rfl, hruns, hmean]
/-- A run at the threshold or above it. -/
theorem approach_far (hready : m.ch.touch.aReady = true) (hath : 0 < bits (winGet m.ch 0x1000B) 0 16)
    (hfar : m.ch.touch.aBase.toNat + bits (winGet m.ch 0x1000B) 0 16 ≤ sum.toNat) {fires : Bool}
    (hfires : (decide (max 1 (bits (winGet m.ch 0x1000B) 16 2) ≤ m.ch.touch.aRuns + 1) && !m.ch.touch.appr) = fires) :
    m.approach sum = Mach.raiseIf { m.bumpC 55 with ch.touch := { m.ch.touch with aRuns := m.ch.touch.aRuns + 1, aSum := sum, appr := m.ch.touch.appr || fires } }
      (bit (winGet m.ch 0x10000) 8 && fires) 144 (fixN (min (sum.toNat - m.ch.touch.aBase.toNat) 8388607)) := by
  generalize hR : m.approach sum = R
  unfold Mach.approach at hR
  extract_lets tc actl ath aconf base d runs low fire mb chb m1 at hR
  rw [approach_runs hon hcond hen hscan hrun, if_neg Bool.false_ne_true] at hR
  have hath' : 0 < ath := hath
  have hfar' : tc.aBase.toNat + ath ≤ sum.toNat := hfar
  have hbase : base = tc.aBase := if_pos hready
  have hd : d = ((sum.toNat - tc.aBase.toNat : Nat) : Int) := by
    rw [show d = (sum.toNat : Int) - base.toNat from rfl, hbase]
    omega
  have hruns : runs = tc.aRuns + 1 := if_pos (by omega)
  have hlow : low = false := decide_eq_false (by omega)
  have hfire : fire = fires := by rw [← hfires, show fire = (decide (aconf ≤ runs) && !tc.appr) from rfl, hruns]; rfl
  have hm1 : m1 = { m.bumpC 55 with ch.touch := { m.ch.touch with aRuns := m.ch.touch.aRuns + 1, aSum := sum, appr := m.ch.touch.appr || fires } } := by
    rw [← hfire]
    unfold m1
    rw [hlow, hbase, hruns, if_neg Bool.false_ne_true, if_neg Bool.false_ne_true, ← hready]
  have haddr : fixI (min d 8388607) = fixN (min (sum.toNat - tc.aBase.toNat) 8388607) := by
    unfold fixI fixN
    rw [hd, show min ((sum.toNat - tc.aBase.toNat : Nat) : Int) 8388607 = ((min (sum.toNat - tc.aBase.toNat) 8388607 : Nat) : Int) by omega, BitVec.ofInt_natCast]
  rw [← hR, hlow, hfire, haddr, hm1, Bool.not_false, Bool.and_true]
  cases fires
  · rw [Bool.and_false]
    rfl
  · rw [Bool.and_true]
    rfl
/-- A run below the threshold, but by less than half of it, confirms nothing. -/
theorem approach_near (hready : m.ch.touch.aReady = true) (hnear : sum.toNat < m.ch.touch.aBase.toNat + bits (winGet m.ch 0x1000B) 0 16)
    (hhalf : m.ch.touch.aBase.toNat * 2 + bits (winGet m.ch 0x1000B) 0 16 ≤ 2 * sum.toNat) :
    m.approach sum = { m.bumpC 55 with ch.touch := { m.ch.touch with aRuns := 0, aSum := sum } } := by
  generalize hR : m.approach sum = R
  unfold Mach.approach at hR
  extract_lets tc actl ath aconf base d runs low fire mb chb m1 at hR
  rw [approach_runs hon hcond hen hscan hrun, if_neg Bool.false_ne_true] at hR
  have hnear' : sum.toNat < tc.aBase.toNat + ath := hnear
  have hhalf' : tc.aBase.toNat * 2 + ath ≤ 2 * sum.toNat := hhalf
  have hbase : base = tc.aBase := if_pos hready
  have hd : d = (sum.toNat : Int) - tc.aBase.toNat := by rw [show d = (sum.toNat : Int) - base.toNat from rfl, hbase]
  have hruns : runs = 0 := if_neg (by omega)
  have hlow : low = false := decide_eq_false (by omega)
  have hfire : fire = false := by
    rw [show fire = (decide (aconf ≤ runs) && !tc.appr) from rfl, hruns, decide_eq_false (by omega), Bool.false_and]
  rw [← hR, hfire, Bool.false_and, if_neg Bool.false_ne_true]
  unfold m1
  rw [hlow, hbase, hruns, hfire, if_neg Bool.false_ne_true, if_neg Bool.false_ne_true, ← hready, Bool.or_false]
end

end

/-- Settles O55, scans, reports and approach runs in turn. -/
theorem touchFrontEnd : Obligations.TouchFrontEnd := by
  intro s c
  dsimp only
  refine fun hon => ⟨fun hawake hwf => ⟨fun hvtxf => ?_, fun hvtxf => ?_, ?_, ?_, ?_, ?_⟩,
    fun hcond => ⟨fun nodes electrodes hfast hrun hfresh hcal hvtx hglove hcont hself hwater => ?_, fun sum hen hscan hrun hath => ⟨fun hready => ?_, fun hready hfar => ?_, fun hready hnear hlow => ?_⟩⟩⟩
  · exact congrArg Host.Outcome.next (programStore_channel (f := Mach.scanStart) hawake (scanStart_starts (m := (s.mach c).takePage 0x40) hon hwf hvtxf))
  · refine congrArg Host.Outcome.next (programStore_channel (f := Mach.scanStart) hawake (if_pos ?_))
    exact Bool.or_eq_true_iff.mpr (.inr hvtxf)
  · exact congrArg Host.Outcome.next (programStore_channel (f := Mach.scanStop) hawake (if_pos hon))
  · exact congrArg Host.Outcome.next (programStore_channel (f := Mach.baselineReset) hawake (if_pos hon))
  · exact congrArg Host.Outcome.next (programStore_channel (f := Mach.rawArm) hawake (if_pos hon))
  · exact congrArg Host.Outcome.next (program_channel (f := fun m => m.readTrpt.2) hawake (congrArg Prod.snd (if_pos hon)))
  · obtain ⟨m1, hreport, hphys, hthr, htouch⟩ := touchReport_fresh (m := s.mach c) hon hcond hfast hrun hfresh hcal hvtx hglove hcont hself hwater nodes electrodes
    refine ⟨_, rfl, onMach_elsewhere s c _, ?_⟩
    rw [chan_onMach, hreport]
    unfold Mach.latchTouch
    dsimp only
    rw [htouch]
    refine ⟨hphys, hthr, rfl, rfl, rfl, rfl, rfl, rfl, rfl, fun k hk => trackContacts_lifts _ _ hk, rfl, fun i j hi hj => ?_⟩
    obtain ⟨ht, hr⟩ := geometry_le (s.chan c)
    exact rawCounts_node hi hj ht hr nodes electrodes
  · exact does_of_onMach (f := fun m => m.approach sum) rfl (approach_first (m := s.mach c) hon hcond hen hscan hrun hready hath)
  · have hruns := approach_far (m := s.mach c) hon hcond hen hscan hrun hready hath hfar rfl
    refine does_of_onMach (f := fun m => m.approach sum) (p := ((s.mach c).bumpC 55).ch.perf) (n := s.free) rfl (hruns.trans ?_)
    exact counted_raiseIf (s.mach c) _ _ _ _
  · exact does_of_onMach (f := fun m => m.approach sum) rfl (approach_near (m := s.mach c) hon hcond hen hscan hrun hready hnear hlow)
end Sys2Proof.Machine
end

section
/-! Configuration by straps (03). -/
namespace Sys2Proof.Machine

section
variable {s : State} {c : Chan} {m : Mach}

/-! ### A measurement and the decision of R58 -/

/-- The spread of four readings exceeds 8 codes where two of them lie further apart. -/
theorem spread_wide (a b d e : Nat) : 8 < max (max a b) (max d e) - min (min a b) (min d e) ↔
    ∃ x ∈ [a, b, d, e], ∃ y ∈ [a, b, d, e], x + 8 < y := by
  simp only [List.mem_cons, List.not_mem_nil, or_false, exists_eq_or_imp, exists_eq_left]
  omega
theorem mean_lt (c0 c1 c2 c3 : BitVec 10) : ([c0.toNat, c1.toNat, c2.toNat, c3.toNat].sum + 2) / 4 < 1024 := by
  simp only [List.sum_cons, List.sum_nil]
  omega
/-- An unreadable pin falls back. -/
theorem decide_bad (p : Pin) (i : Nat) (cs : BitVec 3) (raw : BitVec 10) (x : Nat) :
    decides i p.hist (some cs) x (p.decide i (.bad cs raw)).1.level (p.decide i (.bad cs raw)).1.source (p.decide i (.bad cs raw)).2 := by
  unfold decides Pin.decide Pin.fallBack Pin.take
  cases p.hist with
  | none => exact ⟨rfl, rfl, rfl⟩
  | some h =>
    simp only [Bool.and_true, decide_eq_true_eq]
    by_cases hh : h ≤ topLevel i
    · simp [hh]
    · simp [hh]
/-- A reading that settles is decided by its band, its zone and the history. -/
theorem decide_classify (p : Pin) (i : Nat) (raw : BitVec 10) :
    decides i p.hist none raw.toNat (p.decide i (classify raw)).1.level (p.decide i (classify raw)).1.source (p.decide i (classify raw)).2 := by
  have hbands : strapBands = bands := rfl
  unfold decides
  dsimp only
  rw [hbands]
  unfold classify
  cases hfind : bands.find? (fun b => b.2.1 ≤ raw.toNat && raw.toNat ≤ b.2.2.1) with
  | none => exact decide_bad p i 2#3 raw 0
  | some b =>
    dsimp only
    unfold Pin.decide Pin.fallBack Pin.take
    dsimp only
    by_cases htop : topLevel i < b.1
    · rw [if_pos htop, if_pos htop]
      cases p.hist with
      | none => exact ⟨rfl, rfl, rfl⟩
      | some h => by_cases hh : h ≤ topLevel i <;> simp [hh]
    rw [if_neg htop, if_neg htop]
    cases p.hist with
    | none => simp
    | some h =>
      dsimp only
      by_cases hsame : b.1 = h
      · simp [hsame]
      have hsame' : ¬ (some h = none ∨ some h = some b.1) := by simpa using fun he : h = b.1 => hsame he.symm
      rw [if_neg hsame, if_neg hsame']
      by_cases hzone : b.2.2.2.1 ≤ raw.toNat ∧ raw.toNat ≤ b.2.2.2.2
      · simp [hzone]
      · rw [if_neg hzone, if_neg (by simpa using hzone)]
        by_cases hh : h ≤ topLevel i <;> simp [hh]
theorem take_keeps (p : Pin) (m : Meas) (level source : BitVec 3) : (p.take m level source).decided = true ∧ (p.take m level source).hist = p.hist := ⟨rfl, rfl⟩
theorem fallBack_keeps (p : Pin) (i : Nat) (m : Meas) (source cause : BitVec 3) (ok : BitVec 3 → Bool) :
    (p.fallBack i m source cause ok).1.decided = true ∧ (p.fallBack i m source cause ok).1.hist = p.hist := by
  unfold Pin.fallBack
  split
  · split <;> exact take_keeps _ _ _ _
  · exact take_keeps _ _ _ _
/-- A decided pin keeps its history. -/
theorem decide_keeps (p : Pin) (i : Nat) (m : Meas) : (p.decide i m).1.decided = true ∧ (p.decide i m).1.hist = p.hist := by
  unfold Pin.decide
  split
  · exact fallBack_keeps _ _ _ _ _ _
  split
  · exact fallBack_keeps _ _ _ _ _ _
  split
  · exact take_keeps _ _ _ _
  split
  · exact take_keeps _ _ _ _
  split
  · exact take_keeps _ _ _ _
  · exact fallBack_keeps _ _ _ _ _ _
/-- What the scales find wrong with a pin: an external voltage, or a wide spread (R52). -/
def finds (p0 c0 c1 c2 c3 : BitVec 10) (x : Option (BitVec 3)) : Prop :=
  (100#10 < p0 → x = some 0#3) ∧
  (p0 ≤ 100#10 → (∃ a ∈ [c0.toNat, c1.toNat, c2.toNat, c3.toNat], ∃ b ∈ [c0.toNat, c1.toNat, c2.toNat, c3.toNat], a + 8 < b) → x = some 1#3) ∧
  (p0 ≤ 100#10 → ¬ (∃ a ∈ [c0.toNat, c1.toNat, c2.toNat, c3.toNat], ∃ b ∈ [c0.toNat, c1.toNat, c2.toNat, c3.toNat], a + 8 < b) → x = none)
/-- The scales decide a pin by R58. -/
theorem measured_decides (p : Pin) (i : Nat) (p0 c0 c1 c2 c3 : BitVec 10) : ∃ x, finds p0 c0 c1 c2 c3 x ∧
    decides i p.hist x (([c0.toNat, c1.toNat, c2.toNat, c3.toNat].sum + 2) / 4) (p.decide i (measure p0 c0 c1 c2 c3)).1.level
      (p.decide i (measure p0 c0 c1 c2 c3)).1.source (p.decide i (measure p0 c0 c1 c2 c3)).2 := by
  have hmean : (BitVec.ofNat 10 (([c0.toNat, c1.toNat, c2.toNat, c3.toNat].sum + 2) / 4)).toNat = ([c0.toNat, c1.toNat, c2.toNat, c3.toNat].sum + 2) / 4 := by
    rw [BitVec.toNat_ofNat]
    exact Nat.mod_eq_of_lt (mean_lt c0 c1 c2 c3)
  have hspread := spread_wide c0.toNat c1.toNat c2.toNat c3.toNat
  unfold measure finds
  dsimp only
  by_cases h0 : 100#10 < p0
  · rw [if_pos h0]
    exact ⟨some 0#3, ⟨fun _ => rfl, fun hle => absurd h0 (BitVec.not_lt.mpr hle), fun hle => absurd h0 (BitVec.not_lt.mpr hle)⟩, decide_bad _ _ _ _ _⟩
  rw [if_neg h0]
  by_cases hw : ∃ a ∈ [c0.toNat, c1.toNat, c2.toNat, c3.toNat], ∃ b ∈ [c0.toNat, c1.toNat, c2.toNat, c3.toNat], a + 8 < b
  · rw [if_pos (hspread.mpr hw)]
    exact ⟨some 1#3, ⟨fun h => absurd h h0, fun _ _ => rfl, fun _ h => absurd hw h⟩, decide_bad _ _ _ _ _⟩
  · have hclass := decide_classify p i (BitVec.ofNat 10 (([c0.toNat, c1.toNat, c2.toNat, c3.toNat].sum + 2) / 4))
    rw [hmean] at hclass
    rw [if_neg (fun h => hw (hspread.mp h))]
    exact ⟨none, ⟨fun h => absurd h h0, fun _ h => absurd h hw, fun _ _ => rfl⟩, hclass⟩

/-! ### The pins of a channel -/

theorem allDecided_iff {ch : Channel} : ch.allDecided = true ↔ ∀ i : Fin 8, ch.straps[i].decided = true := by
  unfold Channel.allDecided
  rw [List.all_eq_true]
  refine ⟨fun h i => h _ (by simp), fun h p hp => ?_⟩
  obtain ⟨i, hi, rfl⟩ := List.getElem_of_mem hp
  exact h ⟨i, by simpa using hi⟩
/-- The pins before a pin are decided. -/
theorem before_decided {n k : Nat} (v : Vector Pin n) (hk : k ≤ n) (h : ∀ j (hj : j < n), j < k → v[j].decided = true) :
    (upFrom 0 k).all (fun i => (v.toList.getD i pinReset).decided) = true := by
  refine List.all_eq_true.mpr (fun i hi => ?_)
  rw [upFrom_eq_range', List.mem_range'_1] at hi
  have hin : i < n := by omega
  rw [List.getD_eq_getElem _ _ (by simpa using hin)]
  simpa using h i hin (by omega)
/-- A decided pin is put, with its record where it is not its own reading (R59). -/
theorem putPin_eq (hroom : m.ch.led.staging.length < 16) (i : Fin 8) (q : Pin) (cause : BitVec 3) :
    m.putPin i q cause = { m with ch := if q.source = 0#3 then { m.ch with straps := m.ch.straps.set i q } else
      { m.ch with straps := m.ch.straps.set i q }.recorded 0x01#6 false false (strapDetail i.val cause q) } := by
  unfold Mach.putPin
  split
  · rfl
  · exact report_recorded (m := { m with ch.straps := m.ch.straps.set i q }) false false hroom (by decide)

/-! ### The start of a boot -/

theorem partner_mutual {p : Chan} (h : s.partner c = some p) : s.partner p = some c ∧ p ≠ c ∧ arrIncludes s.chmode p = true := by
  unfold State.partner at *
  split at h
  · next hdec =>
    rw [if_pos hdec]
    clear hdec
    generalize s.chmode = mode at *
    revert mode c p
    decide
  · exact absurd h (by simp)
theorem decideStart_undecided (h : (s.chan c).allDecided = false) : s.decideStart c = s := by
  unfold State.decideStart
  exact if_neg (by simp [h])
theorem decideStart_elsewhere (h : (s.chan c).life.cond ≠ .sampling) : s.decideStart c = s := by
  unfold State.decideStart
  exact if_neg (by simp [h])
theorem decideStart_square (h : s.square.straps[0].decided = false) : s.decideStart c = s := by
  unfold State.decideStart
  exact if_neg (by simp [h])
/-- A channel that samples and has begun, with its levels as they were and records at the end of its queue at most. -/
def begins (x y : Channel) : Prop := y.straps = x.straps ∧ ∃ more, y.led.staging = x.led.staging ++ more
theorem begins_refl (x : Channel) : begins x x := ⟨rfl, [], (List.append_nil _).symm⟩
theorem begins_trans {x y z : Channel} (h1 : begins x y) (h2 : begins y z) : begins x z := by
  obtain ⟨hs1, more1, hm1⟩ := h1
  obtain ⟨hs2, more2, hm2⟩ := h2
  exact ⟨hs2.trans hs1, more1 ++ more2, by rw [hm2, hm1, List.append_assoc]⟩
/-- A record changes the channel alone. -/
theorem report_channel (m : Mach) (cls : BitVec 6) (spec flag : Bool) (detail : BitVec 32) :
    m.report cls spec flag detail = { m with ch := (m.report cls spec flag detail).ch } := by
  unfold Mach.report
  rw [raiseIf_eq]
  cases !decide (m.ch.led.staging.length < 16) <;> rfl
theorem arrive_staging (l : Ledger) (cls : BitVec 6) (spec flag : Bool) (detail : BitVec 32) :
    ∃ more, (l.arrive cls spec flag detail).staging = l.staging ++ more := by
  unfold Ledger.arrive
  split
  · exact ⟨_, rfl⟩
  · exact ⟨[], (List.append_nil _).symm⟩
theorem report_straps (m : Mach) (cls : BitVec 6) (spec flag : Bool) (detail : BitVec 32) :
    (m.report cls spec flag detail).ch.straps = m.ch.straps ∧ (m.report cls spec flag detail).ch.life = m.ch.life ∧
      (m.report cls spec flag detail).ch.clk = m.ch.clk ∧ (m.report cls spec flag detail).ch.thr = m.ch.thr ∧
      (m.report cls spec flag detail).ch.win = m.ch.win := by
  unfold Mach.report
  rw [raiseIf_eq]
  cases !decide (m.ch.led.staging.length < 16) <;> exact ⟨rfl, rfl, rfl, rfl, rfl⟩
theorem report_begins (m : Mach) (cls : BitVec 6) (spec flag : Bool) (detail : BitVec 32) : begins m.ch (m.report cls spec flag detail).ch := by
  obtain ⟨hstraps, -⟩ := report_straps m cls spec flag detail
  refine ⟨hstraps, ?_⟩
  rw [report_led]
  exact arrive_staging _ _ _ _ _
theorem hold_channel (m : Mach) (why : BitVec 32) : m.hold why = { m with ch := (m.hold why).ch } := report_channel _ _ _ _ _
theorem hold_begins (m : Mach) (why : BitVec 32) : begins m.ch (m.hold why).ch ∧ (m.hold why).ch.life.cond = .held := by
  obtain ⟨-, hlife, -⟩ := report_straps { m with ch.life := { m.ch.life with cond := .held, faultN := false } } 0x0D#6 false false why
  exact ⟨report_begins { m with ch.life := { m.ch.life with cond := .held, faultN := false } } 0x0D#6 false false why, congrArg Life.cond hlife⟩
/-- Step 7 of Table 3.3 leaves the levels, and every other channel and the square. -/
theorem decideStart_begins (s : State) (c : Chan) : ∃ x, s.decideStart c = s.setChan c x ∧ begins (s.chan c) x := by
  have hsame : s = s.setChan c (s.chan c) := (setChan_chan s c).symm
  have hhold : ∀ why, ∃ x, s.onMach c (fun m => m.hold why) = s.setChan c x ∧ begins (s.chan c) x := fun why => by
    obtain ⟨hbegins, -⟩ := hold_begins (s.mach c) why
    exact ⟨_, onMach_channel s c _ _ (hold_channel _ why), hbegins⟩
  have hstart : ∀ paired alone, ∃ x, s.onMach c (fun m => m.startBoot paired alone) = s.setChan c x ∧ begins (s.chan c) x :=
    fun paired alone => ⟨_, onMach_channel s c (fun m => m.startBoot paired alone) _ rfl, rfl, [], (List.append_nil _).symm⟩
  unfold State.decideStart
  dsimp only
  split
  · split
    · exact ⟨_, rfl, rfl, [], (List.append_nil _).symm⟩
    split
    · exact hhold _
    split
    · exact hstart _ _
    split
    · exact hstart _ _
    split
    · exact ⟨_, hsame, begins_refl _⟩
    split
    · exact hstart _ _
    split
    · exact hstart _ _
    · exact hhold _
  · exact ⟨_, hsame, begins_refl _⟩
theorem decideStart_chan (s : State) (c k : Chan) : begins (s.chan k) ((s.decideStart c).chan k) := by
  obtain ⟨x, hx, hbegins⟩ := decideStart_begins s c
  rw [hx]
  by_cases hk : k = c
  · subst hk
    rw [chan_setChan]
    exact hbegins
  · rw [chan_setChan_ne _ _ _ _ hk]
    exact begins_refl _
theorem decideStart_sq (s : State) (c : Chan) : (s.decideStart c).square = s.square := by
  obtain ⟨x, hx, -⟩ := decideStart_begins s c
  rw [hx]
  rfl
/-- A channel without a partner starts by the arrangement and its memory level (R64). -/
theorem decideStart_alone (hcond : (s.chan c).life.cond = .sampling) (hall : (s.chan c).allDecided = true) (hdec : s.square.straps[0].decided = true)
    (hen : (s.chan c).life.en = some true) (hpartner : s.partner c = none) :
    ((s.decideStart c).chan c).life.cond = (if arrIncludes s.chmode c = false then .keptOff else if (s.chan c).straps[0].source = 5#3 then .held else .booting) := by
  have hgo : ((s.chan c).life.cond = .sampling && (s.chan c).allDecided && s.square.straps[0].decided && (s.chan c).life.en = some true) = true := by
    rw [hcond, hall, hdec, hen]
    rfl
  unfold State.decideStart
  dsimp only
  rw [if_pos hgo, hpartner]
  by_cases hin : arrIncludes s.chmode c = false
  · rw [if_pos hin, hin, if_pos (show (!false) = true from rfl), chan_setChan]
  have hin' : (!arrIncludes s.chmode c) = false := by simpa using hin
  rw [if_neg hin, hin', if_neg Bool.false_ne_true]
  by_cases hsource : (s.chan c).straps[0].source = 5#3
  · rw [if_pos hsource, if_pos hsource, chan_onMach]
    obtain ⟨-, hheld⟩ := hold_begins (s.mach c) 0#32
    exact hheld
  · rw [if_neg hsource, if_neg hsource]
    dsimp only
    rw [chan_onMach]
    rfl
/-- While a channel samples, its partner waits for it. -/
theorem decideBoth_waits (hundec : (s.chan c).allDecided = false) (hcond : (s.chan c).life.cond = .sampling) (hen : (s.chan c).life.en = some true)
    (htrain : (s.chan c).mc.trainFail = none)
    (hheld : ∀ k : Chan, k ≠ c → (s.chan k).life.cond = .sampling → (s.chan k).allDecided = true → (s.chan k).straps[0].source ≠ 5#3) :
    s.decideBoth c = s := by
  have hown := decideStart_undecided hundec
  unfold State.decideBoth
  dsimp only
  rw [hown]
  cases hpartner : s.partner c with
  | none => rfl
  | some p =>
    obtain ⟨hback, hne, hin⟩ := partner_mutual hpartner
    have hwait : s.decideStart p = s := by
      unfold State.decideStart
      dsimp only
      split
      · next hgo =>
        simp only [Bool.and_eq_true, decide_eq_true_eq] at hgo
        obtain ⟨⟨⟨hpc, hall⟩, -⟩, -⟩ := hgo
        have habsent : (s.chan c).absent = false := by
          unfold Channel.absent
          rw [hcond, hen, htrain]
          rfl
        rw [hin, if_neg (by decide), if_neg (hheld p hne hpc hall), hback]
        dsimp only
        rw [habsent, if_neg Bool.false_ne_true, hundec, Bool.false_and, if_pos (show (!false) = true from rfl)]
      · rfl
    dsimp only
    rw [hwait, hown]

/-! ### Monitoring rounds (R65, R66) -/

theorem reading_plain {w : BitVec 16} (h : w < 0x400#16) : w.extractLsb' 14 2 = 0#2 ∧ w.extractLsb' 0 10 = w.setWidth 10 ∧ (w.setWidth 10).toNat = w.toNat := by
  have hw : w.toNat < 1024 := BitVec.lt_def.mp h
  refine ⟨BitVec.eq_of_toNat_eq ?_, BitVec.eq_of_toNat_eq ?_, ?_⟩
  · simp [BitVec.extractLsb'_toNat, Nat.shiftRight_eq_div_pow]
    omega
  · simp [BitVec.extractLsb'_toNat]
  · simp
    omega
/-- A pin measured again. -/
theorem monitor_monitored (p : Pin) (w : BitVec 16) : monitored p (p.monitor (monMeas w)) (some w) := by
  refine ⟨rfl, rfl, rfl, rfl, nofun, fun w' heq hplain => ?_⟩
  obtain rfl := Option.some.inj heq
  obtain ⟨hkind, hraw, hnat⟩ := reading_plain hplain
  have hbands : strapBands = bands := rfl
  have hmeas : monMeas w = classify (w.setWidth 10) := by
    unfold monMeas
    rw [hkind, hraw]
    rfl
  rw [hmeas]
  unfold shows Pin.monitor classify
  rw [hbands, hnat]
  cases hfind : bands.find? (fun b => b.2.1 ≤ w.toNat && w.toNat ≤ b.2.2.1) with
  | none => exact ⟨rfl, rfl⟩
  | some b =>
    refine ⟨rfl, ?_⟩
    simp [statusOf]
theorem monitored_none (p : Pin) : monitored p p none := ⟨rfl, rfl, rfl, rfl, fun _ => rfl, nofun⟩
/-- One pin of a round. -/
theorem monitorPins_cons (m : Mach) {i : Nat} (hi : i < 8) (w : BitVec 16) (r : List (BitVec 16)) : ∃ m1 : Mach,
    m.monitorPins i (w :: r) = m1.monitorPins (i + 1) r ∧ m1.ch.straps = m.ch.straps.set i (m.ch.straps[i].monitor (monMeas w)) ∧
      m1.ch.clk = m.ch.clk ∧ m1.ch.life = m.ch.life ∧ m1.ch.thr = m.ch.thr ∧ m1.ch.win = m.ch.win := by
  rw [Mach.monitorPins, dif_pos hi]
  refine ⟨_, rfl, ?_⟩
  split
  · exact ⟨rfl, rfl, rfl, rfl, rfl⟩
  · generalize (strapDetail i (monCause (monMeas w) (m.ch.straps[i].monitor (monMeas w)).status) (m.ch.straps[i].monitor (monMeas w))) = d
    obtain ⟨hstraps, hlife, hclk, hthr, hwin⟩ := report_straps { m with ch.straps := m.ch.straps.set i (m.ch.straps[i].monitor (monMeas w)) } 0x01#6 false false d
    simp only [raiseIf_straps, raiseIf_life, raiseIf_clk, raiseIf_thr, raiseIf_win]
    exact ⟨hstraps, hclk, hlife, hthr, hwin⟩
/-- A round from pin i on. -/
theorem monitorPins_round : (l : List (BitVec 16)) → (i : Nat) → (m : Mach) →
    (∀ j : Fin 8, j.val < i → (m.monitorPins i l).ch.straps[j] = m.ch.straps[j]) ∧
    (∀ j : Fin 8, i ≤ j.val → monitored m.ch.straps[j] (m.monitorPins i l).ch.straps[j] l[j.val - i]?) ∧
    (m.monitorPins i l).ch.clk = m.ch.clk ∧ (m.monitorPins i l).ch.life = m.ch.life ∧ (m.monitorPins i l).ch.thr = m.ch.thr ∧
    (m.monitorPins i l).ch.win = m.ch.win
  | [], i, m => ⟨fun _ _ => rfl, fun _ _ => monitored_none _, rfl, rfl, rfl, rfl⟩
  | w :: r, i, m => by
    by_cases hi : i < 8
    · obtain ⟨m1, hm1, hstraps, hclk, hlife, hthr, hwin⟩ := monitorPins_cons m hi w r
      obtain ⟨hbefore, hround, hclk', hlife', hthr', hwin'⟩ := monitorPins_round r (i + 1) m1
      have hother : ∀ j : Fin 8, j.val ≠ i → m1.ch.straps[j] = m.ch.straps[j] := fun j hj => by
        rw [hstraps]
        exact Vector.getElem_set_ne hi j.isLt (fun he => hj he.symm)
      rw [hm1]
      refine ⟨fun j hj => ?_, fun j hj => ?_, hclk'.trans hclk, hlife'.trans hlife, hthr'.trans hthr, hwin'.trans hwin⟩
      · rw [hbefore j (by omega), hother j (by omega)]
      · rcases Nat.eq_or_lt_of_le hj with heq | hlt
        · have hpin : m1.ch.straps[j] = m.ch.straps[j].monitor (monMeas w) := by
            rw [hstraps]
            subst heq
            exact Vector.getElem_set_self _
          rw [hbefore j (by omega), hpin, show j.val - i = 0 by omega]
          exact monitor_monitored _ w
        · have hnext := hround j hlt
          rw [hother j (by omega)] at hnext
          rw [show j.val - i = (j.val - (i + 1)) + 1 by omega]
          exact hnext
    · have hend : m.monitorPins i (w :: r) = m := by rw [Mach.monitorPins, dif_neg hi]
      rw [hend]
      exact ⟨fun _ _ => rfl, fun j hj => absurd j.isLt (by omega), rfl, rfl, rfl, rfl⟩
/-- One pin of the square's round. -/
theorem sqMonitorPins_cons (sq : Square) {i : Nat} (hi : i < 4) (w : BitVec 16) (r : List (BitVec 16)) : ∃ sq1 : Square,
    (sq.monitorPins i (w :: r)).1 = (sq1.monitorPins (i + 1) r).1 ∧ sq1.straps = sq.straps.set i (sq.straps[i].monitor (monMeas w)) ∧
      sq1.monWait = sq.monWait := by
  rw [Square.monitorPins, dif_pos hi]
  refine ⟨_, rfl, ?_⟩
  split <;> exact ⟨rfl, rfl⟩
theorem sqMonitorPins_round : (l : List (BitVec 16)) → (i : Nat) → (sq : Square) →
    (∀ j : Fin 4, j.val < i → (sq.monitorPins i l).1.straps[j] = sq.straps[j]) ∧
    (∀ j : Fin 4, i ≤ j.val → monitored sq.straps[j] (sq.monitorPins i l).1.straps[j] l[j.val - i]?) ∧
    (sq.monitorPins i l).1.monWait = sq.monWait
  | [], i, sq => ⟨fun _ _ => rfl, fun _ _ => monitored_none _, rfl⟩
  | w :: r, i, sq => by
    by_cases hi : i < 4
    · obtain ⟨sq1, hsq1, hstraps, hwait⟩ := sqMonitorPins_cons sq hi w r
      obtain ⟨hbefore, hround, hwait'⟩ := sqMonitorPins_round r (i + 1) sq1
      have hother : ∀ j : Fin 4, j.val ≠ i → sq1.straps[j] = sq.straps[j] := fun j hj => by
        rw [hstraps]
        exact Vector.getElem_set_ne hi j.isLt (fun he => hj he.symm)
      rw [hsq1]
      refine ⟨fun j hj => ?_, fun j hj => ?_, hwait'.trans hwait⟩
      · rw [hbefore j (by omega), hother j (by omega)]
      · rcases Nat.eq_or_lt_of_le hj with heq | hlt
        · have hpin : sq1.straps[j] = sq.straps[j].monitor (monMeas w) := by
            rw [hstraps]
            subst heq
            exact Vector.getElem_set_self _
          rw [hbefore j (by omega), hpin, show j.val - i = 0 by omega]
          exact monitor_monitored _ w
        · have hnext := hround j hlt
          rw [hother j (by omega)] at hnext
          rw [show j.val - i = (j.val - (i + 1)) + 1 by omega]
          exact hnext
    · have hend : (sq.monitorPins i (w :: r)).1 = sq := by rw [Square.monitorPins, dif_neg hi]
      rw [hend]
      exact ⟨fun _ _ => rfl, fun j hj => absurd j.isLt (by omega), rfl⟩
/-- A channel told of drifting device pins, n times over (R66). -/
def Channel.drifted : Nat → Channel → Channel
  | 0, x => x
  | n + 1, x => (x.raisedIf (decide (x.life.cond = .running) && x.driftOn) 44 fix0).drifted n
theorem drifts_drifted : (n : Nat) → (m : Mach) → m.drifts n = { m with ch := m.ch.drifted n }
  | 0, _ => rfl
  | n + 1, m => by
    have hone : m.drift = { m with ch := m.ch.raisedIf (decide (m.ch.life.cond = .running) && m.ch.driftOn) 44 fix0 } := raiseIf_raisedIf _ _ _ _
    rw [Mach.drifts, hone, drifts_drifted n]
    rfl
theorem drifted_keeps : (n : Nat) → (x : Channel) → (x.drifted n).thr = x.thr ∧ (x.drifted n).straps = x.straps
  | 0, _ => ⟨rfl, rfl⟩
  | n + 1, x => by
    rw [Channel.drifted, raisedIf_frame]
    exact drifted_keeps n _

/-! ### The commands -/

/-- The channel with pin i decided as q, recorded where it is not its own reading (R59). -/
def Channel.strapped (x : Channel) (i : Fin 8) (q : Pin) (cause : BitVec 3) : Channel :=
  if q.source = 0#3 then { x with straps := x.straps.set i q } else
    { x with straps := x.straps.set i q }.recorded 0x01#6 false false (strapDetail i.val cause q)
theorem strapped_keeps (x : Channel) (i : Fin 8) (q : Pin) (cause : BitVec 3) : (x.strapped i q cause).straps = x.straps.set i q ∧
    (x.strapped i q cause).life = x.life ∧ (x.strapped i q cause).mc = x.mc ∧
    ∃ more, (x.strapped i q cause).led.staging = x.led.staging ++ more := by
  unfold Channel.strapped
  split
  · exact ⟨rfl, rfl, rfl, [], (List.append_nil _).symm⟩
  · exact ⟨rfl, rfl, rfl, _, rfl⟩
/-- The scales complete a pin. -/
theorem strapMeasurement_puts {pin : Fin 8} {p0 c0 c1 c2 c3 : BitVec 10} (hcond : (s.chan c).life.cond = .sampling)
    (hen : (s.chan c).life.en = some true) (hsnap : (s.chan c).led.snapRead = true) (hdec : ∀ j : Fin 8, (s.chan c).straps[j].decided = decide (j < pin))
    (hroom : (s.chan c).led.staging.length < 16) {r : Pin × BitVec 3} (hr : (s.chan c).straps[pin].decide pin.val (measure p0 c0 c1 c2 c3) = r) :
    exec (.strapMeasurement c pin p0 c0 c1 c2 c3) s =
      .next ((s.onMach c (fun m => Mach.combination { m with ch := m.ch.strapped pin r.1 r.2 })).decideBoth c) := by
  have hbefore := before_decided (s.chan c).straps (Nat.le_of_lt pin.isLt) (fun j hj hlt => (hdec ⟨j, hj⟩).trans (decide_eq_true hlt))
  have hpin : (s.chan c).straps[pin].decided = false := (hdec pin).trans (decide_eq_false (Nat.lt_irrefl _))
  have hgo : ((s.chan c).life.cond = .sampling && (s.chan c).life.en = some true && (s.chan c).led.snapRead && !(s.chan c).straps[pin].decided
      && (upFrom 0 pin.val).all (fun i => ((s.chan c).straps.toList.getD i pinReset).decided)) = true := by
    rw [hbefore, hcond, hen, hsnap, hpin]
    rfl
  have hput : (s.mach c).putPin pin r.1 r.2 = { s.mach c with ch := (s.mach c).ch.strapped pin r.1 r.2 } := putPin_eq hroom pin r.1 r.2
  refine congrArg Host.Outcome.next ((if_pos hgo).trans ?_)
  rw [hr]
  refine congrArg (fun s1 : State => s1.decideBoth c) ?_
  unfold State.onMach
  dsimp only
  rw [hput]
/-- The combination check (R63). -/
theorem combination_checks (m : Mach) : ∃ y, m.combination = { m with ch := y } ∧ y.life = m.ch.life ∧
    (∀ j : Fin 8, j ≠ 2 → y.straps[j] = m.ch.straps[j]) ∧
    (m.ch.allDecided = true → m.ch.straps[0].level ≠ 0#3 → y.straps[2].level = 0#3) ∧ (∃ more, y.led.staging = m.ch.led.staging ++ more) ∧
    (m.ch.allDecided = true → y.allDecided = true) := by
  have hlevel : ∀ (p : Pin) (x : Meas), (p.fallBack 2 x 4#3 3#3 (fun h => h = 0#3)).1.level = 0#3 := fun p x => by
    unfold Pin.fallBack
    split
    · split
      · next h =>
        simp only [Bool.and_eq_true, decide_eq_true_eq] at h
        exact h.2
      · rfl
    · rfl
  unfold Mach.combination
  dsimp only
  split
  · next hgo =>
    generalize hr : m.ch.straps[2].fallBack 2 m.ch.straps[2].meas 4#3 3#3 (fun h => h = 0#3) = r
    have hzero : r.1.level = 0#3 := by rw [← hr]; exact hlevel _ _
    have hdecided : r.1.decided = true := by
      rw [← hr]
      obtain ⟨hd, -⟩ := fallBack_keeps m.ch.straps[2] 2 m.ch.straps[2].meas 4#3 3#3 (fun h => h = 0#3)
      exact hd
    have hparts : ∀ y : Channel, y.straps = m.ch.straps.set 2 r.1 → (∀ j : Fin 8, j ≠ 2 → y.straps[j] = m.ch.straps[j]) ∧ y.straps[2].level = 0#3 ∧
        (m.ch.allDecided = true → y.allDecided = true) := fun y hy => by
      have hother : ∀ j : Fin 8, j ≠ 2 → y.straps[j] = m.ch.straps[j] := fun j hj => by
        rw [hy]
        exact Vector.getElem_set_ne (by decide) j.isLt (fun he => hj (Fin.ext he.symm))
      have htwo : y.straps[2] = r.1 := by
        rw [hy]
        exact Vector.getElem_set_self _
      refine ⟨hother, by rw [htwo, hzero], fun hall => allDecided_iff.mpr (fun j => ?_)⟩
      by_cases hj : j = 2
      · rw [hj]
        exact (congrArg Pin.decided htwo).trans hdecided
      · rw [hother j hj]
        exact allDecided_iff.mp hall j
    unfold Mach.putPin
    split
    · obtain ⟨hother, htwo, hall⟩ := hparts { m.ch with straps := m.ch.straps.set 2 r.1 } rfl
      exact ⟨_, rfl, rfl, hother, fun _ _ => htwo, ⟨[], (List.append_nil _).symm⟩, hall⟩
    · obtain ⟨hstraps, hlife, -⟩ := report_straps { m with ch.straps := m.ch.straps.set 2 r.1 } 0x01#6 false false (strapDetail 2 r.2 r.1)
      obtain ⟨-, hstaging⟩ := report_begins { m with ch.straps := m.ch.straps.set 2 r.1 } 0x01#6 false false (strapDetail 2 r.2 r.1)
      obtain ⟨hother, htwo, hall⟩ := hparts _ hstraps
      exact ⟨_, report_channel _ _ _ _ _, hlife, hother, fun _ _ => htwo, hstaging, hall⟩
  · next hno =>
    refine ⟨m.ch, rfl, rfl, fun _ _ => rfl, fun hall h0 => ?_, ⟨[], (List.append_nil _).symm⟩, id⟩
    simpa [hall, h0] using hno
theorem partner_of_square {s1 s2 : State} (h : s1.square = s2.square) (c : Chan) : s1.partner c = s2.partner c := by
  unfold State.partner State.chmode
  rw [h]
theorem decideBoth_chan (s : State) (c k : Chan) : begins (s.chan k) ((s.decideBoth c).chan k) := by
  unfold State.decideBoth
  dsimp only
  split
  · exact begins_trans (decideStart_chan s c k) (begins_trans (decideStart_chan _ _ k) (decideStart_chan _ _ k))
  · exact decideStart_chan s c k
theorem decideBoth_alone (h : s.partner c = none) : s.decideBoth c = s.decideStart c := by
  unfold State.decideBoth
  dsimp only
  rw [partner_of_square (decideStart_sq s c), h]
theorem decideAll_sq (s : State) : s.decideAll.square = s.square := by
  unfold State.decideAll
  simp only [decideStart_sq]
theorem decideAll_still (h : ∀ k : Chan, (s.chan k).life.cond ≠ .sampling) : s.decideAll = s := by
  unfold State.decideAll
  simp only [decideStart_elsewhere (h _)]
/-- A channel's pins are measured again. -/
def Mach.monitorRound (m : Mach) (words : List (BitVec 16)) : Mach :=
  let m := ({ m with ch.clk.monWait := 0 } : Mach).monitorPins 0 (words.take 8)
  { m with ch := winPut m.ch 0x0019 (winGet m.ch 0x0019 + 1#24) }
theorem monitoringRound_channel (s : State) (c : Chan) (words : List (BitVec 16)) : exec (.monitoringRound c.castSucc words) s =
    .next (s.onMach c (fun m => if m.ch.life.cond = .running && monPeriod ≤ m.ch.clk.monWait then m.monitorRound words else m)) := by
  show execMonitoringRound c.castSucc words s = _
  unfold execMonitoringRound
  rw [ownerChan_castSucc]
  rfl
/-- A word of the first n pins is a word of the round. -/
theorem take_word {words : List (BitVec 16)} {n i : Nat} (hi : i < n) : (words.take n)[i - 0]? = words[i]? := by
  rw [List.getElem?_take, Nat.sub_zero, if_pos hi]
theorem decided_all {n : Nat} {v : Vector Pin n} (h : ∀ i : Fin n, v[i].decided = true) : v.toList.all (fun p => p.decided) = true := by
  refine List.all_eq_true.mpr (fun p hp => ?_)
  obtain ⟨i, hi, rfl⟩ := List.getElem_of_mem hp
  exact h ⟨i, by simpa using hi⟩
theorem any_odd {v : Vector Pin 8} {odd : Pin → Bool} {i : Fin 8} (h : odd v[i] = true) : v.toList.any odd = true :=
  List.any_eq_true.mpr ⟨v[i], by simp, h⟩
/-- The level of a pin in a snapshot body. -/
theorem snapLevels_get (b : List (BitVec 32)) {n i : Nat} (hi : i < n) : (snapLevels b n)[i]? = b[i]?.map (fun w => w.extractLsb' 10 3) := by
  unfold snapLevels
  rw [List.getElem?_map, List.getElem?_take, if_pos hi]
theorem hist_recalled (x : Option (List (BitVec 32))) {n i : Nat} (hi : i < n) :
    (x.map (fun b => snapLevels b n)).bind (fun l => l[i]?) = x.bind (fun b => b[i]?.map (fun w => w.extractLsb' 10 3)) := by
  cases x with
  | none => rfl
  | some b => exact snapLevels_get b hi
section
variable {pin : Fin 8} {p0 c0 c1 c2 c3 : BitVec 10} {r : Pin × BitVec 3} (hcond : (s.chan c).life.cond = .sampling)
  (hen : (s.chan c).life.en = some true) (hdec : ∀ j : Fin 8, (s.chan c).straps[j].decided = decide (j < pin))
include hcond hen hdec
/-- A pin before the last is decided, and the channel goes on sampling. -/
theorem strapMeasurement_before (hsnap : (s.chan c).led.snapRead = true) (hroom : (s.chan c).led.staging.length < 16)
    (hr : (s.chan c).straps[pin].decide pin.val (measure p0 c0 c1 c2 c3) = r) (htrain : (s.chan c).mc.trainFail = none)
    (hheld : ∀ k : Chan, k ≠ c → (s.chan k).life.cond = .sampling → (s.chan k).allDecided = true → (s.chan k).straps[0].source ≠ 5#3) (hpin : pin ≠ 7) :
    exec (.strapMeasurement c pin p0 c0 c1 c2 c3) s = .next (s.setChan c ((s.chan c).strapped pin r.1 r.2)) := by
  have hexec := strapMeasurement_puts hcond hen hsnap hdec hroom hr
  obtain ⟨hstraps, hlife, hmc, -⟩ := strapped_keeps (s.chan c) pin r.1 r.2
  have hother : ∀ j : Fin 8, j ≠ pin → ((s.chan c).strapped pin r.1 r.2).straps[j] = (s.chan c).straps[j] := fun j hj => by
    rw [hstraps]
    exact Vector.getElem_set_ne pin.isLt j.isLt (fun he => hj (Fin.ext he.symm))
  have hlast : ((s.chan c).strapped pin r.1 r.2).allDecided = false := by
    rw [Bool.eq_false_iff]
    intro hall
    have hseven := allDecided_iff.mp hall 7
    rw [hother 7 (fun he => hpin he.symm), hdec 7] at hseven
    exact absurd (of_decide_eq_true hseven) (by omega)
  have hnone : ({ s.mach c with ch := (s.mach c).ch.strapped pin r.1 r.2 } : Mach).combination = { s.mach c with ch := (s.chan c).strapped pin r.1 r.2 } := by
    unfold Mach.combination
    dsimp only
    rw [mach_ch, hlast, Bool.false_and, Bool.false_and, if_neg Bool.false_ne_true]
  have hput := onMach_channel s c (fun m => Mach.combination { m with ch := m.ch.strapped pin r.1 r.2 }) _ hnone
  refine hexec.trans (congrArg Host.Outcome.next ?_)
  rw [hput]
  refine decideBoth_waits ?_ ?_ ?_ ?_ fun k hk => ?_
  · rw [chan_setChan]
    exact hlast
  · rw [chan_setChan, hlife, hcond]
  · rw [chan_setChan, hlife, hen]
  · rw [chan_setChan, hmc, htrain]
  · rw [chan_setChan_ne _ _ _ _ hk]
    exact hheld k hk
end
/-- The last pin is decided: the combination check is made, and a channel without a partner starts. -/
theorem strapMeasurement_last {p0 c0 c1 c2 c3 : BitVec 10} {r : Pin × BitVec 3} (hcond : (s.chan c).life.cond = .sampling)
    (hen : (s.chan c).life.en = some true) (hdec : ∀ j : Fin 8, (s.chan c).straps[j].decided = decide (j < 7))
    (hsnap : (s.chan c).led.snapRead = true) (hroom : (s.chan c).led.staging.length < 16)
    (hr : (s.chan c).straps[(7 : Fin 8)].decide 7 (measure p0 c0 c1 c2 c3) = r) (hqdec : r.1.decided = true) :
    ∃ (s' : State) (more : List Staged), exec (.strapMeasurement c 7 p0 c0 c1 c2 c3) s = .next s' ∧
      (s'.chan c).straps[7] = r.1 ∧ (∀ j : Fin 8, j ≠ 2 → j ≠ 7 → (s'.chan c).straps[j] = (s.chan c).straps[j]) ∧
      ((s.chan c).straps[0].level ≠ 0#3 → ((s'.chan c).straps[2]).level = 0#3) ∧ (s'.chan c).led.staging = (s.chan c).led.staging ++ more ∧
      (s.square.straps[0].decided = false → (s'.chan c).life = (s.chan c).life) ∧
      (s.square.straps[0].decided = true → s.partner c = none → (s'.chan c).life.cond =
        (if arrIncludes s.chmode c = false then .keptOff else if (s.chan c).straps[0].source = 5#3 then .held else .booting)) := by
  have hexec := strapMeasurement_puts hcond hen hsnap hdec hroom hr
  obtain ⟨hstraps, hlife, -, hstaging⟩ := strapped_keeps (s.chan c) 7 r.1 r.2
  have hother : ∀ j : Fin 8, j ≠ 7 → ((s.chan c).strapped 7 r.1 r.2).straps[j] = (s.chan c).straps[j] := fun j hj => by
    rw [hstraps]
    exact Vector.getElem_set_ne (by decide) j.isLt (fun he => hj (Fin.ext he.symm))
  have hown : ((s.chan c).strapped 7 r.1 r.2).straps[(7 : Fin 8)] = r.1 := by
    rw [hstraps]
    exact Vector.getElem_set_self _
  have hall : ((s.chan c).strapped 7 r.1 r.2).allDecided = true := by
    refine allDecided_iff.mpr (fun j => ?_)
    by_cases hj : j = 7
    · rw [hj, hown]
      exact hqdec
    · rw [hother j hj, hdec j]
      exact decide_eq_true (by omega)
  obtain ⟨y, hy, hylife, hyother, hytwo, ⟨more, hymore⟩, hyall⟩ := combination_checks { s.mach c with ch := (s.chan c).strapped 7 r.1 r.2 }
  have hput : s.onMach c (fun m => Mach.combination { m with ch := m.ch.strapped 7 r.1 r.2 }) = s.setChan c y :=
    onMach_channel s c (fun m => Mach.combination { m with ch := m.ch.strapped 7 r.1 r.2 }) y hy
  rw [hput] at hexec
  obtain ⟨hbegun, more2, hmore2⟩ := decideBoth_chan (s.setChan c y) c c
  rw [chan_setChan] at hbegun hmore2
  obtain ⟨more1, hmore1⟩ := hstaging
  have hsampling : ((s.setChan c y).chan c).life = (s.chan c).life := by rw [chan_setChan, hylife]; exact hlife
  have hlevel0 : ((s.chan c).strapped 7 r.1 r.2).straps[(0 : Fin 8)] = (s.chan c).straps[(0 : Fin 8)] := hother 0 (by decide)
  have hy0 : y.straps[(0 : Fin 8)] = (s.chan c).straps[(0 : Fin 8)] := (hyother 0 (by decide)).trans hlevel0
  refine ⟨_, more1 ++ more ++ more2, hexec, ?_, fun j h2 h7 => ?_, fun h0 => ?_, ?_, fun hsq => ?_, fun hsq hpartner => ?_⟩
  · rw [hbegun]
    exact (hyother 7 (by decide)).trans hown
  · rw [hbegun, hyother j h2]
    exact hother j h7
  · rw [hbegun]
    refine hytwo hall ?_
    exact (congrArg Pin.level hlevel0).trans_ne h0
  · rw [hmore2, hymore, hmore1, List.append_assoc, List.append_assoc, List.append_assoc]
  · have hnone : (s.setChan c y).partner c = none := if_neg (show ¬ s.square.straps[0].decided = true by rw [hsq]; exact Bool.false_ne_true)
    rw [decideBoth_alone hnone, decideStart_square (s := s.setChan c y) hsq]
    exact hsampling
  · rw [decideBoth_alone (s := s.setChan c y) hpartner]
    have hstart := decideStart_alone (s := s.setChan c y) (c := c) (by rw [hsampling, hcond]) (by rw [chan_setChan]; exact hyall hall) hsq
      (by rw [hsampling, hen]) hpartner
    rw [hstart, chan_setChan]
    have hsource : y.straps[0].source = (s.chan c).straps[0].source := congrArg Pin.source hy0
    rw [hsource]
    rfl
/-- The square with device pin i decided, recorded where it is not its own reading. -/
def Square.strapped (sq : Square) (i : Fin 4) (r : Pin × BitVec 3) : Square :=
  let led := if r.1.source = 0#3 then sq.led else sq.led.arrive 0x01#6 false true (strapDetail (8 + i.val) r.2 r.1)
  let sq := { sq with straps := sq.straps.set i r.1, led := led }
  { sq with eth.mdio := if i = 3 then sq.phyWrites else sq.eth.mdio }
theorem squareStrapMeasurement_puts {pin : Fin 4} {p0 c0 c1 c2 c3 : BitVec 10} (hpor : s.square.porN = true) (hfailed : s.square.failed = false)
    (hsnap : s.square.led.snapRead = true) (hundec : s.square.straps[pin].decided = false)
    (hbefore : ∀ j : Fin 4, j < pin → s.square.straps[j].decided = true) :
    exec (.squareStrapMeasurement pin p0 c0 c1 c2 c3) s =
      .next (State.decideAll { s with square := s.square.strapped pin (s.square.straps[pin].decide (8 + pin.val) (measure p0 c0 c1 c2 c3)) }) := by
  have hfirst := before_decided s.square.straps (Nat.le_of_lt pin.isLt) (fun j hj hlt => hbefore ⟨j, hj⟩ hlt)
  have hgo : (s.square.porN && !s.square.failed && s.square.led.snapRead && !s.square.straps[pin].decided
      && (upFrom 0 pin.val).all (fun i => (s.square.straps.toList.getD i pinReset).decided)) = true := by
    rw [hfirst, hpor, hfailed, hsnap, hundec]
    rfl
  exact congrArg Host.Outcome.next (if_pos hgo)
end

/-- Settles O47, measurements, rounds, DRIFTCTL and the snapshot read in turn. -/
theorem straps : Obligations.Straps := by
  intro s c p0 c0 c1 c2 c3
  dsimp only
  refine ⟨fun pin hcond hen hsnap hdec hroom htrain hheld => ?_, fun pin hpor hfailed hsnap hundec hbefore => ?_, fun words hwf hrun => ⟨fun hearly => ?_, fun hdue => ?_⟩,
    fun words hfailed hdec hdue => ?_, fun v hwf hawake => ?_, fun hcond hsnap => ?_, fun hsnap => ?_⟩
  · obtain ⟨x, hfinds, hdecides⟩ := measured_decides (s.chan c).straps[pin] pin.val p0 c0 c1 c2 c3
    obtain ⟨hqdec, hqhist⟩ := decide_keeps (s.chan c).straps[pin] pin.val (measure p0 c0 c1 c2 c3)
    generalize hr : (s.chan c).straps[pin].decide pin.val (measure p0 c0 c1 c2 c3) = r at *
    refine ⟨x, r.1, r.2, hfinds, hdecides, hqdec, hqhist, fun hpin => ?_, fun hpin => ?_⟩
    · exact strapMeasurement_before hcond hen hdec hsnap hroom hr htrain hheld hpin
    · subst hpin
      exact strapMeasurement_last hcond hen hdec hsnap hroom hr hqdec
  · obtain ⟨x, hfinds, hdecides⟩ := measured_decides s.square.straps[pin] (8 + pin.val) p0 c0 c1 c2 c3
    obtain ⟨hqdec, -⟩ := decide_keeps s.square.straps[pin] (8 + pin.val) (measure p0 c0 c1 c2 c3)
    have hexec := squareStrapMeasurement_puts (p0 := p0) (c0 := c0) (c1 := c1) (c2 := c2) (c3 := c3) hpor hfailed hsnap hundec hbefore
    generalize s.square.straps[pin].decide (8 + pin.val) (measure p0 c0 c1 c2 c3) = r at *
    refine ⟨x, r.1, r.2, if r.1.source = 0#3 then s.square.led else s.square.led.arrive 0x01#6 false true (strapDetail (8 + pin.val) r.2 r.1), _,
      hfinds, hdecides, hqdec, fun hq => if_pos hq, hexec, decideAll_sq _, fun hnone k => ?_⟩
    rw [decideAll_still (s := { s with square := s.square.strapped pin r }) hnone]
    rfl
  · rw [monitoringRound_channel]
    refine congrArg Host.Outcome.next (onMach_id s c _ (if_neg ?_))
    rw [Bool.and_eq_true, decide_eq_true_eq, decide_eq_true_eq]
    exact fun h => absurd h.2 (Nat.not_le.mpr hearly)
  · rw [monitoringRound_channel]
    have hgo : ((s.mach c).ch.life.cond = .running && monPeriod ≤ (s.mach c).ch.clk.monWait) = true := by
      rw [mach_ch, hrun]
      exact decide_eq_true hdue
    obtain ⟨-, hround, hclk, hlife, hthr, hwin⟩ := monitorPins_round (words.take 8) 0 { s.mach c with ch.clk.monWait := 0 }
    refine ⟨_, rfl, onMach_elsewhere s c _, ?_⟩
    rw [chan_onMach, if_pos hgo]
    unfold Mach.monitorRound
    dsimp only
    refine ⟨?_, hclk, hlife, hthr, fun pin => ?_⟩
    · rw [winGet_winPut _ (by rw [hwin]; exact hwf), if_pos rfl]
      exact congrArg (fun w => winGet { s.chan c with win := w } 0x19 + 1#24) hwin
    · have hpin := hround pin (Nat.zero_le _)
      rw [take_word pin.isLt] at hpin
      exact hpin
  · have hall := decided_all hdec
    have hgo : ¬ (s.square.failed || !s.square.straps.toList.all (fun p => p.decided) || s.square.monWait < monPeriod) = true := by
      rw [hall, hfailed, decide_eq_false (show ¬ s.square.monWait < monPeriod from Nat.not_lt.mpr hdue)]
      exact Bool.false_ne_true
    obtain ⟨-, hround, hwait⟩ := sqMonitorPins_round (words.take 4) 0 { s.square with monWait := 0 }
    refine ⟨_, congrArg Host.Outcome.next (if_neg hgo), ?_⟩
    have hdrift : ∀ n, (fun m : Mach => m.drifts n) = fun m => { m with ch := m.ch.drifted n } := fun n => funext (drifts_drifted n)
    dsimp only
    rw [hdrift, onAll_map]
    obtain ⟨hthr, hstraps⟩ := drifted_keeps (({ s.square with monWait := 0 } : Square).monitorPins 0 (words.take 4)).2 (s.chan c)
    refine ⟨hwait, ?_, ?_, fun pin => ?_⟩
    · rw [← hthr]
      exact congrArg Channel.thr (Vector.getElem_map _ _)
    · rw [← hstraps]
      exact congrArg Channel.straps (Vector.getElem_map _ _)
    · have hpin := hround pin (Nat.zero_le _)
      rw [take_word pin.isLt] at hpin
      exact hpin
  · refine ⟨_, congrArg Host.Outcome.next (program_onMach (fun m => m.putDriftctl v) hawake), ?_⟩
    rw [chan_onMach]
    unfold Mach.putDriftctl
    dsimp only
    rw [raiseIf_raisedIf]
    dsimp only
    refine ⟨?_, ?_, ?_, fun hset hwas hodd => ?_⟩
    · rw [winGet_raisedIf, mach_ch, winGet_winPut _ hwf, if_pos rfl]
    · rw [raisedIf_frame]
      rfl
    · rw [raisedIf_frame]
      rfl
    · obtain ⟨i, hi⟩ := hodd
      have hany : (s.chan c).straps.toList.any (fun p => p.status ≠ 0#2 || p.source ≠ 0#3) = true := any_odd (i := i) (by simpa using hi)
      have hen : (bit v 0 && !(s.mach c).ch.driftOn && ((winPut (s.mach c).ch 0x0018 (v &&& 1#24)).straps.toList.any (fun p => p.status ≠ 0#2 || p.source ≠ 0#3) ||
          (s.mach c).sq.straps.toList.any (fun p => p.status ≠ 0#2 || p.source ≠ 0#3))) = true := by
        rw [hset, show (s.mach c).ch.driftOn = false from hwas, show (winPut (s.mach c).ch 0x0018 (v &&& 1#24)).straps = (s.chan c).straps from rfl, hany]
        rfl
      rw [hen]
      exact raised_pending _ _ _
  · show execLedgerSnapshotRead c.castSucc s = _
    unfold execLedgerSnapshotRead
    rw [ownerChan_castSucc]
    refine congrArg Host.Outcome.next (onMach_channel s c _ _ ((if_pos ?_).trans ?_))
    · rw [mach_ch, hcond, hsnap]
      rfl
    · have hpins : Vector.ofFn (fun i : Fin 8 => ({ (s.chan c).straps[i] with hist := (((s.chan c).led.item false .snapshot).map (fun b => snapLevels b 8)).bind (fun l => l[i.val]?) } : Pin)) =
          Vector.ofFn (fun i : Fin 8 => recalls (s.chan c).led false i.val (s.chan c).straps[i]) := by
        congr 1
        funext i
        rw [hist_recalled _ i.isLt]
        rfl
      rw [← hpins]
      rfl
  · show execLedgerSnapshotRead 4 s = _
    refine congrArg Host.Outcome.next ((if_neg (show ¬ s.square.led.snapRead = true by rw [hsnap]; exact Bool.false_ne_true)).trans ?_)
    have hpins : Vector.ofFn (fun i : Fin 4 => ({ s.square.straps[i] with hist := ((s.square.led.item true .snapshot).map (fun b => snapLevels b 4)).bind (fun l => l[i.val]?) } : Pin)) =
        Vector.ofFn (fun i : Fin 4 => recalls s.square.led true i.val s.square.straps[i]) := by
      congr 1
      funext i
      rw [hist_recalled _ i.isLt]
      rfl
    rw [← hpins]
    rfl
end Sys2Proof.Machine
end

section
/-! The pair: mirror records, acknowledgements, loss, joining and failover (18). -/
namespace Sys2Proof.Machine

section
variable {s : State} {c a : Chan} {m : Mach}

/-! ### What the channel's own bookkeeping leaves -/

/-- A read depends on the channel's memory, its size, and whether the arrangement pairs it. -/
theorem peek_of_view {m n : Mach} (hc : n.c = m.c) (hstraps : n.ch.straps = m.ch.straps) (hpair : n.ch.pair.inPair = m.ch.pair.inPair)
    (hphys : n.ch.phys = m.ch.phys) (x : Nat) : n.peek x = m.peek x := by
  unfold Mach.peek Channel.place Channel.undoArea Channel.memCells Mach.memBits Mach.nearBits
  rw [hc, hstraps, hpair, hphys]
theorem cell_of_chan {m : Mach} (hc : m.c = c) (h : s.chan c = m.ch) (x : Nat) : s.cell c x = m.peek x :=
  peek_of_view hc.symm (congrArg Channel.straps h) (congrArg (fun y : Channel => y.pair.inPair) h) (congrArg Channel.phys h) x
theorem sameCells_of {s s' : State} (hstraps : (s'.chan c).straps = (s.chan c).straps) (hpair : (s'.chan c).pair.inPair = (s.chan c).pair.inPair)
    (hphys : (s'.chan c).phys = (s.chan c).phys) : sameCells s s' c :=
  fun _ => peek_of_view (m := s.mach c) (n := s'.mach c) rfl hstraps hpair hphys _
/-- Records, signals, ports and counters leave the pair, the life, the threads and the stored bits, and every pending signal pending. -/
def pairKeeps (m n : Mach) : Prop :=
  n.c = m.c ∧ n.ch.straps = m.ch.straps ∧ n.ch.phys = m.ch.phys ∧ n.ch.thr = m.ch.thr ∧ n.ch.life = m.ch.life ∧ n.ch.pair = m.ch.pair ∧
    ∀ v, (mapGet m.ch.proc.pend v).isSome = true → (mapGet n.ch.proc.pend v).isSome = true
theorem pairKeeps_refl (m : Mach) : pairKeeps m m := ⟨rfl, rfl, rfl, rfl, rfl, rfl, fun _ => id⟩
theorem pairKeeps_trans {m n x : Mach} (h : pairKeeps m n) (h' : pairKeeps n x) : pairKeeps m x := by
  obtain ⟨h1, h2, h3, h4, h5, h6, h7⟩ := h
  obtain ⟨k1, k2, k3, k4, k5, k6, k7⟩ := h'
  exact ⟨k1.trans h1, k2.trans h2, k3.trans h3, k4.trans h4, k5.trans h5, k6.trans h6, fun v hv => k7 v (h7 v hv)⟩
theorem pairKeeps_ite {m x y : Mach} {p : Prop} [Decidable p] (hx : pairKeeps m x) (hy : pairKeeps m y) : pairKeeps m (if p then x else y) := by
  split
  · exact hx
  · exact hy
theorem raise_pairKeeps (m : Mach) (v : Nat) (x : Cell) : pairKeeps m (m.raise v x) := by
  rw [raise_raised]
  refine ⟨rfl, rfl, rfl, rfl, rfl, rfl, fun w hw => ?_⟩
  unfold Channel.raised
  by_cases hwv : w = v
  · rw [hwv, mapGet_mapPut]
    rfl
  · rw [mapGet_mapPut_ne _ _ _ _ hwv]
    exact hw
theorem raiseIf_pairKeeps (m : Mach) (en : Bool) (v : Nat) (x : Cell) : pairKeeps m (m.raiseIf en v x) :=
  pairKeeps_ite (raise_pairKeeps m v x) (pairKeeps_refl m)
theorem bumpC_pairKeeps (m : Mach) (e : Nat) : pairKeeps m (m.bumpC e) := pairKeeps_refl m
theorem request_pairKeeps (m : Mach) (i : Item) : pairKeeps m (m.request i) := pairKeeps_refl m
theorem setPort_pairKeeps (m : Mach) (p : Port) : pairKeeps m (m.setPort p) := pairKeeps_refl m
theorem report_pairKeeps (m : Mach) (cls : BitVec 6) (spec flag : Bool) (detail : BitVec 32) : pairKeeps m (m.report cls spec flag detail) := by
  have hbump : pairKeeps m (m.bumpIf (!decide (m.ch.led.staging.length < 16)) 50) := pairKeeps_ite (bumpC_pairKeeps m 50) (pairKeeps_refl m)
  have hled (n : Mach) : pairKeeps n { n with ch.led := n.ch.led.arrive cls spec flag detail } := pairKeeps_refl n
  exact pairKeeps_trans (pairKeeps_trans hbump (hled _)) (raiseIf_pairKeeps _ _ _ _)
theorem enterRing_pairKeeps (m : Mach) (x : RxFrame) : pairKeeps m (m.enterRing x) :=
  pairKeeps_trans (pairKeeps_trans (setPort_pairKeeps m _) (raise_pairKeeps _ _ _)) (bumpC_pairKeeps _ _)
/-- Delivery of a handover's frames. -/
theorem feed_pairKeeps : (n : Nat) → (m : Mach) → pairKeeps m (m.feed n)
  | 0, m => pairKeeps_refl m
  | n + 1, m => by
    unfold Mach.feed
    split
    · exact pairKeeps_refl m
    · next x r _ =>
      refine pairKeeps_ite (pairKeeps_refl m) ?_
      have henter : pairKeeps m ((m.setPort { m.port with handover := r }).enterRing x) :=
        pairKeeps_trans (setPort_pairKeeps m _) (enterRing_pairKeeps _ _)
      refine pairKeeps_ite (pairKeeps_trans henter ?_) (pairKeeps_trans henter (feed_pairKeeps n _))
      exact pairKeeps_trans (raiseIf_pairKeeps _ _ _ _) (setPort_pairKeeps _ _)

/-! ### Applying records (R405, R408, R412) -/

theorem apply_leader (h : s.leader c = some a) (ok : Bool) : exec (.mirrorRecordApply c ok) s = .next (if ok then s.applyNext c a else s) := by
  show execMirrorRecordApply c ok s = _
  unfold execMirrorRecordApply
  rw [h]
/-- A record that is no COMMIT. -/
theorem next_plain {p : Pair} {n : BitVec 24} {r : MirrorRec} (h : p.buf[p.applied]? = some (n, r)) (hno : ∀ e w, r ≠ .commit e w) :
    p.next = some r := by
  unfold Pair.next
  rw [h]
  cases r
  case commit e w => exact absurd rfl (hno e w)
  all_goals rfl
/-- The leader counts an applied record. -/
def Mach.countApplied (m : Mach) : Mach := { m with ch.pair.applied := m.ch.pair.applied + 1 }
theorem applyNext_plain {r : MirrorRec} (h : (s.chan a).pair.next = some r) (hno : ∀ e w, r ≠ .commit e w) :
    s.applyNext c a = (s.onMach c (fun m => m.applyRecord r)).onMach a Mach.countApplied := by
  unfold State.applyNext
  rw [h]
  cases r
  case commit e w => exact absurd rfl (hno e w)
  all_goals rfl
/-- What a step of a store leaves. -/
theorem stepped_keeps {m n : Mach} (h : n = m.stepped n) : n.c = m.c ∧ n.sq = m.sq ∧ n.ch.thr = m.ch.thr ∧ n.ch.life = m.ch.life ∧
    n.ch.boot = m.ch.boot ∧ n.ch.straps = m.ch.straps ∧ n.ch.pair = { m.ch.pair with buf := n.ch.pair.buf, nextSeq := n.ch.pair.nextSeq } := by
  rw [h]
  exact ⟨rfl, rfl, rfl, rfl, rfl, rfl, rfl⟩
/-- A standby logs a cell of memory before it is written. -/
def Mach.logged (m : Mach) (x : Nat) : Mach := { m with ch.pair.undo := (x, m.peek x) :: m.ch.pair.undo }
/-- A STORE record of one cell of memory on a standby. -/
theorem applyRecord_store {l k : Nat} {v : Cell} (hk : k < 16) (hrole : m.ch.pair.role = .standby)
    (hplace : ∀ i < 16, m.ch.place (l * 16 + i) = .memory) :
    ∃ n, m.applyRecord (.store l [(k, v)]) = n ∧ n.c = m.c ∧ n.ch.pair.undo = (l * 16 + k, m.peek (l * 16 + k)) :: m.ch.pair.undo ∧
      n.ch.thr = m.ch.thr ∧ ∀ b, n.peek b = if b = l * 16 + k then v else m.peek b := by
  have hentry : m.undoEntry (l * 16 + k) = (l * 16 + k, m.peek (l * 16 + k)) := by
    unfold Mach.undoEntry
    rw [hplace k hk]
  have hlog : m.logUndoIf [l * 16 + k] = m.logged (l * 16 + k) := by
    unfold Mach.logUndoIf Mach.logged
    rw [if_pos hrole]
    unfold Mach.logUndo
    rw [hentry]
    rfl
  have hplace' : ∀ i < 16, (m.logged (l * 16 + k)).ch.place (l * 16 + i) = .memory := hplace
  have happly : m.applyRecord (.store l [(k, v)]) = (m.logged (l * 16 + k)).memStep .unitPort l [(k, v, false)] := by
    show (m.logUndoIf [l * 16 + k]).portWrite l [(k, v)] = _
    rw [hlog]
    have hbase := hplace' 0 (by decide)
    unfold Mach.portWrite
    rw [Nat.add_zero] at hbase
    rw [hbase]
    rfl
  have hundo : (m.logged (l * 16 + k)).ch.pair.undo = (l * 16 + k, m.peek (l * 16 + k)) :: m.ch.pair.undo := rfl
  have hthr0 : (m.logged (l * 16 + k)).ch.thr = m.ch.thr := rfl
  have hc0 : (m.logged (l * 16 + k)).c = m.c := rfl
  have hpeek0 : ∀ b, (m.logged (l * 16 + k)).peek b = m.peek b := fun b => peek_of_view rfl rfl rfl rfl b
  generalize m.logged (l * 16 + k) = m0 at *
  obtain ⟨hstep, -⟩ := memStep_steps_of (ag := .unitPort) (by decide) m0 l [(k, v, false)]
  have hpeek := peek_memStep (ag := .unitPort) (by decide) (l := l) (cells := [(k, v, false)]) hplace'
  rw [happly]
  generalize m0.memStep .unitPort l [(k, v, false)] = n at *
  obtain ⟨hc, -, hthr, -, -, -, hpair⟩ := stepped_keeps hstep
  refine ⟨n, rfl, hc.trans hc0, (congrArg Pair.undo hpair).trans hundo, hthr.trans hthr0, fun b => ?_⟩
  rw [hpeek b, hpeek0]
  by_cases hb : b = l * 16 + k
  · rw [if_pos (by omega), if_pos hb, show b % 16 = k by omega]
    simp [mapGet, writtenOver]
  · rw [if_neg hb]
    split
    · next hline =>
      have hpos : ¬ k = b % 16 := by omega
      simp [mapGet, hpos, writtenOver]
    · rfl
/-- A STORE record that the leader's stream offers next. -/
theorem store_applies (hne : a ≠ c) (hlead : s.leader c = some a) {n : BitVec 24} {l k : Nat} {v : Cell}
    (hbuf : (s.chan a).pair.buf[(s.chan a).pair.applied]? = some (n, .store l [(k, v)])) (hk : k < 16) (hrole : (s.chan c).pair.role = .standby)
    (hplace : ∀ i < 16, (s.chan c).place (l * 16 + i) = .memory) :
    ∃ s', exec (.mirrorRecordApply c true) s = .next s' ∧ (s'.chan c).pair.undo = (l * 16 + k, s.cell c (l * 16 + k)) :: (s.chan c).pair.undo ∧
      s'.cell c (l * 16 + k) = v ∧ (∀ b, b ≠ l * 16 + k → s'.cell c b = s.cell c b) ∧
      s'.chan a = { s.chan a with pair := { (s.chan a).pair with applied := (s.chan a).pair.applied + 1 } } ∧ (s'.chan c).thr = (s.chan c).thr := by
  obtain ⟨n1, hn1, hc1, hundo, hthr, hpeek⟩ := applyRecord_store (m := s.mach c) (v := v) hk hrole hplace
  have hs' := applyNext_plain (s := s) (c := c) (next_plain hbuf nofun) nofun
  have hchan : ((s.onMach c (fun m => m.applyRecord (.store l [(k, v)]))).onMach a Mach.countApplied).chan c = n1.ch := by
    rw [chan_onMach_ne _ _ _ _ hne.symm, chan_onMach, hn1]
  have hcell : ∀ b, ((s.onMach c (fun m => m.applyRecord (.store l [(k, v)]))).onMach a Mach.countApplied).cell c b = if b = l * 16 + k then v else s.cell c b :=
    fun b => (cell_of_chan hc1 hchan b).trans (hpeek b)
  refine ⟨_, (apply_leader hlead true).trans (congrArg _ hs'), ?_, ?_, fun b hb => ?_, ?_, ?_⟩
  · rw [hchan]
    exact hundo
  · rw [hcell, if_pos rfl]
  · rw [hcell, if_neg hb]
  · rw [chan_onMach]
    unfold Mach.countApplied
    rw [mach_ch, chan_onMach_ne _ _ _ _ hne]
  · rw [hchan]
    exact hthr

/-! ### A commit (R412) -/

/-- The pair record may be requested after a commit. -/
theorem epochRecord_frame (m : Mach) : ∃ (t : Nat) (l : Ledger), m.epochRecord = { m with ch := { m.ch with pair := { m.ch.pair with recTime := t }, led := l } } ∧
    l.staging = m.ch.led.staging ∧ l.due = m.ch.led.due := by
  have hrequest : ∀ (l : Ledger) (i : Item), (l.request i).staging = l.staging ∧ (l.request i).due = l.due := fun l i => by
    unfold Ledger.request
    split <;> exact ⟨rfl, rfl⟩
  unfold Mach.epochRecord
  dsimp only
  split
  · obtain ⟨hstaging, hdue⟩ := hrequest m.ch.led .pair
    exact ⟨_, _, rfl, hstaging, hdue⟩
  · exact ⟨m.ch.pair.recTime, m.ch.led, rfl, rfl, rfl⟩
theorem commitHere_standby (hrole : m.ch.pair.role = .standby) (e : BitVec 24) (words : List (BitVec 11 × Cell)) : ∃ (t : Nat) (l : Ledger),
    m.commitHere e words = { m with ch := { m.ch with
      pair := { m.ch.pair with undo := [], epoch := e, formation := false, role := .standby, linkUp := true, recTime := t }, led := l } } ∧
    l.staging = ({ m.ch.led with due := m.ch.led.due ++ words } : Ledger).takeDue.staging ∧
    l.due = ({ m.ch.led with due := m.ch.led.due ++ words } : Ledger).takeDue.due := by
  obtain ⟨t, l, heq, hstaging, hdue⟩ := epochRecord_frame { m with ch.pair := { m.ch.pair with undo := [], epoch := e, formation := false, role := .standby, linkUp := true }, ch.led := ({ m.ch.led with due := m.ch.led.due ++ words } : Ledger).takeDue }
  refine ⟨t, l, ?_, hstaging, hdue⟩
  unfold Mach.commitHere
  dsimp only
  rw [decide_eq_false (by rw [hrole]; decide), if_neg Bool.false_ne_true]
  exact heq

/-- User words due enter the queue as far as it has room. -/
theorem takeDue_counts (l : Ledger) : l.takeDue.staging.length = max l.staging.length (min 16 (l.staging.length + l.due.length)) := by
  unfold Ledger.takeDue
  simp only [List.length_append, List.length_map, List.length_take]
  omega
theorem takeDue_order (l : Ledger) : l.takeDue.staging ++ l.takeDue.due.map (fun x => .user x.1 x.2 false) =
    l.staging ++ l.due.map (fun x => .user x.1 x.2 false) := by
  unfold Ledger.takeDue
  dsimp only
  rw [List.append_assoc, ← List.map_append, List.take_append_drop]
theorem takeDue_all {l : Ledger} (h : l.staging.length + l.due.length ≤ 16) :
    l.takeDue.staging = l.staging ++ l.due.map (fun x => .user x.1 x.2 false) ∧ l.takeDue.due = [] := by
  unfold Ledger.takeDue
  dsimp only
  rw [List.take_of_length_le (by omega), List.drop_of_length_le (by omega)]
  exact ⟨rfl, rfl⟩
theorem applyNext_commit {e : BitVec 24} {w : List (BitVec 11 × Cell)} {x : Channel} (hnext : (s.chan a).pair.next = some (.commit e w))
    (hx : (s.mach c).applyRecord (.commit e w) = { s.mach c with ch := x }) (hup : s.square.up = true) :
    s.applyNext c a = ((((s.setChan c x).onMach a Mach.countApplied).onMach c (fun m => { m with ch := winPut m.ch 0x8004 (winGet (s.chan a) 0x8004) })).onMach a
      (fun m => m.setPort (m.port.commit e))) := by
  have hfirst := onMach_channel s c (fun m => m.applyRecord (.commit e w)) x hx
  unfold State.applyNext
  rw [hnext]
  dsimp only
  rw [hfirst]
  exact if_pos hup
theorem applied_chan (hne : a ≠ c) (s : State) (x : Channel) (v : Payload) (g : Mach → Mach) :
    ((((s.setChan c x).onMach a Mach.countApplied).onMach c (fun m => { m with ch := winPut m.ch 0x8004 v })).onMach a g).chan c = winPut x 0x8004 v := by
  rw [chan_onMach_ne _ _ _ _ hne.symm, chan_onMach]
  show winPut (((s.setChan c x).onMach a Mach.countApplied).chan c) 0x8004 v = _
  rw [chan_onMach_ne _ _ _ _ hne.symm, chan_setChan]
/-- The COMMIT at the head of the leader's stream is applied. -/
theorem commit_applies (hne : a ≠ c) (hlead : s.leader c = some a) {n e : BitVec 24} {w : List (BitVec 11 × Cell)} {r : List (BitVec 24 × MirrorRec)}
    (hbuf : (s.chan a).pair.buf = (n, .commit e w) :: r) (happlied : (s.chan a).pair.applied = 0) (hrole : (s.chan c).pair.role = .standby)
    (hup : s.square.up = true) :
    ∃ (s' : State) (t : Nat) (l : Ledger), exec (.mirrorRecordApply c true) s = .next s' ∧
      (s'.chan c).pair = { (s.chan c).pair with undo := [], epoch := e, formation := false, role := .standby, linkUp := true, recTime := t } ∧
      (s'.chan c).led = l ∧ l.staging = ({ (s.chan c).led with due := (s.chan c).led.due ++ w } : Ledger).takeDue.staging ∧
      l.due = ({ (s.chan c).led with due := (s.chan c).led.due ++ w } : Ledger).takeDue.due ∧
      s'.square.ports[a] = (s.square.ports[a]).commit e ∧ sameCells s s' c ∧ (s'.chan c).thr = (s.chan c).thr := by
  have hnext : (s.chan a).pair.next = some (.commit e w) := by
    unfold Pair.next
    rw [hbuf, happlied]
    rfl
  obtain ⟨t, l, hx, hstaging, hdue⟩ := commitHere_standby (m := s.mach c) hrole e w
  have hs' := applyNext_commit hnext hx hup
  refine ⟨_, t, l, (apply_leader hlead true).trans (congrArg _ hs'), ?_⟩
  have hchan := applied_chan hne s { s.chan c with pair := { (s.chan c).pair with undo := [], epoch := e, formation := false, role := .standby, linkUp := true, recTime := t }, led := l }
    (winGet (s.chan a) 0x8004) (fun m => m.setPort (m.port.commit e))
  refine ⟨congrArg Channel.pair hchan, congrArg Channel.led hchan, hstaging, hdue, ?_, ?_, (congrArg Channel.thr hchan).trans rfl⟩
  · exact Vector.getElem_set_self _
  · exact sameCells_of ((congrArg Channel.straps hchan).trans rfl) ((congrArg (fun y : Channel => y.pair.inPair) hchan).trans rfl) ((congrArg Channel.phys hchan).trans rfl)

/-! ### Acknowledgements (R406, R409, R412) -/

theorem ack_follower (h : s.follower c = some a) (hrun : (s.chan c).life.cond = .running) (seq : BitVec 24) (negative : Bool) :
    exec (.mirrorAcknowledgement c seq negative) s =
      .next (s.onMach c (fun m => if negative then m.nacked else m.acked seq (s.chan a).pair.undo.length)) := by
  show execMirrorAcknowledgement c seq negative s = _
  unfold execMirrorAcknowledgement
  rw [h]
  exact congrArg Host.Outcome.next (if_neg (fun hno => hno hrun))
theorem satAdd_one {w : Nat} (p : BitVec w) : satAdd p 1 = upTo p := by
  have hlast := p.isLt
  unfold satAdd upTo
  by_cases h : p.toNat + 1 = 2 ^ w
  · rw [if_pos (by omega), if_pos h]
    exact BitVec.eq_of_toNat_eq (by rw [BitVec.toNat_allOnes]; omega)
  · rw [if_neg (by omega), if_neg h]
/-- The oldest record is acknowledged. -/
theorem acked_oldest {n : BitVec 24} {r : MirrorRec} {rest : List (BitVec 24 × MirrorRec)} (hbuf : m.ch.pair.buf = (n, r) :: rest)
    (happlied : m.ch.pair.applied = 1) (occ : Nat) : m.acked n occ =
      (({ m with ch.pair := { m.ch.pair with buf := rest, applied := 0, tries := 0, linkUp := true } } : Mach).ackRecords [(n, r)]).occupancy occ := by
  have hseq : seqLe n n = true := by unfold seqLe; simp
  unfold Mach.acked
  dsimp only
  rw [hbuf, happlied]
  simp [hseq]
theorem ackRecords_plain {n : BitVec 24} {r : MirrorRec} (hno : ∀ e w, r ≠ .commit e w) (m : Mach) : m.ackRecords [(n, r)] = m := by
  cases r
  case commit e w => exact absurd rfl (hno e w)
  all_goals rfl
theorem occupancy_low {occ : Nat} (h : occ < 1572864) : m.occupancy occ = { m with ch.pair := { m.ch.pair with undoOcc := occ, backSince := none } } := by
  unfold Mach.occupancy
  dsimp only
  rw [decide_eq_false (by omega), if_neg (by omega), Bool.false_and, Bool.false_and, Bool.or_false]
  rfl
/-- The report of occupancy may raise vector 41 and change what is known of it. -/
theorem occupancy_frame (m : Mach) (occ : Nat) : ∃ (near : Bool) (back : Option Nat),
    (m.occupancy occ).ch.pair = { m.ch.pair with undoOcc := occ, nearFull := near, backSince := back } ∧ (m.occupancy occ).ch.led = m.ch.led ∧
      (m.occupancy occ).ch.phys = m.ch.phys ∧ (m.occupancy occ).ch.thr = m.ch.thr ∧
      ∀ v, (mapGet m.ch.proc.pend v).isSome = true → (mapGet (m.occupancy occ).ch.proc.pend v).isSome = true := by
  unfold Mach.occupancy
  dsimp only
  rw [raiseIf_led]
  generalize hp : { m.ch.pair with undoOcc := occ, nearFull := m.ch.pair.nearFull || decide (1572864 ≤ occ), backSince := if 2080768 ≤ occ then some (m.ch.pair.backSince.getD m.ch.clk.tb.toNat) else none } = p
  obtain ⟨-, -, hphys, hthr, -, hpair, hpend⟩ := raiseIf_pairKeeps { m with ch := { m.ch with pair := p } } (decide (1572864 ≤ occ) && !m.ch.pair.nearFull && winBit { m.ch with pair := p } 0x8001 0) 41 fix0
  exact ⟨_, _, hpair.trans hp.symm, rfl, hphys, hthr, hpend⟩
theorem releaseN_zero : (l : List Staged) → releaseN 0 l = l
  | [] => rfl
  | _ :: _ => rfl

/-- What a commit's acknowledgement does to an active. -/
theorem commitAcked_active (hrole : m.ch.pair.role = .active) (e : BitVec 24) : ∃ (t : Nat),
    (m.commitAcked e 0).ch.pair = { m.ch.pair with role := .active, epoch := e, formation := false, nearFull := false, ready := false, lastCommit := m.ch.clk.tb.toNat, recTime := t } ∧
      (m.commitAcked e 0).ch.led.staging = m.ch.led.staging ∧ (m.commitAcked e 0).ch.phys = m.ch.phys ∧ (m.commitAcked e 0).ch.thr = m.ch.thr ∧
      (bit (winGet m.ch 0x8001) 1 = true → (mapGet (m.commitAcked e 0).ch.proc.pend 42).isSome = true) := by
  generalize hR : m.commitAcked e 0 = R
  unfold Mach.commitAcked at hR
  extract_lets forms mb chb led0 pair0 m1 m2 ch2 pair2 at hR
  have hforms : forms = false := decide_eq_false (by rw [hrole]; decide)
  rw [hforms, if_neg Bool.false_ne_true] at hR
  obtain ⟨-, -, hphys, hthr, -, hpair, hpend⟩ := raiseIf_pairKeeps m1 (winBit m1.ch 0x8001 1) 42 (fix e)
  have hled : m2.ch.led = m1.ch.led := raiseIf_led _ _ _ _
  obtain ⟨t, l, heq, hstaging, -⟩ := epochRecord_frame m2
  have hheld : m1.ch.led.staging = m.ch.led.staging := releaseN_zero _
  rw [← hR, heq]
  refine ⟨t, ?_, hstaging.trans ((congrArg Ledger.staging hled).trans hheld), hphys, hthr, fun hbit => ?_⟩
  · dsimp only
    rw [show m2.ch.pair = m1.ch.pair from hpair]
  · have hen : winBit m1.ch 0x8001 1 = true := hbit
    show (mapGet m2.ch.proc.pend 42).isSome = true
    rw [show m2 = m1.raiseIf (winBit m1.ch 0x8001 1) 42 (fix e) from rfl, hen, raiseIf_raisedIf]
    exact raised_pending _ _ _
/-- The acknowledgement of a COMMIT without user words ends the epoch. -/
theorem commit_acked {n e : BitVec 24} (hbuf : m.ch.pair.buf = [(n, .commit e [])]) (happlied : m.ch.pair.applied = 1) (hrole : m.ch.pair.role = .active)
    (occ : Nat) : (m.acked n occ).ch.pair.role = .active ∧ (m.acked n occ).ch.pair.epoch = e ∧ (m.acked n occ).ch.pair.buf = [] ∧
      (m.acked n occ).ch.pair.lastCommit = m.ch.clk.tb.toNat ∧ (m.acked n occ).ch.led.staging = m.ch.led.staging ∧
      (m.acked n occ).ch.phys = m.ch.phys ∧ (m.acked n occ).ch.thr = m.ch.thr ∧
      (bit (winGet m.ch 0x8001) 1 = true → (mapGet (m.acked n occ).ch.proc.pend 42).isSome = true) := by
  rw [acked_oldest hbuf happlied]
  generalize hm1 : ({ m with ch.pair := { m.ch.pair with buf := [], applied := 0, tries := 0, linkUp := true } } : Mach) = m1
  obtain ⟨t, hpair, hstaging, hphys, hthr, hpend⟩ := commitAcked_active (m := m1) (by rw [← hm1]; exact hrole) e
  have hone : m1.ackRecords [(n, .commit e [])] = m1.commitAcked e 0 := rfl
  rw [hone]
  generalize m1.commitAcked e 0 = m2 at *
  obtain ⟨near, back, hpair', hled', hphys', hthr', hpend'⟩ := occupancy_frame m2 occ
  rw [hpair', hled', hphys', hthr', hstaging, hphys, hthr, hpair, ← hm1]
  rw [← hm1] at hpend
  exact ⟨rfl, rfl, rfl, rfl, rfl, rfl, rfl, fun hbit => hpend' 42 (hpend hbit)⟩
theorem nacked_one {x : BitVec 24 × MirrorRec} (hbuf : m.ch.pair.buf = [x]) : ∃ p : Perf, m.nacked =
    { m with ch := { m.ch with pair := { m.ch.pair with tries := m.ch.pair.tries + 1, resends := upTo m.ch.pair.resends }, perf := p } } := by
  have hflight : m.ch.pair.inFlight = 1 := by
    unfold Pair.inFlight
    rw [hbuf]
    rfl
  refine ⟨(m.bumpBy (192 + 46) 1).ch.perf, ?_⟩
  unfold Mach.nacked
  dsimp only
  rw [hflight, satAdd_one]
  rfl

/-! ### The standby lost (R407, R409, R420) -/

theorem report_sq (m : Mach) (cls : BitVec 6) (spec flag : Bool) (detail : BitVec 32) : (m.report cls spec flag detail).sq = m.sq := by
  obtain ⟨-, -, hsq⟩ := report_keeps m cls spec flag detail
  exact hsq
/-- The active goes on without a standby. -/
theorem loseStandby_goes (m : Mach) (why : Nat) :
    (m.loseStandby why).ch.pair.role = .alone ∧ (m.loseStandby why).ch.pair.buf = [] ∧ (m.loseStandby why).ch.pair.linkUp = false ∧
      (m.loseStandby why).ch.pair.inPair = m.ch.pair.inPair ∧ (m.loseStandby why).ch.straps = m.ch.straps ∧
      (m.loseStandby why).ch.phys = m.ch.phys ∧ (m.loseStandby why).ch.thr = m.ch.thr ∧
      (mapGet (m.loseStandby why).ch.proc.pend 46).isSome = true ∧ (m.loseStandby why).sq.ports[m.c] = m.port.unpair := by
  generalize hR : m.loseStandby why = R
  unfold Mach.loseStandby at hR
  extract_lets ch0 pair0 m1 m2 at hR
  obtain ⟨-, hstraps, hphys, hthr, -, hpair, -⟩ := pairKeeps_trans (report_pairKeeps m2 0x0E#6 false false (pairDetail 3#4 m2.ch.pair.epoch)) (raise_pairKeeps _ 46 (fixN why))
  have hsq : R.sq = m2.sq := by
    rw [← hR]
    exact report_sq m2 0x0E#6 false false (pairDetail 3#4 m2.ch.pair.epoch)
  have hpend : (mapGet R.ch.proc.pend 46).isSome = true := by
    rw [← hR, raise_raised]
    exact raised_pending _ _ _
  rw [hR] at hstraps hphys hthr hpair
  refine ⟨by rw [hpair]; rfl, by rw [hpair]; rfl, by rw [hpair]; rfl, by rw [hpair]; rfl, hstraps, hphys, hthr, hpend, ?_⟩
  rw [hsq]
  exact Vector.getElem_set_self _
/-- The standby withdraws. -/
theorem withdraw_leaves (m : Mach) (kind : BitVec 4) : (m.withdraw kind).ch.life.cond = .keptOff ∧ (m.withdraw kind).ch.pair.role = .independent := by
  generalize hR : m.withdraw kind = R
  unfold Mach.withdraw at hR
  extract_lets e r life0 led0 pair0 m1 at hR
  obtain ⟨-, -, -, -, hlife, hpair, -⟩ := report_pairKeeps m1 0x0E#6 false false (pairDetail kind e)
  rw [hR] at hlife hpair
  exact ⟨by rw [hlife], by rw [hpair]; rfl⟩
/-- A command that ends with the channel alone. -/
theorem goesAlone_of {i : Instr} {s0 : State} {why : Nat} {more : State → Prop} (hexec : exec i s = .next (s0.onMach c (fun m => m.loseStandby why)))
    (hsame : s0.chan c = s.chan c) (hmore : more (s0.onMach c (fun m => m.loseStandby why))) : goesAlone i s c more := by
  obtain ⟨hrole, hbuf, hlink, hin, hstraps, hphys, hthr, hpend, hport⟩ := loseStandby_goes (s0.mach c) why
  rw [mach_ch, hsame] at hin hstraps hphys hthr
  refine ⟨_, hexec, ?_, ?_, ?_, ?_, ?_, ?_, ?_, ?_, hmore⟩
  · rw [chan_onMach, hrole]
  · rw [chan_onMach, hbuf]
  · rw [chan_onMach, hlink]
  · rw [chan_onMach, hpend]
  · intro e he
    rw [show (s0.onMach c (fun m => m.loseStandby why)).square.ports[c] = (s0.mach c).port.unpair from hport] at he
    obtain ⟨x, -, rfl⟩ := List.mem_map.mp he
    rfl
  · rw [show (s0.onMach c (fun m => m.loseStandby why)).square.ports[c] = (s0.mach c).port.unpair from hport]
    rfl
  · exact sameCells_of (by rw [chan_onMach, hstraps]) (by rw [chan_onMach, hin]) (by rw [chan_onMach, hphys])
  · rw [chan_onMach, hthr]
/-- The standby is withdrawn and the active goes on alone. -/
theorem withdrawn_alone (hne : a ≠ c) {i : Instr} {kind : BitVec 4} {why : Nat}
    (hexec : exec i s = .next ((s.onMach a (fun m => m.withdraw kind)).onMach c (fun m => m.loseStandby why))) :
    goesAlone i s c (fun s' => (s'.chan a).life.cond = .keptOff ∧ (s'.chan a).pair.role = .independent) := by
  refine goesAlone_of hexec (chan_onMach_ne _ _ _ _ hne.symm) ?_
  rw [chan_onMach_ne _ _ _ _ hne, chan_onMach]
  exact withdraw_leaves _ _

/-- Work that maps the channel. -/
theorem onMach_map (s : State) (g : Channel → Channel) : s.onMach c (fun m => { m with ch := g m.ch }) = s.setChan c (g (s.chan c)) :=
  onMach_channel _ _ _ _ rfl

/-! ### Failover (R414-R419, R441) -/

/-- The committed state of the formation, the one undone cell put back. -/
theorem recover_formed {i : Image} {x : Nat} {v : Cell} (hform : m.ch.pair.formation = true) (himage : m.ch.boot.image = some i)
    (hundo : m.ch.pair.undo = [(x, v)]) (hplace : m.ch.place x = .memory) : ∃ n, m.recover = some n ∧ n.c = m.c ∧
      n.ch.pair.epoch = m.ch.pair.epoch ∧ n.ch.pair.undo = [] ∧ n.ch.pair.inPair = m.ch.pair.inPair ∧ n.ch.straps = m.ch.straps ∧
      n.ch.thr = (Vector.replicate 8 threadReset).set 0 (bootThread i.entry i.stack) ∧ ∀ b, n.peek b = if b = x then v else m.peek b := by
  generalize hm0 : ({ m with ch.pair.undo := [] } : Mach) = m0
  have hroll : m.recover = (m0.cellStep .unitPort x v false).committed := by
    unfold Mach.recover
    dsimp only
    rw [hundo, hm0]
    rfl
  have hplace0 : m0.ch.place x = .memory := by rw [← hm0]; exact hplace
  have hpeek0 : ∀ b, m0.peek b = m.peek b := fun b => by rw [← hm0]; exact peek_of_view rfl rfl rfl rfl b
  have hpeek := peek_cellStep (ag := .unitPort) (by decide) hplace0 v false
  obtain ⟨hstep, -⟩ := memStep_steps_of (ag := .unitPort) (by decide) m0 (x / 16) [(x % 16, v, false)]
  rw [← cellStep_memory hplace0] at hstep
  rw [hroll]
  generalize m0.cellStep .unitPort x v false = n at *
  obtain ⟨hc, -, -, -, hboot, hstraps, hpair⟩ := stepped_keeps hstep
  have hcommitted : n.committed = some { n with ch.thr := (Vector.replicate 8 threadReset).set 0 (bootThread i.entry i.stack) } := by
    have hformed : n.ch.pair.formation = true := by rw [hpair, ← hm0]; exact hform
    have himaged : n.ch.boot.image = some i := by rw [hboot, ← hm0]; exact himage
    unfold Mach.committed
    rw [if_pos hformed, himaged]
  refine ⟨_, hcommitted, ?_, ?_, ?_, ?_, ?_, rfl, fun b => ?_⟩
  · rw [hc, ← hm0]
  · show n.ch.pair.epoch = _
    rw [hpair, ← hm0]
  · show n.ch.pair.undo = _
    rw [hpair, ← hm0]
  · show n.ch.pair.inPair = _
    rw [hpair, ← hm0]
  · show n.ch.straps = _
    rw [hstraps, ← hm0]
  · refine (peek_of_view (m := n) rfl rfl rfl rfl b).trans ?_
    rw [hpeek b, hpeek0]
    rfl
/-- The new active. -/
theorem becomeActive_runs (m : Mach) : m.becomeActive.c = m.c ∧ m.becomeActive.ch.life.cond = .running ∧ m.becomeActive.ch.pair.role = .alone ∧
    m.becomeActive.ch.pair.epoch = m.ch.pair.epoch + 1#24 ∧ m.becomeActive.ch.pair.undo = m.ch.pair.undo ∧
    m.becomeActive.ch.pair.inPair = m.ch.pair.inPair ∧ m.becomeActive.ch.straps = m.ch.straps ∧ m.becomeActive.ch.phys = m.ch.phys ∧
    m.becomeActive.ch.thr = m.ch.thr ∧ (mapGet m.becomeActive.ch.proc.pend 46).isSome = true := by
  generalize hR : m.becomeActive = R
  unfold Mach.becomeActive at hR
  extract_lets now e ch0 clk0 life0 pair0 m1 m2 at hR
  obtain ⟨hc, hstraps, hphys, hthr, hlife, hpair, -⟩ := pairKeeps_trans (report_pairKeeps m2 0x0E#6 false false (pairDetail 2#4 (e + 1#24))) (raise_pairKeeps _ 46 (fixN 4))
  have hpend : (mapGet R.ch.proc.pend 46).isSome = true := by
    rw [← hR, raise_raised]
    exact raised_pending _ _ _
  rw [hR] at hc hstraps hphys hthr hpair hlife
  refine ⟨hc, by rw [hlife]; rfl, by rw [hpair]; rfl, by rw [hpair]; rfl, by rw [hpair]; rfl, by rw [hpair]; rfl, hstraps, hphys, hthr, hpend⟩
/-- The identity that the square moves (R441). -/
theorem handOver_keeps (hne : a ≠ c) (s : State) : ∃ n, (s.handOver a c).chan c = n.ch ∧ pairKeeps (s.mach c) n := by
  unfold State.handOver
  split
  · dsimp only
    rw [chan_onMach]
    have hsame : (s.onMach a (fun m => m.setPort s.square.ports[a].given)).chan c = s.chan c := chan_onMach_ne _ _ _ _ hne.symm
    refine ⟨_, rfl, ?_⟩
    have hfeed := pairKeeps_trans (setPort_pairKeeps ((s.onMach a (fun m => m.setPort s.square.ports[a].given)).mach c) s.square.ports[a].moved) (feed_pairKeeps 512 _)
    unfold pairKeeps at hfeed ⊢
    rw [mach_ch, hsame] at hfeed
    exact hfeed
  · exact ⟨s.mach c, rfl, pairKeeps_refl _⟩

/-- A failed active, and a standby with one cell to put back. -/
theorem failover_runs (hne : a ≠ c) (hpartner : s.partner c = some a) {i : Image} {x : Nat} {v : Cell} (hrole : (s.chan c).pair.role = .standby)
    (hlink : (s.chan c).pair.linkUp = true) (hfailed : (s.chan a).healthy = false) (hform : (s.chan c).pair.formation = true)
    (himage : (s.chan c).boot.image = some i) (hundo : (s.chan c).pair.undo = [(x, v)]) (hplace : (s.chan c).place x = .memory) :
    ∃ s', exec (.failover c) s = .next s' ∧ (s'.chan c).life.cond = .running ∧ (s'.chan c).pair.role = .alone ∧
      (s'.chan c).pair.epoch = (s.chan c).pair.epoch + 1#24 ∧ (s'.chan c).pair.undo = [] ∧ s'.thread c 0 = bootThread i.entry i.stack ∧
      (mapGet (s'.chan c).proc.pend 46).isSome = true ∧ s'.cell c x = v ∧ ∀ b, b ≠ x → s'.cell c b = s.cell c b := by
  generalize hs1 : s.onMach a (fun m => m.lastGasp.failed) = s1
  have hchan1 : s1.chan c = s.chan c := by rw [← hs1]; exact chan_onMach_ne _ _ _ _ hne.symm
  obtain ⟨n, hn, hnc, hnepoch, hnundo, hnin, hnstraps, hnthr, hnpeek⟩ := recover_formed (m := s1.mach c) (i := i) (x := x) (v := v)
    (by rw [mach_ch, hchan1]; exact hform) (by rw [mach_ch, hchan1]; exact himage) (by rw [mach_ch, hchan1]; exact hundo) (by rw [mach_ch, hchan1]; exact hplace)
  rw [mach_ch, hchan1] at hnepoch
  have hpeek1 : ∀ b, (s1.mach c).peek b = s.cell c b := fun b => peek_of_view (m := s.mach c) (n := s1.mach c) rfl (congrArg Channel.straps hchan1)
    (congrArg (fun y : Channel => y.pair.inPair) hchan1) (congrArg Channel.phys hchan1) b
  have hexec : exec (.failover c) s = .next (((s1.onMach c (fun _ => n)).onMach c Mach.becomeActive).handOver a c) := by
    show execFailover c s = _
    have hfollows : ((s.chan c).pair.role.follows && (s.chan c).pair.linkUp) = true := by rw [hrole, hlink]; rfl
    have hactive : s.activeFailed a = true := by unfold State.activeFailed; rw [hfailed]; rfl
    unfold execFailover
    rw [hpartner]
    dsimp only
    rw [hfollows, hactive, if_pos (by rfl)]
    unfold State.failover
    dsimp only
    rw [hs1, hchan1, if_neg (by rw [hrole]; decide), hn]
  obtain ⟨k, hk, hkc, hkstraps, hkphys, hkthr, hklife, hkpair, hkpend⟩ := handOver_keeps hne ((s1.onMach c (fun _ => n)).onMach c Mach.becomeActive)
  obtain ⟨-, hcond, hrole', hepoch, hundo', hin, hstraps, hphys, hthr, hpend⟩ := becomeActive_runs ((s1.onMach c (fun _ => n)).mach c)
  rw [mach_ch, chan_onMach] at hkstraps hkphys hkthr hklife hkpair hkpend
  rw [mach_ch, chan_onMach] at hepoch hundo' hin hstraps hphys hthr
  generalize (((s1.onMach c (fun _ => n)).onMach c Mach.becomeActive).handOver a c) = s' at *
  have hcell : ∀ b, s'.cell c b = if b = x then v else s.cell c b := fun b => by
    have hview : s'.cell c b = n.peek b := peek_of_view (m := n) (n := s'.mach c) hnc.symm (by rw [mach_ch, hk, hkstraps, hstraps])
      (by rw [mach_ch, hk, hkpair, hin]) (by rw [mach_ch, hk, hkphys, hphys]) b
    rw [hview, hnpeek, hpeek1]
  refine ⟨s', hexec, ?_, ?_, ?_, ?_, ?_, ?_, ?_, fun b hb => ?_⟩
  · rw [hk, hklife, hcond]
  · rw [hk, hkpair, hrole']
  · rw [hk, hkpair, hepoch, hnepoch]
  · rw [hk, hkpair, hundo', hnundo]
  · have hthread : (s'.chan c).thr = (Vector.replicate 8 threadReset).set 0 (bootThread i.entry i.stack) := by rw [hk, hkthr, hthr, hnthr]
    unfold State.thread
    rw [hthread]
    exact Vector.getElem_set_self _
  · rw [hk]
    exact hkpend 46 hpend
  · rw [hcell, if_pos rfl]
  · rw [hcell, if_neg hb]
/-- What is left of the copy is made, and the partner is ready. -/
theorem copyComplete_readies (hfol : s.follower c = some a) (hrun : (s.chan c).life.cond = .running) (hrole : (s.chan c).pair.role = .joiningActive)
    (hready : (s.chan c).pair.ready = false) (hfast : (s.chan c).life.power ≠ .sleep) : ∃ s1 : State,
      exec (.copyComplete c) s = .next (s1.onMach c (fun m => { m with ch.pair := { m.ch.pair with copied := m.ch.copyLines, ready := true } })) := by
  have hgo : ((s.mach c).fastOn && decide ((s.chan c).pair.role = .joiningActive) && !(s.chan c).pair.ready) = true := by
    rw [fastOn_of (m := s.mach c) hrun hfast, hrole, hready]
    rfl
  have hexec : exec (.copyComplete c) s = execCopyComplete c s := rfl
  unfold execCopyComplete at hexec
  rw [hfol] at hexec
  dsimp only at hexec
  rw [if_pos hgo] at hexec
  exact ⟨_, hexec⟩
/-- An epoch overdue is recorded, and vector 43 raised where it is enabled (R413). -/
theorem epochOverdue_reports (hrun : m.ch.life.cond = .running) (hrole : m.ch.pair.role = .active) (hdue : m.ch.pair.lastCommit + 1638 ≤ m.ch.clk.tb.toNat)
    (hroom : m.ch.led.staging.length < 16) : m.epochOverdue =
      { m with ch := ({ m.ch with pair := { m.ch.pair with lastCommit := m.ch.clk.tb.toNat } }.recorded 0x0E#6 false false (pairDetail 4#4 m.ch.pair.epoch)).raisedIf (bit (winGet m.ch 0x8001) 2) 43 (fix m.ch.pair.epoch) } := by
  have hgo : (decide (m.ch.life.cond = .running) && decide (m.ch.pair.role = .active) && decide (m.ch.pair.lastCommit + 1638 ≤ m.ch.clk.tb.toNat)) = true := by
    rw [hrun, hrole, decide_eq_true hdue]
    rfl
  have hreport := report_recorded (m := { m with ch.pair.lastCommit := m.ch.clk.tb.toNat }) (cls := 0x0E#6) (detail := pairDetail 4#4 m.ch.pair.epoch) false false hroom (by decide)
  unfold Mach.epochOverdue
  dsimp only at hreport ⊢
  rw [if_pos hgo, hreport]
  exact raiseIf_raisedIf _ _ _ _
end

/-- Settles O58, records, acknowledgements, losses, joining and failover in turn. -/
theorem pairing : Obligations.Pairing := by
  intro s c a
  dsimp only
  refine fun hne => ⟨fun hlead => ⟨?_, fun n hbuf => ?_, fun n l k v hbuf hk hrole hplace => store_applies hne hlead hbuf hk hrole hplace,
      fun n e w r hbuf happlied hrole hup => ?_⟩,
    fun hfol => ⟨fun hrun => ⟨fun n seq r hbuf => ?_, fun n r rest hbuf hno happlied hocc => ?_, fun n e hbuf happlied hrole => ?_, fun t hback hdue => ?_, fun hready hfast => ?_⟩,
      fun hbuf => ?_, fun hbuf hhealthy => ?_⟩,
    fun hrun hrole => ⟨fun hheld => ?_, fun hpartner hfailed => ?_⟩, fun hrun hrole => ⟨fun hearly => ?_, fun hdue hroom => ?_⟩,
    fun hpartner => ⟨fun hcond hrole hcond' hrole' => ?_, fun i x v hrole hlink hfailed hform himage hundo hplace _ =>
      failover_runs hne hpartner hrole hlink hfailed hform himage hundo hplace⟩⟩
  · exact apply_leader hlead false
  · refine (apply_leader hlead true).trans (congrArg Host.Outcome.next ((applyNext_plain (next_plain hbuf nofun) nofun).trans ?_))
    rw [onMach_id s c (fun m => m.applyRecord .idle) rfl]
    exact onMach_channel s a Mach.countApplied _ rfl
  · obtain ⟨s', t, l, hexec, hpair, hled, hstaging, hdue, hport, hcells, hthr⟩ := commit_applies hne hlead hbuf happlied hrole hup
    have hcount := takeDue_counts { (s.chan c).led with due := (s.chan c).led.due ++ w }
    have horder := takeDue_order { (s.chan c).led with due := (s.chan c).led.due ++ w }
    rw [← hstaging] at hcount
    rw [← hstaging, ← hdue] at horder
    refine ⟨s', hexec, by rw [hpair], by rw [hpair], by rw [hpair], fun hnone hroom => ?_, ?_, ?_, hport, hcells, hthr⟩
    · obtain ⟨hall, hempty⟩ := takeDue_all (l := { (s.chan c).led with due := (s.chan c).led.due ++ w }) (by rw [hnone]; simpa using hroom)
      rw [hled, hstaging, hdue, hall, hempty, hnone]
      exact ⟨rfl, rfl⟩
    · rw [hled, hcount, List.length_append, Nat.add_assoc]
    · rw [hled]
      exact horder
  · obtain ⟨p, hp⟩ := nacked_one (m := s.mach c) hbuf
    exact does_of_onMach (p := p) (n := s.free) (ack_follower hfol hrun seq true) hp
  · refine (ack_follower hfol hrun n false).trans (congrArg Host.Outcome.next (onMach_channel s c _ _ ?_))
    refine (acked_oldest (m := s.mach c) hbuf happlied _).trans ?_
    rw [ackRecords_plain hno, occupancy_low hocc]
    rfl
  · have hall := commit_acked (m := s.mach c) hbuf happlied hrole (s.chan a).pair.undo.length
    refine ⟨_, ack_follower hfol hrun n false, onMach_elsewhere s c _, ?_⟩
    rw [chan_onMach, if_neg Bool.false_ne_true]
    exact hall
  · refine withdrawn_alone hne (kind := 5#4) (why := 2) ?_
    show execPairBreak c s = _
    unfold execPairBreak
    rw [hfol, hback]
    refine congrArg Host.Outcome.next (if_pos ?_)
    rw [hrun]
    exact decide_eq_true hdue
  · by_cases hrole : (s.chan c).pair.role = .joiningActive
    · obtain ⟨s1, hs1⟩ := copyComplete_readies hfol hrun hrole hready hfast
      refine ⟨_, hs1, fun _ => ?_, fun hno => absurd hrole hno⟩
      rw [chan_onMach]
    · refine ⟨s, ?_, fun hyes => absurd hyes hrole, fun _ => rfl⟩
      show execCopyComplete c s = _
      unfold execCopyComplete
      rw [hfol]
      refine congrArg Host.Outcome.next (if_neg ?_)
      simp [hrole]
  · show execLinkFailure c s = _
    unfold execLinkFailure
    rw [hfol]
    exact congrArg Host.Outcome.next (if_pos (by rw [hbuf]; rfl))
  · refine withdrawn_alone hne (kind := 3#4) (why := 1) ?_
    show execLinkFailure c s = _
    unfold execLinkFailure
    rw [hfol]
    refine congrArg Host.Outcome.next ((if_neg ?_).trans (if_pos hhealthy))
    simpa using hbuf
  · have hmirrors : (s.mach c).mirrors = true := by
      unfold Mach.mirrors
      rw [mach_ch]
      rcases hrole with h | h <;> rw [h] <;> rfl
    have hleads : (s.chan c).pair.role.leads = true := by
      rcases hrole with h | h <;> rw [h] <;> rfl
    refine does_of_onMach (p := ((s.mach c).bumpC 45).ch.perf) (n := s.free) rfl ((if_pos ?_).trans (if_pos hmirrors))
    rw [mach_ch, hrun, hleads, hheld]
    rfl
  · have hleads : (s.chan c).pair.role.leads = true := by
      rcases hrole with h | h <;> rw [h] <;> rfl
    refine goesAlone_of (s0 := s) (why := 0) ?_ rfl (chan_onMach_ne _ _ _ _ hne)
    show execStandbyLoss c s = _
    unfold execStandbyLoss
    rw [hpartner]
    refine congrArg Host.Outcome.next (if_pos ?_)
    rw [hrun, hleads, hfailed]
    rfl
  · refine congrArg Host.Outcome.next (onMach_id s c _ (if_neg ?_))
    rw [Bool.and_eq_true, decide_eq_true_eq]
    exact fun h => absurd h.2 (Nat.not_le.mpr hearly)
  · exact congrArg Host.Outcome.next (onMach_channel s c Mach.epochOverdue _ (epochOverdue_reports (m := s.mach c) hrun hrole hdue hroom))
  · show execJoinRequest c s = _
    unfold execJoinRequest
    rw [hpartner]
    refine congrArg Host.Outcome.next ((if_pos ?_).trans ?_)
    · rw [hcond, hrole, hcond', hrole']
      rfl
    · have hjoin := onMach_channel s a (fun m => { m with ch.pair := { m.ch.pair with role := .joiningActive, linkUp := true, copied := 0, ready := false, buf := [], applied := 0, tries := 0 } }) _ rfl
      rw [hjoin]
      refine (onMach_map (c := c) _ (fun x => { x with pair := { x.pair with linkUp := true, undo := [] } })).trans ?_
      rw [chan_setChan_ne _ _ _ _ hne.symm]
      rfl
end Sys2Proof.Machine
end

section
/-! The sweeper outside a cycle (R335, R338, R340, R341, R344, R348): its commands, triggers and refills. -/
namespace Sys2Proof.Machine

/-! ### What the sweeper's own stores change -/

/-- Slice m with what marking may change taken from x: what a store may change, and the sweeper's last line, marks and live counts. -/
def Mach.swept (m x : Mach) : Mach :=
  ({ m with ch.sw := { m.ch.sw with lastLine := x.ch.sw.lastLine, marks := x.ch.sw.marks, live := x.ch.sw.live } } : Mach).stepped x
/-- From m to n nothing else has changed. -/
def sweptOnly (m n : Mach) : Prop := n = m.swept n

theorem sweptOnly_refl (m : Mach) : sweptOnly m m := rfl
theorem sweptOnly_trans {m n x : Mach} (h : sweptOnly m n) (h' : sweptOnly n x) : sweptOnly m x := by
  unfold sweptOnly at *
  rw [h'] at ⊢
  rw [h]
  rfl
theorem sweptOnly_of_stepped {m n : Mach} (h : n = m.stepped n) : sweptOnly m n := by
  unfold sweptOnly
  rw [h]
  rfl
theorem sweptOnly_raiseIf (m : Mach) (en : Bool) (v : Nat) (a : Cell) : sweptOnly m (m.raiseIf en v a) :=
  sweptOnly_of_stepped (stepsOnly_of_serves (servesOnly_of_supplies (suppliesOnly_raiseIf m en v a))).1
theorem sweptOnly_turn (m : Mach) (l : Nat) : sweptOnly m (m.turn .sweeper l) := by
  unfold sweptOnly
  rw [sweeperTurn_stepped m l]
  rfl
theorem sweptOnly_memStep (m : Mach) (l : Nat) (cells : NMap (Cell × Bool)) : sweptOnly m (m.memStep .sweeper l cells) := by
  have h := sweeperStep_stepped m l cells
  unfold sweptOnly
  generalize m.memStep .sweeper l cells = n at h ⊢
  rw [h]
  rfl
theorem sweptOnly_cellStep {m : Mach} {a : Nat} (ha : m.ch.place a = .memory) (v : Cell) (md : Bool) : sweptOnly m (m.cellStep .sweeper a v md) := by
  rw [cellStep_memory ha]
  exact sweptOnly_memStep m _ _
/-- What the sweeper's own stores leave as it was. -/
theorem swept_keeps {m n : Mach} (h : sweptOnly m n) :
    n.ch.thr = m.ch.thr ∧ n.ch.sw.slots = m.ch.sw.slots ∧ n.ch.sw.phase = m.ch.sw.phase ∧ n.ch.sw.slot = m.ch.sw.slot ∧
      n.ch.sw.full = m.ch.sw.full ∧ n.ch.sw.starting = m.ch.sw.starting ∧ n.ch.sw.xlate = m.ch.sw.xlate ∧ n.ch.sw.result = m.ch.sw.result := by
  rw [h]
  exact ⟨rfl, rfl, rfl, rfl, rfl, rfl, rfl, rfl⟩
theorem swept_place {m n : Mach} (h : sweptOnly m n) (a : Nat) : n.ch.place a = m.ch.place a := by
  rw [h]
  rfl
theorem swept_mapAddr {m n : Mach} (h : sweptOnly m n) (sl : Fin 8) (r : Nat) : n.mapAddr sl r = m.mapAddr sl r := by
  rw [h]
  rfl
theorem swept_slot {m n : Mach} (h : sweptOnly m n) (sl : Fin 8) : n.slot sl = m.slot sl := by
  rw [h]
  rfl
/-- Addresses outside memory read as before. -/
theorem swept_peek {m n : Mach} (h : sweptOnly m n) {a : Nat} (ha : m.ch.place a ≠ .memory) : n.peek a = m.peek a := by
  refine (peek_of_stepped (m := ({ m with ch.sw := { m.ch.sw with lastLine := n.ch.sw.lastLine, marks := n.ch.sw.marks, live := n.ch.sw.live } } : Mach))
    h ha).trans rfl
theorem peek_of_swept {m n : Mach} (h : sweptOnly m n) (hcell : ∀ a, n.memCell a = m.memCell a) (a : Nat) : n.peek a = m.peek a := by
  by_cases ha : m.ch.place a = .memory
  · rw [peek_memory ((swept_place h a).trans ha), peek_memory ha, hcell]
  · exact swept_peek h ha
/-- A cell the sweeper writes in memory reads as written, and every other as before. -/
theorem peek_sweeperCell {m : Mach} {a : Nat} (ha : m.ch.place a = .memory) (v : Cell) (b : Nat) :
    (m.cellStep .sweeper a v false).peek b = if b = a then v else m.peek b := by
  rw [cellStep_memory ha, peek_sweeperStep (place_of_line ha)]
  by_cases hb : b = a
  · rw [if_pos (by rw [hb]), if_pos hb, hb]
    simp [mapGet, writtenOver]
  · rw [if_neg hb]
    split
    · have hpos : ¬ a % 16 = b % 16 := by omega
      simp [mapGet, hpos, writtenOver]
    · rfl

/-! ### Slots -/

theorem slot_setSlot (m : Mach) (sl : Fin 8) (x : Slot) : (m.setSlot sl x).slot sl = x := Vector.getElem_set_self _
theorem slot_setSlot_ne (m : Mach) {sl u : Fin 8} (x : Slot) (h : u ≠ sl) : (m.setSlot sl x).slot u = m.slot u :=
  Vector.getElem_set_ne sl.isLt u.isLt (fun e => h (Fin.ext e.symm))
theorem peek_setSlot (m : Mach) (sl : Fin 8) (x : Slot) (r : BitVec 2) (a : Nat) : ((m.setSlot sl x).swResult r).peek a = m.peek a := rfl
theorem swIdle_iff {m : Mach} : m.swIdle = true ↔ m.ch.sw.phase = .idle ∧ m.ch.sw.starting = false := by
  unfold Mach.swIdle
  cases m.ch.sw.phase <;> simp

/-! ### Marking a pitch (R340, R341) -/

section
variable {m : Mach} {sl : Fin 8}

/-- The side area of a slot lies in memory. -/
def Mach.sideHeld (m : Mach) (sl : Fin 8) : Prop := ∀ i < 540672, m.ch.place (m.side sl + i) = .memory
theorem swept_sideHeld {n : Mach} (h : sweptOnly m n) (hside : m.sideHeld sl) : n.sideHeld sl := by
  intro i hi
  rw [swept_place h, Mach.side, swept_slot h]
  exact hside i hi
theorem place_markAddr (hside : m.sideHeld sl) (a : Nat) : m.ch.place (m.markAddr sl a) = .memory := by
  unfold Mach.markAddr regionOf
  rw [Nat.add_assoc]
  exact hside _ (by omega)
theorem sweptOnly_noteMark (n : Mach) (a : Nat) : sweptOnly n (n.noteMark a) := by
  unfold Mach.noteMark
  split <;> rfl
theorem sweptOnly_setMark (hside : m.sideHeld sl) (a : Nat) : sweptOnly m (m.setMark sl a) := by
  unfold Mach.setMark
  dsimp only
  rw [place_markAddr hside]
  exact sweptOnly_trans (sweptOnly_cellStep (place_markAddr hside a) _ _) (sweptOnly_noteMark _ _)
/-- Work that has only stored goes on (R355). -/
theorem unlessEnded_swept {n : Mach} (h : sweptOnly m n) (f : Mach → Mach) : n.unlessEnded m.ch.sw.phase f = f n := by
  obtain ⟨-, -, hphase, -⟩ := swept_keeps h
  exact if_pos hphase
theorem sweptOnly_blackPairs : ∀ (n : Nat) {m : Mach} (a : Nat), m.sideHeld sl → sweptOnly m (m.blackPairs sl a n)
  | 0, m, _, _ => sweptOnly_refl m
  | n + 1, m, a, hside => by
    have hmark := sweptOnly_setMark hside a
    unfold Mach.blackPairs
    rw [unlessEnded_swept hmark]
    exact sweptOnly_trans hmark (sweptOnly_blackPairs n (a + 2) (swept_sideHeld hmark hside))
theorem sweptOnly_blackRange (hside : m.sideHeld sl) (a b : Nat) : sweptOnly m (m.blackRange sl a b) := by
  have hpairs := sweptOnly_blackPairs ((b - a) / 2) a hside
  unfold Mach.blackRange
  rw [unlessEnded_swept hpairs]
  exact sweptOnly_trans hpairs rfl
theorem sweptOnly_blackPitches : ∀ (ts : List (Fin 8)) {m : Mach}, m.sideHeld sl → sweptOnly m (m.blackPitches sl ts)
  | [], m, _ => sweptOnly_refl m
  | t :: r, m, hside => by
    have hone : sweptOnly m (if (m.pitch sl t).1 < (m.pitch sl t).2 then m.blackRange sl (m.pitch sl t).1 (m.pitch sl t).2 else m) := by
      split
      · exact sweptOnly_blackRange hside _ _
      · exact sweptOnly_refl m
    unfold Mach.blackPitches
    dsimp only
    rw [unlessEnded_swept hone]
    exact sweptOnly_trans hone (sweptOnly_blackPitches r (swept_sideHeld hone hside))
end

/-! ### Root requests (R349) -/

/-- A thread as the root requests leave it: a running one has a request outstanding. -/
def Thread.rooted (th : Thread) : Thread := if th.status = .running then { th with rootReq := true, rootPend := true } else th
theorem rooted_rooted (th : Thread) : th.rooted.rooted = th.rooted := by
  by_cases h : th.status = .running
  · simp [Thread.rooted, h]
  · simp [Thread.rooted, h]
theorem raiseRoots_eq : ∀ (ts : List (Fin 8)) (m : Mach), (∀ (t : Fin 8) k, (m.thr t).status ≠ .waiting k) →
    ∃ v : Vector Thread 8, m.raiseRoots ts = { m with ch.thr := v } ∧ ∀ t : Fin 8, v[t] = if t ∈ ts then (m.thr t).rooted else m.thr t
  | [], m, _ => ⟨m.ch.thr, rfl, fun _ => (if_neg List.not_mem_nil).symm⟩
  | t :: r, m, hwait => by
    have hhead : m.raiseRoots (t :: r) = (m.setThr t (m.thr t).rooted).raiseRoots r := by
      conv_lhs => unfold Mach.raiseRoots
      unfold Thread.rooted
      dsimp only
      split
      · next hst => rw [if_neg (by simp [hst]), setThr_thr]
      · next hst => rw [if_pos hst]
      · next k hst => exact absurd hst (hwait t k)
    have hthr (u : Fin 8) : (m.setThr t (m.thr t).rooted).thr u = if u = t then (m.thr t).rooted else m.thr u := by
      by_cases hu : u = t
      · rw [if_pos hu, hu, thr_setThr]
      · rw [if_neg hu, thr_setThr_ne _ _ _ _ hu]
    obtain ⟨v, hv, hall⟩ := raiseRoots_eq r (m.setThr t (m.thr t).rooted) fun u k => by
      rw [hthr]
      split
      · unfold Thread.rooted
        split
        · exact hwait t k
        · exact hwait t k
      · exact hwait u k
    refine ⟨v, by rw [hhead, hv]; rfl, fun u => ?_⟩
    rw [hall, hthr]
    by_cases hu : u = t
    · simp [hu, rooted_rooted]
    · simp [hu]
theorem mem_threads (t : Fin 8) : t ∈ threads := by
  revert t
  decide

/-! ### A cycle begins (R344, R348) -/

/-- What holds of a slice whose cycle can enter ROOTS at once: every earlier write has taken its place, and the slot's marks lie in memory. -/
structure Mach.rootable (m : Mach) : Prop where
  wb0 : (m.core 0).wb = []
  wb1 : (m.core 1).wb = []
  heals : m.ch.proc.heals = []
  phase : m.ch.sw.phase = .idle
  held : m.sideHeld m.ch.sw.slot
  awake : ∀ (t : Fin 8) k, (m.thr t).status ≠ .waiting k
/-- ROOTS begins: what the phase and the threads are. -/
theorem beginRoots_enters {m : Mach} (h : m.rootable) :
    m.beginRoots.ch.sw.phase = .roots ∧ m.beginRoots.ch.sw.slot = m.ch.sw.slot ∧ m.beginRoots.ch.sw.full = m.ch.sw.full ∧
      m.beginRoots.ch.sw.starting = false ∧ m.beginRoots.ch.sw.xlate = none ∧ ∀ t, m.beginRoots.thr t = (m.thr t).rooted := by
  obtain ⟨h0, h1, hheals, hphase, hside, hwait⟩ := h
  generalize hR : m.beginRoots = R
  unfold Mach.beginRoots at hR
  extract_lets m1 m2 chX swX m3 at hR
  have hm1 : m1 = m := drainAll_empty h0 h1
  have hm2 : m2 = m := by
    show m1.healAll m1.ch.proc.heals.length = m
    rw [hm1, hheals]
    rfl
  rw [if_neg (by rw [hm2, hphase]; exact fun h => h rfl)] at hR
  have hm3 : m3 = { m with ch.sw := { m.ch.sw with phase := .roots, starting := false, xlate := none } } := by
    show ({ m2 with ch.sw := { m2.ch.sw with phase := .roots, starting := false, xlate := none } } : Mach) = _
    rw [hm2]
  clear_value m3
  have hswept : sweptOnly m3 (m3.blackPitches m3.ch.sw.slot threads) := sweptOnly_blackPitches threads (by rw [hm3]; exact hside)
  have hroots : m3.ch.sw.phase = .roots := by rw [hm3]
  generalize m3.blackPitches m3.ch.sw.slot threads = n at hswept hR
  obtain ⟨hthr, -, hph, hslot, hfull, hstart, hxlate, -⟩ := swept_keeps hswept
  have hthr' (t : Fin 8) : n.thr t = m.thr t := by
    refine (congrArg (fun v : Vector Thread 8 => v[t]) hthr).trans ?_
    rw [hm3]
    rfl
  obtain ⟨v, hv, hall⟩ := raiseRoots_eq threads n fun t k => by rw [hthr']; exact hwait t k
  rw [Mach.unlessEnded, if_pos (hph.trans hroots), hv] at hR
  subst hR
  refine ⟨hph.trans hroots, hslot.trans (by rw [hm3]), hfull.trans (by rw [hm3]), hstart.trans (by rw [hm3]), hxlate.trans (by rw [hm3]), fun t => ?_⟩
  refine (hall t).trans ?_
  rw [if_pos (mem_threads t), hthr']

/-- A cycle the sweeper accepts can enter ROOTS where every earlier write has taken its place. -/
theorem acceptCycle_rootable {m : Mach} {sl : Fin 8} (full : Bool) (h0 : (m.core 0).wb = []) (h1 : (m.core 1).wb = []) (hheals : m.ch.proc.heals = [])
    (hphase : m.ch.sw.phase = .idle) (hside : m.sideHeld sl) (hwait : ∀ (t : Fin 8) k, (m.thr t).status ≠ .waiting k) :
    (m.acceptCycle sl full).rootable := ⟨h0, h1, hheals, hphase, hside, hwait⟩
theorem acceptCycle_full {m : Mach} {sl : Fin 8} (full : Bool) : (m.acceptCycle sl full).ch.sw.full = (full || (m.slot sl).logovf) := rfl

/-! ### Enabling a slot (R335, R340) -/

/-- From m to n the sweeper has worked without changing what any cell of memory reads. -/
def readsAlong (m n : Mach) : Prop := sweptOnly m n ∧ ∀ a, n.memCell a = m.memCell a
theorem readsAlong_refl (m : Mach) : readsAlong m m := ⟨sweptOnly_refl m, fun _ => rfl⟩
theorem readsAlong_trans {m n x : Mach} (h : readsAlong m n) (h' : readsAlong n x) : readsAlong m x :=
  ⟨sweptOnly_trans h.1 h'.1, fun a => (h'.2 a).trans (h.2 a)⟩
theorem readsAlong_turn (m : Mach) (l : Nat) : readsAlong m (m.turn .sweeper l) := by
  refine ⟨sweptOnly_turn m l, fun a => ?_⟩
  unfold Mach.turn
  dsimp only
  split <;> rfl
theorem readsAlong_poolAdd (m : Mach) (q : PoolReq) : readsAlong m (m.poolAdd q) :=
  ⟨sweptOnly_of_stepped (stepsOnly_of_serves (servesOnly_poolAdd m q)).1, (servesOnly_poolAdd m q).2⟩
theorem readsAlong_iterN {f : Nat → Mach → Mach} (hf : ∀ i m, readsAlong m (f i m)) : ∀ (n i : Nat) (m : Mach), readsAlong m (iterN f i n m)
  | 0, _, m => readsAlong_refl m
  | n + 1, i, m => readsAlong_trans (hf i m) (readsAlong_iterN hf n (i + 1) (f i m))
theorem readMapLines_reads (m : Mach) (sl : Fin 8) : readsAlong m (m.readMapLines sl) :=
  readsAlong_iterN (fun _ n => readsAlong_trans (readsAlong_turn n _) (readsAlong_poolAdd _ _)) 16 0 m
theorem sendMirror_reads (m : Mach) (r : MirrorRec) : readsAlong m (m.sendMirror r) := by
  unfold Mach.sendMirror
  split
  · exact ⟨rfl, fun _ => rfl⟩
  · exact readsAlong_refl _
theorem storeStep_reads (m : Mach) (ag : Agent) (l : Nat) (cells : NMap (Cell × Bool)) : readsAlong m (m.storeStep ag l cells) :=
  ⟨sweptOnly_of_stepped (storeStep_steps m ag l cells).1, memCell_storeStep m ag l cells⟩
theorem clearStep_reads (m : Mach) (l : Nat) : readsAlong m (m.clearStep l) :=
  readsAlong_trans (readsAlong_trans (readsAlong_trans (readsAlong_turn m l) (readsAlong_poolAdd _ _)) (storeStep_reads _ _ _ _)) (sendMirror_reads _ _)
/-- A run of one value stored in memory. -/
theorem memCell_putRun_replicate (m : Mach) (a n : Nat) (v : Cell) (b : Nat) :
    (m.putRun a (List.replicate n v)).memCell b = if a ≤ b ∧ b < a + n then v else m.memCell b := by
  have hget : mapGet (m.putRun a (List.replicate n v)).ch.phys.mem b = if a ≤ b ∧ b < a + n then some (eccWrite b v) else mapGet m.ch.phys.mem b := by
    rw [Mach.putRun, mapGet_mapRun]
    simp only [List.length_map, List.length_zipIdx, List.length_replicate]
    refine ite_congr rfl (fun h => ?_) (fun _ => rfl)
    have hlt : b - a < n := by omega
    have hsum : a + (b - a) = b := by omega
    simp [hlt, hsum]
  unfold Mach.memCell Mach.memBits
  rw [hget]
  by_cases h : a ≤ b ∧ b < a + n
  · rw [if_pos h, if_pos h, Option.getD_some, eccRead_eccWrite]
  · rw [if_neg h, if_neg h]
    rfl
theorem putRun_swept (m : Mach) (a : Nat) (vs : List Cell) : sweptOnly m (m.putRun a vs) := rfl
theorem swept_of_run {m n : Mach} {a k : Nat} {v : Cell} (h : readsAlong (m.putRun a (List.replicate k v)) n) :
    sweptOnly m n ∧ ∀ b, n.memCell b = if a ≤ b ∧ b < a + k then v else m.memCell b :=
  ⟨sweptOnly_trans (putRun_swept m a _) h.1, fun b => (h.2 b).trans (memCell_putRun_replicate m a k v b)⟩
/-- The side area is cleared (R340). -/
theorem clearSide_clears (m : Mach) (sl : Fin 8) :
    sweptOnly m (m.clearSide sl) ∧ ∀ b, (m.clearSide sl).memCell b = if m.side sl ≤ b ∧ b < m.side sl + 540672 then raw 0#24 else m.memCell b := by
  have hbase : (m.slot sl).side.toNat * 64 * 16 = m.side sl := by
    unfold Mach.side
    omega
  refine swept_of_run ?_
  unfold Mach.clearSide
  dsimp only
  rw [hbase]
  exact readsAlong_iterN (fun i n => clearStep_reads n _) _ _ _
theorem mapAt_mapOf_from (r : Nat) : ∀ (cs : List Cell) (n : Nat),
    mapAt 0#24 ((cs.zipIdx n).filterMap (fun e => if cellPay e.1 = 0#24 then none else some (e.2, cellPay e.1))) r =
      if n ≤ r then ((cs[r - n]?).map cellPay).getD 0#24 else 0#24
  | [], n => by simp [mapAt]
  | v :: cs, n => by
    have ih := mapAt_mapOf_from r cs (n + 1)
    rw [List.zipIdx_cons, List.filterMap_cons]
    by_cases hn : n = r
    · subst hn
      rw [if_neg (by omega)] at ih
      by_cases hv : cellPay v = 0#24
      · simp [hv, ih]
      · simp [hv, mapAt, mapGet]
    · have hrest : (if n ≤ r then (((v :: cs)[r - n]?).map cellPay).getD 0#24 else 0#24) =
          if n + 1 ≤ r then ((cs[r - (n + 1)]?).map cellPay).getD 0#24 else 0#24 := by
        by_cases hle : n + 1 ≤ r
        · have hsub : r - n = r - (n + 1) + 1 := by omega
          rw [if_pos hle, if_pos (by omega), hsub, List.getElem?_cons_succ]
        · rw [if_neg hle, if_neg (by omega)]
      rw [hrest, ← ih]
      by_cases hv : cellPay v = 0#24
      · simp [hv]
      · simp [hv, mapAt, mapGet, hn]
theorem mapAt_mapOf (cs : List Cell) (r : Nat) : mapAt 0#24 (mapOf cs) r = ((cs[r]?).map cellPay).getD 0#24 := by
  have h := mapAt_mapOf_from r cs 0
  rw [if_pos (Nat.zero_le r), Nat.sub_zero] at h
  exact h
theorem place_memory_iff {ch : Channel} {a : Nat} : ch.place a = .memory ↔ ch.undoArea a = false ∧ a < ch.memCells := by
  unfold Channel.place
  constructor
  · intro h
    split at h
    · nomatch h
    · next hu =>
      split at h
      · next hlt => exact ⟨Bool.eq_false_iff.mpr hu, hlt⟩
      · split at h
        · nomatch h
        · split at h <;> nomatch h
  · rintro ⟨hu, hlt⟩
    rw [hu, if_neg (by decide), if_pos hlt]
/-- Memory is one run of addresses. -/
theorem place_below {ch : Channel} {x y : Nat} (hy : ch.place y = .memory) (h : x ≤ y) : ch.place x = .memory := by
  obtain ⟨hu, hlt⟩ := place_memory_iff.mp hy
  refine place_memory_iff.mpr ⟨?_, by omega⟩
  simp only [Channel.undoArea, Bool.and_eq_false_iff, decide_eq_false_iff_not] at hu ⊢
  rcases hu with (hpair | habove) | hbelow
  · exact .inl (.inl hpair)
  · exact .inl (.inr (by omega))
  · exact absurd hlt hbelow
theorem cell_onMach {s : State} {c : Chan} {f : Mach → Mach} (hc : (f (s.mach c)).c = c) (a : Nat) :
    (s.onMach c f).cell c a = (f (s.mach c)).peek a := cell_of_chan hc (chan_onMach s c f) a

section
variable {m : Mach} {sl : Fin 8} {asid : BitVec 8}

/-- What a slot's map in memory must hold for the slot to be enabled. -/
def Mach.enableable (m : Mach) (sl : Fin 8) : Prop :=
  ∀ r < 256, m.ch.place (m.mapAddr sl r) = .memory ∧ entryOkToEnable (m.peek (m.mapAddr sl r)) = true
theorem slotOfAsid_none {sw : Sweeper} (h : ∀ u : Fin 8, sw.slots[u].en = true → sw.slots[u].asid ≠ asid) : sw.slotOfAsid asid = none := by
  refine List.find?_eq_none.mpr fun u _ => ?_
  simpa using h u
/-- A slot whose ASID no other has and whose map is in order is enabled once its side area is cleared (R335). -/
theorem slotEnable_eq {cs : List Cell} {m1 m2 : Mach} (hidle : m.swIdle = true) (hoff : (m.slot sl).en = false)
    (hm1 : m.setSlot sl { m.slot sl with asid := asid } = m1) (htaken : m1.ch.sw.slotOfAsid asid = none) (hcells : m1.mapCells sl = some cs)
    (hok : cs.all entryOkToEnable = true) (hm2 : m1.readMapLines sl = m2) (hside : m2.sideOk sl = true) :
    m.slotEnable sl asid = ((m2.clearSide sl).setSlot sl
      { (m2.clearSide sl).slot sl with en := true, map := mapOf cs, pitch := [], handed := [] }).swResult 0#2 := by
  have hgo : ¬ (!m.swIdle || (m.slot sl).en) = true := by
    rw [hidle, hoff]
    decide
  have hgood : ¬ ((m1.ch.sw.slotOfAsid asid).isSome || !cs.all entryOkToEnable) = true := by
    rw [htaken, hok]
    decide
  subst hm1 hm2
  unfold Mach.slotEnable
  rw [if_neg hgo]
  dsimp only
  rw [hcells]
  exact (if_neg hgood).trans (if_neg (by rw [hside]; decide))
/-- What a slot enabled after its map has been read and its side area cleared leaves. -/
theorem enabled_of_clear {m1 m2 m3 : Mach} (map : NMap Payload) (hm1 : m.setSlot sl { m.slot sl with asid := asid } = m1) (hread : readsAlong m1 m2)
    (hclear : sweptOnly m2 m3)
    (hcell : ∀ b, m3.memCell b = if m2.side sl ≤ b ∧ b < m2.side sl + 540672 then raw 0#24 else m2.memCell b)
    (hhigh : m.ch.place (m.side sl + 540671) = .memory) :
    let n := (m3.setSlot sl { m3.slot sl with en := true, map := map, pitch := [], handed := [] }).swResult 0#2
    n.c = m.c ∧ n.ch.thr = m.ch.thr ∧ n.ch.sw.result = 0#2 ∧
      n.slot sl = { m.slot sl with asid := asid, en := true, map := map, pitch := [], handed := [] } ∧
      ∀ a, n.peek a = if m.side sl ≤ a ∧ a < m.side sl + 540672 then raw 0#24 else m.peek a := by
  intro n
  have hslot1 : m1.slot sl = { m.slot sl with asid := asid } := by rw [← hm1, slot_setSlot]
  have hside2 : m2.side sl = m.side sl := by
    unfold Mach.side
    rw [swept_slot hread.1, hslot1]
  have hswept : sweptOnly m1 m3 := sweptOnly_trans hread.1 hclear
  have hplace1 (a : Nat) : m1.ch.place a = m.ch.place a := by
    rw [← hm1]
    rfl
  have hplace3 (a : Nat) : m3.ch.place a = m.ch.place a := (swept_place hswept a).trans (hplace1 a)
  obtain ⟨hthr, -⟩ := swept_keeps hswept
  refine ⟨?_, hthr.trans (by rw [← hm1]; rfl), rfl, (slot_setSlot _ _ _).trans ?_, fun a => (peek_setSlot m3 sl _ _ a).trans ?_⟩
  · show m3.c = m.c
    rw [hswept, ← hm1]
    rfl
  · rw [swept_slot hswept, hslot1]
  · by_cases ha : m.ch.place a = .memory
    · rw [peek_memory ((hplace3 a).trans ha), peek_memory ha, hcell, hside2, hread.2, ← hm1]
      rfl
    · rw [if_neg]
      · refine (swept_peek hswept (by rw [hplace1]; exact ha)).trans ?_
        rw [← hm1]
        rfl
      · exact fun h => ha (place_below hhigh (by omega))
/-- A slot is enabled: its map is taken from memory, its side area cleared. -/
theorem slotEnable_enables (hidle : m.swIdle = true) (hoff : (m.slot sl).en = false)
    (hother : ∀ u : Fin 8, (m.slot u).en = true → (m.slot u).asid ≠ asid) (hmap : m.enableable sl)
    (hlow : m.ch.place (m.side sl) = .memory) (hhigh : m.ch.place (m.side sl + 540671) = .memory) :
    ∃ n, m.slotEnable sl asid = n ∧ n.c = m.c ∧ n.ch.thr = m.ch.thr ∧ n.ch.sw.result = 0#2 ∧
      n.slot sl = { m.slot sl with
        asid := asid, en := true, map := mapOf ((upFrom 0 256).map (fun r => m.peek (m.mapAddr sl r))), pitch := [], handed := [] } ∧
      ∀ a, n.peek a = if m.side sl ≤ a ∧ a < m.side sl + 540672 then raw 0#24 else m.peek a := by
  generalize hm1 : m.setSlot sl { m.slot sl with asid := asid } = m1
  have hslot1 : m1.slot sl = { m.slot sl with asid := asid } := by rw [← hm1, slot_setSlot]
  have hplace1 (a : Nat) : m1.ch.place a = m.ch.place a := by
    rw [← hm1]
    rfl
  have hpeek1 (a : Nat) : m1.peek a = m.peek a := by
    rw [← hm1]
    rfl
  have haddr1 (r : Nat) : m1.mapAddr sl r = m.mapAddr sl r := by
    rw [← hm1]
    rfl
  have htaken : m1.ch.sw.slotOfAsid asid = none := by
    refine slotOfAsid_none fun u hu => ?_
    by_cases hus : u = sl
    · subst hus
      have hen : (m1.slot u).en = false := by rw [hslot1]; exact hoff
      exact absurd (hen.symm.trans hu) (by decide)
    · have hsame : m1.slot u = m.slot u := by
        rw [← hm1]
        exact slot_setSlot_ne m _ hus
      show (m1.slot u).asid ≠ asid
      rw [hsame]
      exact hother u (by rw [← hsame]; exact hu)
  have hcells : m1.mapCells sl = some ((upFrom 0 256).map (fun r => m.peek (m.mapAddr sl r))) := by
    unfold Mach.mapCells
    simp only [haddr1, hplace1, hpeek1]
    refine if_pos (List.all_eq_true.mpr fun r hr => decide_eq_true ?_)
    rw [upFrom_eq_range', List.mem_range'_1] at hr
    obtain ⟨hplace, -⟩ := hmap r (by omega)
    exact hplace
  have hok : ((upFrom 0 256).map (fun r => m.peek (m.mapAddr sl r))).all entryOkToEnable = true := by
    refine List.all_eq_true.mpr fun v hv => ?_
    obtain ⟨r, hr, rfl⟩ := List.mem_map.mp hv
    rw [upFrom_eq_range', List.mem_range'_1] at hr
    obtain ⟨-, hentry⟩ := hmap r (by omega)
    exact hentry
  generalize (upFrom 0 256).map (fun r => m.peek (m.mapAddr sl r)) = cs at hcells hok ⊢
  have hread := readMapLines_reads m1 sl
  generalize hm2 : m1.readMapLines sl = m2 at hread
  have hside2 : m2.side sl = m.side sl := by
    unfold Mach.side
    rw [swept_slot hread.1, hslot1]
  have hplace2 (a : Nat) : m2.ch.place a = m.ch.place a := (swept_place hread.1 a).trans (hplace1 a)
  have hsideOk : m2.sideOk sl = true := by
    unfold Mach.sideOk
    dsimp only
    rw [show (m2.slot sl).side.toNat * 1024 = m.side sl from hside2, hplace2, hplace2, hlow, hhigh]
    rfl
  exact ⟨_, slotEnable_eq hidle hoff hm1 htaken hcells hok hm2 hsideOk,
    enabled_of_clear (mapOf cs) hm1 hread (clearSide_clears m2 sl).1 (clearSide_clears m2 sl).2 hhigh⟩
end

/-! ### Region maps (R338) -/

/-- A region's entry changes in the slot's map and in the map's mirror in memory. -/
theorem setRegion_sets {m : Mach} {sl : Fin 8} {r : Nat} (e : Payload) (hplace : m.ch.place (m.mapAddr sl r) = .memory) :
    sweptOnly (m.setSlot sl { m.slot sl with map := mapSet 0#24 (m.slot sl).map r e }) (m.setRegion sl r e) ∧
      ∀ a, (m.setRegion sl r e).peek a = if a = m.mapAddr sl r then fix e else m.peek a := by
  generalize hR : m.setRegion sl r e = R
  unfold Mach.setRegion at hR
  extract_lets x y m1 m2 at hR
  have hslot : m1 = m.setSlot sl { m.slot sl with map := mapSet 0#24 (m.slot sl).map r e } := rfl
  have hraised : readsAlong m1 m2 := ⟨sweptOnly_raiseIf _ _ _ _, fun a => by
    show (m1.raiseIf _ _ _).memCell a = m1.memCell a
    rw [raiseIf_eq]
    rfl⟩
  clear_value m2
  have haddr : m2.mapAddr sl r = m.mapAddr sl r := (swept_mapAddr hraised.1 sl r).trans rfl
  have hmem : m2.ch.place (m2.mapAddr sl r) = .memory := by rw [haddr, swept_place hraised.1]; exact hplace
  have hmirror : m2.mirrorEntry sl r e = m2.cellStep .sweeper (m2.mapAddr sl r) (fix e) false := by
    unfold Mach.mirrorEntry
    rw [hmem]
  subst hR
  rw [hmirror]
  refine ⟨sweptOnly_trans hraised.1 (sweptOnly_cellStep hmem _ _), fun a => ?_⟩
  rw [peek_sweeperCell hmem, haddr, peek_of_swept hraised.1 hraised.2]
  rfl
theorem regionSetOk_iff {e : Payload} {kind : Nat} {root : Bool} : regionSetOk e kind root = true ↔ regionMay e kind root := by
  unfold regionSetOk regionMay
  generalize entryKind e = k
  cases root <;> grind
theorem regionSet_ok {m : Mach} {sl : Fin 8} {region : BitVec 8} {kind : BitVec 3} {root : Bool} (hidle : m.swIdle = true)
    (hen : (m.slot sl).en = true) (hmay : regionMay ((m.slot sl).entry region.toNat) kind.toNat root)
    (hnew : entryKind ((m.slot sl).entry region.toNat) ≠ kind.toNat ∨ entryRoot ((m.slot sl).entry region.toNat) ≠ root) :
    m.regionSet sl region kind root = (m.swResult 0#2).setRegion sl region.toNat (mkEntry kind.toNat root false 0) := by
  unfold Mach.regionSet
  rw [if_neg (by simp [hidle])]
  refine (if_pos (by rw [hen, regionSetOk_iff.mpr hmay]; rfl)).trans (if_neg ?_)
  rw [Bool.and_eq_true, decide_eq_true_iff, decide_eq_true_iff]
  exact not_and_or.mpr hnew
theorem regionSet_refused {m : Mach} {sl : Fin 8} {region : BitVec 8} {kind : BitVec 3} {root : Bool} (hidle : m.swIdle = true)
    (hmay : ¬ regionMay ((m.slot sl).entry region.toNat) kind.toNat root) : m.regionSet sl region kind root = m.swResult 2#2 := by
  unfold Mach.regionSet
  rw [if_neg (by simp [hidle])]
  exact if_neg (by simp [mt regionSetOk_iff.mp hmay])
theorem mkEntry_region (kind : BitVec 3) (root : Bool) : mkEntry kind.toNat root false 0 = (kind ++ BitVec.ofBool root ++ 0#20 : BitVec 24) := by
  revert kind root
  decide

/-! ### A refill (R341) -/

/-- The next block of the lowest NURSERY region with blocks left is handed out to a thread without a pitch. -/
theorem pitchRefill_hands {m : Mach} {sl t : Fin 8} {r n : Nat} (hsweeps : m.sweeps = true) (hen : (m.slot sl).en = true) (hr : r < 256)
    (hkind : entryKind ((m.slot sl).entry r) = 1) (hn : mapAt 0 (m.slot sl).handed r = n) (hroom : n < 64)
    (hfirst : ∀ q < r, entryKind ((m.slot sl).entry q) = 1 → 64 ≤ mapAt 0 (m.slot sl).handed q)
    (hpitch : mapAt (0, 0) (m.slot sl).pitch t.val = (0, 0)) (hphase : m.ch.sw.phase = .idle) :
    m.pitchRefill sl t = (m.setSlot sl { m.slot sl with
      handed := mapPut (m.slot sl).handed r (n + 1), pitch := mapPut (m.slot sl).pitch t.val (r * 0x10000 + n * 1024, r * 0x10000 + n * 1024 + 1024) }).bumpC 43 := by
  have hfind : ((m.slot sl).regions (fun e => entryKind e = kNURSERY)).find? (fun q => decide (mapAt 0 (m.slot sl).handed q < 64)) = some r := by
    unfold Slot.regions
    rw [List.find?_filter, upFrom_eq_range', List.find?_range'_eq_some]
    refine ⟨by simp [hkind, hn, hroom], by simp [hr], fun q _ hq => ?_⟩
    have hfull := hfirst q hq
    by_cases hk : entryKind ((m.slot sl).entry q) = 1
    · have hlate := hfull hk
      simp [hlate]
    · simp [hk]
  have hplan : m.planBlock sl = some (r * 0x10000 + n * 1024, false) := by
    unfold Mach.planBlock
    dsimp only
    rw [hfind]
    dsimp only
    rw [hn]
  have hretire : m.retirePitch sl t = m := by
    unfold Mach.retirePitch Mach.pitch
    rw [hpitch]
    rfl
  have hregion : regionOf (r * 0x10000 + n * 1024) = r := by
    unfold regionOf
    omega
  have hhand : m.handOut sl (r * 0x10000 + n * 1024) false = m.setSlot sl { m.slot sl with handed := mapPut (m.slot sl).handed r (n + 1) } := by
    unfold Mach.handOut
    rw [hregion]
    dsimp only
    rw [if_neg Bool.false_ne_true, if_neg Bool.false_ne_true, hn, if_neg]
    have hph : (m.setSlot sl { m.slot sl with handed := mapPut (m.slot sl).handed r (n + 1) }).ch.sw.phase = .idle := hphase
    rw [hph]
    simp [Phase.marking]
  unfold Mach.pitchRefill
  rw [if_neg (by simp [hsweeps, hen]), hplan]
  dsimp only
  rw [hretire, hhand, Mach.setPitch, slot_setSlot]
  refine congrArg (fun x : Mach => x.bumpC 43) ?_
  unfold Mach.setSlot
  rw [Vector.set_set]

/-! ### Commands and triggers that start a cycle (R344, R348) -/

section
variable {s : State} {c : Chan} {sl : Fin 8}

/-- Every write committed before has taken its place, no thread waits, and the slot's side area lies in memory. -/
def Mach.settled (m : Mach) (sl : Fin 8) : Prop :=
  (m.core 0).wb = [] ∧ (m.core 1).wb = [] ∧ m.ch.proc.heals = [] ∧ (∀ (t : Fin 8) k, (m.thr t).status ≠ .waiting k) ∧ m.sideHeld sl
/-- A command that accepts a cycle of such a slot: ROOTS begins, with a root request on every running thread. -/
theorem cycle_starts {i : Instr} {f : Mach → Mach} {m1 : Mach} {full full' : Bool} (hex : exec i s = .next (s.onMach c f))
    (hf : f (s.mach c) = (m1.acceptCycle sl full).beginRoots) (hm1 : m1.ch.thr = (s.chan c).thr) (hphase : m1.ch.sw.phase = .idle)
    (hset : m1.settled sl) (hfull : (full || (m1.slot sl).logovf) = full') :
    ∃ s', exec i s = .next s' ∧ sameElsewhere s s' c ∧ (s'.chan c).sw.phase = .roots ∧ (s'.chan c).sw.slot = sl ∧
      (s'.chan c).sw.full = full' ∧ (s'.chan c).sw.starting = false ∧ (s'.chan c).sw.xlate = none ∧
      ∀ t : Fin 8, s'.thread c t = (if (s.thread c t).status = .running then { s.thread c t with rootReq := true, rootPend := true } else s.thread c t) := by
  obtain ⟨h0, h1, hheals, hwait, hside⟩ := hset
  obtain ⟨hroots, hslot, hful, hstart, hxlate, hthr⟩ := beginRoots_enters (acceptCycle_rootable full h0 h1 hheals hphase hside hwait)
  refine ⟨_, hex, onMach_elsewhere s c f, ?_⟩
  unfold State.thread
  rw [chan_onMach, hf]
  refine ⟨hroots, hslot, hful.trans hfull, hstart, hxlate, fun t => (hthr t).trans ?_⟩
  show (m1.thr t).rooted = _
  rw [Mach.thr, hm1]
  rfl
theorem startCycle_accepts {m : Mach} (full : Bool) (hidle : m.swIdle = true) (hen : (m.slot sl).en = true) :
    m.startCycle sl full = ((m.swResult 0#2).acceptCycle sl full).beginRoots := by
  have hcmd : m.cycleCmd sl full = (m.swResult 0#2).acceptCycle sl full := by
    unfold Mach.cycleCmd
    rw [if_neg (by simp [hidle]), if_neg (by simp [hen])]
  unfold Mach.startCycle
  dsimp only
  rw [hcmd, if_pos (by rw [hidle, hen]; rfl)]
theorem startCycle_disabled {m : Mach} (full : Bool) (hidle : m.swIdle = true) (hen : (m.slot sl).en = false) :
    m.startCycle sl full = m.swResult 2#2 := by
  unfold Mach.startCycle Mach.cycleCmd
  dsimp only
  rw [if_neg (by simp [hen]), if_neg (by simp [hidle]), if_pos (by simp [hen])]
theorem startCycle_busy {m : Mach} (full : Bool) (hidle : m.swIdle = false) : m.startCycle sl full = m.swResult 1#2 := by
  unfold Mach.startCycle Mach.cycleCmd
  dsimp only
  rw [if_neg (by simp [hidle]), if_pos (by simp [hidle])]
/-- The lowest of the eight numbers that satisfies a test. -/
theorem find_threads {p : Fin 8 → Bool} (hsl : p sl = true) (hbelow : ∀ u < sl, p u = false) : threads.find? p = some sl := by
  have hget : ∀ (j : Nat) (hj : j < 8), threads[j] = ⟨j, hj⟩ := by decide
  refine List.find?_eq_some_iff_getElem.mpr ⟨hsl, sl.val, sl.isLt, hget _ _, fun j hj => ?_⟩
  refine (congrArg (fun u => !p u) (hget j (hj.trans sl.isLt))).trans ?_
  rw [hbelow _ hj]
  rfl
/-- The lowest enabled slot with no more FREE regions than LOWMARK is the one a trigger takes (R348). -/
theorem autoCycle_starts {m : Mach} (hsweeps : m.sweeps = true) (hidle : m.swIdle = true) (hen : (m.slot sl).en = true)
    (hlowest : ∀ u : Fin 8, u < sl → (m.slot u).en = false) (hmark : m.ch.lowmark ≠ 0) (hfree : (m.slot sl).freeCount ≤ m.ch.lowmark) :
    m.autoCycle = (m.acceptCycle sl true).beginRoots := by
  have hfull : (m.triggers sl).1 = true := by simp [Mach.triggers, hen, hmark, hfree]
  have hnone (u : Fin 8) (hu : u < sl) : ((m.triggers u).1 || (m.triggers u).2) = false := by simp [Mach.triggers, hlowest u hu]
  have hfind : threads.find? (fun u => (m.triggers u).1 || (m.triggers u).2) = some sl := find_threads (by simp [hfull]) hnone
  unfold Mach.autoCycle
  rw [if_neg (by simp [hsweeps, hidle]), hfind]
  dsimp only
  rw [hfull]
theorem swResult_onMach {i : Instr} {f : Mach → Mach} {r : BitVec 2} (hex : exec i s = .next (s.onMach c f)) (hf : f (s.mach c) = (s.mach c).swResult r) :
    turnsTo i s c { s.chan c with sw := { (s.chan c).sw with result := r } } :=
  hex.trans (congrArg Host.Outcome.next (onMach_channel s c f _ hf))
end

/-- Settles O51: each command by its function on the slice, the cycles through `beginRoots`. -/
theorem sweeperCommands : Obligations.SweeperCommands := by
  intro s c sl
  have hidleIff : (s.mach c).swIdle = true ↔ (s.chan c).sw.phase = .idle ∧ (s.chan c).sw.starting = false := swIdle_iff
  have hprog (hawake : s.awake c) (f : Mach → Mach) : Host.Outcome.next (s.program c f) = (Host.Outcome.next (s.onMach c f) : Out) :=
    congrArg _ (program_onMach f hawake)
  have hsw (hcond : (s.chan c).life.cond = .running) (hpower : (s.chan c).life.power = .run) (hheld : (s.mach c).heldBack = false) :
      (s.mach c).sweeps = true := by
    have hworks : (s.mach c).works = true := by simp [Mach.works, Mach.fastOn, hcond, hpower]
    unfold Mach.sweeps
    rw [hworks, hheld]
    rfl
  refine ⟨fun hawake => ⟨fun hidle => ?_, fun asid hidle hoff hother hmap hlow hhigh => ?_, fun hidle hen hquiet => ?_, fun hidle hoff => ?_,
    fun hbusy => ?_, fun region kind root hidle hen => ⟨fun hmay => ?_, fun hmay hnew hwf hplace => ?_⟩, fun op hop => ?_⟩,
    fun hcond hpower hheld => ⟨fun hidle hquiet hen hlowest hmark hfree => ?_, fun t r n hen hr hkind hn hroom hfirst hpitch hidle => ?_⟩⟩
  · exact (hprog hawake _).trans (congrArg Host.Outcome.next (onMach_channel s c _ _ (if_pos (hidleIff.mpr hidle))))
  · have hok : (s.mach c).enableable sl := fun r hr => by
      obtain ⟨hplace, htag, hkind, hres, hlow⟩ := hmap r hr
      refine ⟨hplace, ?_⟩
      simp only [entryOkToEnable, Bool.and_eq_true, Bool.or_eq_true, decide_eq_true_iff, or_assoc]
      exact ⟨⟨⟨htag, hkind⟩, hres⟩, hlow⟩
    obtain ⟨n, hn, hc, hthr, hres, hslot, hpeek⟩ := slotEnable_enables (asid := asid) (hidleIff.mpr hidle) hoff hother hok hlow hhigh
    have hcell (a : Nat) := (cell_onMach (s := s) (c := c) (f := fun m => m.slotEnable sl asid) (by rw [hn]; exact hc) a).trans (congrArg (fun x : Mach => x.peek a) hn)
    refine ⟨_, hprog hawake _, onMach_elsewhere s c _, ?_⟩
    rw [chan_onMach, hn]
    refine ⟨hthr, hres, ?_, fun i hi => ?_, fun a ha => ?_⟩
    · show (n.slot sl).en = true ∧ (n.slot sl).asid = asid ∧ (n.slot sl).logovf = _ ∧ (n.slot sl).pitch = [] ∧ (n.slot sl).side = _ ∧
        ∀ r < 256, (n.slot sl).entry r = _
      rw [hslot]
      refine ⟨rfl, rfl, rfl, rfl, rfl, fun r hr => (mapAt_mapOf _ r).trans ?_⟩
      rw [upFrom_eq_range', List.getElem?_map, List.getElem?_range' hr]
      simp only [Nat.zero_add, Nat.one_mul]
      rfl
    · rw [hcell, hpeek]
      exact if_pos ⟨Nat.le_add_right _ _, Nat.add_lt_add_left hi _⟩
    · rw [hcell, hpeek]
      exact if_neg (fun h => by have : (s.mach c).side sl = ((s.chan c).sw.slots[sl]).side.toNat * 1024 := rfl; omega)
  · obtain ⟨h0, h1, hheals, hwait, hside, -⟩ := hquiet
    have hset : ((s.mach c).swResult 0#2).settled sl := ⟨h0, h1, hheals, hwait, hside⟩
    exact ⟨cycle_starts (hprog hawake _) (startCycle_accepts false (hidleIff.mpr hidle) hen) rfl hidle.1 hset (Bool.false_or _),
      cycle_starts (hprog hawake _) (startCycle_accepts true (hidleIff.mpr hidle) hen) rfl hidle.1 hset (Bool.true_or _)⟩
  · exact ⟨swResult_onMach (hprog hawake _) (startCycle_disabled false (hidleIff.mpr hidle) hoff),
      swResult_onMach (hprog hawake _) (startCycle_disabled true (hidleIff.mpr hidle) hoff)⟩
  · have hno : (s.mach c).swIdle = false := Bool.eq_false_iff.mpr fun h => hbusy (hidleIff.mp h)
    refine ⟨swResult_onMach (hprog hawake _) (startCycle_busy false hno), swResult_onMach (hprog hawake _) (startCycle_busy true hno),
      fun region kind root => swResult_onMach (hprog hawake _) (if_pos ?_)⟩
    rw [hno]
    rfl
  · exact swResult_onMach (hprog hawake _) (regionSet_refused (hidleIff.mpr hidle) hmay)
  · have hset := regionSet_ok (hidleIff.mpr hidle) hen hmay hnew
    rw [mkEntry_region] at hset
    obtain ⟨hswept, hpeek⟩ := setRegion_sets (m := (s.mach c).swResult 0#2) (sl := sl) (r := region.toNat) (kind ++ BitVec.ofBool root ++ 0#20 : BitVec 24) hplace
    generalize ((s.mach c).swResult 0#2).setRegion sl region.toNat (kind ++ BitVec.ofBool root ++ 0#20 : BitVec 24) = n at hset hswept hpeek
    have hc : n.c = c := by
      rw [hswept]
      rfl
    have hcell (a : Nat) := (cell_onMach (s := s) (c := c) (f := fun m => m.regionSet sl region kind root) (by rw [hset]; exact hc) a).trans (congrArg (fun x : Mach => x.peek a) hset)
    obtain ⟨hthr, hslots, -, -, -, -, -, hresult⟩ := swept_keeps hswept
    have hslot : n.slot sl = { (s.mach c).slot sl with map := mapSet 0#24 ((s.mach c).slot sl).map region.toNat (kind ++ BitVec.ofBool root ++ 0#20 : BitVec 24) } :=
      (swept_slot hswept sl).trans (slot_setSlot _ _ _)
    refine ⟨_, hprog hawake _, onMach_elsewhere s c _, ?_⟩
    rw [chan_onMach, hset]
    refine ⟨hthr, hresult, ?_, fun r hr => ?_, ?_, fun a ha => ?_⟩
    · show (n.slot sl).entry region.toNat = _
      rw [hslot]
      exact mapAt_mapSet _ _ _ _ hwf
    · show (n.slot sl).entry r = _
      rw [hslot]
      exact mapAt_mapSet_ne _ _ _ _ _ hr
    · rw [hcell, hpeek]
      exact if_pos rfl
    · rw [hcell, hpeek]
      exact if_neg ha
  · exact swResult_onMach (hprog hawake _) (if_pos hop)
  · obtain ⟨h0, h1, hheals, hwait, hside, -⟩ := hquiet
    exact cycle_starts rfl (autoCycle_starts (hsw hcond hpower hheld) (hidleIff.mpr hidle) hen hlowest hmark hfree) rfl hidle.1 ⟨h0, h1, hheals, hwait, hside⟩ (Bool.true_or _)
  · exact does_of_onMach rfl (pitchRefill_hands (hsw hcond hpower hheld) hen hr hkind hn hroom hfirst hpitch hidle.1)

end Sys2Proof.Machine
end

section
/-! The sweeper's cycle (R340, R345, R351 to R354): the log, the spill, and the ends of MARK, EVACUATE and FIXUP. -/
namespace Sys2Proof.Machine

/-- A write by the sweeper leaves its threads and its own registers but the last line as they were (R328). -/
theorem sweeperStep_keeps (m : Mach) (l : Nat) (cells : NMap (Cell × Bool)) :
    (m.memStep .sweeper l cells).c = m.c ∧ (m.memStep .sweeper l cells).ch.sw = { m.ch.sw with lastLine := some l } ∧
      (m.memStep .sweeper l cells).ch.thr = m.ch.thr := by
  have h := sweeperStep_stepped m l cells
  generalize m.memStep .sweeper l cells = n at h
  rw [h]
  exact ⟨rfl, rfl, rfl⟩
theorem sweeps_of {m : Mach} (hcond : m.ch.life.cond = .running) (hpower : m.ch.life.power = .run) (hheld : m.heldBack = false) : m.sweeps = true := by
  have hworks : m.works = true := by simp [Mach.works, Mach.fastOn, hcond, hpower]
  unfold Mach.sweeps
  rw [hworks, hheld]
  rfl

/-! ### The log (R345) -/

section
variable {m : Mach} {u : Fin 8} {p : Payload} {w : Nat}

/-- The card a log entry names: bits 17:4 its cell, bits 3:0 its bit. -/
theorem cardAddr_entry (p : Payload) : m.cardAddr u (bits p 0 18 * 64) = m.side u + 0x80000 + bits p 4 14 := by
  have hsplit : bits p 4 14 = bits p 0 18 / 16 := by
    simp only [bits, BitVec.extractLsb'_toNat, Nat.shiftRight_eq_div_pow]
    omega
  have hlt : bits p 0 18 < 2 ^ 18 := BitVec.isLt _
  unfold Mach.cardAddr regionOf
  rw [hsplit]
  omega
theorem cardBit_entry (p : Payload) : cardBit (bits p 0 18 * 64) = bits p 0 4 := by
  have hsplit : bits p 0 4 = bits p 0 18 % 16 := by
    simp only [bits, BitVec.extractLsb'_toNat, Nat.shiftRight_eq_div_pow]
    omega
  unfold cardBit
  rw [hsplit]
  omega
theorem writeCard_memory {a : Nat} (hw : m.cardAddr u a = w) (hplace : m.ch.place w = .memory) (on : Bool) :
    m.writeCard u a on = m.memStep .sweeper (w / 16) [(w % 16, raw (setBit (cellPay (m.peek w)) (cardBit a) on), false)] := by
  subst hw
  unfold Mach.writeCard
  dsimp only
  rw [hplace]
  exact cellStep_memory hplace _ _
/-- The oldest log entry sets its card. -/
theorem logDrain_sets {o : Nat} (hocc : m.ch.sw.logOcc ≠ 0#11)
    (ho : o = m.ch.proc.nearbase.toNat + (m.ch.sw.logHead.toNat + 1024 - m.ch.sw.logOcc.toNat) % 1024) (hlow : o < 0x10000)
    (hclean : (nearRead (m.nearBits o)).1 = .clean) (hcell : m.peek (0x80000000 + o) = raw p) (hres : bits p 18 3 = 0) (hslot : bits p 21 3 = u.val)
    (hen : (m.slot u).en = true) (hw : w = m.side u + 0x80000 + bits p 4 14) (hplace : m.ch.place w = .memory) :
    m.logDrain = ({ m with ch.sw.logOcc := m.ch.sw.logOcc - 1#11 } : Mach).memStep .sweeper (w / 16)
      [(w % 16, raw (setBit (cellPay (m.peek w)) (bits p 0 4) true), false)] := by
  have htag : cellTag (raw p) = tRAW := cellTag_mkCell _ _ _
  have hpay : cellPay (raw p) = p := cellPay_mkCell _ _ _
  have hix : Fin.ofNat 8 (bits p 21 3) = u := by
    rw [hslot]
    exact Fin.ofNat_val_eq_self u
  generalize hR : m.logDrain = R
  unfold Mach.logDrain at hR
  rw [if_neg hocc] at hR
  extract_lets tail r mX chX swX m1 p1 chY swY u1 at hR
  have hr : r = (raw p, m) := by
    show m.nearFetch (m.ch.proc.nearbase.toNat + tail) = _
    rw [← ho, nearFetch_clean hlow hclean, hcell]
  have hm1 : m1 = { m with ch.sw.logOcc := m.ch.sw.logOcc - 1#11 } := by
    show ({ r.2 with ch.sw.logOcc := r.2.ch.sw.logOcc - 1#11 } : Mach) = _
    rw [hr]
  have hp1 : p1 = p := by
    show cellPay r.1 = p
    rw [hr, hpay]
  have hu1 : u1 = u := by
    show Fin.ofNat 8 (bits p1 21 3) = u
    rw [hp1, hix]
  clear_value r m1 p1 u1
  subst hr hp1 hu1
  have hslot1 : m1.slot u1 = m.slot u1 := by
    rw [hm1]
    rfl
  have haddr : m1.cardAddr u1 (bits p1 0 18 * 64) = w := by
    rw [cardAddr_entry, hw, Mach.side, hslot1]
    rfl
  have hplace1 : m1.ch.place w = .memory := by
    rw [hm1]
    exact hplace
  have hpeek1 : m1.peek w = m.peek w := by
    rw [hm1]
    rfl
  rw [if_neg (by simp [htag, hres]), if_pos (by rw [hslot1]; exact hen), writeCard_memory haddr hplace1, cardBit_entry, hpeek1, hm1] at hR
  exact hR.symm
end

/-! ### The mark queue (R351) -/

/-- A full mark queue spills its oldest line. -/
theorem spillLine_writes {m : Mach} {a : Nat} (ha : a = bits (winGet m.ch 0x2005) 0 22 * 1024 + m.ch.sw.spilled)
    (hroom : m.ch.sw.spilled + 16 ≤ bits (winGet m.ch 0x2006) 0 12 * 1024) (hplace : m.ch.place a = .memory) :
    ∃ n, n = m.memStep .sweeper (a / 16) (lineOf 0 (m.ch.sw.queue.take 16)) ∧
      m.spillLine = { n.bumpC 40 with ch.sw := { n.ch.sw with queue := n.ch.sw.queue.drop 16, spilled := n.ch.sw.spilled + 16 } } := by
  subst ha
  refine ⟨_, rfl, ?_⟩
  unfold Mach.spillLine
  dsimp only
  rw [if_neg (by omega), hplace]

/-! ### The end of EVACUATE (R353, R354) -/

/-- With nothing left to copy and no block open, FIXUP begins and raises its root requests. -/
theorem evacuateEnd_fixes {m : Mach} (hsweeps : m.sweeps = true) (hphase : m.ch.sw.phase = .evacuate) (hcopy : m.ch.sw.copy = none)
    (htodo : m.ch.sw.todo = []) (hwork : m.ch.sw.work = []) (hblocks : m.ch.sw.toBlocks = []) (hclosed : m.ch.sw.toEnd ≤ m.ch.sw.toNext) :
    m.evacuateEnd = ({ m with ch.sw := { m.ch.sw with phase := .fixup, planned := false, work := [], xlate := none } } : Mach).raiseRoots threads := by
  have hfind : m.findTodo m.ch.sw.work = m := by
    rw [hwork]
    show { m with ch.sw := { m.ch.sw with work := [] } } = m
    rw [← hwork]
  have hclose : m.closeBlock = m := by
    unfold Mach.closeBlock
    exact if_neg (by omega)
  have hcloses (used : Nat → Bool) : m.closeBlocks used m.ch.sw.toBlocks = m := by
    rw [hblocks]
    rfl
  unfold Mach.evacuateEnd
  rw [if_neg (by simp [hsweeps, hphase, hcopy, htodo])]
  dsimp only
  rw [hfind, if_neg (by simp [htodo]), hclose]
  unfold Mach.unlessEnded
  rw [if_pos hphase]
  dsimp only
  rw [hcloses, if_pos hphase]
theorem raiseRoots_all {m : Mach} (hwait : ∀ (t : Fin 8) k, (m.thr t).status ≠ .waiting k) :
    m.raiseRoots threads = { m with ch.thr := m.ch.thr.map Thread.rooted } := by
  obtain ⟨v, hv, hall⟩ := raiseRoots_eq threads m hwait
  rw [hv]
  have hmap : v = m.ch.thr.map Thread.rooted := by
    ext i hi : 1
    have h := hall ⟨i, hi⟩
    rw [if_pos (mem_threads _)] at h
    rw [Vector.getElem_map]
    exact h
  rw [hmap]

/-! ### Changes of a slot's map (R338) -/

/-- From m to n the sweeper has stored, and the map of slot sl has become f. -/
def remaps (m n : Mach) (sl : Fin 8) (f : NMap Payload) : Prop := sweptOnly (m.setSlot sl { m.slot sl with map := f }) n

section
variable {m n k : Mach} {sl : Fin 8} {f g : NMap Payload} {e : Payload}

theorem setSlot_self (m : Mach) (sl : Fin 8) : m.setSlot sl (m.slot sl) = m := by
  have hset : m.ch.sw.slots.set sl (m.slot sl) = m.ch.sw.slots := Vector.set_getElem_self sl.isLt
  unfold Mach.setSlot
  rw [hset]
theorem setSlot_setSlot (m : Mach) (sl : Fin 8) (x y : Slot) : (m.setSlot sl x).setSlot sl y = m.setSlot sl y := by
  unfold Mach.setSlot
  rw [Vector.set_set]
theorem remaps_slot (h : remaps m n sl f) : n.slot sl = { m.slot sl with map := f } := (swept_slot h sl).trans (slot_setSlot _ _ _)
theorem remaps_place (h : remaps m n sl f) (a : Nat) : n.ch.place a = m.ch.place a := swept_place h a
theorem remaps_mapAddr (h : remaps m n sl f) (r : Nat) : n.mapAddr sl r = m.mapAddr sl r := swept_mapAddr h sl r
theorem remaps_phase (h : remaps m n sl f) : n.ch.sw.phase = m.ch.sw.phase := (swept_keeps h).2.2.1
theorem remaps_refl (m : Mach) (sl : Fin 8) : remaps m m sl (m.slot sl).map := by
  unfold remaps
  exact (setSlot_self m sl).symm ▸ sweptOnly_refl m
theorem remaps_trans (h : remaps m n sl f) (h' : remaps n k sl g) : remaps m k sl g := by
  have hx : ({ n.slot sl with map := g } : Slot) = { m.slot sl with map := g } := by rw [remaps_slot h]
  unfold remaps at *
  rw [hx] at h'
  have hset : sweptOnly (m.setSlot sl { m.slot sl with map := g }) (n.setSlot sl { m.slot sl with map := g }) := by
    have hn : sweptOnly ((m.setSlot sl { m.slot sl with map := f }).setSlot sl { m.slot sl with map := g }) (n.setSlot sl { m.slot sl with map := g }) := by
      unfold sweptOnly
      rw [h]
      rfl
    rwa [setSlot_setSlot] at hn
  exact sweptOnly_trans hset h'
/-- Work that has changed the map alone goes on (R355). -/
theorem unlessEnded_remaps (h : remaps m n sl f) (w : Mach → Mach) : n.unlessEnded m.ch.sw.phase w = w n := if_pos (remaps_phase h)
/-- The memory that mirrors a slot's map is there. -/
def Mach.mapHeld (m : Mach) (sl : Fin 8) : Prop := ∀ r < 256, m.ch.place (m.mapAddr sl r) = .memory
theorem remaps_mapHeld (h : remaps m n sl f) (hheld : m.mapHeld sl) : n.mapHeld sl := fun r hr => by
  rw [remaps_mapAddr h, remaps_place h]
  exact hheld r hr
theorem setRegion_remaps {r : Nat} (hheld : m.mapHeld sl) (hr : r < 256) :
    remaps m (m.setRegion sl r e) sl (mapSet 0#24 (m.slot sl).map r e) := (setRegion_sets e (hheld r hr)).1
theorem mem_mapDel {α : Type} {x : Nat × α} {j : Nat} : {l : List (Nat × α)} → x ∈ mapDel l j → x ∈ l
  | [], h => h
  | (i, v) :: r, h => by
    unfold mapDel at h
    split at h
    · exact List.mem_cons_of_mem _ h
    · rcases List.mem_cons.mp h with rfl | hr
      · exact List.mem_cons_self
      · exact List.mem_cons_of_mem _ (mem_mapDel hr)
theorem mem_mapSet {x : Nat × Payload} {j : Nat} (h : x ∈ mapSet 0#24 f j e) : x ∈ f ∨ x.1 = j := by
  unfold mapSet at h
  split at h
  · exact .inl (mem_mapDel h)
  · rcases mem_mapPut _ h with rfl | hx
    · exact .inr rfl
    · exact .inl hx
/-- A map whose keys are regions, in canonical form. -/
def regionMap (f : NMap Payload) : Prop := mapWf f = true ∧ ∀ x ∈ f, x.1 < 256
theorem regionMap_mapSet {r : Nat} (h : regionMap f) (hr : r < 256) : regionMap (mapSet 0#24 f r e) :=
  ⟨mapWf_mapSet _ _ _ _ h.1, fun x hx => (mem_mapSet hx).elim (h.2 x) (fun hxr => hxr ▸ hr)⟩
theorem mapAt_mapSet_eq {r : Nat} (h : regionMap f) (q : Nat) : mapAt 0#24 (mapSet 0#24 f r e) q = if q = r then e else mapAt 0#24 f q := by
  by_cases hq : q = r
  · rw [if_pos hq, hq]
    exact mapAt_mapSet _ _ _ _ h.1
  · rw [if_neg hq]
    exact mapAt_mapSet_ne _ _ _ _ _ hq
/-- Several regions set to one entry. -/
theorem setRegions_remaps (e : Payload) : ∀ (rs : List Nat) {m : Mach}, m.mapHeld sl → (∀ r ∈ rs, r < 256) → regionMap (m.slot sl).map →
    ∃ f, remaps m (m.setRegions sl e rs) sl f ∧ regionMap f ∧ ∀ q, mapAt 0#24 f q = if q ∈ rs then e else (m.slot sl).entry q
  | [], m, _, _, hmap => ⟨_, remaps_refl m sl, hmap, fun q => (if_neg List.not_mem_nil).symm⟩
  | r :: rs, m, hheld, hrs, hmap => by
    have hr := hrs r List.mem_cons_self
    have hone := setRegion_remaps (e := e) hheld hr
    have hslot := remaps_slot hone
    obtain ⟨f, hf, hfmap, hat⟩ := setRegions_remaps e rs (remaps_mapHeld hone hheld) (fun q hq => hrs q (List.mem_cons_of_mem _ hq)) (by
      rw [hslot]
      exact regionMap_mapSet hmap hr)
    refine ⟨f, ?_, hfmap, fun q => ?_⟩
    · unfold Mach.setRegions
      rw [unlessEnded_remaps hone]
      exact remaps_trans hone hf
    · rw [hat, hslot, Slot.entry, mapAt_mapSet_eq hmap]
      by_cases hq : q = r
      · simp [hq]
      · simp [hq, Slot.entry]
theorem setBit_clear {p : Payload} (h : bit p 19 = false) : setBit p 19 false = p := by
  apply BitVec.eq_of_getLsbD_eq
  intro i hi
  have hb := bit_setBit p 19 i false (by omega)
  unfold bit at hb h
  rw [hb]
  by_cases hi19 : i = 19
  · rw [if_pos hi19, hi19, h]
  · rw [if_neg hi19]
/-- NEW cleared in the entries of a list that stand in the map. -/
theorem clearNew_remaps : ∀ (l : List (Nat × Payload)) {m : Mach}, m.mapHeld sl → (∀ x ∈ l, x.1 < 256) → (l.map (fun x => x.1)).Nodup →
    (∀ x ∈ l, (m.slot sl).entry x.1 = x.2) → regionMap (m.slot sl).map →
    ∃ f, remaps m (m.clearNew sl l) sl f ∧ regionMap f ∧
      ∀ q, mapAt 0#24 f q = if q ∈ l.map (fun x => x.1) then setBit ((m.slot sl).entry q) 19 false else (m.slot sl).entry q
  | [], m, _, _, _, _, hmap => ⟨_, remaps_refl m sl, hmap, fun q => (if_neg List.not_mem_nil).symm⟩
  | (r, e) :: l, m, hheld, hl, hnodup, hat, hmap => by
    have hr : r < 256 := hl (r, e) List.mem_cons_self
    have hre : (m.slot sl).entry r = e := hat (r, e) List.mem_cons_self
    obtain ⟨hnew, hrest⟩ := List.nodup_cons.mp hnodup
    have hone : ∃ f, remaps m (if entryNew e then m.setRegion sl r (setBit e 19 false) else m) sl f ∧ regionMap f ∧
        ∀ q, mapAt 0#24 f q = if q = r then setBit e 19 false else (m.slot sl).entry q := by
      by_cases he : entryNew e = true
      · rw [if_pos he]
        exact ⟨_, setRegion_remaps hheld hr, regionMap_mapSet hmap hr, mapAt_mapSet_eq hmap⟩
      · rw [if_neg he]
        refine ⟨_, remaps_refl m sl, hmap, fun q => ?_⟩
        by_cases hq : q = r
        · rw [if_pos hq, setBit_clear (Bool.eq_false_iff.mpr he), hq]
          exact hre
        · rw [if_neg hq]
          rfl
    obtain ⟨f, hf, hfmap, hfat⟩ := hone
    have hslot := remaps_slot hf
    have hentry (q : Nat) : ((if entryNew e then m.setRegion sl r (setBit e 19 false) else m).slot sl).entry q =
        if q = r then setBit e 19 false else (m.slot sl).entry q := by
      rw [hslot]
      exact hfat q
    obtain ⟨g, hg, hgmap, hgat⟩ := clearNew_remaps l (remaps_mapHeld hf hheld) (fun x hx => hl x (List.mem_cons_of_mem _ hx)) hrest (fun x hx => by
      have hne : x.1 ≠ r := fun h => hnew (List.mem_map.mpr ⟨x, hx, h⟩)
      rw [hentry, if_neg hne]
      exact hat x (List.mem_cons_of_mem _ hx)) (by
      rw [hslot]
      exact hfmap)
    refine ⟨g, ?_, hgmap, fun q => ?_⟩
    · unfold Mach.clearNew
      rw [unlessEnded_remaps hf]
      exact remaps_trans hf hg
    · rw [hgat, hentry]
      by_cases hq : q = r
      · subst hq
        rw [if_neg hnew, if_pos rfl, if_pos (by simp), hre]
      · simp [hq]
/-- NEW cleared in every entry of the map. -/
theorem clearNew_all (hheld : m.mapHeld sl) (hmap : regionMap (m.slot sl).map) :
    ∃ f, remaps m (m.clearNew sl (m.slot sl).map) sl f ∧ regionMap f ∧ ∀ q, mapAt 0#24 f q = setBit ((m.slot sl).entry q) 19 false := by
  have hnodup : ((m.slot sl).map.map (fun x => x.1)).Nodup := by
    have hpair := (mapWf_iff_pairwise _).mp hmap.1
    exact List.Pairwise.map _ (fun a b (h : a.1 < b.1) => Nat.ne_of_lt h) hpair
  obtain ⟨f, hf, hfmap, hat⟩ := clearNew_remaps (m.slot sl).map hheld hmap.2 hnodup (fun x hx => by
    unfold Slot.entry mapAt
    rw [mapGet_of_mem hmap.1 hx]
    rfl) hmap
  refine ⟨f, hf, hfmap, fun q => ?_⟩
  rw [hat]
  by_cases hq : q ∈ (m.slot sl).map.map (fun x => x.1)
  · rw [if_pos hq]
  · have hzero : (m.slot sl).entry q = 0#24 := by
      unfold Slot.entry mapAt
      rw [Option.not_isSome_iff_eq_none.mp (fun h => hq (mapGet_isSome.mp h))]
      rfl
    rw [if_neg hq, hzero]
    decide
end

/-! ### The marks (R340) -/

/-- RAW 0 written into mark cells. -/
theorem clearMarks_clears : ∀ (l : List Nat) {m : Mach}, (∀ a ∈ l, m.ch.place a = .memory) →
    sweptOnly m (m.clearMarks l) ∧ ∀ b, (m.clearMarks l).peek b = if b ∈ l then raw 0#24 else m.peek b
  | [], m, _ => ⟨sweptOnly_refl m, fun b => (if_neg List.not_mem_nil).symm⟩
  | a :: l, m, hplace => by
    have ha := hplace a List.mem_cons_self
    have hone := sweptOnly_cellStep ha (raw 0#24) false
    have hcell := peek_sweeperCell ha (raw 0#24)
    obtain ⟨hrest, hpeek⟩ := clearMarks_clears l (m := m.cellStep .sweeper a (raw 0#24) false) (fun b hb => by
      rw [swept_place hone]
      exact hplace b (List.mem_cons_of_mem _ hb))
    refine ⟨sweptOnly_trans hone hrest, fun b => (hpeek b).trans ?_⟩
    rw [hcell]
    by_cases hb : b = a
    · simp [hb]
    · simp [hb]

/-! ### The end of FIXUP (R354) -/

section
variable {m : Mach}

/-- A slot whose cycle has ended with a map, LOGOVF cleared or kept. -/
def Slot.counted (x : Slot) (f : NMap Payload) (clears : Bool) : Slot :=
  { x with map := f, cycles := x.cycles + 1#24, logovf := x.logovf && !clears }
/-- The sweeper's registers once a cycle is over. -/
def Sweeper.ended (sw : Sweeper) : Sweeper :=
  { sw with
    phase := .idle, queue := [], spilled := 0, live := [], marks := [], work := [], todo := [], copy := none, toNext := 0, toEnd := 0
    toBlocks := [], toSpace := [], lost := false, whole := false, planned := false, xlate := none }
/-- What a cycle leaves at its end: the slot's count and LOGOVF, and the sweeper IDLE. -/
def Mach.cycleClosed (m : Mach) (sl : Fin 8) (clears : Bool) : Mach :=
  let n := m.setSlot sl ((m.slot sl).counted (m.slot sl).map clears)
  { n.bumpC 36 with ch.sw := n.ch.sw.ended }
/-- And vector 80 where it is enabled. -/
def Mach.cycleEnded (m : Mach) (sl : Fin 8) (full clears : Bool) : Mach :=
  (m.cycleClosed sl clears).raiseIf (winBit (m.cycleClosed sl clears).ch 0x2000 0) 80 (fixN (sl.val + 8 * bnat full))
theorem cycleEnded_leaves (m : Mach) (sl : Fin 8) (full clears : Bool) :
    (m.cycleEnded sl full clears).c = m.c ∧ (m.cycleEnded sl full clears).ch.sw.phase = .idle ∧ (m.cycleEnded sl full clears).ch.thr = m.ch.thr ∧
      (m.cycleEnded sl full clears).slot sl = (m.slot sl).counted (m.slot sl).map clears ∧
      (∀ a, (m.cycleEnded sl full clears).peek a = m.peek a) ∧
      (bit (winGet m.ch 0x2000) 0 = true → (mapGet (m.cycleEnded sl full clears).ch.proc.pend 80).isSome = true) := by
  have hphase : (m.cycleClosed sl clears).ch.sw.phase = .idle := rfl
  have hthr : (m.cycleClosed sl clears).ch.thr = m.ch.thr := rfl
  have hc : (m.cycleClosed sl clears).c = m.c := rfl
  have hslot : (m.cycleClosed sl clears).slot sl = (m.slot sl).counted (m.slot sl).map clears :=
    slot_setSlot m sl ((m.slot sl).counted (m.slot sl).map clears)
  have hpeek (a : Nat) : (m.cycleClosed sl clears).peek a = m.peek a := rfl
  have hbit : winBit (m.cycleClosed sl clears).ch 0x2000 0 = bit (winGet m.ch 0x2000) 0 := rfl
  unfold Mach.cycleEnded
  generalize m.cycleClosed sl clears = n at hphase hthr hc hslot hpeek hbit ⊢
  refine ⟨?_, ?_, ?_, ?_, fun a => ?_, fun hen => ?_⟩
  · rw [raiseIf_eq, hc]
  · rw [raiseIf_eq, hphase]
  · rw [raiseIf_thr, hthr]
  · rw [raiseIf_eq, ← hslot]
    rfl
  · rw [← hpeek, raiseIf_raisedIf, raisedIf_frame]
    rfl
  · rw [raiseIf_raisedIf, hbit, hen]
    exact raised_pending _ _ _
/-- FIXUP ends: its regions become FREE, NEW and the marks clear, and the cycle is counted. -/
theorem fixupEnd_ends {sl : Fin 8} (hsl : m.ch.sw.slot = sl) (hsweeps : m.sweeps = true) (hphase : m.ch.sw.phase = .fixup) (hplanned : m.ch.sw.planned = true)
    (hwork : m.ch.sw.work = []) (howes : m.ch.sw.owesWhole = false) (hheld : m.mapHeld sl) (hmap : regionMap (m.slot sl).map)
    (hspace : ∀ r ∈ m.ch.sw.toSpace, r < 256) (hmarks : ∀ a ∈ m.ch.sw.marks, m.ch.place a = .memory) :
    m.fixupEnd.c = m.c ∧ m.fixupEnd.ch.sw.phase = .idle ∧ m.fixupEnd.ch.thr = m.ch.thr ∧
      (∃ f, m.fixupEnd.slot sl = (m.slot sl).counted f (m.ch.sw.full && !m.ch.sw.lost) ∧
        ∀ r < 256, mapAt 0#24 f r = if entryKind ((m.slot sl).entry r) = 3 ∨ (r ∈ m.ch.sw.toSpace ∧ r * 0x10000 ∈ m.ch.sw.toBlocks) then 0#24
          else setBit ((m.slot sl).entry r) 19 false) ∧
      (∀ a ∈ m.ch.sw.marks, m.fixupEnd.peek a = raw 0#24) ∧
      (bit (winGet m.ch 0x2000) 0 = true → (mapGet m.fixupEnd.ch.proc.pend 80).isSome = true) := by
  generalize hR : m.fixupEnd = R
  unfold Mach.fixupEnd at hR
  dsimp only at hR
  rw [if_neg (by simp [hsweeps, hphase, hplanned, hwork, howes]), hsl] at hR
  have hevac : ∀ r ∈ (m.slot sl).regions (fun e => entryKind e = kEVAC), r < 256 := fun r hr => by
    obtain ⟨hr, -⟩ := List.mem_filter.mp hr
    rw [upFrom_eq_range', List.mem_range'_1] at hr
    omega
  obtain ⟨f1, h1, hmap1, hat1⟩ := setRegions_remaps 0#24 _ hheld hevac hmap
  generalize m.setRegions sl 0#24 ((m.slot sl).regions (fun e => entryKind e = kEVAC)) = m1 at h1 hR
  rw [Mach.unlessEnded, if_pos ((remaps_phase h1).trans hphase)] at hR
  have hslot1 := remaps_slot h1
  have hunused : ∀ r ∈ m.ch.sw.unusedTo, r < 256 := fun r hr => hspace r (List.mem_filter.mp hr).1
  obtain ⟨f2, h2, hmap2, hat2⟩ := setRegions_remaps 0#24 _ (remaps_mapHeld h1 hheld) hunused (by rw [hslot1]; exact hmap1)
  generalize m1.setRegions sl 0#24 m.ch.sw.unusedTo = m2 at h2 hR
  have h2' := remaps_trans h1 h2
  rw [Mach.unlessEnded, if_pos ((remaps_phase h2').trans hphase)] at hR
  have hslot2 := remaps_slot h2'
  obtain ⟨f, h3, -, hat3⟩ := clearNew_all (remaps_mapHeld h2' hheld) (by rw [hslot2]; exact hmap2)
  generalize m2.clearNew sl (m2.slot sl).map = m3 at h3 hR
  have h3' := remaps_trans h2' h3
  rw [Mach.unlessEnded, if_pos ((remaps_phase h3').trans hphase)] at hR
  obtain ⟨hcleared, hpeek⟩ := clearMarks_clears m.ch.sw.marks (m := m3) (fun a ha => by rw [remaps_place h3']; exact hmarks a ha)
  generalize m3.clearMarks m.ch.sw.marks = m4 at hcleared hpeek hR
  have h4 : remaps m m4 sl f := sweptOnly_trans h3' hcleared
  have hslot4 := remaps_slot h4
  obtain ⟨hthr4, -⟩ := swept_keeps h4
  have hc4 : m4.c = m.c := by
    rw [h4]
    rfl
  have hwin4 : m4.ch.win = m.ch.win := by
    rw [h4]
    rfl
  have hend : m4.cycleEnded sl m.ch.sw.full (m.ch.sw.full && !m.ch.sw.lost) = R := hR
  obtain ⟨hc, hidle, hthr, hslot, hcell, hpend⟩ := cycleEnded_leaves m4 sl m.ch.sw.full (m.ch.sw.full && !m.ch.sw.lost)
  rw [hend] at hc hidle hthr hslot hcell hpend
  refine ⟨hc.trans hc4, hidle, hthr.trans hthr4, ⟨f, ?_, fun r hr => ?_⟩, fun a ha => ?_, fun hbit => hpend ?_⟩
  · rw [hslot, hslot4]
    rfl
  · have hentry : (m2.slot sl).entry r = if r ∈ m.ch.sw.unusedTo then 0#24 else
        if r ∈ (m.slot sl).regions (fun e => entryKind e = kEVAC) then 0#24 else (m.slot sl).entry r := by
      rw [hslot2]
      refine (hat2 r).trans (if_congr Iff.rfl rfl ?_)
      rw [hslot1]
      exact hat1 r
    have hto : r ∈ m.ch.sw.unusedTo ↔ r ∈ m.ch.sw.toSpace ∧ r * 0x10000 ∈ m.ch.sw.toBlocks := by simp [Sweeper.unusedTo]
    have hev : r ∈ (m.slot sl).regions (fun e => entryKind e = kEVAC) ↔ entryKind ((m.slot sl).entry r) = 3 := by
      simp [Slot.regions, upFrom_eq_range', hr]
    rw [hat3, hentry]
    by_cases h1 : r ∈ m.ch.sw.unusedTo
    · rw [if_pos h1, if_pos (.inr (hto.mp h1))]
      decide
    · rw [if_neg h1]
      by_cases h2 : r ∈ (m.slot sl).regions (fun e => entryKind e = kEVAC)
      · rw [if_pos h2, if_pos (.inl (hev.mp h2))]
        decide
      · rw [if_neg h2, if_neg (not_or.mpr ⟨mt hev.mpr h2, mt hto.mpr h1⟩)]
  · rw [hcell, hpeek, if_pos ha]
  · unfold winGet
    rw [hwin4]
    exact hbit
end

/-! ### The end of MARK (R351, R352) -/

section
variable {m : Mach} {sl : Fin 8}

/-- A map without entries has no region of a kind but FREE. -/
theorem regions_empty {x : Slot} (hx : x.map = []) {p : Payload → Bool} (hp : p 0#24 = false) : x.regions p = [] := by
  have hentry (r : Nat) : x.entry r = 0#24 := by
    unfold Slot.entry
    rw [hx]
    rfl
  unfold Slot.regions
  simp [hentry, hp]
/-- SELECT of a map without entries chooses nothing. -/
theorem selection_empty (hmap : (m.slot sl).map = []) : m.selection sl = some ([], [], []) := by
  have hnur : (m.slot sl).regions (fun e => entryKind e = kNURSERY && !entryNew e) = [] := regions_empty hmap (by decide)
  have hold : (m.slot sl).regions (fun e => entryKind e = kOLD) = [] := regions_empty hmap (by decide)
  have hfree : (m.slot sl).freeCount = 256 := by
    unfold Slot.freeCount
    rw [hmap]
    rfl
  have hfits : fits 0 256 m.ch.rsv = true := by
    have hrsv : m.ch.rsv < 2 ^ 8 := BitVec.isLt _
    refine decide_eq_true ?_
    show 0 + m.ch.rsv ≤ 256
    omega
  generalize hR : m.selection sl = R
  unfold Mach.selection at hR
  dsimp only at hR
  rw [hnur, hold, hfree] at hR
  rw [if_neg (by simp [hfits])] at hR
  subst hR
  split <;> simp [addWhileFits, spaceFor, ceilDiv]
theorem retireIn_nowhere : ∀ (ts : List (Fin 8)) (m : Mach), m.retireIn sl (fun r => ([] : List Nat).contains r) ts = m
  | [], _ => rfl
  | t :: ts, m => by
    unfold Mach.retireIn
    dsimp only
    rw [if_neg (by simp), Mach.unlessEnded, if_pos rfl]
    exact retireIn_nowhere ts m
theorem filter_upFrom {p : Nat → Bool} {r : Nat} (hr : r < 256) (hp : ∀ q < 256, (p q = true ↔ q = r)) : (upFrom 0 256).filter p = [r] := by
  have hnodup : ((upFrom 0 256).filter p).Nodup := by
    rw [upFrom_eq_range']
    exact (List.nodup_range' ..).filter _
  have hmem (q : Nat) : q ∈ (upFrom 0 256).filter p ↔ q = r := by
    rw [upFrom_eq_range', List.mem_filter, List.mem_range'_1]
    constructor
    · rintro ⟨hq, h⟩
      exact (hp q (by omega)).mp h
    · rintro rfl
      exact ⟨by omega, (hp q hr).mpr rfl⟩
  exact List.perm_singleton.mp ((List.perm_ext_iff_of_nodup hnodup (List.nodup_singleton r)).mpr fun q => by rw [hmem, List.mem_singleton])
/-- Of a map with one dead NURSERY region SELECT frees it and nothing else. -/
theorem deadRegions_single {r : Nat} {e : Payload} (hmap : (m.slot sl).map = [(r, e)]) (hr : r < 256) (hkind : entryKind e = 1)
    (hnew : entryNew e = false) (hlive : m.live r = 0) : m.deadRegions sl = [r] := by
  unfold Mach.deadRegions
  dsimp only
  refine filter_upFrom hr fun q hq => ?_
  have hentry : (m.slot sl).entry q = if q = r then e else 0#24 := by
    unfold Slot.entry mapAt
    rw [hmap]
    by_cases hqr : q = r
    · simp [mapGet, hqr]
    · simp [mapGet, hqr, Ne.symm hqr]
  by_cases hqr : q = r
  · rw [if_pos hqr] at hentry
    subst hqr
    simp [hentry, hkind, hnew, hlive]
  · rw [if_neg hqr] at hentry
    simp only [hentry, hqr, iff_false, show entryKind 0#24 = 0 by decide]
    simp
/-- MARK ends with a dead NURSERY region: it becomes FREE and EVACUATE begins, with nothing to copy. -/
theorem markEnd_frees {r : Nat} {e : Payload} (hsl : m.ch.sw.slot = sl) (hsweeps : m.sweeps = true) (hphase : m.ch.sw.phase = .mark)
    (hplanned : m.ch.sw.planned = true) (hqueue : m.ch.sw.queue = []) (hspilled : m.ch.sw.spilled = 0) (hwork : m.ch.sw.work = []) (hr : r < 256)
    (hmap : (m.slot sl).map = [(r, e)]) (hkind : entryKind e = 1) (hnew : entryNew e = false) (hlive : mapAt 0 m.ch.sw.live r = 0)
    (hplace : m.ch.place (m.mapAddr sl r) = .memory) :
    m.markEnd.c = m.c ∧ m.markEnd.ch.sw.phase = .evacuate ∧ (m.markEnd.slot sl).map = [] ∧ m.markEnd.ch.thr = m.ch.thr ∧
      ∀ a, m.markEnd.peek a = if a = m.mapAddr sl r then fix0 else m.peek a := by
  generalize hR : m.markEnd = R
  unfold Mach.markEnd at hR
  dsimp only at hR
  rw [if_pos (by simp [hsweeps, hphase, hplanned, hqueue, hspilled, hwork])] at hR
  unfold Mach.selectPhase at hR
  extract_lets s chX swX m1 at hR
  have hs : s = sl := hsl
  have hm1 : m1 = { m with ch.sw := { m.ch.sw with phase := .select, xlate := none } } := rfl
  clear_value s m1
  subst hs
  have hselect : m1.ch.sw.phase = .select := by rw [hm1]
  have hmap1 : (m1.slot s).map = [(r, e)] := by
    rw [hm1]
    exact hmap
  have haddr1 : m1.mapAddr s r = m.mapAddr s r := by
    rw [hm1]
    rfl
  have hplace1 : m1.ch.place (m1.mapAddr s r) = .memory := by
    rw [haddr1, hm1]
    exact hplace
  have hdead : m1.deadRegions s = [r] := deadRegions_single hmap1 hr hkind hnew (by rw [hm1]; exact hlive)
  obtain ⟨hswept, hpeek⟩ := setRegion_sets 0#24 hplace1
  have hregs : m1.setRegions s 0#24 [r] = m1.setRegion s r 0#24 := by
    unfold Mach.setRegions
    rw [unlessEnded_remaps hswept]
    rfl
  rw [hdead, hregs] at hR
  generalize m1.setRegion s r 0#24 = m2 at hswept hpeek hR
  obtain ⟨hthr, -, hph, -⟩ := swept_keeps hswept
  have hempty : (m2.slot s).map = [] := by
    rw [swept_slot hswept, slot_setSlot]
    show mapSet 0#24 (m1.slot s).map r 0#24 = []
    rw [hmap1]
    simp [mapSet, mapDel]
  rw [Mach.unlessEnded, if_pos (hph.trans hselect), selection_empty hempty] at hR
  have hgo (n : Mach) (w : Mach → Mach) (hn : n = m2) : n.unlessEnded .select w = w n := by
    rw [hn]
    exact if_pos (hph.trans hselect)
  have hnone (x : Payload) : m2.setRegions s x [] = m2 := rfl
  dsimp only at hR
  rw [hnone, hgo _ _ rfl, hnone, hgo _ _ rfl, retireIn_nowhere, hgo _ _ rfl] at hR
  subst hR
  have hslot : (m2.setSlot s { m2.slot s with handed := (m2.slot s).handed.filter (fun e => !([] : List Nat).contains e.1) }).slot s = _ := slot_setSlot _ _ _
  refine ⟨?_, rfl, (congrArg Slot.map hslot).trans hempty, hthr.trans (by rw [hm1]; rfl), fun a => ?_⟩
  · show m2.c = m.c
    rw [hswept, hm1]
    rfl
  · show m2.peek a = _
    rw [hpeek, haddr1, show fix 0#24 = fix0 by decide, hm1]
    rfl
end

end Sys2Proof.Machine
end

section
/-! The sweeper's copy step (R290, R295, R353), and the claim about its cycle. -/
namespace Sys2Proof.Machine

/-! ### The sweeper's walks (R290, R295) -/

/-- `State.paged` of a slice. -/
def Mach.paged (m : Mach) (vpn : BitVec 14) (asid : BitVec 8) (i h e : Nat) : Prop :=
  let p (a : Nat) : Payload := cellPay (m.peek a)
  m.ch.proc.hatsize ≠ 0#24 ∧ h = bits m.ch.proc.hatbase 0 22 * 1024 + anchorOf vpn asid m.ch.proc.hatsize.toNat ∧
  e = bits m.ch.proc.ptbase 0 22 * 1024 + 4 * i ∧ i < m.ch.memPages ∧ m.ch.place h = .memory ∧ m.ch.place e = .memory ∧ m.ch.place (i * 1024) = .memory ∧
  cellTag (m.peek h) ≠ tPSN ∧ bit (p h) 23 = false ∧ bits (p h) 0 22 = i ∧
  cellTag (m.peek e) ≠ tPSN ∧ cellTag (m.peek (e + 1)) ≠ tPSN ∧ cellTag (m.peek (e + 2)) ≠ tPSN ∧
  (p e).extractLsb' 0 14 = vpn ∧ (p e).extractLsb' 16 8 = asid ∧
  bit (p (e + 1)) 23 = true ∧ bit (p (e + 1)) 17 = false ∧ bit (p (e + 1)) 0 = true ∧ bit (p (e + 1)) 1 = true ∧
  bit (p (e + 1)) 20 = true ∧ bit (p (e + 1)) 21 = true
theorem paged_mach {s : State} {c : Chan} {vpn : BitVec 14} {asid : BitVec 8} {i h e : Nat} (hp : s.paged c vpn asid i h e) :
    (s.mach c).paged vpn asid i h e := hp

section
variable {m n : Mach} {vpn : BitVec 14} {asid : BitVec 8} {i h e : Nat} {sl : Fin 8}

/-- From m to n the sweeper has worked and may keep another translation. -/
def roams (m n : Mach) : Prop := sweptOnly ({ m with ch.sw.xlate := n.ch.sw.xlate } : Mach) n
theorem roams_of_swept (h : sweptOnly m n) : roams m n := by
  obtain ⟨-, -, -, -, -, -, hx, -⟩ := swept_keeps h
  unfold roams
  rw [hx]
  exact h
theorem roams_trans {k : Mach} (h : roams m n) (h' : roams n k) : roams m k := by
  unfold roams sweptOnly at *
  rw [h'] at ⊢
  rw [h]
  rfl
theorem roams_place (h : roams m n) (a : Nat) : n.ch.place a = m.ch.place a := by
  rw [h]
  rfl
theorem roams_keeps (h : roams m n) : n.c = m.c ∧ n.ch.thr = m.ch.thr ∧ n.ch.sw.phase = m.ch.sw.phase ∧ n.ch.sw.slot = m.ch.sw.slot ∧
    (∀ sl, n.slot sl = m.slot sl) ∧ n.ch.sw.copy = m.ch.sw.copy := by
  rw [h]
  exact ⟨rfl, rfl, rfl, rfl, fun _ => rfl, rfl⟩
/-- A page's translation depends on the tables' registers and on four cells. -/
theorem paged_of_roams (h' : roams m n) (hcell : ∀ a ∈ [h, e, e + 1, e + 2], n.peek a = m.peek a) (hp : m.paged vpn asid i h e) : n.paged vpn asid i h e := by
  have hproc : n.ch.proc.hatsize = m.ch.proc.hatsize ∧ n.ch.proc.hatbase = m.ch.proc.hatbase ∧ n.ch.proc.ptbase = m.ch.proc.ptbase ∧
      n.ch.memPages = m.ch.memPages := by
    rw [h']
    exact ⟨rfl, rfl, rfl, rfl⟩
  obtain ⟨hsize, hbase, hpt, hpages⟩ := hproc
  unfold Mach.paged at *
  dsimp only at hp ⊢
  rw [hsize, hbase, hpt, hpages, roams_place h', roams_place h', roams_place h', hcell h (by simp), hcell e (by simp), hcell (e + 1) (by simp),
    hcell (e + 2) (by simp)]
  exact hp
/-- A page has one entry. -/
theorem paged_unique {i' h' e' : Nat} (hp : m.paged vpn asid i h e) (hp' : m.paged vpn asid i' h' e') : i' = i ∧ e' = e := by
  obtain ⟨-, hh, he, -, -, -, -, -, -, hi, -⟩ := hp
  obtain ⟨-, hh', he', -, -, -, -, -, -, hi', -⟩ := hp'
  have hii : i' = i := by rw [← hi, ← hi', hh, hh']
  exact ⟨hii, by rw [he, he', hii]⟩

theorem sweeperRead_reads (m : Mach) (l : Nat) (hint : BitVec 2) (spec : Bool) : readsAlong m (m.turnRead .sweeper l hint spec).2 :=
  readsAlong_trans (readsAlong_turn m l) (readsAlong_poolAdd _ _)
theorem sweeperRead_cell (m : Mach) {a l : Nat} (hl : a / 16 = l) (hint : BitVec 2) (spec : Bool) :
    lineAt (m.turnRead .sweeper l hint spec).1 a = m.memCell a := by
  subst hl
  exact (lineAt_lineCells (m.turn .sweeper (a / 16)) a).trans ((readsAlong_turn m (a / 16)).2 a)
theorem walkRead_reads {a : Nat} (hplace : m.ch.place a = .memory) (htag : cellTag (m.peek a) ≠ tPSN) (nearOk : Bool) :
    ∃ n, m.walkRead .sweeper a nearOk = (some (m.peek a), n) ∧ readsAlong m n := by
  have hcell : lineAt (m.turnRead .sweeper (a / 16) 0#2 false).1 a = m.peek a := (sweeperRead_cell m rfl 0#2 false).trans (peek_memory hplace).symm
  refine ⟨(m.turnRead .sweeper (a / 16) 0#2 false).2, ?_, sweeperRead_reads m _ _ _⟩
  unfold Mach.walkRead
  rw [hplace]
  dsimp only
  rw [hcell, if_neg htag]
/-- The three cells of an entry of the page table, read together. -/
theorem walkEntry_reads (he : e = m.ptBase + 4 * i) (hplace : m.ch.place e = .memory) (hk : cellTag (m.peek e) ≠ tPSN)
    (hf : cellTag (m.peek (e + 1)) ≠ tPSN) (hn : cellTag (m.peek (e + 2)) ≠ tPSN) :
    ∃ n, m.walkEntry .sweeper i = (some (cellPay (m.peek e), cellPay (m.peek (e + 1)), cellPay (m.peek (e + 2))), n) ∧ readsAlong m n := by
  have hfour : e % 4 = 0 := by
    rw [he]
    unfold Mach.ptBase
    omega
  have hcell (k : Nat) (hk : k < 3) : lineAt (m.turnRead .sweeper (e / 16) 0#2 false).1 (e + k) = m.peek (e + k) :=
    (sweeperRead_cell m (by omega) 0#2 false).trans (peek_memory (place_of_page hplace (by omega))).symm
  have h0 := hcell 0 (by omega)
  rw [Nat.add_zero] at h0
  refine ⟨(m.turnRead .sweeper (e / 16) 0#2 false).2, ?_, sweeperRead_reads m _ _ _⟩
  unfold Mach.walkEntry
  dsimp only
  rw [← he, hplace]
  dsimp only
  rw [h0, hcell 1 (by omega), hcell 2 (by omega), if_neg (by simp [hk, hf, hn])]
theorem walk_finds (hp : m.paged vpn asid i h e) :
    ∃ k n, m.walk .sweeper vpn asid = (.found i k (cellPay (m.peek (e + 1))), n) ∧ readsAlong m n := by
  obtain ⟨hsize, hh, he, hi, hph, hpe, -, hth, hend, hix, htk, htf, htn, hvpn, hasid, hv, htyp, -, -, -, -⟩ := hp
  obtain ⟨n1, h1, hr1⟩ := walkRead_reads hph hth true
  have hpeek1 (a : Nat) : n1.peek a = m.peek a := peek_of_swept hr1.1 hr1.2 a
  have hptbase : n1.ptBase = m.ptBase := by
    rw [hr1.1]
    rfl
  have hpages : n1.ch.memPages = m.ch.memPages := by
    rw [hr1.1]
    rfl
  obtain ⟨n2, h2, hr2⟩ := walkEntry_reads (m := n1) (i := i) (e := e) (by rw [hptbase]; exact he) (by rw [swept_place hr1.1]; exact hpe)
    (by rw [hpeek1]; exact htk) (by rw [hpeek1]; exact htf) (by rw [hpeek1]; exact htn)
  rw [hpeek1, hpeek1, hpeek1] at h2
  have hr : readsAlong m n2 := readsAlong_trans hr1 hr2
  have hpages2 : n2.ch.memPages = m.ch.memPages := by
    rw [hr.1]
    rfl
  have hfrom : n1.searchFrom .sweeper vpn asid false (cellPay (m.peek h)) 64 = (.found i (cellPay (m.peek e)) (cellPay (m.peek (e + 1))), n2) := by
    unfold Mach.searchFrom
    rw [hend, if_neg (by simp)]
    dsimp only
    rw [hix, hpages, if_neg (by omega), h2]
    dsimp only
    refine if_pos ?_
    rw [hvpn]
    simp [flV, keyAsid, hv, hasid]
  have hsearch : m.search .sweeper vpn asid false = (.found i (cellPay (m.peek e)) (cellPay (m.peek (e + 1))), n2) := by
    unfold Mach.search Mach.hatBase
    rw [← hh, h1]
    exact hfrom
  have htype : n2.ch.typeOk i (flType (cellPay (m.peek (e + 1)))) = true := by
    unfold Channel.typeOk
    rw [hpages2, if_pos hi]
    have hbit : (flType (cellPay (m.peek (e + 1)))).getLsbD 1 = false := by
      unfold flType
      unfold bit at htyp
      simpa [BitVec.getLsbD_extractLsb'] using htyp
    generalize flType (cellPay (m.peek (e + 1))) = t at hbit
    revert t
    decide
  refine ⟨cellPay (m.peek e), n2, ?_, hr⟩
  unfold Mach.walk
  rw [if_neg hsize]
  dsimp only
  rw [hsearch, if_neg (by simp)]
  exact if_pos htype

/-! ### The translation the sweeper keeps (R290) -/

/-- The translation kept is one the tables in memory give. -/
def Mach.keepsPage (m : Mach) : Prop :=
  ∀ v a i f, m.ch.sw.xlate = some (v, a, i, f) → ∃ h e, m.paged v a i h e ∧ f = cellPay (m.peek (e + 1))
theorem peek_of_roams (hn : roams m n) (hcell : ∀ a, n.memCell a = m.memCell a) (a : Nat) : n.peek a = m.peek a :=
  (peek_of_swept (m := { m with ch.sw.xlate := n.ch.sw.xlate }) hn hcell a).trans rfl
/-- A page once found is the translation kept. -/
theorem keepsPage_of (hn : roams m n) (hp : m.paged vpn asid i h e) (hx : n.ch.sw.xlate = some (vpn, asid, i, cellPay (m.peek (e + 1))))
    (hcell : ∀ a ∈ [h, e, e + 1, e + 2], n.peek a = m.peek a) : n.keepsPage := by
  intro v a j f hf
  rw [hx] at hf
  obtain ⟨rfl, rfl, rfl, rfl⟩ : vpn = v ∧ asid = a ∧ i = j ∧ cellPay (m.peek (e + 1)) = f := by simpa using hf
  exact ⟨h, e, paged_of_roams hn hcell hp, by rw [hcell (e + 1) (by simp)]⟩
theorem sweep_swWalk (hp : m.paged vpn asid i h e) :
    ∃ n, m.sweep (swWalk vpn asid) = (.ok (i, cellPay (m.peek (e + 1))), n) ∧ roams m n ∧ (∀ a, n.memCell a = m.memCell a) ∧
      n.ch.sw.xlate = some (vpn, asid, i, cellPay (m.peek (e + 1))) := by
  obtain ⟨k, n, hwalk, hreads⟩ := walk_finds hp
  refine ⟨{ n with ch.sw.xlate := some (vpn, asid, i, cellPay (m.peek (e + 1))) }, ?_, ?_, hreads.2, rfl⟩
  · unfold swWalk
    rw [sweep_bind_ok (sweep_swUse m _), hwalk]
    rfl
  · unfold roams sweptOnly
    rw [hreads.1]
    rfl
theorem sweep_swPage (hk : m.keepsPage) (hp : m.paged vpn asid i h e) :
    ∃ n, m.sweep (swPage vpn asid) = (.ok (i, cellPay (m.peek (e + 1))), n) ∧ roams m n ∧ (∀ a, n.memCell a = m.memCell a) ∧
      n.ch.sw.xlate = some (vpn, asid, i, cellPay (m.peek (e + 1))) := by
  have hwalk := sweep_swWalk hp
  unfold swPage
  rw [sweep_bind_ok (sweep_get m)]
  rcases hx : m.ch.sw.xlate with _ | ⟨v, a, j, f⟩
  · exact hwalk
  · dsimp only
    by_cases hva : v = vpn ∧ a = asid
    · obtain ⟨rfl, rfl⟩ := hva
      obtain ⟨h', e', hp', hf⟩ := hk v a j f hx
      obtain ⟨hj, he⟩ := paged_unique hp hp'
      subst hj he hf
      rw [if_pos (by simp)]
      exact ⟨m, rfl, roams_of_swept (sweptOnly_refl m), fun _ => rfl, hx⟩
    · rw [if_neg (by simpa using hva)]
      exact hwalk
theorem pageBase_memory (hi : i < m.ch.memPages) : m.ch.pageBase i = i * 1024 := if_pos hi
/-- The translation of an access to a page that is readable, writable, accessed and dirty. -/
theorem sweep_xlate {va : Nat} {rd wr : Bool} (hk : m.keepsPage) (hp : m.paged (BitVec.ofNat 14 (va / 1024)) (m.slot sl).asid i h e) :
    ∃ n, m.sweep (swXlate sl va rd wr) = (.ok (i * 1024 + va % 1024), n) ∧ roams m n ∧ (∀ a, n.memCell a = m.memCell a) ∧
      n.ch.sw.xlate = some (BitVec.ofNat 14 (va / 1024), (m.slot sl).asid, i, cellPay (m.peek (e + 1))) := by
  obtain ⟨n, hpage, hroams, hcell, hx⟩ := sweep_swPage hk hp
  obtain ⟨-, -, -, hi, -, -, hpi, -, -, -, -, -, -, -, -, -, htyp, hr, hw, hd, ha⟩ := hp
  have hpages : n.ch.memPages = m.ch.memPages := by
    rw [hroams]
    rfl
  have hbase : n.ch.pageBase i = i * 1024 := pageBase_memory (by rw [hpages]; exact hi)
  have hplace : n.ch.place (i * 1024 + va % 1024) = .memory := by
    rw [roams_place hroams]
    exact place_of_page hpi (by omega)
  have htype : flType (cellPay (m.peek (e + 1))) ≠ 2#2 := by
    have hbit : (flType (cellPay (m.peek (e + 1)))).getLsbD 1 = false := by
      unfold flType
      unfold bit at htyp
      simpa [BitVec.getLsbD_extractLsb'] using htyp
    intro h2
    rw [h2] at hbit
    exact absurd hbit (by decide)
  have honce : m.sweep (swXlateOnce sl va rd wr) = (.ok (some (i * 1024 + va % 1024)), n) := by
    unfold swXlateOnce
    rw [sweep_bind_ok (sweep_get m), sweep_bind_ok hpage]
    dsimp only
    rw [sweep_check_passes (by simp [hr, hw, htype]), sweep_bind_ok (sweep_get n), sweep_bind_ok (sweep_get n), hbase,
      sweep_check_passes (by simp [hplace]), if_neg (by simp [ha, hd])]
    rfl
  refine ⟨n, ?_, hroams, hcell, hx⟩
  unfold swXlate swXlateN
  rw [sweep_bind_ok honce]
  rfl

/-! ### Cells read and written (R290) -/

/-- A virtual cell read: the page found is kept, and no cell changes. -/
theorem sweep_read {va : Nat} (hk : m.keepsPage) (hp : m.paged (BitVec.ofNat 14 (va / 1024)) (m.slot sl).asid i h e) :
    ∃ n, m.sweep (swRead sl va) = (.ok (m.peek (i * 1024 + va % 1024)), n) ∧ roams m n ∧ (∀ a, n.peek a = m.peek a) ∧ n.keepsPage := by
  obtain ⟨x, hxl, hroams, hcell, hx⟩ := sweep_xlate (rd := true) (wr := false) hk hp
  have hpi := hp.2.2.2.2.2.2.1
  have hplace : x.ch.place (i * 1024 + va % 1024) = .memory := by
    rw [roams_place hroams]
    exact place_of_page hpi (by omega)
  have hreads := sweeperRead_reads x ((i * 1024 + va % 1024) / 16) 0#2 false
  have hfound : lineAt (x.turnRead .sweeper ((i * 1024 + va % 1024) / 16) 0#2 false).1 (i * 1024 + va % 1024) = m.peek (i * 1024 + va % 1024) := by
    rw [sweeperRead_cell x rfl, hcell, peek_memory (by rw [← roams_place hroams]; exact hplace)]
  have hphys : x.physRead .sweeper (i * 1024 + va % 1024) =
      (m.peek (i * 1024 + va % 1024), (x.turnRead .sweeper ((i * 1024 + va % 1024) / 16) 0#2 false).2) := by
    unfold Mach.physRead
    rw [hplace]
    dsimp only
    rw [hfound]
  generalize (x.turnRead .sweeper ((i * 1024 + va % 1024) / 16) 0#2 false).2 = n at hreads hphys
  have hn : roams m n := roams_trans hroams (roams_of_swept hreads.1)
  have hpeek (a : Nat) : n.peek a = m.peek a := (peek_of_swept hreads.1 hreads.2 a).trans (peek_of_roams hroams hcell a)
  have hxn : n.ch.sw.xlate = x.ch.sw.xlate := (swept_keeps hreads.1).2.2.2.2.2.2.1
  refine ⟨n, ?_, hn, hpeek, keepsPage_of hn hp (hxn.trans hx) fun a _ => hpeek a⟩
  unfold swRead
  rw [sweep_bind_ok hxl]
  refine (sweep_swUse x _).trans ?_
  rw [hphys]
/-- A virtual cell written: that cell, and no other. -/
theorem sweep_write {va : Nat} (rd : Bool) (v : Cell) (hk : m.keepsPage) (hp : m.paged (BitVec.ofNat 14 (va / 1024)) (m.slot sl).asid i h e)
    (hapart : i * 1024 + va % 1024 ∉ [h, e, e + 1, e + 2]) :
    ∃ n, m.sweep (swXlate sl va rd true >>= fun a => swMod (fun m => m.cellStep .sweeper a v false)) = (.ok (), n) ∧ roams m n ∧
      (∀ a, n.peek a = if a = i * 1024 + va % 1024 then v else m.peek a) ∧ n.keepsPage := by
  obtain ⟨x, hxl, hroams, hcell, hx⟩ := sweep_xlate (rd := rd) (wr := true) hk hp
  have hpi := hp.2.2.2.2.2.2.1
  have hplace : x.ch.place (i * 1024 + va % 1024) = .memory := by
    rw [roams_place hroams]
    exact place_of_page hpi (by omega)
  have hswept := sweptOnly_cellStep hplace v false
  have hstep := peek_sweeperCell hplace v
  refine ⟨x.cellStep .sweeper (i * 1024 + va % 1024) v false, ?_, ?_⟩
  · rw [sweep_bind_ok hxl]
    exact sweep_swMod x _
  · generalize x.cellStep .sweeper (i * 1024 + va % 1024) v false = n at hswept hstep
    have hn : roams m n := roams_trans hroams (roams_of_swept hswept)
    have hpeek (a : Nat) : n.peek a = if a = i * 1024 + va % 1024 then v else m.peek a := by
      rw [hstep, peek_of_roams hroams hcell]
    have hxn : n.ch.sw.xlate = x.ch.sw.xlate := (swept_keeps hswept).2.2.2.2.2.2.1
    refine ⟨hn, hpeek, keepsPage_of hn hp (hxn.trans hx) fun a ha => ?_⟩
    rw [hpeek, if_neg]
    exact fun hax => hapart (hax ▸ ha)

/-! ### A copy step (R353) -/

/-- A cell is copied with its CDR, and FWD left in its place. -/
theorem copyCell_moves {j : CopyJob} {i k h e h' e' ps pd : Nat} (hsl : m.ch.sw.slot = sl) (hphase : m.ch.sw.phase = .evacuate) (hmore : j.k + 1 < j.len)
    (hx : m.ch.sw.xlate = none)
    (hsrc : m.paged (BitVec.ofNat 14 ((j.src + j.k) / 1024)) (m.slot sl).asid i h e)
    (hdst : m.paged (BitVec.ofNat 14 ((j.dst + j.k) / 1024)) (m.slot sl).asid k h' e')
    (hps : ps = i * 1024 + (j.src + j.k) % 1024) (hpd : pd = k * 1024 + (j.dst + j.k) % 1024)
    (hapart : ∀ a ∈ [ps, pd], a ∉ [h, e, e + 1, e + 2, h', e', e' + 1, e' + 2])
    (hkind : isPtrOrFwd (m.peek ps) = true → entryKind ((m.slot sl).entry (bits (cellPay (m.peek ps)) 16 8)) ≠ 1 ∧
      entryKind ((m.slot sl).entry (bits (cellPay (m.peek ps)) 16 8)) ≠ 3) :
    (m.copyCell j).c = m.c ∧ (m.copyCell j).ch.thr = m.ch.thr ∧ (m.copyCell j).ch.sw.copy = some { j with k := j.k + 1 } ∧
      ∀ a, (m.copyCell j).peek a = if a = ps then mkCell tFWD (cellCdr (m.peek ps)) (BitVec.ofNat 24 (j.dst + j.k))
        else if a = pd then m.peek ps else m.peek a := by
  have hk0 : m.keepsPage := fun v a i f hf => by rw [hx] at hf; nomatch hf
  obtain ⟨n1, hread, hr1, hpeek1, hk1⟩ := sweep_read (sl := sl) hk0 hsrc
  have hslot1 : n1.slot sl = m.slot sl := (roams_keeps hr1).2.2.2.2.1 sl
  have hdst1 := paged_of_roams hr1 (fun a _ => hpeek1 a) hdst
  obtain ⟨n2, hwrite, hr2, hpeek2, hk2⟩ := sweep_write (sl := sl) (va := j.dst + j.k) false (m.peek ps) hk1 (by rw [hslot1]; exact hdst1)
    (by
      have hpd' := hapart pd (by simp)
      rw [← hpd]
      simp only [List.mem_cons, List.not_mem_nil, or_false, not_or] at hpd' ⊢
      obtain ⟨-, -, -, -, h1, h2, h3, h4⟩ := hpd'
      exact ⟨h1, h2, h3, h4⟩)
  have hr12 := roams_trans hr1 hr2
  have hslot2 : n2.slot sl = m.slot sl := (roams_keeps hr12).2.2.2.2.1 sl
  have hsrc2 : n2.paged (BitVec.ofNat 14 ((j.src + j.k) / 1024)) (m.slot sl).asid i h e := by
    refine paged_of_roams hr12 (fun a ha => ?_) hsrc
    rw [hpeek2, hpeek1, if_neg]
    rintro rfl
    have hpd' := hapart pd (by simp)
    rw [← hpd] at ha
    simp only [List.mem_cons, List.not_mem_nil, or_false, not_or] at hpd' ha
    omega
  obtain ⟨n3, hswap, hr3, hpeek3, -⟩ := sweep_write (sl := sl) (va := j.src + j.k) true (mkCell tFWD (cellCdr (m.peek ps)) (BitVec.ofNat 24 (j.dst + j.k)))
    hk2 (by rw [hslot2]; exact hsrc2)
    (by
      have hps' := hapart ps (by simp)
      rw [← hps]
      simp only [List.mem_cons, List.not_mem_nil, or_false, not_or] at hps' ⊢
      obtain ⟨h1, h2, h3, h4, -⟩ := hps'
      exact ⟨h1, h2, h3, h4⟩)
  have hcopy : m.sweepTry (do
      let v ← swRead sl (j.src + j.k)
      swWrite sl (j.dst + j.k) v
      return v) = (.ok (m.peek ps), n2) := by
    rw [hps]
    unfold Mach.sweepTry
    rw [sweep_bind_ok hread]
    unfold swWrite
    rw [← hps, sweep_bind_ok hwrite]
    rfl
  have hforward : n2.sweepTry (swSwap sl (j.src + j.k) (mkCell tFWD (cellCdr (m.peek ps)) (BitVec.ofNat 24 (j.dst + j.k)))) = (.ok (), n3) := by
    unfold Mach.sweepTry swSwap
    rw [hswap]
  have hregion : regionOf (cellPay (m.peek ps)).toNat = bits (cellPay (m.peek ps)) 16 8 := by
    unfold regionOf bits
    rw [BitVec.extractLsb'_toNat, Nat.shiftRight_eq_div_pow]
  have hcard : ¬ (isPtrOrFwd (m.peek ps) && (decide ((n2.slot sl).kind (regionOf (cellPay (m.peek ps)).toNat) = kNURSERY) ||
      decide ((n2.slot sl).kind (regionOf (cellPay (m.peek ps)).toNat) = kEVAC))) = true := by
    intro hc
    rw [hslot2, hregion, Slot.kind, Bool.and_eq_true, Bool.or_eq_true, decide_eq_true_iff, decide_eq_true_iff] at hc
    obtain ⟨hptr, hnur | hevac⟩ := hc
    · exact (hkind hptr).1 hnur
    · exact (hkind hptr).2 hevac
  have hr := roams_trans hr12 hr3
  obtain ⟨hc, hthr, -⟩ := roams_keeps hr
  have hphase2 : n2.ch.sw.phase = .evacuate := (roams_keeps hr12).2.2.1.trans hphase
  generalize hR : m.copyCell j = R
  unfold Mach.copyCell at hR
  dsimp only at hR
  rw [hsl, hcopy] at hR
  dsimp only at hR
  rw [if_neg hcard, Mach.unlessEnded, if_pos hphase2, hforward] at hR
  dsimp only at hR
  rw [if_pos hmore] at hR
  subst hR
  refine ⟨hc, hthr, rfl, fun a => ?_⟩
  show n3.peek a = _
  rw [hpeek3, ← hps, hpeek2, ← hpd, hpeek1]
end

/-! ### The claim -/

section
variable {s : State} {c : Chan}

/-- What a unit's work on its channel leaves, read off the slice it ends on. -/
theorem unit_leaves {i : Instr} {f : Mach → Mach} {n : Mach} (hex : exec i s = .next (s.onMach c f)) (hf : f (s.mach c) = n) (hc : n.c = c) :
    ∃ s', exec i s = .next s' ∧ sameElsewhere s s' c ∧ s'.chan c = n.ch ∧ ∀ a, s'.cell c a = n.peek a := by
  subst hf
  exact ⟨_, hex, onMach_elsewhere s c f, chan_onMach s c f, cell_onMach hc⟩
/-- What a spilled line reads as. -/
theorem peek_spilled {m : Mach} {a : Nat} {q : List Cell} (ha : a % 16 = 0) (hq : 16 ≤ q.length) (hplace : m.ch.place a = .memory) :
    (∀ i < 16, (m.memStep .sweeper (a / 16) (lineOf 0 (q.take 16))).peek (a + i) = q.getD i fix0) ∧
      ∀ b, b < a ∨ a + 16 ≤ b → (m.memStep .sweeper (a / 16) (lineOf 0 (q.take 16))).peek b = m.peek b := by
  have hpeek := peek_sweeperStep (m := m) (cells := lineOf 0 (q.take 16)) (place_of_line hplace)
  refine ⟨fun i hi => ?_, fun b hb => ?_⟩
  · have hmod : (a + i) % 16 = i := by omega
    rw [hpeek, if_pos (by omega), mapGet_lineOf, hmod, if_pos (Nat.zero_le i), Nat.sub_zero, List.getElem?_take_of_lt hi,
      List.getElem?_eq_getElem (by omega)]
    simp [writtenOver, List.getElem?_eq_getElem (show i < q.length by omega)]
  · rw [hpeek, if_neg (by omega)]
end

/-- What a drained log entry leaves: its card set, the entry gone. -/
theorem logDrain_leaves {m : Mach} {u : Fin 8} {p : Payload} {o w : Nat} (hocc : m.ch.sw.logOcc ≠ 0#11)
    (ho : o = m.ch.proc.nearbase.toNat + (m.ch.sw.logHead.toNat + 1024 - m.ch.sw.logOcc.toNat) % 1024) (hlow : o < 0x10000)
    (hclean : (nearRead (m.nearBits o)).1 = .clean) (hcell : m.peek (0x80000000 + o) = raw p) (hres : bits p 18 3 = 0) (hslot : bits p 21 3 = u.val)
    (hen : (m.slot u).en = true) (hw : w = m.side u + 0x80000 + bits p 4 14) (hplace : m.ch.place w = .memory) :
    m.logDrain.c = m.c ∧ m.logDrain.ch.sw = { m.ch.sw with logOcc := m.ch.sw.logOcc - 1#11, lastLine := some (w / 16) } ∧
      m.logDrain.ch.thr = m.ch.thr ∧
      ∀ a, m.logDrain.peek a = if a = w then raw (setBit (cellPay (m.peek w)) (bits p 0 4) true) else m.peek a := by
  have hdrain := logDrain_sets hocc ho hlow hclean hcell hres hslot hen hw hplace
  generalize raw (setBit (cellPay (m.peek w)) (bits p 0 4) true) = v at hdrain ⊢
  generalize hm1 : ({ m with ch.sw.logOcc := m.ch.sw.logOcc - 1#11 } : Mach) = m1 at hdrain
  have hplace1 : m1.ch.place w = .memory := by
    rw [← hm1]
    exact hplace
  obtain ⟨hc, hsw, hthr⟩ := sweeperStep_keeps m1 (w / 16) [(w % 16, v, false)]
  have hpeek := peek_sweeperCell hplace1 v
  rw [cellStep_memory hplace1] at hpeek
  rw [hdrain]
  refine ⟨hc.trans ?_, hsw.trans ?_, hthr.trans ?_, fun a => (hpeek a).trans ?_⟩
  · rw [← hm1]
  · rw [← hm1]
  · rw [← hm1]
  · rw [← hm1]
    rfl

/-- Settles O52: each step of the cycle by its function on the slice. -/
theorem sweeperCycle : Obligations.SweeperCycle := by
  intro s c ch sw sl x mapCell hcond hpower hheld
  have hsweeps : (s.mach c).sweeps = true := sweeps_of hcond hpower hheld
  refine ⟨fun o w u p hocc ho hlow hclean hcell hres hslot hen hw hplace => ?_, fun hmarking hfull hline hroom hplace => ?_,
    fun r e hphase hplanned hqueue hspilled hwork hr hmap hkind hnew hlive hplace => ?_,
    fun j i k h e h' e' ps pd hphase hcopy hmore hx hsrc hdst hps hpd _ hapart hkind => ?_,
    fun hphase hcopy htodo hwork hblocks hclosed hwait => ?_,
    fun hphase hplanned hwork howes hwf hkeys hspace hmarks hheldMap => ?_⟩
  · obtain ⟨hc, hsw, hthr, hpeek⟩ := logDrain_leaves (m := s.mach c) (u := u) hocc ho hlow (hclean 0 (by decide)) hcell hres hslot hen hw hplace
    obtain ⟨s', hex, helse, hch, hcells⟩ := unit_leaves (s := s) (c := c) (i := .logDrain c) (n := (s.mach c).logDrain) rfl (if_pos hsweeps) hc
    refine ⟨s', hex, helse, by rw [hch]; exact hsw, by rw [hch]; exact hthr, ?_, fun a ha => ?_⟩
    · rw [hcells, hpeek]
      exact if_pos rfl
    · rw [hcells, hpeek]
      exact if_neg ha
  · obtain ⟨n, hn, hspill⟩ := spillLine_writes (m := s.mach c) rfl hroom hplace
    obtain ⟨hc, hsw, hthr⟩ := sweeperStep_keeps (s.mach c) ((bits (winGet ch 0x2005) 0 22 * 1024 + sw.spilled) / 16) (lineOf 0 (sw.queue.take 16))
    obtain ⟨hin, hout⟩ := peek_spilled (m := s.mach c) (q := sw.queue) (show (bits (winGet ch 0x2005) 0 22 * 1024 + sw.spilled) % 16 = 0 by omega)
      (by omega) hplace
    have hgo : ((s.mach c).sweeps && (s.mach c).ch.sw.phase.marking && decide (4096 ≤ (s.mach c).ch.sw.queue.length)) = true := by
      have hmark : (s.mach c).ch.sw.phase.marking = true := by
        rcases hmarking with h | h
        · rw [show (s.mach c).ch.sw.phase = .roots from h]
          rfl
        · rw [show (s.mach c).ch.sw.phase = .mark from h]
          rfl
      rw [hsweeps, hmark]
      exact decide_eq_true hfull
    have hn' : n = (s.mach c).memStep .sweeper ((bits (winGet ch 0x2005) 0 22 * 1024 + sw.spilled) / 16) (lineOf 0 (sw.queue.take 16)) := hn
    rw [← hn'] at hc hsw hthr hin hout
    obtain ⟨s', hex, helse, hch, hcells⟩ := unit_leaves (s := s) (c := c) (i := .markQueueSpill c) rfl ((if_pos hgo).trans hspill) hc
    refine ⟨s', hex, helse, ?_, by rw [hch]; exact hthr, fun i hi => ?_, fun b hb => ?_⟩
    · rw [hch]
      dsimp only
      rw [hsw]
      rfl
    · rw [hcells]
      exact hin i hi
    · rw [hcells]
      exact hout b hb
  · obtain ⟨hc, hend, hempty, hthr, hpeek⟩ := markEnd_frees (m := s.mach c) (sl := sl) rfl hsweeps hphase hplanned hqueue hspilled hwork hr hmap hkind
      hnew hlive hplace
    obtain ⟨s', hex, helse, hch, hcells⟩ := unit_leaves (s := s) (c := c) (i := .markEnd c) rfl rfl hc
    refine ⟨s', hex, helse, by rw [hch]; exact hend, by rw [hch]; exact hempty, by rw [hch]; exact hthr, ?_, fun a ha => ?_⟩
    · rw [hcells, hpeek]
      exact if_pos rfl
    · rw [hcells, hpeek]
      exact if_neg ha
  · obtain ⟨hc, hthr, hnext, hpeek⟩ := copyCell_moves (m := s.mach c) (sl := sl) rfl hphase hmore hx hsrc hdst hps hpd hapart hkind
    have hunit : (s.mach c).copyUnit = (s.mach c).copyCell j := by
      have hcopy' : (s.mach c).ch.sw.copy = some j := hcopy
      unfold Mach.copyUnit
      rw [if_neg (fun h => h hphase), hcopy']
    obtain ⟨s', hex, helse, hch, hcells⟩ := unit_leaves (s := s) (c := c) (i := .sweeperCopy c) rfl ((if_pos hsweeps).trans hunit) hc
    refine ⟨s', hex, helse, by rw [hch]; exact hthr, by rw [hch]; exact hnext, ?_, ?_, fun a ha hb => ?_⟩
    · rw [hcells, hpeek, if_neg (Ne.symm ‹ps ≠ pd›), if_pos rfl]
      rfl
    · rw [hcells, hpeek, if_pos rfl]
      rfl
    · rw [hcells, hpeek, if_neg ha, if_neg hb]
      rfl
  · refine does_of_onMach (f := Mach.evacuateEnd) (p := ch.perf) (n := s.free) rfl ?_
    exact (evacuateEnd_fixes (m := s.mach c) hsweeps hphase hcopy htodo hwork hblocks hclosed).trans (raiseRoots_all hwait)
  · have howes' : (s.mach c).ch.sw.owesWhole = false := by
      unfold Sweeper.owesWhole
      show (!sw.full && sw.lost && !sw.whole) = false
      rcases howes with h | h | h <;> simp [h]
    obtain ⟨hc, hidle, hthr, ⟨f, hslot, hat⟩, hcleared, hpend⟩ := fixupEnd_ends (m := s.mach c) (sl := sl) rfl hsweeps hphase hplanned hwork howes' hheldMap
      ⟨hwf, hkeys⟩ hspace hmarks
    obtain ⟨s', hex, helse, hch, hcells⟩ := unit_leaves (s := s) (c := c) (i := .fixupEnd c) rfl rfl hc
    have hslot' : (s'.chan c).sw.slots[sl] = x.counted f (sw.full && !sw.lost) := by
      rw [hch]
      exact hslot
    refine ⟨s', hex, helse, by rw [hch]; exact hidle, by rw [hch]; exact hthr, ?_, fun a ha => ?_, fun hbit => ?_⟩
    · rw [hslot']
      exact ⟨rfl, rfl, rfl, rfl, hat⟩
    · rw [hcells]
      exact hcleared a ha
    · rw [hch]
      exact hpend hbit

end Sys2Proof.Machine
end
